-- ==== Sys2Proof/Word.lean ====
section
/-! DEFINITION. The plain value types of the model: bytes, byte strings, and the sorted association
list that holds every sparse family of like things (rings, fields, indexes, cores, units). -/

namespace Sys2Proof

/-- One byte. -/
abbrev Byte := BitVec 8

/-- A string of bytes, lowest address first (00_scope, Reading conventions: little-endian). -/
abbrev Bytes := List (BitVec 8)

/-- A family of like things by number: pairs in strictly rising key order. -/
abbrev FMap (α : Type) := List (Nat × α)

end Sys2Proof
end

