-- ==== Sys2Proof/Syntax.lean ====
section
/-! DEFINITION. The commands of the block, one constructor of `Instr` per row of the spec's table of
operations and events. Operands hold what comes from outside: a register value, the bytes the device
reads by DMA, a unit number, the outcome of a physical test, a received flit or message. -/

namespace Sys2Proof

/-- What host memory answers to a packet's command: the parameter block as read (none when the read
fails, R113 step 7), and whether the writes of reply data and of the completion record succeed (R117,
Table 2.7 cause 3). -/
structure Dma where
  block : Option Bytes
  replyOk : Bool
  recordOk : Bool
  deriving DecidableEq, Repr

/-- R764, R766: what a cold or PERST_N reset cuts short: a stake record of which so many copies are programmed, a staging of which so
many sectors are erased and pages programmed, or the rewriting of an activation sector. -/
inductive CutShort where
  | nothing
  | stake (copies : Nat)
  | staging (dma : Dma) (sectors pages : Nat)
  | sector (dma : Dma)
  deriving DecidableEq, Repr

/-- R495: what the inline ECC check of an access finds. -/
inductive Ecc where
  | clean
  | corrected
  | uncorrectable
  deriving DecidableEq, Repr

/-- R632: the two SPDM transports. -/
inductive Transport where
  | mctp
  | doe
  deriving DecidableEq, Repr

/-- R487, R488: what one channel's devices show in the training steps of Table 9.2. -/
structure ChannelProbe where
  answers : Bool
  gddr7 : Bool
  density : Nat
  clamshell : Bool
  /-- Data rates at which steps 3 to 7 complete. -/
  rates : List Nat
  deriving DecidableEq, Repr

/-- Table 10.2: the exit condition of a training state, with what it carries. -/
inductive TrainExit where
  | beacon (lanes : BitVec 8)
  /-- R549: of each receive lane, the transmit lane on whose pattern it locked and whether its polarity is inverted; none where it
  did not lock. -/
  | locked (seen : List (Option (Nat × Bool)))
  | equalised (lanes : BitVec 8)
  | aligned
  | hello (serial : BitVec 64) (port role version : Nat) (width : Nat)
  deriving DecidableEq, Repr

/-- Table 10.8 step 2: the record with which a device answers the census probe, and where it was found
(Table 10.6). -/
structure MemberRecord where
  serial : BitVec 64
  role : Nat
  grade : Nat
  fwVersion : BitVec 32
  gddr7 : Bool
  gddrMib : Nat
  hxlVersion : Nat
  ports : BitVec 8
  hops : Nat
  /-- Hops from the lead along port 0, when it is reached that way. -/
  via0 : Option Nat
  /-- Hops from the lead along port 1. -/
  via1 : Option Nat
  x : Nat
  y : Nat
  wiringOk : Bool
  deriving DecidableEq, Repr

/-- Table 10.8 step 5: what the lead tells a member of the census: the member's ordinal, the topology, the
routing, and each member's ordinal, serial, status and link codes (Table 10.10 `ports`). -/
structure CensusMsg where
  ordinal : Nat
  leadOrdinal : Nat
  topology : Nat
  torusX : Nat
  torusY : Nat
  expected : Nat
  tree : Bool
  members : List (Nat × BitVec 64 × Nat × BitVec 8)
  deriving DecidableEq, Repr

namespace Machine

/-- A filter term of Table 5.4. -/
structure FilterTerm where
  word : Nat
  op : Nat
  a : BitVec 32
  b : BitVec 32
  deriving DecidableEq, Repr

/-- A filter rule of Table 5.3. -/
structure FilterRule where
  priority : Nat
  allow : Bool
  terms : List FilterTerm
  deriving DecidableEq, Repr

/-- R292: a filter program. -/
structure FilterProg where
  defaultAllow : Bool
  rules : List FilterRule
  deriving DecidableEq, Repr

/-- R181: one image of an allow-bitmap; bit n of `bits` is the bitmap's bit n. -/
structure BitmapImage where
  attrSel : Nat
  nbits : Nat
  bits : Nat
  deriving DecidableEq, Repr

/-- R344, R587: a sum divided among contributors: its group width, run length, terms and contributors. -/
structure SplitShape where
  group : Nat
  run : Nat
  terms : Nat
  contributors : Nat
  deriving DecidableEq, Repr

/-- R345, R346: what a contributor sends of a run. -/
inductive SplitPart where
  /-- The 8-byte record of a whole run. -/
  | record (bytes : Bytes)
  /-- Terms of a run at a scale level from its position `first` on, each with the flags that forming it raised. -/
  | terms (level first : Nat) (ts : List (BitVec 32 × BitVec 11))
  deriving DecidableEq, Repr

/-- R602, R603: what a copy reports of a list: for each block of the chain the digest of its entry data and its padding flag, the
digest of its ID-map buckets, and its slot count. -/
structure CopyReport where
  ordinal : Nat
  blocks : List (Bytes × Bool)
  buckets : Bytes
  slots : Nat
  deriving DecidableEq, Repr

end Machine

/-- R585: the part of a search that the lead sends to one copy of a slot. -/
structure SearchPartMsg where
  field : Nat
  index : Nat
  tag : BitVec 32
  /-- The slot that the part covers. -/
  slot : Nat
  /-- The class in which the search runs (R56). -/
  cls : Nat
  epoch : BitVec 64
  k : Nat
  rerank : Nat
  t8 : Bool
  /-- R39: the filter program and the bitmap image bound to the search at its admission. -/
  filter : Option Machine.FilterProg
  bitmapId : Nat
  bitmap : Option Machine.BitmapImage
  /-- R28: the radius as a key, for a SEARCH_RADIUS. -/
  radius : Option (BitVec 32)
  vecFmt : Nat
  query : Bytes
  lists : List Nat
  /-- R590: the trigger epochs of the images that a SPLIT-DIM search reads, list by list. -/
  e0s : List Nat
  /-- R588: the entries of whose exact keys a SPLIT-DIM search asks the partials, as list and position. -/
  entries : List (Nat × Nat)
  deriving DecidableEq, Repr

/-- R596: what the lead sends to the standby lead. -/
inductive StandbyItem where
  | config (field : Nat) (block : Bytes)
  | definition (field index : Nat) (params : Bytes)
  | placement (field index : Nat) (members : List Nat)
  | filter (field filterId : Nat) (program : Bytes)
  | bitmap (field bitmapId : Nat) (image : Bytes)
  | committed (field index : Nat) (epoch : BitVec 64)
  deriving DecidableEq, Repr

/-- Table 14.2: the strap balls as the board drives them. -/
structure Straps where
  hxlEn : Bool
  cascLead : Bool
  gddrClam : Bool
  gddrType : Bool
  bootSel : BitVec 2
  deriving DecidableEq, Repr

/-- Table 14.6: the supply rails. -/
inductive Rail where
  | vddAon
  | vddio18
  | vddio33
  | vddSram
  | vddCore
  | vddPcie
  | vddHxl
  | vddqG
  deriving DecidableEq, Repr

/-- The commands, one per row of spec/opcode_table.json. -/
inductive Instr where
  /-- SQ_TAIL_WRITE (R114): Host writes SQ_TAIL of a doorbell page to make packets available; the value is checked against the ring range and stored. -/
  | sqTailWrite (ring : Nat) (value : BitVec 32)
  /-- CQ_HEAD_WRITE (R92): Host writes CQ_HEAD to release consumed completion records, which may let fetching resume. -/
  | cqHeadWrite (ring : Nat) (value : BitVec 32)
  /-- RING_ENABLE (R74): Writing enable 1 in RING_CTL checks the ring configuration and puts the ring in service or in error with error_cause 4. -/
  | ringEnable (ring : Nat) (value : BitVec 32)
  /-- RING_RESET (R77): Writing 1 to RING_CTL reset stops fetching, discards unfetched packets, lets outstanding commands end without records, then clears the ring state. -/
  | ringReset (ring : Nat)
  /-- REGISTER_WRITE (R14): A write to any register field without behaviour of its own takes effect by its access type or is ignored. -/
  | registerWrite (fn bar offset size : Nat) (value : BitVec 64)
  /-- PACKET_FETCH (R107): The Steward fetches one packet from the ready ring chosen by admin priority, effective priority, skip counts and round-robin. -/
  | packetFetch (data : Option Bytes)
  /-- RING_ERROR_RECORD (R115): After a ring in error has its outstanding commands ended, the device writes a device-originated ST_RING_ERROR record and raises the field-event vector. -/
  | ringErrorRecord (ring : Nat) (recordOk : Bool)
  /-- IRQ_COALESCE_TIMER (R80): Expiry of irq_time_us after the first unsignalled completion record raises the ring's MSI-X vector. -/
  | irqCoalesceTimer (ring : Nat)
  /-- RESERVED_OPCODE (R12): A packet with a reserved opcode completes with ST_BAD_OPCODE and has no other effect. -/
  | reservedOpcode (ring : Nat) (dma : Dma)
  /-- NOP (R125): Opcode 0x00 does nothing but complete. -/
  | nop (ring : Nat) (dma : Dma)
  /-- IDENTIFY (R127): Opcode 0x01 writes the 512-byte identification reply. -/
  | identify (ring : Nat) (dma : Dma)
  /-- FIELD_CONFIGURE (R133): Opcode 0x02 applies a field configuration block, resets a field or removes a field, effective at the next planner epoch. -/
  | fieldConfigure (ring : Nat) (dma : Dma) (memberStatus : Nat)
  /-- FIELD_QUERY (R133): Opcode 0x03 writes a field's configuration and usage reply. -/
  | fieldQuery (ring : Nat) (dma : Dma)
  /-- INDEX_CREATE (R149): Opcode 0x08 creates an index in state CREATED at epoch 0 with fixed metric and geometry. -/
  | indexCreate (ring : Nat) (dma : Dma)
  /-- INDEX_DROP (R150): Opcode 0x09 deletes an idle, unheld index with its pins and filter bindings and releases its pages. -/
  | indexDrop (ring : Nat) (dma : Dma)
  /-- INDEX_LOAD_CENTROIDS (R151): Opcode 0x0A loads a range of centroid rows, allocating the whole centroid table on first load. -/
  | indexLoadCentroids (ring : Nat) (dma : Dma)
  /-- INDEX_LOAD_CODEBOOK (R151): Opcode 0x0B loads a range of sub-quantiser codebooks, allocating the whole codebook on first load. -/
  | indexLoadCodebook (ring : Nat) (dma : Dma)
  /-- INDEX_ACTIVATE (R152): Opcode 0x0C allocates the list directory and ID map and makes a fully loaded index ACTIVE at epoch 0. -/
  | indexActivate (ring : Nat) (dma : Dma)
  /-- INDEX_INFO (R127): Opcode 0x0D writes the 256-byte index information reply. -/
  | indexInfo (ring : Nat) (dma : Dma)
  /-- INSERT (R159): Opcode 0x10 encodes new records into the pending store, all or nothing. -/
  | insert (ring : Nat) (dma : Dma)
  /-- DELETE (R162): Opcode 0x11 records deletions of live IDs in the pending state. -/
  | delete (ring : Nat) (dma : Dma)
  /-- UPSERT (R159): Opcode 0x12 records replacements or inserts of IDs in the pending state. -/
  | upsert (ring : Nat) (dma : Dma)
  /-- INSERT_CODED (R239): Opcode 0x13 records pre-encoded records with given list and code in the pending state. -/
  | insertCoded (ring : Nat) (dma : Dma)
  /-- COMMIT (R163): Opcode 0x14 takes in every mutation of its index admitted before it and waits for them to end. -/
  | commit (ring : Nat) (dma : Dma)
  /-- COMMIT_APPLY (R247): Once its mutations have ended, the COMMIT resolves IDs, obtains blocks, appends records, sets tombstones, updates the ID map and raises the epoch. -/
  | commitApply (field index : Nat) (copiesOk recordOk : Bool)
  /-- SNAPSHOT_HOLD (R166): Opcode 0x15 adds a hold on a committed or held epoch. -/
  | snapshotHold (ring : Nat) (dma : Dma)
  /-- SNAPSHOT_RELEASE (R168): Opcode 0x16 removes one hold on an epoch. -/
  | snapshotRelease (ring : Nat) (dma : Dma)
  /-- COMPACT (R169): Opcode 0x17 selects lists for compaction and completes when every selected list has swapped. -/
  | compact (ring : Nat) (dma : Dma)
  /-- COMPACTION_START (R257): A free Evaporator takes the first waiting list and starts building its new image, or returns it to the queue for want of memory. -/
  | compactionStart (evaporator : Nat)
  /-- COMPACTION_SWAP (R260): A finished new list image replaces the old one in one step, outside COMMIT steps 2 to 8. -/
  | compactionSwap (evaporator : Nat) (copiesOk recordOk : Bool)
  /-- OLD_IMAGE_FREE (R262): The old list image is freed once no earlier query reads it and no readable epoch below E0 remains. -/
  | oldImageFree (field index list : Nat)
  /-- VERSION_FREE (R251): A version record is freed once no readable epoch reads it. -/
  | versionFree (field index : Nat)
  /-- SEARCH (R266): Opcode 0x20 fixes the snapshot epoch, checks, bounds, admits and places a single query. -/
  | search (ring : Nat) (dma : Dma)
  /-- SEARCH_BATCH (R178): Opcode 0x21 admits, bounds and narrows up to 256 queries as one unit. -/
  | searchBatch (ring : Nat) (dma : Dma)
  /-- SEARCH_RADIUS (R28): Opcode 0x22 admits a search returning candidates whose final key is within the radius. -/
  | searchRadius (ring : Nat) (dma : Dma)
  /-- TABLE_AREA_PLACEMENT (R270): A class B or X query waiting for table area is placed on a core when a table is released. -/
  | tableAreaPlacement
  /-- COULTER_TILE (R787): A Coulter tile of up to 64 waiting queries is formed and scored against all centroids. -/
  | coulterTile
  /-- DISTANCE_TABLE_BUILD (R283): A Harrow builds a query's T32 or T8 distance table into its core's table area. -/
  | distanceTableBuild (harrow : Nat)
  /-- SOWING_WINDOW_CLOSE (R272): Expiry of sowing_us, 256 queries or a placement wait closes a sowing window. -/
  | sowingWindowClose (field index : Nat) (classX : Bool)
  /-- LIST_PASS (R277): A list pass starts in key order, reads each block once and delivers it to every visitor's core for scanning. -/
  | listPass (window : Nat)
  /-- RERANK (R298): An Assayer fetches each shortlist entry's stored vector and computes its exact key. -/
  | rerank (assayer : Nat)
  /-- FINAL_MERGE (R300): The Crystalliser orders the shortlist, applies the radius and keeps the first k entries. -/
  | finalMerge (crystalliser : Nat)
  /-- RESULT_OUTPUT (R301): The Gleaner writes each query block and then the command's completion record. -/
  | resultOutput (dataOk recordOk : Bool)
  /-- GLEANER_TEST_START (R218): An in-place Gleaner test starts once class C searches admitted before its epoch have completed. -/
  | gleanerTestStart (pass replyOk recordOk : Bool)
  /-- FETCH_VECTOR (R179): Opcode 0x23 returns stored or decoded vectors of IDs at an epoch. -/
  | fetchVector (ring : Nat) (dma : Dma)
  /-- FILTER_DEFINE (R292): Opcode 0x28 defines or replaces a filter program. -/
  | filterDefine (ring : Nat) (dma : Dma)
  /-- FILTER_DROP (R176): Opcode 0x29 removes a filter program. -/
  | filterDrop (ring : Nat) (dma : Dma)
  /-- BITMAP_LOAD (R181): Opcode 0x2A creates, writes, publishes or deletes an allow-bitmap. -/
  | bitmapLoad (ring : Nat) (dma : Dma)
  /-- PAGE_POOL_GRANT (R186): Opcode 0x30 grants host pages to the field's pool or reclaims unused ones. -/
  | pagePoolGrant (ring : Nat) (dma : Dma)
  /-- PAGE_PIN (R190): Opcode 0x31 pins pages of a scope resident in GDDR and optionally in the Granary. -/
  | pagePin (ring : Nat) (dma : Dma)
  /-- PAGE_UNPIN (R193): Opcode 0x32 unpins pages, deferring those that earlier class C queries still read. -/
  | pageUnpin (ring : Nat) (dma : Dma)
  /-- PROGRAM_LOAD (R407): Opcode 0x38 checks, stores and measures a field program image. -/
  | programLoad (ring : Nat) (dma : Dma)
  /-- PROGRAM_RUN (R413): Opcode 0x39 admits a field program run, which waits for furrow cores. -/
  | programRun (ring : Nat) (dma : Dma)
  /-- PROGRAM_RUN_START (R415): Once every reserved core is free of tables the cores are loaded and the run's slice begins. -/
  | programRunStart (run : Nat)
  /-- PROGRAM_SLICE_EXPIRE (R425): A run reaching slice_us is preempted and completes with ST_PROGRAM_TIMEOUT. -/
  | programSliceExpire (run : Nat)
  /-- PROGRAM_RUN_END (R427): When every core has ended and stream writes completed, tile files are saved, cores cleared and the reply written. -/
  | programRunEnd (run : Nat) (cycles : List Nat) (replyOk recordOk : Bool)
  /-- TILE_READ (R354): Opcode 0x3A returns a tile of a program's saved tile file. -/
  | tileRead (ring : Nat) (dma : Dma)
  /-- TILE_WRITE (R354): Opcode 0x3B writes a tile into a program's saved tile file. -/
  | tileWrite (ring : Nat) (dma : Dma)
  /-- UNIT_FALLOW (R205): Opcode 0x40 takes a unit out of service, draining or forcibly ending its work. -/
  | unitFallow (ring : Nat) (dma : Dma)
  /-- FALLOW_DRAIN_END (R651): A draining unit becomes fallow once its remaining work has ended. -/
  | fallowDrainEnd (unitType instNo : Nat) (recordOk : Bool)
  /-- FRAME_MOVE (R540): A frame is copied to another half, its mapping switched and the old frame freed as class X work. -/
  | frameMove (field page : Nat)
  /-- UNIT_TILL (R655): Opcode 0x41 starts a unit's self-test to return it to service. -/
  | unitTill (ring : Nat) (dma : Dma)
  /-- UNIT_SELF_TEST_END (R655): A finished self-test returns the unit to service at the next planner epoch or leaves it failed. -/
  | unitSelfTestEnd (unitType instNo : Nat) (pass recordOk : Bool)
  /-- UNIT_STATUS (R201): Opcode 0x42 writes one state byte per unit. -/
  | unitStatus (ring : Nat) (dma : Dma)
  /-- CASCADE_FORM (R574): Opcode 0x48 runs the census to form a cascade. -/
  | cascadeForm (ring : Nat) (dma : Dma)
  /-- CASCADE_STATUS (R576): Opcode 0x49 returns the census reply. -/
  | cascadeStatus (ring : Nat) (dma : Dma)
  /-- CASCADE_PROMOTE (R600): Opcode 0x4A makes a standby lead the lead and re-runs the census. -/
  | cascadePromote (ring : Nat) (dma : Dma)
  /-- ATTEST (R630): Opcode 0x50 writes a signed 720-byte attestation report. -/
  | attest (ring : Nat) (dma : Dma)
  /-- MEASURE_READ (R625): Opcode 0x51 writes all measurement registers from one instant. -/
  | measureRead (ring : Nat) (dma : Dma)
  /-- STAKE_READ (R649): Opcode 0x58 writes a stake's header and every slot record. -/
  | stakeRead (ring : Nat) (dma : Dma)
  /-- STAKE_WRITE (R643): Opcode 0x59 programs both copies of the next stake slot, updates the mirror and extends register 2. -/
  | stakeWrite (ring : Nat) (dma : Dma) (verify0 verify1 : Bool)
  /-- COUNTERS_READ (R675): Opcode 0x60 writes a counter group taken at one instant. -/
  | countersRead (ring : Nat) (dma : Dma)
  /-- LOG_READ (R670): Opcode 0x61 writes event-log entries from from_seq on. -/
  | logRead (ring : Nat) (dma : Dma)
  /-- TRACE_CTL (R672): Opcode 0x62 starts, stops or reads the trace buffer. -/
  | traceCtl (ring : Nat) (dma : Dma)
  /-- TEST_PERTURB (R723): Opcode 0x68 sets, clears one or clears all perturbation controls. -/
  | testPerturb (ring : Nat) (dma : Dma)
  /-- SELF_TEST (R217): Opcode 0x69 self-tests fallow units and writes a pass/fail byte per unit. -/
  | selfTest (ring : Nat) (dma : Dma) (failing : List (Nat × Nat))
  /-- FIRMWARE_STAGE (R219): Opcode 0x70 writes an image block into a flash slot and checks it on the final block. -/
  | firmwareStage (ring : Nat) (dma : Dma) (flashOk : Bool)
  /-- FIRMWARE_ACTIVATE (R614): Opcode 0x71 marks a staged slot ACTIVE with a new act_seq. -/
  | firmwareActivate (ring : Nat) (dma : Dma)
  /-- PLANNER_EPOCH (R459): At each 10 µs planner epoch boundary, accepted configuration, unit-state and core-reservation changes take effect. -/
  | plannerEpoch
  /-- CHANNEL_GRANT (R453): A memory channel grants its next request from the first non-empty arbitration level. -/
  | channelGrant (channel edcFails : Nat) (ecc : List Ecc)
  /-- GDDR_RETRAIN (R493): A fifth EDC failure starts retraining of the channel for up to 2 ms. -/
  | gddrRetrain (channel : Nat)
  /-- GDDR_RETRAIN_END (R494): Retraining completes, or fails and marks the pair failed. -/
  | gddrRetrainEnd (channel : Nat) (pass : Bool)
  /-- GDDR_TEMPERATURE_READ (R492): Every 32 ms firmware reads each GDDR device temperature and adjusts its refresh interval. -/
  | gddrTemperatureRead (temps : List Int)
  /-- PATROL_SCRUB (R500): Level 1 patrol reads inline-ECC chunks and handles errors found. -/
  | patrolScrub (field page chunk : Nat) (ecc : Ecc)
  /-- GDDR_TRAINING (R488): Firmware trains all channels through the steps of Table 9.2 and fixes one rate. -/
  | gddrTraining (probes : List ChannelProbe)
  /-- STREAM_TILE_REQUEST (R438): A read stream's fetcher issues requests for the four tiles after the oldest unconsumed tile. -/
  | streamTileRequest (stream : Nat)
  /-- STREAM_TILE_DELIVER (R432): Fetched stream bytes land in the consumer's buffer. -/
  | streamTileDeliver (stream tile : Nat)
  /-- STREAM_HALT (R476): A class B or X stream whose oldest unconsumed tile is non-resident halts and saves its context. -/
  | streamHalt (stream : Nat)
  /-- PAGE_IN (R477): The Steward copies a faulting page from its pool slot into a GDDR frame, evicting a frame if needed. -/
  | pageIn (field : Nat) (readOk : Bool) (failedWriteBacks : Nat)
  /-- STREAM_RESUME (R478): When the page is resident every halted stream resumes from its context. -/
  | streamResume (field page : Nat)
  /-- MODE_A_ADD (R349): A Granary slice applies an atomic FP32 add of a mode A partial in arrival order. -/
  | modeAAdd (slice location : Nat) (adds : List (Nat × BitVec 32))
  /-- MODE_D_PARTIAL (R347): The combining core adds a received mode D run partial into the wide total in run order. -/
  | modeDPartial (total : Nat) (shape : Machine.SplitShape) (contributor run : Nat) (part : Machine.SplitPart)
  /-- INVALIDATION_ACK (R533): A read cache acknowledges an invalidation; after all acknowledgements the waiting write or eviction is applied. -/
  | invalidationAck (slice channel line core : Nat)
  /-- MESSAGE_DELIVER (R357): A grid message reaches its target thread's receive queue after network transit. -/
  | messageDeliver (core thread : Nat)
  /-- HALT (R424): Stops the thread. -/
  | halt (core thread : Nat)
  /-- CORE_NOP (R399): Furrow-core NOP does nothing. -/
  | coreNop (core thread : Nat)
  /-- BR (R374): Unconditional branch. -/
  | br (core thread : Nat)
  /-- BRC (R405): Conditional branch on condition codes. -/
  | brc (core thread : Nat)
  /-- CALL (R376): Pushes the return address and repeat-level count and branches. -/
  | call (core thread : Nat)
  /-- RET (R376): Pops the return stack, ends levels opened since the CALL and returns. -/
  | ret (core thread : Nat)
  /-- REP_I (R371): Repeats the following len instructions count times. -/
  | repI (core thread : Nat)
  /-- REP_D (R371): Repeats the block up to end a D-register number of times. -/
  | repD (core thread : Nat)
  /-- BREAK (R374): Ends the innermost repeat level. -/
  | breakLevel (core thread : Nat)
  /-- TIME (R399): Reads TBK into a D register. -/
  | time (core thread : Nat)
  /-- SELF (R416): Reads the run-logical core and thread number. -/
  | selfId (core thread : Nat)
  /-- FLAGS_RD (R398): Reads the thread's FLAGS. -/
  | flagsRd (core thread : Nat)
  /-- FLAGS_CLR (R398): Clears the thread's FLAGS. -/
  | flagsClr (core thread : Nat)
  /-- ADD (R399): Scalar 64-bit add. -/
  | add (core thread : Nat)
  /-- SUB (R399): Scalar 64-bit subtract. -/
  | sub (core thread : Nat)
  /-- AND (R399): Scalar bitwise AND. -/
  | and (core thread : Nat)
  /-- OR (R399): Scalar bitwise OR. -/
  | or (core thread : Nat)
  /-- XOR (R399): Scalar bitwise XOR. -/
  | xor (core thread : Nat)
  /-- SHL (R399): Scalar shift left. -/
  | shl (core thread : Nat)
  /-- SHR (R399): Scalar logical shift right. -/
  | shr (core thread : Nat)
  /-- SAR (R399): Scalar arithmetic shift right. -/
  | sar (core thread : Nat)
  /-- MUL (R399): Scalar multiply, low 64 bits. -/
  | mul (core thread : Nat)
  /-- CMP (R399): Compares and sets condition codes. -/
  | cmp (core thread : Nat)
  /-- MOV (R399): Scalar register move. -/
  | mov (core thread : Nat)
  /-- MOVI (R399): Moves a zero-extended immediate. -/
  | movi (core thread : Nat)
  /-- ADDI (R399): Adds a sign-extended immediate. -/
  | addi (core thread : Nat)
  /-- VADD (R389): Vector FP32 add per lane. -/
  | vadd (core thread : Nat)
  /-- VSUB (R389): Vector FP32 subtract per lane. -/
  | vsub (core thread : Nat)
  /-- VMUL (R389): Vector FP32 multiply per lane. -/
  | vmul (core thread : Nat)
  /-- VMAX (R389): Vector FP32 maximum per lane. -/
  | vmax (core thread : Nat)
  /-- VMIN (R389): Vector FP32 minimum per lane. -/
  | vmin (core thread : Nat)
  /-- VSEL (R389): Vector lane select. -/
  | vsel (core thread : Nat)
  /-- VRED (R391): Sums 16 lanes by the group tree. -/
  | vred (core thread : Nat)
  /-- VCVT (R390): Converts 16 lanes between FP32 and another format. -/
  | vcvt (core thread : Nat)
  /-- VSBAC (R339): Applies scale, bias and activation per lane. -/
  | vsbac (core thread : Nat)
  /-- MAC16 (R394): Multiplies signed 16-bit lanes into FIX40 accumulators. -/
  | mac16 (core thread : Nat)
  /-- MAC8 (R394): Multiplies unsigned 8-bit lane pairs into FIX40 accumulators. -/
  | mac8 (core thread : Nat)
  /-- ACLR (R395): Clears an accumulator and its saturation bits. -/
  | aclr (core thread : Nat)
  /-- STA32 (R396): Stores accumulator lanes as signed 32-bit with shift. -/
  | sta32 (core thread : Nat)
  /-- STA16 (R396): Stores accumulator lanes as signed 16-bit with shift. -/
  | sta16 (core thread : Nat)
  /-- LD (R366): Scalar load from local memory with post-modify. -/
  | ld (core thread : Nat)
  /-- ST (R366): Scalar store to local memory. -/
  | st (core thread : Nat)
  /-- LDV (R366): Vector load from local memory. -/
  | ldv (core thread : Nat)
  /-- STV (R366): Vector store to local memory. -/
  | stv (core thread : Nat)
  /-- LD2 (R384): Reads two operands in one cycle. -/
  | ld2 (core thread : Nat)
  /-- LDST (R385): Reads X and writes Y in one cycle. -/
  | ldst (core thread : Nat)
  /-- LDC (R370): Loads through the read cache from the field's index address space. -/
  | ldc (core thread : Nat)
  /-- TLD (R352): Loads a tile of the tile file. -/
  | tld (core thread : Nat)
  /-- TST (R352): Stores a tile of the tile file. -/
  | tst (core thread : Nat)
  /-- TACC (R392): Adds one group of products into each FP32 tile element with replay. -/
  | tacc (core thread : Nat)
  /-- TFOLD (R393): Folds an FP32 tile into a binary64 tile and clears it. -/
  | tfold (core thread : Nat)
  /-- TSTS (R342): Stores a tile with per-channel SBAC. -/
  | tsts (core thread : Nat)
  /-- TCLR (R352): Clears a tile. -/
  | tclr (core thread : Nat)
  /-- LKP8 (R402): Looks up 32 codes of 8-bit sub-codes in a distance table. -/
  | lkp8 (core thread : Nat)
  /-- LKP4 (R402): Looks up 128 codes of 4-bit sub-codes in a distance table. -/
  | lkp4 (core thread : Nat)
  /-- DSTEP (R397): Performs one division step. -/
  | dstep (core thread : Nat)
  /-- SQSTEP (R397): Performs one square-root recurrence step. -/
  | sqstep (core thread : Nat)
  /-- DIV (R397): Full correctly rounded FP32 division. -/
  | div (core thread : Nat)
  /-- RSQ (R397): Full reciprocal-norm sequence. -/
  | rsq (core thread : Nat)
  /-- SEND (R360): Sends a message to a thread of the run. -/
  | send (core thread : Nat)
  /-- RECV (R362): Takes a queued message from a named sender or ANY. -/
  | recv (core thread : Nat)
  /-- PROBE (R362): Writes the queued message count. -/
  | probe (core thread : Nat)
  /-- SSTART (R435): Starts a stream descriptor in a free slot. -/
  | sstart (core thread : Nat)
  /-- SWAIT (R435): Waits for a stream to end, returns its status and frees its slot. -/
  | swait (core thread : Nat)
  /-- SPOLL (R435): Returns a stream's running state or status. -/
  | spoll (core thread : Nat)
  /-- END (R430): Address-program instruction ending the address sequence. -/
  | apEnd (stream : Nat)
  /-- SETB (R430): Address-program instruction loading an address register from a base. -/
  | apSetb (stream : Nat)
  /-- ADDS (R430): Address-program instruction adding a stride. -/
  | apAdds (stream : Nat)
  /-- EMIT (R430): Address-program instruction emitting elements. -/
  | apEmit (stream : Nat)
  /-- DO (R430): Address-program instruction opening a loop level. -/
  | apDo (stream : Nat)
  /-- LOOP (R430): Address-program instruction closing a loop iteration. -/
  | apLoop (stream : Nat)
  /-- BEACON (R551): Every 100 ms a port in DETECT transmits a beacon. -/
  | beacon (port : Nat)
  /-- LINK_TRAINING_ADVANCE (R551): An HXL port leaves a training state when its exit condition is received. -/
  | linkTrainingAdvance (port : Nat) (exit : TrainExit)
  /-- TRAINING_TIMEOUT (R551): A training state passing its time limit returns the port to DETECT. -/
  | trainingTimeout (port : Nat)
  /-- FLIT_TRANSMIT (R564): A port sends the next flit by VC order and credits. -/
  | flitTransmit (port : Nat)
  /-- FLIT_RECEIVE (R559): A received flit is accepted or discarded and its ack and credit return applied. -/
  | flitReceive (port : Nat) (lanes : List Bytes)
  /-- REPLAY_TIMEOUT (R560): 2 µs without ack progress starts a replay. -/
  | replayTimeout (port : Nat)
  /-- LINK_RETRAIN (R561): Eight unacknowledged resends of one flit retrain the link, keeping replay state. -/
  | linkRetrain (port : Nat)
  /-- LINK_DOWN (R562): Retraining not ACTIVE within 100 ms declares the link down and loses its flits. -/
  | linkDown (port : Nat)
  /-- CENSUS_PROBE (R574): A device forwards the first census probe once and answers with its record. -/
  | censusProbe (port : Nat) (leadSerial : BitVec 64)
  /-- CENSUS_QUIET_TIMER (R574): After 50 ms without a new record the lead assigns positions, ordinals and routes and completes the census. -/
  | censusQuietTimer (found : List MemberRecord) (replyOk recordOk : Bool)
  /-- HEARTBEAT (R577): Every 1 ms the lead sends a heartbeat with its TBK time to each member. -/
  | heartbeat
  /-- MEMBER_LOST (R577): A member whose heartbeat answer is missing 5 ms, or whose last link is down, is lost. -/
  | memberLost (ordinal : Nat) (recordOk : Bool)
  /-- CENSUS_RERUN (R578): On member loss or link change the lead re-runs census steps 3 to 6 within 20 ms. -/
  | censusRerun (found : List MemberRecord)
  /-- LEAD_LOST (R599): A follower missing the lead's heartbeat for 5 ms drops outstanding work and pending mutations. -/
  | leadLost
  /-- CONFIG_MESSAGE (R579): A member applies a field configuration from the lead at one lead planner epoch. -/
  | configMessage (field action : Nat) (block : Bytes) (leadEpoch : BitVec 64) (census : Option CensusMsg)
  /-- MUTATION_RECORD (R583): A copy receives a mutation record from the lead and encodes it with its own Seed drill. -/
  | mutationRecord (field index ring : Nat) (seq : BitVec 48) (opcode vecFmt : Nat) (record : Bytes)
  /-- SEARCH_PART (R585): A copy receives a query part and returns its first k' candidates. -/
  | searchPart (part : SearchPartMsg)
  /-- STANDBY_SYNC (R596): The standby lead records configurations, definitions and committed epochs sent by the lead. -/
  | standbySync (item : StandbyItem)
  /-- SLOT_COPY (R597): A rejoining or fenced copy is copied from a covering copy as class X work. -/
  | slotCopy (field index slot ordinal : Nat)
  /-- SCRUB_LIST_COMPARE (R602): The scrubber compares block digests of a list's copies at an epoch. -/
  | scrubListCompare (field index slot list : Nat) (copies : List Machine.CopyReport)
  /-- BOOT_ROM (R616): After reset release the boot ROM resolves stakes, checks and measures an image, issues keys and starts firmware. -/
  | bootRom (readOkA readOkB : Bool) (busy : Nat)
  /-- FIRMWARE_BOOT (R747): Firmware sets VID, clocks, trains GDDR and HXL and sets ready. -/
  | firmwareBoot
  /-- GET_VERSION (R633): SPDM request answered with version 1.2. -/
  | getVersion (transport : Transport)
  /-- GET_CAPABILITIES (R633): SPDM request answered with the device capabilities. -/
  | getCapabilities (transport : Transport) (version : Byte)
  /-- NEGOTIATE_ALGORITHMS (R633): SPDM request answered with P-384 and SHA-384. -/
  | negotiateAlgorithms (transport : Transport) (version : Byte) (offered : Bool)
  /-- GET_DIGESTS (R633): SPDM request answered with the slot 0 chain digest. -/
  | getDigests (transport : Transport) (version : Byte)
  /-- GET_CERTIFICATE (R633): SPDM request returning part of the slot 0 chain. -/
  | getCertificate (transport : Transport) (version : Byte) (slot offset length : Nat)
  /-- CHALLENGE (R633): SPDM challenge answered with a signed measurement summary. -/
  | challenge (transport : Transport) (version : Byte) (slot summary : Nat) (nonce transcript : Bytes)
  /-- GET_MEASUREMENTS (R634): SPDM request returning measurement blocks, optionally signed. -/
  | getMeasurements (transport : Transport) (version : Byte) (index : Nat) (signed : Bool) (nonce transcript : Bytes)
  /-- SPDM_UNSUPPORTED_REQUEST (R633): Any other SPDM request code gives ERROR UnsupportedRequest. -/
  | spdmUnsupportedRequest (transport : Transport) (version : Byte) (code : Byte)
  /-- SMBUS_ARP (R776): SMBus Address Resolution assigns the device a bus address. -/
  | smbusArp (udid : BitVec 64) (address : BitVec 7)
  /-- I3C_ADDRESS_ASSIGN (R776): SETDASA or ENTDAA assigns an I3C dynamic address. -/
  | i3cAddressAssign (byStatic : Bool) (staticAddr dynamicAddr : BitVec 7)
  /-- SMBUS_SCL_TIMEOUT (R777): SB_SCL held low by another device for over 35 ms resets the bus interface. -/
  | smbusSclTimeout (lowMs : Nat)
  /-- EVENT_CAUSE_CLEAR (R713): A W1C write to EVENT_CAUSE clears event bits unless an event sets them in the same cycle. -/
  | eventCauseClear (fn : Nat) (value : BitVec 32)
  /-- EVENT_ENABLE_WRITE (R712): A write to EVENT_ENABLE raises the vector when it enables a set cause bit. -/
  | eventEnableWrite (fn : Nat) (value : BitVec 32)
  /-- IRQ_TEST (R709): A write raises the named vector of the function. -/
  | irqTest (fn : Nat) (value : BitVec 32)
  /-- STEWARD_RESTART_REQUEST (R706): Writing GLOBAL_CTL steward_restart starts a warm Steward restart when allowed. -/
  | stewardRestartRequest (value : BitVec 32)
  /-- PERT_GO (R720): Writing go submits a perturbation request built from the window registers. -/
  | pertGo (value : BitVec 32) (taken : Bool)
  /-- TB_NOW_READ (R725): A 4-byte read of TB_NOW returns the low half and latches the high half per function. -/
  | tbNowRead (fn : Nat)
  /-- TB_CAPTURE (R726): Writing capture copies TBK into the function's TB_CAPTURE. -/
  | tbCapture (fn : Nat)
  /-- TB_CTL_WRITE (R728): Changing src moves the TBK rate to the new source within 10 ms. -/
  | tbCtlWrite (fn : Nat) (value : BitVec 32)
  /-- TIMEREF_LOCK_CHANGE (R729): TIMEREF_IN presence for 10 ms sets locked, and its loss clears it within 2 µs. -/
  | timerefLockChange (present : Bool)
  /-- TJ_SAMPLE (R742): Every 1 ms the hottest on-die sensor updates tj and may assert or release ALERT_N. -/
  | tjSample (sample : BitVec 16)
  /-- VID_STEP (R750): At most every 200 µs the device moves the VID code one step towards its fused target. -/
  | vidStep
  /-- THERMTRIP (R740): A sensor above 120 °C asserts THERMTRIP_N and stops every clock but AON. -/
  | thermtrip (sensor : Int)
  /-- UNIT_ERROR (R662): An uncorrectable error in a unit ends its commands with ST_HW_FAULT and force-fallows the unit. -/
  | unitError (unitType instNo : Nat) (address : BitVec 64)
  /-- PAGE_DAMAGED (R663): An uncorrectable error in a dirty Granary line marks its page damaged. -/
  | pageDamaged (field page : Nat)
  /-- DEVICE_FATAL (R665): A device-fatal error stops fetching and writing, sets fatal, raises vector 0, AER and ALERT_N. -/
  | deviceFatal (cause : Nat)
  /-- STEWARD_RESTART (R762): A Steward error starts a warm restart that ends admitted commands with ST_HW_FAULT. -/
  | stewardRestart
  /-- STEWARD_RESTART_END (R761): The warm restart ends, ready returns to 1 and register 1 is extended. -/
  | stewardRestartEnd
  /-- COLD_RESET (R757): SYS_RESET_N low or loss of VDD_AON holds the device in cold reset. -/
  | coldReset (aonLost : Bool) (cut : CutShort)
  /-- PERST_N (R757): PERST_N low holds the device in PERST_N reset. -/
  | perstN (cut : CutShort)
  /-- RESET_RELEASE (R757): At the later rising edge of SYS_RESET_N and PERST_N start-up begins. -/
  | resetRelease (straps : Straps)
  /-- FLR_PHYSICAL_FUNCTION (R759): FLR of the physical function removes every field, recreates field 0 and resets the admin ring. -/
  | flrPhysicalFunction
  /-- FLR_VIRTUAL_FUNCTION (R758): FLR of virtual function v ends its commands without records and removes field v. -/
  | flrVirtualFunction (fn : Nat)
  /-- D3HOT_ENTRY (R736): A function entering D3hot stops having its rings fetched. -/
  | d3hotEntry (fn : Nat)
  /-- LOSS_OF_LOCK (R551): An ACTIVE HXL port whose receive lanes lose lock leaves ACTIVE and returns to training. -/
  | lossOfLock (port : Nat)
  /-- REFRESH (R492): Expiry of a channel's refresh interval issues an all-bank or per-bank refresh as level 1 work. -/
  | refresh (channel : Nat)
  /-- TRAINING_UPKEEP (R491): A periodic timer reruns WCK alignment, read training and write training on a channel as level 1 work. -/
  | trainingUpkeep (channel : Nat)
  /-- POWER_UP (R751): The board's rails rise in the order of Table 14.9 and bring the device from unpowered into powered reset with its outputs high-impedance or idle. -/
  | powerUp (order : List Rail) (refclk : Bool)
  /-- HEARTBEAT_ANSWER (R577): A member takes the lead's heartbeat, answers it and updates its estimate of the lead's TBK offset. -/
  | heartbeatAnswer (leadTbk : BitVec 64) (roundTrip : Nat)
  /-- SEARCH_PART_REPLY (R585): The lead takes a copy's returned first k' candidates for a query part and merges them into the union. -/
  | searchPartReply (ring : Nat) (seq : BitVec 48) (query slot status : Nat) (cands : List (BitVec 32 × BitVec 64 × Option (BitVec 32))) (qualified : Nat) (flags : BitVec 11)
  /-- COMMIT_MESSAGE (R584): A cascade copy takes the lead's COMMIT message, resolves and applies its records by R247 and makes the new epoch readable at the named lead planner epoch. -/
  | commitMessage (field index : Nat) (taken : List (Nat × BitVec 48)) (readable : List Nat) (leadEpoch : BitVec 64)
  /-- D3HOT_EXIT (R736): A function returning from D3hot to D0 resumes having its rings fetched, with its state kept under No_Soft_Reset. -/
  | d3hotExit (fn : Nat)
  /-- TAP_STEP (R778): A TCK edge with TMS and TDI advances the IEEE 1149.1 TAP and performs its boundary-scan or debug instruction. -/
  | tapStep (tms tdi : Bool)
  deriving DecidableEq, Repr

end Sys2Proof
end

