-- ==== Sys2Proof/Config.lean ====
section
/-! DEFINITION. What an implementation fixes (fuses, derivations the manual does not give) and the
free values: constants without a body, so that no proof can rest on a value of them. -/

namespace Sys2Proof

/-- R626, R627: what an X.509 certificate of the device's chain says (Table 11.7). -/
structure Certificate where
  /-- Position of the issuer in Table 11.7. -/
  issuer : Nat
  serialNumber : Bytes
  notBefore : Bytes
  notAfter : Bytes
  /-- The subject's serialNumber, in ASCII. -/
  subjectSerial : Bytes
  publicKey : Bytes
  /-- The Kaznus extension of the attestation certificate: `fw_svn`, register 0 and `debug_unlock`. -/
  measured : Option (BitVec 32 × Bytes × Bool)
  deriving DecidableEq, Repr

end Sys2Proof

namespace Sys2Proof.Config

/-- R3, Table 13.2: the fused grade, 0 commercial, 1 industrial. -/
opaque grade : Bool
/-- Table 13.2: the fused silicon revision. -/
opaque deviceRev : BitVec 8
/-- Table 13.2: the fused serial number. -/
opaque serial : BitVec 64
/-- R612 step 5: the four firmware-signing key digests fused at manufacture. -/
opaque keyDigest : Fin 4 → Bytes
/-- 11, Keys and certificates: the fused device secret, readable by no interface. -/
opaque deviceSecret : Bytes
/-- R750: the fused table of VID codes by effective profile and junction temperature (1/8 °C). -/
opaque vidCode : Nat → Int → Nat
/-- R616 step 6: the private attestation key derived from the secret, the value of register 0 and
the effective `debug_unlock`; the manual does not give the derivation (log 12). -/
opaque attestationKey : Bytes → Bytes → Bool → Nat
/-- R626: the certificates of positions 0 and 1 of Table 11.7 in DER, kept in the boot ROM. -/
opaque rootCertificate : Bytes
/-- R626: the Kaznus Quoma Device CA certificate in DER. -/
opaque deviceCaCertificate : Bytes
/-- 11, Keys and certificates: the private device identity key derived from the secret; the derivation is not given (log 12). -/
opaque identityKey : Bytes → Nat
/-- R627: the serial number and the notBefore of the device identity certificate, and its signature by the Device CA, all set at
manufacture. -/
opaque identitySerial : Bytes
/-- R627: notBefore of the device identity certificate. -/
opaque identityNotBefore : Bytes
/-- R626: the Device CA's signature of the device identity certificate. -/
opaque identitySignature : Bytes
/-- R626: the DER form of what a certificate's signature covers; the manual gives fields and no bytes (log 12). -/
opaque tbsCertificate : Certificate → Bytes
/-- R626: the DER form of a certificate from what is signed and the signature (log 12). -/
opaque derCertificate : Bytes → Bytes → Bytes
/-- R772: the flash's SFDP table declares quad output read. -/
opaque quadRead : Bool
/-- R766: a byte of a flash sector or page whose erasing or programming a reset has cut short. -/
opaque cutByte : Nat → Nat → Byte
/-- R778: which boundary-scan instruction an instruction-register value selects; the manual names the
instructions and no codes (log 13). -/
opaque tapInstruction : Nat → Nat
/-- R778: length in bits of the TAP instruction register, which the manual does not give. -/
opaque tapIrLength : Nat
/-- R778: length in bits of the boundary register. -/
opaque tapBoundaryLength : Nat

/-- Table 12.6: the 64-bit word of a trace record that holds two items; the manual names the items and
not their places (log 10). Arguments: source bit, word, first item, second item. -/
opaque traceWord : Nat → Nat → Nat → Nat → BitVec 64
/-- Table 12.7: a counter of time (busy cycles, waits), by group, position and TBK: the model computes no
cycle counts (log 36). -/
opaque timeCounter : Nat → Nat → Nat → Nat
/-- A free 64-bit value: the n-th value the manual leaves open (log 10). -/
opaque free64 : Nat → BitVec 64
/-- A free vector register value. -/
opaque free512 : Nat → BitVec 512
/-- A free choice between two outcomes. -/
opaque freeBool : Nat → Bool
/-- R397: the register value in which DSTEP leaves the next partial remainder and the quotient bit;
the manual gives the step and no packing (log 16). -/
opaque dstepPack : BitVec 64 → Bool → BitVec 64
/-- R397: the partial remainder and divisor that DSTEP reads from its two source registers. -/
opaque dstepUnpack : BitVec 64 → BitVec 64 → Nat × Nat
/-- R397: the register value in which SQSTEP leaves its next remainder and root (log 16). -/
opaque sqstepPack : Nat → Nat → BitVec 64
/-- R397: the remainder and root that SQSTEP reads from its source registers. -/
opaque sqstepUnpack : BitVec 64 → BitVec 64 → Nat × Nat
/-- Table 7.4: which lanes VSEL takes from its first source; the manual gives no selector (log 17). -/
opaque vselMask : BitVec 7 → BitVec 4 → BitVec 512 → BitVec 16
/-- Table 7.4, R339: the scale, bias, activation and limits that VSBAC reads through its second source
and `x7`; the manual gives no layout (log 18). -/
opaque vsbacParams : BitVec 512 → BitVec 7 → BitVec 32 × BitVec 32 × BitVec 2 × BitVec 32 × BitVec 32
/-- R389: which of two numerically equal lanes VMAX or VMIN returns (log 19). -/
opaque tiePick : BitVec 32 → BitVec 32 → Bool
/-- R310: the FP32 result of a core operation on an operand whose pattern is an infinity or a NaN,
which the manual refuses elsewhere and does not define here (log 20). -/
opaque specialLane : Nat → BitVec 32 → BitVec 32 → BitVec 32
/-- R342: where a per-channel tile store reads the scale and bias of column c (log 18). -/
opaque tileChannel : Nat → BitVec 512 → BitVec 512 → BitVec 32 × BitVec 32
/-- Table 7.4: the result of a scalar shift by 64 or more (log 15). -/
opaque longShift : Nat → BitVec 64 → BitVec 64 → BitVec 64
/-- R644: what a stake copy holds whose verify failed, by stake, slot and copy. -/
opaque failedCopy : Nat → Nat → Nat → Bytes
/-- GET_CAPABILITIES: the transfer and message sizes, which the manual does not give. -/
opaque spdmSizes : Bytes
/-- Table 12.4: the severity of an event for which the manual names none (log 46), by event code. -/
opaque severity : Nat → Nat
/-- Table 10.5: the `mtype` code of a kind of cascade message, which the manual does not give (log 47). -/
opaque messageType : Nat → Nat
/-- The body of a cascade message of a kind with a content; the manual gives no layout (log 47). -/
opaque messageBody : Nat → Bytes → Bytes
/-- R496: the order in which the data frames of a field take the check blocks, by field and page; the manual does not
give it (log 75). -/
opaque checkRank : Nat → Nat → Nat
/-- R495: the code of a check value, from bits 47:6 of a chunk's index address and its 64 bytes; the manual gives its
power and not the code (log 75). -/
opaque checkCode : Nat → Bytes → BitVec 16
/-- R495: what the check of the n-th chunk read finds: 0 no error, 1 a correctable one, 2 an uncorrectable one (log 75). -/
opaque chunkError : Nat → Nat
/-- Bytes of a record whose items Table 4.1 names and does not place: part, items, byte (log 49). -/
opaque recordByte : Nat → List Nat → Nat → Byte
/-- A byte of memory that a part takes and that holds no row, entry or block of it (log 49). -/
opaque unheldByte : Nat → Nat → Nat → Byte
/-- Table 8.7: position registers of a stream whose descriptor the Steward builds, by stream number (log 68). -/
opaque streamPosition : Nat → Bytes
/-- R445: which of the free handle queues the Steward assigns (log 101). -/
opaque pickQueue : Nat → Nat
/-- R447: the 8 bits by which a handle names the unit that owns its buffer (log 101). -/
opaque handleOwner : Nat → BitVec 8
/-- R329: whether an extra pass of a forced replay differs from the run that it repeats; only an error of the hardware makes
it so (log 104). -/
opaque replayDiffers : Nat → Bool
/-- R439: how many of a pass's candidates an Assayer has gathered before their selection was decided (log 105). -/
opaque gatherAhead : Nat → Nat
/-- R447: the position of a buffer in its owner's memory, in 64-byte units (log 101). -/
opaque bufferPlace : Nat → BitVec 24
/-- R310: flags of a core operation on an infinity or a NaN (log 20). -/
opaque specialFlags : Nat → BitVec 32 → BitVec 32 → BitVec 11
/-- Table 7.4: how SELF packs the run-logical core and thread into its D register (log 72). -/
opaque selfPack : Nat → Nat → BitVec 64
/-- Table 7.4: what VRED leaves in its vector register, from the old value and the sum (log 72). -/
opaque vredPlace : BitVec 512 → BitVec 32 → BitVec 512
/-- R397: the upper half of a register after DIV or RSQ, from the result and the old register (log 72). -/
opaque upperHalf : BitVec 32 → BitVec 64 → BitVec 32
/-- R385: an accumulator lane after a MAC that names a P operand, from the opcode, the lane number, the lane with its product
added and the constant; the manual does not say how the constant enters (log 72). -/
opaque pMac : Nat → Nat → BitVec 40 → Bool → BitVec 32 → BitVec 40 × Bool
/-- Table 7.4: the register bits above the bytes that LD or LDC loads, and the whole value of an access wider than a
register (log 72). -/
opaque loadUpper : Nat → Bytes → BitVec 64 → BitVec 64
/-- Table 7.4: bytes that ST stores beyond its 8-byte register (log 72). -/
opaque storeUpper : Nat → BitVec 64 → Bytes
/-- Table 7.4: bytes of a vector register that a narrow LDV does not load (log 72). -/
opaque vectorUpper : Nat → Bytes → BitVec 512 → BitVec 512
/-- Table 7.4: vector registers after LD2 and LDST, from `t`, the bytes read and the P constant (R385; log 72). -/
opaque dualRegs : Nat → Bytes → Bytes → Option (BitVec 32) → List (BitVec 512) → Nat → BitVec 512
/-- Table 7.4: bytes that LDST writes to Y (log 72). -/
opaque dualStore : Nat → Option (BitVec 32) → List (BitVec 512) → Bytes
/-- R370: bytes that an LDC reads beyond the line of its address (log 72). -/
opaque loadBeyond : Nat → Nat → Bytes
/-- Table 7.4: a vector register after TLD, by word, tile bytes and register number (log 72). -/
opaque tileRegs : BitVec 32 → Bytes → List (BitVec 512) → Nat → BitVec 512
/-- Table 7.4: bytes of a tile after TST (log 72). -/
opaque tileBytes : BitVec 32 → Bytes → List (BitVec 512) → Bytes
/-- R342: bytes of the tile that TSTS stores, from the converted results by element (log 72). -/
opaque tileStored : BitVec 32 → List Nat → Bytes
/-- R342, R339 step 4: the output format of TSTS, 0 FP32, 1 FP16, 2 BF16, 3 INT8, 4 U16; the manual does not say which field names
it (log 72). -/
opaque tileFormat : BitVec 32 → Fin 5
/-- R342: activation and limits of TSTS (log 18). -/
opaque tileAct : BitVec 32 → BitVec 2 × BitVec 32 × BitVec 32
/-- R392: the factors of product n of a TACC for an element, from the word and the vector registers (log 72). -/
opaque taccFactors : BitVec 32 → List (BitVec 512) → Nat → Nat → BitVec 32 × BitVec 32
/-- R393: bytes of the tiles of a TFOLD whose shape has no binary64 match: the FP32 tile and the other (log 72). -/
opaque foldBytes : BitVec 32 → Bytes → Bytes → Bytes
/-- R352: the tile that an instruction names whose tile number lies beyond its shape's count (log 72). -/
opaque oddTile : Nat → Nat → Nat
/-- R401: run length code of the T32 keys of LKP8 and LKP4; an image names no L (log 72). -/
opaque lookupRun : Nat
/-- Table 7.4: payload and tag of a SEND (log 72). -/
opaque sendPayload : BitVec 32 → List (BitVec 64) → List (BitVec 512) → Bytes
/-- Table 7.4: the tag of a SEND (log 72). -/
opaque sendTag : BitVec 32 → List (BitVec 64) → List (BitVec 512) → BitVec 8
/-- Table 7.4: registers after a RECV, by word, tag, payload and old registers (log 72). -/
opaque recvReg : BitVec 32 → BitVec 8 → Bytes → BitVec 64 → BitVec 64
/-- Table 7.4: a vector register after a RECV (log 72). -/
opaque recvVec : BitVec 32 → BitVec 8 → Bytes → BitVec 512 → BitVec 512
/-- R435: what SWAIT and SPOLL give for a slot number that holds no stream (log 72). -/
opaque emptySlot : BitVec 64 → BitVec 64
/-- R549: the bits of a byte that change when each of its Gray-coded symbols is inverted; the manual names no Gray code. -/
opaque grayFlip : Byte
/-- Table 10.2 NEGOTIATE: the payload of a HELLO flit by serial number, port number, role, protocol version and width; its layout is not
given. -/
opaque helloPayload : BitVec 64 → Nat → Nat → Nat → Nat → Bytes
/-- Table 10.2 ALIGN: the payload of a marker flit; it is not given. -/
opaque markerPayload : Bytes
/-- The SPDM nonce or opaque bytes the device chooses for its n-th signed response. -/
opaque spdmNonce : Nat → Bytes

end Sys2Proof.Config
end

