-- ==== Sys2Proof/Machine/Bits.lean ====
section
/-! DEFINITION. Byte-order helpers, sorted association lists and sparse byte memories. -/

namespace Sys2Proof.Machine

/-- ⌈a / b⌉ for b > 0. -/
def ceilDiv (a b : Nat) : Nat := (a + b - 1) / b

/-- a rounded up to a multiple of b. -/
def roundUp (a b : Nat) : Nat := ceilDiv a b * b

/-- The least power of two at or above n, and its logarithm: ⌈log2 n⌉. -/
def clog2 (n : Nat) : Nat := if n ≤ 1 then 0 else Nat.log2 (n - 1) + 1

/-- The unsigned little-endian number that the bytes spell. -/
def le (bs : Bytes) : Nat := bs.foldr (fun b n => b.toNat + 256 * n) 0

/-- The n lowest bytes of v, little-endian. -/
def leBytes : Nat → Nat → Bytes
  | 0, _ => []
  | n + 1, v => BitVec.ofNat 8 v :: leBytes n (v / 256)

/-- The n lowest bytes of v, big-endian (R610: signature fields). -/
def beBytes (n v : Nat) : Bytes := (leBytes n v).reverse

/-- The unsigned big-endian number that the bytes spell. -/
def be (bs : Bytes) : Nat := le bs.reverse

/-- n zero bytes. -/
def zeros (n : Nat) : Bytes := List.replicate n 0

/-- The bytes padded with zeros, or cut, to exactly n. -/
def fit (n : Nat) (bs : Bytes) : Bytes := bs.take n ++ zeros (n - bs.length)

/-- n bytes from offset o; bytes beyond the end read as zero. -/
def slice (bs : Bytes) (o n : Nat) : Bytes := fit n (bs.drop o)

/-- The number of n bytes at offset o. -/
def num (bs : Bytes) (o n : Nat) : Nat := le (slice bs o n)

/-- Bit b of the byte at offset o. -/
def flag (bs : Bytes) (o b : Nat) : Bool := (num bs o 1).testBit b

/-- The bytes with `new` laid over them at offset o; the length does not change. -/
def overlay (bs : Bytes) (o : Nat) (new : Bytes) : Bytes :=
  bs.take o ++ (new.take (bs.length - o)) ++ bs.drop (o + new.length)

/-- Bytes padded with zeros to a multiple of n. -/
def padTo (n : Nat) (bs : Bytes) : Bytes := bs ++ zeros (roundUp bs.length n - bs.length)

/-- Consecutive chunks of n bytes (n > 0), the last one possibly shorter; fuel bounds their number. -/
def chunks (n : Nat) : Nat → Bytes → List Bytes
  | 0, _ => []
  | f + 1, bs => if bs.isEmpty then [] else bs.take n :: chunks n f (bs.drop n)

/-- Value of key k, if the family holds one. -/
def FMap.get? {α : Type} (m : FMap α) (k : Nat) : Option α :=
  match m with
  | [] => none
  | (j, a) :: t => if j = k then some a else FMap.get? t k

/-- Value of key k, or d where the family holds none. -/
def FMap.getD {α : Type} (m : FMap α) (k : Nat) (d : α) : α := (FMap.get? m k).getD d

/-- The family with key k holding a, keys still rising. -/
def FMap.set {α : Type} (m : FMap α) (k : Nat) (a : α) : FMap α :=
  match m with
  | [] => [(k, a)]
  | (j, b) :: t =>
    if k < j then (k, a) :: (j, b) :: t
    else if k = j then (k, a) :: t
    else (j, b) :: FMap.set t k a

/-- The family without key k. -/
def FMap.erase {α : Type} (m : FMap α) (k : Nat) : FMap α := m.filter (fun p => p.1 ≠ k)

/-- Every value changed by f. -/
def FMap.mapVals {α : Type} (m : FMap α) (f : Nat → α → α) : FMap α := m.map (fun p => (p.1, f p.1 p.2))

/-- The keys strictly rise. -/
abbrev FMap.Sorted {α : Type} (m : FMap α) : Prop := m.Pairwise (fun p q => p.1 < q.1)

/-- A sparse byte memory: pairs of address and byte. -/
abbrev Mem := List Host.Cell

/-- The canonical form of a memory whose unlisted bytes read d: addresses strictly rise and no listed
byte equals d. -/
abbrev Mem.wf (d : Byte) (m : Mem) : Prop := m.Pairwise (fun p q => p.1 < q.1) ∧ ∀ c ∈ m, c.2 ≠ d

/-- The byte at address a; an unlisted address reads d. -/
def Mem.read (d : Byte) (m : Mem) (a : Nat) : Byte :=
  match m with
  | [] => d
  | (b, v) :: t => if b = a then v else Mem.read d t a

/-- n bytes from address a. -/
def Mem.readN (d : Byte) (m : Mem) (a n : Nat) : Bytes := (List.range n).map (fun i => Mem.read d m (a + i))

/-- The cells that bytes laid from address a need: those that differ from d. -/
def cellsFrom (d : Byte) : Nat → Bytes → Mem
  | _, [] => []
  | a, b :: t => if b = d then cellsFrom d (a + 1) t else (a, b) :: cellsFrom d (a + 1) t

/-- The memory with bytes written from address a, still in canonical form. -/
def Mem.write (d : Byte) (m : Mem) (a : Nat) (bs : Bytes) : Mem :=
  m.filter (fun c => c.1 < a) ++ cellsFrom d a bs ++ m.filter (fun c => a + bs.length ≤ c.1)

/-- The memory with addresses a to a + n − 1 unlisted. -/
def Mem.clear (m : Mem) (a n : Nat) : Mem := m.filter (fun c => c.1 < a || a + n ≤ c.1)

/-- The element of a list at position i replaced; nothing where there is none. -/
def setAt {α : Type} (l : List α) (i : Nat) (a : α) : List α := l.set i a

/-- Insertion into a list sorted by a Nat key, after equals (stable). -/
def insertBy {α : Type} (key : α → Nat) (x : α) : List α → List α
  | [] => [x]
  | y :: t => if key x < key y then x :: y :: t else y :: insertBy key x t

/-- Stable insertion sort by a decidable strict order. -/
def insertLt {α : Type} (lt : α → α → Bool) (x : α) : List α → List α
  | [] => [x]
  | y :: t => if lt y x then y :: insertLt lt x t else x :: y :: t

/-- Stable sort by a decidable strict order. -/
def sortLt {α : Type} (lt : α → α → Bool) (l : List α) : List α := l.foldr (insertLt lt) []

/-- The first element for which f is least. -/
def argMin {α : Type} (f : α → Nat) : List α → Option α
  | [] => none
  | x :: t =>
    match argMin f t with
    | none => some x
    | some y => if f y < f x then some y else some x

/-- Nat sum of a list. -/
def sumBy {α : Type} (f : α → Nat) (l : List α) : Nat := l.foldl (fun n a => n + f a) 0

/-- Largest value of f over a list, 0 for none. -/
def maxBy {α : Type} (f : α → Nat) (l : List α) : Nat := l.foldl (fun n a => max n (f a)) 0

/-- The list without its first element that p names. -/
def dropFirst {α : Type} (p : α → Bool) : List α → List α
  | [] => []
  | a :: t => if p a then t else a :: dropFirst p t

/-- The lowest number not in the list, searched from n with fuel. -/
def lowestFree (used : List Nat) : Nat → Nat → Nat
  | 0, n => n
  | f + 1, n => if used.contains n then lowestFree used f (n + 1) else n

/-- Reflected CRC-32C (Castagnoli) of the bytes (Tables 7.5, 11.4, 11.10). -/
def crc32cByte (c : BitVec 32) (b : Byte) : BitVec 32 :=
  (List.range 8).foldl (fun r _ => if r.getLsbD 0 then (r >>> 1) ^^^ 0x82F63B78#32 else r >>> 1)
    (c ^^^ b.zeroExtend 32)

/-- CRC-32C, initial value all ones, inverted at the end (PRESUMED: the usual form, log 14). -/
def crc32c (bs : Bytes) : BitVec 32 := ~~~ bs.foldl crc32cByte 0xFFFFFFFF#32

/-- R556: one byte of CRC-64 with polynomial 0x42F0_E1EB_A9EA_3693, most significant bit first. -/
def crc64Byte (c : BitVec 64) (b : Byte) : BitVec 64 :=
  (List.range 8).foldl (fun r _ => if r.msb then (r <<< 1) ^^^ 0x42F0E1EBA9EA3693#64 else r <<< 1)
    (c ^^^ (b.zeroExtend 64 <<< 56))

/-- R556: CRC-64 from all ones, inverted at the end. -/
def crc64 (bs : Bytes) : BitVec 64 := ~~~ bs.foldl crc64Byte 0xFFFFFFFFFFFFFFFF#64

/-- TBK at the next multiple of n ns after now (log 5). -/
def nextMultiple (n t : Nat) : Nat := (t / n + 1) * n

end Sys2Proof.Machine
end

