-- ==== Sys2Proof/Machine/Crypto.lean ====
section
/-! DEFINITION. The digests and signatures that 11_trust_and_stakes names: SHA-384 (FIPS 180-4),
ECDSA over P-384 (FIPS 186) and the per-message value of RFC 6979. The constants are those public
standards', which the manual names and does not repeat (PRESUMED, log 14). -/

namespace Sys2Proof.Machine

/-- Round constants 0 to 15 of SHA-512 and SHA-384. -/
def shaK0 : List (BitVec 64) :=
  [0x428a2f98d728ae22#64, 0x7137449123ef65cd#64, 0xb5c0fbcfec4d3b2f#64, 0xe9b5dba58189dbbc#64,
   0x3956c25bf348b538#64, 0x59f111f1b605d019#64, 0x923f82a4af194f9b#64, 0xab1c5ed5da6d8118#64,
   0xd807aa98a3030242#64, 0x12835b0145706fbe#64, 0x243185be4ee4b28c#64, 0x550c7dc3d5ffb4e2#64,
   0x72be5d74f27b896f#64, 0x80deb1fe3b1696b1#64, 0x9bdc06a725c71235#64, 0xc19bf174cf692694#64]

/-- Round constants 16 to 31 of SHA-512 and SHA-384. -/
def shaK1 : List (BitVec 64) :=
  [0xe49b69c19ef14ad2#64, 0xefbe4786384f25e3#64, 0x0fc19dc68b8cd5b5#64, 0x240ca1cc77ac9c65#64,
   0x2de92c6f592b0275#64, 0x4a7484aa6ea6e483#64, 0x5cb0a9dcbd41fbd4#64, 0x76f988da831153b5#64,
   0x983e5152ee66dfab#64, 0xa831c66d2db43210#64, 0xb00327c898fb213f#64, 0xbf597fc7beef0ee4#64,
   0xc6e00bf33da88fc2#64, 0xd5a79147930aa725#64, 0x06ca6351e003826f#64, 0x142929670a0e6e70#64]

/-- Round constants 32 to 47 of SHA-512 and SHA-384. -/
def shaK2 : List (BitVec 64) :=
  [0x27b70a8546d22ffc#64, 0x2e1b21385c26c926#64, 0x4d2c6dfc5ac42aed#64, 0x53380d139d95b3df#64,
   0x650a73548baf63de#64, 0x766a0abb3c77b2a8#64, 0x81c2c92e47edaee6#64, 0x92722c851482353b#64,
   0xa2bfe8a14cf10364#64, 0xa81a664bbc423001#64, 0xc24b8b70d0f89791#64, 0xc76c51a30654be30#64,
   0xd192e819d6ef5218#64, 0xd69906245565a910#64, 0xf40e35855771202a#64, 0x106aa07032bbd1b8#64]

/-- Round constants 48 to 63 of SHA-512 and SHA-384. -/
def shaK3 : List (BitVec 64) :=
  [0x19a4c116b8d2d0c8#64, 0x1e376c085141ab53#64, 0x2748774cdf8eeb99#64, 0x34b0bcb5e19b48a8#64,
   0x391c0cb3c5c95a63#64, 0x4ed8aa4ae3418acb#64, 0x5b9cca4f7763e373#64, 0x682e6ff3d6b2b8a3#64,
   0x748f82ee5defb2fc#64, 0x78a5636f43172f60#64, 0x84c87814a1f0ab72#64, 0x8cc702081a6439ec#64,
   0x90befffa23631e28#64, 0xa4506cebde82bde9#64, 0xbef9a3f7b2c67915#64, 0xc67178f2e372532b#64]

/-- Round constants 64 to 79 of SHA-512 and SHA-384. -/
def shaK4 : List (BitVec 64) :=
  [0xca273eceea26619c#64, 0xd186b8c721c0c207#64, 0xeada7dd6cde0eb1e#64, 0xf57d4f7fee6ed178#64,
   0x06f067aa72176fba#64, 0x0a637dc5a2c898a6#64, 0x113f9804bef90dae#64, 0x1b710b35131c471b#64,
   0x28db77f523047d84#64, 0x32caab7b40c72493#64, 0x3c9ebe0a15c9bebc#64, 0x431d67c49c100d4c#64,
   0x4cc5d4becb3e42b6#64, 0x597f299cfc657e2a#64, 0x5fcb6fab3ad6faec#64, 0x6c44198c4a475817#64]

/-- All round constants. -/
def shaK : List (BitVec 64) := shaK0 ++ shaK1 ++ shaK2 ++ shaK3 ++ shaK4

/-- The initial hash value of SHA-384. -/
def sha384Init : List (BitVec 64) :=
  [0xcbbb9d5dc1059ed8#64, 0x629a292a367cd507#64, 0x9159015a3070dd17#64, 0x152fecd8f70e5939#64,
   0x67332667ffc00b31#64, 0x8eb44a8768581511#64, 0xdb0c2e0d64f98fa7#64, 0x47b5481dbefa4fa4#64]

/-- Eight bytes, most significant first, as a word. -/
def beWord (bs : Bytes) : BitVec 64 := BitVec.ofNat 64 (be bs)

/-- Message schedule: words so far, newest first, extended by n words. -/
def shaSchedule : Nat → List (BitVec 64) → List (BitVec 64)
  | 0, ws => ws
  | n + 1, ws =>
    let w2 := ws.getD 1 0
    let w7 := ws.getD 6 0
    let w15 := ws.getD 14 0
    let w16 := ws.getD 15 0
    let s0 := w15.rotateRight 1 ^^^ w15.rotateRight 8 ^^^ (w15 >>> 7)
    let s1 := w2.rotateRight 19 ^^^ w2.rotateRight 61 ^^^ (w2 >>> 6)
    shaSchedule n ((w16 + s0 + w7 + s1) :: ws)

/-- The eight working variables. -/
structure ShaVars where
  a : BitVec 64
  b : BitVec 64
  c : BitVec 64
  d : BitVec 64
  e : BitVec 64
  f : BitVec 64
  g : BitVec 64
  h : BitVec 64

/-- One round with constant plus schedule word. -/
def shaRound (v : ShaVars) (kw : BitVec 64) : ShaVars :=
  let s1 := v.e.rotateRight 14 ^^^ v.e.rotateRight 18 ^^^ v.e.rotateRight 41
  let ch := (v.e &&& v.f) ^^^ ((~~~ v.e) &&& v.g)
  let t1 := v.h + s1 + ch + kw
  let s0 := v.a.rotateRight 28 ^^^ v.a.rotateRight 34 ^^^ v.a.rotateRight 39
  let maj := (v.a &&& v.b) ^^^ (v.a &&& v.c) ^^^ (v.b &&& v.c)
  ⟨t1 + (s0 + maj), v.a, v.b, v.c, v.d + t1, v.e, v.f, v.g⟩

/-- One 128-byte block into the hash value. -/
def shaBlock (h : List (BitVec 64)) (blk : Bytes) : List (BitVec 64) :=
  let w0 := (List.range 16).map fun i => beWord (slice blk (8 * i) 8)
  let ws := (shaSchedule 64 w0.reverse).reverse
  let v0 : ShaVars := ⟨h.getD 0 0, h.getD 1 0, h.getD 2 0, h.getD 3 0, h.getD 4 0, h.getD 5 0, h.getD 6 0, h.getD 7 0⟩
  let v := (List.zipWith (· + ·) shaK ws).foldl shaRound v0
  List.zipWith (· + ·) h [v.a, v.b, v.c, v.d, v.e, v.f, v.g, v.h]

/-- Padding of a message of the SHA-512 family. -/
def shaPad (m : Bytes) : Bytes :=
  let n := m.length
  m ++ [0x80#8] ++ zeros ((128 - (n + 17) % 128) % 128) ++ beBytes 16 (8 * n)

/-- SHA-384: the first 48 bytes of the hash value. -/
def sha384 (m : Bytes) : Bytes :=
  let p := shaPad m
  let h := (chunks 128 (p.length / 128 + 1) p).foldl shaBlock sha384Init
  (h.take 6).flatMap fun w => beBytes 8 w.toNat

/-- HMAC-SHA-384. -/
def hmac384 (key m : Bytes) : Bytes :=
  let k := fit 128 (if 128 < key.length then sha384 key else key)
  let x (c : Byte) := k.map (· ^^^ c)
  sha384 (x 0x5c#8 ++ sha384 (x 0x36#8 ++ m))

/-- The field prime of P-384. -/
def p384P : Nat := 2 ^ 384 - 2 ^ 128 - 2 ^ 96 + 2 ^ 32 - 1
/-- The group order of P-384. -/
def p384N : Nat := 0xffffffffffffffffffffffffffffffffffffffffffffffffc7634d81f4372ddf581a0db248b0a77aecec196accc52973
/-- The curve coefficient b of P-384. -/
def p384B : Nat := 0xb3312fa7e23ee7e4988e056be3f82d19181d9c6efe8141120314088f5013875ac656398d8a2ed19d2a85c8edd3ec2aef
/-- The base point of P-384. -/
def p384G : Option (Nat × Nat) :=
  some (0xaa87ca22be8b05378eb1c71ef320ad746e1d3b628ba79b9859f741e082542a385502f25dbf55296c3a545e3872760ab7,
    0x3617de4a96262c6f5d9e98bf9292dc29f8f41dbd289a147ce9da3113b5f0b8c00a60b1ce1d7e819d7a431d7c90ea0e5f)

/-- a ^ e mod m by squaring, over n bits of e. -/
def powMod (m : Nat) : Nat → Nat → Nat → Nat → Nat
  | 0, _, _, acc => acc
  | n + 1, a, e, acc => powMod m n (a * a % m) (e / 2) (if e % 2 = 1 then acc * a % m else acc)

/-- Inverse modulo a prime of 384 bits. -/
def invMod (m a : Nat) : Nat := powMod m 384 (a % m) (m - 2) 1

/-- Affine point addition; none is the point at infinity. -/
def ecAdd (a b : Option (Nat × Nat)) : Option (Nat × Nat) :=
  match a, b with
  | none, q => q
  | q, none => q
  | some (x1, y1), some (x2, y2) =>
    if x1 = x2 && (y1 + y2) % p384P = 0 then none
    else
      let l :=
        if x1 = x2 then (3 * x1 * x1 + (p384P - 3)) * invMod p384P (2 * y1) % p384P
        else (y2 + p384P - y1) * invMod p384P (x2 + p384P - x1) % p384P
      let x3 := (l * l + 2 * p384P - x1 - x2) % p384P
      some (x3, (l * (x1 + p384P - x3) + p384P - y1) % p384P)

/-- Scalar multiplication over n bits. -/
def ecMul : Nat → Nat → Option (Nat × Nat) → Option (Nat × Nat) → Option (Nat × Nat)
  | 0, _, _, acc => acc
  | n + 1, k, q, acc => ecMul n (k / 2) (ecAdd q q) (if k % 2 = 1 then ecAdd acc q else acc)

/-- The point is on the curve with reduced coordinates. -/
def onCurve (x y : Nat) : Bool :=
  x < p384P && y < p384P && (y * y) % p384P == (x * x * x + (p384P - 3) * x + p384B) % p384P

/-- R611: an ECDSA P-384 signature r ‖ s over a digest by the public key X ‖ Y is valid. -/
def ecdsaValid (key digest sig : Bytes) : Bool :=
  let x := be (slice key 0 48)
  let y := be (slice key 48 48)
  let r := be (slice sig 0 48)
  let s := be (slice sig 48 48)
  if onCurve x y && 0 < r && r < p384N && 0 < s && s < p384N then
    let w := invMod p384N s
    let u1 := be digest * w % p384N
    let u2 := r * w % p384N
    match ecAdd (ecMul 384 u1 p384G none) (ecMul 384 u2 (some (x, y)) none) with
    | none => false
    | some (px, _) => px % p384N == r
  else false

/-- The public key X ‖ Y of a private scalar. -/
def publicKey (d : Nat) : Bytes :=
  match ecMul 384 d p384G none with
  | none => zeros 96
  | some (x, y) => beBytes 48 x ++ beBytes 48 y

/-- R628: the per-message value k of RFC 6979; fuel bounds the rejected candidates. -/
def rfc6979 : Nat → Bytes → Bytes → Nat
  | 0, _, _ => 1
  | f + 1, k, v =>
    let v1 := hmac384 k v
    let c := be v1
    if 0 < c && c < p384N then c
    else
      let k2 := hmac384 k (v1 ++ [0#8])
      rfc6979 f k2 (hmac384 k2 v1)

/-- The first k and v of RFC 6979 for a private scalar and a digest. -/
def nonceFor (d : Nat) (digest : Bytes) : Nat :=
  let x := beBytes 48 d
  let h := beBytes 48 (be digest % p384N)
  let v0 : Bytes := List.replicate 48 1
  let k0 := zeros 48
  let k1 := hmac384 k0 (v0 ++ [0#8] ++ x ++ h)
  let v1 := hmac384 k1 v0
  let k2 := hmac384 k1 (v1 ++ [1#8] ++ x ++ h)
  let v2 := hmac384 k2 v1
  rfc6979 8 k2 v2

/-- R628: the signature r ‖ s of a digest, big-endian. -/
def ecdsaSign (d : Nat) (digest : Bytes) : Bytes :=
  let k := nonceFor d digest
  let r := match ecMul 384 k p384G none with
    | none => 0
    | some (x, _) => x % p384N
  let s := invMod p384N k * ((be digest + r * d) % p384N) % p384N
  beBytes 48 r ++ beBytes 48 s

end Sys2Proof.Machine
end

