-- ==== Sys2Proof/Machine/Fp.lean ====
section
/-! DEFINITION. Arithmetic of 06_arithmetic: formats, rounding, the fixed order of summation with
overflow replay, narrowing, division, reciprocal norms, MS and SBAC. Values are exact dyadic numbers;
every rounding of the manual is one call of a rounding function here. -/

namespace Sys2Proof.Machine

/-- Completion flags 10 to 0 in the positions of Table 2.5. -/
abbrev Flags := BitVec 11

/-- Table 2.5 bit 0. -/
def flND : Flags := 0x001#11
/-- Table 2.5 bit 1. -/
def flNARROWED : Flags := 0x002#11
/-- Table 2.5 bit 2. -/
def flPERTURBED : Flags := 0x004#11
/-- Table 2.5 bit 3. -/
def flPAGED : Flags := 0x008#11
/-- Table 2.5 bit 4. -/
def flDEGRADED : Flags := 0x010#11
/-- Table 2.5 bit 5. -/
def flDSAT : Flags := 0x020#11
/-- Table 2.5 bit 6. -/
def flIX : Flags := 0x040#11
/-- Table 2.5 bit 7. -/
def flUF : Flags := 0x080#11
/-- Table 2.5 bit 8. -/
def flOF : Flags := 0x100#11
/-- Table 2.5 bit 9. -/
def flIV : Flags := 0x200#11
/-- Table 2.5 bit 10. -/
def flDIN : Flags := 0x400#11

/-- f when b, no flag otherwise. -/
def flIf (b : Bool) (f : Flags) : Flags := if b then f else 0

/-- An exact finite value (−1)^neg · m · 2^e; a zero keeps its sign. -/
structure Fv where
  neg : Bool
  m : Nat
  e : Int
  deriving DecidableEq, Repr

/-- +0. -/
def fv0 : Fv := ⟨false, 0, 0⟩

/-- A floating-point format of Table 6.1: exponent and fraction widths, bias, largest finite value. -/
structure Fmt where
  expBits : Nat
  fracBits : Nat
  bias : Nat
  maxM : Nat
  maxE : Int
  /-- E4M3 has no infinity: only the all-ones pattern is special. -/
  nanOnly : Bool
  deriving DecidableEq, Repr

/-- Table 6.1. -/
def fFP32 : Fmt := ⟨8, 23, 127, 2 ^ 24 - 1, 104, false⟩
/-- Table 6.1. -/
def fFP16 : Fmt := ⟨5, 10, 15, 2 ^ 11 - 1, 5, false⟩
/-- Table 6.1. -/
def fBF16 : Fmt := ⟨8, 7, 127, 2 ^ 8 - 1, 120, false⟩
/-- Table 6.1: largest finite 448 = 14 · 2^5. -/
def fE4M3 : Fmt := ⟨4, 3, 7, 14, 5, true⟩
/-- Table 6.1. -/
def fE5M2 : Fmt := ⟨5, 2, 15, 7, 13, false⟩
/-- binary64, for wide totals. -/
def fF64 : Fmt := ⟨11, 52, 1023, 2 ^ 53 - 1, 971, false⟩

/-- The exponent of the smallest normal value. -/
def Fmt.emin (f : Fmt) : Int := 1 - (f.bias : Int)
/-- Bits of a pattern of the format. -/
def Fmt.bits (f : Fmt) : Nat := 1 + f.expBits + f.fracBits
/-- Bytes of a pattern of the format. -/
def Fmt.bytes (f : Fmt) : Nat := f.bits / 8
/-- The largest finite value with a sign. -/
def Fmt.largest (f : Fmt) (neg : Bool) : Fv := ⟨neg, f.maxM, f.maxE⟩

/-- Exponent field of a pattern. -/
def expField (f : Fmt) (b : Nat) : Nat := (b / 2 ^ f.fracBits) % 2 ^ f.expBits
/-- Fraction field of a pattern. -/
def fracField (f : Fmt) (b : Nat) : Nat := b % 2 ^ f.fracBits

/-- R19: the pattern is an infinity or a NaN of its format. -/
def isSpecial (f : Fmt) (b : Nat) : Bool :=
  expField f b == 2 ^ f.expBits - 1 && (!f.nanOnly || fracField f b == 2 ^ f.fracBits - 1)

/-- The pattern is subnormal: an operand that raises DIN (Table 6.4). -/
def isSubnormal (f : Fmt) (b : Nat) : Bool := expField f b == 0 && fracField f b != 0

/-- R311: the exact value of a finite pattern. -/
def decodeFp (f : Fmt) (b : Nat) : Fv :=
  let neg := (b / 2 ^ (f.expBits + f.fracBits)) % 2 == 1
  let x := expField f b
  if x = 0 then ⟨neg, fracField f b, f.emin - f.fracBits⟩
  else ⟨neg, 2 ^ f.fracBits + fracField f b, (x : Int) - f.bias - f.fracBits⟩

/-- Exponent of the leading bit of a nonzero value. -/
def topExp (v : Fv) : Int := (Nat.log2 v.m : Int) + v.e

/-- m / 2^sh to nearest, ties to even, and whether a bit was lost (R313). -/
def rne (m sh : Nat) : Nat × Bool :=
  if sh = 0 then (m, false)
  else
    let q := m >>> sh
    let r := m % 2 ^ sh
    let half := 2 ^ (sh - 1)
    (if half < r || (r == half && q % 2 == 1) then q + 1 else q, r != 0)

/-- The value rounded to a multiple of 2^q. -/
def roundAt (v : Fv) (q : Int) : Fv × Bool :=
  if q ≤ v.e then (v, false)
  else
    let r := rne v.m (q - v.e).toNat
    (⟨v.neg, r.1, q⟩, r.2)

/-- The value rounded to p significant bits with an unbounded exponent. -/
def roundP (p : Nat) (v : Fv) : Fv × Bool :=
  if v.m = 0 then (v, false) else roundAt v (topExp v - ((p : Int) - 1))

/-- |a| < |b|. -/
def magLt (a b : Fv) : Bool :=
  let q := min a.e b.e
  a.m * 2 ^ (a.e - q).toNat < b.m * 2 ^ (b.e - q).toNat

/-- A rounded value with what its rounding raised (Table 6.4). -/
structure Rounded where
  v : Fv
  ix : Bool
  uf : Bool
  ovf : Bool
  deriving DecidableEq, Repr

/-- R313 and Table 6.4: rounding to a format; `ovf` says that the value rounded with an unbounded
exponent exceeds the largest finite value. -/
def roundFmt (f : Fmt) (v : Fv) : Rounded :=
  if v.m = 0 then ⟨v, false, false, false⟩
  else
    let ub := (roundP (f.fracBits + 1) v).1
    let r := roundAt v (max (topExp v - f.fracBits) (f.emin - f.fracBits))
    ⟨r.1, r.2, r.2 && topExp ub < f.emin, magLt (f.largest false) ⟨false, ub.m, ub.e⟩⟩

/-- R316: rounding outside a sum, saturating at the largest finite value with OF, IX and DSAT. -/
def satFmt (f : Fmt) (v : Fv) : Fv × Flags :=
  let r := roundFmt f v
  if r.ovf then (f.largest v.neg, flOF ||| flIX ||| flDSAT)
  else (r.v, flIf r.ix flIX ||| flIf r.uf flUF)

/-- The pattern of a value that the format holds exactly. -/
def encodeFp (f : Fmt) (v : Fv) : Nat :=
  let sgn := if v.neg then 2 ^ (f.expBits + f.fracBits) else 0
  if v.m = 0 then sgn
  else
    let q := max (topExp v - f.fracBits) (f.emin - f.fracBits)
    let m := if q ≤ v.e then v.m * 2 ^ (v.e - q).toNat else v.m / 2 ^ (q - v.e).toNat
    if m < 2 ^ f.fracBits then sgn + m
    else sgn + ((q + f.fracBits + f.bias).toNat) * 2 ^ f.fracBits + (m - 2 ^ f.fracBits)

/-- The FP32 value of a 32-bit pattern. -/
def fp32 (b : BitVec 32) : Fv := decodeFp fFP32 b.toNat
/-- The FP32 pattern of a value the format holds. -/
def toFp32 (v : Fv) : BitVec 32 := BitVec.ofNat 32 (encodeFp fFP32 v)

/-- A value with its sign flipped, zeros included. -/
def fneg (v : Fv) : Fv := { v with neg := !v.neg }

/-- Exact sum; an exact zero is +0 unless both operands are −0. -/
def fadd (a b : Fv) : Fv :=
  if a.m = 0 && b.m = 0 then ⟨a.neg && b.neg, 0, 0⟩
  else
    let q := min a.e b.e
    let x : Int := (if a.neg then -1 else 1) * (a.m * 2 ^ (a.e - q).toNat : Nat)
    let y : Int := (if b.neg then -1 else 1) * (b.m * 2 ^ (b.e - q).toNat : Nat)
    let s := x + y
    ⟨s < 0, s.natAbs, q⟩

/-- Exact product. -/
def fmul (a b : Fv) : Fv := ⟨a.neg != b.neg, a.m * b.m, a.e + b.e⟩

/-- The value times 2^k, exactly. -/
def fscale (v : Fv) (k : Int) : Fv := { v with e := v.e + k }

/-- a < b numerically (−0 equals +0). -/
def fltb (a b : Fv) : Bool :=
  let d := fadd a (fneg b)
  d.neg && d.m != 0

/-- R315: ⌊x + 1/2⌋. -/
def roundHalfUp (v : Fv) : Int :=
  let s : Int := if v.neg then -(v.m : Int) else v.m
  if 0 ≤ v.e then s * 2 ^ v.e.toNat
  else (2 * s + 2 ^ (-v.e).toNat) / 2 ^ ((-v.e).toNat + 1)

/-- The value is an integer. -/
def isInt (v : Fv) : Bool := 0 ≤ v.e || v.m % 2 ^ (-v.e).toNat == 0

/-- R317: conversion to an integer range by rounding half up, with clamp (IX and DSAT). -/
def toIntRange (lo hi : Int) (v : Fv) : Int × Flags :=
  let r := roundHalfUp v
  if r < lo then (lo, flIX ||| flDSAT)
  else if hi < r then (hi, flIX ||| flDSAT)
  else (r, flIf (!isInt v) flIX)

/-! ### Sums (Table 6.3, R318 to R329) -/

/-- A term before scaling: its exact value, and whether the rounding of d_i changed it (R314). -/
structure Term where
  v : Fv
  ix : Bool
  deriving DecidableEq, Repr

/-- What a pass of a run has raised, and the sign of its first overflowing intermediate (R326). -/
structure Pass where
  ix : Bool
  uf : Bool
  ovf : Option Bool
  deriving DecidableEq, Repr

/-- round32 inside a pass: overflow is recorded, never saturated (R325). -/
def passRound (v : Fv) (p : Pass) : Fv × Pass :=
  let r := roundFmt fFP32 v
  (r.v, ⟨p.ix || r.ix, p.uf || r.uf, if r.ovf then (p.ovf.orElse fun _ => some v.neg) else p.ovf⟩)

/-- The term at scale level s. -/
def passTerm (s : Nat) (t : Term) (p : Pass) : Fv × Pass :=
  passRound (fscale t.v (-64 * (s : Int))) { p with ix := p.ix || t.ix }

/-- A list of terms formed in ascending order. -/
def passTerms (s : Nat) : List Term → Pass → List Fv × Pass
  | [], p => ([], p)
  | t :: ts, p =>
    let a := passTerm s t p
    let b := passTerms s ts a.2
    (a.1 :: b.1, b.2)

/-- One level of the pairwise tree (R320). -/
def pairLevel : List Fv → Pass → List Fv × Pass
  | a :: b :: t, p =>
    let r := passRound (fadd a b) p
    let q := pairLevel t r.2
    (r.1 :: q.1, q.2)
  | l, p => (l, p)

/-- The tree over lanes; fuel is the logarithm of the width. -/
def treeSum : Nat → List Fv → Pass → Fv × Pass
  | 0, l, p => (l.headD fv0, p)
  | f + 1, l, p =>
    let r := pairLevel l p
    treeSum f r.1 r.2

/-- R320: group_sum of G lanes given as terms. -/
def groupSum (s g : Nat) (ts : List Term) (p : Pass) : Fv × Pass :=
  let a := passTerms s ts p
  treeSum (clog2 g) a.1 a.2

/-- R321: the groups after the first, each added to the accumulator when it is formed. -/
def runRest (s g : Nat) : List (List Term) → Fv → Pass → Fv × Pass
  | [], acc, p => (acc, p)
  | ts :: rest, acc, p =>
    let a := groupSum s g ts p
    let b := passRound (fadd acc a.1) a.2
    runRest s g rest b.1 b.2

/-- Consecutive chunks of n elements; fuel bounds their number. -/
def chunkList {α : Type} (n : Nat) : Nat → List α → List (List α)
  | 0, _ => []
  | f + 1, l => if l.isEmpty then [] else l.take n :: chunkList n f (l.drop n)

/-- run_sum at scale level s over terms whose number is a multiple of G (R318). -/
def runPass (s g : Nat) (ts : List Term) : Fv × Pass :=
  match chunkList g ts.length ts with
  | [] => (fv0, ⟨false, false, none⟩)
  | c :: cs =>
    let a := groupSum s g c ⟨false, false, none⟩
    runRest s g cs a.1 a.2

/-- A run as it completed: sum, scale level, flags, discarded passes (R326, R327). -/
structure RunR where
  v : Fv
  level : Nat
  fl : Flags
  replays : Nat
  deriving DecidableEq, Repr

/-- R327: flags of a completing pass, with OF when a pass was discarded. -/
def runFlags (p : Pass) (discarded : Bool) : Flags :=
  flIf p.ix flIX ||| flIf p.uf flUF ||| flIf discarded flOF

/-- R326: a run at level 0, 1, then 2, saturating when level 2 overflows. -/
def runReplay (g : Nat) (ts : List Term) : RunR :=
  let r0 := runPass 0 g ts
  match r0.2.ovf with
  | none => ⟨r0.1, 0, runFlags r0.2 false, 0⟩
  | some _ =>
    let r1 := runPass 1 g ts
    match r1.2.ovf with
    | none => ⟨r1.1, 1, runFlags r1.2 true, 1⟩
    | some _ =>
      let r2 := runPass 2 g ts
      match r2.2.ovf with
      | none => ⟨r2.1, 2, runFlags r2.2 true, 2⟩
      | some neg => ⟨fFP32.largest neg, 2, runFlags r2.2 true ||| flIX ||| flDSAT, 2⟩

/-- A sum: its wide total, flags, replays and runs. -/
structure SumR where
  w : Fv
  fl : Flags
  replays : Nat
  runs : Nat
  deriving DecidableEq, Repr

/-- R324: the 16-byte spill record of a sum: its wide total, the flags raised so far and the index of the next run. The manual
gives its contents and no layout; a run index is at most 255, the flags are IX, UF, OF, DIN and DSAT, and W is a binary64
value (log 106). -/
structure SpillRecord where
  w : BitVec 64
  fl : Flags
  next : Nat
  deriving DecidableEq, Repr
/-- R324: W spilled. -/
def SumR.spill (a : SumR) : SpillRecord := ⟨BitVec.ofNat 64 (encodeFp fF64 a.w), a.fl, a.runs⟩
/-- R324: W reloaded before the next run. -/
def SpillRecord.reload (r : SpillRecord) (replays : Nat) : SumR := ⟨decodeFp fF64 r.w.toNat, r.fl, replays, r.next⟩
/-- R322: a run sum added to the wide total in binary64. -/
def addRun (a : SumR) (r : RunR) : SumR :=
  let q := roundFmt fF64 (fadd a.w (fscale r.v (64 * (r.level : Int))))
  ⟨q.v, a.fl ||| r.fl ||| flIf q.ix flIX, a.replays + r.replays, a.runs + 1⟩

/-- The empty sum: W starts at +0. -/
def sum0 : SumR := ⟨fv0, 0, 0, 0⟩

/-- R319: the terms of each run, padded with +0 to the end of the last run. -/
def runTerms (l : Nat) (ts : List Term) : List (List Term) :=
  let n := roundUp ts.length l
  let padded := ts ++ List.replicate (n - ts.length) ⟨fv0, false⟩
  chunkList l padded.length padded
/-- R324: a sum of more than 4,096 terms spills W after every S = 4,096 / L runs, and reloads it before the next run. -/
def respill (l terms : Nat) (a : SumR) : SumR :=
  if 4096 < terms && a.runs != 0 && a.runs % (4096 / l) == 0 then a.spill.reload a.replays else a
/-- R318, R319, R324: wide_sum with group width g and run length l. -/
def wideSum (g l : Nat) (ts : List Term) : SumR :=
  (runTerms l ts).foldl (fun a c => addRun (respill l ts.length a) (runReplay g c)) sum0

/-- R323: the value of a sum, W converted to FP32. -/
def sumValue (r : SumR) : Fv × Flags :=
  let c := satFmt fFP32 r.w
  (c.1, r.fl ||| c.2)

/-- Table 6.3: the term of a squared Euclidean sum. -/
def sqTerm (q x : Fv) : Term :=
  let d := roundP 24 (fadd q (fneg x))
  ⟨fmul d.1 d.1, d.2⟩

/-- Table 6.3: the term of an inner product. -/
def ipTerm (q x : Fv) : Term := ⟨fmul q x, false⟩

/-- A sum in the fixed order with its value. -/
def plainSum (g l : Nat) (ts : List Term) : Fv × SumR :=
  let r := wideSum g l ts
  let v := sumValue r
  (v.1, { r with fl := v.2 })

/-- Table 6.3: the terms of a score key under a metric (0 squared Euclidean, otherwise inner product). -/
def scoreTerms (metric : Nat) (q x : List Fv) : List Term :=
  if metric = 0 then List.zipWith sqTerm q x else List.zipWith ipTerm q x
/-- Table 1.1: the score key between two vectors under a metric with a way of summing, with flags, replays and runs; an
inner product is negated. -/
def scoreKeyBy (sum : List Term → Fv × SumR) (metric : Nat) (q x : List Fv) : Fv × SumR :=
  let r := sum (scoreTerms metric q x)
  (if metric = 0 then r.1 else fneg r.1, r.2)

/-- Table 1.1: the score key in the fixed order of summation. -/
def scoreKey (metric g l : Nat) (q x : List Fv) : Fv × SumR := scoreKeyBy (plainSum g l) metric q x

/-- Table 6.3: the squared norm. -/
def squaredNorm (g l : Nat) (v : List Fv) : SumR := wideSum g l (v.map fun x => ipTerm x x)

/-- R21: order_key of a score key. -/
def orderKey (k : BitVec 32) : BitVec 32 :=
  let b := if k = 0x80000000#32 then 0#32 else k
  if b.msb then ~~~ b else b ||| 0x80000000#32

/-- R21: (order_key, id) strictly before, both unsigned. -/
def before (k1 : BitVec 32) (id1 : Nat) (k2 : BitVec 32) (id2 : Nat) : Bool :=
  (orderKey k1).toNat < (orderKey k2).toNat ||
    ((orderKey k1).toNat == (orderKey k2).toNat && id1 < id2)

/-! ### Division and reciprocal norms (R333 to R335) -/

/-- Exact quotient to 60 bits or more with a sticky bit below. -/
def quotient (a b : Fv) : Fv :=
  let k := 64 + Nat.log2 b.m
  let n := a.m <<< k
  ⟨a.neg != b.neg, 2 * (n / b.m) + (if n % b.m = 0 then 0 else 1), a.e - b.e - k - 1⟩

/-- R333, R316: correctly rounded FP32 division by a nonzero value. -/
def fdiv32 (a b : Fv) : Fv × Flags := satFmt fFP32 (quotient a b)

/-- Integer square root by digit recurrence over n result bits. -/
def isqrtAux : Nat → Nat → Nat → Nat
  | 0, _, r => r
  | n + 1, x, r =>
    let t := r + 2 ^ n
    isqrtAux n x (if t * t ≤ x then t else r)

/-- R334: reciprocal_norm of a squared norm n > 0. -/
def reciprocalNorm (n : Fv) : Fv × Flags :=
  let e := topExp n / 2
  let x := n.e - 2 * e + 50
  let num := if 0 ≤ x then n.m * 2 ^ x.toNat else n.m / 2 ^ (-x).toNat
  let lost := x < 0 && n.m % 2 ^ (-x).toNat != 0
  let s := isqrtAux 27 num 0
  let ix1 := lost || s * s != num
  let q := 2 ^ 51 / s
  let ix2 := 2 ^ 51 % s != 0
  let r := satFmt fFP32 ⟨false, q, -26 - e⟩
  (r.1, r.2 ||| flIf (ix1 || ix2) flIX)

/-- R16, R335: normalisation, or none when the squared norm is zero (R17). -/
def normalise (g l : Nat) (v : List Fv) : Option (List Fv × SumR) :=
  let n := squaredNorm g l v
  if n.w.m = 0 then none
  else
    let r := reciprocalNorm n.w
    let ps := v.map fun x => satFmt fFP32 (fmul x r.1)
    some (ps.map (·.1), { n with fl := n.fl ||| r.2 ||| ps.foldl (fun f p => f ||| p.2) 0 })

/-! ### Fused output stages (R337 to R341) -/

/-- The SBAC record (R170). -/
structure Sbac where
  scale : BitVec 32
  bias : BitVec 32
  act : Nat
  lo : BitVec 32
  hi : BitVec 32
  deriving DecidableEq, Repr

/-- R339 steps 1 to 3. -/
def sbacStage (c : Sbac) (v : Fv) : Fv × Flags :=
  let t := satFmt fFP32 (fmul v (fp32 c.scale))
  let u := satFmt fFP32 (fadd t.1 (fp32 c.bias))
  let r :=
    if c.act = 1 then
      if fltb u.1 (fp32 c.lo) then fp32 c.lo
      else if fltb (fp32 c.hi) u.1 then fp32 c.hi else u.1
    else if c.act = 2 then (if u.1.neg || u.1.m = 0 then fv0 else u.1)
    else if c.act = 3 then fneg u.1
    else u.1
  (r, t.2 ||| u.2)

/-- R306, R339 step 4: conversion to `out_fmt`, as a pattern of its bytes. -/
def toOut (outFmt : Nat) (v : Fv) : Nat × Flags :=
  match outFmt with
  | 0 => (encodeFp fFP32 v, 0)
  | 1 => let r := satFmt fFP16 v; (encodeFp fFP16 r.1, r.2)
  | 2 => let r := satFmt fBF16 v; (encodeFp fBF16 r.1, r.2)
  | 3 => let r := toIntRange (-128) 127 v; (r.1.toNat + (if r.1 < 0 then (256 + r.1).toNat else 0), r.2)
  | _ => let r := toIntRange 0 65535 v; (r.1.toNat, r.2)

/-- R301: bytes of one score. -/
def outBytes (outFmt : Nat) : Nat := if outFmt = 0 then 4 else if outFmt = 3 then 1 else 2

/-- R337, R338: ms_max over reported scores, zeros written +0. -/
def msMax (scores : List Fv) : Fv :=
  match scores with
  | [] => fv0
  | x :: t =>
    let m := t.foldl (fun a b => if fltb a b then b else a) x
    if m.m = 0 then fv0 else m

/-- R337: ms_sum, the row sum. -/
def msSum (g l : Nat) (scores : List Fv) : Fv × SumR :=
  let r := wideSum g l (scores.map fun v => ⟨v, false⟩)
  let v := sumValue r
  (v.1, { r with fl := v.2 })

/-! ### Vectors in packets and in store -/

/-- The format of a `vec_fmt` code (R153): 0 FP32, 1 FP16, 2 BF16. -/
def vecFmt (c : Nat) : Fmt := if c = 0 then fFP32 else if c = 1 then fFP16 else fBF16

/-- The format of a `coarse_fmt` code (Table 3.5). -/
def coarseFmt (c : Nat) : Fmt :=
  if c = 0 then fFP16 else if c = 1 then fBF16 else if c = 2 then fE4M3 else fE5M2

/-- The format of a nonzero `fp_fmt` code (Table 3.5): 1 FP32, 2 FP16, 3 BF16. -/
def fpFmt (c : Nat) : Fmt := if c = 1 then fFP32 else if c = 2 then fFP16 else fBF16

/-- The patterns of n values of a format laid out from the start of the bytes. -/
def patterns (f : Fmt) (n : Nat) (bs : Bytes) : List Nat :=
  (List.range n).map fun i => num bs (i * f.bytes) f.bytes

/-- DIN when any pattern is subnormal (Table 6.4). -/
def dinOf (f : Fmt) (ps : List Nat) : Flags := flIf (ps.any (isSubnormal f)) flDIN

/-- The values of patterns. -/
def values (f : Fmt) (ps : List Nat) : List Fv := ps.map (decodeFp f)

/-- Values converted to a format (R280, R238), with flags, as patterns. -/
def convertAll (f : Fmt) (vs : List Fv) : List Nat × Flags :=
  let rs := vs.map (satFmt f)
  (rs.map fun r => encodeFp f r.1, rs.foldl (fun a r => a ||| r.2) 0)

end Sys2Proof.Machine
end

