-- ==== Sys2Proof/Machine/State.lean ====
section
/-! DEFINITION. The state of the block: every register, queue, buffer and mode the manual gives it, as
plain data, with the state right after reset. INVENTORY.md lists each piece with its rule. -/

namespace Sys2Proof.Machine

/-! ### Rings and commands -/

/-- Tables 2.1 and 2.2: one ring's doorbell page, with the device's side of the completion ring. -/
structure Ring where
  tail : BitVec 16
  head : BitVec 16
  log2 : BitVec 5
  prio : BitVec 2
  enable : Bool
  sqBase : BitVec 64
  cqBase : BitVec 64
  sqHead : BitVec 16
  seqNext : BitVec 48
  irqTime : BitVec 16
  irqCount : BitVec 8
  error : Bool
  errorCause : BitVec 4
  /-- R77: a reset waits for the ring's outstanding commands. -/
  resetting : Bool
  /-- R115: the ST_RING_ERROR record is still to be written. -/
  errRecordDue : Bool
  /-- R115: the completion ring can still be written. -/
  cqWritable : Bool
  /-- R100: the next completion slot. -/
  cqTail : BitVec 16
  /-- R89: the phase of this pass. -/
  phase : Bool
  /-- R110: written, unconsumed completion records. -/
  unconsumed : Nat
  /-- R80: records not yet signalled, and when the first of them was written. -/
  unsignalled : Nat
  unsignalledSince : Option Nat
  deriving DecidableEq, Repr

/-- Table 2.1: a ring at reset. -/
def Ring.reset : Ring :=
  ⟨0, 0, 6, 0, false, 0, 0, 0, 0, 0, 0, false, 0, false, false, true, 0, true, 0, 0, none⟩

/-! ### Parts and pages -/

/-- Table 4.1 and R494: what a page of a field's index address space holds. -/
inductive Part where
  | centroids
  | codebook
  | directory
  | idMap
  | blockTable
  | scan
  | full
  | tombstones
  | versions
  | pendingStore
  | bitmap (id : Nat)
  | program (id : Nat)
  | tileFile (id : Nat)
  | scratch (id : Nat)
  /-- R496: check values of a field with inline ECC. -/
  | check
  deriving DecidableEq, Repr

/-- A page that a field needs. -/
structure Need4 where
  index : Option Nat
  part : Part
  half : Nat
  n : Nat
  /-- Only GDDR will do (R230, R185, R410, R191). -/
  gddr : Bool
  deriving DecidableEq, Repr

/-- Bytes of a part of an index, or of a part of the field that belongs to no index. -/
structure Span where
  index : Option Nat
  part : Part
  half : Nat
  start : Nat
  len : Nat
  deriving DecidableEq, Repr

/-- R450, R476, R502: what a command still reads or writes after its outcome has been decided: it completes once every
page of its spans has been resident. -/
structure Reading where
  spans : List Span
  /-- The pages are written. -/
  store : Bool
  /-- Pages that it has read so far. -/
  done : List Nat
  /-- R250, R261: the index key, the epoch and the place in the order of swaps that it reads. -/
  holds : Option (Nat × Nat × Nat)
  info : Nat
  flags : Flags
  writes : List (Nat × Bytes)
  deriving DecidableEq, Repr

/-! ### Commands -/

/-- What an outstanding command of a ring is doing. -/
inductive Work where
  /-- Fetched and not yet admitted (R99). -/
  | fetched
  /-- A COMMIT of an index, waiting for COMMIT_APPLY (R247): it takes in the mutations whose stamp lies
  below `upTo` (R163); the pages that step 3 has obtained for it so far, and those it has written. -/
  | commit (key upTo : Nat) (extra : List Need4) (done : List Nat)
  /-- Decided, with pages still to read or write (R450, R502). -/
  | reading (r : Reading)
  /-- A COMPACT of an index: lists still to swap, lists rewritten, entries purged (R169). -/
  | compact (key : Nat) (lists : List Nat) (rewritten purged : Nat)
  /-- A search whose queries are in the query path. -/
  | search
  /-- A program run (R413). -/
  | run (id : Nat)
  /-- A UNIT_FALLOW waiting for its unit to drain (R205), with the frames to report. -/
  | fallow (unit moved aborted : Nat)
  /-- A UNIT_TILL whose unit is in self-test (R655). -/
  | till (unit : Nat)
  /-- A SELF_TEST of the Gleaner waiting for class C searches to end (R218). -/
  | gleanerTest (from_ : Nat)
  /-- A CASCADE_FORM or CASCADE_PROMOTE whose census runs (R574, R600). -/
  | census (promote : Bool)
  deriving DecidableEq, Repr

/-- An outstanding command: its packet from fetch to completion record (R93, R96). -/
structure Cmd where
  ring : Nat
  seq : BitVec 48
  pkt : Bytes
  tFetch : Nat
  work : Work
  flags : Flags
  /-- The certified bound of a class C search (Table 2.4). -/
  bound : BitVec 32
  /-- R688: the field had `perturb` = 1 at admission. -/
  perturbed : Bool
  /-- A status that ends the command instead of success, once its work has ended (R50, R59). -/
  stopped : Option (BitVec 16)
  deriving DecidableEq, Repr

/-! ### Fields and what they hold -/

/-- Table 3.4: a field's configuration. -/
structure FieldCfg where
  certified : Bool
  mapHash : Bool
  granaryOwned : Bool
  ownedSlices : BitVec 32
  sowingUs : Nat
  prioFloor : Nat
  pinPct : Nat
  regRate : Nat
  regBurst : Nat
  workConserving : Bool
  ecc : Bool
  longLines : Bool
  compressedLines : Bool
  programs : Bool
  programCores : Nat
  programSliceUs : Nat
  perturb : Bool
  maxIndexes : Nat
  gddrPages : Nat
  poolPages : Nat
  deriving DecidableEq, Repr

/-- Table 3.4, R135: the defaults, as field 0 has them at reset. -/
def FieldCfg.reset : FieldCfg :=
  ⟨false, false, false, 0, 0, 0, 0, 1000, 4, false, false, false, false, false, 1, 1000, false, 1, 0, 0⟩

/-- R181: an allow-bitmap. -/
structure Bitmap where
  published : Option BitmapImage
  staging : BitmapImage
  deriving DecidableEq, Repr

/-- R502: where a page lies: a GDDR frame (of a half in NEAR mapping) or a pool slot. -/
inductive Loc where
  | near (half frame : Nat)
  | hash (frame : Nat)
  | pool (addr : BitVec 64)
  deriving DecidableEq, Repr

/-- R502, R477, R190, R663: one page of a field. -/
structure Page where
  /-- Page number a >> 21 in the field's index address space. -/
  num : Nat
  /-- Index number, none for a page that belongs to no index. -/
  index : Option Nat
  part : Part
  half : Nat
  /-- Number of the page within its part. -/
  n : Nat
  loc : Loc
  /-- R477: the pool slot that a page brought in keeps. -/
  slot : Option (BitVec 64)
  pinGddr : Bool
  pinGranary : Bool
  changed : Bool
  lastUse : Nat
  damaged : Bool
  /-- R191: a page of the pending store that a mutation obtained where its pin could not be met. -/
  loose : Bool
  deriving DecidableEq, Repr

/-- R406, R410: a loaded field program with its saved tile files (bytes and scale fields, by
run-logical core). -/
structure Program where
  image : Bytes
  /-- R410: the scratch pages. -/
  scratch : Mem
  tiles : FMap Mem
  scales : FMap Mem
  deriving DecidableEq, Repr

/-- A field (a tenant partition). -/
structure Field where
  /-- The configuration in force (R459). -/
  cfg : FieldCfg
  /-- The configuration accepted last, in force from the next planner epoch. -/
  tgt : FieldCfg
  /-- False while a creation waits for its planner epoch. -/
  present : Bool
  /-- A REMOVE waits for its planner epoch. -/
  removing : Bool
  /-- R523: Granary slices the field owns. -/
  slices : BitVec 32
  /-- R511: tokens of the regulator bucket, in thousandths, at the TBK time `tokensAt`. -/
  tokens : Nat
  tokensAt : Nat
  /-- R473: tokens, in thousandths, that the kept rate adds for class C requests alone. -/
  extra : Nat
  /-- R473: old rates that still serve class C requests, each with the planner epoch of its change. -/
  keepRates : List (Nat × Nat)
  /-- R477: the page being brought in, with the pages whose write-back failed for it. -/
  pageIn : Option (Nat × List Nat)
  filters : FMap FilterProg
  bitmaps : FMap Bitmap
  /-- R186: granted pool pages. -/
  pool : List (BitVec 64)
  pages : List Page
  programs : FMap Program
  /-- Table 12.7 group 1. -/
  counters : FMap Nat
  /-- R684: lookups of the field in each Granary slice, counted modulo 256. -/
  lookups : FMap Nat
  deriving DecidableEq, Repr

/-- A field as its creation leaves it, with a configuration. -/
def Field.fresh (c : FieldCfg) : Field :=
  ⟨c, c, true, false, 0, c.regBurst * 1024000, 0, 0, [], none, [], [], [], [], [], [], []⟩

/-! ### Indexes -/

/-- Table 3.5: an index's parameters. -/
structure IParams where
  metric : Nat
  bits : Nat
  group : Nat
  coarse : Nat
  dim : Nat
  m : Nat
  run : Nat
  fpDim : Nat
  fpFmt : Nat
  attrWords : Nat
  allowNd : Bool
  tombPct : Nat
  nlist : Nat
  cascMode : Nat
  replicas : Nat
  maxEntries : Nat
  deriving DecidableEq, Repr

/-- R225: one slot of a list with its entry, from the epoch that appended it to the epoch that
tombstoned it (R246, R287). -/
structure Slot where
  id : BitVec 64
  code : Bytes
  attrs : List (BitVec 32)
  /-- Stored full-precision patterns, empty when `fp_fmt` is 0. -/
  vec : List Nat
  born : Nat
  died : Option Nat
  deriving DecidableEq, Repr

/-- R226: a list image: its slots in chain order, its block numbers, its trigger epoch (0 for the
first image), and its place in the order of swaps and admissions (R261). -/
structure Image where
  slots : List Slot
  blocks : List Nat
  e0 : Nat
  order : Nat
  deriving DecidableEq, Repr

/-- A list: its current image and the older images still kept (R262). -/
structure ListRec where
  image : Image
  olds : List Image
  deriving DecidableEq, Repr

/-- An empty list. -/
def ListRec.empty : ListRec := ⟨⟨[], [], 0, 0⟩, []⟩

/-- One record of a pending mutation, prepared and encoded (R234). -/
structure PendRec where
  id : BitVec 64
  list : Nat
  code : Bytes
  attrs : List (BitVec 32)
  vec : List Nat
  deriving DecidableEq, Repr

/-- R240: a pending mutation, with the records it makes live or the IDs it deletes. -/
structure Mutation where
  ring : Nat
  seq : BitVec 48
  /-- Order of admission on the index. -/
  stamp : Nat
  puts : List PendRec
  dels : List (BitVec 64)
  deriving DecidableEq, Repr

/-- Table 4.1, R251: a superseded version of a record of a list, readable at epochs from `since` to below
`until_`. -/
structure Version where
  list : Nat
  since : Nat
  until_ : Nat
  deriving DecidableEq, Repr

/-- The name of a query: its command and its position in the packet. -/
structure QRef where
  ring : Nat
  seq : BitVec 48
  q : Nat
  deriving DecidableEq, Repr

/-- R190: a pin or an unpin of a scope, newest first in its index; lists from `first` for scope 1. The newest one
that covers a page and names a target decides the page's pin on that target. -/
structure Pin where
  on : Bool
  gddr : Bool
  granary : Bool
  scope : Nat
  first : Nat
  count : Nat
  /-- R193: pages that an unpin leaves pinned until these class C queries complete. -/
  forQueries : Option (List QRef)
  /-- R193: those pages, as (part, half, number). -/
  kept : List (Part × Nat × Nat)
  deriving DecidableEq, Repr

/-- An index. -/
structure Index where
  p : IParams
  active : Bool
  epoch : Nat
  /-- Loaded centroid rows, as patterns of `coarse_fmt`. -/
  centroids : FMap (List Nat)
  /-- Loaded sub-quantisers: 2^bits entries of dim/m FP32 patterns. -/
  codebook : FMap (List (List (BitVec 32)))
  lists : FMap ListRec
  pending : List Mutation
  /-- Mutations and COMMITs admitted so far (the model's own count, R163). -/
  stamp : Nat
  /-- R166: held epochs, one entry per hold. -/
  holds : List Nat
  versions : List Version
  pins : List Pin
  /-- Table 10.11: for each slot, the ordinals of its copies. -/
  placement : List (List Nat)
  /-- R605: fenced copies, as (slot, ordinal). -/
  fenced : List (Nat × Nat)
  /-- R606: fenced copies that are whole again, in service from the next planner epoch. -/
  copied : List (Nat × Nat)
  deriving DecidableEq, Repr

/-- R257: a list waiting for compaction. -/
structure Waiting where
  key : Nat
  list : Nat
  e0 : Nat
  /-- R786: returned for want of memory, passed over until memory is freed. -/
  passedOver : Bool
  deriving DecidableEq, Repr

/-- A compaction in progress on an Evaporator, with the blocks of its new image. -/
structure Compaction where
  key : Nat
  list : Nat
  e0 : Nat
  blocks : List Nat
  /-- Pages that it has read or written so far (R476, R502). -/
  read : List Nat
  deriving DecidableEq, Repr

/-! ### The query path -/

/-- A candidate of a query (R289), with its exact key once re-ranked. -/
structure Cand where
  key : BitVec 32
  id : BitVec 64
  exact : Option (BitVec 32)
  deriving DecidableEq, Repr

/-- R283 to R285: a distance table. -/
structure QTable where
  t32 : List (List (BitVec 32))
  t8 : List (List Nat)
  /-- Exponent of the power of two s. -/
  sExp : Int
  b : BitVec 32
  deriving DecidableEq, Repr

/-- An admitted query (R266), with everything bound at admission (R39). -/
structure Query where
  ref : QRef
  field : Nat
  index : Nat
  cls : Nat
  epoch : Nat
  vec : List (BitVec 32)
  k : Nat
  rerank : Nat
  nprobe : Nat
  t8 : Bool
  radius : Option (BitVec 32)
  sbac : Option Sbac
  ms : Bool
  outFmt : Nat
  filter : Option FilterProg
  bitmapId : Nat
  bitmap : Option BitmapImage
  /-- TBK at admission. -/
  admitted : Nat
  /-- Place in the order of swaps and admissions (R261). -/
  order : Nat
  /-- Slots of a cascade index that this device itself scans; none stands for all. -/
  ownSlots : Option (List Nat)
  /-- R460: fetch time plus deadline, in ns. -/
  key : Nat
  core : Option Nat
  cryst : Nat
  sieve : Nat
  assayer : Nat
  window : Option Nat
  coulterDone : Bool
  lists : List Nat
  /-- Pages that the narrow reads of its re-rank have read so far (R450, R478). -/
  read : List Nat
  table : Option QTable
  /-- Lists whose pass is still to come. -/
  todo : List Nat
  cands : List Cand
  qualified : Nat
  reranked : Bool
  merged : Option (List Cand)
  /-- Slots of a cascade index whose candidates are still to come, each with the copy asked (R585). -/
  parts : List (Nat × Nat)
  flags : Flags
  deriving DecidableEq, Repr

/-- R275: a list pass of a closed window. -/
structure ListPass where
  list : Nat
  e0 : Nat
  visitors : List QRef
  key : Option Nat
  started : Bool
  /-- Pages that its stream has read so far (R477, R478). -/
  read : List Nat
  deriving DecidableEq, Repr

/-- R272: a sowing window. -/
structure Window where
  field : Nat
  index : Nat
  classX : Bool
  openAt : Nat
  sowingUs : Nat
  queries : List QRef
  closed : Bool
  formed : Bool
  passes : List ListPass
  /-- R467: the latest end of the coarse and table stages that the planner expects of its queries. -/
  tSel : Nat
  deriving DecidableEq, Repr

/-- R460: a ledger entry of an admitted class C query: its works and the worst-case finish recorded for each resource;
times in ns. -/
structure LedgerEntry where
  ref : QRef
  field : Nat
  key : Nat
  tFetch : Nat
  bound : Nat
  core : Nat
  cpuWork : Nat
  memWork : Nat
  sieve : Nat
  sieveWork : Nat
  assayer : Option Nat
  assayWork : Nat
  start : Nat
  tail : Nat
  coreEnd : Nat
  memEnd : Nat
  sieveEnd : Nat
  assayEnd : Nat
  finish : Nat
  deriving DecidableEq, Repr

/-! ### The furrow grid -/

/-- R359: a message of a field program. -/
structure Message where
  fromCore : Nat
  fromThread : Nat
  toCore : Nat
  toThread : Nat
  tag : BitVec 8
  payload : Bytes
  deriving DecidableEq, Repr

/-- What a thread is doing. -/
inductive ThreadStatus where
  | idle
  | running
  | halted
  | trapped (cause : Nat) (pc : BitVec 12)
  deriving DecidableEq, Repr

/-- Table 7.1: one repeat level. -/
structure Level where
  count : BitVec 16
  start : BitVec 12
  last : BitVec 12
  /-- R375: entries the block holds in the loop buffer, 0 when it runs from instruction memory. -/
  buffered : Nat
  deriving DecidableEq, Repr

/-- R376: a return-stack entry. -/
structure RetEntry where
  addr : BitVec 12
  levels : Nat
  deriving DecidableEq, Repr

/-- Table 7.1: one lane of a fixed-point accumulator. -/
structure FixLane where
  v : BitVec 40
  sat : Bool
  deriving DecidableEq, Repr

/-- Table 7.1: a hardware thread. Registers 0 to 15 of `r` are D0–D15, 16 to 23 A0–A7, 24 to 31
N0–N7. -/
structure Thread where
  r : List (BitVec 64)
  v : List (BitVec 512)
  vacc : List (List FixLane)
  pc : BitVec 12
  levels : List Level
  cc : BitVec 4
  flags : Flags
  rs : List RetEntry
  recvQ : List Message
  status : ThreadStatus
  deriving DecidableEq, Repr

/-- R364: every register zero. -/
def Thread.reset : Thread :=
  ⟨List.replicate 32 0, List.replicate 16 0, List.replicate 4 (List.replicate 16 ⟨0, false⟩),
    0, [], 0, 0, [], [], .idle⟩

/-- A query's distance table in a core's table area (R267). -/
structure Resident where
  ref : QRef
  bytes : Nat
  classC : Bool
  deriving DecidableEq, Repr

/-- State of one furrow core (R363). -/
structure Core where
  imem : FMap (BitVec 32)
  mem : Mem
  tile : Mem
  scale : Mem
  consts : List (BitVec 32)
  twin : Bool
  group : Nat
  /-- Lines of the read cache, newest first: line address and bytes. -/
  cache : List (Nat × Bytes)
  /-- R381: stream slots 0 to 5, each with its stream number. -/
  slots : FMap Nat
  sendBuf : List Message
  threads : FMap Thread
  /-- R414: the run that holds the core, and its run-logical number. -/
  run : Option Nat
  logical : Nat
  /-- First trap of the core: thread, cause, pc (Table 7.8). -/
  firstTrap : Option (Nat × Nat × BitVec 12)
  tables : List Resident
  deriving DecidableEq, Repr

/-- A core with cleared memories. -/
def Core.reset : Core := ⟨[], [], [], [], List.replicate 8 0, false, 4, [], [], [], [], none, 0, none, []⟩

/-- Where a program run stands. -/
inductive RunPhase where
  | waiting
  | reserved
  | running
  | ended (exit : Nat)
  deriving DecidableEq, Repr

/-- R412 to R428: a program run. -/
structure Run where
  ring : Nat
  seq : BitVec 48
  field : Nat
  prog : Nat
  nCores : Nat
  cores : List Nat
  phase : RunPhase
  args : Bytes
  sliceUs : Nat
  tStart : Nat
  paged : Bool
  deriving DecidableEq, Repr

/-- R430: an address program: X0–X3, loop counters, open levels (level, word after its DO) and the next
instruction. -/
structure AddrProg where
  x : List (BitVec 48)
  loops : List (BitVec 16)
  openLevels : List (Nat × Nat)
  pc : Nat
  /-- Element addresses emitted, oldest first, as (address, elements). -/
  emitted : List (Nat × Nat)
  done : Bool
  /-- R434: it ended at a misaligned address. -/
  misaligned : Bool
  /-- Instructions executed so far (the model's own count). -/
  steps : Nat
  deriving DecidableEq, Repr

/-- An address program at its start. -/
def AddrProg.reset : AddrProg := ⟨[0, 0, 0, 0], [0, 0, 0, 0], [], 0, [], false, false, 0⟩

/-- R435, R476: where a stream stands. -/
inductive StreamPhase where
  | running
  | halted (page : Nat)
  /-- R477, R478: a read of the device's own work goes on at a page that was brought in for it. -/
  | resumed (page : Nat)
  | ended (status : Nat)
  deriving DecidableEq, Repr

/-- Who reads or writes through a stream. -/
inductive Reader where
  /-- A field program that started it with SSTART. -/
  | program
  /-- A list pass: window, list and trigger epoch of the image. -/
  | pass (window list e0 : Nat)
  /-- The narrow reads of a query's re-rank (R450). -/
  | rerank (ref : QRef)
  /-- A command of a ring that reads or writes pages itself. -/
  | cmd (ring : Nat) (seq : BitVec 48)
  /-- A compaction on an Evaporator. -/
  | evaporator (n : Nat)
  /-- A part of a search that this device scans for the lead (R585). -/
  | part (n : Nat)
  /-- The records of an index that this device applies as a copy (R584). -/
  | copy (key : Nat)
  deriving DecidableEq, Repr

/-- R429: a stream with its descriptor, its position and its context (Table 8.7). -/
structure Stream where
  desc : Bytes
  field : Nat
  run : Option Nat
  core : Nat
  thread : Nat
  slot : Nat
  reader : Reader
  prog : AddrProg
  /-- Oldest unconsumed tile. -/
  tile : Nat
  requested : List Nat
  delivered : List Nat
  /-- R442: bytes fetched for the stream and not delivered yet. -/
  ahead : Nat
  /-- R425: write tiles issued and not yet written, each with its bytes by scratch address. -/
  issued : FMap (List (Nat × Bytes))
  phase : StreamPhase
  context : Bytes
  faultTime : Nat
  deriving DecidableEq, Repr

/-! ### The memory system -/

/-- A request waiting at a memory channel. -/
structure Request where
  /-- The requester (R449). -/
  unit : Nat
  field : Nat
  stream : Nat
  /-- Tile of the stream that asks. -/
  tile : Nat
  cls : Nat
  narrow : Bool
  write : Bool
  /-- Channel line j. -/
  line : Nat
  deadline : Option Nat
  deriving DecidableEq, Repr

/-- A level 1 operation (R453, R491). -/
inductive Upkeep where
  | refresh
  | training
  | patrol
  deriving DecidableEq, Repr

/-- A memory channel. -/
structure Channel where
  queue : List Request
  upkeep : List Upkeep
  /-- R514: a level 1 operation has gone before the level 2 requests that wait. -/
  upkept : Bool
  retraining : Bool
  /-- R492: the refresh interval is halved. -/
  hot : Bool
  deriving DecidableEq, Repr

/-- A channel with nothing waiting. -/
def Channel.reset : Channel := ⟨[], [], false, false, false⟩

/-- Table 9.5: the state of a Granary line that is not in state I. -/
inductive Dir where
  | U
  | S
  | W
  deriving DecidableEq, Repr

/-- A Granary line (R516). -/
structure Line where
  slice : Nat
  channel : Nat
  j : Nat
  field : Nat
  dir : Dir
  sharers : List Nat
  /-- In state W: the scratch write to apply (program, address, bytes), or none for an eviction. -/
  pend : Option (Nat × Nat × Bytes)
  dirty : Bool
  pinned : Bool
  /-- Table 9.4 format code. -/
  fmt : Nat
  /-- R527: fetched only as a long-line companion. -/
  companion : Bool
  deriving DecidableEq, Repr

/-- R447: a handle of a buffer, with the candidates that the buffer holds. -/
structure Handle where
  word : BitVec 32
  cands : List Cand
  deriving DecidableEq, Repr

/-- R445 to R447: a handle queue that the Steward has assigned: producer, consumer and field, its handles oldest first,
and the handle whose buffer the consumer holds. -/
structure HandleQueue where
  producer : Nat
  consumer : Nat
  field : Nat
  handles : List Handle
  held : Option Handle
  deriving DecidableEq, Repr

/-- R351: one sum of a Coulter's output tile: its wide total, its current run sum and that run's scale level. -/
structure CoulterCell where
  total : Fv
  run : Fv
  level : Nat
  deriving DecidableEq, Repr

/-- R351: a Coulter's output tile in progress: up to 64 queries by up to 64 centroids, query by query. -/
structure CoulterTile where
  queries : List QRef
  lists : List Nat
  cells : List CoulterCell
  deriving DecidableEq, Repr

/-- R345, R346: what the combining core has of a run that it has not added yet: its record, or its terms so far at a scale level, with
the passes discarded before. -/
inductive RunPart where
  | whole (v : BitVec 32) (level : Nat) (fl : Flags)
  | terms (level : Nat) (got : FMap (BitVec 32 × Flags)) (replays : Nat)
  deriving DecidableEq, Repr

/-- A mode D sum being combined (R344 to R347): its total, flags, runs added so far and replays, the contributor of each part that
has come, and the runs that wait for their turn. -/
structure Combine where
  shape : SplitShape
  w : Fv
  fl : Flags
  runs : Nat
  replays : Nat
  /-- Run and contributor of every part received (R344). -/
  owners : List (Nat × Nat)
  waiting : FMap RunPart
  deriving DecidableEq, Repr

/-- R585: a part of a search that this device scans for the lead, with what it has read so far (R450, R478). -/
structure PartJob where
  msg : SearchPartMsg
  query : Query
  read : List Nat
  deriving DecidableEq, Repr

/-! ### Units, cascade and links -/

/-- A unit's UNIT_STATUS state (03, Units), how it is being fallowed, and the state a self-test
returns it to. -/
structure UnitRec where
  state : Nat
  force : Bool
  byDevice : Bool
  before : Nat
  /-- R655: a passed till enters service at the next planner epoch. -/
  entering : Bool
  /-- R650: a draining unit takes new work until the next planner epoch. -/
  leaving : Bool
  deriving DecidableEq, Repr

/-- Table 10.2: a port's training state, or a link that is down (R562). -/
inductive PortState where
  | off
  | detect
  | lock
  | equalise
  | align
  | negotiate
  | active
  deriving DecidableEq, Repr

/-- A DATA flit as the transmitter keeps it (R558): virtual channel, half, payload. -/
structure TxFlit where
  seq : BitVec 12
  vc : Nat
  half : Nat
  payload : Bytes
  sent : Bool
  resends : Nat
  deriving DecidableEq, Repr

/-- An HXL port. -/
structure Port where
  state : PortState
  since : Nat
  /-- Lanes in use, numbered on the transmitting side (R552). -/
  lanes : BitVec 8
  /-- R549: receive lane n carries transmit lane 7 − n. -/
  reversed : Bool
  /-- R549: the receive lanes whose polarity is inverted back. -/
  inverted : BitVec 8
  width : Nat
  partner : BitVec 64
  partnerPort : Nat
  /-- A link that was up is training again (R561, R562), since when. -/
  retraining : Bool
  retrainAt : Nat
  txSeq : BitVec 12
  /-- Messages' flits waiting for transmission, by VC order of arrival. -/
  waiting : List TxFlit
  replay : List TxFlit
  ackProgress : Nat
  rxNext : BitVec 12
  nakSent : Bool
  nakDue : Bool
  /-- Credits held, key 2·vc + half. -/
  credits : FMap Nat
  /-- Credits to return, key 2·vc + half. -/
  owed : FMap Nat
  /-- R564: DATA flits sent since the last of VC 2. -/
  sinceVc2 : Nat
  received : List TxFlit
  deriving DecidableEq, Repr

/-- Table 10.4: receive buffer of a VC half, in flits. -/
def vcHalf (vc : Nat) : Nat := if vc = 0 then 16 else if vc = 1 then 112 else 128

/-- Credits of a link just brought up. -/
def fullCredits : FMap Nat := [(0, vcHalf 0), (1, vcHalf 0), (2, vcHalf 1), (3, vcHalf 1), (4, vcHalf 2), (5, vcHalf 2)]

/-- A port after reset. -/
def Port.reset : Port :=
  ⟨.off, 0, 0, false, 0, 0, 0, 0, false, 0, 0, [], [], 0, 0, false, false, fullCredits, [], 0, []⟩

/-- One record of the census reply (Table 10.10). -/
structure CensusRec where
  serial : BitVec 64
  status : Nat
  reason : Nat
  role : Nat
  grade : Nat
  fwVersion : BitVec 32
  gddrMib : Nat
  ports : BitVec 8
  hops : Nat
  deriving DecidableEq, Repr

/-- The cascade as this device sees it. -/
structure Cascade where
  /-- 0 not formed, 1 forming, 2 formed, 3 DEGRADED. -/
  state : Nat
  topology : Nat
  torusX : Nat
  torusY : Nat
  expected : Nat
  serials : List (BitVec 64)
  treeRouting : Bool
  tCensus : Nat
  records : FMap CensusRec
  ordinal : Nat
  leadOrdinal : Nat
  /-- Lead serial whose probe this device answered (R574), for a follower. -/
  probed : Option (BitVec 64)
  lastHeartbeat : Nat
  promoted : Bool
  /-- R596: what the standby lead has recorded. -/
  standby : List StandbyItem
  /-- TB_LEAD_OFFSET (Table 13.10). -/
  leadOffset : BitVec 64
  /-- R476, R584: pages that the COMMIT of a copy has reached so far, by index. -/
  commitPages : FMap (List Nat)
  deriving DecidableEq, Repr

/-- No cascade. -/
def Cascade.reset : Cascade := ⟨0, 0, 0, 0, 0, [], false, 0, [], 0, 0, none, 0, false, [], 0, []⟩

/-! ### Trust -/

/-- The running firmware image's header values. -/
structure Firmware where
  slot : Nat
  version : BitVec 32
  svn : BitVec 32
  deriving DecidableEq, Repr

/-- SPDM connection state of one transport (R632). -/
structure Spdm where
  versioned : Bool
  capable : Bool
  negotiated : Bool
  signed : Nat
  deriving DecidableEq, Repr

/-- Boot, measurement, stakes and firmware. -/
structure Trust where
  mr : List Bytes
  mrCount : List Nat
  /-- Programmed copies: key stake · 256 + slot · 2 + copy. -/
  stakes : FMap Bytes
  /-- R638: value at the last cold or PERST_N reset, by stake. -/
  effective : FMap (BitVec 64)
  /-- Table 13.7, once resolved. -/
  resolved : Bool
  /-- Integrity events raised since boot, as (stake, slot) (R646). -/
  integrity : List (Nat × Nat)
  stakeGen : BitVec 64
  measGen : BitVec 64
  flash : Mem
  bootCode : Nat
  stepA : Nat
  stepB : Nat
  fw : Option Firmware
  /-- Bytes staged in each slot since boot (Table 3.1). -/
  staged : FMap Nat
  /-- R616 step 6: the private attestation key. -/
  attKey : Nat
  /-- R616 step 6, Table 11.7: the attestation certificate, in Steward SRAM. -/
  attCert : Bytes
  spdmMctp : Spdm
  spdmDoe : Spdm
  deriving DecidableEq, Repr

/-- A transport without a connection. -/
def Spdm.reset : Spdm := ⟨false, false, false, 0⟩

/-- Trust state at reset, over the non-volatile stake store and flash. -/
def Trust.reset (stakes : FMap Bytes) (flash : Mem) : Trust :=
  ⟨List.replicate 8 (zeros 48), List.replicate 8 0, stakes, [], false, [], 0, 0, flash, 1, 0, 0, none,
    [], 0, [], Spdm.reset, Spdm.reset⟩

/-! ### Observation -/

/-- Table 12.4: an event-log entry. -/
structure LogEntry where
  seq : Nat
  time : Nat
  code : Nat
  field : Nat
  severity : Nat
  unit : Nat
  again : Nat
  detail : Bytes
  deriving DecidableEq, Repr

/-- R667, R668: the event log, newest entry first. -/
structure EventLog where
  entries : List LogEntry
  nextSeq : Nat
  lost : Nat
  deriving DecidableEq, Repr

/-- R671 to R674: the trace buffer, newest record first. -/
structure Trace where
  running : Bool
  wrap : Bool
  sources : BitVec 16
  records : List Bytes
  dropped : Nat
  /-- The µs counted and the records accepted in it. -/
  slotUs : Nat
  slotCount : Nat
  deriving DecidableEq, Repr

/-- Table 13.9: a perturbation setting. -/
structure Setting where
  control : Nat
  field : Nat
  target : BitVec 32
  value : BitVec 32
  index : Nat
  /-- R685: control 8 still to fire. -/
  armed : Bool
  deriving DecidableEq, Repr

/-- Perturbation settings and the window of Table 13.8. -/
structure Pert where
  slots : FMap Setting
  /-- R640: every control ends at the next planner epoch. -/
  clearDue : Bool
  req : BitVec 32
  target : BitVec 32
  value : BitVec 32
  busy : Bool
  active : Nat
  status : BitVec 16
  done : BitVec 32
  deriving DecidableEq, Repr

/-- Table 13.5: per-function registers, with its MSI-X table, time-base latches and power state. -/
structure FnRegs where
  cause : BitVec 32
  enable : BitVec 32
  /-- MSI-X table entries 0–8 as written: address, data, vector control. -/
  msix : FMap (BitVec 128)
  pba : BitVec 64
  tbHi : BitVec 32
  tbCapture : BitVec 64
  d3hot : Bool
  deriving DecidableEq, Repr

/-- Per-function registers at reset; `always` are the enable bits that always read 1 (R710). -/
def FnRegs.reset (always : BitVec 32) : FnRegs := ⟨0, always, [], 0, 0, 0, false⟩

/-- Table 13.4 and the warm restart. -/
structure Glob where
  fatal : Bool
  fatalCause : Nat
  ready : Bool
  scratch : BitVec 32
  tj : BitVec 16
  straps : Straps
  restarting : Bool
  restarts : Nat
  lastRestart : Option Nat
  deriving DecidableEq, Repr

/-- Table 13.10. -/
structure TimeBase where
  src : Bool
  refPresent : Bool
  locked : Bool
  deriving DecidableEq, Repr

/-- States of the IEEE 1149.1 TAP controller (R778). -/
inductive TapState where
  | testLogicReset
  | runTestIdle
  | selectDr
  | captureDr
  | shiftDr
  | exit1Dr
  | pauseDr
  | exit2Dr
  | updateDr
  | selectIr
  | captureIr
  | shiftIr
  | exit1Ir
  | pauseIr
  | exit2Ir
  | updateIr
  deriving DecidableEq, Repr

/-- Pins, power and the slow interfaces. -/
structure Board where
  powered : Bool
  /-- VDD_HXL is on (R753). -/
  hxlRail : Bool
  /-- VDD_PCIE is on and PE_REFCLK runs (R753, R770). -/
  pcie : Bool
  sysResetN : Bool
  perstN : Bool
  thermtripN : Bool
  alertN : Bool
  alertHot : Bool
  vidDriven : Bool
  vid : Nat
  vidLast : Nat
  /-- GDDR, QSPI and link outputs enabled (Table 14.3). -/
  qspiOn : Bool
  gddrOn : Bool
  clocksStopped : Bool
  smbusAddr : BitVec 7
  i3cAddr : Option (BitVec 7)
  sbResets : Nat
  tap : TapState
  tapIr : Nat
  tapShift : List Bool
  tapInstr : Nat
  tapBoundary : List Bool
  tdo : Option Bool
  deriving DecidableEq, Repr

/-- What the device sends, newest first in `State.out`: the model's record of its outputs. -/
inductive Out where
  /-- A read of host memory of a function: a packet slot or a parameter block (R72, R84, R85). -/
  | hostRead (fn : Nat) (addr : BitVec 64) (len : Nat)
  /-- A write to host memory of a function. -/
  | hostWrite (fn : Nat) (addr : BitVec 64) (bytes : Bytes)
  /-- What a register read with a side effect returned to a function (R725). -/
  | readData (fn : Nat) (value : BitVec 32)
  /-- An MSI-X message of a function's vector. -/
  | msix (fn vector : Nat)
  /-- An uncorrectable internal error through AER (R665). -/
  | aer
  /-- A flit on an HXL port. -/
  | flit (port : Nat) (bytes : Bytes)
  /-- A training beacon on an HXL port. -/
  | beacon (port : Nat)
  /-- A cascade control message to a member. -/
  | message (dst : Nat) (kind : Nat) (bytes : Bytes)
  /-- A command to the boot flash, over an address and a length, repeated by sector or page where it takes one (R765, R772). -/
  | qspi (command addr len : Nat)
  /-- An SPDM response on a transport. -/
  | spdm (transport : Transport) (bytes : Bytes)
  /-- Pool pages returned to a field's host (R144, R758). -/
  | poolReturned (field : Nat) (pages : List (BitVec 64))
  deriving DecidableEq, Repr

/-! ### The state of the block -/

/-- R743: a crossing queue: the writer's and the reader's pointer, and the entries between them, each with the time at which the reader
sees it. -/
structure Crossing where
  written : BitVec 5
  read : BitVec 5
  entries : List (Option Nat × Bytes)
  deriving DecidableEq, Repr

/-- The state of the block. -/
structure State where
  /-- Commands waiting, first in, first out. -/
  pending : List Instr
  out : List Out
  /-- Free values used so far (the model's own counter). -/
  fresh : Nat
  /-- TBK in ns (R727). -/
  tbk : Nat
  rings : FMap Ring
  skip : FMap Nat
  lastServed : FMap Nat
  cmds : List Cmd
  fields : FMap Field
  indexes : FMap Index
  compactQueue : List Waiting
  evaporators : FMap Compaction
  queries : List Query
  windows : FMap Window
  nextWindow : Nat
  /-- Swaps and admissions of searches so far (the model's own count, R261). -/
  order : Nat
  ledger : List LedgerEntry
  cores : FMap Core
  messages : List Message
  runs : FMap Run
  nextRun : Nat
  streams : FMap Stream
  nextStream : Nat
  channels : FMap Channel
  /-- R445: the handle queues that the Steward has assigned; the others are empty. -/
  handleQueues : FMap HandleQueue
  /-- R743: the crossing queues that something has crossed, by the numbers of Table 14.5. -/
  crossings : FMap Crossing
  /-- R351: the Coulters' output tiles. -/
  coulters : FMap CoulterTile
  /-- Trained data rate in Gb/s per pin, 0 before training (R488). -/
  memRate : Nat
  /-- Capacity of one memory channel in MiB, read in training. -/
  channelMib : Nat
  granary : List Line
  /-- R519, R520: ownership slicing in force. -/
  ownership : Bool
  /-- R499: uncorrectable chunks, as (field, page, chunk). -/
  badChunks : List (Nat × Nat × Nat)
  /-- R348: the locations of mode A sums with the flags their adds raised. -/
  modeA : FMap (BitVec 32 × Flags)
  modeD : FMap Combine
  /-- R585: parts of searches that this device scans for the lead, by tag. -/
  served : FMap PartJob
  units : FMap UnitRec
  ports : FMap Port
  casc : Cascade
  trust : Trust
  log : EventLog
  trace : Trace
  /-- Table 12.7 groups 0, 2, 3 and 4: key group · 1024 + position. -/
  counters : FMap Nat
  pert : Pert
  glob : Glob
  fns : FMap FnRegs
  time : TimeBase
  board : Board
  deriving DecidableEq, Repr

/-- Straps all low until sampled. -/
def Straps.low : Straps := ⟨false, false, false, false, 0⟩

/-- The board while the device is powered and held in reset (Table 14.3, log 6). -/
def Board.inReset : Board :=
  ⟨true, true, true, false, false, true, true, false, false, 10, 0, false, false, false, 0x4A#7, none, 0,
    .testLogicReset, 0, [], 0, [], none⟩

/-- The device held in cold reset over a stake store and a flash: every register at its reset value. -/
def State.inReset (stakes : FMap Bytes) (flash : Mem) (b : Board) : State :=
  { pending := [], out := [], fresh := 0, tbk := 0, rings := [], skip := [], lastServed := [], cmds := [],
    fields := [(0, Field.fresh FieldCfg.reset)], indexes := [], compactQueue := [], evaporators := [],
    queries := [], windows := [], nextWindow := 0, order := 0, ledger := [], cores := [], messages := [], runs := [],
    nextRun := 0, streams := [], nextStream := 0, channels := [], handleQueues := [], crossings := [], coulters := [], memRate := 0, channelMib := 0,
    granary := [], ownership := false, badChunks := [], modeA := [], modeD := [], served := [], units := [], ports := [],
    casc := Cascade.reset, trust := Trust.reset stakes flash, log := ⟨[], 0, 0⟩,
    trace := ⟨false, false, 0, [], 0, 0, 0⟩, counters := [],
    pert := ⟨[], false, 0, 0, 0, false, 0, 0, 0⟩,
    glob := ⟨false, 0, false, 0, 0, Straps.low, false, 0, none⟩, fns := [],
    time := ⟨false, false, false⟩, board := b }

/-- The machine right after reset: powered, in reset, every register at its reset value, the
non-volatile stake store blank and the flash erased (log 6, log 7). -/
def State.reset : State := State.inReset [] [] Board.inReset

/-- Why the model stops. -/
inductive Fault where
  /-- A command names a ring, function, unit, core, thread, port or channel that the device does not
  have. Raised by the meanings of commands with such a number; safe. -/
  | noSuchUnit
  /-- A tile instruction of a furrow core names a shape code that Table 6.8 reserves. Raised by TLD, TST, TACC,
  TFOLD, TSTS and TCLR; safe. -/
  | reservedCode
  deriving DecidableEq, Repr

/-- Why a command has no meaning. -/
inductive Refusal where
  /-- Not modelled yet; only in Dispatch.lean. -/
  | notModelled (mnemonic : String)
  /-- A TAP step performs debug access beyond boundary scan, which the manual names and does not
  describe (R629). Raised by TAP_STEP; safe. -/
  | debugAccess
  deriving DecidableEq, Repr

/-- The outcome of a command. -/
abbrev Result := Host.Outcome State Fault Refusal

end Sys2Proof.Machine
end

