-- ==== Sys2Proof/Machine/Ops.lean ====
section
/-! DEFINITION. The named operations of the block over its state: the families of like things, what the
device sends, counters, event log, trace buffer, interrupts and measurement registers. -/

namespace Sys2Proof.Machine

/-! ### The families -/

/-- Ring r, at its reset values where nothing was written (Table 2.1). -/
def State.ring (s : State) (r : Nat) : Ring := FMap.getD s.rings r Ring.reset
/-- Ring r replaced. -/
def State.setRing (s : State) (r : Nat) (x : Ring) : State := { s with rings := FMap.set s.rings r x }
/-- Field f, if it exists or waits for its creation. -/
def State.field? (s : State) (f : Nat) : Option Field := FMap.get? s.fields f
/-- Field f replaced. -/
def State.setField (s : State) (f : Nat) (x : Field) : State := { s with fields := FMap.set s.fields f x }
/-- Field f changed by g where it exists. -/
def State.modField (s : State) (f : Nat) (g : Field → Field) : State :=
  match s.field? f with
  | none => s
  | some x => s.setField f (g x)
/-- The configuration in force in field f; that of Table 3.4 where there is no field. -/
def State.cfg (s : State) (f : Nat) : FieldCfg :=
  match s.field? f with
  | none => FieldCfg.reset
  | some x => x.cfg
/-- FIELDS `present` (Table 13.4): field f exists. -/
def State.fieldExists (s : State) (f : Nat) : Bool :=
  match s.field? f with
  | none => false
  | some x => x.present
/-- Key of index i of field f. -/
def indexKey (f i : Nat) : Nat := f * 64 + i
/-- Index i of field f. -/
def State.index? (s : State) (f i : Nat) : Option Index := FMap.get? s.indexes (indexKey f i)
/-- Index replaced, by key. -/
def State.setIndex (s : State) (key : Nat) (x : Index) : State := { s with indexes := FMap.set s.indexes key x }
/-- Index changed by g where it exists. -/
def State.modIndex (s : State) (key : Nat) (g : Index → Index) : State :=
  match FMap.get? s.indexes key with
  | none => s
  | some x => s.setIndex key (g x)
/-- Numbers of the indexes of field f. -/
def State.indexesOf (s : State) (f : Nat) : List Nat :=
  (s.indexes.filter (fun p => p.1 / 64 == f)).map (fun p => p.1)
/-- Core c, with cleared memories where nothing was written. -/
def State.core (s : State) (c : Nat) : Core := FMap.getD s.cores c Core.reset
/-- Core c replaced. -/
def State.setCore (s : State) (c : Nat) (x : Core) : State := { s with cores := FMap.set s.cores c x }
/-- Thread t of a core. -/
def Core.thread (c : Core) (t : Nat) : Thread := FMap.getD c.threads t Thread.reset
/-- Thread t of a core replaced. -/
def Core.setThread (c : Core) (t : Nat) (x : Thread) : Core := { c with threads := FMap.set c.threads t x }
/-- Thread t of core c replaced. -/
def State.setThread (s : State) (c t : Nat) (x : Thread) : State := s.setCore c ((s.core c).setThread t x)
/-- Memory channel c. -/
def State.channel (s : State) (c : Nat) : Channel := FMap.getD s.channels c Channel.reset
/-- Memory channel c replaced. -/
def State.setChannel (s : State) (c : Nat) (x : Channel) : State := { s with channels := FMap.set s.channels c x }
/-- The key of a line in a read cache: its channel and channel line. -/
def lineKey (c j : Nat) : Nat := c * 2 ^ 32 + j
/-- The Granary's lines replaced; a read cache holds only lines that the Granary also holds (R532). -/
def State.withLines (s : State) (ls : List Line) : State :=
  { s with
    granary := ls
    cores := FMap.mapVals s.cores (fun _ c =>
      { c with cache := c.cache.filter (fun e => ls.any (fun l => lineKey l.channel l.j == e.1)) }) }
/-- R517: a dirty line waits at its channel to be written back. -/
def State.writeBack (s : State) (l : Line) : State :=
  if l.dirty then
    let c := s.channel l.channel
    s.setChannel l.channel { c with queue := c.queue ++ [⟨9 * 256 + l.slice, l.field, 0, 0, 2, false, true, l.j, none⟩] }
  else s
/-- R533: the scratch write that a line in state W holds back, applied. -/
def State.applyPend (s : State) (l : Line) : State :=
  match l.pend with
  | none => s
  | some (prog, a, b) => s.modField l.field (fun x => match FMap.get? x.programs prog with
    | none => x
    | some p => { x with programs := FMap.set x.programs prog { p with scratch := Mem.write 0 p.scratch a b } })
/-- R527: a long-line companion that no consumer received counts in OVERFETCH as it goes. -/
def State.overfetch (s : State) (l : Line) : State :=
  if l.companion then s.modField l.field (fun x =>
    { x with counters := FMap.set x.counters 16 ((FMap.getD x.counters 16 0 + 256) % 2 ^ 64) }) else s
/-- Lines that p names leave the Granary: held-back writes are applied and, where `back`, dirty lines are written
back. -/
def State.retire (s : State) (back : Bool) (p : Line → Bool) : State :=
  let t := (s.granary.filter p).foldl (fun t l => ((if back then t.writeBack l else t).applyPend l).overfetch l) s
  t.withLines (t.granary.filter (fun l => !p l))
/-- HXL port p. -/
def State.port (s : State) (p : Nat) : Port := FMap.getD s.ports p Port.reset
/-- HXL port p replaced. -/
def State.setPort (s : State) (p : Nat) (x : Port) : State := { s with ports := FMap.set s.ports p x }
/-- R710: the event bits that are always enabled. -/
def alwaysEnabled (fn : Nat) : BitVec 32 := if fn = 0 then 0x0000_0101#32 else 0x0000_0001#32
/-- Registers of function fn. -/
def State.fn (s : State) (fn : Nat) : FnRegs := FMap.getD s.fns fn (FnRegs.reset (alwaysEnabled fn))
/-- Registers of function fn replaced. -/
def State.setFn (s : State) (fn : Nat) (x : FnRegs) : State := { s with fns := FMap.set s.fns fn x }
/-- Stream n replaced. -/
def State.setStream (s : State) (n : Nat) (x : Stream) : State := { s with streams := FMap.set s.streams n x }
/-- Run n replaced. -/
def State.setRun (s : State) (n : Nat) (x : Run) : State := { s with runs := FMap.set s.runs n x }
/-- Window n replaced. -/
def State.setWindow (s : State) (n : Nat) (x : Window) : State := { s with windows := FMap.set s.windows n x }
/-- The cascade's state replaced. -/
def State.setCasc (s : State) (x : Cascade) : State := { s with casc := x }
/-- Boot, measurement and stake state replaced. -/
def State.setTrust (s : State) (x : Trust) : State := { s with trust := x }
/-- Global control and status replaced. -/
def State.setGlob (s : State) (x : Glob) : State := { s with glob := x }
/-- Pins and board state replaced. -/
def State.setBoard (s : State) (x : Board) : State := { s with board := x }
/-- The outstanding commands replaced. -/
def State.setCmds (s : State) (x : List Cmd) : State := { s with cmds := x }
/-- The admitted queries replaced. -/
def State.setQueries (s : State) (x : List Query) : State := { s with queries := x }
/-- The next free value taken: the counter advances (log 10). -/
def State.takeFree (s : State) : State := { s with fresh := s.fresh + 1 }
/-- TBK brought forward to t, never back (R727, log 5). -/
def State.advance (s : State) (t : Nat) : State := { s with tbk := max s.tbk t }

/-! ### Numbers of rings, functions and units -/

/-- R71: the admin ring. -/
def adminRing : Nat := 128
/-- R69, R70: the function whose host memory and vectors a ring uses; it is also the ring's field. -/
def ringFn (r : Nat) : Nat := if r = adminRing then 0 else r / 8
/-- The field that logs and traces name for a ring: 0xFF for the admin ring. -/
def ringField (r : Nat) : Nat := if r = adminRing then 0xFF else r / 8
/-- Entries N of a ring (R65). -/
def Ring.n (r : Ring) : Nat := 2 ^ r.log2.toNat
/-- Key and log name of a unit: unit_type · 256 + instance. -/
def unitKey (ty n : Nat) : Nat := ty * 256 + n
/-- Table 3.7: instances of a unit type. -/
def unitCount (ty : Nat) : Nat :=
  match ty with
  | 0 => 128 | 1 => 2 | 2 => 8 | 3 => 4 | 4 => 4 | 5 => 4 | 6 => 2 | 7 => 2 | 8 => 1 | 9 => 32 | 10 => 8
  | 11 => 4 | 12 => 128 | _ => 0
/-- Table 3.7: UNIT_STATUS offset of instance 0. -/
def unitOffset (ty : Nat) : Nat :=
  match ty with
  | 0 => 0 | 1 => 128 | 2 => 130 | 3 => 138 | 4 => 142 | 5 => 146 | 6 => 150 | 7 => 152 | 8 => 154 | 9 => 160
  | 10 => 192 | 11 => 200 | _ => 256

/-- The state a unit has until something changes it: in service, but for a cascade member, which is
absent until a census places it (log 27). -/
def unitDefault (ty : Nat) : UnitRec :=
  if ty = 12 then ⟨5, false, false, 5, false, false⟩ else ⟨0, false, false, 0, false, false⟩
/-- The record of a unit. -/
def State.unit (s : State) (ty n : Nat) : UnitRec := FMap.getD s.units (unitKey ty n) (unitDefault ty)
/-- UNIT_STATUS state of a unit (03, Units). -/
def State.unitState (s : State) (ty n : Nat) : Nat := (s.unit ty n).state
/-- The record of a unit replaced. -/
def State.setUnit (s : State) (ty n : Nat) (u : UnitRec) : State :=
  { s with units := FMap.set s.units (unitKey ty n) u }
/-- R650: work is placed on the unit: it is in service, or drains since the present planner epoch. -/
def State.placeable (s : State) (ty n : Nat) : Bool := s.unitState ty n == 0 || (s.unit ty n).leaving
/-- Numbers of the units of a type that the planner counts (R459, R650). -/
def State.inService (s : State) (ty : Nat) : List Nat :=
  (List.range (unitCount ty)).filter (fun n => s.placeable ty n)

/-! ### Time -/

/-- TBK in µs. -/
def State.us (s : State) : Nat := s.tbk / 1000
/-- R458: the current planner epoch. -/
def State.epoch (s : State) : Nat := s.tbk / 10000

/-! ### Stakes in force and the switches they permit -/

/-- Table 11.11: slots, factory value and safe value of a stake (R647). -/
def stakeSlots (k : Nat) : Nat := if k = 0 then 4 else if k = 1 then 63 else 8
/-- Table 11.11: factory value. -/
def stakeFactory (k : Nat) : Nat := if k = 3 then 1 else 0
/-- R647: the safe value. -/
def stakeSafe (k : Nat) : Nat := if k = 3 then 1 else if k = 4 then 2 else 0
/-- A copy of a stake slot as stored: 32 zero bytes when unwritten. -/
def Trust.copy (t : Trust) (k slot c : Nat) : Bytes := FMap.getD t.stakes (k * 256 + slot * 2 + c) (zeros 32)
/-- R637: a blank slot. -/
def Trust.blank (t : Trust) (k slot : Nat) : Bool := t.copy k slot 0 == zeros 32 && t.copy k slot 1 == zeros 32
/-- R637: a valid copy: its check, its reserved bytes, its slot and its stake are right (log 26). -/
def copyValid (k slot : Nat) (b : Bytes) : Bool :=
  num b 28 4 == (crc32c (slice b 0 28)).toNat && slice b 18 10 == zeros 10 && num b 16 1 == slot && num b 17 1 == k
/-- R645: slots of stake k used. -/
def Trust.used (t : Trust) (k : Nat) : Nat :=
  maxBy (fun n => if t.blank k n then 0 else n + 1) (List.range (stakeSlots k))
/-- Table 11.13: the value recorded in a used slot, none when neither copy is valid. -/
def Trust.slotRecord (t : Trust) (k slot : Nat) : Option Bytes :=
  let a := t.copy k slot 0
  let b := t.copy k slot 1
  if copyValid k slot a then some a else if copyValid k slot b then some b else none
/-- R645, R646: an integrity event arises in a used slot. -/
def Trust.slotEvent (t : Trust) (k slot : Nat) : Bool :=
  let a := t.copy k slot 0
  let b := t.copy k slot 1
  !(copyValid k slot a && copyValid k slot b && a == b)
/-- R638, R647: the current value of stake k. -/
def Trust.current (t : Trust) (k : Nat) : Nat :=
  let u := t.used k
  if k = 1 then maxBy (fun n => match t.slotRecord k n with
    | none => 0
    | some b => num b 0 8) (List.range u)
  else if u = 0 then stakeFactory k
  else match t.slotRecord k (u - 1) with
    | none => stakeSafe k
    | some b => num b 0 8
/-- R638: the effective value of stake k. -/
def Trust.effectiveValue (t : Trust) (k : Nat) : Nat := (FMap.getD t.effective k 0).toNat
/-- Effective `debug_unlock` (R638). -/
def State.debugUnlock (s : State) : Bool := (s.trust.effectiveValue 0).testBit 0
/-- Table 10.7: the role of the device, coded as IDENTIFY `casc_role`: 0 none, 1 lead, 2 follower,
3 standby lead. A promoted standby lead is lead (R600). -/
def State.role (s : State) : Nat :=
  if s.casc.promoted then 1
  else
    let lock := s.trust.effectiveValue 2
    if !s.glob.straps.hxlEn then 0
    else if s.glob.straps.cascLead then (if lock = 1 then 1 else 0)
    else if lock = 3 then 3 else if lock = 1 then 0 else 2
/-- A cascade is formed or DEGRADED. -/
def State.cascFormed (s : State) : Bool := s.casc.state == 2 || s.casc.state == 3
/-- R573: opcodes that a follower in a formed cascade accepts. -/
def followerOps : List Nat := [0x00, 0x01, 0x03, 0x42, 0x49, 0x50, 0x51, 0x58, 0x60, 0x61]
/-- R573: the opcode is turned away because the device follows a lead. -/
def State.followerForbids (s : State) (code : Nat) : Bool :=
  s.cascFormed && (s.role == 2 || s.role == 3) && !followerOps.contains code && !(s.role == 3 && code == 0x4A)
/-- R139, R639: SECURITY_POLICY permits perturbation. -/
def State.perturbPermit (s : State) : Bool := (s.trust.current 0).testBit 1
/-- R139, R639: SECURITY_POLICY permits field programs. -/
def State.programPermit (s : State) : Bool := (s.trust.current 0).testBit 2
/-- R64: perturbation takes effect in field f. -/
def State.perturbIn (s : State) (f : Nat) : Bool := (s.cfg f).perturb && s.perturbPermit && s.fieldExists f
/-- R64: field programs take effect in field f. -/
def State.programsIn (s : State) (f : Nat) : Bool := (s.cfg f).programs && s.programPermit && s.fieldExists f

/-- R64: the settings of a scope act: perturbation takes effect in the field, or, for a device-scope control (`field`
0xFF, Table 13.9), in every existing field (R214; log 97). -/
def State.pertActs (s : State) (field : Nat) : Bool :=
  if field = 0xFF then s.fields.all (fun f => !f.2.present || s.perturbIn f.1) else s.perturbIn field
/-- Value of the perturbation setting of a control, target and field (0 when not set or not acting); `field` is 0xFF
for a device-scope control (Table 13.9, R64). -/
def State.control (s : State) (ctl field target : Nat) : Nat :=
  match s.pert.slots.find? (fun p => p.2.control == ctl && p.2.field == field && p.2.target.toNat == target) with
  | none => 0
  | some p => if s.pertActs field then p.2.value.toNat else 0
/-- R681: a duty control holds its target now: the first d of every 256 cycles, counted on TBK (log 33). -/
def State.dutyHeld (s : State) (ctl field target : Nat) : Bool := s.tbk % 256 < s.control ctl field target

/-! ### Counters (Table 12.7) -/

/-- R676: a counter saturates at 32 bits; every other one wraps at 64. -/
def saturates (g pos : Nat) : Bool :=
  match g with
  | 0 => [4, 5, 6, 7, 8, 10, 11].contains pos
  | 1 => [10, 27, 28].contains pos
  | 2 => 32 ≤ pos && pos < 64
  | 3 => [2, 3, 4, 5, 7].contains (pos % 8)
  | _ => false
/-- A counter raised by n (R676). -/
def countUp (g pos old n : Nat) : Nat :=
  if saturates g pos then min (old + n) 0xFFFF_FFFF else (old + n) % 2 ^ 64
/-- Device, memory, HXL or engine counter raised by n. -/
def State.count (s : State) (g pos n : Nat) : State :=
  { s with counters := FMap.set s.counters (g * 1024 + pos) (countUp g pos (FMap.getD s.counters (g * 1024 + pos) 0) n) }
/-- Counter of field f raised by n. -/
def State.countField (s : State) (f pos n : Nat) : State :=
  s.modField f (fun x => { x with counters := FMap.set x.counters pos (countUp 1 pos (FMap.getD x.counters pos 0) n) })

/-! ### What the device sends -/

/-- An output recorded (log 4). -/
def State.emit (s : State) (o : Out) : State := { s with out := o :: s.out }
/-- Data written to host memory; nothing is written after a device-fatal error (R665 step 2). -/
def State.hostWrite (s : State) (fn addr : Nat) (bs : Bytes) : State :=
  if s.glob.fatal || bs.isEmpty then s else s.emit (.hostWrite fn (BitVec.ofNat 64 addr) bs)

/-- The MSI-X table entry of a vector; masked until the host writes it (PCIe, log 9). -/
def FnRegs.vector (x : FnRegs) (v : Nat) : BitVec 128 := FMap.getD x.msix v (1#128 <<< 96)
/-- R79: the ring that a vector of a function serves. -/
def vectorRing (fn v : Nat) : Option Nat :=
  if fn = 0 then (if v = 0 then some adminRing else if v ≤ 8 then some (v - 1) else none)
  else if v < 8 then some (fn * 8 + v) else none
/-- R80: the completion records of a ring count as signalled. -/
def State.signalled (s : State) (r : Option Nat) : State :=
  match r with
  | none => s
  | some r => s.setRing r { s.ring r with unsignalled := 0, unsignalledSince := none }
/-- A vector of a function raised: sent, or left pending while masked (R713). Whatever raised it, the records of the
ring that it serves count as signalled (R80). -/
def State.raiseVector (s : State) (fn v : Nat) : State :=
  let s := s.signalled (vectorRing fn v)
  if ((s.fn fn).vector v).getLsbD 96 then
    s.setFn fn { s.fn fn with pba := (s.fn fn).pba ||| (1#64 <<< v) }
  else s.emit (.msix fn v)
/-- R710: the vector of a function's events. -/
def eventVector (fn : Nat) : Nat := if fn = 0 then 0 else 8
/-- R79: the vector of a ring. -/
def ringVector (r : Nat) : Nat := if r = adminRing then 0 else if r < 8 then 1 + r else r % 8
/-- R710, R712: an event sets its bit and, where enabled, raises the vector. -/
def State.setEvent (s : State) (fn bit : Nat) : State :=
  let s := s.setFn fn { s.fn fn with cause := (s.fn fn).cause ||| (1#32 <<< bit) }
  if (s.fn fn).enable.getLsbD bit then s.raiseVector fn (eventVector fn) else s

/-! ### Event log and trace -/

/-- Table 12.5 codes. -/
def evUNIT_STATE : Nat := 0x0001
def evSELF_TEST_RESULT : Nat := 0x0002
def evECC_CORRECTED : Nat := 0x0010
def evECC_UNCORRECTABLE : Nat := 0x0011
def evSRAM_UNCORRECTABLE : Nat := 0x0012
def evPAGE_DAMAGED : Nat := 0x0013
def evGDDR_RETRAIN : Nat := 0x0014
def evPAIR_FAILED : Nat := 0x0015
def evPAGE_IN_FAILED : Nat := 0x0020
def evCLASS_C_NOT_RESIDENT : Nat := 0x0021
def evREPLAY_MISMATCH : Nat := 0x0022
def evWRITEBACK_FAILED : Nat := 0x0023
def evRING_ERROR : Nat := 0x0030
def evHXL_LINK : Nat := 0x0040
def evMEMBER_LOST : Nat := 0x0041
def evCENSUS : Nat := 0x0042
def evLEAD_LOST : Nat := 0x0043
def evROLE_MISMATCH : Nat := 0x0044
def evSCRUB_PAD : Nat := 0x0045
def evSCRUB_DATA : Nat := 0x0046
def evSTAKE_INTEGRITY : Nat := 0x0050
def evSTAKE_WRITTEN : Nat := 0x0051
def evSTEWARD_RESTART : Nat := 0x0060
def evDEVICE_FATAL : Nat := 0x0061
def evPERTURB_SET : Nat := 0x0070

/-- Table 13.6: the physical function's event bit that an entry sets, from its code and detail. -/
def eventBitOf (code : Nat) (detail : Bytes) : Option Nat :=
  if code = 0x0001 then (if num detail 1 1 = 1 then some 2 else none)
  else if code = 0x0002 then (if num detail 0 1 = 1 then some 2 else none)
  else if code = 0x0011 || code = 0x0013 || code = 0x0015 then some 4
  else if code = 0x0014 then (if num detail 1 1 = 1 then some 4 else none)
  else if code = 0x0040 then (if num detail 1 1 = 0 then some 3 else none)
  else if code = 0x0041 || code = 0x0042 || code = 0x0043 then some 3
  else if code = 0x0050 then some 5
  else if code = 0x0045 || code = 0x0046 then some 6
  else none

/-- R668, R669: an entry takes the next place in the log, or raises the newest entry's count. -/
def State.appendLog (s : State) (code field sev unit : Nat) (detail : Bytes) : State :=
  let fresh : LogEntry := ⟨s.log.nextSeq, s.tbk, code, field, sev, unit, 0, fit 8 detail⟩
  match s.log.entries with
  | e :: rest =>
    if e.code = code ∧ e.field = field ∧ e.unit = unit ∧ s.tbk ≤ e.time + 1000000 then
      { s with log := { s.log with entries := { e with again := min (e.again + 1) 0xFFFF } :: rest } }
    else if s.log.entries.length < 4096 then
      ({ s with log := { s.log with entries := fresh :: e :: rest, nextSeq := s.log.nextSeq + 1 } }).count 0 9 1
    else
      ((({ s with log := ⟨(fresh :: e :: rest).take 4096, s.log.nextSeq + 1, min (s.log.lost + 1) 0xFFFF_FFFF⟩ }).count
        0 9 1).count 0 10 1).setEvent 0 9
  | [] => ({ s with log := { s.log with entries := [fresh], nextSeq := s.log.nextSeq + 1 } }).count 0 9 1

/-- An event logged, with the event bits of Table 13.6 (R711: set even when the entry is coalesced). -/
def State.logEvent (s : State) (code field sev unit : Nat) (detail : Bytes) : State :=
  let s := s.appendLog code field sev unit detail
  match eventBitOf code detail with
  | none => s
  | some b =>
    let s := s.setEvent 0 b
    if b = 4 ∧ 0 < field ∧ field < 16 then s.setEvent field 4 else s

/-- No unit in a log entry or trace record. -/
def noUnit : Nat := 0xFFFF

/-- R671 to R674: a traced event of a source writes a record, or is dropped beyond 64 in a µs. -/
def State.traceRec (s : State) (src field unit : Nat) (a b : BitVec 64) : State :=
  let t := s.trace
  if !t.running || !t.sources.getLsbD src || (!t.wrap && 32768 ≤ t.records.length) then s
  else
    let t := if t.slotUs = s.us then t else { t with slotUs := s.us, slotCount := 0 }
    if 64 ≤ t.slotCount then ({ s with trace := { t with dropped := min (t.dropped + 1) 0xFFFF } }).count 0 11 1
    else
      let rec_ := leBytes 8 s.tbk ++ [BitVec.ofNat 8 src, BitVec.ofNat 8 field] ++ leBytes 2 t.dropped ++
        leBytes 4 unit ++ leBytes 8 a.toNat ++ leBytes 8 b.toNat
      { s with trace := { t with records := (rec_ :: t.records).take 32768, dropped := 0, slotCount := t.slotCount + 1 } }

/-- A trace word of two items; the manual names the items and no packing (free value, log 10). -/
def traceWord (src word : Nat) (x y : Nat) : BitVec 64 := Config.traceWord src word x y

/-! ### Measurement -/

/-- R622, R718: measurement register n extended with an event record. -/
def State.extend (s : State) (n : Nat) (e : Bytes) : State :=
  let t := s.trust
  let old := t.mr.getD n (zeros 48)
  s.setTrust { t with
    mr := t.mr.set n (sha384 (old ++ sha384 e))
    mrCount := t.mrCount.set n (min (t.mrCount.getD n 0 + 1) 0xFFFF_FFFF)
    measGen := t.measGen + 2 }

/-- R623: an event record: its type and content. -/
def eventRecord (ty : Nat) (content : Bytes) : Bytes := [BitVec.ofNat 8 ty, 0, 0, 0] ++ content

/-! ### Units -/

/-- A unit takes a new state, logged as UNIT_STATE with its cause and traced (Tables 12.5 and 12.6). -/
def State.unitTo (s : State) (ty n st : Nat) (byDevice : Bool) : State :=
  let s := s.setUnit ty n { s.unit ty n with state := st }
  let s := s.logEvent evUNIT_STATE 0xFF (if byDevice then 3 else 0) (unitKey ty n)
    [BitVec.ofNat 8 st, if byDevice then 1 else 0]
  s.traceRec 6 0xFF (unitKey ty n) (BitVec.ofNat 64 (unitKey ty n)) (BitVec.ofNat 64 st)

end Sys2Proof.Machine
end

