-- ==== Sys2Proof/Machine/Operands.lean ====
section
/-! DEFINITION. Operand forms of the furrow cores: the fields of an instruction word (Table 7.3), what makes a code
word invalid (R403, R404), registers, vector lanes, local addresses and their post-modification (R366 to R368). -/

namespace Sys2Proof.Machine

/-! ### Fields of an instruction word (Table 7.3) -/

/-- Bits lo + n − 1 to lo of a word. -/
def wBits (w : BitVec 32) (lo n : Nat) : Nat := w.toNat / 2 ^ lo % 2 ^ n
/-- `cls`. -/
def wCls (w : BitVec 32) : Nat := wBits w 28 4
/-- `op`. -/
def wOp (w : BitVec 32) : Nat := wBits w 22 6
/-- Format C `a6`. -/
def wA6 (w : BitVec 32) : Nat := wBits w 16 6
/-- Format C `imm16`. -/
def wImm16 (w : BitVec 32) : Nat := wBits w 0 16
/-- Format C: a word address in `imm16`[11:0]. -/
def wTarget (w : BitVec 32) : BitVec 12 := w.truncate 12
/-- `d` of formats R, I, S and G. -/
def wD (w : BitVec 32) : Nat := wBits w 17 5
/-- Format R `s1`. -/
def wS1 (w : BitVec 32) : Nat := wBits w 12 5
/-- Format R `s2`. -/
def wS2 (w : BitVec 32) : Nat := wBits w 7 5
/-- Format R `x7`. -/
def wX7 (w : BitVec 32) : Nat := wBits w 0 7
/-- Format I `imm17`, zero-extended. -/
def wImm17 (w : BitVec 32) : BitVec 64 := (w.truncate 17).zeroExtend 64
/-- Format I `imm17`, sign-extended. -/
def wSimm17 (w : BitVec 32) : BitVec 64 := (w.truncate 17).signExtend 64
/-- Format S `a`. -/
def wA (w : BitVec 32) : Nat := wBits w 14 3
/-- Format S `n`. -/
def wN (w : BitVec 32) : Nat := wBits w 11 3
/-- Format S `pm`. -/
def wPm (w : BitVec 32) : Nat := wBits w 9 2
/-- Format S `size`. -/
def wSize (w : BitVec 32) : Nat := wBits w 6 3
/-- Formats S and T `x6`. -/
def wX6 (w : BitVec 32) : Nat := wBits w 0 6
/-- Format M `t`. -/
def wT (w : BitVec 32) : Nat := wBits w 20 2
/-- Format M `ax`. -/
def wAx (w : BitVec 32) : Nat := wBits w 17 3
/-- Format M `nx`. -/
def wNx (w : BitVec 32) : Nat := wBits w 14 3
/-- Format M `pmx`. -/
def wPmx (w : BitVec 32) : Nat := wBits w 12 2
/-- Format M `ay`. -/
def wAy (w : BitVec 32) : Nat := wBits w 9 3
/-- Format M `ny`. -/
def wNy (w : BitVec 32) : Nat := wBits w 6 3
/-- Format M `pmy`. -/
def wPmy (w : BitVec 32) : Nat := wBits w 4 2
/-- Format M `mod` bit 3: a P operand is named. -/
def wP (w : BitVec 32) : Bool := w.getLsbD 3
/-- Format M `mod` bits 2:0: index of the P operand. -/
def wPIndex (w : BitVec 32) : Nat := wBits w 0 3
/-- Format T `tile`. -/
def wTile (w : BitVec 32) : Nat := wBits w 18 4
/-- Format T `tile2`. -/
def wTile2 (w : BitVec 32) : Nat := wBits w 14 4
/-- Format T `v1`. -/
def wV1 (w : BitVec 32) : Nat := wBits w 10 4
/-- Format T `v2`. -/
def wV2 (w : BitVec 32) : Nat := wBits w 6 4
/-- Format G `core`. -/
def wCore (w : BitVec 32) : Nat := wBits w 10 7
/-- Format G `thread`. -/
def wThread (w : BitVec 32) : Nat := wBits w 7 3
/-- Format G `any`. -/
def wAny (w : BitVec 32) : Bool := w.getLsbD 6
/-- Format G: the length in bytes. -/
def wLen (w : BitVec 32) : Nat := 4 * (wBits w 0 4 + 1)

/-! ### Code words (R390, R402 to R404, Table 7.4) -/

/-- Table 7.4: the `op` codes of a class. -/
def opsOf (cls : Nat) : List Nat :=
  match cls with
  | 0 => [0x00, 0x01, 0x02, 0x03, 0x04, 0x05, 0x10, 0x11, 0x12, 0x20, 0x21, 0x22, 0x23]
  | 1 => [0x00, 0x01, 0x02, 0x03, 0x04, 0x05, 0x06, 0x07, 0x08, 0x09, 0x0A, 0x20, 0x21]
  | 2 => [0x00, 0x01, 0x02, 0x03, 0x04, 0x05, 0x06, 0x08, 0x09]
  | 3 => [0x01, 0x02, 0x04, 0x08, 0x09]
  | 4 => [0x00, 0x01, 0x02, 0x03, 0x04, 0x05, 0x08]
  | 5 => [0x00, 0x01, 0x02, 0x03, 0x04, 0x05]
  | 6 => [0x00, 0x01]
  | 7 => [0x00, 0x01, 0x02, 0x03]
  | 8 => [0x00, 0x01, 0x02]
  | 9 => [0x00, 0x01, 0x02]
  | _ => []
/-- The word is of format S and so carries a `size` field. -/
def formatS (w : BitVec 32) : Bool :=
  (wCls w == 3 && (wOp w == 8 || wOp w == 9)) || (wCls w == 4 && [0, 1, 2, 3, 8].contains (wOp w))
/-- R390: the format pair of VCVT. -/
def cvtOk (x7 : Nat) : Bool :=
  let a := x7 % 8
  let b := x7 / 8 % 8
  x7 < 64 && a != b && (a == 0 || b == 0)
/-- R402: the operands of LKP8 and LKP4. -/
def lookupOk (w : BitVec 32) : Bool := wX7 w < 4 && (if wOp w = 0 then wD w % 2 == 0 else wD w % 8 == 0)
/-- R404: format G. -/
def messageOk (w : BitVec 32) : Bool := wBits w 4 2 == 0 && (!wAny w || wOp w == 1)
/-- R390, R402 to R404: the code word breaks no rule of an image. -/
def codeOk (w : BitVec 32) : Bool :=
  (opsOf (wCls w)).contains (wOp w) && (!formatS w || wSize w != 7) &&
    (wCls w != 2 || wOp w != 8 || cvtOk (wX7 w)) && (wCls w != 6 || lookupOk w) && (wCls w != 8 || messageOk w)
/-- The word is an instruction of a class and code of Table 7.4. -/
def isWord (cls op : Nat) (w : BitVec 32) : Bool := wCls w == cls && wOp w == op

/-! ### Registers (Table 7.1) -/

/-- A register by its 5-bit number: D0–D15, A0–A7, N0–N7. -/
def Thread.reg (t : Thread) (n : Nat) : BitVec 64 := t.r.getD n 0
/-- A register replaced. -/
def Thread.setReg (t : Thread) (n : Nat) (v : BitVec 64) : Thread := { t with r := t.r.set n v }
/-- Register number of A register n. -/
def aReg (n : Nat) : Nat := 16 + n
/-- Register number of N register n. -/
def nReg (n : Nat) : Nat := 24 + n
/-- A vector register. -/
def Thread.vreg (t : Thread) (n : Nat) : BitVec 512 := t.v.getD (n % 16) 0
/-- A vector register replaced. -/
def Thread.setV (t : Thread) (n : Nat) (x : BitVec 512) : Thread := { t with v := t.v.set (n % 16) x }
/-- R398: flags raised. -/
def Thread.raise (t : Thread) (f : Flags) : Thread := { t with flags := t.flags ||| f }
/-- A lane of an accumulator. -/
def Thread.accLane (t : Thread) (a n : Nat) : FixLane := (t.vacc.getD a []).getD n ⟨0, false⟩
/-- An accumulator replaced. -/
def Thread.setAcc (t : Thread) (a : Nat) (ls : List FixLane) : Thread := { t with vacc := t.vacc.set a ls }

/-- Lane n of a vector register. -/
def lane (v : BitVec 512) (n : Nat) : BitVec 32 := v.extractLsb' (32 * n) 32
/-- The 16 lanes of a vector register. -/
def lanes (v : BitVec 512) : List (BitVec 32) := (List.range 16).map (lane v)
/-- The vector register of 16 lanes, lane 0 lowest. -/
def ofLanes (l : List (BitVec 32)) : BitVec 512 := l.foldr (fun x v => (v <<< 32) ||| x.zeroExtend 512) 0
/-- The 64 bytes of a vector register. -/
def vecBytes (v : BitVec 512) : Bytes := leBytes 64 v.toNat
/-- The vector register of 64 bytes. -/
def vecOf (b : Bytes) : BitVec 512 := BitVec.ofNat 512 (le (fit 64 b))

/-! ### Local memory (R366 to R368, R384) -/

/-- Bytes of local data memory. -/
def localSize : Nat := 131072
/-- R366: the local byte address that a register value gives. -/
def localAddr (v : BitVec 64) : Nat := v.toNat % localSize
/-- s bytes of local memory; an aligned access never wraps. -/
def Core.load (c : Core) (a s : Nat) : Bytes := Mem.readN 0 c.mem a s
/-- Bytes stored in local memory. -/
def Core.store (c : Core) (a : Nat) (b : Bytes) : Core := { c with mem := Mem.write 0 c.mem a b }
/-- R367: the access is aligned to its size. -/
def aligned (a s : Nat) : Bool := a % s == 0
/-- R368: the address register after an access of s bytes. -/
def postModify (t : Thread) (a n pm s : Nat) : Thread :=
  let v := t.reg (aReg a)
  let d := t.reg (nReg n)
  match pm with
  | 1 => t.setReg (aReg a) (v + d)
  | 2 => t.setReg (aReg a) (v - d)
  | 3 => t.setReg (aReg a) (v + BitVec.ofNat 64 s)
  | _ => t
/-- Bank X of tri-bus mode (R384). -/
def bankX (a : Nat) : Bool := a < 65536

end Sys2Proof.Machine
end

