-- ==== Sys2Proof/Machine/Flags.lean ====
section
/-! DEFINITION. Flag computations of the furrow cores: the condition codes of CMP and the conditions of BRC (Table 7.1,
R405), and what FP32 operands and integer stores raise (Table 6.4, R343). -/

namespace Sys2Proof.Machine

/-- Table 7.1: condition codes Z, N, C, V of a comparison, in bits 0 to 3; C is the borrow (log 66). -/
def compareCodes (a b : BitVec 64) : BitVec 4 :=
  let d := a - b
  let v := (a.msb != b.msb) && (d.msb != a.msb)
  (if a = b then 1#4 else 0) ||| (if d.msb then 2#4 else 0) ||| (if a.toNat < b.toNat then 4#4 else 0) |||
    (if v then 8#4 else 0)
/-- Signed less of the codes: N differs from V. -/
def ccLess (cc : BitVec 4) : Bool := cc.getLsbD 1 != cc.getLsbD 3
/-- R405: a condition holds on the codes; codes 9 to 15 never branch. -/
def condition (n : Nat) (cc : BitVec 4) : Bool :=
  let z := cc.getLsbD 0
  let c := cc.getLsbD 2
  match n with
  | 0 => true
  | 1 => z
  | 2 => !z
  | 3 => ccLess cc
  | 4 => !ccLess cc
  | 5 => c
  | 6 => !c
  | 7 => !z && !ccLess cc
  | 8 => z || ccLess cc
  | _ => false

/-- Table 6.4: DIN of an FP32 operand that a core consumes. -/
def dinLane (b : BitVec 32) : Flags := flIf (isSubnormal fFP32 b.toNat) flDIN
/-- R343: a FIX40 lane as stored with shift h in n bits, and whether it was clamped. -/
def fixStore (n h : Nat) (v : BitVec 40) : Int × Bool :=
  let r := (2 * v.toInt + 2 ^ h) / 2 ^ (h + 1)
  let lo : Int := -(2 ^ (n - 1))
  let hi : Int := 2 ^ (n - 1) - 1
  if r < lo then (lo, true) else if hi < r then (hi, true) else (r, false)
/-- R343, R315: the store at shift h drops bits of the lane. -/
def fixInexact (h : Nat) (v : BitVec 40) : Bool := v.toInt % 2 ^ h != 0
/-- R396, Table 6.4: the flags of a stored lane: DSAT for a clamp or a saturation bit, IX where the stored value is not exact. -/
def fixFlags (clamped sat inexact : Bool) : Flags := flIf (clamped || sat) flDSAT ||| flIf (clamped || inexact) flIX

end Sys2Proof.Machine
end

