-- ==== Sys2Proof/Machine/Crossings.lean ====
section
/-! DEFINITION. Clock domains and the crossing queues between them (14, Clock domains and crossings; R682, R743 to R746). -/

namespace Sys2Proof.Machine

/-! ### Clocks -/

/-- Table 14.4: SCK in MHz by effective profile. -/
def State.sck (s : State) : Nat :=
  match s.trust.effectiveValue 4 with
  | 0 => 1600 | 1 => 1400 | _ => 1200
/-- Table 14.4: ECK in MHz by effective profile. -/
def State.eck (s : State) : Nat :=
  match s.trust.effectiveValue 4 with
  | 0 => 1200 | 1 => 1050 | _ => 900
/-- R466: cycles of a clock in ns, rounded up. -/
def cyclesNs (mhz n : Nat) : Nat := ceilDiv (n * 1000) mhz

/-- Table 14.4: the clock domains; west and east memory controllers and the four ports each have their own. -/
inductive ClockDomain where
  | aon
  | stw
  | pck
  | nck
  | sck
  | eck
  | memory
  | hx (port : Nat)
  | jtk
  deriving DecidableEq, Repr

/-- Table 14.4: a domain's rate in MHz; none for JTK, whose clock the board drives on TCK. -/
def State.domainMhz (s : State) (d : ClockDomain) : Option Nat :=
  match d with
  | .aon => some 50
  | .stw | .pck => some 1000
  | .nck => some 2000
  | .sck => some s.sck
  | .eck => some s.eck
  | .memory => some (s.memRate * 1000 / (if s.glob.straps.gddrType then 32 else 16))
  | .hx _ => some 1660
  | .jtk => none

/-- Table 14.5: the domain that writes a crossing queue and the one that reads it; none beyond queue 359 (R746). -/
def crossingEnds (q : Nat) : Option (ClockDomain × ClockDomain) :=
  let way := fun (a b : ClockDomain) => some (if q % 2 = 0 then (a, b) else (b, a))
  if q < 2 then way .pck .stw
  else if q < 4 then way .pck .nck
  else if q < 6 then way .stw .nck
  else if q < 60 then way .nck .eck
  else if q < 62 then way .stw .eck
  else if q < 64 then way .stw .sck
  else if q < 320 then way .nck .sck
  else if q < 352 then way .nck .memory
  else if q < 356 then some (.hx (q - 352), .nck)
  else if q < 358 then way .aon .stw
  else if q < 360 then way .jtk .stw
  else none

/-! ### The queues -/

/-- R743: entries of a crossing queue. -/
def crossingDepth : Nat := 16
/-- R743: a pointer in Gray code: two successive values differ in one bit. -/
def gray (n : BitVec 5) : BitVec 5 := n ^^^ (n >>> 1)
/-- A crossing queue; one that nothing has crossed yet is empty. -/
def State.crossing (s : State) (q : Nat) : Crossing := FMap.getD s.crossings q ⟨0, 0, []⟩
/-- A crossing queue set. -/
def State.setCrossing (s : State) (q : Nat) (x : Crossing) : State := { s with crossings := FMap.set s.crossings q x }
/-- R682, R745: cycles of the reading clock until an entry is visible: three, and what perturbation control 0 adds. -/
def State.crossCycles (s : State) (q : Nat) : Nat := 3 + s.control 0 0xFF q
/-- R745: the time at which an entry written now is visible; none where the reading clock is TCK, which the board drives. -/
def State.visibleAt (s : State) (q : Nat) : Option Nat :=
  match crossingEnds q with
  | none => none
  | some e => match s.domainMhz e.2 with
    | none => none
    | some mhz => some (s.tbk + cyclesNs mhz (s.crossCycles q))
/-- R745: an entry written behind the others; none where the queue is full, which stops the writer. -/
def State.crossWrite (s : State) (q : Nat) (b : Bytes) : Option State :=
  let x := s.crossing q
  if crossingDepth ≤ x.entries.length then none
  else some (s.setCrossing q { x with written := x.written + 1, entries := x.entries ++ [(s.visibleAt q, b)] })
/-- R745: the oldest entry read, once it is visible to the reader; none while none is. -/
def State.crossRead (s : State) (q : Nat) : Option (State × Bytes) :=
  let x := s.crossing q
  match x.entries with
  | (some t, b) :: rest => if t ≤ s.tbk then some (s.setCrossing q { x with read := x.read + 1, entries := rest }, b) else none
  | _ => none
/-- One entry carried across a queue: written, waited for and read. A queue whose reader stands still keeps it. -/
def State.cross (s : State) (q : Nat) (b : Bytes) : State × Bytes :=
  match s.crossWrite q b with
  | none => (s, b)
  | some t =>
    let u := match t.visibleAt q with
      | none => t
      | some at_ => t.advance at_
    (u.crossRead q).getD (u, b)

end Sys2Proof.Machine
end

