-- ==== Sys2Proof/Machine/Packet.lean ====
section
/-! DEFINITION. Completion records, ring faults, and the one path every packet takes: the checks of
Table 2.6, the opcode's own checks and effect, the reply and the record. -/

namespace Sys2Proof.Machine

/-! ### Status codes (Table 2.8) -/

def stSUCCESS : Nat := 0x0000
def stBAD_OPCODE : Nat := 0x0001
def stBAD_VALUE : Nat := 0x0002
def stBAD_LENGTH : Nat := 0x0003
def stBAD_INDEX : Nat := 0x0004
def stBAD_STATE : Nat := 0x0005
def stTAG_IN_USE : Nat := 0x0006
def stNOT_PERMITTED : Nat := 0x0007
def stMODE_FORBIDS : Nat := 0x0008
def stNOT_FOUND : Nat := 0x0009
def stEXISTS : Nat := 0x000A
def stNO_CAPACITY : Nat := 0x000B
def stLIMIT : Nat := 0x000C
def stDEADLINE_INFEASIBLE : Nat := 0x000D
def stEPOCH_UNAVAILABLE : Nat := 0x000E
def stSTAKE_EXHAUSTED : Nat := 0x000F
def stIMAGE_INVALID : Nat := 0x0010
def stDMA_READ : Nat := 0x0011
def stUNIT_WITHDRAWN : Nat := 0x0100
def stFIELD_RESET : Nat := 0x0101
def stPROGRAM_TIMEOUT : Nat := 0x0102
def stHW_FAULT : Nat := 0x0103
def stDMA_WRITE : Nat := 0x0104
def stRING_ERROR : Nat := 0x0200

/-! ### The packet header (Table 2.3) -/

def Cmd.opcode (c : Cmd) : Nat := num c.pkt 0 1
def Cmd.cls (c : Cmd) : Nat := num c.pkt 1 1 / 16 % 4
def Cmd.irq (c : Cmd) : Bool := flag c.pkt 1 2
def Cmd.pbValid (c : Cmd) : Bool := flag c.pkt 1 1
def Cmd.fence (c : Cmd) : Bool := flag c.pkt 1 0
def Cmd.tag (c : Cmd) : Nat := num c.pkt 2 2
def Cmd.idx (c : Cmd) : Nat := num c.pkt 4 1 % 64
def Cmd.pbLen (c : Cmd) : Nat := num c.pkt 6 2
def Cmd.pbAddr (c : Cmd) : Nat := num c.pkt 8 8
/-- The same command: (ring, seq) names it (02, Tags and sequence numbers). -/
def Cmd.is (c : Cmd) (ring : Nat) (seq : BitVec 48) : Bool := c.ring == ring && c.seq == seq

/-- Outstanding commands of a ring, oldest first. -/
def State.cmdsOf (s : State) (r : Nat) : List Cmd := s.cmds.filter (fun c => c.ring == r)
/-- Table 2.2 `idle`: no command of the ring is outstanding, and no write of the device to the ring is pending: the
ST_RING_ERROR record where it is still to come (R115). -/
def State.ringIdle (s : State) (r : Nat) : Bool :=
  (s.cmdsOf r).isEmpty && !((s.ring r).errRecordDue && (s.ring r).cqWritable)

/-! ### Rings at work -/

/-- R77: what a finished ring reset leaves. -/
def Ring.cleared (x : Ring) : Ring :=
  { x with
    enable := false, tail := 0, head := 0, sqHead := 0, seqNext := 0, error := false, errorCause := 0,
    resetting := false, errRecordDue := false, cqWritable := true, cqTail := 0, phase := true, unconsumed := 0,
    unsignalled := 0, unsignalledSince := none }

/-- R77: a ring reset ends when no command of the ring is outstanding. -/
def State.settleRing (s : State) (r : Nat) : State :=
  if (s.ring r).resetting && (s.cmdsOf r).isEmpty then s.setRing r (s.ring r).cleared else s

/-- R114, R115: a ring enters error. -/
def State.ringError (s : State) (r cause : Nat) : State :=
  if (s.ring r).error then s
  else
    let s := s.setRing r { s.ring r with
      error := true, errorCause := BitVec.ofNat 4 cause, errRecordDue := true,
      cqWritable := cause ≠ 3 && cause ≠ 4 && (s.ring r).cqWritable }
    s.logEvent evRING_ERROR (ringField r) (Config.severity evRING_ERROR) noUnit [BitVec.ofNat 8 r, BitVec.ofNat 8 cause]

/-- Table 2.4: the bytes of a completion record. -/
def recordBytes (x : Ring) (tag status : Nat) (fl : Flags) (seq : BitVec 48) (lat bound info : Nat) : Bytes :=
  leBytes 2 tag ++ leBytes 2 status ++ leBytes 4 (fl.toNat + if x.phase then 2 ^ 31 else 0) ++
    leBytes 6 seq.toNat ++ leBytes 2 x.sqHead.toNat ++ leBytes 4 lat ++ leBytes 4 bound ++ leBytes 8 info

/-- R100, R89: the ring after one more record: the next slot, with the phase inverted on each pass. -/
def Ring.afterRecord (x : Ring) (now : Nat) : Ring :=
  let next := (x.cqTail.toNat + 1) % x.n
  { x with
    cqTail := BitVec.ofNat 16 next, phase := if next = 0 then !x.phase else x.phase,
    unconsumed := x.unconsumed + 1, unsignalled := x.unsignalled + 1,
    unsignalledSince := some (x.unsignalledSince.getD now) }

/-- R80: the ring's vector is raised. -/
def State.signalRing (s : State) (r : Nat) : State := s.raiseVector (ringFn r) (ringVector r)

/-- Table 2.7 cause 3, R115: a write of a completion record failed; the completion ring is written no more, also where
the ring was in error before. -/
def State.recordFailed (s : State) (r : Nat) : State :=
  let t := s.ringError r 3
  t.setRing r { t.ring r with cqWritable := false }

/-- R91, R80: one completion record written into the next slot; a failed write is a ring fault
(Table 2.7 cause 3). Nothing is written for a ring under reset (R77), to a ring that cannot be written
(R115) or after a device-fatal error (R665). -/
def State.writeRecord (s : State) (r tag status : Nat) (fl : Flags) (seq : BitVec 48) (lat bound info : Nat)
    (irq ok : Bool) : State :=
  let x := s.ring r
  if x.resetting || !x.cqWritable || s.glob.fatal then s
  else if !ok then s.recordFailed r
  else
    let s := s.emit (.hostWrite (ringFn r) (x.cqBase + BitVec.ofNat 64 (32 * x.cqTail.toNat))
      (recordBytes x tag status fl seq lat bound info))
    let y := x.afterRecord s.tbk
    let s := s.setRing r y
    if irq || (y.irqCount ≠ 0 && y.irqCount.toNat ≤ y.unsignalled) then s.signalRing r else s

/-- Table 12.7 group 1, positions 6 to 9: a completion of the field with NARROWED, PAGED, DSAT or ND. -/
def State.countFlags (s : State) (f : Nat) (fl : Flags) : State :=
  let one := fun (s : State) (b : Flags) (pos : Nat) => if fl &&& b ≠ 0 then s.countField f pos 1 else s
  one (one (one (one s flNARROWED 6) flPAGED 7) flDSAT 8) flND 9

/-- R47, R93, R482, R688: a command ends with its completion record; the context of a halted read of it is discarded. A
refused command carries no flag. -/
def State.finish (s : State) (c : Cmd) (status info bound : Nat) (fl : Flags) (ok : Bool) : State :=
  let s := { s.setCmds (s.cmds.filter (fun d => !d.is c.ring c.seq)) with
    streams := s.streams.filter (fun x => x.2.reader != Reader.cmd c.ring c.seq) }
  let s := if 0 < status && status < 0x100 then s.count 0 1 1
    else if 0x100 ≤ status && status < 0x200 then s.count 0 2 1 else s
  let refused : Bool := 0 < status && status < 0x100
  let fl := if refused then 0 else fl ||| flIf c.perturbed flPERTURBED
  let s := if c.ring = adminRing then s else s.countFlags (ringFn c.ring) fl
  let s := s.writeRecord c.ring c.tag status fl c.seq (min (s.tbk - c.tFetch) 0xFFFF_FFFF) bound
    (if status = 0 then info else 0) c.irq ok
  let s := if (s.ring c.ring).resetting then s else
    s.traceRec 2 (ringField c.ring) noUnit (traceWord 2 0 c.ring c.seq.toNat) (traceWord 2 1 status fl.toNat)
  s.settleRing c.ring

/-! ### The opcode summary (Table 3.1) -/

/-- What a packet's opcode says about its ring, its block and its index (Table 3.1, R82). -/
inductive Need where
  | none
  | required
  | optional
  deriving DecidableEq, Repr

/-- A row of Table 3.1. -/
structure OpSpec where
  code : Nat
  admin : Bool
  field : Bool
  need : Need
  namesIndex : Bool
  /-- The class of the command: 0 C, 1 B, 2 X; none where the packet names it (R81, R128). -/
  cls : Option Nat
  deriving DecidableEq, Repr

/-- R123: a field opcode of class B. -/
def opF (code : Nat) (need : Need) (ix : Bool) : OpSpec := ⟨code, false, true, need, ix, some 1⟩
/-- R123: a field opcode of class X. -/
def opFX (code : Nat) (need : Need) (ix : Bool) : OpSpec := ⟨code, false, true, need, ix, some 2⟩
/-- R128: a search, which runs in the class of its packet. -/
def opSearch (code : Nat) : OpSpec := ⟨code, false, true, .required, true, .none⟩
/-- R123: an admin opcode of class B. -/
def opA (code : Nat) (need : Need) : OpSpec := ⟨code, true, false, need, false, some 1⟩
/-- R123: an opcode of both kinds, of class B. -/
def opAF (code : Nat) : OpSpec := ⟨code, true, true, .none, false, some 1⟩

/-- Table 3.1. -/
def opTable : List OpSpec :=
  [opAF 0x00, opAF 0x01, opA 0x02 .optional, opAF 0x03,
   opF 0x08 .none true, opF 0x09 .none true, opF 0x0A .required true, opF 0x0B .required true, opF 0x0C .none true,
   opF 0x0D .none true, opFX 0x10 .required true, opFX 0x11 .optional true, opFX 0x12 .required true,
   opFX 0x13 .required true, opF 0x14 .none true, opF 0x15 .none true, opF 0x16 .none true, opFX 0x17 .none true,
   opSearch 0x20, opSearch 0x21, opSearch 0x22, opF 0x23 .required true,
   opF 0x28 .required false, opF 0x29 .none false, opF 0x2A .optional false, opF 0x30 .optional false,
   opF 0x31 .none true, opF 0x32 .none true, opF 0x38 .required false, opF 0x39 .optional false,
   opF 0x3A .none false, opF 0x3B .required false,
   opA 0x40 .none, opA 0x41 .none, opAF 0x42, opA 0x48 .optional, opAF 0x49, opA 0x4A .none, opAF 0x50, opAF 0x51,
   opAF 0x58, opA 0x59 .none, opAF 0x60, opAF 0x61, opA 0x62 .none, opA 0x68 .none, opA 0x69 .none,
   ⟨0x70, true, false, .required, false, some 2⟩, opA 0x71 .none]

/-- The row of Table 3.1 of an opcode byte; none for a reserved opcode. -/
def opSpec (code : Nat) : Option OpSpec := opTable.find? (fun o => o.code == code)

/-- R82: the search opcodes, which read `class`. -/
def isSearchOp (code : Nat) : Bool := code == 0x20 || code == 0x21 || code == 0x22

/-- R56, R81, R128: the class in which a command runs: that of Table 3.1, or, for a search, that of its packet. -/
def Cmd.runClass (c : Cmd) : Nat :=
  match opSpec c.opcode with
  | none => 1
  | some o => o.cls.getD c.cls

/-! ### Admission -/

/-- What an opcode's own checks and effect see. -/
structure Ctx where
  cmd : Cmd
  pkt : Bytes
  ring : Nat
  /-- The function and, on a field ring, the field. -/
  fn : Nat
  /-- The block as read, of `pb_len` × 64 bytes; empty without one. -/
  block : Bytes
  hasBlock : Bool
  /-- Key of the index that the header names. -/
  key : Nat
  dma : Dma

/-- An admitted command: the state after its effect, and how it ends or goes on. -/
structure Admit where
  s : State
  /-- Work that keeps the command outstanding. -/
  work : Option Work
  status : Nat
  info : Nat
  flags : Flags
  bound : Nat
  epoch : Nat
  writes : List (Nat × Bytes)

/-- The outcome of an opcode's own checks. -/
inductive Verdict where
  /-- Refused with a status and, for an infeasible search, its bound (R177). -/
  | refuse (status bound : Nat)
  /-- Refused with a state that counts the refusal (Table 12.7). -/
  | turnAway (s : State) (status bound : Nat)
  | accept (a : Admit)

/-- Refused with a status. -/
def no (status : Nat) : Verdict := .refuse status 0
/-- Done with a reply and `info`. -/
def yesReply (s : State) (info : Nat) (writes : List (Nat × Bytes)) : Verdict :=
  .accept ⟨s, Option.none, 0, info, 0, 0, 0, writes⟩
/-- Done with `info`. -/
def yes (s : State) (info : Nat) : Verdict := yesReply s info []
/-- Ended after admission with a status. -/
def failed (s : State) (status : Nat) : Verdict := .accept ⟨s, Option.none, status, 0, 0, 0, 0, []⟩
/-- Outstanding until later work ends it. -/
def stays (s : State) (w : Work) : Verdict := .accept ⟨s, some w, 0, 0, 0, 0, 0, []⟩
/-- The first failing check refuses; otherwise the effect. -/
def checks (l : List (Bool × Nat)) (k : Unit → Verdict) : Verdict :=
  match l with
  | [] => k ()
  | (bad, st) :: t => if bad then no st else checks t k

/-- Two 32-bit halves of `info`. -/
def info2 (lo hi : Nat) : Nat := lo % 2 ^ 32 + hi % 2 ^ 32 * 2 ^ 32
/-- R126, R127: a reply of fixed size: misaligned, then too short. -/
def replyChecks (pkt : Bytes) (addrAt lenAt size : Nat) : List (Bool × Nat) :=
  [(num pkt addrAt 8 % 64 != 0, stBAD_VALUE), (num pkt lenAt 4 < size, stBAD_LENGTH)]

/-- R99: the oldest packet of a ring that is not yet admitted. -/
def State.nextPacket (s : State) (r : Nat) : Option Cmd :=
  s.cmds.find? (fun c => c.ring == r && c.work == .fetched)
/-- Commands of the ring fetched before c. -/
def State.earlier (s : State) (c : Cmd) : List Cmd := (s.cmdsOf c.ring).takeWhile (fun d => !d.is c.ring c.seq)
/-- R101: fencing lets the packet be admitted. -/
def State.unfenced (s : State) (c : Cmd) : Bool :=
  if c.fence then (s.earlier c).isEmpty else !(s.earlier c).any (fun d => d.fence)
/-- The Steward serves rings (R665, R707, R619). -/
def State.serving (s : State) : Bool := s.glob.ready && !s.glob.fatal && !s.glob.restarting

/-- Table 2.6 steps 2 to 8: the status of the first failing check. -/
def State.packetFault (s : State) (c : Cmd) (o : OpSpec) (dma : Dma) : Option Nat :=
  if c.tag = 0xFFFF then some stBAD_VALUE
  else if (s.earlier c).any (fun d => d.tag == c.tag) then some stTAG_IN_USE
  else if (if c.ring = adminRing then !o.admin else !o.field) then some stNOT_PERMITTED
  else if isSearchOp o.code && c.cls == 3 then some stBAD_VALUE
  else if (c.pbValid && (o.need == .none || c.pbLen == 0 || c.pbAddr % 64 != 0)) ||
      (!c.pbValid && o.need == .required) then some stBAD_LENGTH
  else if c.pbValid && dma.block.isNone then some stDMA_READ
  else if !o.namesIndex then none
  else if o.code = 0x08 then (if (s.index? (ringFn c.ring) c.idx).isSome then some stEXISTS else none)
  else if (s.index? (ringFn c.ring) c.idx).isNone then some stBAD_INDEX
  else none

/-- What the opcode's own checks see of a packet. -/
def ctxOf (c : Cmd) (dma : Dma) : Ctx :=
  { cmd := c, pkt := c.pkt, ring := c.ring, fn := ringFn c.ring,
    block := if c.pbValid then fit (c.pbLen * 64) (dma.block.getD []) else [],
    hasBlock := c.pbValid, key := indexKey (ringFn c.ring) c.idx, dma := dma }

/-- Reply data of a command, written before its record (R91); a failed write ends it with ST_DMA_WRITE
(R117). -/
def State.writeReply (s : State) (c : Cmd) (writes : List (Nat × Bytes)) : State :=
  writes.foldl (fun s w => s.hostWrite (ringFn c.ring) w.1 w.2) s

/-- The end of an opcode's own part: refusal, completion or outstanding work. Where the write of the reply fails, the
model lets none of its bytes reach host memory (R117 names none; log 96). -/
def State.settle (s : State) (c : Cmd) (dma : Dma) (v : Verdict) : State :=
  match v with
  | .refuse status bound => s.finish c status 0 bound 0 dma.recordOk
  | .turnAway t status bound => t.finish c status 0 bound 0 dma.recordOk
  | .accept a =>
    let c := { c with
      perturbed := c.ring != adminRing && (s.cfg (ringFn c.ring)).perturb
      flags := a.flags, bound := BitVec.ofNat 32 a.bound }
    let t := a.s.traceRec 1 (ringField c.ring) noUnit (traceWord 1 0 c.ring c.seq.toNat) (traceWord 1 1 a.bound a.epoch)
    match a.work with
    | some w => t.setCmds (t.cmds.map (fun d => if d.is c.ring c.seq then { c with work := w } else d))
    | none =>
      if dma.replyOk || a.writes.isEmpty then
        (t.writeReply c a.writes).finish c a.status a.info a.bound a.flags dma.recordOk
      else t.finish c stDMA_WRITE 0 a.bound a.flags dma.recordOk

/-- R85: the parameter block is read once, before admission. -/
def State.readBlock (s : State) (c : Cmd) (st : Option Nat) : State :=
  if c.pbValid && (st == none || st == some stDMA_READ || st == some stBAD_INDEX || st == some stEXISTS) then
    s.emit (.hostRead (ringFn c.ring) (BitVec.ofNat 64 c.pbAddr) (c.pbLen * 64))
  else s

/-- The row of an opcode acts on the oldest unadmitted packet of a ring, when that packet carries the
opcode and may be admitted (R99, R101, R113). -/
def State.runPacket (s : State) (code ring : Nat) (dma : Dma) (body : Ctx → State → Verdict) : Result :=
  if adminRing < ring then .fault .noSuchUnit
  else
    match s.nextPacket ring, opSpec code with
    | some c, some o =>
      if c.opcode ≠ code || !s.unfenced c || !s.serving then .next s
      else
        match s.packetFault c o dma with
        | some st => .next ((s.readBlock c (some st)).settle c dma (no st))
        | none =>
          let s := s.readBlock c none
          if s.followerForbids code then .next (s.settle c dma (no stMODE_FORBIDS))
          else .next (s.settle c dma (body (ctxOf c dma) s))
    | _, _ => .next s

end Sys2Proof.Machine
end

