-- ==== Sys2Proof/Machine/Alloc.lean ====
section
/-! DEFINITION. Geometry of an index (Table 4.1), the pages it needs, frames and pool slots, pins and their
Granary lines (04, 09; R186 to R193, R223 to R231, R497, R502 to R507, R519 to R522, R535). -/

namespace Sys2Proof.Machine

/-- 2 MiB. -/
def pageSize : Nat := 2097152

/-! ### Geometry -/

/-- R145: components V of a stored vector. -/
def IParams.v (p : IParams) : Nat := if p.fpFmt = 0 then p.dim else p.fpDim
/-- Table 4.1: bytes of a centroid row. -/
def IParams.rowBytes (p : IParams) : Nat := roundUp (p.dim * (coarseFmt p.coarse).bytes) 64
/-- Entries of a sub-quantiser. -/
def IParams.entries (p : IParams) : Nat := 2 ^ p.bits
/-- Components of a sub-quantiser. -/
def IParams.subDim (p : IParams) : Nat := p.dim / p.m
/-- Bytes of a code. -/
def IParams.codeBytes (p : IParams) : Nat := ceilDiv (p.m * p.bits) 8
/-- R223: code stride s_c. -/
def IParams.stride (p : IParams) : Nat := roundUp p.codeBytes 8
/-- e_f of Table 4.1, 0 without a full-precision store. -/
def IParams.fpBytes (p : IParams) : Nat := if p.fpFmt = 0 then 0 else (Sys2Proof.Machine.fpFmt p.fpFmt).bytes
/-- Table 4.1: bytes of a scan block. -/
def IParams.scanBytes (p : IParams) : Nat := roundUp (64 * (p.stride + 8 + 4 * p.attrWords)) 256
/-- Table 4.1: bytes of a full-precision block. -/
def IParams.fullBytes (p : IParams) : Nat := 64 * p.v * p.fpBytes
/-- R229: buckets of the ID map. -/
def IParams.buckets (p : IParams) : Nat := 2 ^ clog2 (ceilDiv p.maxEntries 12)
/-- R785: bytes of a record in the pending store. -/
def IParams.pendBytes (p : IParams) : Nat :=
  roundUp (p.stride + 8 + 4 * p.attrWords + (if p.fpFmt = 0 then 0 else p.v * p.fpBytes) + 4) 8
/-- Bytes of the pending store (R785). -/
def Index.pendingBytes (x : Index) : Nat :=
  sumBy (fun m => m.puts.length * x.p.pendBytes + m.dels.length * 8) x.pending

/-! ### Blocks -/

/-- Blocks that n slots take. -/
def blocksFor (n : Nat) : Nat := ceilDiv n 64
/-- R258: slots of the image that a compaction of a list from E0 builds. -/
def compactedSlots (e0 : Nat) (l : List Slot) : List Slot :=
  l.filter (fun e => match e.died with
    | none => true
    | some d => e0 < e.born || e0 < d)
/-- R261: the image of a list that a query of an epoch and place in the order reads. -/
def ListRec.imageFor (l : ListRec) (epoch order : Nat) : Image :=
  match (l.image :: l.olds).find? (fun i => i.order ≤ order && i.e0 ≤ epoch) with
  | some i => i
  | none => (l.olds.getLast?).getD l.image
/-- Slots of an image below the slot count at an epoch. -/
def Image.countAt (i : Image) (epoch : Nat) : Nat := (i.slots.filter (fun e => e.born ≤ epoch)).length
/-- Current image of a list. -/
def Index.list (x : Index) (l : Nat) : ListRec := FMap.getD x.lists l ListRec.empty
/-- Blocks of every image of an index with their lists. -/
def Index.blocks (x : Index) : List (Nat × Nat) :=
  x.lists.flatMap (fun p => (p.2.image.blocks ++ p.2.olds.flatMap (fun i => i.blocks)).map (fun b => (b, p.1)))
/-- Blocks in use of the index with a key, those of images being built included. -/
def State.blocksOf (s : State) (key : Nat) : List (Nat × Nat) :=
  (match FMap.get? s.indexes key with
    | none => []
    | some x => x.blocks) ++
  (s.evaporators.filter (fun e => e.2.key == key)).flatMap (fun e => e.2.blocks.map (fun b => (b, e.2.list)))
/-- The number of the next block for a list: the lowest free one, of the list's parity in NEAR mapping so that
blocks of one half lie together (log 50). -/
def nextBlock (hash : Bool) (used : List Nat) (l : Nat) : Nat :=
  if hash then lowestFree used (used.length + 1) 0
  else 2 * lowestFree ((used.filter (fun b => b % 2 == l % 2)).map (fun b => b / 2)) (used.length + 1) 0 + l % 2
/-- n new block numbers for a list. -/
def nextBlocks (hash : Bool) (used : List Nat) (l : Nat) : Nat → List Nat
  | 0 => []
  | n + 1 => let b := nextBlock hash used l
             b :: nextBlocks hash (b :: used) l n

/-! ### Pages needed -/

/-- The pages of a part of so many bytes. -/
def partPages (index : Option Nat) (part : Part) (half bytes : Nat) (gddr : Bool) : List Need4 :=
  (List.range (ceilDiv bytes pageSize)).map (fun n => ⟨index, part, half, n, gddr⟩)
/-- The pages of one element of a size at a position of a part. -/
def spanPages (index : Nat) (part : Part) (half pos size : Nat) : List Need4 :=
  if size = 0 then []
  else
    let a := pos * size / pageSize
    let b := ((pos + 1) * size - 1) / pageSize
    (List.range (b + 1 - a)).map (fun n => ⟨some index, part, half, a + n, false⟩)
/-- The pages of one block. -/
def blockPages (index : Nat) (p : IParams) (hash : Bool) (b l : Nat) : List Need4 :=
  let half := if hash then 0 else l % 2
  let pos := if hash then b else b / 2
  spanPages index .scan half pos p.scanBytes ++ spanPages index .full half pos p.fullBytes ++
    spanPages index .tombstones 0 b 8 ++ spanPages index .blockTable 0 b 16
/-- R784: the centroid table. -/
def centroidPages (index : Nat) (p : IParams) (hash : Bool) : List Need4 :=
  if hash then partPages (some index) .centroids 0 (p.nlist * p.rowBytes) true
  else partPages (some index) .centroids 0 ((p.nlist + 1) / 2 * p.rowBytes) true ++
    partPages (some index) .centroids 1 (p.nlist / 2 * p.rowBytes) true
/-- Every page an index needs (Table 4.1). -/
def State.indexPages (s : State) (hash : Bool) (key : Nat) (x : Index) : List Need4 :=
  let i := key % 64
  ((if x.centroids.isEmpty then [] else centroidPages i x.p hash) ++
    (if x.codebook.isEmpty then [] else partPages (some i) .codebook 0 (x.p.entries * x.p.dim * 4) true) ++
    (if x.active then partPages (some i) .directory 0 (x.p.nlist * 64) true ++
        partPages (some i) .idMap 0 (256 * x.p.buckets) true else []) ++
    (s.blocksOf key).flatMap (fun b => blockPages i x.p hash b.1 b.2) ++
    partPages (some i) .versions 0 (32 * x.versions.length) false ++
    partPages (some i) .pendingStore 0 x.pendingBytes false).eraseDups
/-- Pages of the bitmaps: two images of the larger size (R185). -/
def Bitmap.pages (id : Nat) (b : Bitmap) : List Need4 :=
  let n := max b.staging.nbits (match b.published with
    | none => 0
    | some i => i.nbits)
  let k := ceilDiv (n / 8) pageSize
  (List.range (2 * k)).map (fun j => ⟨none, .bitmap id, 0, j, true⟩)
/-- Pages of a loaded program: image, saved tile files and scratch pages (R410). -/
def Program.pages (id : Nat) (p : Program) : List Need4 :=
  partPages none (.program id) 0 p.image.length true ++
    partPages none (.tileFile id) 0 (num p.image 6 2 * 8704) true ++
    (List.range (num p.image 32 4)).map (fun j => ⟨none, .scratch id, 0, j, true⟩)
/-- R191, R247 step 3: pages that COMMITs of the field have obtained and not yet written. -/
def State.obtained (s : State) (f : Nat) : List Need4 :=
  s.cmds.flatMap (fun c => match c.work with
    | .commit key _ extra _ => if key / 64 = f then extra else []
    | _ => [])
/-- Every page of field f but its check frames. -/
def State.needed (s : State) (f : Nat) : List Need4 :=
  match s.field? f with
  | none => []
  | some x =>
    (s.indexes.filter (fun p => p.1 / 64 == f)).flatMap (fun p => s.indexPages x.cfg.mapHash p.1 p.2) ++
      x.bitmaps.flatMap (fun b => b.2.pages b.1) ++ x.programs.flatMap (fun p => p.2.pages p.1) ++ s.obtained f
/-- The page is the one needed. -/
def Page.isFor (p : Page) (k : Need4) : Bool := p.index == k.index && p.part == k.part && p.half == k.half && p.n == k.n

/-! ### Pins -/

/-- A page of a block lies in the scope of the lists from `first`. -/
def State.holdsLists (s : State) (f : Nat) (hash : Bool) (k : Need4) (first count : Nat) : Bool :=
  match k.index with
  | none => false
  | some i => match s.index? f i with
    | none => false
    | some x => (s.blocksOf (indexKey f i)).any (fun b =>
        first ≤ b.2 && b.2 < first + count && (blockPages i x.p hash b.1 b.2).any (fun n =>
          n.part == k.part && n.half == k.half && n.n == k.n))
/-- Version records of a page of the version log: 65,536 records of 32 bytes. -/
def Index.versionsIn (x : Index) (n : Nat) : List Version := (x.versions.drop (n * 65536)).take 65536
/-- A page of the version log holds records of the lists from `first`. -/
def State.versionsOfLists (s : State) (f : Nat) (k : Need4) (first count : Nat) : Bool :=
  match k.index with
  | none => false
  | some i => match s.index? f i with
    | none => false
    | some x => (x.versionsIn k.n).any (fun v => first ≤ v.list && v.list < first + count)
/-- R190: a page lies in a pin's scope; R193: or is one of those kept pinned for queries. -/
def State.inScope (s : State) (f : Nat) (hash : Bool) (k : Need4) (p : Pin) : Bool :=
  if p.forQueries.isSome then p.kept.contains (k.part, k.half, k.n)
  else if p.scope = 0 then k.part == .centroids || k.part == .codebook
  else if p.scope = 2 then true
  else match k.part with
    | .scan | .full | .tombstones | .blockTable => s.holdsLists f hash k p.first p.count
    | .versions => s.versionsOfLists f k p.first p.count
    | _ => false
/-- Pins of the index a page belongs to that cover the page, newest first. -/
def State.pinsOf (s : State) (f : Nat) (hash : Bool) (k : Need4) : List Pin :=
  match k.index with
  | none => []
  | some i => match s.index? f i with
    | none => []
    | some x => x.pins.filter (s.inScope f hash k)
/-- R190, R193, R536: whether covering pins hold a page in GDDR and in the Granary. -/
def pinned (ps : List Pin) : Bool × Bool :=
  let own := ps.filter (fun p => p.forQueries.isNone)
  let kept := ps.filter (fun p => p.forQueries.isSome)
  let r := (own.find? (fun p => p.granary)).any (fun p => p.on) || kept.any (fun p => p.granary)
  ((own.find? (fun p => p.gddr)).any (fun p => p.on) || !kept.isEmpty || r, r)

/-! ### Frames -/

/-- R503: units of 128 KiB in a channel. -/
def State.unitsPerChannel (s : State) : Nat := s.channelMib * 8
/-- Locations of every page on the device. -/
def State.locs (s : State) : List Loc := s.fields.flatMap (fun f => f.2.pages.map (fun p => p.loc))
/-- Units that a location occupies in the channels of a half. -/
def Loc.units (l : Loc) (half : Nat) : List Nat :=
  match l with
  | .hash f => [f]
  | .near h f => if h = half then [2 * f, 2 * f + 1] else []
  | .pool _ => []
/-- The page lies in a GDDR frame. -/
def Page.inGddr (p : Page) : Bool :=
  match p.loc with
  | .pool _ => false
  | _ => true
/-- Units in use in the channels of a half. -/
def State.usedUnits (s : State) (half : Nat) : List Nat := s.locs.flatMap (fun l => l.units half)
/-- Every channel pair of a half is in service. -/
def State.halfWhole (s : State) (half : Nat) : Bool :=
  ([0, 1, 2, 3] : List Nat).all (fun p => s.unitState 10 (4 * half + p) == 0)
/-- The highest free number below n. -/
def highestFree (used : List Nat) : Nat → Option Nat
  | 0 => none
  | n + 1 => if used.contains n then highestFree used n else some n
/-- R503: a free HASH frame. -/
def State.freeHash (s : State) : Option Loc :=
  if !s.halfWhole 0 || !s.halfWhole 1 then none
  else
    let used := s.usedUnits 0 ++ s.usedUnits 1
    let f := lowestFree used (used.length + 1) 0
    if f < s.unitsPerChannel then some (.hash f) else none
/-- R503, R507: a free NEAR frame of a half. -/
def State.freeNear (s : State) (half : Nat) : Option Loc :=
  if !s.halfWhole half then none
  else match highestFree ((s.usedUnits half).map (fun u => u / 2)) (s.unitsPerChannel / 2) with
    | none => none
    | some f => some (.near half f)
/-- Frames of the field in a half. -/
def Field.inHalf (x : Field) (half : Nat) : Nat :=
  (x.pages.filter (fun p => match p.loc with
    | .near h _ => h == half
    | _ => false)).length
/-- GDDR frames of the field. -/
def Field.frames (x : Field) : Nat :=
  (x.pages.filter (fun p => match p.loc with
    | .pool _ => false
    | _ => true)).length
/-- Check frames of the field. -/
def Field.checks (x : Field) : Nat := (x.pages.filter (fun p => p.part == .check)).length
/-- R497: check frames for d data frames. -/
def checksFor (x : FieldCfg) (d : Nat) : Nat := if x.ecc then ceilDiv d 31 else 0
/-- R505: the half a page prefers: that of its list, or the one in which the field holds fewer frames. -/
def Field.wantHalf (x : Field) (part : Part) (half : Nat) : Nat :=
  match part with
  | .scan | .full | .centroids => half
  | _ => if x.inHalf 1 < x.inHalf 0 then 1 else 0
/-- R503, R505, R507: a free frame for a page of the field. -/
def State.freeFrame (s : State) (x : Field) (part : Part) (half : Nat) : Option Loc :=
  if x.cfg.mapHash then s.freeHash
  else
    let h := x.wantHalf part half
    (s.freeNear h).orElse (fun _ => s.freeNear (1 - h))
/-- The field with a new page in its lowest free page number; `loose` marks one that its pin cannot hold (R191). -/
def Field.addPage (x : Field) (k : Need4) (loc : Loc) (now : Nat) (loose : Bool) : Field :=
  let used := x.pages.map (fun p => p.num)
  { x with pages := x.pages ++
    [⟨lowestFree used (used.length + 1) 0, k.index, k.part, k.half, k.n, loc, none, false, false, true, now, false, loose⟩] }
/-- R497, R783: a frame for a page of field f, with a check frame where one more is due; none where the quota or
the frames do not allow it. -/
def State.frameFor (s : State) (f : Nat) (part : Part) (half : Nat) : Option (State × Loc) :=
  match s.field? f with
  | none => none
  | some x =>
    let d := x.frames - x.checks + 1
    let due := checksFor x.cfg d
    if x.cfg.gddrPages < d + max due x.checks then none
    else
      let t := if x.checks < due then
        match s.freeFrame x .check 0 with
        | none => none
        | some l => some (s.setField f (x.addPage ⟨none, .check, 0, x.checks, true⟩ l s.tbk false))
      else some s
      match t with
      | none => none
      | some t => match t.field? f with
        | none => none
        | some y => match t.freeFrame y part half with
          | none => none
          | some l => some (t, l)
/-- Pool pages that hold no page, nor are the slot of one (R189, R477). -/
def Field.freeSlots (x : Field) : List (BitVec 64) :=
  x.pool.filter (fun a => !x.pages.any (fun p => p.loc == .pool a || p.slot == some a))
/-- R231, R477: the free slot of the field's pool with the lowest address. -/
def Field.freeSlot (x : Field) : Option Loc := (argMin (fun (a : BitVec 64) => a.toNat) x.freeSlots).map Loc.pool
/-- One needed page allocated: in GDDR while the quota allows, else in the pool where the page may lie there. A mutation
is not refused for its pin: a page of the pending store may lie in the pool although a pin covers it (R191). -/
def State.allocPage (s : State) (f : Nat) (k : Need4) : Option State :=
  match s.field? f with
  | none => none
  | some x =>
    match s.frameFor f k.part k.half with
    | some (t, l) => some (t.modField f (fun y => y.addPage k l s.tbk false))
    | none =>
      let pin := (pinned (s.pinsOf f x.cfg.mapHash k)).1
      if k.gddr || (pin && k.part != .pendingStore) then none
      else match x.freeSlot with
        | none => none
        | some l => some (s.setField f (x.addPage k l s.tbk pin))
/-- A page of a pinned scope that lies in the pool moved to GDDR (R190). -/
def State.liftPage (s : State) (f : Nat) (p : Page) : Option State :=
  match p.loc with
  | .pool _ => match s.frameFor f p.part p.half with
    | none => none
    | some (t, l) => some (t.modField f (fun y => { y with pages := y.pages.map (fun q =>
        if q.num = p.num then { q with loc := l, lastUse := s.tbk } else q) }))
  | _ => some s

/-! ### Granary lines -/

/-- XOR of the n-bit groups of a number. -/
def xorGroups (n : Nat) : Nat → Nat → Nat
  | 0, _ => 0
  | f + 1, x => if x = 0 then 0 else (x % 2 ^ n) ^^^ xorGroups n f (x / 2 ^ n)
/-- R504: channel and channel line of line u of a frame. -/
def Loc.place (l : Loc) (u : Nat) : Option (Nat × Nat) :=
  match l with
  | .hash f => some (u % 16 ^^^ u / 64 % 16 ^^^ u / 1024 % 8 ^^^ xorGroups 4 32 f, 512 * f + u / 16 % 512)
  | .near h f => some (8 * h + (u % 8 ^^^ u / 32 % 8 ^^^ u / 256 % 8 ^^^ u / 2048 % 4 ^^^ xorGroups 3 32 f),
      1024 * f + u / 8 % 1024)
  | .pool _ => none
/-- Parity of a number. -/
def parity (n : Nat) : Nat := xorGroups 1 64 n
/-- R521: the set of a line. -/
def setOf (j : Nat) : Nat := j / 4 % 128 ^^^ j / 512 % 128 ^^^ j / 65536 % 128 ^^^ j / 8388608 % 4
/-- Slices of field f in service, ascending (R520). -/
def State.ownedSlices (s : State) (f : Nat) : List Nat :=
  match s.field? f with
  | none => []
  | some x => (List.range 32).filter (fun n => x.slices.getLsbD n && s.placeable 9 n)
/-- R519, R520: the home slice of a line of field f. -/
def State.home (s : State) (f c j : Nat) : Nat :=
  if s.ownership then
    let o := s.ownedSlices f
    let h := (j / 4 ^^^ 4096 * c) % 65536
    o.getD (o.length * h / 65536) 0
  else
    let n := 2 * c + parity (j / 4 % 2 ^ 23)
    if s.placeable 9 n then n else n ^^^ 1
/-- The lines of a page: channel and channel line. -/
def Page.lines (p : Page) : List (Nat × Nat) := (List.range 8192).filterMap p.loc.place
/-- Sets that the Granary-pinned lines of every field take, as (field, slice · 128 + set). -/
def State.pinnedSets (s : State) : List (Nat × Nat) :=
  s.fields.flatMap (fun f => (f.2.pages.filter (fun p => p.pinGranary)).flatMap (fun p =>
    p.lines.map (fun cj => (f.1, s.home f.1 cj.1 cj.2 * 128 + setOf cj.2))))
/-- Sets of the lines of pages of field f, as in `pinnedSets`. -/
def State.setsOf (s : State) (f : Nat) (ps : List Page) : List (Nat × Nat) :=
  ps.flatMap (fun p => p.lines.map (fun cj => (f, s.home f cj.1 cj.2 * 128 + setOf cj.2)))
/-- R535: the way limits hold in some sets of fields. -/
def State.setsFit (s : State) (es : List (Nat × Nat)) : Bool :=
  let l := s.pinnedSets
  es.all (fun e => (l.filter (fun d => d.2 == e.2)).length ≤ 16 &&
    (l.filter (fun d => d == e)).length ≤ 20 * (s.cfg e.1).pinPct / 100)
/-- R535: the way limits hold in the sets of the pages of field f that p names. Pins in other sets do not count: those that
an APPLY of a lower `pin_pct` leaves above its limit stay (log 100). -/
def State.pinsFit (s : State) (f : Nat) (p : Page → Bool) : Bool :=
  match s.field? f with
  | none => true
  | some x => s.setsFit (s.setsOf f (x.pages.filter (fun q => q.pinGranary && p q)))
/-- A line that a pin brings into its home slice, stored RAW (R537). -/
def State.pinnedLine (s : State) (f : Nat) (cj : Nat × Nat) : Line :=
  { slice := s.home f cj.1 cj.2, channel := cj.1, j := cj.2, field := f, dir := .U, sharers := [], pend := none
    dirty := false, pinned := true, fmt := 0, companion := false }
/-- The line is that of a channel and channel line. -/
def Line.at_ (l : Line) (cj : Nat × Nat) : Bool := l.channel == cj.1 && l.j == cj.2
/-- R537, R538: the lines of Granary-pinned pages of field f are in their home slices and pinned; those of other
pages are ordinary lines. -/
def State.pinLines (s : State) (f : Nat) : State :=
  match s.field? f with
  | none => s
  | some x =>
    let want := (x.pages.filter (fun p => p.pinGranary)).flatMap Page.lines
    if want.isEmpty && !s.granary.any (fun l => l.field == f && l.pinned) then s
    else
      let kept := s.granary.map (fun l =>
        if l.field = f then
          (if want.any l.at_ then { l with pinned := true, fmt := 0 } else { l with pinned := false }) else l)
      let missing := want.filter (fun cj => !s.granary.any (fun l => l.at_ cj))
      { s with granary := missing.map (s.pinnedLine f) ++ kept }

/-! ### Pages brought in step with what the field holds -/

/-- The page as a need. -/
def Page.need (p : Page) : Need4 := ⟨p.index, p.part, p.half, p.n, false⟩
/-- The pin flags of a page as its covering pins say; a loose page is pinned only where it lies in GDDR, and not in the
Granary (R191). -/
def Page.marked (p : Page) (b : Bool × Bool) : Page :=
  let g := b.1 && (p.inGddr || !p.loose)
  { p with
    pinGddr := g, pinGranary := b.2 && !p.loose, slot := if g then none else p.slot, changed := p.changed || (g && p.slot.isSome) }
/-- The pin flags of the pages of field f as the pins say (R190, R191, R193). -/
def State.markPins (s : State) (f : Nat) : State :=
  s.modField f (fun x => { x with pages := x.pages.map (fun p => p.marked (pinned (s.pinsOf f x.cfg.mapHash p.need))) })
/-- R786: lists of the field passed over for want of memory may be taken again. -/
def State.memoryFreed (s : State) (f : Nat) : State :=
  { s with compactQueue := s.compactQueue.map (fun w => if w.key / 64 = f then { w with passedOver := false } else w) }
/-- The pages of field f that p names have changed (R477). -/
def State.markChanged (s : State) (f : Nat) (p : Page → Bool) : State :=
  s.modField f (fun x => { x with pages := x.pages.map (fun q => if p q then { q with changed := true, lastUse := s.tbk } else q) })
/-- The frame of a line. -/
def Loc.holds (l : Loc) (c j : Nat) : Bool :=
  match l with
  | .hash f => j / 512 == f
  | .near h f => c / 8 == h && j / 1024 == f
  | .pool _ => false
/-- Check frames beyond R497 given up, the highest first. -/
def Field.trimChecks (x : Field) : Field :=
  let n := checksFor x.cfg (x.frames - x.checks)
  { x with pages := x.pages.filter (fun p => p.part != .check || p.n < n) }
/-- Pages of field f that p names freed, with their Granary lines and bad chunks. -/
def State.freePages (s : State) (f : Nat) (p : Page → Bool) : State :=
  match s.field? f with
  | none => s
  | some x =>
    let gone := x.pages.filter p
    if gone.isEmpty then s
    else
      let s := s.setField f { x with pages := x.pages.filter (fun q => !p q) }.trimChecks
      let s := { s with badChunks := s.badChunks.filter (fun b => !(b.1 == f && gone.any (fun q => q.num == b.2.1))) }
      (s.withLines (s.granary.filter (fun l => !(l.field == f && gone.any (fun q => q.loc.holds l.channel l.j))))).memoryFreed f
/-- Pages of field f that nothing needs any more freed. -/
def State.freeUnneeded (s : State) (f : Nat) : State :=
  let need := s.needed f
  s.freePages f (fun p => p.part != .check && !need.any p.isFor)
/-- Every needed page allocated; none where one cannot be. -/
def State.allocNeeded (s : State) (f : Nat) : Option State :=
  let have_ := match s.field? f with
    | none => []
    | some x => x.pages
  ((s.needed f).filter (fun k => !have_.any (fun p => p.isFor k))).foldl
    (fun t k => match t with
      | none => none
      | some t => t.allocPage f k) (some s)
/-- Every page of a pinned scope in GDDR; none where one cannot be. -/
def State.liftPinned (s : State) (f : Nat) : Option State :=
  match s.field? f with
  | none => some s
  | some x => (x.pages.filter (fun p => p.pinGddr)).foldl
    (fun t p => match t with
      | none => none
      | some t => t.liftPage f p) (some s)
/-- The pages of field f freed, allocated, marked as pinned and moved to GDDR where pinned; none where memory does not
suffice. -/
def State.syncCapacity (s : State) (f : Nat) : Option State :=
  match (s.freeUnneeded f).allocNeeded f with
  | none => none
  | some t => (t.markPins f).liftPinned f
/-- A page of field f whose lines are already pinned in the Granary. -/
def State.granaryPinned (s : State) (f : Nat) (p : Page) : Bool :=
  match s.field? f with
  | none => false
  | some x => x.pages.any (fun q => q.num == p.num && q.pinGranary)
/-- The pages of field f brought in step with what it holds: freed, allocated, pinned. None where memory does not suffice,
or where a page that joins a Granary-pinned scope breaks a way limit (R191, R535). -/
def State.syncPages (s : State) (f : Nat) : Option State :=
  match s.syncCapacity f with
  | none => none
  | some u => if u.pinsFit f (fun p => !s.granaryPinned f p) then some (u.pinLines f) else none
/-- R191: a page of the pending store that has just joined a pinned scope is left out of the Granary where its lines would
break a way limit: a mutation is not refused for it. -/
def State.loosen (s : State) (f : Nat) (old : State) : State :=
  let new := fun (p : Page) => p.pinGranary && p.part == .pendingStore && !old.granaryPinned f p
  if s.pinsFit f new then s
  else s.modField f (fun x => { x with pages := x.pages.map (fun p =>
    if new p then { p with loose := true, pinGranary := false } else p) })
/-- R161, R191: the pages of field f brought in step with a new mutation. -/
def State.syncMutation (s : State) (f : Nat) : Option State := (s.syncCapacity f).map (fun u => (u.loosen f s).pinLines f)
/-- R190: the pages of field f in a pin's scope are held by it from now on, those that a mutation left loose too. -/
def State.tighten (s : State) (f : Nat) (q : Pin) : State :=
  s.modField f (fun x => { x with pages := x.pages.map (fun p =>
    if s.inScope f x.cfg.mapHash p.need q then { p with loose := false } else p) })
/-- Pages freed and pins renewed after something went: no page is allocated. -/
def State.releasePages (s : State) (f : Nat) : State := ((s.freeUnneeded f).markPins f).pinLines f

end Sys2Proof.Machine
end

