-- ==== Sys2Proof/Machine/Release.lean ====
section
/-! DEFINITION. How commands end other than by their own work: a field reset, a withdrawn unit, a
hardware fault or a function-level reset releases what the command holds. -/

namespace Sys2Proof.Machine

/-! ### Queries -/

/-- The query belongs to the command (ring, seq). -/
def QRef.of (r : QRef) (ring : Nat) (seq : BitVec 48) : Bool := r.ring == ring && r.seq == seq

/-- A window without the queries that p names. -/
def Window.without (w : Window) (p : QRef → Bool) : Window :=
  { w with
    queries := w.queries.filter (fun q => !p q)
    passes := (w.passes.map (fun x => { x with visitors := x.visitors.filter (fun q => !p q) })).filter
      (fun x => !x.visitors.isEmpty) }

/-- R473: an old rate ends with the last class C query admitted before its change. -/
def State.settleRate (s : State) (f : Nat) : State :=
  s.modField f (fun x => { x with keepRates := x.keepRates.filter (fun r =>
    s.queries.any (fun q => q.field == f && q.cls == 0 && q.admitted / 10000 < r.2)) })

/-- R193: a pin kept for queries without those that p names; none when it ends. -/
def Pin.without (p : QRef → Bool) (x : Pin) : Option Pin :=
  match x.forQueries with
  | none => some x
  | some l =>
    let l := l.filter (fun r => !p r)
    if l.isEmpty then none else some { x with forQueries := some l }

/-- The queries that p names leave the query path: their windows, tables, ledger entries, kept pins and halted
streams' contexts (R193, R482). -/
def State.dropQueries (s : State) (p : QRef → Bool) : State :=
  let fs := (s.queries.filter (fun q => p q.ref)).map (fun q => q.field)
  let s := { s with
    queries := s.queries.filter (fun q => !p q.ref)
    ledger := s.ledger.filter (fun e => !p e.ref)
    windows := FMap.mapVals s.windows (fun _ w => w.without p)
    cores := FMap.mapVals s.cores (fun _ c => { c with tables := c.tables.filter (fun t => !p t.ref) })
    indexes := FMap.mapVals s.indexes (fun _ x => { x with pins := x.pins.filterMap (Pin.without p) }) }
  let s := { s with
    windows := s.windows.filter (fun w => !w.2.queries.isEmpty)
    streams := s.streams.filter (fun x => match x.2.reader with
      | .rerank r => !p r
      | .pass w l e => (match FMap.get? s.windows w with
        | none => false
        | some y => y.passes.any (fun z => z.list == l && z.e0 == e))
      | _ => true) }
  fs.foldl (fun s f => (s.settleRate f).releasePages f) s

/-! ### Program runs -/

/-- Table 7.8 `exit` of a core at the end of its run: 0 halted, 1 a thread trapped, and the code given
for a core still running (2 preempted, 3 withdrawn). A core on which the run never started has that code too (log 44). -/
def Core.exitCode (c : Core) (started : Bool) (still : Nat) : Nat :=
  if !started || c.threads.any (fun t => t.2.status == .running) then still
  else if c.firstTrap.isSome then 1 else 0

/-- Table 7.8: one core's entry of the reply. -/
def Core.exitEntry (c : Core) (started : Bool) (still cycles : Nat) : Bytes :=
  let e : Nat × Nat × Nat := match c.firstTrap with
    | none => (0, 0, 0)
    | some (t, cause, pc) => (t, cause, pc.toNat)
  leBytes 1 (c.exitCode started still) ++ leBytes 1 e.2.1 ++ leBytes 1 e.1 ++ zeros 1 ++ leBytes 2 e.2.2 ++ zeros 2 ++
    leBytes 8 cycles

/-- The run has its cores' memories and registers: it has started. -/
def Run.started (x : Run) : Bool := x.phase == .running
/-- The physical core of run-logical core n, with cleared memories where the run has not started (R423, log 44). -/
def State.runCore (s : State) (x : Run) (n : Nat) : Core :=
  match x.cores[n]? with
  | none => Core.reset
  | some c => if x.started then s.core c else Core.reset

/-- Table 7.8: the reply of a run; `withdrawn` is the core that a forced fallow takes (R426). A run that ends before it
starts reports a slice start of 0, no cycles and no output but zeros (log 44). -/
def State.runReply (s : State) (x : Run) (image : Bytes) (withdrawn : Option Nat) (cycles : List Nat) : Bytes :=
  let outOff := num image 36 4
  let outLen := num image 40 4
  let cyc := fun n => cycles.getD n 0
  leBytes 2 x.nCores ++ zeros 6 ++ leBytes 8 x.tStart ++ leBytes 8 s.tbk ++ leBytes 8 (maxBy (fun n => n) cycles) ++
    zeros 32 ++
    (List.range x.nCores).flatMap (fun n =>
      (s.runCore x n).exitEntry x.started (if withdrawn.isSome && withdrawn == x.cores[n]? then 3 else 2) (cyc n)) ++
    (List.range x.nCores).flatMap (fun n => Mem.readN 0 (s.runCore x n).mem outOff outLen)

/-- R428: OR of the FLAGS of all threads of a run. -/
def State.runFlags (s : State) (x : Run) : Flags :=
  x.cores.foldl (fun f c => (s.core c).threads.foldl (fun f t => f ||| t.2.flags) f) (flIf x.paged flPAGED)

/-- R423: a core released by its run: cleared, with the query tables placed on it kept. -/
def Core.released (c : Core) : Core := { Core.reset with tables := c.tables }

/-- R425: the stream writes that a run has issued complete. -/
def State.landIssued (s : State) (id : Nat) (x : Run) : State :=
  let ws := (s.streams.filter (fun y => y.2.run == some id)).flatMap (fun y => y.2.issued.flatMap (fun t => t.2))
  s.modField x.field (fun f => match FMap.get? f.programs x.prog with
    | none => f
    | some p => { f with programs := FMap.set f.programs x.prog { p with
        scratch := ws.foldl (fun m w => Mem.write 0 m w.1 w.2) p.scratch } })
/-- R199, R423: the tile files of a run saved, its cores cleared and released, its streams and messages
gone; reads in flight are discarded and writes issued complete (R425). -/
def State.releaseRun (s : State) (id : Nat) (x : Run) : State :=
  let s := if x.phase = .running then s.modField x.field (fun f =>
    match FMap.get? f.programs x.prog with
    | none => f
    | some p => { f with programs := FMap.set f.programs x.prog { p with
        tiles := (List.range x.cores.length).foldl (fun m n => FMap.set m n (s.core (x.cores.getD n 0)).tile) p.tiles
        scales := (List.range x.cores.length).foldl (fun m n => FMap.set m n (s.core (x.cores.getD n 0)).scale) p.scales } })
    else s
  let s := s.landIssued id x
  let s := x.cores.foldl (fun s c => s.setCore c (s.core c).released) s
  let s := s.countField x.field 16 (sumBy (fun y => if y.2.run = some id then y.2.ahead else 0) s.streams)
  { s with
    runs := FMap.erase s.runs id
    messages := s.messages.filter (fun m => !x.cores.contains m.toCore)
    channels := FMap.mapVals s.channels (fun _ c => { c with queue := c.queue.filter (fun q =>
      (q.write || !s.streams.any (fun y => y.1 == q.stream && y.2.run == some id)) &&
        !(q.narrow && x.cores.any (fun c => q.unit == unitKey 0 c))) })
    streams := s.streams.filter (fun y => y.2.run != some id) }

/-- R427: a run ends, for whatever reason: the reply is written, the cores are released and the command completes; a
failed write of the reply gives ST_DMA_WRITE (R117). -/
def State.endRun (s : State) (id : Nat) (c : Cmd) (status : Nat) (withdrawn : Option Nat) (cycles : List Nat)
    (replyOk recordOk : Bool) : State :=
  match FMap.get? s.runs id with
  | none => s.finish c status 0 0 c.flags recordOk
  | some x =>
    let image := match s.field? x.field with
      | none => []
      | some f => match FMap.get? f.programs x.prog with
        | none => []
        | some p => p.image
    let fl := s.runFlags x
    let t := if replyOk then s.writeReply c [(num c.pkt 24 8, s.runReply x image withdrawn cycles)] else s
    let status := if replyOk then status else stDMA_WRITE
    (t.releaseRun id x).finish c status (min (maxBy (fun n => n) cycles) (2 ^ 64 - 1)) 0 fl recordOk

/-- Cores on which a run has started. -/
def State.startedCores (s : State) (id : Nat) : Nat :=
  match FMap.get? s.runs id with
  | none => 0
  | some x => if x.started then x.cores.length else 0

/-- Cycle counts of a run that the manual leaves to time: free values, one per core (log 10). -/
def State.freeCycles (s : State) (n : Nat) : List Nat :=
  (List.range n).map (fun i => (Config.free64 (s.fresh + i)).toNat)

/-! ### Commands -/

/-- R88: the flags that the queries of a command have raised so far. -/
def State.queryFlags (s : State) (c : Cmd) : Flags :=
  s.queries.foldl (fun f q => if q.ref.of c.ring c.seq then f ||| q.flags else f) c.flags

/-- R244, R249: a mutation that ends with a status other than ST_SUCCESS leaves the pending state; a COMMIT gives back what
it has obtained. -/
def State.undo (s : State) (c : Cmd) : State :=
  let f := ringFn c.ring
  match c.work with
  | .reading _ =>
    let gone := fun (m : Mutation) => m.ring == c.ring && m.seq == c.seq
    if s.indexes.any (fun x => x.2.pending.any gone) then
      ({ s with indexes := FMap.mapVals s.indexes (fun _ x => { x with pending := x.pending.filter (fun m => !gone m) }) }).releasePages f
    else s
  | .commit key upTo _ _ =>
    (s.setCmds (s.cmds.map (fun d => if d.is c.ring c.seq then { d with work := .commit key upTo [] [] } else d))).releasePages f
  | _ => s
/-- A command stopped with a status: what it holds is released first; the flags that it has raised stand in its record
(R88). Whether its reply and its record can be written is no operand here: both are free (log 28). -/
def State.stopCmd (s : State) (c : Cmd) (status : Nat) (withdrawn : Option Nat) : State :=
  let replyOk := Config.freeBool s.fresh
  let recordOk := Config.freeBool (s.fresh + 1)
  let s := { s with fresh := s.fresh + 2 }
  match c.work with
  | .search =>
    let fl := s.queryFlags c
    (s.dropQueries (fun r => r.of c.ring c.seq)).finish c status 0 c.bound.toNat fl recordOk
  | .run id =>
    let n := s.startedCores id
    ({ s with fresh := s.fresh + n }).endRun id c status withdrawn (s.freeCycles n) replyOk recordOk
  | .till u =>
    let r := s.unit (u / 256) (u % 256)
    (s.setUnit (u / 256) (u % 256) { r with state := r.before }).finish c status 0 0 c.flags recordOk
  | _ => (s.undo c).finish c status 0 0 c.flags recordOk

/-- Every outstanding command that p names stopped with a status. -/
def State.stopCmds (s : State) (p : Cmd → Bool) (status : Nat) : State :=
  (s.cmds.filter p).foldl (fun s c => s.stopCmd c status none) s

/-- Rings of field f. -/
def ringsOf (f : Nat) : List Nat := (List.range 8).map (fun r => f * 8 + r)

/-- The index without its pending mutations and its holds (R118 step 3). -/
def Index.fieldReset (x : Index) : Index := { x with pending := [], holds := [] }

/-- R118, R119: a field reset. -/
def State.fieldReset (s : State) (f : Nat) : State :=
  let s := s.stopCmds (fun c => c.ring != adminRing && ringFn c.ring == f) stFIELD_RESET
  let s := { s with indexes := FMap.mapVals s.indexes (fun k x => if k / 64 = f then x.fieldReset else x) }
  let s := (ringsOf f).foldl (fun s r => s.setRing r (s.ring r).cleared) s
  if f = 0 then s else s.setEvent f 1

/-- A command ended without a record and without a reply: its ring is in a reset while it ends (R120). -/
def State.dropCmd (s : State) (c : Cmd) : State :=
  let s := s.setRing c.ring { s.ring c.ring with resetting := true }
  match c.work with
  | .run id => (match FMap.get? s.runs id with
    | none => s
    | some x => s.releaseRun id x).finish c 0 0 0 c.flags true
  | _ => s.stopCmd c 0 none

/-- Commands ended without a record and without a reply (R120, R758). -/
def State.dropCmds (s : State) (p : Cmd → Bool) : State := (s.cmds.filter p).foldl State.dropCmd s

/-- Settings of the perturbation controls that p keeps; the count in force goes with them (R723). -/
def Pert.keep (x : Pert) (p : Setting → Bool) : Pert := { x with slots := x.slots.filter (fun y => p y.2) }

/-- What goes with the indexes whose keys p names: their compactions, windows and streams. -/
def State.dropIndexes (s : State) (p : Nat → Bool) : State :=
  { s with
    indexes := s.indexes.filter (fun x => !p x.1)
    compactQueue := s.compactQueue.filter (fun w => !p w.key)
    evaporators := s.evaporators.filter (fun e => !p e.2.key)
    served := s.served.filter (fun j => !p (indexKey j.2.query.field j.2.query.index)) }

/-- R144, R758: a field is deleted with its indexes, pins, holds, pages and controls, and its pool pages
return to the host. -/
def State.removeField (s : State) (f : Nat) : State :=
  let pool := match s.field? f with
    | none => []
    | some x => x.pool
  let s := s.dropIndexes (fun k => k / 64 == f)
  let s := { s with
    fields := FMap.erase s.fields f
    rings := s.rings.filter (fun x => x.1 == adminRing || x.1 / 8 != f)
    streams := s.streams.filter (fun x => x.2.field != f)
    channels := FMap.mapVals s.channels (fun _ c => { c with queue := c.queue.filter (fun q => q.field != f) })
    badChunks := s.badChunks.filter (fun x => x.1 != f)
    pert := s.pert.keep (fun y => y.field != f) }
  let s := s.withLines (s.granary.filter (fun l => l.field != f))
  if pool.isEmpty then s else s.emit (.poolReturned f pool)

end Sys2Proof.Machine
end

