-- ==== Sys2Proof/Machine/Rings.lean ====
section
/-! DEFINITION. Rings: doorbells, RING_CTL, packet fetch, ring errors and interrupt coalescing
(02_rings_and_packets). -/

namespace Sys2Proof.Machine

/-- The device is powered, out of reset and clocked (R740, R757). -/
def State.up (s : State) : Bool :=
  s.board.powered && s.board.sysResetN && s.board.perstN && !s.board.clocksStopped

/-- The registers of a ring are served: the firmware runs (R697), the ring's field exists (log 29) and, for the
admin ring, no device-fatal error has occurred (R698). -/
def State.ringServed (s : State) (r : Nat) : Bool :=
  s.up && s.board.pcie && s.trust.bootCode == 0 && (if r = adminRing then !s.glob.fatal else s.fieldExists (r / 8))

/-- Distance forward from slot a to slot b modulo n. -/
def ahead (a b n : Nat) : Nat := (b + n - a % n) % n

/-- R114: doorbells are checked and stored only while the ring is enabled, without error or reset. -/
def Ring.listening (x : Ring) : Bool := x.enable && !x.error && !x.resetting

/-- R114: a write to SQ_TAIL. -/
def State.writeTail (s : State) (r : Nat) (v : BitVec 16) : State :=
  let x := s.ring r
  if !s.ringServed r || !x.listening then s
  else if v.toNat < x.n && ahead x.tail.toNat v.toNat x.n ≤ ahead x.tail.toNat (x.sqHead.toNat + x.n - 1) x.n then
    s.setRing r { x with tail := v }
  else s.ringError r 1

/-- R92, R114: a write to CQ_HEAD. -/
def State.writeHead (s : State) (r : Nat) (v : BitVec 16) : State :=
  let x := s.ring r
  if !s.ringServed r || !x.listening then s
  else if v.toNat < x.n && ahead x.head.toNat v.toNat x.n ≤ ahead x.head.toNat x.cqTail.toNat x.n then
    s.setRing r { x with head := v, unconsumed := x.unconsumed - ahead x.head.toNat v.toNat x.n }
  else s.ringError r 1

/-- R77: a ring reset. -/
def State.resetRing (s : State) (r : Nat) : State :=
  (s.setRing r { s.ring r with resetting := true }).settleRing r

/-- R74: the ring configuration is valid. -/
def Ring.configValid (x : Ring) : Bool :=
  6 ≤ x.log2.toNat && x.log2.toNat ≤ 16 && x.sqBase.toNat % 4096 == 0 && x.cqBase.toNat % 4096 == 0

/-- R74, R89, R100: a ring put in service: a first pass begins with phase 1; the next record takes the next completion
slot (log 30). -/
def Ring.started (x : Ring) : Ring :=
  { x with enable := true, phase := true, cqTail := BitVec.ofNat 16 (x.cqTail.toNat % x.n) }

/-- R73: the bases, `log2_entries` and `prio` of a ring can be written: `enable` is 0 and `idle` is 1. -/
def State.ringWritable (s : State) (r : Nat) : Bool := !(s.ring r).enable && s.ringIdle r

/-- RING_CTL as it reads (Table 2.1). -/
def Ring.ctl (x : Ring) : BitVec 32 :=
  BitVec.ofNat 32 (16 * x.log2.toNat + 4 * x.prio.toNat + if x.enable then 1 else 0)

/-- Table 2.1 RING_CTL: `log2_entries` and `prio` under R73; then `reset` under R77, which leaves `enable` 0 whatever
the same write gives it; else `enable` under R74. A write that clears `enable` without `reset` only stops fetching and
doorbells: outstanding commands go on and their records are written (DEDUCED, log 30). -/
def State.writeRingCtl (s : State) (r : Nat) (v : BitVec 32) : State :=
  if !s.ringServed r then s
  else
    let x := s.ring r
    let x := if s.ringWritable r then { x with log2 := (v >>> 4).truncate 5, prio := (v >>> 2).truncate 2 } else x
    if v.getLsbD 1 then (s.setRing r x).resetRing r
    else if v.getLsbD 0 && !x.enable then
      if x.configValid then s.setRing r x.started
      else (s.setRing r { x with enable := true }).ringError r 4
    else s.setRing r { x with enable := v.getLsbD 0 }

/-- Executes SQ_TAIL_WRITE (R114). -/
def execSqTailWrite (ring : Nat) (value : BitVec 32) (s : State) : Result :=
  if adminRing < ring then .fault .noSuchUnit else .next (s.writeTail ring (value.truncate 16))

/-- Executes CQ_HEAD_WRITE (R92, R114). -/
def execCqHeadWrite (ring : Nat) (value : BitVec 32) (s : State) : Result :=
  if adminRing < ring then .fault .noSuchUnit else .next (s.writeHead ring (value.truncate 16))

/-- Executes RING_ENABLE: RING_CTL written with the value, `enable` set (R73, R74). -/
def execRingEnable (ring : Nat) (value : BitVec 32) (s : State) : Result :=
  if adminRing < ring then .fault .noSuchUnit else .next (s.writeRingCtl ring (value ||| 1#32))

/-- Executes RING_RESET: RING_CTL written with its other fields as they stand and `reset` set (R77). -/
def execRingReset (ring : Nat) (s : State) : Result :=
  if adminRing < ring then .fault .noSuchUnit else .next (s.writeRingCtl ring ((s.ring ring).ctl ||| 2#32))

/-- R75: effective priority of a field ring. -/
def State.effPrio (s : State) (r : Nat) : Nat := max (s.ring r).prio.toNat (s.cfg (r / 8)).prioFloor

/-- R105, R110, R681, R736: a ring is ready to be fetched from. -/
def State.ringReady (s : State) (r : Nat) : Bool :=
  let x := s.ring r
  s.ringServed r && x.listening && x.tail != x.sqHead &&
    !(s.cmdsOf r).any (fun c => c.fence) &&
    (s.cmdsOf r).length + x.unconsumed + 2 ≤ x.n &&
    !(s.fn (ringFn r)).d3hot &&
    !(r != adminRing && s.dutyHeld 1 (r / 8) r)

/-- Ready field rings of a priority level, ascending. -/
def State.readyAt (s : State) (level : Nat) : List Nat :=
  ((List.range 128).filter (fun r => FMap.get? s.rings r != none && s.effPrio r == level)).filter s.ringReady

/-- R107, R108: the level of the next field-ring fetch. -/
def State.fetchLevel (s : State) : Option Nat :=
  let levels := (List.range 4).filter (fun l => !(s.readyAt l).isEmpty)
  match levels.find? (fun l => l != 0 && 31 ≤ FMap.getD s.skip l 0) with
  | some l => some l
  | none => levels.head?

/-- R61: round-robin after the ring served last, from ring 0 at first (log 8). -/
def afterLast (last : Nat) (rs : List Nat) : Option Nat :=
  match rs.find? (fun r => last < r) with
  | some r => some r
  | none => rs.head?

/-- R106, R107: the ring fetched from next. -/
def State.nextRing (s : State) : Option Nat :=
  if s.ringReady adminRing then some adminRing
  else match s.fetchLevel with
    | none => none
    | some l => afterLast (FMap.getD s.lastServed l 127) (s.readyAt l)

/-- R108, R61: skip counts and round-robin after a fetch from ring r. -/
def State.serveLevel (s : State) (r : Nat) : State :=
  if r = adminRing then s
  else
    let l := s.effPrio r
    let lower := (List.range 4).filter (fun m => l < m && !(s.readyAt m).isEmpty)
    { s with
      skip := FMap.set (lower.foldl (fun k m => FMap.set k m (min 31 (FMap.getD k m 0 + 1))) s.skip) l 0
      lastServed := FMap.set s.lastServed l r }

/-- R72: address of the slot that a ring fetches next. -/
def Ring.slotAddr (x : Ring) : BitVec 64 := x.sqBase + BitVec.ofNat 64 (64 * (x.sqHead.toNat % x.n))

/-- R96, R98: a packet fetched from ring r; it reaches the Steward through crossing queue 0 (Table 14.5). -/
def State.fetchFrom (s : State) (r : Nat) (pkt : Bytes) : State :=
  let a := (s.serveLevel r).cross 0 (fit 64 pkt)
  let s := a.1
  let x := s.ring r
  let c : Cmd := ⟨r, x.seqNext, a.2, s.tbk, .fetched, 0, 0, false, none⟩
  let s := s.setRing r { x with
    sqHead := BitVec.ofNat 16 ((x.sqHead.toNat + 1) % x.n), seqNext := x.seqNext + 1 }
  let s := (s.setCmds (s.cmds ++ [c])).count 0 0 1
  let s := if r = adminRing then s else s.countField (r / 8) 0 1
  s.traceRec 0 (ringField r) noUnit (traceWord 0 0 r c.seq.toNat) (traceWord 0 1 c.opcode c.tag)

/-- Executes PACKET_FETCH: `data` is what the read of the slot returned, none when it failed (R107, R114). A failed read
counts as no fetch for skip counts, round-robin and sequence numbers (log 98). -/
def execPacketFetch (data : Option Bytes) (s : State) : Result :=
  if !s.serving then .next s
  else match s.nextRing with
    | none => .next s
    | some r =>
      let s := s.emit (.hostRead (ringFn r) (s.ring r).slotAddr 64)
      match data with
      | none => .next (s.ringError r 2)
      | some b => .next (s.fetchFrom r b)

/-- R115: the device-originated record is due. -/
def State.errorRecordDue (s : State) (r : Nat) : Bool :=
  let x := s.ring r
  x.error && x.errRecordDue && !x.resetting && (s.cmdsOf r).isEmpty && !s.glob.fatal

/-- Executes RING_ERROR_RECORD (R97, R115). -/
def execRingErrorRecord (ring : Nat) (recordOk : Bool) (s : State) : Result :=
  if adminRing < ring then .fault .noSuchUnit
  else if !s.errorRecordDue ring then .next s
  else
    let s := if (s.ring ring).cqWritable && recordOk then
      (s.writeRecord ring 0xFFFF stRING_ERROR 0 0xFFFF_FFFF_FFFF#48 0 0 0 false true).count 0 3 1 else s
    let s := s.setRing ring { s.ring ring with errRecordDue := false }
    .next (s.setEvent (ringFn ring) 0)

/-- Executes IRQ_COALESCE_TIMER (R80): TBK reaches the end of the time limit. -/
def execIrqCoalesceTimer (ring : Nat) (s : State) : Result :=
  if adminRing < ring then .fault .noSuchUnit
  else
    let x := s.ring ring
    match x.unsignalledSince with
    | none => .next s
    | some t =>
      if x.irqTime = 0 then .next s
      else .next ((s.advance (t + x.irqTime.toNat * 1000)).signalRing ring)

/-- Executes RESERVED_OPCODE: a packet with a reserved opcode is refused (R12, R113 step 1). -/
def execReservedOpcode (ring : Nat) (dma : Dma) (s : State) : Result :=
  if adminRing < ring then .fault .noSuchUnit
  else match s.nextPacket ring with
    | none => .next s
    | some c =>
      if (opSpec c.opcode).isSome || !s.unfenced c || !s.serving then .next s
      else .next (s.settle c dma (no stBAD_OPCODE))

/-- Executes NOP (R125). -/
def execNop (ring : Nat) (dma : Dma) (s : State) : Result :=
  s.runPacket 0x00 ring dma (fun _ s => yes s 0)

end Sys2Proof.Machine
end

