-- ==== Sys2Proof/Machine/Restart.lean ====
section
/-! DEFINITION. The warm Steward restart and the device-fatal error, which registers, units and errors
share (R664, R665, R761 to R763). -/

namespace Sys2Proof.Machine

/-- R665: a device-fatal error of a cause (Table 12.5). -/
def State.fatalError (s : State) (cause : Nat) : State :=
  if s.glob.fatal then s
  else
    let s := s.setGlob { s.glob with fatal := true, fatalCause := cause }
    let s := s.logEvent evDEVICE_FATAL 0xFF 5 noUnit [BitVec.ofNat 8 cause]
    let s := (s.setEvent 0 8).emit .aer
    s.setBoard { s.board with alertN := false }

/-- R706, R707: a warm Steward restart begins; the commands admitted so far will end with ST_HW_FAULT
(R762). -/
def State.startRestart (s : State) (byError : Bool) : State :=
  let s := s.setGlob { s.glob with
    restarting := true, restarts := s.glob.restarts + 1,
    lastRestart := if byError then some s.tbk else s.glob.lastRestart }
  let s := s.setCmds (s.cmds.map (fun c => if c.work = .fetched then c else { c with stopped := some 0x0103#16 }))
  let s := s.count 0 6 1
  s.logEvent evSTEWARD_RESTART 0xFF (if byError then 4 else Config.severity evSTEWARD_RESTART) noUnit (leBytes 8 s.glob.restarts)

/-- R706: a restart may be requested. -/
def State.mayRestart (s : State) : Bool :=
  s.up && s.trust.bootCode == 0 && !s.glob.fatal && !s.glob.restarting

/-- The Steward completes commands (R665, R762). -/
def State.completing (s : State) : Bool := s.up && s.serving

/-- R763: the cascade as a restarted or departing device sees it: state 0, with nothing outstanding. -/
def Cascade.left (x : Cascade) : Cascade := { Cascade.reset with standby := x.standby }

end Sys2Proof.Machine
end

