-- ==== Sys2Proof/Machine/Observe.lean ====
section
/-! DEFINITION. Observation and test: COUNTERS_READ, LOG_READ, TRACE_CTL, TEST_PERTURB and the
perturbation window (03 0x60–0x68, 12, 13). -/

namespace Sys2Proof.Machine

/-! ### Perturbation controls -/

/-- A request of TEST_PERTURB, by packet or by the window (R679, R720). -/
structure PertReq where
  action : Nat
  control : Nat
  field : Nat
  target : Nat
  value : Nat
  index : Nat
  /-- Packet bytes 16–27, which are measured (Table 11.6). -/
  raw : Bytes

/-- A request from packet bytes 16–27 and the header's index. -/
def pertReq (b : Bytes) (index : Nat) : PertReq :=
  ⟨num b 0 1, num b 1 1, num b 2 1, num b 4 4, num b 8 4, index, fit 12 b⟩

/-- Table 3.8: a device-scope control. -/
def deviceScope (ctl : Nat) : Bool := [0, 2, 3, 4, 5].contains ctl

/-- R214: perturbation is enabled in `field` and, for a device-scope control, in every existing field. -/
def State.pertPermitted (s : State) (q : PertReq) : Bool :=
  s.perturbIn q.field && (q.action == 2 || !deviceScope q.control ||
    s.fields.all (fun f => !f.2.present || f.2.cfg.perturb))

/-- Table 3.8, R686, R746: the target lies in range (log 34 for control 3). -/
def PertReq.targetOk (q : PertReq) : Bool :=
  match q.control with
  | 0 => q.target ≤ 359
  | 1 => q.target < 128 && q.target / 8 == q.field
  | 2 => q.target ≤ 255
  | 3 => q.target / 256 ≤ 8 && q.target % 256 < unitCount (q.target / 256)
  | 4 => q.target < 16
  | 5 => q.target < 4
  | 6 => q.target < 32
  | 7 => q.target == 0
  | 8 => true
  | _ => false

/-- Table 3.8: the value lies in range. -/
def PertReq.valueOk (q : PertReq) : Bool :=
  match q.control with
  | 0 => q.value ≤ 4095
  | 1 => q.value ≤ 256
  | 2 => q.value ≤ 256
  | 3 => q.value ≤ 256
  | 4 => q.value ≤ 4095
  | 5 => q.value ≤ 255
  | 6 => q.value ≤ 256
  | 7 => q.value == 1 || q.value == 2
  | 8 => q.value == 1
  | _ => false

/-- R723: a setting is the one that the request names; R789: only a set of control 8 reads `index`. -/
def PertReq.names (q : PertReq) (y : Setting) : Bool :=
  y.control == q.control && y.target.toNat == q.target &&
    (deviceScope q.control || y.field == q.field) &&
    (q.control != 8 || q.action != 0 || y.index == q.index)

/-- The failing check of a request, in the order of Table 3.2. Its codes and numbers are checked whatever the action
(R782, log 34). -/
def State.pertFault (s : State) (q : PertReq) : Option Nat :=
  let named := s.pert.slots.any (fun y => q.names y.2)
  if !s.pertPermitted q then some stNOT_PERMITTED
  else if 2 < q.action || !q.targetOk || !q.valueOk then some stBAD_VALUE
  else if q.action = 2 then none
  else if q.action = 1 then (if named then none else some stNOT_FOUND)
  else if q.control = 8 && (s.index? q.field q.index).isNone then some stBAD_INDEX
  else if q.control = 8 && (match s.index? q.field q.index with
      | none => false
      | some x => x.p.nlist ≤ q.target) then some stBAD_VALUE
  else if !named && 64 ≤ s.pert.slots.length then some stLIMIT
  else none

/-- R723: the settings after an accepted request. -/
def Pert.apply (x : Pert) (q : PertReq) : Pert :=
  if q.action = 2 then { x with slots := [] }
  else if q.action = 1 then { x with slots := x.slots.filter (fun y => !q.names y.2) }
  else
    let y : Setting := ⟨q.control, if deviceScope q.control then 0xFF else q.field, BitVec.ofNat 32 q.target,
      BitVec.ofNat 32 q.value, if q.control = 8 then q.index else 0, q.control == 8⟩
    let n := match x.slots.find? (fun y => q.names y.2) with
      | some p => p.1
      | none => lowestFree (x.slots.map (fun p => p.1)) 64 0
    { x with slots := FMap.set x.slots n y }

/-- R680: an accepted request: the settings, register 7 and, for a set, the log (log 35). -/
def State.pertApply (s : State) (q : PertReq) : State :=
  let s := ({ s with pert := s.pert.apply q }).extend 7 (eventRecord 0x71 q.raw)
  if q.action = 0 then
    s.logEvent evPERTURB_SET (if deviceScope q.control then 0xFF else q.field) 0 noUnit
      (slice q.raw 0 3 ++ slice q.raw 4 5)
  else s

/-- Executes TEST_PERTURB (R214 to R216, R680, R723, R789). -/
def execTestPerturb (ring : Nat) (dma : Dma) (s : State) : Result :=
  s.runPacket 0x68 ring dma (fun x s =>
    let q := pertReq (slice x.pkt 16 12) x.cmd.idx
    match s.pertFault q with
    | some st => no st
    | none => let t := s.pertApply q
              yes t t.pert.slots.length)

/-- The request that the window registers spell (R720). -/
def Pert.request (x : Pert) : PertReq :=
  pertReq (leBytes 4 x.req.toNat ++ leBytes 4 x.target.toNat ++ leBytes 4 x.value.toNat)
    (x.req.toNat / 2 ^ 24 % 64)

/-- R720: a window request taken and ended: `status`, `active`, `done` and `busy`. -/
def State.takePert (s : State) : State :=
  let q := s.pert.request
  let fault := s.pertFault q
  let s := match fault with
    | some _ => s
    | none => s.pertApply q
  { s with pert := { s.pert with
    busy := false, status := BitVec.ofNat 16 (fault.getD 0), active := s.pert.slots.length, done := s.pert.done + 1 } }

/-- R719, R698, R721: the window accepts writes. -/
def State.pertServed (s : State) : Bool :=
  s.up && s.trust.bootCode == 0 && s.serving && !s.pert.busy

/-- R720, R724: a request that waits in the window is taken once the Steward serves. -/
def State.takeBusy (s : State) : State := if s.pert.busy && s.up && s.serving then s.takePert else s

/-- Executes PERT_GO: `busy` becomes 1, and the Steward takes the request at once or, where `taken` is false, later: at the next
planner epoch or at the end of a warm restart (R720, R721, R724; log 116). -/
def execPertGo (value : BitVec 32) (taken : Bool) (s : State) : Result :=
  if s.pertServed && value.getLsbD 0 then
    let t := { s with pert := { s.pert with busy := true } }
    .next (if taken then t.takePert else t)
  else .next s

/-! ### Counters, log and trace -/

/-- Table 12.7: counters of a group. -/
def groupSize (g : Nat) : Nat :=
  match g with
  | 0 => 13 | 1 => 30 | 2 => 128 | 3 => 32 | _ => 155

/-- Value of a counter at this instant (R675); counters of time are free, and so is what the reads of the query path
and the Steward's own traffic add to the counters of memory traffic (log 36). -/
def State.counterValue (s : State) (g f pos : Nat) : Nat :=
  match g with
  | 0 => if pos = 12 then s.epoch else if pos = 4 then Config.timeCounter g pos s.tbk % 2 ^ 32 else FMap.getD s.counters pos 0
  | 1 => match s.field? f with
    | none => 0
    | some x =>
      let n := FMap.getD x.counters pos 0
      if 15 ≤ pos && pos ≤ 19 then (n + Config.timeCounter g (f * 1024 + pos) s.tbk) % 2 ^ 64 else n
  | 2 =>
    let n := FMap.getD s.counters (g * 1024 + pos) 0
    if pos < 32 || 64 ≤ pos then (n + Config.timeCounter g pos s.tbk) % 2 ^ 64 else n
  | 3 => if pos % 8 = 6 then Config.timeCounter g pos s.tbk else FMap.getD s.counters (g * 1024 + pos) 0
  | 4 => Config.timeCounter g pos s.tbk
  | _ => FMap.getD s.counters (g * 1024 + pos) 0

/-- Executes COUNTERS_READ (R124, R127, R675, R678). -/
def execCountersRead (ring : Nat) (dma : Dma) (s : State) : Result :=
  s.runPacket 0x60 ring dma (fun x s =>
    let g := num x.pkt 16 1
    let f := num x.pkt 17 1
    let len := num x.pkt 32 4
    checks ([(x.ring != adminRing && (g == 0 || g == 2 || g == 3 || g == 4 || f != x.fn), stNOT_PERMITTED),
      (4 < g || (g == 1 && 15 < f), stBAD_VALUE)] ++ replyChecks x.pkt 24 32 8 ++
      [(g == 1 && !s.fieldExists f, stNOT_FOUND)])
      (fun _ =>
        let n := min (groupSize g) ((len - 8) / 8)
        yesReply s (info2 n (groupSize g)) [(num x.pkt 24 8,
          leBytes 8 s.tbk ++ (List.range n).flatMap (fun p => leBytes 8 (s.counterValue g f p)))]))

/-- Table 12.4: the bytes of an entry. -/
def LogEntry.bytes (e : LogEntry) : Bytes :=
  leBytes 8 e.seq ++ leBytes 8 e.time ++ leBytes 2 e.code ++ leBytes 1 e.field ++ leBytes 1 e.severity ++
    leBytes 2 e.unit ++ leBytes 2 e.again ++ fit 8 e.detail

/-- Executes LOG_READ (R127, R670). -/
def execLogRead (ring : Nat) (dma : Dma) (s : State) : Result :=
  s.runPacket 0x61 ring dma (fun x s =>
    checks (replyChecks x.pkt 24 32 0) (fun _ =>
      let held := s.log.entries.reverse.filter (fun e =>
        num x.pkt 16 8 ≤ e.seq && (x.ring == adminRing || e.field == x.fn))
      let out := held.take (num x.pkt 32 4 / 32)
      yesReply s (info2 out.length s.log.lost) [(num x.pkt 24 8, out.flatMap LogEntry.bytes)]))

/-- Executes TRACE_CTL (R127, R672, R673). -/
def execTraceCtl (ring : Nat) (dma : Dma) (s : State) : Result :=
  s.runPacket 0x62 ring dma (fun x s =>
    let act := num x.pkt 16 1
    let off := num x.pkt 36 4
    checks (([(2 < act, stBAD_VALUE), (1 < num x.pkt 17 1, stBAD_VALUE),
      (act == 2 && off % 32 != 0, stBAD_VALUE)] : List (Bool × Nat)) ++ (if act = 2 then replyChecks x.pkt 24 32 0 else []))
      (fun _ =>
        if act = 1 then
          yes { s with trace := ⟨true, num x.pkt 17 1 == 1, BitVec.ofNat 16 (num x.pkt 18 2) &&& 0x07FF#16, [], 0, 0, 0⟩ } 0
        else if act = 0 then
          yes { s with trace := { s.trace with running := false } } (32 * s.trace.records.length)
        else
          let out := ((s.trace.records.reverse).drop (off / 32)).take (num x.pkt 32 4 / 32)
          yesReply s (32 * out.length) [(num x.pkt 24 8, out.flatMap (fun b => b))]))

end Sys2Proof.Machine
end

