-- ==== Sys2Proof/Machine/Trust.lean ====
section
/-! DEFINITION. Attestation, measurement, stakes and firmware slots (11_trust_and_stakes; 03 0x50–0x71). -/

namespace Sys2Proof.Machine

/-! ### Stakes -/

/-- R646, R648: integrity events of used slots that were not raised since boot. -/
def Trust.newEvents (t : Trust) : List (Nat × Nat) :=
  (List.range 5).flatMap (fun k =>
    ((List.range (t.used k)).filter (fun n => t.slotEvent k n && !t.integrity.contains (k, n))).map (fun n => (k, n)))

/-- R646: an integrity event is logged, counted and measured. -/
def State.stakeEvent (s : State) (e : Nat × Nat) : State :=
  let s := s.setTrust { s.trust with integrity := s.trust.integrity ++ [e] }
  let b := [BitVec.ofNat 8 e.1, BitVec.ofNat 8 e.2]
  ((s.logEvent evSTAKE_INTEGRITY 0xFF (Config.severity evSTAKE_INTEGRITY) noUnit b).count 0 8 1).extend 2 (eventRecord 0x22 b)

/-- R648, R715, R716: the stakes resolved again and the mirror updated. -/
def State.resolveStakes (s : State) : State :=
  let s := s.setTrust { s.trust with resolved := true, stakeGen := s.trust.stakeGen + 2 }
  s.trust.newEvents.foldl State.stakeEvent s

/-- R638: the effective values are the current values at this reset. -/
def Trust.latchEffective (t : Trust) : Trust :=
  { t with effective := (List.range 5).map (fun k => (k, BitVec.ofNat 64 (t.current k))) }

/-- R636: the record of a new slot. -/
def stakeRecord (k slot value date svn : Nat) : Bytes :=
  let b := leBytes 8 value ++ leBytes 4 date ++ leBytes 4 svn ++ leBytes 1 slot ++ leBytes 1 k ++ zeros 10
  b ++ leBytes 4 (crc32c b).toNat

/-- R644: the bytes of a copy whose verify failed: free, but for not being blank, since the slot counts as
used. -/
def badCopy (k slot c : Nat) : Bytes :=
  let b := fit 32 (Config.failedCopy k slot c)
  if b = zeros 32 then 1#8 :: zeros 31 else b

/-- A copy programmed. -/
def Trust.program (t : Trust) (k slot c : Nat) (b : Bytes) : Trust :=
  { t with stakes := FMap.set t.stakes (k * 256 + slot * 2 + c) b }

/-- Running `fw_svn`; 0 while no firmware runs. -/
def State.fwSvn (s : State) : Nat :=
  match s.trust.fw with
  | none => 0
  | some f => f.svn.toNat
/-- Running `fw_version`. -/
def State.fwVersion (s : State) : Nat :=
  match s.trust.fw with
  | none => 0
  | some f => f.version.toNat
/-- Fields that exist or will from the next planner epoch. -/
def State.fieldCount (s : State) : Nat := s.fields.length

/-- Table 11.11: a value of a stake that does not depend on the device's state. -/
def stakeValueOk (k v : Nat) : Bool :=
  match k with
  | 0 => v < 8
  | 2 => v ≤ 3
  | 3 => 1 ≤ v && v ≤ 16
  | 4 => v ≤ 2
  | _ => true

/-- R640: a configuration block that sets one item to 0. -/
def offBlock (maskBit : Nat) : Bytes := leBytes 8 (2 ^ maskBit) ++ zeros 248

/-- R640: one field's `perturb` or `programs` accepted as 0, measured as FIELD_CONFIGURE (log 38). -/
def State.switchOff (s : State) (f : Nat) (perturb : Bool) : State :=
  match s.field? f with
  | none => s
  | some x =>
    if perturb && x.tgt.perturb then
      (s.setField f { x with tgt := { x.tgt with perturb := false } }).extend 3
        (eventRecord 0x30 ([BitVec.ofNat 8 f, 0] ++ offBlock 10))
    else if !perturb && x.tgt.programs then
      (s.setField f { x with tgt := { x.tgt with programs := false } }).extend 3
        (eventRecord 0x30 ([BitVec.ofNat 8 f, 0] ++ offBlock 9))
    else s

/-- R640: what a STAKE_WRITE that clears permits does to the fields and the controls. -/
def State.permitsCleared (s : State) (old new : Nat) : State :=
  let p := old.testBit 1 && !new.testBit 1
  let g := old.testBit 2 && !new.testBit 2
  let fs := s.fields.map (fun f => f.1)
  let s := if p then fs.foldl (fun s f => s.switchOff f true) s else s
  let s := if g then fs.foldl (fun s f => s.switchOff f false) s else s
  if p || g then { s with pert := { s.pert with clearDue := true } } else s

/-- R643, R644: the slot above the highest used one programmed copy by copy, copy 1 only after copy 0
verified (log 39). -/
def State.programStake (s : State) (k value date : Nat) (v0 v1 : Bool) : Trust :=
  let slot := s.trust.used k
  let b := stakeRecord k slot value date s.fwSvn
  if !v0 then s.trust.program k slot 0 (badCopy k slot 0)
  else (s.trust.program k slot 0 b).program k slot 1 (if v1 then b else badCopy k slot 1)

/-- R212, R213, R642: the checks of a STAKE_WRITE. -/
def State.stakeChecks (s : State) (pkt : Bytes) : List (Bool × Nat) :=
  let k := num pkt 16 1
  let v := num pkt 24 8
  let cur := s.trust.current k
  let slot := s.trust.used k
  [(4 < k, stBAD_VALUE), (!stakeValueOk k v, stBAD_VALUE), (num pkt 17 1 != slot, stBAD_STATE),
    (v == cur, stBAD_VALUE), (k == 1 && (v < cur || s.fwSvn < v), stBAD_VALUE),
    (k == 3 && v < s.fieldCount, stBAD_STATE), (stakeSlots k ≤ slot, stSTAKE_EXHAUSTED)]

/-- Executes STAKE_WRITE; `verify0` and `verify1` are the outcomes of verifying the two copies (R212, R213,
R640, R642 to R644). -/
def execStakeWrite (ring : Nat) (dma : Dma) (verify0 verify1 : Bool) (s : State) : Result :=
  s.runPacket 0x59 ring dma (fun x s =>
    let k := num x.pkt 16 1
    let v := num x.pkt 24 8
    let cur := s.trust.current k
    let slot := s.trust.used k
    checks (s.stakeChecks x.pkt) (fun _ =>
        let t := (s.setTrust (s.programStake k v (num x.pkt 20 4) verify0 verify1)).resolveStakes
        let t := if k = 0 then t.permitsCleared cur (t.trust.current 0) else t
        if verify0 && verify1 then
          yes ((t.logEvent evSTAKE_WRITTEN 0xFF 0 noUnit [BitVec.ofNat 8 k, BitVec.ofNat 8 slot]).extend 2
            (eventRecord 0x21 (t.trust.copy k slot 0))) slot
        else failed t stHW_FAULT))

/-- R649: an integrity event concerns the stake. -/
def Trust.flawed (t : Trust) (k : Nat) : Bool := t.integrity.any (fun e => e.1 == k)

/-- R649: the reply of STAKE_READ. -/
def State.stakeReply (s : State) (k : Nat) : Bytes :=
  let t := s.trust
  [BitVec.ofNat 8 k, BitVec.ofNat 8 (stakeSlots k), BitVec.ofNat 8 (t.used k), if t.flawed k then 1 else 0] ++
    zeros 4 ++ leBytes 8 (t.current k) ++ leBytes 8 (t.effectiveValue k) ++ zeros 40 ++
    (List.range (stakeSlots k)).flatMap (fun n => t.copy k n 0 ++ t.copy k n 1)

/-- Executes STAKE_READ (R211, R649). -/
def execStakeRead (ring : Nat) (dma : Dma) (s : State) : Result :=
  s.runPacket 0x58 ring dma (fun x s =>
    let k := num x.pkt 16 1
    checks ((4 < k, stBAD_VALUE) :: replyChecks x.pkt 24 32 (64 + 64 * stakeSlots k)) (fun _ =>
      yesReply s (s.trust.current k % 2 ^ 32 + s.trust.used k * 2 ^ 32 + stakeSlots k * 2 ^ 40)
        [(num x.pkt 24 8, s.stakeReply k)]))

/-! ### Measurement and attestation -/

/-- Value of measurement register n. -/
def Trust.reg (t : Trust) (n : Nat) : Bytes := t.mr.getD n (zeros 48)
/-- Extend count of register n. -/
def Trust.regCount (t : Trust) (n : Nat) : Nat := t.mrCount.getD n 0

/-- Executes MEASURE_READ (R625). -/
def execMeasureRead (ring : Nat) (dma : Dma) (s : State) : Result :=
  s.runPacket 0x51 ring dma (fun x s =>
    checks (replyChecks x.pkt 16 24 512) (fun _ =>
      yesReply s 0 [(num x.pkt 16 8, (List.range 8).flatMap (fun n =>
        s.trust.reg n ++ leBytes 4 (s.trust.regCount n) ++ zeros 12))]))

/-- Bytes 0 to 623 of the attestation report (Table 11.8, R631). -/
def State.reportBody (s : State) (nonce : Bytes) (field : Nat) : Bytes :=
  let slot := match s.trust.fw with
    | none => 0
    | some f => f.slot
  leBytes 4 0x4B515250 ++ leBytes 2 1 ++ leBytes 2 720 ++ leBytes 8 Config.serial.toNat ++
    [if Config.grade then 1 else 0, Config.deviceRev, BitVec.ofNat 8 slot,
      BitVec.ofNat 8 s.glob.straps.bootSel.toNat] ++
    leBytes 4 s.fwVersion ++ leBytes 4 s.fwSvn ++ leBytes 4 (s.trust.current 1) ++ fit 32 nonce ++
    leBytes 1 field ++ zeros 7 ++ leBytes 8 s.tbk ++ (List.range 8).flatMap s.trust.reg ++
    (List.range 8).flatMap (fun n => leBytes 4 (s.trust.regCount n)) ++
    (List.range 5).flatMap (fun k => leBytes 8 (s.trust.current k) ++ leBytes 8 (s.trust.effectiveValue k)) ++
    sha384 (publicKey s.trust.attKey)

/-- R630, R628: the attestation report. -/
def State.report (s : State) (nonce : Bytes) (field : Nat) : Bytes :=
  let b := s.reportBody nonce field
  b ++ ecdsaSign s.trust.attKey (sha384 b)

/-- Executes ATTEST (R630, R631). -/
def execAttest (ring : Nat) (dma : Dma) (s : State) : Result :=
  s.runPacket 0x50 ring dma (fun x s =>
    checks (replyChecks x.pkt 48 56 720) (fun _ =>
      yesReply s 720 [(num x.pkt 48 8, s.report (slice x.pkt 16 32) (ringField x.ring))]))

/-! ### Certificates (R626 to R628, Table 11.7) -/

/-- ASCII bytes of a text. -/
def ascii (t : String) : Bytes := t.toList.map (fun c => BitVec.ofNat 8 c.toNat)
/-- The upper-case hexadecimal digit of a number below 16, in ASCII. -/
def hexDigit (n : Nat) : Byte := BitVec.ofNat 8 (if n < 10 then 0x30 + n else 0x37 + n)
/-- Table 11.7: the device serial in 16 upper-case hexadecimal digits. -/
def serialText (n : Nat) : Bytes := (List.range 16).map (fun i => hexDigit (n / 16 ^ (15 - i) % 16))
/-- R627: notAfter of certificates 2 and 3. -/
def noExpiry : Bytes := ascii "99991231235959Z"
/-- R627: the serial number of certificate 3: the first 16 bytes of the digest of its public key, the top bit cleared. -/
def keySerial (key : Bytes) : Bytes :=
  match (sha384 key).take 16 with
  | [] => []
  | b :: rest => (b &&& 0x7F#8) :: rest
/-- Certificate 2: the device identity. -/
def identityCertificate : Certificate :=
  { issuer := 1, serialNumber := Config.identitySerial, notBefore := Config.identityNotBefore, notAfter := noExpiry
    subjectSerial := serialText Config.serial.toNat, publicKey := publicKey (Config.identityKey Config.deviceSecret)
    measured := none }
/-- Certificate 3: the attestation key, with what it vouches for. -/
def attestationCertificate (svn : BitVec 32) (register0 : Bytes) (debug : Bool) (key : Bytes) : Certificate :=
  { issuer := 2, serialNumber := keySerial key, notBefore := identityCertificate.notBefore, notAfter := noExpiry
    subjectSerial := [], publicKey := key, measured := some (svn, register0, debug) }
/-- R626, R628: a certificate in DER, signed by the device identity key. -/
def signedByIdentity (c : Certificate) : Bytes :=
  let tbs := Config.tbsCertificate c
  Config.derCertificate tbs (ecdsaSign (Config.identityKey Config.deviceSecret) (sha384 tbs))
/-- Table 11.7: the certificates of positions 0 to 2. -/
def fixedCertificates : Bytes :=
  Config.rootCertificate ++ Config.deviceCaCertificate ++
    Config.derCertificate (Config.tbsCertificate identityCertificate) Config.identitySignature

/-! ### Firmware slots -/

/-- Table 11.1: first flash address of a slot. -/
def slotBase (slot : Nat) : Nat := slot * 0x100_0000
/-- Table 11.1: offset of the activation sector in a slot. -/
def sectorAt : Nat := 0x0FF_F000
/-- Flash bytes; an erased byte reads 0xFF. -/
def Trust.flashRead (t : Trust) (a n : Nat) : Bytes := Mem.readN 0xFF t.flash a n

/-- An activation sector: state 0 INVALID, 1 STAGED, 2 ACTIVE, 3 EMPTY (R613), with `act_seq` and the
image digest. -/
structure Sector where
  state : Nat
  actSeq : Nat
  digest : Bytes

/-- R613, Table 11.4: what a slot's sector says. -/
def Trust.sector (t : Trust) (slot : Nat) : Sector :=
  let b := t.flashRead (slotBase slot + sectorAt) 68
  if num b 0 4 = 0x4B514153 ∧ num b 64 4 = (crc32c (b.take 64)).toNat ∧ num b 4 1 ≤ 2 then
    ⟨num b 4 1, num b 8 8, slice b 16 48⟩
  else ⟨3, 0, zeros 48⟩

/-- Table 11.4: the bytes of a sector. -/
def sectorBytes (x : Sector) : Bytes :=
  let b := leBytes 4 0x4B514153 ++ leBytes 1 x.state ++ zeros 3 ++ leBytes 8 x.actSeq ++ fit 48 x.digest
  b ++ leBytes 4 (crc32c b).toNat

/-- R614: a slot's sector rewritten; the rest of it is left erased. -/
def Trust.writeSector (t : Trust) (slot : Nat) (x : Sector) : Trust :=
  let a := slotBase slot + sectorAt
  { t with flash := Mem.write 0xFF (Mem.clear t.flash a 4096) a (sectorBytes x) }

/-- Bytes of an image whose header gives a length in range; otherwise the header alone (log 40). -/
def Trust.image (t : Trust) (slot : Nat) : Bytes :=
  let len := num (t.flashRead (slotBase slot) 512) 8 4
  if 8192 ≤ len ∧ len ≤ 16773120 ∧ len % 4096 = 0 then t.flashRead (slotBase slot) len
  else t.flashRead (slotBase slot) 512

/-- R610: the header's reserved bytes are zero. -/
def headerReserved (b : Bytes) : Bytes := slice b 6 2 ++ slice b 21 75 ++ slice b 288 224

/-- Table 11.3 steps 1 to 6: the step that fails, 0 when none does. -/
def imageFault (b : Bytes) (floor : Nat) : Nat :=
  if num b 0 4 ≠ 0x4B514657 ∨ num b 4 2 ≠ 1 ∨ (headerReserved b).any (fun x => x != 0) then 1
  else if num b 8 4 < 8192 ∨ 16773120 < num b 8 4 ∨ num b 8 4 % 4096 ≠ 0 then 2
  else if Config.deviceRev.toNat < num b 20 1 then 3
  else if num b 16 4 < floor then 4
  else if !([0, 1, 2, 3] : List (Fin 4)).any (fun i => Config.keyDigest i == sha384 (slice b 96 96)) then 5
  else if !ecdsaValid (slice b 96 96) (sha384 (overlay b 192 (zeros 96))) (slice b 192 96) then 6
  else 0

/-- R219, R609, R614: a block written to a slot, erased first where asked. -/
def Trust.stage (t : Trust) (slot off : Nat) (b : Bytes) (erase : Bool) : Trust :=
  let flash := if erase then Mem.clear t.flash (slotBase slot) 0x100_0000 else t.flash
  let kept := b.take (sectorAt - off)
  { t with
    flash := Mem.write 0xFF flash (slotBase slot + off) kept
    staged := FMap.set t.staged slot ((if erase then 0 else FMap.getD t.staged slot 0) + kept.length) }

/-- R772: a range of the flash erased, by 4 KiB sectors. -/
def State.flashErased (s : State) (addr len : Nat) : State := if len = 0 then s else s.emit (.qspi 0x21 addr len)
/-- R772: a range of the flash programmed, by pages of 256 bytes. -/
def State.flashProgrammed (s : State) (addr len : Nat) : State := if len = 0 then s else s.emit (.qspi 0x12 addr len)
/-- R772: an image read back, by quad output read where the flash's SFDP table declares it. -/
def State.flashReadBack (s : State) (addr len : Nat) : State := s.emit (.qspi (if Config.quadRead then 0x6C else 0x0C) addr len)
/-- R614: a slot's activation sector rewritten in the flash: erased, then programmed. -/
def State.rewriteSector (s : State) (slot : Nat) (x : Sector) : State :=
  let a := slotBase slot + sectorAt
  ((s.setTrust (s.trust.writeSector slot x)).flashErased a 4096).flashProgrammed a 68
/-- R219, R609, R614: a block staged. -/
def State.stageBlock (s : State) (slot off : Nat) (b : Bytes) (erase : Bool) : State :=
  let t := s.setTrust (s.trust.stage slot off b erase)
  (if erase then t.flashErased (slotBase slot) 0x100_0000 else t).flashProgrammed (slotBase slot + off) (b.take (sectorAt - off)).length

/-- R219, R220: the checks of a FIRMWARE_STAGE. -/
def State.stageChecks (s : State) (x : Ctx) : List (Bool × Nat) :=
  let slot := num x.pkt 16 1
  let off := num x.pkt 20 4
  let running := match s.trust.fw with
    | none => false
    | some f => f.slot == slot
  [(1 < slot, stBAD_VALUE), (off % 4096 != 0, stBAD_VALUE), (0x100_0000 < off + x.block.length, stBAD_VALUE), (running, stBAD_STATE)]

/-- Executes FIRMWARE_STAGE; `flashOk` is whether the flash reads back in the final check (R219 to R221,
R609, R614). -/
def execFirmwareStage (ring : Nat) (dma : Dma) (flashOk : Bool) (s : State) : Result :=
  s.runPacket 0x70 ring dma (fun x s =>
    let slot := num x.pkt 16 1
    let off := num x.pkt 20 4
    checks (s.stageChecks x) (fun _ =>
        let t := s.stageBlock slot off x.block (flag x.pkt 17 0)
        let staged := FMap.getD t.trust.staged slot 0
        if !flag x.pkt 17 1 then yes t staged
        else
          let image := t.trust.image slot
          let digest := sha384 image
          let t := t.flashReadBack (slotBase slot) image.length
          if flashOk && imageFault image (t.trust.current 1) == 0 then
            let t := t.rewriteSector slot ⟨1, 0, digest⟩
            yes (t.extend 6 (eventRecord 0x60 ([BitVec.ofNat 8 slot] ++ digest))) staged
          else failed (t.rewriteSector slot ⟨0, 0, digest⟩) stIMAGE_INVALID))

/-- R222, R615: the checks of a FIRMWARE_ACTIVATE. -/
def State.activateChecks (s : State) (pkt : Bytes) : List (Bool × Nat) :=
  let slot := num pkt 16 1
  let st := (s.trust.sector slot).state
  [(1 < slot, stBAD_VALUE), (st != 1 && st != 2, stBAD_STATE),
    (num (s.trust.flashRead (slotBase slot) 512) 16 4 < s.trust.current 1, stBAD_STATE)]

/-- Executes FIRMWARE_ACTIVATE (R222, R614, R615). -/
def execFirmwareActivate (ring : Nat) (dma : Dma) (s : State) : Result :=
  s.runPacket 0x71 ring dma (fun x s =>
    let slot := num x.pkt 16 1
    let sec := s.trust.sector slot
    checks (s.activateChecks x.pkt) (fun _ =>
        let n := 1 + max (s.trust.sector 0).actSeq (s.trust.sector 1).actSeq
        let t := s.rewriteSector slot ⟨2, n, sec.digest⟩
        yes (t.extend 6 (eventRecord 0x61 ([BitVec.ofNat 8 slot] ++ leBytes 8 n))) 0))

end Sys2Proof.Machine
end

