-- ==== Sys2Proof/Machine/CascadeOps.lean ====
section
/-! DEFINITION. What the cascade's commands share: wiring, routes, messages, coverage and the census
(10_cascade). -/

namespace Sys2Proof.Machine

/-! ### Wiring and routes -/

/-- Positions of a formed cascade. -/
def Cascade.size (x : Cascade) : Nat := x.expected

/-- Table 10.6: the position at the far end of a port, none where the topology has no link. -/
def Cascade.neighbour (x : Cascade) (pos port : Nat) : Option Nat :=
  let n := x.expected
  match x.topology with
  | 0 => if port = 0 then (if pos + 1 < n then some (pos + 1) else none)
         else if port = 1 then (if 0 < pos then some (pos - 1) else none) else none
  | 1 => if port = 0 then some ((pos + 1) % n) else if port = 1 then some ((pos + n - 1) % n) else none
  | 2 => if port % 2 = 0 then some ((pos + 1) % n) else some ((pos + n - 1) % n)
  | _ =>
    let w := x.torusX
    let h := x.torusY
    let cx := pos % w
    let cy := pos / w
    match port with
    | 0 => some (cy * w + (cx + 1) % w)
    | 1 => some (cy * w + (cx + w - 1) % w)
    | 2 => some ((cy + 1) % h * w + cx)
    | _ => some ((cy + h - 1) % h * w + cx)

/-- Table 10.10 `ports`: the code of a port. -/
def portCode (ports : BitVec 8) (p : Nat) : Nat := ports.toNat / 4 ^ p % 4

/-- A member of the cascade: `status` 0. -/
def Cascade.isMember (x : Cascade) (m : Nat) : Bool :=
  match FMap.get? x.records m with
  | none => false
  | some r => r.status == 0

/-- ACTIVE links of a member towards members: port and neighbour, by port. -/
def Cascade.links (x : Cascade) (m : Nat) : List (Nat × Nat) :=
  match FMap.get? x.records m with
  | none => []
  | some r => ([0, 1, 2, 3] : List Nat).filterMap (fun p =>
      if r.status == 0 && (portCode r.ports p == 1 || portCode r.ports p == 2) then
        match x.neighbour m p with
        | none => none
        | some b => if x.isMember b then some (p, b) else none
      else none)

/-- One round of the breadth-first search: members next to those already reached. -/
def Cascade.reachStep (x : Cascade) (d : FMap Nat) : FMap Nat :=
  x.records.foldl (fun e r =>
    if (FMap.get? d r.1).isSome then e
    else match argMin (fun n => n) ((x.links r.1).filterMap (fun l => FMap.get? d l.2)) with
      | none => e
      | some n => FMap.set e r.1 (n + 1)) d

/-- Hops from the lead over ACTIVE links (R570). -/
def Cascade.dist (x : Cascade) : FMap Nat :=
  (List.range 128).foldl (fun d _ => x.reachStep d) [(x.leadOrdinal, 0)]

/-- R570: a member's parent in the spanning tree. -/
def Cascade.parent (x : Cascade) (m : Nat) : Option Nat :=
  let d := x.dist
  argMin (fun b => FMap.getD d b 1000 * 256 + b) ((x.links m).map (fun l => l.2))

/-- The members from m up to the lead along the tree. -/
def Cascade.climb (x : Cascade) : Nat → Nat → List Nat
  | 0, m => [m]
  | n + 1, m =>
    if m = x.leadOrdinal then [m]
    else match x.parent m with
      | none => [m]
      | some p => m :: x.climb n p

/-- R570: the neighbour to which a message for t goes from member a on tree routes. -/
def Cascade.treeHop (x : Cascade) (a t : Nat) : Option Nat :=
  let path := x.climb 128 t
  if path.contains a then
    match (path.takeWhile (fun m => m != a)).getLast? with
    | none => none
    | some m => some m
  else x.parent a

/-- R568: a step from a towards t in a dimension of size n: true for the positive way, the shorter one, and
the positive one at equal distance. -/
def positiveWay (a t n : Nat) : Bool := (t + n - a) % n ≤ (a + n - t) % n

/-- R568: the port of the dimension-order route from a to t of a message from src to dst. -/
def Cascade.orderPort (x : Cascade) (a t src : Nat) : Nat :=
  let n := x.expected
  match x.topology with
  | 0 => if a < t then 0 else 1
  | 1 => if positiveWay a t n then 0 else 1
  | 2 => (if (src + t) % 2 = 0 then 0 else 2) + (if positiveWay a t n then 0 else 1)
  | _ =>
    let w := x.torusX
    if a % w ≠ t % w then (if positiveWay (a % w) (t % w) w then 0 else 1)
    else (if positiveWay (a / w) (t / w) x.torusY then 2 else 3)

/-- The port by which member a sends towards t (R568, R570). -/
def Cascade.routePort (x : Cascade) (a t src : Nat) : Option Nat :=
  if x.treeRouting then
    match x.treeHop a t with
    | none => none
    | some b => ((x.links a).find? (fun l => l.2 == b)).map (fun l => l.1)
  else some (x.orderPort a t src)

/-- The link of a port is the wrap link of its dimension. -/
def Cascade.isWrap (x : Cascade) (a p : Nat) : Bool :=
  match x.topology with
  | 0 => false
  | 3 =>
    let c := if p < 2 then a % x.torusX else a / x.torusX
    let n := if p < 2 then x.torusX else x.torusY
    if p % 2 = 0 then c + 1 == n else c == 0
  | _ => if p % 2 = 0 then a + 1 == x.expected else a == 0

/-- R569, R570: the buffer half in which a message leaves by port p; `half` and `dim` are those in which it
travelled so far. -/
def Cascade.halfOf (x : Cascade) (a p half dim : Nat) : Nat :=
  if x.treeRouting then 0
  else if x.isWrap a p then 1
  else if dim = p / 2 then half else 0

/-! ### Messages -/

/-- Kinds of cascade messages in the model's record of outputs. -/
def msgPROBE : Nat := 1
def msgROUTES : Nat := 2
def msgCONFIG : Nat := 3
def msgHEARTBEAT : Nat := 4
def msgSEARCH_PART : Nat := 5
def msgMUTATION : Nat := 6
def msgCOMMIT : Nat := 7
def msgSTANDBY : Nat := 8
def msgSLOT_COPY : Nat := 9
def msgANSWER : Nat := 10
def msgPAD_REWRITE : Nat := 11
def msgDEFINE : Nat := 12
def msgPART_REPLY : Nat := 13
def msgPARTIAL : Nat := 14
def msgADD : Nat := 15
def msgTERMS : Nat := 16
def msgSPREAD : Nat := 17
def msgCOMPACT : Nat := 18
def msgSWAP : Nat := 19
def msgREADY : Nat := 20
def msgSCRUB : Nat := 21
def msgLINK_DOWN : Nat := 22

/-- Table 10.5: the header of a message. -/
def messageHeader (dst src kind len tag : Nat) (tree : Bool) : Bytes :=
  leBytes 1 dst ++ leBytes 1 src ++ leBytes 1 (Config.messageType kind) ++ [0] ++ leBytes 4 len ++ leBytes 4 tag ++
    leBytes 1 (if tree then 1 else 0) ++ zeros 3

/-- R566: the flits of a message, for a virtual channel and half. -/
def messageFlits (vc half : Nat) (b : Bytes) : List TxFlit :=
  (chunks 240 (b.length + 1) b).map (fun c => ⟨0, vc, half, fit 240 c, false, 0⟩)

/-- Flits queued on a port. -/
def State.queueFlits (s : State) (p : Nat) (fs : List TxFlit) : State :=
  s.setPort p { s.port p with waiting := (s.port p).waiting ++ fs }

/-- Ports whose link is ACTIVE. -/
def State.activePorts (s : State) : List Nat := ([0, 1, 2, 3] : List Nat).filter (fun p => (s.port p).state == .active)

/-- A message sent to a member on its route, or flooded over every ACTIVE link for destination 0xFF; one of a member to itself crosses
no link. -/
def State.sendMessage (s : State) (dst kind vc : Nat) (content : Bytes) : State :=
  let x := s.casc
  let body := Config.messageBody kind content
  let b := messageHeader dst x.ordinal kind body.length 0 x.treeRouting ++ body
  let s := s.emit (.message dst kind content)
  if dst = x.ordinal then s
  else if dst = 0xFF then s.activePorts.foldl (fun s p => s.queueFlits p (messageFlits 0 0 b)) s
  else match x.routePort x.ordinal dst x.ordinal with
    | none => s
    | some p => s.queueFlits p (messageFlits vc (x.halfOf x.ordinal p 0 (p / 2)) b)

/-! ### Members and coverage -/

/-- Ordinals of the other members with `status` 0, ascending. -/
def Cascade.others (x : Cascade) : List Nat :=
  (x.records.filter (fun r => r.2.status == 0 && r.1 != x.ordinal)).map (fun r => r.1)
/-- Present members, own included, ascending (Table 10.11). -/
def Cascade.present (x : Cascade) : List Nat :=
  (x.records.filter (fun r => r.2.status == 0)).map (fun r => r.1)

/-- The device follows a lead in a formed cascade. -/
def State.follows (s : State) : Bool := s.cascFormed && (s.role == 2 || s.role == 3)
/-- Reachable standby leads. -/
def Cascade.standbys (x : Cascade) : List Nat :=
  (x.records.filter (fun r => r.2.status == 0 && r.2.role == 3 && r.1 != x.ordinal)).map (fun r => r.1)
/-- R596: the lead tells the standby lead of a change, while one is reachable. -/
def State.tellStandby (s : State) (content : Bytes) : State :=
  if s.cascFormed && s.role == 1 then s.casc.standbys.foldl (fun s m => s.sendMessage m msgSTANDBY 0 content) s else s
/-- What the lead does to a cascade index sent to every other member (log 47). -/
def State.tellMembers (s : State) (kind vc : Nat) (content : Bytes) : State :=
  if s.cascFormed && s.role == 1 then s.casc.others.foldl (fun s m => s.sendMessage m kind vc content) s else s

/-- A filter or bitmap change sent to every member, whose parts of searches read it, and to the standby lead (R596,
log 47). -/
def State.tellAll (s : State) (content : Bytes) : State := (s.tellMembers msgDEFINE 0 content).tellStandby content

/-- R591: copies of a slot that can serve. -/
def State.slotCopies (s : State) (x : Index) (slot : Nat) : List Nat :=
  (x.placement.getD slot []).filter (fun m =>
    (!s.cascFormed || s.casc.isMember m) && !x.fenced.contains (slot, m))
/-- R591: the slot is covered. In SPLIT-DIM every member holding runs must serve. -/
def State.slotCovered (s : State) (x : Index) (slot : Nat) : Bool :=
  if x.p.cascMode = 0 then true
  else if x.p.cascMode = 2 then (x.placement.getD slot []).all (fun m => s.casc.isMember m && !x.fenced.contains (0, m))
  else !(s.slotCopies x slot).isEmpty
/-- R593: every slot of every ACTIVE cascade index is covered. -/
def State.allCovered (s : State) : Bool :=
  s.indexes.all (fun p => !p.2.active || (List.range p.2.placement.length).all (fun k => s.slotCovered p.2 k))

/-- R582: the slot of an external ID. -/
def slotOfId (id slots : Nat) : Nat := ((id * 0x9E3779B97F4A7C15) % 2 ^ 64 / 2 ^ 32) * slots / 2 ^ 32
/-- R582, Table 10.11: the slot of a record of an index. -/
def Index.slotOf (x : Index) (id : Nat) : Nat :=
  if x.p.cascMode = 1 || x.p.cascMode = 4 then slotOfId id x.placement.length else 0

/-- Table 10.11: the copies of each slot over the present members; none where R581 refuses. -/
def placementOf (mode replicas : Nat) (present : List Nat) : Option (List (List Nat)) :=
  match mode with
  | 0 => some [[0]]
  | 1 => some (present.map (fun m => [m]))
  | 2 => some [present]
  | 3 => if present.length < replicas then none else some [present.take replicas]
  | _ =>
    let n := present.length / replicas
    if n = 0 then none else some ((List.range n).map (fun k => (present.drop (k * replicas)).take replicas))

/-! ### Census -/

/-- Table 10.6: the position of a device that answered the probe, counted from this device's own position. -/
def Cascade.positionOf (x : Cascade) (r : MemberRecord) : Option Nat :=
  let own := x.ordinal
  if x.topology = 3 then some (r.y * x.torusX + r.x)
  else match r.via0, r.via1 with
    | some h, _ => some (if own = 0 || x.topology = 0 then own + h else (own + h) % x.expected)
    | none, some h =>
      if x.topology = 0 then (if h ≤ own then some (own - h) else none)
      else if own = 0 then some (x.expected - h) else some ((own + x.expected - h) % x.expected)
    | none, none => none

/-- Table 10.10: this device's own port codes. -/
def State.ownPorts (s : State) : BitVec 8 :=
  BitVec.ofNat 8 (sumBy (fun p => 4 ^ p * (
    if !s.glob.straps.hxlEn || 1 < s.unitState 11 p then 3
    else match (s.port p).state with
      | .active => if (s.port p).width = 8 then 1 else 2
      | .detect | .off => if (s.port p).partner = 0 then 0 else 3
      | _ => 3)) [0, 1, 2, 3])

/-- R485, R489: GDDR capacity of the pairs in service, in MiB. -/
def State.gddrMib (s : State) : Nat := (s.inService 10).length * 2 * s.channelMib

/-- HXL protocol version of this device; the manual names the field and no value (log 47). -/
def ownHxlVersion : Nat := Config.messageType 0

/-- Table 10.9: why a device at a position is excluded, 0 when it is not. -/
def State.exclusion (s : State) (x : Cascade) (pos : Nat) (r : MemberRecord) : Nat :=
  if r.role = 0 || r.role = 1 then 1
  else if x.expected ≤ pos then 2
  else if r.hxlVersion ≠ ownHxlVersion then 3
  else if r.gddr7 ≠ s.glob.straps.gddrType || r.gddrMib ≠ s.gddrMib then 4
  else if !r.wiringOk then 5
  else match x.serials[pos]? with
    | none => 0
    | some n => if n = r.serial then 0 else 6

/-- The record of an absent ordinal. -/
def absentRec : CensusRec := ⟨0, 1, 0, 0, 0, 0, 0, 0, 0⟩

/-- The census record of this device. -/
def State.ownRecord (s : State) : CensusRec :=
  ⟨Config.serial, 0, 0, s.role, if Config.grade then 1 else 0, BitVec.ofNat 32 s.fwVersion, s.gddrMib, s.ownPorts, 0⟩

/-- The record of a device found at a position. -/
def State.foundRec (s : State) (x : Cascade) (pos : Nat) (r : MemberRecord) : CensusRec :=
  let e := s.exclusion x pos r
  ⟨r.serial, if e = 0 then 0 else 2, e, r.role, r.grade, r.fwVersion, r.gddrMib, r.ports, r.hops⟩

/-- Table 10.8 steps 3 and 4: records by ordinal; `lost` keeps what was lost or fallow (R597). -/
def State.censusRecords (s : State) (x : Cascade) (found : List MemberRecord) : FMap CensusRec :=
  let base : FMap CensusRec := (List.range x.expected).map (fun n => (n, absentRec))
  let recs := found.foldl (fun m r => match x.positionOf r with
    | none => m
    | some pos => if pos < 128 ∧ pos ≠ x.ordinal then FMap.set m pos (s.foundRec x pos r) else m) base
  FMap.set recs x.ordinal s.ownRecord

/-- R568: every expected member is present and every link of the topology is ACTIVE. -/
def Cascade.complete (x : Cascade) : Bool :=
  (List.range x.expected).all (fun m => x.isMember m &&
    ([0, 1, 2, 3] : List Nat).all (fun p => (x.neighbour m p).isNone || (x.links m).any (fun l => l.1 == p)))

/-- Table 10.8 step 5: routing and hops. -/
def Cascade.routed (x : Cascade) : Cascade :=
  let x := { x with treeRouting := !x.complete }
  let d := x.dist
  { x with records := FMap.mapVals x.records (fun m r => { r with hops := FMap.getD d m 0 }) }

/-- Table 10.8 step 6, R593: the state that a census leaves. -/
def State.censusState (s : State) : Nat := if s.allCovered then 2 else 3

/-- R593: the cascade's state follows the coverage of its ACTIVE indexes. -/
def State.refreshCasc (s : State) : State :=
  if s.cascFormed then s.setCasc { s.casc with state := s.censusState } else s

/-- Members reachable: `status` 0, lead included (Table 10.10). -/
def Cascade.reachable (x : Cascade) : Nat := (x.records.filter (fun r => r.2.status == 0)).length

/-- Table 10.10: one record. -/
def CensusRec.bytes (r : CensusRec) : Bytes :=
  leBytes 8 r.serial.toNat ++ leBytes 1 r.status ++ leBytes 1 r.reason ++ leBytes 1 r.role ++ leBytes 1 r.grade ++
    leBytes 4 r.fwVersion.toNat ++ leBytes 4 r.gddrMib ++ leBytes 1 r.ports.toNat ++ leBytes 1 r.hops ++ zeros 10

/-- Table 10.10: the census reply with a time of census. -/
def Cascade.reply (x : Cascade) (t : Nat) : Bytes :=
  leBytes 1 x.state ++ leBytes 1 x.topology ++ leBytes 1 (if x.treeRouting then 1 else 0) ++ zeros 1 ++ leBytes 2 x.expected ++
    leBytes 2 x.reachable ++ leBytes 8 t ++ zeros 48 ++
    (List.range 128).flatMap (fun n => match FMap.get? x.records n with
      | none => absentRec.bytes
      | some r => r.bytes)

/-- UNIT_STATUS state of a member from its record (log 48). -/
def memberUnit (status : Nat) : Nat :=
  if status = 0 then 0 else if status = 3 then 2 else if status = 4 then 4 else 5

/-- The unit states of type 12 as the records give them. -/
def State.syncMembers (s : State) : State :=
  { s with units := s.casc.records.foldl (fun u r =>
      FMap.set u (unitKey 12 r.1) ⟨memberUnit r.2.status, false, false, 0, false, false⟩) s.units }

/-- Bytes 0 to 255 of the FIELD_QUERY reply: a configuration in the layout of Table 3.4. -/
def FieldCfg.bytes (c : FieldCfg) (owned : Bool) (slices : BitVec 32) : Bytes :=
  let bit := fun (b : Bool) => leBytes 1 (if b then 1 else 0)
  fit 256 (leBytes 8 (2 ^ 64 - 1) ++ bit c.certified ++ bit c.mapHash ++ bit owned ++ zeros 1 ++ leBytes 4 slices.toNat ++
    leBytes 2 c.sowingUs ++ leBytes 1 c.prioFloor ++ leBytes 1 c.pinPct ++ leBytes 4 c.regRate ++ leBytes 4 c.regBurst ++
    bit c.workConserving ++ bit c.ecc ++ leBytes 1 ((if c.longLines then 1 else 0) + (if c.compressedLines then 2 else 0)) ++
    bit c.programs ++ leBytes 2 c.programCores ++ zeros 2 ++ leBytes 4 c.programSliceUs ++ bit c.perturb ++
    leBytes 1 c.maxIndexes ++ zeros 2 ++ leBytes 4 c.gddrPages ++ leBytes 4 c.poolPages)

/-- The census of the lead completed: records, routes sent with every field configuration, state, log and
register 4 (Table 10.8 steps 3 to 6, Table 11.6). -/
def State.census (s : State) (records : FMap CensusRec) : State :=
  let x := ({ s.casc with records := records, tCensus := s.tbk }).routed
  let s := (s.setCasc { x with state := 2 }).syncMembers
  let s := s.setCasc { s.casc with state := s.censusState }
  let s := s.casc.others.foldl (fun s m =>
    s.fields.foldl (fun s f => s.sendMessage m msgCONFIG 0 (leBytes 1 f.1 ++ zeros 1 ++ f.2.tgt.bytes f.2.tgt.granaryOwned f.2.slices ++
      leBytes 8 (s.epoch + 1))) (s.sendMessage m msgROUTES 0 (s.casc.reply 0))) s
  let s := s.extend 4 (eventRecord 0x40 (s.casc.reply 0))
  let s := s.logEvent evCENSUS 0xFF 0 noUnit
    ([BitVec.ofNat 8 s.casc.state, 0] ++ leBytes 2 s.casc.reachable)
  s.traceRec 8 0xFF noUnit (BitVec.ofNat 64 s.casc.ordinal) (BitVec.ofNat 64 s.casc.state)

/-- R578, R597: the census re-run: ordinals stay, and a member lost or fallow stays so. -/
def State.rerunRecords (s : State) (found : List MemberRecord) : FMap CensusRec :=
  FMap.mapVals (s.censusRecords s.casc found) (fun m r => match FMap.get? s.casc.records m with
    | none => r
    | some old => if old.status = 3 || old.status = 4 then { old with ports := r.ports }
                  else if r.status = 1 && old.status = 0 then { old with status := 4 } else r)

end Sys2Proof.Machine
end

