-- ==== Sys2Proof/Machine/Access.lean ====
section
/-! DEFINITION. Reads of a field's memory by its commands: the pages and chunks that a read touches, what is not
resident, and what cannot be read (R476, R480, R494, R499, R663). -/

namespace Sys2Proof.Machine

/-- The pages of a span that the field holds, each with the first and last chunk touched. -/
def State.spanOf (s : State) (f : Nat) (x : Span) : List (Page × Nat × Nat) :=
  match s.field? f with
  | none => []
  | some y =>
    if x.len = 0 then []
    else
      let a := x.start / pageSize
      let b := (x.start + x.len - 1) / pageSize
      (y.pages.filter (fun p => p.index == x.index && p.part == x.part && p.half == x.half && a ≤ p.n && p.n ≤ b)).map
        (fun p => (p, (max x.start (p.n * pageSize) - p.n * pageSize) / 64,
          (min (x.start + x.len) ((p.n + 1) * pageSize) - 1 - p.n * pageSize) / 64))
/-- Pairs on which a frame has lines. -/
def Loc.pairs (l : Loc) : List Nat :=
  match l with
  | .hash _ => List.range 8
  | .near h _ => (List.range 4).map (fun p => 4 * h + p)
  | .pool _ => []
/-- R494: a frame with lines on a failed pair. -/
def State.lost (s : State) (p : Page) : Bool := p.loc.pairs.any (fun n => s.unitState 10 n == 4)
/-- R494, R663: no access reaches what a page of the span holds. -/
def State.spanLost (s : State) (f : Nat) (x : Span) : Bool := (s.spanOf f x).any (fun p => p.1.damaged || s.lost p.1)
/-- R494, R499, R663: a read of the span ends its command with ST_HW_FAULT. -/
def State.spanFault (s : State) (f : Nat) (x : Span) : Bool :=
  (s.spanOf f x).any (fun p => p.1.damaged || s.lost p.1 ||
    s.badChunks.any (fun b => b.1 == f && b.2.1 == p.1.num && p.2.1 ≤ b.2.2 && b.2.2 ≤ p.2.2))
/-- A page of a span that is not resident in GDDR. -/
def State.spanAway (s : State) (f : Nat) (x : Span) : Option Page :=
  ((s.spanOf f x).find? (fun p => !p.1.inGddr)).map (fun p => p.1)
/-- A piece of what is read in one page: offset in the byte sequence of the read, page, byte in the page, length. -/
structure Segment where
  off : Nat
  page : Page
  at_ : Nat
  len : Nat
/-- The pieces of spans read one after another, from offset `off`. -/
def State.segments (s : State) (f : Nat) : Nat → List Span → List Segment
  | _, [] => []
  | off, x :: xs =>
    (s.spanOf f x).map (fun p =>
      let a := max x.start (p.1.n * pageSize)
      ⟨off + (a - x.start), p.1, a - p.1.n * pageSize, min (x.start + x.len) ((p.1.n + 1) * pageSize) - a⟩) ++
      s.segments f (off + x.len) xs
/-- R476, R478: the first piece that a read still needs and whose page is not resident; `done` are the pages read
before. -/
def State.firstAway (s : State) (f : Nat) (done : List Nat) (xs : List Span) : Option Segment :=
  (s.segments f 0 xs).find? (fun p => !p.page.inGddr && !done.contains p.page.num)
/-- The pages that a read halted on a page has read. -/
def State.readUpTo (s : State) (f : Nat) (done : List Nat) (xs : List Span) (page : Nat) : List Nat :=
  done ++ (((s.segments f 0 xs).map (fun p => p.page.num)).takeWhile (fun n => n != page)).filter (fun n => !done.contains n)
/-- The pages that p names have just been used (R477). -/
def State.usePages (s : State) (f : Nat) (p : Page → Bool) : State :=
  s.modField f (fun y => { y with pages := y.pages.map (fun q => if p q then { q with lastUse := s.tbk } else q) })
/-- The pages of spans have just been used (R477). -/
def State.touch (s : State) (f : Nat) (xs : List Span) : State :=
  let nums := xs.flatMap (fun x => (s.spanOf f x).map (fun p => p.1.num))
  s.usePages f (fun p => nums.contains p.num)
/-- A needed page as the span of all of it. -/
def Need4.span (k : Need4) : Span := ⟨k.index, k.part, k.half, k.n * pageSize, pageSize⟩

/-! ### Readable epochs (R250) -/

/-- Queries in progress on an index. -/
def State.queriesOf (s : State) (key : Nat) : List Query := s.queries.filter (fun q => indexKey q.field q.index == key)
/-- Parts of searches of an index that this device scans for the lead. -/
def State.partsOf (s : State) (key : Nat) : List Query :=
  (s.served.map (fun j => j.2.query)).filter (fun q => indexKey q.field q.index == key)
/-- FETCH_VECTORs of an index in progress: epoch and place in the order of swaps and admissions. -/
def State.fetchesOf (s : State) (key : Nat) : List (Nat × Nat) :=
  s.cmds.filterMap (fun c => match c.work with
    | .reading r => r.holds.bind (fun h => if h.1 = key then some h.2 else none)
    | _ => none)
/-- R250: the readable epochs of an index. On a cascade member its holds are the epochs that the lead still reads
(log 103). -/
def State.readable (s : State) (key : Nat) (x : Index) : List Nat :=
  x.epoch :: x.holds ++ (s.queriesOf key).map (fun q => q.epoch) ++ (s.partsOf key).map (fun q => q.epoch) ++
    (s.fetchesOf key).map (fun h => h.1)
/-- R262: places in the order of swaps of what is in progress on an index. -/
def State.readOrders (s : State) (key : Nat) : List Nat :=
  (s.queriesOf key).map (fun q => q.order) ++ (s.partsOf key).map (fun q => q.order) ++ (s.fetchesOf key).map (fun h => h.2)

/-! ### What the stages of a search read -/

/-- A whole part of an index of so many bytes. -/
def wholePart (i : Nat) (part : Part) (half len : Nat) : Span := ⟨some i, part, half, 0, len⟩
/-- The centroid table (R784). -/
def centroidSpans (i : Nat) (p : IParams) (hash : Bool) : List Span :=
  if hash then [wholePart i .centroids 0 (p.nlist * p.rowBytes)]
  else [wholePart i .centroids 0 ((p.nlist + 1) / 2 * p.rowBytes), wholePart i .centroids 1 (p.nlist / 2 * p.rowBytes)]
/-- The codebook. -/
def codebookSpan (i : Nat) (p : IParams) : Span := wholePart i .codebook 0 (p.entries * p.dim * 4)
/-- Half and position of a block in its part. -/
def blockPlace (hash : Bool) (b l : Nat) : Nat × Nat := if hash then (0, b) else (l % 2, b / 2)
/-- What a scan of one block of list l reads: its block-table record, tombstone word and scan block. -/
def scanSpans (i : Nat) (p : IParams) (hash : Bool) (l b : Nat) : List Span :=
  let h := blockPlace hash b l
  [⟨some i, .blockTable, 0, 16 * b, 16⟩, ⟨some i, .tombstones, 0, 8 * b, 8⟩,
    ⟨some i, .scan, h.1, h.2 * p.scanBytes, p.scanBytes⟩]
/-- The full-precision block of a block of list l. -/
def fullSpan (i : Nat) (p : IParams) (hash : Bool) (l b : Nat) : Span :=
  let h := blockPlace hash b l
  ⟨some i, .full, h.1, h.2 * p.fullBytes, p.fullBytes⟩
/-- The directory record of a list. -/
def directorySpan (i l : Nat) : Span := ⟨some i, .directory, 0, 64 * l, 64⟩
/-- R251: the version records that an epoch needs. -/
def versionSpans (i : Nat) (x : Index) (epoch : Nat) : List Span :=
  ((List.range x.versions.length).filter (fun n => match x.versions[n]? with
    | none => false
    | some v => v.since ≤ epoch && epoch < v.until_)).map (fun n => ⟨some i, .versions, 0, 32 * n, 32⟩)
/-- What a scan of an image's blocks up to a slot count reads. -/
def imageSpans (i : Nat) (p : IParams) (hash : Bool) (l : Nat) (m : Image) (count : Nat) : List Span :=
  directorySpan i l :: (m.blocks.take (blocksFor count)).flatMap (scanSpans i p hash l)
/-- The stored vector of a slot at a position of an image. -/
def vectorSpan (i : Nat) (p : IParams) (hash : Bool) (l : Nat) (m : Image) (pos : Nat) : Span :=
  let h := blockPlace hash (m.blocks.getD (pos / 64) 0) l
  ⟨some i, .full, h.1, h.2 * p.fullBytes + pos % 64 * (p.v * p.fpBytes), p.v * p.fpBytes⟩
/-- The published image of an allow-bitmap: the first half of the bitmap's pages. -/
def bitmapSpan (id : Nat) (m : BitmapImage) : Span := ⟨none, .bitmap id, 0, 0, m.nbits / 8⟩
/-- R51: what any search of an index can read at an epoch. -/
def State.searchSpans (s : State) (key : Nat) (x : Index) (hash rerank : Bool) (epoch : Nat) : List Span :=
  let i := key % 64
  let images := x.lists.flatMap (fun l =>
    let building := (s.evaporators.filter (fun e => e.2.key == key && e.2.list == l.1)).flatMap (fun e => e.2.blocks)
    ((l.2.imageFor epoch s.order).blocks ++ building).map (fun b => (l.1, b)))
  images.flatMap (fun lb => scanSpans i x.p hash lb.1 lb.2) ++
    (if rerank then images.map (fun lb =>
      let h := blockPlace hash lb.2 lb.1
      (⟨some i, .full, h.1, h.2 * x.p.fullBytes, x.p.fullBytes⟩ : Span)) else []) ++
    versionSpans i x epoch
/-- R51: every page that a class C search can read is pinned and resident. -/
def State.searchPinned (s : State) (key : Nat) (x : Index) (rerank : Bool) (epoch : Nat) : Bool :=
  let f := key / 64
  (s.searchSpans key x (s.cfg f).mapHash rerank epoch).all (fun a =>
    (s.spanOf f a).all (fun p => p.1.pinGddr && p.1.inGddr))

end Sys2Proof.Machine
end

