-- ==== Sys2Proof/Machine/Contents.lean ====
section
/-! DEFINITION. The bytes of a field's memory as the parts of its indexes, bitmaps and programs lie in it (Table 4.1;
R181, R224 to R229, R410, R495, R496), block digests included (R603). What the manual gives a part and no place for its
items is a free value (log 49). -/

namespace Sys2Proof.Machine

/-! ### Blocks (R225 to R228) -/

/-- The slots of a block of an image, none where the image has no such block. -/
def slotsIn (slots : List Slot) (blocks : List Nat) (b : Nat) : Option (List Slot) :=
  if blocks.contains b then some ((slots.drop (64 * blocks.idxOf b)).take 64) else none
/-- The first image of a list that owns a block: its slots in the block. -/
def ListRec.slotsOf (l : ListRec) (b : Nat) : Option (List Slot) :=
  (l.image :: l.olds).findSome? (fun i => slotsIn i.slots i.blocks b)
/-- The slots of a block of an index, in an image that an Evaporator builds too (R258). -/
def State.blockSlots (s : State) (key : Nat) (x : Index) (b : Nat) : Option (List Slot) :=
  (x.lists.findSome? (fun l => l.2.slotsOf b)).orElse (fun _ => s.evaporators.findSome? (fun e =>
    if e.2.key = key then slotsIn (compactedSlots e.2.e0 (x.list e.2.list).image.slots) e.2.blocks b else none))
/-- R225, R228: a scan block: 64 codes at stride s_c, 64 IDs, 64 groups of attribute words; every byte without entry data
is zero. -/
def IParams.scanBlock (p : IParams) (es : List Slot) : Bytes :=
  fit (64 * p.stride) (es.flatMap (fun e => fit p.stride e.code)) ++
    fit 512 (es.flatMap (fun e => leBytes 8 e.id.toNat)) ++
    fit (p.scanBytes - 64 * p.stride - 512) (es.flatMap (fun e =>
      (List.range p.attrWords).flatMap (fun i => leBytes 4 (e.attrs.getD i 0).toNat)))
/-- Table 4.1, R228: a full-precision block: V components of each of 64 slots, zero where no entry is. -/
def IParams.fullBlock (p : IParams) (es : List Slot) : Bytes :=
  fit p.fullBytes (es.flatMap (fun e => fit (p.v * p.fpBytes) (e.vec.flatMap (fun c => leBytes p.fpBytes c))))
/-- Table 4.1: the tombstone word of a block: bit p set when slot p holds no live entry. -/
def tombstoneWord (es : List Slot) : Nat :=
  sumBy (fun i => if (es[i]?).any (fun e => e.died.isNone) then 0 else 2 ^ i) (List.range 64)
/-- Number of a block from its half and its position in a part. -/
def blockAt (hash : Bool) (half pos : Nat) : Nat := if hash then pos else 2 * pos + half
/-- A 64-slot block's bytes at an offset, zero for a block of no image. -/
def State.blockByte (s : State) (key : Nat) (x : Index) (b o : Nat) (bytes : List Slot → Bytes) : Byte :=
  match s.blockSlots key x b with
  | none => Config.unheldByte key b o
  | some es => (bytes es).getD o 0

/-! ### What the scrubber reads of a block (R603) -/

/-- R603: the bytes of a block that hold entry data. -/
def IParams.entryBytes (p : IParams) (es : List Slot) : Bytes :=
  es.flatMap (fun e => fit p.codeBytes e.code) ++ es.flatMap (fun e => leBytes 8 e.id.toNat) ++
    es.flatMap (fun e => (List.range p.attrWords).flatMap (fun i => leBytes 4 (e.attrs.getD i 0).toNat)) ++
    es.flatMap (fun e => fit (p.v * p.fpBytes) (e.vec.flatMap (fun c => leBytes p.fpBytes c)))
/-- R228: byte o of a scan block with n filled slots holds entry data. -/
def IParams.scanData (p : IParams) (n o : Nat) : Bool :=
  let codes := 64 * p.stride
  if o < codes then o / p.stride < n && o % p.stride < p.codeBytes
  else if o < codes + 512 then (o - codes) / 8 < n
  else p.attrWords != 0 && (o - codes - 512) / (4 * p.attrWords) < n
/-- R158, R228: bits of byte o of a scan block that must be zero: all of a byte without entry data, and the high nibble of a code's
last byte when `m` is odd and `bits` is 4. -/
def IParams.zeroBits (p : IParams) (n o : Nat) : Nat :=
  if !p.scanData n o then 0xFF
  else if o < 64 * p.stride && p.bits == 4 && p.m % 2 == 1 && o % p.stride == p.codeBytes - 1 then 0xF0 else 0
/-- R603: the padding flag of a block as its bytes stand: some bit that R228 requires to be zero is not. -/
def IParams.paddingFlag (p : IParams) (n : Nat) (scan full : Bytes) : Bool :=
  (List.range scan.length).any (fun o => (scan.getD o 0).toNat &&& p.zeroBits n o != 0) ||
    (full.drop (n * (p.v * p.fpBytes))).any (fun b => b != 0)

/-! ### Parts -/

/-- A byte of a centroid row of a list (Table 4.1); a row not loaded yet is open. -/
def Index.centroidByte (x : Index) (key l o : Nat) : Byte :=
  match FMap.get? x.centroids l with
  | none => Config.unheldByte key l o
  | some row => (fit x.p.rowBytes (row.flatMap (fun c => leBytes (coarseFmt x.p.coarse).bytes c))).getD o 0
/-- A byte of the codebook: for each sub-quantiser its entries of FP32 values (Table 4.1). -/
def Index.codebookByte (x : Index) (key a : Nat) : Byte :=
  let size := x.p.entries * x.p.subDim * 4
  match FMap.get? x.codebook (a / size) with
  | none => Config.unheldByte key (a / size) (a % size)
  | some es => (es.flatMap (fun e => e.flatMap (fun v => leBytes 4 v.toNat))).getD (a % size) 0
/-- The items of a list descriptor: first block, last block, slots, tombstones, compaction state (Table 4.1). -/
def State.directoryItems (s : State) (key : Nat) (x : Index) (l : Nat) : List Nat :=
  let i := (x.list l).image
  [i.blocks.headD 0, i.blocks.getLastD 0, i.slots.length, (i.slots.filter (fun e => e.died.isSome)).length,
    if s.evaporators.any (fun e => e.2.key == key && e.2.list == l) then 1 else 0]
/-- The items of a block-table record: owning list, next block, filled slots (Table 4.1). -/
def State.blockItems (s : State) (key : Nat) (x : Index) (b : Nat) : List Nat :=
  match (s.blocksOf key).find? (fun e => e.1 == b) with
  | none => []
  | some e =>
    let chain := ((x.list e.2).image :: (x.list e.2).olds).map (fun i => i.blocks)
    let next := (chain.find? (fun bs => bs.contains b)).bind (fun bs => bs[bs.idxOf b + 1]?)
    [e.2, next.getD (2 ^ 32 - 1), ((s.blockSlots key x b).getD []).length]
/-- The ID map's records: external ID and local entry number of each live entry (R227, Table 4.1). -/
def Index.idRecords (x : Index) : List Nat :=
  x.lists.flatMap (fun l => (List.range l.2.image.slots.length).flatMap (fun n => match l.2.image.slots[n]? with
    | none => []
    | some e => if e.died.isSome then [] else [e.id.toNat, 64 * l.2.image.blocks.getD (n / 64) 0 + n % 64]))
/-- The items of the pending store: IDs, lists and codes of its records (R785). -/
def Index.pendingItems (x : Index) : List Nat :=
  x.pending.flatMap (fun m => m.puts.flatMap (fun r => [r.id.toNat, r.list, le r.code]) ++ m.dels.map (fun i => i.toNat))
/-- Byte o of a part of an index. -/
def State.indexPartByte (s : State) (key : Nat) (x : Index) (hash : Bool) (part : Part) (half a : Nat) : Byte :=
  let p := x.p
  match part with
  | .centroids => x.centroidByte key (blockAt hash half (a / p.rowBytes)) (a % p.rowBytes)
  | .codebook => x.codebookByte key a
  | .directory => Config.recordByte 2 (s.directoryItems key x (a / 64)) (a % 64)
  | .idMap => Config.recordByte 3 x.idRecords a
  | .blockTable => Config.recordByte 4 (s.blockItems key x (a / 16)) (a % 16)
  | .scan => s.blockByte key x (blockAt hash half (a / p.scanBytes)) (a % p.scanBytes) p.scanBlock
  | .full => s.blockByte key x (blockAt hash half (a / p.fullBytes)) (a % p.fullBytes) p.fullBlock
  | .tombstones => s.blockByte key x (a / 8) (a % 8) (fun es => leBytes 8 (tombstoneWord es))
  | .versions => Config.recordByte 8 (match x.versions[a / 32]? with
    | none => []
    | some v => [v.list, v.since, v.until_]) (a % 32)
  | .pendingStore => Config.recordByte 9 x.pendingItems a
  | _ => 0
/-- R181, R185: a byte of a bitmap's pages: the published image first, then the staging image. -/
def Bitmap.byte (b : Bitmap) (pages a : Nat) : Byte :=
  let bits := if a < pages / 2 * pageSize then (match b.published with
    | none => 0
    | some i => i.bits) else b.staging.bits
  BitVec.ofNat 8 (bits / 2 ^ (8 * (a % (pages / 2 * pageSize))))
/-- R199, R410: the saved tile files and scale fields of a program, core by core; their layout is open. -/
def Program.tileItems (p : Program) (core : Nat) : List Nat :=
  (FMap.getD p.tiles core []).flatMap (fun c => [c.1, c.2.toNat]) ++ (FMap.getD p.scales core []).flatMap (fun c => [c.1, c.2.toNat])
/-- Byte a of a part of field f, check frames apart. -/
def State.dataByte (s : State) (f : Nat) (y : Field) (index : Option Nat) (part : Part) (half a : Nat) : Byte :=
  match part, index with
  | .bitmap id, _ => (match FMap.get? y.bitmaps id with
    | none => 0
    | some b => b.byte (b.pages id).length a)
  | .program id, _ => (match FMap.get? y.programs id with
    | none => 0
    | some p => p.image.getD a 0)
  | .tileFile id, _ => (match FMap.get? y.programs id with
    | none => 0
    | some p => Config.recordByte 12 (p.tileItems (a / 8704)) (a % 8704))
  | .scratch id, _ => (match FMap.get? y.programs id with
    | none => 0
    | some p => Mem.read 0 p.scratch a)
  | .check, _ => 0
  | _, none => 0
  | _, some i => (match s.index? f i with
    | none => 0
    | some x => s.indexPartByte (indexKey f i) x y.cfg.mapHash part half a)
/-- Bytes of a page that is no check frame, from byte o. -/
def State.pageData (s : State) (f : Nat) (y : Field) (p : Page) (o n : Nat) : Bytes :=
  (List.range n).map (fun k => s.dataByte f y p.index p.part p.half (p.n * pageSize + o + k))

/-! ### Check frames (R495, R496) -/

/-- R496: the check block of a data frame: its place among the field's data frames, in an order the manual leaves open
(log 75). -/
def Field.checkSlot (x : Field) (f page : Nat) : Nat :=
  let key := fun (n : Nat) => Config.checkRank f n * 2 ^ 27 + n
  (x.pages.filter (fun p => p.inGddr && p.part != .check && key p.num < key page)).length
/-- R496: the check frame that holds a data frame's check block, and the block's place in it. -/
def Field.checkOf (x : Field) (f page : Nat) : Option (Page × Nat) :=
  let k := x.checkSlot f page
  (x.pages.find? (fun p => p.part == .check && p.n == k / 31)).map (fun p => (p, k % 31))
/-- R495: the check value of a chunk: bits 47:6 of its index address enter the code with its 64 bytes. -/
def State.checkValue (s : State) (f : Nat) (y : Field) (p : Page) (chunk : Nat) : BitVec 16 :=
  Config.checkCode ((p.num * pageSize + 64 * chunk) / 64 % 2 ^ 42) (s.pageData f y p (64 * chunk) 64)
/-- R496: byte o of check frame n: a block of 64 KiB for each of 31 data frames, the last 64 KiB zero. -/
def State.checkByte (s : State) (f : Nat) (y : Field) (n o : Nat) : Byte :=
  if 31 ≤ o / 65536 then 0
  else match y.pages.find? (fun p => p.inGddr && p.part != .check && y.checkSlot f p.num == 31 * n + o / 65536) with
    | none => 0
    | some p => (leBytes 2 (s.checkValue f y p (o % 65536 / 2)).toNat).getD (o % 2) 0
/-- Bytes of a page of field f from byte o. -/
def State.pageBytes (s : State) (f : Nat) (p : Page) (o n : Nat) : Bytes :=
  match s.field? f with
  | none => zeros n
  | some y =>
    if p.part = .check then (List.range n).map (fun k => s.checkByte f y p.n (o + k)) else s.pageData f y p o n
/-- Bytes at an address of a field's index address space; zero where no page is. -/
def State.indexBytes (s : State) (f a n : Nat) : Bytes :=
  match (s.field? f).bind (fun y => y.pages.find? (fun p => p.num == a / pageSize)) with
  | none => zeros n
  | some p => s.pageBytes f p (a % pageSize) n

end Sys2Proof.Machine
end

