-- ==== Sys2Proof/Machine/StreamOps.lean ====
section
/-! DEFINITION. Stream descriptors, positions and contexts (08, Stream descriptors, Run-ahead, Mid-stream faults;
R429 to R441, R476 to R480). -/

namespace Sys2Proof.Machine

/-! ### Descriptors (Tables 8.1 to 8.4) -/

/-- `form`: 0 address program, 1 index-driven. -/
def descForm (d : Bytes) : Nat := num d 0 1
/-- `dir`: 0 read, 1 write. -/
def descDir (d : Bytes) : Nat := num d 1 1
/-- `space`: 0 index address space, 1 scratch pages. -/
def descSpace (d : Bytes) : Nat := num d 2 1
/-- Element size in bytes. -/
def descElem (d : Bytes) : Nat := 2 ^ num d 3 1
/-- `buf_addr`. -/
def descBuf (d : Bytes) : Nat := num d 4 4
/-- Buffer size in bytes. -/
def descBufSize (d : Bytes) : Nat := 2 ^ num d 8 1
/-- `drain`. -/
def descDrain (d : Bytes) : Nat := num d 12 4
/-- `base[b]`, bits 47:0. -/
def descBase (d : Bytes) (b : Nat) : BitVec 48 := BitVec.ofNat 48 (num d (16 + 8 * b) 8)
/-- `stride[s]`, sign-extended. -/
def descStride (d : Bytes) (s : Nat) : BitVec 48 := (BitVec.ofNat 32 (num d (48 + 4 * s) 4)).signExtend 48
/-- `count[c]`. -/
def descCount (d : Bytes) (c : Nat) : BitVec 16 := BitVec.ofNat 16 (num d (80 + 2 * c) 2)
/-- Instruction n of the address program; END past the last one (R430). -/
def descProg (d : Bytes) (n : Nat) : BitVec 16 := if n < 16 then BitVec.ofNat 16 (num d (88 + 2 * n) 2) else 0
/-- `op` of an address-program instruction. -/
def apOp (w : BitVec 16) : Nat := w.toNat / 4096
/-- Bits 11:10. -/
def apX (w : BitVec 16) : Nat := w.toNat / 1024 % 4
/-- Bits 9:8. -/
def apB (w : BitVec 16) : Nat := w.toNat / 256 % 4
/-- Bits 9:7. -/
def apS (w : BitVec 16) : Nat := w.toNat / 128 % 8
/-- Elements that an EMIT emits. -/
def apN (w : BitVec 16) : Nat := w.toNat % 256 + 1

/-- R433: the loop levels of instructions n to 15 are properly nested, from the levels now open; the scan ends at an
END outside every loop (log 55). -/
def apNested (d : Bytes) : Nat → Nat → List Nat → Bool
  | 0, _, opened => opened.isEmpty
  | f + 1, n, opened =>
    let w := descProg d n
    match apOp w with
    | 0 => if opened.isEmpty then true else apNested d f (n + 1) opened
    | 4 => !opened.contains (apX w) && apNested d f (n + 1) (apX w :: opened)
    | 5 => (match opened with
      | [] => false
      | l :: rest => l == apX w && apNested d f (n + 1) rest)
    | k => k < 4 && apNested d f (n + 1) opened
/-- R433: the form-0 part of a descriptor is well formed. -/
def apFormOk (d : Bytes) : Bool :=
  (List.range 4).all (fun b => num d (22 + 8 * b) 2 == 0) && apNested d 16 0 []
/-- R433, Table 8.4: the form-1 part is well formed. -/
def gatherFormOk (d : Bytes) : Bool :=
  descDir d == 0 && 1 ≤ num d 24 4 && num d 24 4 ≤ 65536 && (num d 28 1 == 4 || num d 28 1 == 8) && num d 29 1 ≤ 1 &&
    num d 30 1 ≤ 1 && (num d 30 1 == 0 || num d 31 1 ≤ 63) && 1 ≤ num d 44 4 && num d 44 4 ≤ 65536 &&
    num d 44 4 % descElem d == 0
/-- R433, R436: a descriptor that SSTART may start, but for the length of its sequence. -/
def descOk (d : Bytes) : Bool :=
  descForm d ≤ 1 && descDir d ≤ 1 && descSpace d ≤ 1 && num d 3 1 ≤ 6 && descBuf d % 64 == 0 && 12 ≤ num d 8 1 &&
    num d 8 1 ≤ 17 && num d 9 1 == 0 && num d 10 1 ≤ 2 && descBuf d + descBufSize d ≤ 131072 &&
    (if descForm d = 0 then apFormOk d else gatherFormOk d && num d 24 4 * num d 44 4 ≤ descBufSize d)

/-! ### The byte sequence -/

/-- Bytes that the emitted elements make. -/
def AddrProg.bytes (p : AddrProg) (e : Nat) : Nat := sumBy (fun r => r.2 * e) p.emitted
/-- The address of byte `off` of a sequence of runs (address, elements) of e-byte elements. -/
def runAddr (e : Nat) : Nat → List (Nat × Nat) → Option Nat
  | _, [] => none
  | off, (a, n) :: rest => if off < n * e then some (a + off) else runAddr e (off - n * e) rest
/-- Address of index value n of an index-driven stream (Table 8.4). -/
def indexAt (d : Bytes) (n : Nat) : Nat := num d 16 8 + n * num d 28 1
/-- R431: index value n of an index-driven stream, read in the requester's local memory or in the index address space. -/
def State.indexValue (s : State) (x : Stream) (n : Nat) : Nat :=
  let d := x.desc
  if num d 29 1 = 1 then le (Mem.readN 0 (s.core x.core).mem (indexAt d n % 131072) (num d 28 1))
  else le (s.indexBytes x.field (indexAt d n) (num d 28 1))
/-- Length of a stream's byte sequence. -/
def Stream.length (x : Stream) : Nat :=
  if descForm x.desc = 0 then x.prog.bytes (descElem x.desc) else num x.desc 24 4 * num x.desc 44 4
/-- R437: tiles of a stream. -/
def Stream.tiles (x : Stream) : Nat := ceilDiv x.length 4096
/-- R432: where byte p of the sequence lands in the consumer's buffer. -/
def descPlace (d : Bytes) (p : Nat) : Nat := descBuf d + (if num d 9 1 = 0 then p else p % descBufSize d)
/-- R432: a ring buffer has room for a tile: the bytes that it would overwrite have been consumed. -/
def Stream.roomFor (x : Stream) (tile : Nat) : Bool :=
  num x.desc 9 1 == 0 || 4096 * (tile + 1) ≤ 4096 * x.tile + descBufSize x.desc
/-- The address of byte `off` of a stream with `map` 0 (R430, R431). -/
def State.addrAt (s : State) (x : Stream) (off : Nat) : Option Nat :=
  let d := x.desc
  if descForm d = 0 then runAddr (descElem d) off x.prog.emitted
  else if num d 30 1 = 1 then none
  else some (num d 32 8 + s.indexValue x (off / num d 44 4) * num d 40 4 + off % num d 44 4)
/-- R227, R431: byte `off` of a stream with `map` 1, in the full-precision part of its index; none without the index. -/
def State.entrySpan (s : State) (x : Stream) (off : Nat) : Option Span :=
  let d := x.desc
  (s.index? x.field (num d 31 1)).map (fun i =>
    let e := s.indexValue x (off / num d 44 4)
    let b := blockPlace (s.cfg x.field).mapHash (e / 64) (e / 64)
    ⟨some (num d 31 1), .full, b.1, b.2 * i.p.fullBytes + e % 64 * (i.p.v * i.p.fpBytes) + off % num d 44 4, 1⟩)
/-- The stream gathers stored vectors by their local entry numbers (`map` 1). -/
def byEntry (d : Bytes) : Bool := descForm d == 1 && num d 30 1 == 1
/-- The page of the index address space that holds byte `off` of a stream. -/
def State.streamPage (s : State) (x : Stream) (off : Nat) : Option Nat :=
  if descSpace x.desc ≠ 0 then none
  else if byEntry x.desc then
    (s.entrySpan x off).bind (fun a => (s.spanOf x.field a).head?.map (fun p => p.1.num))
  else (s.addrAt x off).map (fun a => a / pageSize)
/-- R477: the page on which a stream is positioned. -/
def State.positionOf (s : State) (x : Stream) : Option Nat :=
  match x.phase with
  | .halted p => some p
  | .resumed p => some p
  | .running => if x.tile < x.tiles then s.streamPage x (4096 * x.tile) else none
  | .ended _ => none

/-! ### Halted reads (R476 to R480) -/

/-- Table 8.7: a stream context; `pos` are its bytes 24 to 56. -/
def contextBytes (stream cls form thread requester list tile addr : Nat) (pos : Bytes) (ahead : Nat) : Bytes :=
  leBytes 2 stream ++ leBytes 1 cls ++ leBytes 1 form ++ [1] ++ leBytes 1 thread ++ leBytes 2 requester ++
    leBytes 4 list ++ leBytes 4 tile ++ leBytes 8 addr ++ fit 33 pos ++ leBytes 1 ahead ++ zeros 6
/-- Table 8.7, bytes 24 to 56 of a program's stream: `idx` is the next index position of form 1. -/
def positionBytes (form idx : Nat) (p : AddrProg) : Bytes :=
  (if form = 0 then fit 24 (p.x.flatMap (fun x => leBytes 6 x.toNat)) else leBytes 4 idx ++ zeros 20) ++
    fit 8 (p.loops.flatMap (fun l => leBytes 2 l.toNat)) ++ leBytes 1 (p.pc % 16 + 16 * p.openLevels.length)

/-- R479: the queries that p names, and their commands, carry PAGED. -/
def State.markPaged (s : State) (p : QRef → Bool) : State :=
  let qs := (s.queries.filter (fun q => p q.ref)).map (fun q => q.ref)
  let s := s.setQueries (s.queries.map (fun q => if p q.ref then { q with flags := q.flags ||| flPAGED } else q))
  s.setCmds (s.cmds.map (fun c => if qs.any (fun r => r.of c.ring c.seq) then { c with flags := c.flags ||| flPAGED } else c))
/-- R479: a command that reads pages itself carries PAGED. -/
def State.markCmdPaged (s : State) (ring : Nat) (seq : BitVec 48) : State :=
  s.setCmds (s.cmds.map (fun c => if c.is ring seq then { c with flags := c.flags ||| flPAGED } else c))
/-- R479: who halts on a page carries PAGED: the queries that p names, a command, the COMPACTs whose list is read, a part
of a search. -/
def State.notePaged (s : State) (r : Reader) (p : QRef → Bool) : State :=
  match r with
  | .cmd ring seq => s.markCmdPaged ring seq
  | .evaporator n => match FMap.get? s.evaporators n with
    | none => s
    | some e => s.setCmds (s.cmds.map (fun c => match c.work with
      | .compact k ls _ _ => if k = e.key && ls.contains e.list then { c with flags := c.flags ||| flPAGED } else c
      | _ => c))
  | .part n => match FMap.get? s.served n with
    | none => s
    | some j => { s with served := FMap.set s.served n { j with query := { j.query with flags := j.query.flags ||| flPAGED } } }
  | _ => s.markPaged p

/-- R438, R440: the tiles behind the oldest unconsumed one whose pages are all resident: their requests were not dropped. -/
def State.tilesAheadMask (s : State) (f tile : Nat) (xs : List Span) : Nat :=
  let segs := s.segments f 0 xs
  sumBy (fun i =>
    let a := 4096 * (tile + 1 + i)
    let mine := segs.filter (fun g => g.off < a + 4096 && a < g.off + g.len)
    if !mine.isEmpty && mine.all (fun g => g.page.inGddr) then 2 ^ i else 0) (List.range 4)

/-- R476, R450: a read of the device's own work, of the spans `xs`, halts at a piece whose page is not resident; `stream`
says that it reads tiles and runs ahead, as no narrow read does (R450). The context's position registers are those of a
descriptor that the Steward builds (log 68). -/
def State.haltReader (s : State) (f : Nat) (r : Reader) (cls requester : Nat) (stream : Bool) (xs : List Span) (g : Segment)
    (p : QRef → Bool) : State :=
  let n := s.nextStream
  let list := match r with
    | .pass _ l _ => l
    | _ => 0xFFFF_FFFF
  let tile := if stream then g.off / 4096 else 0
  let page := g.page.num
  let x : Stream :=
    { desc := [], field := f, run := none, core := requester % 256, thread := 0, slot := 0, reader := r
      prog := AddrProg.reset, tile := tile, requested := [], delivered := [], ahead := 0, issued := [], phase := .halted page
      context := contextBytes (n % 65536) cls 0 0 requester list tile (page * pageSize + g.at_) (Config.streamPosition n)
        (if stream then s.tilesAheadMask f tile xs else 0)
      faultTime := s.tbk }
  let s := { s with streams := FMap.set s.streams n x, nextStream := n + 1 }
  (s.notePaged r p).traceRec 5 f noUnit (BitVec.ofNat 64 n) (BitVec.ofNat 64 page)

/-- A read of the device's own work is halted. -/
def State.readerHalted (s : State) (r : Reader) : Bool :=
  s.streams.any (fun x => x.2.reader == r && (match x.2.phase with
    | .halted _ => true
    | _ => false))
/-- A read of the device's own work goes on or ends: its context is gone. -/
def State.dropReader (s : State) (r : Reader) : State :=
  { s with streams := s.streams.filter (fun x => x.2.reader != r) }

/-! ### Regulators (R511 to R513) -/

/-- R473: the largest of the old rates that a field keeps. -/
def Field.keptRate (x : Field) : Nat := maxBy (fun r => r.1) x.keepRates
/-- R511: the bucket at a TBK time: it gains `reg_rate` tokens per µs up to its limit. -/
def Field.refill (x : Field) (now : Nat) : Field :=
  { x with
    tokens := min (x.cfg.regBurst * 1024000) (x.tokens + x.cfg.regRate * (now - x.tokensAt)), tokensAt := now
    extra := if x.keepRates.isEmpty then 0
      else min (x.cfg.regBurst * 1024000) (x.extra + (x.keptRate - x.cfg.regRate) * (now - x.tokensAt)) }
/-- R501: bytes with the check bytes read or written beside them. -/
def FieldCfg.withChecks (c : FieldCfg) (n : Nat) : Nat := if c.ecc then ceilDiv (n * 33) 32 else n
/-- n bytes of data moved for field f, charged to its bucket as far as it holds tokens, with their check bytes (R501,
R513). -/
def State.charge (s : State) (f n : Nat) : State :=
  s.modField f (fun x => let y := x.refill s.tbk
                         { y with tokens := y.tokens - 1000 * x.cfg.withChecks n })

/-! ### Page-in (R477) -/

/-- R230: the part may be moved to the host page pool. -/
def Part.movable (p : Part) : Bool :=
  match p with
  | .blockTable | .scan | .full | .tombstones | .versions | .pendingStore => true
  | _ => false
/-- R477: frames that may be freed for a page-in, least recently used first; pages in `passed` are passed over. -/
def State.victims (s : State) (f : Nat) (passed : List Nat) : List Page :=
  match s.field? f with
  | none => []
  | some x =>
    let held := (s.streams.filter (fun y => y.2.field == f)).filterMap (fun y => s.positionOf y.2)
    sortLt (fun a b => a.lastUse < b.lastUse || (a.lastUse == b.lastUse && a.num < b.num))
      (x.pages.filter (fun p => p.inGddr && !p.pinGddr && p.part.movable && !held.contains p.num && !passed.contains p.num &&
        (p.slot.isSome || !x.freeSlots.isEmpty)))
/-- A page replaced in its field. -/
def State.setPage (s : State) (f : Nat) (p : Page) : State :=
  s.modField f (fun x => { x with pages := x.pages.map (fun q => if q.num = p.num then p else q) })
/-- The Granary lines of a page gone from their frame. -/
def State.dropLines (s : State) (f : Nat) (l : Loc) : State :=
  s.retire false (fun g => g.field == f && l.holds g.channel g.j)
/-- R497: check frames that no data frame needs any more given up. -/
def State.trimChecks (s : State) (f : Nat) : State := s.modField f Field.trimChecks
/-- R477: a frame freed: its page returns to its pool slot, written when it changed or had none. -/
def State.evict (s : State) (f : Nat) (p : Page) : State :=
  match s.field? f with
  | none => s
  | some x =>
    let s := s.dropLines f p.loc
    let s := if p.changed || p.slot.isNone then (s.countField f 21 1).charge f pageSize else s
    match (match p.slot with
      | some a => some (Loc.pool a)
      | none => x.freeSlot) with
    | none => s
    | some l => s.setPage f { p with loc := l, slot := none, changed := false }
/-- What the search for a frame to free came to. -/
structure Freed where
  s : State
  /-- A frame was freed. -/
  done : Bool
  /-- Pages whose write-back failed on the way. -/
  failed : List Nat
/-- R477: the first candidate whose write-back succeeds is freed; `fails` write-backs fail first, each logged and passed
over. -/
def State.freeVictim (s : State) (f : Nat) : List Page → Nat → List Nat → Freed
  | [], _, passed => ⟨s, false, passed⟩
  | p :: ps, n, passed =>
    if (p.changed || p.slot.isNone) && n ≠ 0 then
      State.freeVictim (s.logEvent evWRITEBACK_FAILED f (Config.severity evWRITEBACK_FAILED) noUnit (leBytes 8 p.num)) f ps (n - 1)
        (p.num :: passed)
    else ⟨s.evict f p, true, passed⟩
/-- A page of the pool copied into a frame that `pick` gives; none when it gives none. -/
def State.placePage (s : State) (f : Nat) (p : Page) (pick : State → Option (State × Loc)) : Option State :=
  match p.loc with
  | .pool a =>
    match pick s with
    | none => none
    | some (t, l) => some (((t.setPage f { p with loc := l, slot := some a, changed := false, lastUse := s.tbk }).countField f 20 1).charge
        f pageSize)
  | _ => some s
/-- R477, R783: the frame that a freed page leaves, taken for another page of the field: the field's use does not rise,
whatever its quota. -/
def State.reuseFrame (s : State) (f : Nat) (p : Page) : Option (State × Loc) :=
  match s.field? f with
  | none => none
  | some x => (s.freeFrame x p.part p.half).map (fun l => (s, l))
/-- What a page-in comes to. -/
inductive PageIn where
  /-- The page is resident. -/
  | done (s : State)
  /-- No frame can be freed: the page-in waits, and remembers the pages passed over. -/
  | waits (s : State)
  /-- The read of the page failed (R481); a frame may have been freed for it. -/
  | failed (s : State)
/-- R477: the page-in in progress of field f, if one is, noted or ended. -/
def State.notePageIn (s : State) (f : Nat) (x : Option (Nat × List Nat)) : State := s.modField f (fun y => { y with pageIn := x })
/-- R477, R481: a page brought in, a frame freed first when none is free; `fails` write-backs fail first. -/
def State.bringIn (s : State) (f : Nat) (p : Page) (passed : List Nat) (fails : Nat) (readOk : Bool) : PageIn :=
  let ended := fun (t : State) => t.notePageIn f none
  match s.placePage f p (fun s => s.frameFor f p.part p.half) with
  | some t => if readOk then .done (ended t) else .failed (ended s)
  | none =>
    let r := s.freeVictim f (s.victims f passed) fails passed
    if !r.done then .waits (r.s.notePageIn f (some (p.num, r.failed)))
    else if !readOk then .failed (ended (r.s.trimChecks f))
    else match r.s.placePage f p (fun t => t.reuseFrame f p) with
      | none => .waits ((r.s.trimChecks f).notePageIn f (some (p.num, r.failed)))
      | some t => .done (ended t)

end Sys2Proof.Machine
end

