-- ==== Sys2Proof/Machine/Granary.lean ====
section
/-! DEFINITION. The Granary: ways and their replacement, long lines, compressed lines, lookups, the directory and its
invalidations, and atomic adds in mode A and mode D (09, The Granary; R346 to R349, R516 to R534, R684). -/

namespace Sys2Proof.Machine

/-! ### Places -/

/-- R504 read backwards: the line of its frame that lies at a channel line. -/
def Loc.lineAt (l : Loc) (c j : Nat) : Nat :=
  match l with
  | .hash f =>
    let h := j % 512 * 16
    h + (c ^^^ h / 64 % 16 ^^^ h / 1024 % 8 ^^^ xorGroups 4 32 f)
  | .near _ f =>
    let h := j % 1024 * 8
    h + (c % 8 ^^^ h / 32 % 8 ^^^ h / 256 % 8 ^^^ h / 2048 % 4 ^^^ xorGroups 3 32 f)
  | .pool _ => 0
/-- The page of a field whose frame holds a channel line. -/
def State.pageOfLine (s : State) (f c j : Nat) : Option Page :=
  match s.field? f with
  | none => none
  | some x => x.pages.find? (fun p => p.loc.holds c j)
/-- Channel and channel line of an index address of a resident page. -/
def Page.placeOf (p : Page) (a : Nat) : Option (Nat × Nat) := p.loc.place (a % pageSize / 256)

/-! ### Compressed formats (Table 9.4) -/

/-- The words of w bytes of a line. -/
def lineWords (w : Nat) (b : Bytes) : List Nat := (List.range (256 / w)).map (fun n => num b (w * n) w)
/-- Every word less the first, modulo 2^(8w), fits a signed number of d bits. -/
def deltasFit (w d : Nat) (b : Bytes) : Bool :=
  (lineWords w b).all (fun x =>
    let y := (x + 2 ^ (8 * w) - num b 0 w) % 2 ^ (8 * w)
    y < 2 ^ (d - 1) || 2 ^ (8 * w) - 2 ^ (d - 1) ≤ y)
/-- R528: the format in which a line is stored: the first that fits in 128 bytes, else RAW. -/
def lineFormat (b : Bytes) : Nat :=
  if (lineWords 8 b).all (fun x => x == 0) then 1
  else if deltasFit 4 8 b then 2
  else if deltasFit 8 16 b then 3
  else if deltasFit 8 24 b then 4
  else if ((lineWords 8 b).filter (fun x => x != 0)).length ≤ 14 then 5
  else 0

/-! ### Ways (R516, R522, R529) -/

/-- The line waits only for acknowledgements of its eviction and holds no way any more (log 73). -/
def Line.leaving (l : Line) : Bool := l.dir == .W && l.pend.isNone
/-- R529: what a way holds: a RAW line, or a compressed line with its buddy. -/
def Line.way (l : Line) : Nat × Nat × Nat := (l.channel, (l.fmt == 0).toNat, if l.fmt = 0 then l.j else l.j / 2)
/-- Lines of a set of a slice that hold a way, most recently used first. -/
def State.inSet (s : State) (slice set : Nat) : List Line :=
  s.granary.filter (fun l => l.slice == slice && setOf l.j == set && !l.leaving)
/-- Ways that lines take, most recently used first. -/
def waysOf (ls : List Line) : List (Nat × Nat × Nat) := (ls.map Line.way).eraseDups
/-- R522: the least recently used way of a set without a pinned line or a line in state W. -/
def victimWay (ls : List Line) : Option (Nat × Nat × Nat) :=
  ((waysOf ls).filter (fun w => ls.all (fun l => l.way != w || (!l.pinned && l.dir != .W)))).getLast?
/-- A line replaced where it stands. -/
def State.setLine (s : State) (l : Line) : State :=
  { s with granary := s.granary.map (fun x => if x.at_ (l.channel, l.j) then l else x) }
/-- The line of a channel line, if the Granary holds it. -/
def State.lineOf (s : State) (c j : Nat) : Option Line := s.granary.find? (fun l => l.at_ (c, j))
/-- Table 9.5: an eviction: from U the line goes; from S its sharers are invalidated first. -/
def State.evictLine (s : State) (l : Line) : State :=
  if l.dir = .S then s.setLine { l with dir := .W, pend := none }
  else s.retire true (fun x => x.at_ (l.channel, l.j))
/-- R522, R529: a way for a line that comes into a set; the buddy's way serves when both are compressed. None where every
way is pinned or in state W. -/
def State.makeWay (s : State) (l : Line) : Option State :=
  let ls := (s.inSet l.slice (setOf l.j)).filter (fun x => !x.at_ (l.channel, l.j))
  if (waysOf ls).contains l.way || (waysOf ls).length < 20 then some s
  else match victimWay ls with
    | none => none
    | some w => some ((ls.filter (fun x => x.way == w)).foldl State.evictLine s)
/-- R522: a line made the most recently used. -/
def State.useLine (s : State) (l : Line) : State :=
  { s with granary := l :: s.granary.filter (fun x => !x.at_ (l.channel, l.j)) }
/-- A line installed in its home slice, where a way can be had (R443, R522). -/
def State.install (s : State) (l : Line) : State :=
  match s.makeWay l with
  | none => s
  | some t => t.useLine l
/-- R528: the format of a line of a field. -/
def State.formatIn (s : State) (f : Nat) (b : Bytes) : Nat := if (s.cfg f).compressedLines then lineFormat b else 0
/-- A line of a field as a fill makes it: in state U, or S with the core of an LDC (Table 9.5). -/
def State.newLine (s : State) (f c j : Nat) (b : Bytes) (sharer : Option Nat) : Line :=
  { slice := s.home f c j, channel := c, j := j, field := f, dir := if sharer.isSome then .S else .U
    sharers := sharer.toList, pend := none, dirty := false, pinned := false, fmt := s.formatIn f b, companion := false }

/-! ### Lookups -/

/-- R684: the lookup is one of the first `value` of 256 that control 6 turns into misses. -/
def State.forcedMiss (s : State) (f slice : Nat) : Bool :=
  match s.field? f with
  | none => false
  | some x => s.perturbIn f && FMap.getD x.lookups slice 0 % 256 < s.control 6 f slice
/-- A lookup of field f in a slice counted, with its outcome (Table 12.7). -/
def State.countLookup (s : State) (f slice : Nat) (hit : Bool) : State :=
  let s := s.modField f (fun x => { x with lookups := FMap.set x.lookups slice ((FMap.getD x.lookups slice 0 + 1) % 256) })
  let s := s.count 2 (64 + slice) 1
  if hit then s.countField f 18 1 else (s.countField f 19 1).count 2 (96 + slice) 1
/-- R522, R527, R684: a lookup of a line: whether it is served from the Granary. A line so served is the most recently
used; a line that control 6 passes over is written back where it is dirty, and keeps its way. -/
def State.lookupLine (s : State) (f c j : Nat) : State × Bool :=
  let slice := s.home f c j
  let forced := s.forcedMiss f slice
  match s.lineOf c j with
  | none => (s.countLookup f slice false, false)
  | some l =>
    if forced then ((s.writeBack l).setLine { l with dirty := false } |>.countLookup f slice false, false)
    else ((s.useLine { l with companion := false }).countLookup f slice true, true)
/-- R526: the channel lines that a miss fetches. -/
def State.fetchGroup (s : State) (f c j : Nat) : List Nat :=
  if (s.cfg f).longLines then
    ((List.range 4).map (fun n => 4 * (j / 4) + n)).filter (fun n => n == j || (s.lineOf c n).isNone)
  else [j]
/-- R443, R526 to R528: a fetched line of a group installed; the others of the group are companions. -/
def State.fill (s : State) (f c j k : Nat) (b : Bytes) : State :=
  match s.lineOf c k with
  | some _ => s
  | none => s.install { s.newLine f c k b none with companion := k != j }

/-! ### Writes and invalidations (R531 to R534) -/

/-- R531: a line after a write: RAW when pinned or no longer encodable, its format else; a line that leaves its buddy's
way takes one of its own. -/
def State.rewriteLine (s : State) (l : Line) (b : Bytes) : State :=
  let new := { l with dirty := true, dir := Dir.U, pend := none, sharers := [], fmt := if l.pinned then 0 else s.formatIn l.field b }
  match s.makeWay new with
  | none => s.setLine new
  | some t => t.useLine new
/-- A line dropped from a core's read cache. -/
def Core.dropLine (c : Core) (key : Nat) : Core := { c with cache := c.cache.filter (fun e => e.1 != key) }
/-- The read cache of a core with a line, newest first. -/
def Core.cacheLine (c : Core) (key : Nat) (b : Bytes) : Core :=
  { c with cache := ((key, b) :: c.cache.filter (fun e => e.1 != key)).take 64 }
/-- R533: a write of a program to a line of its scratch pages; on a line in state S it is held back while the sharers are
invalidated. -/
def State.writeLine (s : State) (f prog c j a : Nat) (b line : Bytes) : State :=
  let t := s.modField f (fun x => match FMap.get? x.programs prog with
    | none => x
    | some p => { x with programs := FMap.set x.programs prog { p with scratch := Mem.write 0 p.scratch a b } })
  match s.lineOf c j with
  | none => { t with cores := FMap.mapVals t.cores (fun _ k => k.dropLine (lineKey c j)) }.install
      { s.newLine f c j line none with dirty := true }
  | some l =>
    if l.dir = .S then s.setLine { l with dir := .W, pend := some (prog, a, b) }
    else t.rewriteLine l line
/-- The bytes of a scratch line of a program. -/
def State.scratchLine (s : State) (f prog a : Nat) : Bytes :=
  match (s.field? f).bind (fun x => FMap.get? x.programs prog) with
  | none => zeros 256
  | some p => Mem.readN 0 p.scratch (a / 256 * 256) 256
/-- Table 9.5: every acknowledgement has come: the write is applied, or the eviction ends. -/
def State.settleLine (s : State) (l : Line) : State :=
  match l.pend with
  | none => s.retire true (fun x => x.at_ (l.channel, l.j))
  | some (prog, a, _) =>
    let t := s.applyPend l
    t.rewriteLine l (t.scratchLine l.field prog a)

/-- Executes INVALIDATION_ACK (Table 9.5, R532 to R534). -/
def execInvalidationAck (slice channel line core : Nat) (s : State) : Result :=
  if 32 ≤ slice || 16 ≤ channel || 128 ≤ core then .fault .noSuchUnit
  else match s.lineOf channel line with
    | none => .next s
    | some l =>
      if !s.up || l.slice != slice || l.dir != .W || !l.sharers.contains core then .next s
      else
        let t := s.setCore core ((s.core core).dropLine (lineKey channel line))
        let m := { l with sharers := l.sharers.filter (fun c => c != core) }
        if m.sharers.isEmpty then .next (t.settleLine m) else .next (t.setLine m)

end Sys2Proof.Machine
end

