-- ==== Sys2Proof/Machine/Grants.lean ====
section
/-! DEFINITION. Requests at the memory channels: arbitration and regulators, grants, the checks of inline ECC, and the reads
and writes of the device's own work (08, Channel arbitration, The narrow path; 09, Inline ECC, Regulators; R443, R448 to
R457, R495 to R501, R511 to R514, R533). -/

namespace Sys2Proof.Machine

/-! ### Arbitration (Table 8.5) -/

/-- R457: a level 2 request: a narrow-path read of class C work. -/
def Request.priority (q : Request) : Bool := q.narrow && !q.write && q.cls == 0
/-- R454, R455: a is granted before b. -/
def Request.before (a b : Request) : Bool :=
  let key := fun (q : Request) => match q.deadline with
    | none => (1, 0)
    | some t => (0, t)
  let rest := (if a.cls = 0 then 0 else 1, a.field, a.stream)
  let other := (if b.cls = 0 then 0 else 1, b.field, b.stream)
  (key a).1 < (key b).1 || ((key a).1 == (key b).1 && ((key a).2 < (key b).2 || ((key a).2 == (key b).2 &&
    (rest.1 < other.1 || (rest.1 == other.1 && (rest.2.1 < other.2.1 ||
      (rest.2.1 == other.2.1 && rest.2.2 < other.2.2)))))))
/-- The request granted first of those that p names. -/
def bestOf (p : Request → Bool) (l : List Request) : Option Request := (sortLt Request.before (l.filter p)).head?
/-- Channel lines that a request moves on a channel. -/
def State.linesOf (s : State) (c : Nat) (q : Request) : List Nat :=
  if q.write || q.narrow then [q.line] else s.fetchGroup q.field c q.line
/-- R501, R511: bytes of a grant that the regulator counts. -/
def State.priceOf (s : State) (c : Nat) (q : Request) : Nat := (s.cfg q.field).withChecks (256 * (s.linesOf c q).length)
/-- R473, R511: tokens, in thousandths, that a request may take. -/
def State.tokensFor (s : State) (q : Request) : Nat :=
  match s.field? q.field with
  | none => 0
  | some x => let y := x.refill s.tbk
              if q.cls = 0 then y.tokens + y.extra else y.tokens
/-- R456: class C requests of the field wait at some channel; those of the priority lane take tokens too (R457). -/
def State.classCWaits (s : State) (f : Nat) : Bool :=
  s.channels.any (fun c => c.2.queue.any (fun q => q.field == f && q.cls == 0))
/-- R456, R512: a level 3 request for which its field's tokens suffice. -/
def State.funded (s : State) (c : Nat) (q : Request) : Bool :=
  1000 * s.priceOf c q ≤ s.tokensFor q && (q.cls == 0 || !s.classCWaits q.field)
/-- R453: the level and the request that a channel grants next, level 1 apart. -/
def State.nextGrant (s : State) (c : Nat) : Option (Nat × Request) :=
  let l := (s.channel c).queue
  match bestOf Request.priority l with
  | some q => some (2, q)
  | none => match bestOf (fun q => s.funded c q) l with
    | some q => some (3, q)
    | none => (bestOf (fun q => (s.cfg q.field).workConserving) l).map (fun q => (4, q))
/-- R512: n bytes taken from a field's bucket; a class C request takes the kept rate's tokens last. -/
def State.takeTokens (s : State) (f n : Nat) : State :=
  s.modField f (fun x =>
    let y := x.refill s.tbk
    { y with tokens := y.tokens - 1000 * n, extra := y.extra - (1000 * n - y.tokens) })

/-! ### Grants -/

/-- The device runs and its memory is trained. -/
def State.memoryOn (s : State) : Bool := s.up && s.memRate != 0
/-- The channel serves: its pair has not failed and it does not retrain (R488, R493). -/
def State.channelServes (s : State) (c : Nat) : Bool :=
  s.memoryOn && !(s.channel c).retraining && s.unitState 10 (c / 2) != 4
/-- R449: narrow-path requests of a unit that wait at the channels. -/
def State.narrowOf (s : State) (unit : Nat) : Nat :=
  sumBy (fun c => (c.2.queue.filter (fun q => q.narrow && q.unit == unit)).length) s.channels
/-- R449: a requester has at most 32 narrow-path requests outstanding; a further one stalls it. -/
def State.narrowStalls (s : State) (unit : Nat) : Bool := 32 ≤ s.narrowOf unit
/-- R514: level 2 requests that wait at a channel. -/
def State.lane (s : State) (c : Nat) : List Request := (s.channel c).queue.filter Request.priority
/-- R514: a channel's priority queue holds at most 32 requests; a further one stalls its requester. -/
def State.laneFull (s : State) (c : Nat) (q : Request) : Bool := q.priority && 32 ≤ (s.lane c).length
/-- R453, R514: level 1 work comes first, but at most one operation before a queued level 2 request. -/
def State.upkeepFirst (s : State) (c : Nat) : Bool :=
  !(s.channel c).upkeep.isEmpty && !((s.channel c).upkept && !(s.lane c).isEmpty)
/-- The next level 1 operation of a channel done. -/
def State.doUpkeep (s : State) (c : Nat) : State :=
  s.setChannel c { s.channel c with upkeep := (s.channel c).upkeep.tail, upkept := !(s.lane c).isEmpty }
/-- The request leaves its channel's queue. -/
def State.dequeue (s : State) (c : Nat) (q : Request) : State :=
  s.setChannel c { s.channel c with queue := dropFirst (fun r => r == q) (s.channel c).queue, upkept := false }
/-- The index address of chunk n of a channel line of a field. -/
def State.chunkOf (s : State) (f c j n : Nat) : Option (Nat × Nat) :=
  (s.pageOfLine f c j).map (fun p => (p.num, p.loc.lineAt c j * 4 + n))
/-- R495: an outcome of a chunk's check by number. -/
def eccOf (n : Nat) : Ecc := if n = 0 then .clean else if n = 1 then .corrected else .uncorrectable
/-- R495: what the checks of the four chunks of a line show where no operand says it: free values from number n (log 75). -/
def eccAt (n : Nat) : List Ecc := ([0, 1, 2, 3] : List Nat).map (fun k => eccOf (Config.chunkError (n + k)))
/-- R498: a corrected chunk: logged and counted. -/
def State.eccCorrected (s : State) (f page chunk : Nat) : State :=
  (s.logEvent evECC_CORRECTED f 1 noUnit (leBytes 8 (page * pageSize + 64 * chunk))).countField f 27 1
/-- R499: an uncorrectable chunk: marked, logged and counted. -/
def State.eccFailed (s : State) (f page chunk : Nat) : State :=
  let t := if s.badChunks.contains (f, page, chunk) then s else { s with badChunks := (f, page, chunk) :: s.badChunks }
  (t.logEvent evECC_UNCORRECTABLE f 2 noUnit (leBytes 8 (page * pageSize + 64 * chunk))).countField f 28 1
/-- R495: what the check of one chunk leaves; a chunk already uncorrectable stays so. -/
def State.checkChunk (s : State) (f page chunk : Nat) (e : Ecc) : State :=
  match e with
  | .clean => s
  | .corrected => if s.badChunks.contains (f, page, chunk) then s else s.eccCorrected f page chunk
  | .uncorrectable => s.eccFailed f page chunk
/-- R495: the checks of the four chunks of a line, in a field with inline ECC. -/
def State.checkLine (s : State) (f c j : Nat) (es : List Ecc) : State :=
  if !(s.cfg f).ecc then s
  else ([0, 1, 2, 3] : List Nat).foldl (fun t n => match t.chunkOf f c j n with
    | none => t
    | some p => t.checkChunk f p.1 p.2 (es.getD n .clean)) s
/-- R498: the checks of every line that a request moves: `es` are those of the line asked for; what the lines that it
brings along show is open (log 75). -/
def State.checkLines (s : State) (f c j : Nat) (ks : List Nat) (es : List Ecc) : State :=
  ks.foldl (fun t k => if k = j then t.checkLine f c k es
    else ({ t with fresh := t.fresh + 4 }).checkLine f c k (eccAt t.fresh)) s
/-- R499: chunks of a page that a write of n bytes from byte a covers whole are whole again. -/
def State.coverChunks (s : State) (f page a n : Nat) : State :=
  { s with badChunks := s.badChunks.filter (fun b =>
      !(b.1 == f && b.2.1 == page && a ≤ 64 * b.2.2 && 64 * b.2.2 + 64 ≤ a + n)) }
/-- R442: bytes fetched for a stream. -/
def State.fetched (s : State) (n bytes : Nat) : State :=
  match FMap.get? s.streams n with
  | none => s
  | some x => s.setStream n { x with ahead := x.ahead + bytes }
/-- Reads of a field that wait on a channel for lines just fetched are served from the Granary (R452, R526). -/
def State.serveWaiting (s : State) (c f : Nat) (ks : List Nat) : State :=
  let mine := fun (q : Request) => q.field == f && !q.write && ks.contains q.line
  let l := (s.channel c).queue
  (l.filter mine).foldl (fun t q => t.fetched q.stream 256)
    (s.setChannel c { s.channel c with queue := l.filter (fun q => !mine q) })
/-- The bytes of the line of a field at a channel line of one of its frames. -/
def State.lineData (s : State) (f c j : Nat) : Bytes :=
  match s.pageOfLine f c j with
  | none => zeros 256
  | some p => s.pageBytes f p (256 * p.loc.lineAt c j) 256
/-- A chunk of a channel line of a field is uncorrectable. -/
def State.lineBad (s : State) (f c j : Nat) : Bool :=
  ([0, 1, 2, 3] : List Nat).any (fun n => match s.chunkOf f c j n with
    | none => false
    | some k => s.badChunks.contains (f, k.1, k.2))
/-- R370, R448, Table 9.5: a line read by an LDC over the narrow path reaches its core: the core shares the line where the Granary
holds it. An uncorrectable line is not delivered (R499). -/
def State.landNarrow (s : State) (c : Nat) (q : Request) : State :=
  if !q.narrow || q.unit / 256 != 0 || s.lineBad q.field c q.line then s
  else
    let core := q.unit % 256
    let t := match s.lineOf c q.line with
      | none => s
      | some l => s.setLine { l with dir := .S, sharers := core :: l.sharers.filter (fun n => n != core) }
    t.setCore core ((t.core core).cacheLine (lineKey c q.line) (s.lineData q.field c q.line))
/-- A granted read: its lines come into the Granary, the asked one most recently (R443, R526, R527); none whose frame has been
freed since the request was made. -/
def State.landRead (s : State) (c : Nat) (q : Request) : State :=
  let ks := s.linesOf c q
  let others := (List.range ks.length).filter (fun n => ks.getD n 0 != q.line)
  let mine := (List.range ks.length).filter (fun n => ks.getD n 0 == q.line)
  let t := (others ++ mine).foldl (fun t n =>
    let k := ks.getD n 0
    if (t.pageOfLine q.field c k).isSome then t.fill q.field c q.line k (t.lineData q.field c k) else t) s
  (t.fetched q.stream 256).serveWaiting c q.field ks
/-- A request that a channel serves at a level (R512, R513, R517): the tokens, the counts, its lines and their checks. -/
def State.served_ (s : State) (c level : Nat) (q : Request) (es : List Ecc) : State :=
  let n := s.priceOf c q
  let ks := s.linesOf c q
  let t := if level = 4 then s else s.takeTokens q.field n
  let t := t.countField q.field 15 n
  let t := t.count 2 (if q.write then 16 + c else c) (256 * ks.length)
  if q.write then t else ((t.landRead c q).checkLines q.field c q.line ks es).landNarrow c q
/-- A waiting request granted at a level. -/
def State.grant (s : State) (c level : Nat) (q : Request) (es : List Ecc) : State :=
  (s.dequeue c q).served_ c level q es

/-! ### Reads of the device's own work (R443, R448, R450, R513) -/

/-- R453, R457: the level at which a request of the device's own work is served. -/
def State.levelOf (s : State) (c : Nat) (q : Request) : Nat :=
  if q.priority then 2 else if s.funded c q || !(s.cfg q.field).workConserving then 3 else 4
/-- One line read by a unit of the query path or for a command: served by the Granary or, after its grant, by its channel. A
step of such work is whole (95): it ends once every line has come, so the order of its grants among those of other work
is not shown (log 92). -/
def State.readLine (s : State) (f cls unit : Nat) (narrow : Bool) (cj : Nat × Nat) : State :=
  let r := s.lookupLine f cj.1 cj.2
  if r.2 then r.1
  else
    let q : Request := ⟨unit, f, 2 ^ 32, 0, cls, narrow, false, cj.2, none⟩
    let t := { r.1 with fresh := r.1.fresh + 4 }
    t.served_ cj.1 (t.levelOf cj.1 q) q (eccAt r.1.fresh)
/-- Channel lines of a piece of what is read. -/
def Segment.lines (g : Segment) : List (Nat × Nat) :=
  (List.range ((g.at_ + g.len - 1) / 256 + 1 - g.at_ / 256)).filterMap (fun n => g.page.loc.place (g.at_ / 256 + n))
/-- Channel lines of spans, each once, in the order of reading. -/
def State.linesOfSpans (s : State) (f : Nat) (xs : List Span) : List (Nat × Nat) :=
  ((s.segments f 0 xs).flatMap Segment.lines).eraseDups
/-- R493: a line that a read of spans needs lies behind a channel that retrains. -/
def State.retrains (s : State) (f : Nat) (xs : List Span) : Bool :=
  s.channels.any (fun c => c.2.retraining) &&
    (s.linesOfSpans f xs).any (fun cj => (s.channel cj.1).retraining && (s.lineOf cj.1 cj.2).isNone)
/-- Lines read one after another. -/
def State.readLines (s : State) (f cls unit : Nat) (narrow : Bool) (ls : List (Nat × Nat)) : State :=
  ls.foldl (fun t cj => t.readLine f cls unit narrow cj) s
/-- R448, R477: spans read: their lines come through the Granary, and their pages have just been used. A transfer below
256 bytes, and every read of an Assayer, goes over the narrow path (`narrow`). -/
def State.readSpans (s : State) (f cls unit : Nat) (narrow : Bool) (xs : List Span) : State :=
  (s.readLines f cls unit narrow (s.linesOfSpans f xs)).touch f xs
/-- R533, R517: a line of a page that the device's own work writes: dirty in the Granary, with its sharers invalidated
before the write is seen. -/
def State.dirtyLine (s : State) (f : Nat) (cj : Nat × Nat) : State :=
  let s := { s with cores := FMap.mapVals s.cores (fun _ c => c.dropLine (lineKey cj.1 cj.2)) }
  let b := s.lineData f cj.1 cj.2
  match s.lineOf cj.1 cj.2 with
  | none => s.install { s.newLine f cj.1 cj.2 b none with dirty := true }
  | some l => s.rewriteLine l b
/-- R499, R517: bytes of pages written: their lines and, where a write covers them whole, their chunks. -/
def State.writeSpans (s : State) (f : Nat) (xs : List Span) : State :=
  let gs := (s.segments f 0 xs).filter (fun g => g.page.inGddr)
  let t := (gs.flatMap Segment.lines).eraseDups.foldl (fun t cj => t.dirtyLine f cj) s
  (gs.foldl (fun t g => t.coverChunks f g.page.num g.at_ g.len) t).usePages f (fun p => gs.any (fun g => g.page.num == p.num))

end Sys2Proof.Machine
end

