-- ==== Sys2Proof/Machine/Reading.lean ====
section
/-! DEFINITION. Commands that read or write pages themselves: their outcome is decided at admission, and they complete once
every page that they touch has been resident (R450, R476 to R482, R494, R499, R502; 95). -/

namespace Sys2Proof.Machine

/-- Table 8.7: the requester of a command's own reads and writes: the Gleaner, which writes replies. -/
def replyUnit : Nat := unitKey 8 0
/-- Commands of an opcode on a ring that still read or write pages and are not halted, oldest first. -/
def State.nextReading (s : State) (code ring : Nat) : Option (Cmd × Reading) :=
  s.cmds.findSome? (fun c => match c.work with
    | .reading r =>
      if c.ring == ring && c.opcode == code && c.stopped.isNone && !s.readerHalted (.cmd c.ring c.seq) then some (c, r) else none
    | _ => none)
/-- R477, R499, R533: spans written: their pages have changed. -/
def State.storeSpans (s : State) (f : Nat) (xs : List Span) : State :=
  let nums := xs.flatMap (fun x => (s.spanOf f x).map (fun p => p.1.num))
  (s.writeSpans f xs).markChanged f (fun p => nums.contains p.num)
/-- A command's work replaced. -/
def State.setWork (s : State) (c : Cmd) (w : Work) : State :=
  s.setCmds (s.cmds.map (fun d => if d.is c.ring c.seq then { d with work := w } else d))
/-- A command whose pages have all come: they are read, and it completes; one that cannot be read ends it with
ST_HW_FAULT (R494, R499, R663). -/
def State.endReading (s : State) (c : Cmd) (r : Reading) (dma : Dma) : State :=
  let f := ringFn c.ring
  let t := s.dropReader (.cmd c.ring c.seq)
  let t := if r.store then t.storeSpans f r.spans else t.readSpans f c.runClass replyUnit false r.spans
  if !r.store && r.spans.any (t.spanFault f) then (t.undo c).finish c stHW_FAULT 0 0 c.flags dma.recordOk
  else if dma.replyOk || r.writes.isEmpty then
    (t.writeReply c r.writes).finish c 0 r.info 0 (c.flags ||| r.flags) dma.recordOk
  else t.finish c stDMA_WRITE 0 0 (c.flags ||| r.flags) dma.recordOk
/-- R494, R499, R663: a command's accesses cannot be made: reads of what is lost or uncorrectable, writes of what is lost. -/
def State.readingFault (s : State) (f : Nat) (r : Reading) : Bool :=
  if r.store then r.spans.any (s.spanLost f) else r.spans.any (s.spanFault f)
/-- R476, R478, R493: a command's own reads wait for a channel that retrains, go on until a page is away, on which they halt, or to their end. -/
def State.continueReading (s : State) (c : Cmd) (r : Reading) (dma : Dma) : State :=
  let f := ringFn c.ring
  let me := Reader.cmd c.ring c.seq
  if s.readingFault f r then ((s.dropReader me).undo c).finish c stHW_FAULT 0 0 c.flags dma.recordOk
  else if s.retrains f r.spans then s
  else match s.firstAway f r.done r.spans with
    | some g =>
      let t := (s.dropReader me).setWork c (.reading { r with done := s.readUpTo f r.done r.spans g.page.num })
      t.haltReader f me c.runClass replyUnit false r.spans g (fun _ => false)
    | none => s.endReading c r dma
/-- The row of an opcode whose commands read or write pages: one that was halted goes on; else the oldest unadmitted packet
is taken, and goes on at once as far as its pages are resident. -/
def State.runReading (s : State) (code ring : Nat) (dma : Dma) (body : Ctx → State → Verdict) : Result :=
  if adminRing < ring then .fault .noSuchUnit
  else match s.nextReading code ring with
    | some (c, r) => if s.completing then .next (s.continueReading c r dma) else .next s
    | none => match s.runPacket code ring dma body with
      | .next t => (match t.nextReading code ring with
        | some (c, r) => .next (t.continueReading c r dma)
        | none => .next t)
      | r => r
/-- Outstanding until the spans have been read: then the command completes with `info` and its reply. -/
def reads (s : State) (spans : List Span) (holds : Option (Nat × Nat × Nat)) (info : Nat) (fl : Flags)
    (writes : List (Nat × Bytes)) : Verdict :=
  .accept ⟨s, some (.reading ⟨spans, false, [], holds, info, 0, writes⟩), 0, info, fl, 0, 0, []⟩
/-- Outstanding until the spans have been written: then the command completes with `info`. -/
def stores (s : State) (spans : List Span) (info : Nat) (fl : Flags) : Verdict :=
  .accept ⟨s, some (.reading ⟨spans, true, [], none, info, 0, []⟩), 0, info, fl, 0, 0, []⟩

end Sys2Proof.Machine
end

