-- ==== Sys2Proof/Machine/Indexes.lean ====
section
/-! DEFINITION. Index definition: INDEX_CREATE to INDEX_INFO (03, 0x08–0x0D; R149 to R152, R232, R581, R784). -/

namespace Sys2Proof.Machine

/-- Table 3.5: the parameters of a packet. -/
def paramsOf (p : Bytes) : IParams :=
  { metric := num p 16 1, bits := num p 17 1, group := num p 18 1, coarse := num p 19 1, dim := num p 20 2
    m := num p 22 2, run := num p 24 2, fpDim := num p 26 2, fpFmt := num p 28 1, attrWords := num p 29 1
    allowNd := flag p 30 0, tombPct := num p 31 1, nlist := num p 32 4, cascMode := num p 36 1
    replicas := num p 37 1, maxEntries := num p 40 8 }

/-- R15, R147, Table 3.5: every parameter lies in its range. -/
def IParams.ok (p : IParams) : Bool :=
  p.metric ≤ 2 && (p.bits == 4 || p.bits == 8) && (p.group == 4 || p.group == 8 || p.group == 16) && p.coarse ≤ 3 &&
    8 ≤ p.dim && p.dim ≤ 4096 && p.dim % 8 == 0 && 4 ≤ p.m && p.m ≤ 256 && p.dim % p.m == 0 &&
    (p.run == 64 || p.run == 128 || p.run == 256 || p.run == 512) && p.dim ≤ p.fpDim && p.fpDim ≤ 16384 &&
    p.fpDim % 8 == 0 && p.fpFmt ≤ 3 && (p.fpFmt != 0 || p.fpDim == p.dim) && p.attrWords ≤ 4 && p.tombPct ≤ 100 &&
    1 ≤ p.nlist && p.nlist ≤ 1048576 && p.cascMode ≤ 4 &&
    (if p.cascMode = 3 || p.cascMode = 4 then 2 ≤ p.replicas && p.replicas ≤ 128 else p.replicas == 0) &&
    1 ≤ p.maxEntries && p.maxEntries ≤ 17179869184

/-- R149: a new index. -/
def Index.create (p : IParams) (placement : List (List Nat)) : Index :=
  { p := p, active := false, epoch := 0, centroids := [], codebook := [], lists := [], pending := [], stamp := 0, holds := []
    versions := [], pins := [], placement := placement, fenced := [], copied := [] }

/-- Executes INDEX_CREATE (R15, R130, R147 to R149, R232, R581). -/
def execIndexCreate (ring : Nat) (dma : Dma) (s : State) : Result :=
  s.runPacket 0x08 ring dma (fun x s =>
    let p := paramsOf x.pkt
    let place := placementOf p.cascMode p.replicas s.casc.present
    checks [(!p.ok, stBAD_VALUE),
      (p.cascMode != 0 && !(s.cascFormed && s.role == 1), stMODE_FORBIDS),
      ((s.cfg x.fn).maxIndexes ≤ (s.indexesOf x.fn).length || 64 ≤ s.indexes.length, stLIMIT),
      (17179869184 < sumBy (fun i => i.2.p.maxEntries) s.indexes + p.maxEntries, stLIMIT),
      (place.isNone, stNO_CAPACITY)] (fun _ =>
        let t := s.setIndex x.key (Index.create p (place.getD []))
        let t := if p.cascMode = 0 then t
          else (t.tellMembers msgDEFINE 0 x.pkt).tellStandby x.pkt
        yes t 0))

/-- A command that names index `key` is admitted and outstanding. -/
def State.indexBusy (s : State) (key : Nat) : Bool :=
  s.cmds.any (fun c => c.work != .fetched && c.ring != adminRing && indexKey (ringFn c.ring) c.idx == key &&
    (match opSpec c.opcode with
      | none => false
      | some o => o.namesIndex))

/-- Pages of an index of field f. -/
def State.pagesOfIndex (s : State) (f i : Nat) : List Page :=
  match s.field? f with
  | none => []
  | some x => x.pages.filter (fun p => p.index == some i)

/-- INDEX_DROP after Table 2.6. -/
def State.dropBody (s : State) (x : Ctx) : Verdict :=
  match FMap.get? s.indexes x.key with
  | none => no stBAD_INDEX
  | some i =>
    checks [(s.indexBusy x.key || !i.holds.isEmpty, stBAD_STATE)] (fun _ =>
      let n := (s.pagesOfIndex x.fn x.cmd.idx).length
      let t := ((s.dropIndexes (fun k => k == x.key)).releasePages x.fn).refreshCasc
      let t := if i.p.cascMode = 0 then t else (t.tellMembers msgDEFINE 0 x.pkt).tellStandby x.pkt
      yes t n)

/-- Executes INDEX_DROP (R150). -/
def execIndexDrop (ring : Nat) (dma : Dma) (s : State) : Result :=
  s.runPacket 0x09 ring dma (fun x s => s.dropBody x)

/-- Consecutive groups of n values laid from the start of the bytes. -/
def rowsOf (f : Fmt) (n count : Nat) (b : Bytes) : List (List Nat) :=
  (List.range count).map (fun r => patterns f n (b.drop (r * n * f.bytes)))

/-- Rows stored from key `first` on. -/
def storeRows {α : Type} (m : FMap α) (first : Nat) (rows : List α) : FMap α :=
  (List.range rows.length).foldl (fun m k => match rows[k]? with
    | none => m
    | some r => FMap.set m (first + k) r) m

/-- A load taken: its table is allocated by the first load (R784) and the spans are written (R494, R499), or it is refused. -/
def State.loaded (s : State) (x : Ctx) (i : Index) (spans : List Span) (n : Nat) : Verdict :=
  match (s.setIndex x.key i).syncPages x.fn with
  | none => no stNO_CAPACITY
  | some t => stores (if i.p.cascMode = 0 then t else t.tellMembers msgDEFINE 0 (x.pkt ++ x.block)) spans n 0
/-- R784: the centroid rows from `first` on, in NEAR mapping those of even lists in half 0 and of odd lists in half 1. -/
def rowSpans (i : Nat) (p : IParams) (hash : Bool) (first count : Nat) : List Span :=
  let part := fun (half a b : Nat) => (⟨some i, .centroids, half, a * p.rowBytes, (b - a) * p.rowBytes⟩ : Span)
  if hash then [part 0 first (first + count)]
  else [part 0 ((first + 1) / 2) ((first + count + 1) / 2), part 1 (first / 2) ((first + count) / 2)]

/-- INDEX_LOAD_CENTROIDS after Table 2.6. -/
def State.centroidsBody (s : State) (x : Ctx) : Verdict :=
  match FMap.get? s.indexes x.key with
  | none => no stBAD_INDEX
  | some i =>
    let first := num x.pkt 16 4
    let count := num x.pkt 20 4
    let f := coarseFmt i.p.coarse
    let rows := rowsOf f i.p.dim count x.block
    checks [(count == 0 || i.p.nlist < first + count, stBAD_VALUE),
      (x.block.length != roundUp (count * i.p.dim * f.bytes) 64, stBAD_LENGTH),
      (rows.any (fun r => r.any (isSpecial f)), stBAD_VALUE), (i.active, stBAD_STATE)] (fun _ =>
        let m := storeRows i.centroids first rows
        s.loaded x { i with centroids := m } (rowSpans x.cmd.idx i.p (s.cfg x.fn).mapHash first count) m.length)

/-- Executes INDEX_LOAD_CENTROIDS (R19, R151, R494, R499, R784). -/
def execIndexLoadCentroids (ring : Nat) (dma : Dma) (s : State) : Result :=
  s.runReading 0x0A ring dma (fun x s => s.centroidsBody x)

/-- A sub-quantiser's entries from its bytes. -/
def subQuantiser (p : IParams) (b : Bytes) : List (List (BitVec 32)) :=
  (List.range p.entries).map (fun j =>
    (patterns fFP32 p.subDim (b.drop (j * p.subDim * 4))).map (fun n => BitVec.ofNat 32 n))

/-- INDEX_LOAD_CODEBOOK after Table 2.6. -/
def State.codebookBody (s : State) (x : Ctx) : Verdict :=
  match FMap.get? s.indexes x.key with
  | none => no stBAD_INDEX
  | some i =>
    let first := num x.pkt 16 2
    let count := num x.pkt 18 2
    let size := i.p.entries * i.p.subDim * 4
    let subs := (List.range count).map (fun n => subQuantiser i.p (x.block.drop (n * size)))
    checks [(count == 0 || i.p.m < first + count, stBAD_VALUE),
      (x.block.length != roundUp (count * size) 64, stBAD_LENGTH),
      (subs.any (fun q => q.any (fun e => e.any (fun v => isSpecial fFP32 v.toNat))), stBAD_VALUE),
      (i.active, stBAD_STATE)] (fun _ =>
        let m := storeRows i.codebook first subs
        s.loaded x { i with codebook := m } [⟨some x.cmd.idx, .codebook, 0, first * size, count * size⟩] m.length)

/-- Executes INDEX_LOAD_CODEBOOK (R19, R151, R494, R499, R784). -/
def execIndexLoadCodebook (ring : Nat) (dma : Dma) (s : State) : Result :=
  s.runReading 0x0B ring dma (fun x s => s.codebookBody x)

/-- INDEX_ACTIVATE after Table 2.6. In a field without a GDDR quota no table can be loaded (R784), so the check of R152 fails
first and answers ST_BAD_STATE, although R135 names ST_NO_CAPACITY there (DESIGN CHOICE, log 111). -/
def State.activateBody (s : State) (x : Ctx) : Verdict :=
  match FMap.get? s.indexes x.key with
  | none => no stBAD_INDEX
  | some i =>
    checks [(i.active || i.centroids.length != i.p.nlist || i.codebook.length != i.p.m, stBAD_STATE)] (fun _ =>
      let n := (s.pagesOfIndex x.fn x.cmd.idx).length
      match (s.setIndex x.key { i with active := true, epoch := 0 }).syncPages x.fn with
      | none => no stNO_CAPACITY
      | some t =>
        let t := if i.p.cascMode = 0 then t else t.tellMembers msgDEFINE 0 x.pkt
        yes t.refreshCasc ((t.pagesOfIndex x.fn x.cmd.idx).length - n))

/-- Executes INDEX_ACTIVATE (R152). -/
def execIndexActivate (ring : Nat) (dma : Dma) (s : State) : Result :=
  s.runPacket 0x0C ring dma (fun x s => s.activateBody x)

/-- Slots of the current images of an index. -/
def Index.slots (x : Index) : List Slot := x.lists.flatMap (fun l => l.2.image.slots)
/-- Table 3.5 at offsets shifted down by 16: 32 bytes. -/
def IParams.info (p : IParams) : Bytes :=
  leBytes 1 p.metric ++ leBytes 1 p.bits ++ leBytes 1 p.group ++ leBytes 1 p.coarse ++ leBytes 2 p.dim ++
    leBytes 2 p.m ++ leBytes 2 p.run ++ leBytes 2 p.fpDim ++ leBytes 1 p.fpFmt ++ leBytes 1 p.attrWords ++
    leBytes 1 (if p.allowNd then 1 else 0) ++ leBytes 1 p.tombPct ++ leBytes 4 p.nlist ++ leBytes 1 p.cascMode ++
    leBytes 1 p.replicas ++ zeros 2 ++ leBytes 8 p.maxEntries
/-- The INDEX_INFO reply. -/
def State.indexInfo (s : State) (f i : Nat) (x : Index) : Bytes :=
  let pages := s.pagesOfIndex f i
  let live := (x.slots.filter (fun e => e.died.isNone)).length
  fit 256 (x.p.info ++ leBytes 1 (if x.active then 2 else 1) ++ zeros 7 ++ leBytes 8 x.epoch ++ leBytes 8 live ++
    leBytes 8 (x.slots.length - live) ++ leBytes 4 (pages.filter Page.inGddr).length ++
    leBytes 4 (pages.filter (fun p => !p.inGddr)).length ++ leBytes 4 x.holds.length)

/-- Executes INDEX_INFO (R127). -/
def execIndexInfo (ring : Nat) (dma : Dma) (s : State) : Result :=
  s.runPacket 0x0D ring dma (fun x s =>
    match FMap.get? s.indexes x.key with
    | none => no stBAD_INDEX
    | some i => checks (replyChecks x.pkt 16 24 256) (fun _ =>
        yesReply s i.epoch [(num x.pkt 16 8, s.indexInfo x.fn x.cmd.idx i)]))

end Sys2Proof.Machine
end

