-- ==== Sys2Proof/Machine/Encode.lean ====
section
/-! DEFINITION. What the engines compute on vectors: preparation, coarse keys, distance tables, coded and exact
keys, and the Seed drill's encoding (R16, R21, R24, R234 to R239, R279 to R286, R298). -/

namespace Sys2Proof.Machine

/-- What computing raised: flags, overflow replays and runs formed (R327, R329, R330). -/
structure Acc where
  fl : Flags
  replays : Nat
  runs : Nat
  deriving DecidableEq, Repr

/-- Nothing raised. -/
def acc0 : Acc := ⟨0, 0, 0⟩
/-- Both together. -/
def Acc.join (a b : Acc) : Acc := ⟨a.fl ||| b.fl, a.replays + b.replays, a.runs + b.runs⟩
/-- Flags added. -/
def Acc.raise (a : Acc) (f : Flags) : Acc := { a with fl := a.fl ||| f }
/-- What a sum raised. -/
def SumR.acc (r : SumR) : Acc := ⟨r.fl, r.replays, r.runs⟩
/-- Everything that a list of computations raised. -/
def joinAll {α : Type} (l : List (α × Acc)) : Acc := l.foldl (fun a x => a.join x.2) acc0

/-- R234 steps 1 and 2, R279: a vector prepared: converted to FP32 and, under cosine, normalised; none when its
squared norm is zero (R17). -/
def prepare (p : IParams) (f : Fmt) (pats : List Nat) : Option (List (BitVec 32) × Acc) :=
  let vs := values f pats
  let din := dinOf f pats
  if p.metric = 2 then
    match normalise p.group p.run vs with
    | none => none
    | some (ws, r) => some (ws.map toFp32, r.acc.raise din)
  else some (vs.map toFp32, acc0.raise din)

/-- R279, R280: the first `dim` prepared components converted to `coarse_fmt` and widened. -/
def coarseQuery (p : IParams) (v : List (BitVec 32)) : List Fv × Flags :=
  let f := coarseFmt p.coarse
  let r := convertAll f ((v.take p.dim).map fp32)
  (values f r.1, r.2)

/-! ### Split reductions (R344 to R350) -/

/-- R349: an add at a mode A location, with the flags so far. -/
def atomicAdd (a : Fv × Flags) (b : Fv) : Fv × Flags :=
  let r := satFmt fFP32 (fadd a.1 b)
  (r.1, a.2 ||| r.2)
/-- R587: the terms of contributor i among c. -/
def shareOf (l c i : Nat) (ts : List Term) : List Term :=
  let r := ceilDiv ts.length l
  (ts.drop (i * r / c * l)).take (((i + 1) * r / c - i * r / c) * l)
/-- A list in the order that a number names; fuel is its length. -/
def arrange {α : Type} : Nat → Nat → List α → List α
  | 0, _, l => l
  | f + 1, n, l => match l[n % l.length]? with
    | none => l
    | some a => a :: arrange f (n / l.length) (l.eraseIdx (n % l.length))
/-- R348, R349: a mode A sum of c contributors, whose adds arrive in an order that nothing fixes (log 10). -/
def modeASum (g l c seed : Nat) (ts : List Term) : Fv × SumR :=
  let parts := (List.range c).map (fun i => plainSum g l (shareOf l c i ts))
  let sum := (arrange c (Config.free64 seed).toNat parts).foldl (fun a p => atomicAdd a p.1) (fv0, 0)
  (sum.1, { w := sum.1, fl := parts.foldl (fun f p => f ||| p.2.fl) sum.2
            replays := sumBy (fun p => p.2.replays) parts, runs := sumBy (fun p => p.2.runs) parts })
/-- R588, R350: mode A combines the sums of searches of the index. -/
def Index.modeA (x : Index) : Bool := x.p.cascMode == 2 && x.p.allowNd
/-- A way of summing, by the number of the sum. -/
abbrev SumWay := Nat → List Term → Fv × SumR
/-- R344 to R347: one device, or mode D: the fixed order. -/
def fixedWay (p : IParams) : SumWay := fun _ => plainSum p.group p.run
/-- R588: how the sums of a search are formed; `seed` numbers the free orders of arrival. -/
def Index.searchWay (x : Index) (seed : Nat) : SumWay :=
  if x.modeA then fun n => modeASum x.p.group x.p.run (x.placement.headD []).length (seed + n) else fixedWay x.p

/-- R281: the coarse key of a centroid row. -/
def coarseKey (p : IParams) (sum : List Term → Fv × SumR) (q : List Fv) (row : List Nat) : BitVec 32 × Acc :=
  let f := coarseFmt p.coarse
  let r := scoreKeyBy sum p.metric q (values f row)
  (toFp32 r.1, r.2.acc.raise (dinOf f row))

/-- A list with its coarse key. -/
structure Ranked where
  list : Nat
  key : BitVec 32
  deriving DecidableEq, Repr

/-- R281: the coarse keys of every centroid, and what forming them raised. -/
def Index.coarse (x : Index) (way : SumWay) (v : List (BitVec 32)) : List Ranked × Acc :=
  let q := coarseQuery x.p v
  let ks := x.centroids.map (fun c => let k := coarseKey x.p (way c.1) q.1 c.2
                                      ((⟨c.1, k.1⟩ : Ranked), k.2))
  (ks.map (fun k => k.1), (joinAll ks).raise q.2)

/-- R24: the first n lists by (coarse key, list number). -/
def pickLists (n : Nat) (ks : List Ranked) : List Nat :=
  ((sortLt (fun a b => before a.key a.list b.key b.list) ks).take n).map (fun r => r.list)

/-- Sub-vector i of a prepared vector. -/
def subVector (p : IParams) (v : List (BitVec 32)) (i : Nat) : List (BitVec 32) :=
  (v.drop (i * p.subDim)).take p.subDim

/-- DIN of FP32 patterns consumed. -/
def din32 (ps : List (BitVec 32)) : Flags := flIf (ps.any (fun b => isSubnormal fFP32 b.toNat)) flDIN

/-- Codebook entries of a sub-quantiser. -/
def Index.sub (x : Index) (i : Nat) : List (List (BitVec 32)) := FMap.getD x.codebook i []

/-- R236: the entry nearest to a sub-vector; the lowest keeps a tie. -/
def nearest (p : IParams) (v : List Fv) : Nat → Nat → BitVec 32 → Acc → List (List (BitVec 32)) → Nat × Acc
  | _, best, _, a, [] => (best, a)
  | j, best, bd, a, e :: es =>
    let r := scoreKey 0 p.group p.run v (e.map fp32)
    let a := a.join (r.2.acc.raise (din32 e))
    let d := toFp32 r.1
    if j = 0 || fltb r.1 (fp32 bd) then nearest p v (j + 1) j d a es else nearest p v (j + 1) best bd a es

/-- R236: the sub-codes of a prepared vector. -/
def Index.subCodes (x : Index) (v : List (BitVec 32)) : List (Nat × Acc) :=
  (List.range x.p.m).map (fun i => nearest x.p ((subVector x.p v i).map fp32) 0 0 0 acc0 (x.sub i))

/-- R224: sub-codes packed into a code. -/
def packCode (p : IParams) (cs : List Nat) : Bytes :=
  if p.bits = 8 then cs.map (fun c => BitVec.ofNat 8 c)
  else (List.range p.codeBytes).map (fun b => BitVec.ofNat 8 (cs.getD (2 * b) 0 + 16 * cs.getD (2 * b + 1) 0))

/-- R224: sub-code i of a code. -/
def subCode (p : IParams) (code : Bytes) (i : Nat) : Nat :=
  if p.bits = 8 then num code i 1 else num code (i / 2) 1 / (if i % 2 = 0 then 1 else 16) % 16

/-- R234 step 5, R238: the vector as stored. -/
def storeVector (p : IParams) (v : List (BitVec 32)) : List Nat × Flags :=
  if p.fpFmt = 0 then ([], 0) else convertAll (fpFmt p.fpFmt) ((v.take p.v).map fp32)

/-- R234, R235: a record of INSERT or UPSERT encoded by a Seed drill: its list, code and stored vector. -/
def Index.encode (x : Index) (id : BitVec 64) (attrs : List (BitVec 32)) (v : List (BitVec 32)) (a : Acc) :
    PendRec × Acc :=
  let c := x.coarse (fixedWay x.p) v
  let s := x.subCodes v
  let st := storeVector x.p v
  (⟨id, (pickLists 1 c.1).headD 0, packCode x.p (s.map (fun k => k.1)), attrs, st.1⟩,
    ((a.join c.2).join (joinAll s)).raise st.2)

/-! ### Distance tables (R283 to R286) -/

/-- R283: a table value. -/
def tableValue (p : IParams) (q e : List (BitVec 32)) : BitVec 32 × Acc :=
  let r := scoreKey p.metric p.group p.run (q.map fp32) (e.map fp32)
  (toFp32 r.1, r.2.acc.raise (din32 e))

/-- R283: T[m][j] of a prepared query. -/
def Index.table32 (x : Index) (v : List (BitVec 32)) : List (List (BitVec 32 × Acc)) :=
  (List.range x.p.m).map (fun i => (x.sub i).map (tableValue x.p (subVector x.p v i)))

/-- The numerically least of FP32 patterns. -/
def least32 (l : List (BitVec 32)) : BitVec 32 :=
  match l with
  | [] => 0
  | a :: t => t.foldl (fun a b => if fltb (fp32 b) (fp32 a) then b else a) a
/-- The numerically greatest of FP32 patterns. -/
def greatest32 (l : List (BitVec 32)) : BitVec 32 :=
  match l with
  | [] => 0
  | a :: t => t.foldl (fun a b => if fltb (fp32 a) (fp32 b) then b else a) a
/-- R314: an FP32 difference. -/
def sub32 (a b : BitVec 32) : BitVec 32 × Flags :=
  let r := satFmt fFP32 (fadd (fp32 a) (fneg (fp32 b)))
  (toFp32 r.1, r.2)
/-- 2^k as a value. -/
def pow2 (k : Int) : Fv := ⟨false, 1, k⟩
/-- R285 step 3: the exponent of the smallest power of two, not below 2^−149, at or above w / 255; 0 for w 0. -/
def scaleExp (w : Fv) : Int :=
  if w.m = 0 then 0
  else
    let e := topExp w - 8
    let big := fun (k : Int) => !fltb (fmul (pow2 k) ⟨false, 255, 0⟩) w
    let k := if big (e - 1) then e - 1 else if big e then e else if big (e + 1) then e + 1 else e + 2
    max k (-149)
/-- Terms of a sum over FP32 values. -/
def terms32 (l : List (BitVec 32)) : List Term := l.map (fun b => ⟨fp32 b, false⟩)
/-- A sum of FP32 values, as FP32. -/
def sum32 (sum : List Term → Fv × SumR) (l : List (BitVec 32)) : BitVec 32 × Acc :=
  let r := sum (terms32 l)
  (toFp32 r.1, r.2.acc)
/-- R285: the T8 form of a table, with s and B. -/
def quantise (p : IParams) (t : List (List (BitVec 32))) : QTable × Acc :=
  let bs := t.map least32
  let diff := List.zipWith (fun row b => row.map (fun v => sub32 v b)) t bs
  let spread := List.zipWith (fun row b => sub32 (greatest32 row) b) t bs
  let w := greatest32 (spread.map (fun d => d.1))
  let k := scaleExp (fp32 w)
  let q := diff.map (fun row => row.map (fun d => toIntRange 0 255 (fscale (fp32 d.1) (-k))))
  let b := sum32 (plainSum p.group p.run) bs
  let fl := diff.foldl (fun f row => row.foldl (fun f d => f ||| d.2) f) 0 |||
    q.foldl (fun f row => row.foldl (fun f d => f ||| d.2) f) 0
  (⟨[], q.map (fun row => row.map (fun d => d.1.toNat)), k, b.1⟩, b.2.raise fl)
/-- R283 to R285: a query's distance table. -/
def Index.buildTable (x : Index) (v : List (BitVec 32)) (t8 : Bool) : QTable × Acc :=
  let t := x.table32 v
  let a := t.foldl (fun a row => a.join (joinAll row)) acc0
  let vs := t.map (fun row => row.map (fun c => c.1))
  if t8 then let q := quantise x.p vs
             (q.1, a.join q.2)
  else (⟨vs, [], 0, 0⟩, a)
/-- R284, R286: the coded key of a code. -/
def codedKey (p : IParams) (sum : List Term → Fv × SumR) (q : QTable) (t8 : Bool) (code : Bytes) : BitVec 32 × Acc :=
  if t8 then
    let n := sumBy (fun i => ((q.t8.getD i []).getD (subCode p code i) 0)) (List.range p.m)
    let r := satFmt fFP32 (fadd ⟨false, n, q.sExp⟩ (fp32 q.b))
    (toFp32 r.1, acc0.raise r.2)
  else sum32 sum ((List.range p.m).map (fun i => (q.t32.getD i []).getD (subCode p code i) 0))
/-- R298: the exact key of a stored vector. -/
def exactKey (p : IParams) (sum : List Term → Fv × SumR) (v : List (BitVec 32)) (stored : List Nat) : BitVec 32 × Acc :=
  let f := fpFmt p.fpFmt
  let r := scoreKeyBy sum p.metric (v.map fp32) (values f stored)
  (toFp32 r.1, r.2.acc.raise (dinOf f stored))

/-! ### Counting replays -/

/-- R329: forced replays of field f: 1 or 2 per run under control 7. -/
def State.forcedReplays (s : State) (f : Nat) : Nat := s.control 7 f 0
/-- R329: an extra pass of a forced replay differed from the run that it repeats; the model's passes are functions of their
terms, so only an error of the hardware shows, and it is free (log 104). -/
def State.replayDiffers (s : State) (f : Nat) (a : Acc) : Bool :=
  a.runs * s.forcedReplays f != 0 && Config.replayDiffers s.fresh
/-- R329: the mismatch of a command's replay logged. -/
def State.logMismatch (s : State) (f ring : Nat) (seq : BitVec 48) : State :=
  s.logEvent evREPLAY_MISMATCH f 2 noUnit (leBytes 2 ring ++ leBytes 6 seq.toNat)
/-- Replays counted and traced (Table 12.7, Table 12.6 source 10). -/
def State.noteReplays (s : State) (f : Nat) (a : Acc) : State :=
  let n := a.runs * s.forcedReplays f
  let s := if a.replays = 0 then s
    else (s.countField f 22 a.replays).traceRec 10 f noUnit (BitVec.ofNat 64 f) 0
  if n = 0 then s
  else ({ s with fresh := s.fresh + 1 }.countField f 23 n).traceRec 10 f noUnit (BitVec.ofNat 64 f) 1

end Sys2Proof.Machine
end

