-- ==== Sys2Proof/Machine/Mutation.lean ====
section
/-! DEFINITION. The living index: mutations, COMMIT, snapshot holds and COMPACT (03, 0x10–0x17; 04,
R153 to R169, R234 to R256, R583, R584, R595). -/

namespace Sys2Proof.Machine

/-! ### The pending view (R240, R241) -/

/-- R240: before in commit order. -/
def Mutation.earlier (a b : Mutation) : Bool := a.ring < b.ring || (a.ring == b.ring && a.seq.toNat < b.seq.toNat)
/-- Mutations in commit order. -/
def inCommitOrder (l : List Mutation) : List Mutation := sortLt Mutation.earlier l
/-- What a mutation does to an ID: makes it live, absent, or nothing. -/
def Mutation.touches (m : Mutation) (id : BitVec 64) : Option Bool :=
  if m.puts.any (fun r => r.id == id) then some true else if m.dels.contains id then some false else none
/-- R243: the state that the last of the mutations touching an ID gives it. -/
def lastTouch (l : List Mutation) (id : BitVec 64) : Option Bool :=
  l.foldl (fun a m => (m.touches id).orElse (fun _ => a)) none
/-- The slot of an entry live at the committed epoch. -/
def Index.liveSlot (x : Index) (id : BitVec 64) : Option Slot := x.slots.find? (fun e => e.id == id && e.died.isNone)
/-- Stamps of the outstanding COMMITs of an index, in the order of their admission (R163, R165). -/
def State.commitStamps (s : State) (key : Nat) : List Nat :=
  sortLt (fun (a b : Nat) => a < b) (s.cmds.filterMap (fun c => match c.work with
    | .commit k n _ _ => if k = key then some n else none
    | _ => none))
/-- R163, R240, R241: pending mutations in the order in which they will be resolved: those that each outstanding COMMIT takes
in, COMMIT by COMMIT, then the rest, each batch in commit order. -/
def resolveOrder : List Nat → List Mutation → List Mutation
  | [], l => inCommitOrder l
  | u :: us, l => inCommitOrder (l.filter (fun m => m.stamp < u)) ++ resolveOrder us (l.filter (fun m => u ≤ m.stamp))
/-- Pending mutations of an index in that order. -/
def State.viewOrder (s : State) (key : Nat) (x : Index) : List Mutation := resolveOrder (s.commitStamps key) x.pending
/-- R241: the ID is live in the view that mutations in an order give. -/
def Index.liveIn (x : Index) (ms : List Mutation) (id : BitVec 64) : Bool :=
  match lastTouch ms id with
  | some b => b
  | none => (x.liveSlot id).isSome
/-- R160: live entries of such a view. -/
def Index.sizeIn (x : Index) (ms : List Mutation) : Nat :=
  let touched := (ms.flatMap (fun m => m.puts.map (fun r => r.id) ++ m.dels)).eraseDups
  let live := x.slots.filter (fun e => e.died.isNone)
  (live.filter (fun e => !touched.contains e.id)).length + (touched.filter (x.liveIn ms)).length

/-! ### Records -/

/-- The record n of a mutation block. -/
def recordAt (block : Bytes) (size n : Nat) : Bytes := slice block (64 + n * size) size
/-- R154: bytes of a record of INSERT or UPSERT. -/
def IParams.recordBytes (p : IParams) (vf : Nat) : Nat := roundUp (8 + 4 * p.attrWords + p.v * (vecFmt vf).bytes) 8
/-- R155: bytes of a record of INSERT_CODED. -/
def IParams.codedBytes (p : IParams) (vf : Nat) : Nat :=
  roundUp (16 + roundUp p.codeBytes 8 + 4 * p.attrWords + (if p.fpFmt = 0 then 0 else p.v * (vecFmt vf).bytes)) 8
/-- Attribute words at an offset. -/
def attrsAt (p : IParams) (b : Bytes) (o : Nat) : List (BitVec 32) :=
  (List.range p.attrWords).map (fun i => BitVec.ofNat 32 (num b (o + 4 * i) 4))
/-- A record as read: ID, list and code where given, attribute words, vector patterns. -/
structure RawRec where
  id : BitVec 64
  list : Nat
  code : Bytes
  attrs : List (BitVec 32)
  pats : List Nat
  deriving DecidableEq, Repr
/-- R154: a record of INSERT or UPSERT. -/
def plainRec (p : IParams) (vf : Nat) (b : Bytes) : RawRec :=
  ⟨BitVec.ofNat 64 (num b 0 8), 0, [], attrsAt p b 8, patterns (vecFmt vf) p.v (b.drop (8 + 4 * p.attrWords))⟩
/-- R158: the unused bits of the last code byte are stored as zero. -/
def cleanCode (p : IParams) (b : Bytes) : Bytes :=
  let c := fit p.codeBytes b
  if p.bits = 4 && p.m % 2 == 1 then overlay c (p.codeBytes - 1) (leBytes 1 (num c (p.codeBytes - 1) 1 % 16)) else c
/-- R155: a record of INSERT_CODED. -/
def codedRec (p : IParams) (vf : Nat) (b : Bytes) : RawRec :=
  let o := 16 + roundUp p.codeBytes 8
  ⟨BitVec.ofNat 64 (num b 0 8), num b 8 4, cleanCode p (b.drop 16), attrsAt p b o,
    if p.fpFmt = 0 then [] else patterns (vecFmt vf) p.v (b.drop (o + 4 * p.attrWords))⟩
/-- R157: an ID appears twice. -/
def hasTwice (l : List (BitVec 64)) : Bool := !l.Nodup

/-- A record turned into its pending form, none when R17 refuses it: encoded, or taken as given. -/
def Index.prepareRec (x : Index) (coded : Bool) (vf : Nat) (r : RawRec) : Option (PendRec × Acc) :=
  if coded && x.p.fpFmt = 0 then some (⟨r.id, r.list, r.code, r.attrs, []⟩, acc0)
  else match prepare x.p (vecFmt vf) r.pats with
    | none => none
    | some (v, a) =>
      if coded then
        let st := storeVector x.p v
        some (⟨r.id, r.list, r.code, r.attrs, st.1⟩, a.raise st.2)
      else some (x.encode r.id r.attrs v a)

/-- R595: the slot of an ID is covered. -/
def State.idCovered (s : State) (x : Index) (id : BitVec 64) : Bool :=
  x.p.cascMode = 0 || s.slotCovered x (x.slotOf id.toNat)

/-- R583: a record sent to every other copy of its slot. -/
def State.sendRecord (s : State) (x : Index) (ctx : Ctx) (id : BitVec 64) (record : Bytes) : State :=
  if x.p.cascMode = 0 then s
  else ((x.placement.getD (x.slotOf id.toNat) []).filter (fun m => m != s.casc.ordinal && s.casc.isMember m)).foldl
    (fun s m => s.sendMessage m msgMUTATION 2 (slice ctx.pkt 0 8 ++ leBytes 6 ctx.cmd.seq.toNat ++ record)) s

/-- A mutation of a command, as it enters the pending state. -/
def Index.mutation (x : Index) (ctx : Ctx) (puts : List PendRec) (dels : List (BitVec 64)) : Mutation :=
  ⟨ctx.ring, ctx.cmd.seq, x.stamp, puts, dels⟩
/-- R240, R161, R191: a mutation enters the pending state, all or nothing, with the span of the pending store that its
records take (R785). -/
def State.addMutation (s : State) (ctx : Ctx) (x : Index) (m : Mutation) : Option (State × List Span) :=
  let y := { x with pending := x.pending ++ [m], stamp := x.stamp + 1 }
  let span : Span := ⟨some (ctx.key % 64), .pendingStore, 0, x.pendingBytes, y.pendingBytes - x.pendingBytes⟩
  ((s.setIndex ctx.key y).syncMutation ctx.fn).map (fun t => (t, [span]))

/-- R129, R153 to R161: INSERT, UPSERT and INSERT_CODED after Table 2.6. A reserved `vec_fmt` gives the records no size, so
it is refused before their lengths are checked (log 89). -/
def State.putRecords (s : State) (ctx : Ctx) (coded upsert : Bool) : Verdict :=
  match FMap.get? s.indexes ctx.key with
  | none => no stBAD_INDEX
  | some x =>
    let vf := num ctx.block 0 1
    let count := num ctx.block 4 4
    let size := if coded then x.p.codedBytes vf else x.p.recordBytes vf
    let raw := (List.range count).map (fun n =>
      let b := recordAt ctx.block size n
      if coded then codedRec x.p vf b else plainRec x.p vf b)
    let view := s.viewOrder ctx.key x
    checks [(2 < vf, stBAD_VALUE),
      (num ctx.block 8 4 != size || ctx.block.length < 64 + count * size, stBAD_LENGTH),
      (count == 0 || hasTwice (raw.map (fun r => r.id)) || raw.any (fun r => r.pats.any (isSpecial (vecFmt vf))) ||
        raw.any (fun r => x.p.nlist ≤ r.list), stBAD_VALUE)] (fun _ =>
      let done := raw.map (x.prepareRec coded vf)
      let recs := done.filterMap (fun r => r)
      let m := x.mutation ctx (recs.map (fun r => r.1)) []
      checks [(done.any (fun r => r.isNone), stBAD_VALUE),
        (!upsert && raw.any (fun r => x.liveIn view r.id), stEXISTS),
        (!x.active || raw.any (fun r => !s.idCovered x r.id), stBAD_STATE),
        (x.p.maxEntries < x.sizeIn (resolveOrder (s.commitStamps ctx.key) (x.pending ++ [m])), stLIMIT)] (fun _ =>
        match s.addMutation ctx x m with
        | none => no stNO_CAPACITY
        | some (t, spans) =>
          let a := joinAll recs
          if s.replayDiffers ctx.fn a then
            failed ({ s with fresh := s.fresh + 1 }.logMismatch ctx.fn ctx.ring ctx.cmd.seq) stHW_FAULT
          else
          let t := raw.foldl (fun t r => t.sendRecord x ctx r.id
            (recordAt ctx.block size (raw.idxOf r))) (t.noteReplays ctx.fn a)
          stores t spans count a.fl))

/-- Executes INSERT (R153 to R161, R234). -/
def execInsert (ring : Nat) (dma : Dma) (s : State) : Result :=
  s.runReading 0x10 ring dma (fun x s => s.putRecords x false false)

/-- Executes UPSERT (R153 to R161, R234). -/
def execUpsert (ring : Nat) (dma : Dma) (s : State) : Result :=
  s.runReading 0x12 ring dma (fun x s => s.putRecords x false true)

/-- Executes INSERT_CODED (R155, R157, R239). -/
def execInsertCoded (ring : Nat) (dma : Dma) (s : State) : Result :=
  s.runReading 0x13 ring dma (fun x s => s.putRecords x true false)

/-- IDs that a DELETE names. -/
def deleteIds (ctx : Ctx) : List (BitVec 64) :=
  if ctx.hasBlock then
    (List.range (num ctx.block 0 4)).map (fun n => BitVec.ofNat 64 (num ctx.block (64 + 8 * n) 8))
  else [BitVec.ofNat 64 (num ctx.pkt 24 8)]

/-- Executes DELETE (R157, R160 to R162, R595). -/
def execDelete (ring : Nat) (dma : Dma) (s : State) : Result :=
  s.runReading 0x11 ring dma (fun ctx s =>
    match FMap.get? s.indexes ctx.key with
    | none => no stBAD_INDEX
    | some x =>
      let ids := deleteIds ctx
      let live := x.liveIn (s.viewOrder ctx.key x)
      let found := ids.filter live
      checks [(ctx.hasBlock && ctx.block.length < 64 + 8 * num ctx.block 0 4, stBAD_LENGTH),
        (hasTwice ids, stBAD_VALUE),
        (!flag ctx.pkt 16 0 && ids.any (fun i => !live i), stNOT_FOUND),
        (!x.active || ids.any (fun i => !s.idCovered x i), stBAD_STATE)] (fun _ =>
          match s.addMutation ctx x (x.mutation ctx [] found) with
          | none => no stNO_CAPACITY
          | some (t, spans) =>
            stores (found.foldl (fun t i => t.sendRecord x ctx i (leBytes 8 i.toNat)) t) spans found.length 0))

/-! ### COMMIT -/

/-- Executes COMMIT: it stays outstanding until COMMIT_APPLY (R163, R165, R584). -/
def execCommit (ring : Nat) (dma : Dma) (s : State) : Result :=
  s.runPacket 0x14 ring dma (fun ctx s =>
    match FMap.get? s.indexes ctx.key with
    | none => no stBAD_INDEX
    | some x => checks [(!x.active, stBAD_STATE)] (fun _ =>
        let t := s.setIndex ctx.key { x with stamp := x.stamp + 1 }
        let t := if x.p.cascMode = 0 then t
          else t.tellMembers msgCOMMIT 0 (leBytes 1 ctx.fn ++ leBytes 1 ctx.cmd.idx ++ leBytes 8 (x.epoch + 1) ++
            leBytes 4 x.pending.length ++ x.pending.flatMap (fun m => leBytes 2 m.ring ++ leBytes 6 m.seq.toNat) ++
            (s.readable ctx.key x).flatMap (fun e => leBytes 8 e))
        stays t (.commit ctx.key x.stamp [] [])))

/-- R243, R245: the records that the taken mutations make live, in commit order. -/
def chosen (ms : List Mutation) : List PendRec :=
  match ms with
  | [] => []
  | m :: t => m.puts.filter (fun r => (lastTouch t r.id).isNone) ++ chosen t
/-- R243, R246: the IDs whose live entry goes: deleted or replaced. -/
def goneIds (ms : List Mutation) : List (BitVec 64) :=
  (ms.flatMap (fun m => m.puts.map (fun r => r.id) ++ m.dels)).eraseDups
/-- R246: the slot of a replaced or deleted entry tombstoned at an epoch. -/
def Slot.kill (e : Slot) (ids : List (BitVec 64)) (epoch : Nat) : Slot :=
  if e.died.isNone && ids.contains e.id then { e with died := some epoch } else e
/-- A record as the slot that an epoch appends. -/
def PendRec.slot (r : PendRec) (epoch : Nat) : Slot := ⟨r.id, r.code, r.attrs, r.vec, epoch, none⟩
/-- A list after a COMMIT, before its blocks are numbered: deaths marked, records appended; R263: deaths are
marked in older images too. -/
def ListRec.commit (l : ListRec) (dead : List (BitVec 64)) (new : List Slot) (epoch : Nat) : ListRec :=
  { image := { l.image with slots := l.image.slots.map (fun e => e.kill dead epoch) ++ new }
    olds := l.olds.map (fun i => { i with slots := i.slots.map (fun e => e.kill dead epoch) }) }

/-- A block number for each new block of the current images of an index, list by list. -/
def numberLists (hash : Bool) (ls : FMap ListRec) (used : List Nat) : FMap ListRec × List Nat :=
  ls.foldl (fun a p =>
    let n := blocksFor p.2.image.slots.length - p.2.image.blocks.length
    let new := nextBlocks hash a.2 p.1 n
    (a.1 ++ [(p.1, { p.2 with image := { p.2.image with blocks := p.2.image.blocks ++ new } })], new ++ a.2)) ([], used)
/-- A block number for each new block of the images that Evaporators build of an index (R263). -/
def numberBuilds (hash : Bool) (x : Index) (key : Nat) (es : FMap Compaction) (used : List Nat) :
    FMap Compaction × List Nat :=
  es.foldl (fun a p =>
    if p.2.key = key then
      let n := blocksFor (compactedSlots p.2.e0 (x.list p.2.list).image.slots).length - p.2.blocks.length
      let new := nextBlocks hash a.2 p.2.list n
      (a.1 ++ [(p.1, { p.2 with blocks := p.2.blocks ++ new })], new ++ a.2)
    else (a.1 ++ [p], a.2)) ([], used)

/-- Epoch of the last change of a list's slot count below an epoch. -/
def countSince (l : List Slot) (epoch : Nat) : Nat := maxBy (fun e => if e.born < epoch then e.born else 0) l
/-- Epoch of the last change of the tombstone words of some slots below an epoch. -/
def wordSince (l : List Slot) (epoch : Nat) : Nat :=
  maxBy (fun e => max e.born (match e.died with
    | none => 0
    | some d => if d < epoch then d else 0)) l
/-- R251, 04 Version log: the version records of list l at a COMMIT: its slot count, its changed tombstone words and
the ID-map records of its entries that went. -/
def versionsOf (l : Nat) (old : List Slot) (dead : List (BitVec 64)) (added : Nat) (epoch : Nat) : List Version :=
  let gone := fun (e : Slot) => e.died.isNone && dead.contains e.id
  (if added = 0 then [] else [⟨l, countSince old epoch, epoch⟩]) ++
    ((chunkList 64 (old.length + 1) old).filter (fun w => w.any gone)).map (fun w => ⟨l, wordSince w epoch, epoch⟩) ++
    (old.filter gone).map (fun e => ⟨l, e.born, epoch⟩)

/-- R254: the list's tombstone ratio reaches `tomb_pct`. -/
def overRatio (pct : Nat) (l : List Slot) : Bool :=
  pct != 0 && !l.isEmpty && pct * l.length ≤ 100 * (l.filter (fun e => e.died.isSome)).length
/-- A list waits for compaction or is under it. -/
def State.compacting (s : State) (key l : Nat) : Bool :=
  s.compactQueue.any (fun w => w.key == key && w.list == l) ||
    s.evaporators.any (fun e => e.2.key == key && e.2.list == l)
/-- R257: before in the waiting order: E0, index number, list number; the field settles what is left. -/
def Waiting.before (a b : Waiting) : Bool :=
  let k := fun (w : Waiting) => ((w.e0 * 64 + w.key % 64) * 1048576 + w.list) * 64 + w.key / 64
  k a < k b
/-- R254, R255, R257: lists take their place in the waiting order. -/
def State.enqueueLists (s : State) (key e0 : Nat) (ls : List Nat) : State :=
  let add := fun (q : List Waiting) (l : Nat) => insertLt Waiting.before ⟨key, l, e0, false⟩ q
  { s with compactQueue := (ls.filter (fun l => !s.compacting key l)).foldl add s.compactQueue }
/-- R590: the index is divided by runs among the members of a cascade. -/
def State.splitDim (s : State) (key : Nat) : Bool := ((FMap.get? s.indexes key).map (fun x => x.p.cascMode)) == some 2
/-- R254, R590: lists selected for compaction with their trigger epoch; in SPLIT-DIM the lead selects them for every member. -/
def State.enqueue (s : State) (key e0 : Nat) (ls : List Nat) : State :=
  if !s.splitDim key then s.enqueueLists key e0 ls
  else if s.follows then s
  else
    let new := ls.filter (fun l => !s.compacting key l)
    let t := s.enqueueLists key e0 new
    if new.isEmpty then t
    else t.tellMembers msgCOMPACT 0 (leBytes 1 (key / 64) ++ leBytes 1 (key % 64) ++ leBytes 8 e0 ++ new.flatMap (fun l => leBytes 4 l))
/-- R254: the selection at the new epoch. -/
def State.selectLists (s : State) (key : Nat) : State :=
  match FMap.get? s.indexes key with
  | none => s
  | some x => s.enqueue key x.epoch
      ((x.lists.filter (fun l => overRatio x.p.tombPct l.2.image.slots)).map (fun l => l.1))

/-- R243 to R246: the index after its taken mutations, blocks not yet numbered. -/
def Index.applied (x : Index) (taken : List Mutation) : Index :=
  let epoch := x.epoch + 1
  let puts := chosen taken
  let dead := goneIds taken
  let touched := (x.lists.map (fun l => l.1) ++ puts.map (fun r => r.list)).eraseDups
  let new := fun (l : Nat) => (puts.filter (fun r => r.list == l)).map (fun r => r.slot epoch)
  { x with
    lists := touched.foldl (fun m l => FMap.set m l ((x.list l).commit dead (new l) epoch)) []
    versions := x.versions ++ touched.flatMap (fun l =>
      versionsOf l (x.list l).image.slots dead (new l).length epoch)
    pending := x.pending.filter (fun m => !taken.any (fun t => t.stamp == m.stamp))
    epoch := epoch }

/-- The spans of the blocks of a list that a COMMIT writes: every part of a block that gained records, the tombstone word
of one whose entries went. -/
def writtenSpans (i : Nat) (p : IParams) (hash : Bool) (l : Nat) (old new : Image) : List Span :=
  (List.range new.blocks.length).flatMap (fun j =>
    let a := (old.slots.drop (64 * j)).take 64
    let b := (new.slots.drop (64 * j)).take 64
    let n := new.blocks.getD j 0
    if a.length < b.length then fullSpan i p hash l n :: scanSpans i p hash l n
    else if a = b then [] else [⟨some i, .tombstones, 0, 8 * n, 8⟩])
/-- The version log's new records. -/
def versionSpan (i : Nat) (old new : Index) : Span :=
  ⟨some i, .versions, 0, 32 * old.versions.length, 32 * (new.versions.length - old.versions.length)⟩
/-- A COMMIT prepared: the state with steps 2 to 6 of R247 done and the mutations that it takes in still in the pending
store, and the spans that it writes. -/
structure Prepared where
  s : State
  spans : List Span
  /-- Entries that it makes live, in number. -/
  chosen : Nat
/-- R247 steps 2 to 6, R248, R265: none where step 3 fails, or where the result would hold more than `max_entries` live
entries, as mutations that an earlier COMMIT left pending may lead to (DESIGN CHOICE, log 102). -/
def State.prepareCommit (s : State) (key upTo : Nat) : Option Prepared :=
  match FMap.get? s.indexes key with
  | none => none
  | some x =>
    let f := key / 64
    let hash := (s.cfg f).mapHash
    let taken := inCommitOrder (x.pending.filter (fun m => m.stamp < upTo))
    let y := x.applied taken
    let a := numberLists hash y.lists ((s.blocksOf key).map (fun b => b.1))
    let b := numberBuilds hash y key s.evaporators a.2
    let z := { y with lists := a.1, pending := x.pending }
    let t := { s.setIndex key z with evaporators := b.1 }
    if b.2.any (fun n => 2 ^ 28 ≤ n) || x.p.maxEntries < x.sizeIn taken then none
    else (t.syncPages f).map (fun u =>
      ⟨u, a.1.flatMap (fun l => writtenSpans (key % 64) x.p hash l.1 (x.list l.1).image l.2.image) ++
        [versionSpan (key % 64) x z], (chosen taken).length⟩)
/-- R247 step 7: the taken mutations leave the pending store, the written pages change, lists are selected for compaction. -/
def Prepared.committed (r : Prepared) (key upTo : Nat) : State :=
  let f := key / 64
  let t := r.s.modIndex key (fun x => { x with pending := x.pending.filter (fun m => upTo ≤ m.stamp) })
  let t := (t.releasePages f).storeSpans f r.spans
  (((t.selectLists key).countField f 24 r.chosen).countField f 25 1)

/-- The COMMIT of an index admitted first among those outstanding. -/
def State.firstCommit (s : State) (key : Nat) : Option (Cmd × Nat × List Nat) :=
  argMin (fun c => c.2.1) (s.cmds.filterMap (fun c => match c.work with
    | .commit k n _ done => if k = key then some (c, n, done) else none
    | _ => none))
/-- R249, R502: a COMMIT that reaches a page that is not resident halts; what it has obtained stays its own, and the
structures are as before. -/
def State.haltCommit (s : State) (c : Cmd) (key upTo : Nat) (done : List Nat) (r : Prepared) (g : Segment) : State :=
  let f := key / 64
  let before := (s.setWork c (.commit key upTo [] done)).needed f
  let mine := (r.s.needed f).filter (fun k => !before.contains k)
  let t := match FMap.get? s.indexes key with
    | none => s
    | some x => { r.s.setIndex key x with evaporators := s.evaporators }
  let t := t.setWork c (.commit key upTo mine (r.s.readUpTo f done r.spans g.page.num))
  t.haltReader f (.cmd c.ring c.seq) 1 replyUnit false r.spans g (fun _ => false)
/-- R247 to R249: a COMMIT on this device: it cannot be prepared, it meets what is lost, it halts on a page, or it takes
effect. -/
inductive CommitEnd where
  | noCapacity
  | fault
  | halted (s : State)
  | done (s : State)
/-- R247 to R249: the COMMIT of a command tried. -/
def State.tryCommit (s : State) (c : Cmd) (key upTo : Nat) (done : List Nat) : CommitEnd :=
  let f := key / 64
  let s := s.dropReader (.cmd c.ring c.seq)
  match s.prepareCommit key upTo with
  | none => .noCapacity
  | some r =>
    if r.spans.any (r.s.spanLost f) then .fault
    else match r.s.firstAway f done r.spans with
      | some g => .halted (s.haltCommit c key upTo done r g)
      | none => if r.s.retrains f r.spans then .halted s else .done (r.committed key upTo)

/-- Executes COMMIT_APPLY: the oldest COMMIT of the index; `copiesOk` says that every reachable copy of a cascade
index applied its records (R247 to R249, R502, R584). -/
def execCommitApply (field index : Nat) (copiesOk recordOk : Bool) (s : State) : Result :=
  let key := indexKey field index
  if !s.completing then .next s
  else match s.firstCommit key, s.index? field index with
    | some (c, upTo, done), some x =>
      if s.readerHalted (.cmd c.ring c.seq) then .next s
      else if x.p.cascMode != 0 && !copiesOk then .next ((s.undo c).finish c stNO_CAPACITY 0 0 c.flags recordOk)
      else match s.tryCommit c key upTo done with
        | .noCapacity => .next ((s.undo c).finish c stNO_CAPACITY 0 0 c.flags recordOk)
        | .fault => .next ((s.undo c).finish c stHW_FAULT 0 0 c.flags recordOk)
        | .halted t => .next t
        | .done t =>
          let t := if x.p.cascMode = 0 then t
            else t.tellStandby (leBytes 1 field ++ leBytes 1 index ++ leBytes 8 (x.epoch + 1))
          .next (t.finish c 0 (x.epoch + 1) 0 c.flags recordOk)
    | _, _ => .next s

/-! ### Snapshot holds -/

/-- The epoch that a hold or release names (R166, R168). -/
def heldEpoch (ctx : Ctx) (x : Index) : Nat := if flag ctx.pkt 16 0 then num ctx.pkt 24 8 else x.epoch
/-- Holds of every index of field f. -/
def State.fieldHolds (s : State) (f : Nat) : Nat :=
  sumBy (fun i => i.2.holds.length) (s.indexes.filter (fun i => i.1 / 64 == f))

/-- Executes SNAPSHOT_HOLD (R166, R167). -/
def execSnapshotHold (ring : Nat) (dma : Dma) (s : State) : Result :=
  s.runPacket 0x15 ring dma (fun ctx s =>
    match FMap.get? s.indexes ctx.key with
    | none => no stBAD_INDEX
    | some x =>
      let e := heldEpoch ctx x
      checks [(e != x.epoch && !x.holds.contains e, stEPOCH_UNAVAILABLE),
        (8 ≤ x.holds.length || 64 ≤ s.fieldHolds ctx.fn, stLIMIT)] (fun _ =>
          yes (s.setIndex ctx.key { x with holds := x.holds ++ [e] }) e))

/-- Executes SNAPSHOT_RELEASE (R168). -/
def execSnapshotRelease (ring : Nat) (dma : Dma) (s : State) : Result :=
  s.runPacket 0x16 ring dma (fun ctx s =>
    match FMap.get? s.indexes ctx.key with
    | none => no stBAD_INDEX
    | some x =>
      let e := heldEpoch ctx x
      checks [(!x.holds.contains e, stNOT_FOUND)] (fun _ =>
        let hs := x.holds.erase e
        yes (s.setIndex ctx.key { x with holds := hs }) (hs.filter (fun h => h == e)).length))

/-- R169: the lists that a COMPACT selects. -/
def compactLists (ctx : Ctx) (x : Index) : List Nat :=
  let filled := x.lists.filter (fun l => !l.2.image.slots.isEmpty)
  if num ctx.pkt 16 1 = 0 then
    (filled.filter (fun l => overRatio x.p.tombPct l.2.image.slots)).map (fun l => l.1)
  else
    let first := num ctx.pkt 20 4
    (filled.filter (fun l => first ≤ l.1 && l.1 < first + num ctx.pkt 24 4)).map (fun l => l.1)

/-- Executes COMPACT (R169, R255, R256). -/
def execCompact (ring : Nat) (dma : Dma) (s : State) : Result :=
  s.runPacket 0x17 ring dma (fun ctx s =>
    match FMap.get? s.indexes ctx.key with
    | none => no stBAD_INDEX
    | some x =>
      let mode := num ctx.pkt 16 1
      checks [(1 < mode, stBAD_VALUE),
        (mode == 1 && (num ctx.pkt 24 4 == 0 || x.p.nlist < num ctx.pkt 20 4 + num ctx.pkt 24 4), stBAD_VALUE)]
        (fun _ =>
          let ls := compactLists ctx x
          if ls.isEmpty then yes s 0
          else stays (s.enqueue ctx.key x.epoch ls) (.compact ctx.key ls 0 0)))

end Sys2Proof.Machine
end

