-- ==== Sys2Proof/Machine/Compaction.lean ====
section
/-! DEFINITION. Compaction by the Evaporators and the freeing of old images and versions (R250, R251, R256 to
R263, R786). -/

namespace Sys2Proof.Machine

/-- The queue with list w passed over (R786). -/
def passOver (q : List Waiting) (w : Waiting) : List Waiting :=
  q.map (fun v => if v = w then { v with passedOver := true } else v)

/-- R257, R786: a compaction of a waiting list begun on an Evaporator; none where memory does not suffice. -/
def State.beginCompaction (s : State) (n : Nat) (w : Waiting) : Option State :=
  match FMap.get? s.indexes w.key with
  | none => none
  | some x =>
    let f := w.key / 64
    let used := (s.blocksOf w.key).map (fun b => b.1)
    let new := nextBlocks (s.cfg f).mapHash used w.list (blocksFor (compactedSlots w.e0 (x.list w.list).image.slots).length)
    if new.any (fun n => 2 ^ 28 ≤ n) then none
    else
      let t := { s with
        evaporators := FMap.set s.evaporators n ⟨w.key, w.list, w.e0, new, []⟩
        compactQueue := s.compactQueue.filter (fun v => v != w) }
      t.syncPages f

/-- R257, R786: the first waiting list whose compaction can begin; those passed over for want of memory are
marked. -/
def State.takeWaiting (s : State) (n : Nat) : List Waiting → State
  | [] => s
  | w :: ws =>
    if w.passedOver then s.takeWaiting n ws
    else match s.beginCompaction n w with
      | some t => t
      | none => State.takeWaiting { s with compactQueue := passOver s.compactQueue w } n ws

/-- A unit may start work: in service and not held by perturbation control 3 (R681). -/
def State.unitFree (s : State) (ty n : Nat) : Bool :=
  s.up && s.unitState ty n == 0 && !s.dutyHeld 3 0xFF (unitKey ty n)

/-- R651: a draining unit goes on with the work placed on it. -/
def State.unitDrains (s : State) (ty n : Nat) : Bool :=
  s.up && s.unitState ty n == 1 && !s.dutyHeld 3 0xFF (unitKey ty n)

/-- Executes COMPACTION_START on an Evaporator (R257, R786). -/
def execCompactionStart (evaporator : Nat) (s : State) : Result :=
  if 2 ≤ evaporator then .fault .noSuchUnit
  else if !s.unitFree 7 evaporator || (FMap.get? s.evaporators evaporator).isSome then .next s
  else .next (s.takeWaiting evaporator s.compactQueue)

/-- R258, R260: the list after its swap, with its old image kept. -/
def ListRec.swap (l : ListRec) (e0 : Nat) (blocks : List Nat) (order : Nat) : ListRec :=
  ⟨⟨compactedSlots e0 l.image.slots, blocks, e0, order⟩, l.image :: l.olds⟩

/-- R256: a COMPACT that waits for the swapped list takes note of it. -/
def Cmd.swapped (c : Cmd) (key l purged : Nat) : Cmd :=
  match c.work with
  | .compact k ls n p =>
    if k = key && ls.contains l then { c with work := .compact k (ls.erase l) (n + 1) (p + purged) } else c
  | _ => c

/-- R169: a COMPACT whose lists have all swapped completes; one that a Steward restart ends waits for the end of the
restart (R762). -/
def State.endCompact (s : State) (c : Cmd) (recordOk : Bool) : State :=
  match c.work with
  | .compact _ [] n p => if c.stopped.isSome then s else s.finish c 0 (info2 n p) 0 c.flags recordOk
  | _ => s

/-- What a compaction reads of the old image, and what it writes of the new one. -/
def State.compactionSpans (s : State) (e : Compaction) (x : Index) : List Span × List Span :=
  let i := e.key % 64
  let hash := (s.cfg (e.key / 64)).mapHash
  let m := (x.list e.list).image
  let fulls := fun (bs : List Nat) => if x.p.fpFmt = 0 then [] else bs.map (fullSpan i x.p hash e.list)
  (imageSpans i x.p hash e.list m m.slots.length ++ fulls m.blocks,
    e.blocks.flatMap (scanSpans i x.p hash e.list) ++ fulls e.blocks)
/-- R260: a COMMIT of the index is under way: it has gone beyond step 2 of R247. -/
def State.commitBegun (s : State) (key : Nat) : Bool :=
  s.cmds.any (fun c => match c.work with
    | .commit k _ extra done => k == key && (!extra.isEmpty || !done.isEmpty)
    | _ => false)
/-- R494, R499: a compaction that meets what cannot be read is given up: the COMPACTs that wait for it end with ST_HW_FAULT,
and the list keeps its old image (DESIGN CHOICE, log 102). -/
def State.abandonCompaction (s : State) (n : Nat) (e : Compaction) : State :=
  let t := { s.dropReader (.evaporator n) with evaporators := FMap.erase s.evaporators n }
  (t.releasePages (e.key / 64)).stopCmds (fun c => c.stopped.isNone && (match c.work with
    | .compact k ls _ _ => k == e.key && ls.contains e.list
    | _ => false)) stHW_FAULT
/-- R258 to R263: the swap of a finished compaction. -/
def State.swapList (s : State) (n : Nat) (e : Compaction) (x : Index) (recordOk : Bool) : State :=
  let l := x.list e.list
  let y := l.swap e.e0 e.blocks s.order
  let t := s.setIndex e.key { x with lists := FMap.set x.lists e.list y }
  let t := ({ t with evaporators := FMap.erase t.evaporators n, order := t.order + 1 }).countField (e.key / 64) 26 1
  let purged := l.image.slots.length - y.image.slots.length
  let t := t.setCmds (t.cmds.map (fun c => c.swapped e.key e.list purged))
  t.cmds.foldl (fun u c => u.endCompact c recordOk) t

/-- R590: what a finished image leads to. In SPLIT-DIM a member tells the lead that it is ready and waits for its word; the lead, once
every member is ready, names its next planner epoch and swaps at it. -/
def State.finishImage (s : State) (n : Nat) (e : Compaction) (x : Index) (copiesOk recordOk : Bool) : State :=
  let name := leBytes 1 (e.key / 64) ++ leBytes 1 (e.key % 64) ++ leBytes 4 e.list
  if x.p.cascMode ≠ 2 then s.swapList n e x recordOk
  else if s.follows then s.sendMessage s.casc.leadOrdinal msgREADY 0 name
  else if !copiesOk then s
  else
    let at_ := nextMultiple 10000 s.tbk
    ((s.tellMembers msgSWAP 0 (name ++ leBytes 8 (at_ / 10000))).advance at_).swapList n e x recordOk

/-- Executes COMPACTION_SWAP on an Evaporator: the new image is written, page by page as far as pages are resident, and
swapped in; `copiesOk` says that every member of a SPLIT-DIM index has its own new image (R169, R258 to R260, R476, R502,
R590). -/
def execCompactionSwap (evaporator : Nat) (copiesOk recordOk : Bool) (s : State) : Result :=
  if 2 ≤ evaporator then .fault .noSuchUnit
  else match FMap.get? s.evaporators evaporator with
    | none => .next s
    | some e =>
      match FMap.get? s.indexes e.key with
      | none => .next s
      | some x =>
        let f := e.key / 64
        let me := Reader.evaporator evaporator
        if (!s.unitFree 7 evaporator && !s.unitDrains 7 evaporator) || s.readerHalted me || s.commitBegun e.key then .next s
        else
          let spans := s.compactionSpans e x
          let s := s.dropReader me
          if spans.1.any (s.spanFault f) || spans.2.any (s.spanLost f) then .next (s.abandonCompaction evaporator e)
          else match s.firstAway f e.read (spans.1 ++ spans.2) with
            | some g =>
              let e := { e with read := s.readUpTo f e.read (spans.1 ++ spans.2) g.page.num }
              let t := { s with evaporators := FMap.set s.evaporators evaporator e }
              .next (t.haltReader f me 2 (unitKey 7 evaporator) true (spans.1 ++ spans.2) g (fun _ => false))
            | none =>
              if s.retrains f (spans.1 ++ spans.2) then .next s
              else
              let t := s.readSpans f 2 (unitKey 7 evaporator) false spans.1
              if spans.1.any (t.spanFault f) then .next (t.abandonCompaction evaporator e)
              else .next ((t.storeSpans f spans.2).finishImage evaporator e x copiesOk recordOk)

/-- R262: the old images still kept; `newer` is the image that replaced the first of them. -/
def keptImages (orders epochs : List Nat) (newer : Image) : List Image → List Image
  | [] => []
  | i :: is =>
    let rest := keptImages orders epochs i is
    if orders.any (fun o => o < newer.order) || epochs.any (fun e => e < newer.e0) then i :: rest else rest

/-- Executes OLD_IMAGE_FREE on a list (R262). -/
def execOldImageFree (field index list : Nat) (s : State) : Result :=
  let key := indexKey field index
  match s.index? field index with
  | none => .next s
  | some x =>
    if !s.up then .next s
    else
      let l := x.list list
      let kept := keptImages (s.readOrders key) (s.readable key x) l.image l.olds
      if kept = l.olds then .next s
      else .next ((s.setIndex key { x with lists := FMap.set x.lists list { l with olds := kept } }).releasePages field |>.memoryFreed field)

/-- Executes VERSION_FREE on an index (R251). -/
def execVersionFree (field index : Nat) (s : State) : Result :=
  let key := indexKey field index
  match s.index? field index with
  | none => .next s
  | some x =>
    if !s.up then .next s
    else
      let es := s.readable key x
      let vs := x.versions.filter (fun v => es.any (fun e => v.since ≤ e && e < v.until_))
      .next ((s.setIndex key { x with versions := vs }).releasePages field)

end Sys2Proof.Machine
end

