-- ==== Sys2Proof/Machine/Filters.lean ====
section
/-! DEFINITION. Filter programs and allow-bitmaps (03, 0x28–0x2A; R181 to R185, R292 to R295). -/

namespace Sys2Proof.Machine

/-! ### Filter programs -/

/-- Table 5.4: a term. -/
def filterTerm (b : Bytes) : FilterTerm :=
  ⟨num b 0 1, num b 1 1, BitVec.ofNat 32 (num b 4 4), BitVec.ofNat 32 (num b 8 4)⟩
/-- Table 5.3: a rule; terms at or beyond `n_terms` are ignored (R293). -/
def filterRule (b : Bytes) : FilterRule :=
  ⟨num b 0 2, num b 2 1 == 1, (List.range (num b 3 1)).map (fun t => filterTerm (slice b (16 + 12 * t) 12))⟩
/-- R293: the values of a rule lie in their ranges. -/
def filterRuleOk (b : Bytes) : Bool :=
  num b 2 1 ≤ 1 && 1 ≤ num b 3 1 && num b 3 1 ≤ 4 &&
    (filterRule b).terms.all (fun t => t.word ≤ 3 && t.op ≤ 9)
/-- Rule n of a block. -/
def ruleAt (b : Bytes) (n : Nat) : Bytes := slice b (64 * (n + 1)) 64
/-- R292, R293: the filter program of a block, none when its format fails. -/
def parseFilter (b : Bytes) : Option FilterProg :=
  let n := num b 0 2
  if 63 < n || b.length != 64 * (1 + n) || 1 < num b 2 1 || !(List.range n).all (fun i => filterRuleOk (ruleAt b i)) then none
  else some ⟨num b 2 1 == 1, (List.range n).map (fun i => filterRule (ruleAt b i))⟩

/-- Table 5.5: a term's truth on the attribute words of an entry. -/
def FilterTerm.holds (t : FilterTerm) (attrs : List (BitVec 32)) : Bool :=
  let w := attrs.getD t.word 0
  match t.op with
  | 0 => w == t.a
  | 1 => w != t.a
  | 2 => w.toNat < t.a.toNat
  | 3 => w.toNat ≤ t.a.toNat
  | 4 => t.a.toNat < w.toNat
  | 5 => t.a.toNat ≤ w.toNat
  | 6 => t.a.toNat ≤ w.toNat && w.toNat ≤ t.b.toNat
  | 7 => w &&& t.a != 0
  | 8 => w &&& t.a == t.a
  | _ => w &&& t.a == t.b
/-- R294: a rule matches when all its terms are true. -/
def FilterRule.matches_ (r : FilterRule) (attrs : List (BitVec 32)) : Bool := r.terms.all (fun t => t.holds attrs)
/-- R60, R294: the verdict of a filter program on an entry. -/
def FilterProg.allows (p : FilterProg) (attrs : List (BitVec 32)) : Bool :=
  let ms := p.rules.filter (fun r => r.matches_ attrs)
  if ms.isEmpty then p.defaultAllow
  else
    let top := maxBy (fun r => r.priority) ms
    (ms.filter (fun r => r.priority == top)).all (fun r => r.allow)
/-- R295: the attribute words that a filter program reads. -/
def FilterProg.words (p : FilterProg) : List Nat := p.rules.flatMap (fun r => r.terms.map (fun t => t.word))

/-- FILTER_DEFINE after Table 2.6. -/
def State.filterBody (s : State) (x : Ctx) : Verdict :=
  let id := num x.pkt 16 1
  match s.field? x.fn with
  | none => no stNOT_FOUND
  | some f =>
    if 31 < id then no stBAD_VALUE
    else match parseFilter x.block with
      | none => no stBAD_VALUE
      | some p =>
        if (FMap.get? f.filters id).isSome && !flag x.pkt 17 0 then no stEXISTS
        else yes ((s.setField x.fn { f with filters := FMap.set f.filters id p }).tellAll (x.pkt ++ x.block)) 0

/-- Executes FILTER_DEFINE (R292, R293). -/
def execFilterDefine (ring : Nat) (dma : Dma) (s : State) : Result :=
  s.runPacket 0x28 ring dma (fun x s => s.filterBody x)

/-- FILTER_DROP after Table 2.6. -/
def State.filterDropBody (s : State) (x : Ctx) : Verdict :=
  let id := num x.pkt 16 1
  match s.field? x.fn with
  | none => no stNOT_FOUND
  | some f => checks [(31 < id, stBAD_VALUE), ((FMap.get? f.filters id).isNone, stNOT_FOUND)] (fun _ =>
      yes ((s.setField x.fn { f with filters := FMap.erase f.filters id }).tellAll x.pkt) 0)

/-- Executes FILTER_DROP. -/
def execFilterDrop (ring : Nat) (dma : Dma) (s : State) : Result :=
  s.runPacket 0x29 ring dma (fun x s => s.filterDropBody x)

/-! ### Allow-bitmaps -/

/-- R181: an image allows an entry. -/
def BitmapImage.allows (i : BitmapImage) (attrs : List (BitVec 32)) : Bool :=
  let n := (attrs.getD i.attrSel 0).toNat
  n < i.nbits && i.bits.testBit n
/-- Bits from an offset on replaced by those of a block. -/
def BitmapImage.write (i : BitmapImage) (off : Nat) (b : Bytes) : BitmapImage :=
  let len := 8 * b.length
  { i with bits := i.bits % 2 ^ off + le b * 2 ^ off + i.bits / 2 ^ (off + len) * 2 ^ (off + len) }
/-- R182 to R184: the bitmap that an accepted BITMAP_LOAD leaves; none when it is deleted. -/
def bitmapAfter (old : Option Bitmap) (create publish hasBlock : Bool) (attrSel nbits off : Nat) (b : Bytes) :
    Option Bitmap :=
  let base : Option Bitmap :=
    if create then
      (if nbits = 0 then none
       else some ⟨match old with
          | none => none
          | some o => o.published, ⟨attrSel, nbits, 0⟩⟩)
    else old
  match base with
  | none => none
  | some m =>
    let st := if hasBlock then m.staging.write off b else m.staging
    some (if publish then ⟨some st, st⟩ else { m with staging := st })
/-- R185: what a BITMAP_LOAD writes in the bitmap's pages, the published image in their first half: the block in the staging image, and
all of the published image when it publishes. -/
def bitmapWrites (id : Nat) (m : Option Bitmap) (publish hasBlock : Bool) (at_ len : Nat) : List Span :=
  match m with
  | none => []
  | some b =>
    let half := (b.pages id).length / 2 * pageSize
    (if publish then [bitmapSpan id b.staging] else []) ++
      (if hasBlock then [⟨none, .bitmap id, 0, half + at_, len⟩] else [])
/-- The field with a bitmap set or deleted. -/
def Field.putBitmap (f : Field) (id : Nat) (m : Option Bitmap) : Field :=
  match m with
  | none => { f with bitmaps := FMap.erase f.bitmaps id }
  | some m => { f with bitmaps := FMap.set f.bitmaps id m }

/-- BITMAP_LOAD after Table 2.6. -/
def State.bitmapBody (s : State) (x : Ctx) : Verdict :=
  match s.field? x.fn with
  | none => no stNOT_FOUND
  | some f =>
    let id := num x.pkt 16 1
    let create := flag x.pkt 17 0
    let publish := flag x.pkt 17 1
    let sel := num x.pkt 18 1
    let nbits := num x.pkt 20 4
    let off := num x.pkt 24 4
    let old := FMap.get? f.bitmaps id
    let size := if create then nbits else match old with
      | none => off + 8 * x.block.length
      | some o => o.staging.nbits
    checks [(15 < id || 3 < sel, stBAD_VALUE),
      (create && (nbits % 512 != 0 || 2 ^ 30 < nbits), stBAD_VALUE),
      (create && nbits == 0 && (x.hasBlock || publish), stBAD_VALUE),
      (x.hasBlock && (off % 512 != 0 || size < off + 8 * x.block.length), stBAD_VALUE),
      (!create && old.isNone && (x.hasBlock || publish), stNOT_FOUND)] (fun _ =>
        let m := bitmapAfter old create publish x.hasBlock sel nbits off x.block
        match (s.setField x.fn (f.putBitmap id m)).syncPages x.fn with
        | none => no stNO_CAPACITY
        | some t => stores (t.tellAll (x.pkt ++ x.block)) (bitmapWrites id m publish x.hasBlock (off / 8) x.block.length) 0 0)

/-- Executes BITMAP_LOAD (R181 to R185, R494, R499). -/
def execBitmapLoad (ring : Nat) (dma : Dma) (s : State) : Result :=
  s.runReading 0x2A ring dma (fun x s => s.bitmapBody x)

end Sys2Proof.Machine
end

