-- ==== Sys2Proof/Machine/Bound.lean ====
section
/-! DEFINITION. The admission planner: placement, worst-case figures, the ledger and the certified bound
(R265 to R274, R458 to R470, R788; Table 8.6). -/

namespace Sys2Proof.Machine

/-! ### Clocks and figures -/

/-- Channels in service (R486). -/
def State.channelsUp (s : State) : Nat := 2 * (s.inService 10).length
/-- R486: peak bandwidth P in MB/s. -/
def State.peak (s : State) : Nat := 4000 * s.memRate * s.channelsUp
/-- Table 8.6, R509: guaranteed rate of a field in bytes per µs. -/
def State.rateOf (s : State) (c : FieldCfg) : Nat := if c.mapHash then c.regRate else min c.regRate (46 * s.peak / 100)
/-- Table 8.6, Table 12.1: T_tile in ns, with both Coulters in service or one. -/
def State.tileNs (s : State) (p : IParams) : Nat :=
  cyclesNs s.eck (3 * ceilDiv p.nlist (64 * (s.inService 1).length) * ceilDiv p.dim 16) + 1000
/-- R466: a whole count of parts of a cycle of a clock in ns, rounded up once. -/
def partCyclesNs (mhz n parts : Nat) : Nat := ceilDiv (n * 1000) (parts * mhz)
/-- Table 8.6: T_tab in ns. -/
def State.tableNs (s : State) (p : IParams) (t8 : Bool) : Nat :=
  partCyclesNs s.eck (3 * p.dim * p.entries + (if t8 then 4 * p.m * p.entries else 0)) 256 + 1000
/-- R268: bytes of a distance table. -/
def IParams.tableBytes (p : IParams) (t8 : Bool) : Nat := p.m * p.entries * (if t8 then 1 else 4)
/-- R267: bytes of a core's table area. -/
def tableArea : Nat := 98304
/-- R218: 1 ms more of output while a Gleaner test is due. -/
def State.gleanerDelay (s : State) : Nat :=
  if s.cmds.any (fun c => match c.work with
    | .gleanerTest e => e ≤ s.epoch
    | _ => false) then 1000000 else 0

/-! ### List images at an epoch -/

/-- Table 8.6: what scanning some blocks costs. -/
structure ListCost where
  slots : Nat
  blocks : Nat
  /-- Scan-block bytes that do not lie in lines pinned in the Granary (R466, R538). -/
  bytes : Nat
/-- Bytes of spans in pages pinned in the Granary. -/
def State.pinnedBytes (s : State) (f : Nat) (xs : List Span) : Nat :=
  sumBy (fun g => if g.page.pinGranary then g.len else 0) (s.segments f 0 xs)
/-- The scan block of a block of list l. -/
def scanSpan (i : Nat) (p : IParams) (hash : Bool) (l b : Nat) : Span :=
  let h := blockPlace hash b l
  ⟨some i, .scan, h.1, h.2 * p.scanBytes, p.scanBytes⟩
/-- Cost of n slots in the blocks of list l. -/
def State.costOf (s : State) (key : Nat) (p : IParams) (l n : Nat) (blocks : List Nat) : ListCost :=
  let f := key / 64
  let spans := (blocks.take (blocksFor n)).map (scanSpan (key % 64) p (s.cfg f).mapHash l)
  ⟨n, blocksFor n, blocksFor n * p.scanBytes - s.pinnedBytes f spans⟩
/-- Table 8.6: cost of a list at an epoch, old and new image both where a swap is pending. -/
def State.listCost (s : State) (key : Nat) (p : IParams) (l : Nat) (r : ListRec) (epoch : Nat) : ListCost :=
  let m := r.imageFor epoch s.order
  let a := s.costOf key p l (m.countAt epoch) m.blocks
  match s.evaporators.find? (fun e => e.2.key == key && e.2.list == l) with
  | none => a
  | some e =>
    let b := s.costOf key p l (compactedSlots e.2.e0 r.image.slots).length e.2.blocks
    ⟨a.slots + b.slots, a.blocks + b.blocks, a.bytes + b.bytes⟩
/-- Table 8.6: E_q, the blocks and the scan bytes of the nprobe longest lists of an index at an epoch. -/
def State.longest (s : State) (key : Nat) (x : Index) (epoch nprobe : Nat) : ListCost :=
  let cs := x.lists.map (fun l => s.listCost key x.p l.1 l.2 epoch)
  let top := (sortLt (fun (a b : ListCost) => b.slots < a.slots || (a.slots == b.slots && b.blocks < a.blocks)) cs).take nprobe
  ⟨sumBy (fun c => c.slots) top, sumBy (fun c => c.blocks) top, sumBy (fun c => c.bytes) top⟩

/-! ### Placement (R267 to R274, R463, R464, R788) -/

/-- Candidate slots a query reserves: k′ (R296). -/
def Query.slots (q : Query) : Nat := q.k * max q.rerank 1
/-- Table area free on a core. -/
def Core.freeArea (c : Core) : Nat := tableArea - sumBy (fun t => t.bytes) c.tables
/-- R463: the core may take a table of the class. -/
def Core.takes (c : Core) (classC : Bool) (bytes : Nat) : Bool :=
  c.run.isNone && c.tables.all (fun t => t.classC == classC) && bytes ≤ c.freeArea
/-- R269: the core for a table. -/
def State.pickCore (s : State) (classC : Bool) (bytes : Nat) : Option Nat :=
  argMin (fun n => (tableArea - (s.core n).freeArea) * 128 + n)
    ((s.inService 0).filter (fun n => (s.core n).takes classC bytes))
/-- Candidate slots free on a Crystalliser. -/
def State.crystFree (s : State) (n : Nat) : Nat :=
  65536 - sumBy (fun q => q.slots) (s.queries.filter (fun q => q.core.isSome && q.merged.isNone && q.cryst == n))
/-- R464: the Crystalliser for so many slots. -/
def State.pickCryst (s : State) (slots : Nat) : Option Nat :=
  argMin (fun n => (65536 - s.crystFree n) * 4 + n) ((s.inService 5).filter (fun n => slots ≤ s.crystFree n))

/-- Order of keys (R461). -/
def LedgerEntry.before (a b : LedgerEntry) : Bool :=
  a.key < b.key || (a.key == b.key && (a.ref.ring < b.ref.ring || (a.ref.ring == b.ref.ring &&
    (a.ref.seq.toNat < b.ref.seq.toNat || (a.ref.seq == b.ref.seq && a.ref.q < b.ref.q)))))

/-- R467: an entry's finishes behind the entries with earlier keys; a recorded finish is never taken back (R474). -/
def LedgerEntry.chained (e : LedgerEntry) (earlier : List LedgerEntry) : LedgerEntry :=
  let base := e.start + 2000
  let cpu := max e.coreEnd (max base (maxBy (fun d => if d.core = e.core then d.coreEnd else 0) earlier) + e.cpuWork)
  let mem := max e.memEnd (max base (maxBy (fun d => if d.field = e.field then d.memEnd else 0) earlier) + e.memWork)
  let sv := max e.sieveEnd (max base (maxBy (fun d => if d.sieve = e.sieve then d.sieveEnd else 0) earlier) + e.sieveWork)
  let scan := max (max cpu mem) sv + 2000
  let e := { e with coreEnd := cpu, memEnd := mem, sieveEnd := sv }
  match e.assayer with
  | none => { e with finish := max e.finish (scan + e.tail) }
  | some a =>
    let rr := max e.assayEnd (max (scan + 2000) (maxBy (fun d => if d.assayer = some a then d.assayEnd else 0) earlier) + e.assayWork)
    { e with assayEnd := rr, finish := max e.finish (rr + 2000 + e.tail) }
/-- R467, R468: entries in key order chained behind those before them. -/
def chainAll (earlier : List LedgerEntry) : List LedgerEntry → List LedgerEntry
  | [] => []
  | e :: es => let d := e.chained earlier
               d :: chainAll (d :: earlier) es
/-- R460, R468: the worst-case finishes of the ledger recorded again after an entry joined it or a start moved. -/
def State.relax (s : State) : State := { s with ledger := chainAll [] (sortLt LedgerEntry.before s.ledger) }

/-- R788: the unit of a type whose latest recorded finish is earliest; lowest number among equals. -/
def State.pickByLedger (s : State) (ty : Nat) (ends : LedgerEntry → Nat → Nat) : Nat :=
  (argMin (fun n => maxBy (fun e => ends e n) s.ledger * 16 + n) (s.inService ty)).getD 0
/-- R788: the unit of a type with the fewest queries assigned. -/
def State.pickByLoad (s : State) (ty : Nat) (uses : Query → Nat → Bool) : Nat :=
  (argMin (fun n => (s.queries.filter (fun q => uses q n)).length * 16 + n) (s.inService ty)).getD 0
/-- R788: the Sieve of a query. -/
def State.pickSieve (s : State) (cls : Nat) : Nat :=
  if cls = 0 then s.pickByLedger 3 (fun e n => if e.sieve = n then e.sieveEnd else 0) else s.pickByLoad 3 (fun q n => q.sieve == n)
/-- R788: the Assayer of a query. -/
def State.pickAssayer (s : State) (cls : Nat) : Nat :=
  if cls = 0 then s.pickByLedger 4 (fun e n => if e.assayer = some n then e.assayEnd else 0)
  else s.pickByLoad 4 (fun q n => q.rerank != 0 && q.assayer == n)

/-- R271: the open window of a kind on an index. -/
def State.openWindow (s : State) (f i : Nat) (classX : Bool) : Option (Nat × Window) :=
  s.windows.find? (fun w => w.2.field == f && w.2.index == i && w.2.classX == classX && !w.2.closed)
/-- Table 12.6 source 3, Table 12.7: a window closes; its passes are not formed yet. -/
def State.closeWindow (s : State) (n : Nat) : State :=
  match FMap.get? s.windows n with
  | none => s
  | some w => if w.closed then s else (s.setWindow n { w with closed := true }).countField w.field 14 1
/-- R272, R274: a placed query joins the open window of its kind or opens one; 256 queries close it. -/
def State.joinWindow (s : State) (q : Query) : State :=
  match s.openWindow q.field q.index (q.cls == 2) with
  | some (n, w) =>
    let s := s.setWindow n { w with queries := w.queries ++ [q.ref] }
    let s := s.setQueries (s.queries.map (fun p => if p.ref = q.ref then { p with window := some n } else p))
    if 256 ≤ w.queries.length + 1 then s.closeWindow n else s
  | none =>
    let n := s.nextWindow
    let w : Window := ⟨q.field, q.index, q.cls == 2, s.tbk, (s.cfg q.field).sowingUs, [q.ref], false, false, [], 0⟩
    let s := { s with windows := FMap.set s.windows n w, nextWindow := n + 1 }
    s.setQueries (s.queries.map (fun p => if p.ref = q.ref then { p with window := some n } else p))

/-- R269, R464: an admitted query placed; none where no core or Crystalliser takes it. -/
def State.place (s : State) (q : Query) (bytes : Nat) : Option State :=
  match s.pickCore (q.cls == 0) bytes, s.pickCryst q.slots with
  | some c, some y =>
    let core := s.core c
    let s := s.setCore c { core with tables := core.tables ++ [⟨q.ref, bytes, q.cls == 0⟩] }
    let s := s.setQueries (s.queries.map (fun p => if p.ref = q.ref then { p with core := some c, cryst := y } else p))
    some (s.joinWindow { q with core := some c, cryst := y })
  | _, _ => none
/-- R270, R272: a query that must wait closes the open window of its kind. -/
def State.mustWait (s : State) (q : Query) : State :=
  match s.openWindow q.field q.index (q.cls == 2) with
  | none => s
  | some (n, _) => s.closeWindow n
/-- A query of a class admitted: its Sieve and Assayer assigned, then placed, or left waiting where no core has table area
for it (R270); none for a class C query that cannot be placed (R465). -/
def State.admitQuery (s : State) (q : Query) (bytes : Nat) : Option State :=
  let q := { q with sieve := s.pickSieve q.cls, assayer := if q.rerank = 0 then 0 else s.pickAssayer q.cls }
  let t := s.setQueries (s.queries ++ [q])
  match t.place q bytes with
  | some u => some u
  | none => if q.cls = 0 then none else some (t.mustWait q)

/-! ### The bound (R467) -/

/-- Queries of class C and B awaiting coarse selection, by index key, in order of placement (R787). -/
def State.coarseQueue (s : State) : List Nat :=
  (s.queries.filter (fun q => q.core.isSome && !q.coulterDone && q.cls != 2)).map (fun q => indexKey q.field q.index)
/-- Time of the Coulter tiles formed before one that takes a last query of index `key`; fuel bounds their number. -/
def State.tilesAhead (s : State) (key : Nat) : Nat → List Nat → Nat
  | 0, _ => 0
  | n + 1, q =>
    match q with
    | [] => 0
    | k :: _ =>
      let same := q.filter (fun j => j == k)
      if k = key && same.length < 64 then 0
      else
        let t := match FMap.get? s.indexes k with
          | none => 0
          | some x => s.tileNs x.p
        t + s.tilesAhead key n (same.drop 64 ++ q.filter (fun j => j != k))
/-- The Harrows' queue ahead of a last query: tables to build, each on the Harrow that is free first. -/
def harrowQueue (n : Nat) (ts : List Nat) : Nat :=
  let loads := ts.foldl (fun (l : List Nat) t => match argMin (fun i => l.getD i 0) (List.range l.length) with
    | none => l
    | some i => l.set i (l.getD i 0 + t)) (List.replicate n 0)
  ((argMin (fun v => v) loads).getD 0)
/-- Times of the tables still to build (T_tab of each). -/
def State.tablesAhead (s : State) : List Nat :=
  (s.queries.filter (fun q => q.core.isSome && q.table.isNone && q.cls != 2)).map (fun q =>
    match s.index? q.field q.index with
    | none => 0
    | some x => s.tableNs x.p q.t8)
/-- t_sel of R467 for a last query of an index, from the present moment. -/
def State.tSel (s : State) (key : Nat) (p : IParams) (t8 : Bool) : Nat :=
  let q := s.coarseQueue
  s.tbk + s.tilesAhead key (q.length + 1) q + s.tileNs p + harrowQueue (s.inService 2).length s.tablesAhead + s.tableNs p t8

/-- What the planner needs of a search to bound one of its queries. -/
structure BoundIn where
  key : Nat
  x : Index
  cfg : FieldCfg
  epoch : Nat
  nprobe : Nat
  slots : Nat
  rerank : Bool
  t8 : Bool
  terms : Nat
  resultBytes : Nat
  tFetch : Nat
  deadlineKey : Nat

/-- R580: the way to the farthest member and back, with the query and the candidates on each link; nothing for a
local index (log 54). -/
def State.cascadeNs (s : State) (b : BoundIn) : Nat :=
  if b.x.p.cascMode = 0 then 0
  else
    let hops := maxBy (fun r => r.2.hops) s.casc.records
    let bytes := 16 + 4 * b.x.p.v + 4 * b.nprobe + b.slots * 16
    2 * 300 * hops + hops * ceilDiv (bytes * 1000) 40000

/-- R466: the stored vectors of the index all lie in lines pinned in the Granary. -/
def State.vectorsPinned (s : State) (key : Nat) : Bool :=
  match s.field? (key / 64) with
  | none => false
  | some y =>
    let ps := y.pages.filter (fun p => p.index == some (key % 64) && p.part == .full)
    !ps.isEmpty && ps.all (fun p => p.pinGranary)
/-- Table 8.6, R467: the ledger entry of a query with its works, starting at t_start; its finishes are recorded by
`State.relax`. A query that waits for table area has no core yet: the estimate of its narrowing charges core 0 (DESIGN
CHOICE, log 60). -/
def State.entry (s : State) (b : BoundIn) (q : Query) (start : Nat) : LedgerEntry :=
  let e := s.longest b.key b.x b.epoch b.nprobe
  let p := b.x.p
  let per := if p.bits = 8 then ceilDiv p.m 32 else ceilDiv p.m 128
  let narrow := if b.rerank && !s.vectorsPinned b.key then b.slots * p.v * p.fpBytes else 0
  let bytes := b.cfg.withChecks (e.bytes + b.nprobe * 16384 + narrow)
  { ref := q.ref, field := q.field, key := b.deadlineKey, tFetch := b.tFetch, bound := 0, core := q.core.getD 0
    cpuWork := cyclesNs s.sck (e.slots * per + 8 * e.blocks)
    memWork := ceilDiv (bytes * 1000) (s.rateOf b.cfg)
    sieve := q.sieve, sieveWork := partCyclesNs s.eck (e.slots * b.terms) 64
    assayer := if b.rerank then some q.assayer else none
    assayWork := ceilDiv (b.slots * ceilDiv (p.v * p.fpBytes) 256) 32 * 1200 +
      cyclesNs s.eck (b.slots * 3 * ceilDiv p.v 16)
    start := start
    tail := 4000 + 40 * b.slots + 4000 + ceilDiv b.resultBytes 16 + s.gleanerDelay + s.cascadeNs b
    coreEnd := 0, memEnd := 0, sieveEnd := 0, assayEnd := 0, finish := 0 }

/-- R467: t_close of a window. -/
def Window.closeAt (w : Window) : Nat := w.openAt + w.sowingUs * 1000
/-- R467: a query's t_sel joins those of its window: the window's latest, and the t_start that follows from it. -/
def State.noteSel (s : State) (window : Option Nat) (sel : Nat) : State × Nat :=
  match window.bind (fun n => (FMap.get? s.windows n).map (fun w => (n, w))) with
  | none => (s, sel + 3000)
  | some (n, w) =>
    let latest := max w.tSel sel
    (s.setWindow n { w with tSel := latest }, max w.closeAt latest + 3000)
/-- A later t_sel pushes back the start of the window's earlier queries. -/
def State.pushStarts (s : State) (window : Option Nat) (start : Nat) : State :=
  match window with
  | none => s
  | some n =>
    let refs := (s.queries.filter (fun q => q.window == some n)).map (fun q => q.ref)
    { s with ledger := s.ledger.map (fun e => if refs.contains e.ref then { e with start := max e.start start } else e) }
/-- A query placed; with its ledger entry where `record` says so. -/
def State.enterQuery (s : State) (b : BoundIn) (record : Bool) (q : Query) (bytes : Nat) : Option State :=
  let sel := s.tSel b.key b.x.p b.t8
  match s.admitQuery q bytes with
  | none => none
  | some t =>
    match t.queries.find? (fun p => p.ref == q.ref) with
    | none => none
    | some r =>
      let u := t.noteSel r.window sel
      let t := u.1.pushStarts r.window u.2
      some (if record then { t with ledger := t.ledger ++ [t.entry b r u.2] }.relax else t.relax)
/-- The queries of a packet placed in turn. -/
def State.enterAll (s : State) (b : BoundIn) (record : Bool) (bytes : Nat) : List Query → Option State
  | [] => some s
  | q :: qs => match s.enterQuery b record q bytes with
    | none => none
    | some t => t.enterAll b record bytes qs
/-- The recorded finish in µs after the fetch, rounded up: the largest of the queries of a command (R467, R469). -/
def State.boundOf (s : State) (ring : Nat) (seq : BitVec 48) (tFetch : Nat) : Nat :=
  maxBy (fun e => if e.ref.of ring seq then ceilDiv (e.finish - tFetch) 1000 else 0) s.ledger
/-- R462, R468: every search admitted earlier still finishes by its fetch time plus its bound. -/
def State.othersHold (s : State) (ring : Nat) (seq : BitVec 48) : Bool :=
  s.ledger.all (fun e => e.ref.of ring seq || e.finish ≤ e.tFetch + e.bound * 1000)
/-- The bound recorded with the queries of a command. -/
def State.recordBound (s : State) (ring : Nat) (seq : BitVec 48) (bound : Nat) : State :=
  { s with ledger := s.ledger.map (fun e => if e.ref.of ring seq then { e with bound := bound } else e) }

end Sys2Proof.Machine
end

