-- ==== Sys2Proof/Machine/Fields.lean ====
section
/-! DEFINITION. IDENTIFY, FIELD_CONFIGURE and FIELD_QUERY (03, 0x01–0x03; R133 to R144, R459, R475, R507, R510,
R523, R524, R579). -/

namespace Sys2Proof.Machine

/-! ### IDENTIFY -/

/-- Table 13.3: CAP0; CAP1 to CAP15 read zero (R701). -/
def capWords : Bytes := leBytes 4 0x0FFF ++ zeros 60

/-- Table 3.3. -/
def State.identifyReply (s : State) : Bytes :=
  let bit := fun (b : Bool) => leBytes 1 (if b then 1 else 0)
  fit 512 (leBytes 2 0x1E7A ++ leBytes 2 0x4816 ++ bit Config.grade ++ leBytes 1 Config.deviceRev.toNat ++ zeros 2 ++
    leBytes 4 s.fwVersion ++ leBytes 4 s.fwSvn ++ leBytes 8 Config.serial.toNat ++ bit s.glob.straps.gddrType ++
    bit s.glob.straps.gddrClam ++ zeros 2 ++ leBytes 4 s.gddrMib ++ leBytes 1 s.role ++
    leBytes 1 (if s.cascFormed then s.casc.ordinal else 0) ++ leBytes 1 (s.trust.current 3) ++ zeros 29 ++ capWords)

/-- Executes IDENTIFY (R127, R701, Table 3.3). -/
def execIdentify (ring : Nat) (dma : Dma) (s : State) : Result :=
  s.runPacket 0x01 ring dma (fun ctx s =>
    checks (replyChecks ctx.pkt 16 24 512) (fun _ =>
      yesReply s (info2 s.fwVersion s.fwSvn) [(num ctx.pkt 16 8, s.identifyReply)]))

/-! ### The configuration block (Table 3.4) -/

/-- Bit n of `valid_mask`. -/
def maskBit (b : Bytes) (n : Nat) : Bool := (num b 0 8).testBit n
/-- R134: the items of a block laid over a configuration. -/
def FieldCfg.apply (c : FieldCfg) (b : Bytes) : FieldCfg :=
  let m := maskBit b
  let n := num b
  { certified := if m 0 then n 8 1 == 1 else c.certified
    mapHash := if m 1 then n 9 1 == 1 else c.mapHash
    granaryOwned := if m 2 then n 10 1 == 1 else c.granaryOwned
    ownedSlices := if m 2 then BitVec.ofNat 32 (n 12 4) else c.ownedSlices
    sowingUs := if m 3 then n 16 2 else c.sowingUs
    prioFloor := if m 4 then n 18 1 else c.prioFloor
    pinPct := if m 5 then n 19 1 else c.pinPct
    regRate := if m 6 then n 20 4 else c.regRate
    regBurst := if m 6 then n 24 4 else c.regBurst
    workConserving := if m 6 then n 28 1 == 1 else c.workConserving
    ecc := if m 7 then n 29 1 == 1 else c.ecc
    longLines := if m 8 then flag b 30 0 else c.longLines
    compressedLines := if m 8 then flag b 30 1 else c.compressedLines
    programs := if m 9 then n 31 1 == 1 else c.programs
    programCores := if m 9 then n 32 2 else c.programCores
    programSliceUs := if m 9 then n 36 4 else c.programSliceUs
    perturb := if m 10 then n 40 1 == 1 else c.perturb
    maxIndexes := if m 11 then n 41 1 else c.maxIndexes
    gddrPages := if m 12 then n 44 4 else c.gddrPages
    poolPages := if m 13 then n 48 4 else c.poolPages }
/-- n lies between a and b. -/
def within (a b n : Nat) : Bool := a ≤ n && n ≤ b
/-- Table 3.4: every masked item has one of its values. -/
def blockOk (b : Bytes) : Bool :=
  let m := maskBit b
  let n := num b
  (!m 0 || n 8 1 ≤ 1) && (!m 1 || n 9 1 ≤ 1) && (!m 2 || n 10 1 ≤ 1) && (!m 3 || n 16 2 ≤ 4000) && (!m 4 || n 18 1 ≤ 3) &&
    (!m 5 || n 19 1 ≤ 50) &&
    (!m 6 || (within 1000 2048000 (n 20 4) && within 4 65536 (n 24 4) && n 28 1 ≤ 1)) &&
    (!m 7 || n 29 1 ≤ 1) &&
    (!m 9 || (n 31 1 ≤ 1 && within 1 128 (n 32 2) && within 1 1000000 (n 36 4))) &&
    (!m 10 || n 40 1 ≤ 1) && (!m 11 || within 1 64 (n 41 1))
/-! ### Granary slices by field (R523, R524) -/

/-- Slices in a mask. -/
def slicesIn (m : BitVec 32) : Nat := sumBy (fun n => if m.getLsbD n then 1 else 0) (List.range 32)
/-- R523: slices that each field other than field 0 receives. -/
def State.slicesEach (s : State) (owned0 : BitVec 32) : Nat := (32 - slicesIn owned0) / (s.trust.current 3 - 1)
/-- The n lowest slices not in a mask; none where fewer are free or n is 0. -/
def takeSlices (used : BitVec 32) (n : Nat) : Option (BitVec 32) :=
  let free := (List.range 32).filter (fun i => !used.getLsbD i)
  if n = 0 || free.length < n then none
  else some ((free.take n).foldl (fun m i => m ||| (1#32 <<< i)) 0)
/-- Slices owned by fields other than f, field 0 as configured. -/
def State.slicesTaken (s : State) (f : Nat) : BitVec 32 :=
  s.fields.foldl (fun m x => if x.1 = f then m else m ||| (if x.1 = 0 then x.2.tgt.ownedSlices else x.2.slices)) 0
/-- Ownership slicing is configured, in force now or from the next planner epoch. -/
def State.ownershipDue (s : State) : Bool :=
  match s.field? 0 with
  | none => false
  | some x => x.tgt.granaryOwned
/-- R524: every existing field but field 0 gets its slices, in ascending field number. -/
def State.shareSlices (s : State) (owned0 : BitVec 32) : Option State :=
  let n := s.slicesEach owned0
  let start : Option (State × BitVec 32) := some (s, owned0)
  (s.fields.foldl (fun t x => match t with
    | none => none
    | some (t, used) =>
      if x.1 = 0 then some (t, used)
      else match takeSlices used n with
        | none => none
        | some m => some (t.modField x.1 (fun y => { y with slices := m }), used ||| m)) start).map (fun r => r.1)

/-! ### FIELD_CONFIGURE -/

/-- Fields that exist or will exist from the next planner epoch. -/
def State.lasting (s : State) : FMap Field := s.fields.filter (fun x => !x.2.removing)
/-- Field f holds an index. -/
def State.holdsIndex (s : State) (f : Nat) : Bool := s.indexes.any (fun p => p.1 / 64 == f)
/-- R475: the rate that a field counts with in R141: its accepted one, or an older one that its class C searches keep. -/
def State.countedRate (s : State) (f : Nat) (x : Field) : Nat :=
  if s.queries.any (fun q => q.field == f && q.cls == 0) then max x.tgt.regRate (max x.cfg.regRate x.keptRate) else x.tgt.regRate
/-- R497: frames of a field with inline ECC, as it will be with a configuration. -/
def Field.framesWith (x : Field) (c : FieldCfg) : Nat := x.frames - x.checks + checksFor c (x.frames - x.checks)
/-- R141, R497, R510: quotas and certified rates fit; inline ECC is not turned on over frames whose check frames the quota does
not hold (log 75). -/
def State.capacityHolds (s : State) : Bool :=
  let fs := s.lasting
  let cert := fs.filter (fun x => x.2.tgt.certified)
  let p := s.peak
  let rate := fun (x : Nat × Field) => s.countedRate x.1 x.2
  sumBy (fun x => x.2.tgt.gddrPages) fs ≤ s.gddrMib / 2 &&
    fs.all (fun x => !x.2.tgt.ecc || x.2.cfg.ecc || x.2.framesWith x.2.tgt ≤ x.2.tgt.gddrPages) &&
    100 * sumBy rate cert ≤ 92 * p &&
    100 * sumBy (fun x => if x.2.tgt.mapHash then rate x else 2 * min (rate x) (46 * p / 100)) cert ≤ 92 * p
/-- R133, R134, R459: field f with an accepted block; a creation waits for its planner epoch. -/
def State.withBlock (s : State) (f : Nat) (b : Bytes) : State :=
  match s.field? f with
  | some x => s.setField f { x with tgt := x.tgt.apply b }
  | none =>
    let c := FieldCfg.reset.apply b
    s.setField f { Field.fresh c with present := false }
/-- R523, R524, R141: the slices after the block; none where they do not suffice. -/
def State.withSlices (s : State) (f : Nat) (b : Bytes) (creates : Bool) : Option State :=
  let t := s.withBlock f b
  if f = 0 then
    match t.field? 0 with
    | none => none
    | some x =>
      if !x.tgt.granaryOwned then some t
      else if !s.ownershipDue then t.shareSlices x.tgt.ownedSlices
      else if t.slicesTaken 0 &&& x.tgt.ownedSlices ≠ 0 then none else some t
  else if creates && s.ownershipDue then
    match s.field? 0 with
    | none => none
    | some x => match takeSlices (s.slicesTaken f) (s.slicesEach x.tgt.ownedSlices) with
      | none => none
      | some m => some (t.modField f (fun y => { y with slices := m }))
  else some t
/-- R579: this device leads a formed cascade. -/
def State.leads (s : State) : Bool := s.cascFormed && s.role == 1
/-- Accepted: measured, and told to the members and to the standby lead (Table 11.6, R579, R596). -/
def State.configured (s : State) (f action : Nat) (b : Bytes) : State :=
  let c := leBytes 1 f ++ leBytes 1 action ++ b
  let s := s.extend 3 (eventRecord 0x30 c)
  if s.leads then (s.tellMembers msgCONFIG 0 (c ++ leBytes 8 (s.epoch + 1))).tellStandby c else s

/-- An APPLY of a 256-byte block on field f (R133 to R142, R459, R507, R510, R524): its first failing check, or the
state it leaves. A field whose REMOVE waits for its planner epoch is in no state for one (ST_BAD_STATE: DESIGN CHOICE, log
108). -/
def State.applyBlock (s : State) (f : Nat) (b : Bytes) : Nat ⊕ State :=
  let old := s.field? f
  let creates := old.isNone
  let new := (old.elim FieldCfg.reset (fun x => x.tgt)).apply b
  let bad : List (Bool × Nat) := [
    ((!blockOk b) || (creates && !(maskBit b 6 && maskBit b 12)), stBAD_VALUE),
    (f == 0 && new.granaryOwned && new.ownedSlices == 0, stBAD_VALUE),
    (old.any (fun x => x.removing), stBAD_STATE),
    ((maskBit b 1 || maskBit b 7) && s.holdsIndex f, stBAD_STATE),
    (maskBit b 2 && !s.indexes.isEmpty, stBAD_STATE),
    (maskBit b 1 && new.mapHash && !(s.halfWhole 0 && s.halfWhole 1), stMODE_FORBIDS),
    (creates && s.trust.current 3 ≤ s.lasting.length, stLIMIT)]
  match bad.find? (fun c => c.1) with
  | some c => .inl c.2
  | none => match s.withSlices f b creates with
    | none => .inl stNO_CAPACITY
    | some t => if t.capacityHolds then .inr t else .inl stNO_CAPACITY
/-- R138, R139: permission of an APPLY. -/
def State.applyPermitted (s : State) (f : Nat) (b : Bytes) : Bool :=
  !(maskBit b 2 && f != 0) && !(maskBit b 9 && num b 31 1 == 1 && !s.programPermit) &&
    !(maskBit b 10 && num b 40 1 == 1 && !s.perturbPermit)
/-- R579: a member that cannot apply a change decides the command. -/
def State.settleConfig (s t : State) (memberStatus info : Nat) : Verdict :=
  if s.leads && memberStatus ≠ 0 then no memberStatus else yes t info
/-- R144: field f may be removed. -/
def State.removable (s : State) (f : Nat) : Bool := !s.holdsIndex f && !(ringsOf f).any (fun r => (s.ring r).enable)

/-- Executes FIELD_CONFIGURE; `memberStatus` is the status of a member of a formed cascade that cannot apply the
change, 0 when all can (R133 to R144, R459, R579). A RESET acts at once and reports the present planner epoch; a REMOVE deletes the
field at the next one and reports that (DESIGN CHOICE, log 108). -/
def execFieldConfigure (ring : Nat) (dma : Dma) (memberStatus : Nat) (s : State) : Result :=
  s.runPacket 0x02 ring dma (fun ctx s =>
    let f := num ctx.pkt 16 1
    let action := num ctx.pkt 17 1
    let b := ctx.block
    let block := ctx.hasBlock && b.length == 256
    let here := match s.field? f with
      | none => false
      | some x => x.present && !x.removing
    checks [(action == 2 && f == 0, stNOT_PERMITTED), (action == 0 && block && !s.applyPermitted f b, stNOT_PERMITTED),
      (15 < f || 2 < action, stBAD_VALUE),
      ((action == 0 && !block) || (action != 0 && ctx.hasBlock), stBAD_LENGTH),
      (action != 0 && !here, stNOT_FOUND),
      (action == 2 && !s.removable f, stBAD_STATE)] (fun _ =>
        if action = 0 then
          match s.applyBlock f (b.take 256) with
          | .inl st => no st
          | .inr t => s.settleConfig (t.configured f 0 (b.take 256)) memberStatus (s.epoch + 1)
        else if action = 1 then
          s.settleConfig (((s.fieldReset f).releasePages f).configured f 1 []) memberStatus s.epoch
        else
          s.settleConfig ((s.modField f (fun x => { x with removing := true })).configured f 2 []) memberStatus (s.epoch + 1)))

/-! ### FIELD_QUERY -/

/-- The FIELD_QUERY reply of an existing field. -/
def State.fieldReply (s : State) (f : Nat) (x : Field) : Bytes :=
  let pinnedPages := (x.pages.filter (fun p => p.pinGddr)).length
  let outstanding := (s.cmds.filter (fun c => c.ring != adminRing && ringFn c.ring == f)).length
  fit 512 (x.cfg.bytes s.ownership (if f = 0 then x.cfg.ownedSlices else x.slices) ++ leBytes 4 x.frames ++
    leBytes 4 x.pool.length ++ leBytes 4 pinnedPages ++ leBytes 4 outstanding ++ leBytes 8 s.epoch)

/-- Executes FIELD_QUERY (R124, R127, R142). -/
def execFieldQuery (ring : Nat) (dma : Dma) (s : State) : Result :=
  s.runPacket 0x03 ring dma (fun ctx s =>
    let f := num ctx.pkt 16 1
    checks ([(ctx.ring != adminRing && f != ctx.fn, stNOT_PERMITTED), (15 < f, stBAD_VALUE)] ++
      replyChecks ctx.pkt 24 32 512) (fun _ =>
        match s.field? f with
        | none => yesReply s 0 [(num ctx.pkt 24 8, zeros 512)]
        | some x =>
          if !x.present then yesReply s 0 [(num ctx.pkt 24 8, zeros 512)]
          else yesReply s (1 + 256 * (s.indexesOf f).length) [(num ctx.pkt 24 8, s.fieldReply f x)]))

end Sys2Proof.Machine
end

