-- ==== Sys2Proof/Machine/Boot.lean ====
section
/-! DEFINITION. The boot ROM and the firmware's start (R616 to R621, R705, R747; 14, Boot timeline). -/

namespace Sys2Proof.Machine

/-! ### Boot ROM -/

/-- A candidate slot, and whether it is taken as ACTIVE (Table 11.3 step 7). -/
structure Candidate where
  slot : Nat
  asActive : Bool

/-- Table 11.5, R618: the candidates of strap BOOT_SEL, in order. -/
def Trust.candidates (t : Trust) (sel : Nat) : List Candidate :=
  match sel with
  | 1 => [⟨0, false⟩]
  | 2 => [⟨1, false⟩]
  | 3 => [⟨0, false⟩, ⟨1, false⟩]
  | _ =>
    let a := t.sector 0
    let b := t.sector 1
    if a.state = 2 && b.state == 2 then
      if b.actSeq ≤ a.actSeq then [⟨0, true⟩, ⟨1, true⟩] else [⟨1, true⟩, ⟨0, true⟩]
    else if b.state = 2 then [⟨1, true⟩, ⟨0, false⟩]
    else if a.state = 2 then [⟨0, true⟩, ⟨1, false⟩]
    else [⟨0, false⟩, ⟨1, false⟩]

/-- R705: the outcome of a tried slot: 1 to 7 the failing step of Table 11.3, 8 a failed read, 9 passed. -/
def Trust.outcome (t : Trust) (c : Candidate) (readOk : Bool) : Nat :=
  if !readOk then 8
  else
    let b := t.image c.slot
    let f := imageFault b (t.current 1)
    if f ≠ 0 then f
    else if c.asActive && sha384 b != (t.sector c.slot).digest then 7 else 9

/-- The outcome of a slot recorded (R705). -/
def Trust.noteOutcome (t : Trust) (slot n : Nat) : Trust :=
  if slot = 0 then { t with stepA := n } else { t with stepB := n }

/-- R616 step 4: the candidates tried in order until one passes. -/
def Trust.tryAll (t : Trust) (okA okB : Bool) : List Candidate → Trust × Option Nat
  | [] => (t, none)
  | c :: cs =>
    let n := t.outcome c (if c.slot = 0 then okA else okB)
    let t := t.noteOutcome c.slot n
    if n = 9 then (t, some c.slot) else t.tryAll okA okB cs

/-- R616 steps 1 and 2: registers cleared and the stakes resolved. -/
def State.romStart (s : State) : State :=
  let t := { s.trust with
    mr := List.replicate 8 (zeros 48), mrCount := List.replicate 8 0, staged := [], integrity := []
    stepA := 0, stepB := 0 }
  (s.setTrust t.latchEffective).resolveStakes

/-- R616 steps 5 to 8: the image that passed is measured, the attestation key derived and its certificate issued, and the firmware
started from the copy that was checked and measured (R617). No part of the state holds the device identity key (step 7). -/
def State.romPassed (s : State) (slot : Nat) : State :=
  let image := s.trust.image slot
  let svn := BitVec.ofNat 32 (num image 16 4)
  let s := s.extend 0 (eventRecord 0x01 image)
  let key := Config.attestationKey Config.deviceSecret (s.trust.reg 0) s.debugUnlock
  s.setTrust { s.trust with
    attKey := key
    attCert := signedByIdentity (attestationCertificate svn (s.trust.reg 0) s.debugUnlock (publicKey key))
    fw := some ⟨slot, BitVec.ofNat 32 (num image 12 4), svn⟩ }

/-! ### The flash (R608, R765, R772) -/

/-- QSPI commands of R765 and R772. -/
def qspiRESET_ENABLE : Nat := 0x66
def qspiRESET : Nat := 0x99
def qspiREAD_STATUS : Nat := 0x05
def qspiFAST_READ : Nat := 0x0C
/-- R765: reset-enable and reset, then the status register polled until write-in-progress clears, for up to 2 s; `busy` is how long the
flash still shows it, in ns. -/
def State.resetFlash (s : State) (busy : Nat) : State :=
  let s := ((s.emit (.qspi qspiRESET_ENABLE 0 0)).emit (.qspi qspiRESET 0 0)).emit (.qspi qspiREAD_STATUS 0 1)
  s.advance (s.tbk + min busy 2000000000)
/-- R617, R772: the image of a slot read once. -/
def State.readSlot (s : State) (slot : Nat) : State :=
  s.emit (.qspi qspiFAST_READ (slotBase slot) (s.trust.image slot).length)
/-- The slots that the ROM read: those whose outcome is recorded (R705). -/
def Trust.tried (t : Trust) (cs : List Candidate) : List Nat :=
  (cs.map (fun c => c.slot)).filter (fun n => (if n = 0 then t.stepA else t.stepB) != 0)

/-- Executes BOOT_ROM; the operands say whether each slot reads from flash and how long the flash stays busy after its reset (R616 to
R619, R705, R765). -/
def execBootRom (readOkA readOkB : Bool) (busy : Nat) (s : State) : Result :=
  if !s.up || s.trust.bootCode != 1 || s.trust.fw.isSome then .next s
  else
    let s := s.romStart.resetFlash busy
    let cs := s.trust.candidates s.glob.straps.bootSel.toNat
    let r := s.trust.tryAll readOkA readOkB cs
    let s := (r.1.tried cs).foldl State.readSlot (s.setTrust r.1)
    match r.2 with
    | none => .next (s.setTrust { s.trust with bootCode := 2 })
    | some slot => .next (s.romPassed slot)

/-! ### Firmware -/

/-- Table 11.6 type 0x10: what the firmware's first extend records. -/
def State.bootRecord (s : State) (slot : Nat) : Bytes :=
  let p := s.glob.straps
  let bit := fun (b : Bool) => leBytes 1 (if b then 1 else 0)
  leBytes 1 slot ++ leBytes 1 p.bootSel.toNat ++ bit p.cascLead ++ bit p.gddrType ++ bit p.gddrClam ++ bit p.hxlEn ++
    bit Config.grade ++ leBytes 1 Config.deviceRev.toNat ++ leBytes 1 (s.trust.effectiveValue 4) ++ bit s.debugUnlock

/-- Table 11.6 type 0x20: both copies of every used slot of every stake. -/
def Trust.usedCopies (t : Trust) : Bytes :=
  (List.range 5).flatMap (fun k => (List.range (t.used k)).flatMap (fun n => t.copy k n 0 ++ t.copy k n 1))

/-- R572: the straps and the role lock disagree. -/
def State.roleMismatch (s : State) : Bool := s.glob.straps.hxlEn && s.role == 0

/-- Table 12.5: the detail of ROLE_MISMATCH. -/
def State.roleDetail (s : State) : Bytes :=
  leBytes 1 (if s.glob.straps.hxlEn then 1 else 0) ++ leBytes 1 (if s.glob.straps.cascLead then 1 else 0) ++
    leBytes 1 (s.trust.effectiveValue 2)

/-- Table 14.3, R551: with HXL_EN at 1 every port begins to train. -/
def State.enablePorts (s : State) : State :=
  if s.glob.straps.hxlEn then
    ([0, 1, 2, 3] : List Nat).foldl (fun s p => s.setPort p { Port.reset with state := .detect, since := s.tbk }) s
  else s

/-- Executes FIRMWARE_BOOT: after the ROM started it and GDDR is trained, the firmware measures the boot, drives
VID, enables the ports and sets `ready` (R747, Table 11.6, Table 14.3). -/
def execFirmwareBoot (s : State) : Result :=
  match s.trust.fw with
  | none => .next s
  | some f =>
    if !s.up || s.trust.bootCode != 1 || !s.board.gddrOn then .next s
    else
      let s := (s.extend 1 (eventRecord 0x10 (s.bootRecord f.slot))).extend 2 (eventRecord 0x20 s.trust.usedCopies)
      let s := if s.debugUnlock then s.extend 7 (eventRecord 0x70 []) else s
      let s := s.setBoard { s.board with vidDriven := true }
      let s := s.enablePorts
      let s := if s.roleMismatch then s.logEvent evROLE_MISMATCH 0xFF (Config.severity evROLE_MISMATCH) noUnit s.roleDetail else s
      let s := s.setTrust { s.trust with bootCode := 0 }
      .next (s.setGlob { s.glob with ready := true })

end Sys2Proof.Machine
end

