-- ==== Sys2Proof/Machine/Hxl.lean ====
section
/-! DEFINITION. The link layer of an HXL port: training, flits, credits, replay and retraining
(10_cascade, R546 to R566). -/

namespace Sys2Proof.Machine

/-! ### Training -/

/-- R550: the port trains and runs: the firmware is up, HXL_EN is 1 and the port is in service or draining. -/
def State.portOn (s : State) (p : Nat) : Bool :=
  s.up && s.trust.bootCode == 0 && s.glob.straps.hxlEn && s.unitState 11 p ≤ 1

/-- A port enters a training state now. -/
def Port.enter (x : Port) (st : PortState) (now : Nat) : Port := { x with state := st, since := now }

/-- Table 12.6 source 8: a port's state traced. -/
def PortState.code (t : PortState) : Nat :=
  match t with
  | .off => 0 | .detect => 1 | .lock => 2 | .equalise => 3 | .align => 4 | .negotiate => 5 | .active => 6

/-- Executes BEACON: the next beacon of a port in DETECT, every 100 ms (Table 10.2). -/
def execBeacon (port : Nat) (s : State) : Result :=
  if 4 ≤ port then .fault .noSuchUnit
  else if !s.portOn port || !s.board.hxlRail || (s.port port).state != .detect then .next s
  else
    let t := (s.port port).since
    .next ((s.advance (t + ((s.tbk - t) / 100000000 + 1) * 100000000)).emit (.beacon port))

/-- Number of lanes in a mask. -/
def lanesIn (m : BitVec 8) : Nat := sumBy (fun i => if m.getLsbD i then 1 else 0) (List.range 8)

/-- R552: the lanes a port goes on with: all eight, or the half that passed alone. -/
def usableLanes (m : BitVec 8) : Option (BitVec 8) :=
  if m = 0xFF#8 then some m
  else if m &&& 0x0F#8 = 0x0F#8 then some 0x0F#8
  else if m &&& 0xF0#8 = 0xF0#8 then some 0xF0#8
  else none

/-- R549: the receive lane that meets transmit lane n. -/
def wiredTo (reversed : Bool) (n : Nat) : Nat := if reversed then 7 - n else n

/-- R549, R552: the transmit lanes that arrive locked where a lane order has them. -/
def lanesSeen (seen : List (Option (Nat × Bool))) (reversed : Bool) : BitVec 8 :=
  (List.range 8).foldl (fun (m : BitVec 8) n => match seen.getD (wiredTo reversed n) none with
    | some l => if l.1 = n then m ||| (1#8 <<< n) else m
    | none => m) 0

/-- R549: the receive lanes that arrive inverted. -/
def invertedLanes (seen : List (Option (Nat × Bool))) : BitVec 8 :=
  (List.range 8).foldl (fun (m : BitVec 8) n => match seen.getD n none with
    | some l => if l.2 then m ||| (1#8 <<< n) else m
    | none => m) 0

/-- R549, R552: a port in LOCK finds the lane order, straight or reversed, in which its lanes or a half of them locked, and the
inverted lanes; none where neither order gives such lanes. -/
def Port.lock (x : Port) (seen : List (Option (Nat × Bool))) : Option Port :=
  let wired := fun (r : Bool) (m : BitVec 8) => { x with lanes := m, reversed := r, inverted := invertedLanes seen }
  match usableLanes (lanesSeen seen false), usableLanes (lanesSeen seen true) with
  | some m, _ => some (wired false m)
  | none, some m => some (wired true m)
  | none, none => none

/-- R555: the lane that carries byte b of a flit, of those in use; at x4 with all lanes usable lanes 0 to 3 (log 51). -/
def Port.laneOf (x : Port) (b : Nat) : Nat :=
  if x.width = 8 then b % 8 else if x.lanes = 0xF0#8 then 4 + b % 4 else b % 4

/-- R549: a byte as a receive lane hands it on, its polarity inverted back. Inverting a Gray-coded symbol changes one of its two
bits; which one is not given (log 51). -/
def Port.polarised (x : Port) (lane : Nat) (b : Byte) : Byte := if x.inverted.getLsbD lane then b ^^^ Config.grayFlip else b

/-- R549, R555: a flit put together from what the receive lanes carry, lane by lane in order of arrival: byte b lies on the receive
lane that meets its transmit lane. -/
def Port.gather (x : Port) (lanes : List Bytes) : Bytes :=
  (List.range 256).map (fun b =>
    let l := wiredTo x.reversed (x.laneOf b)
    x.polarised l ((lanes.getD l []).getD (b / x.width) 0))

/-- Width offered on a set of lanes. -/
def widthOf (m : BitVec 8) : Nat := if m = 0xFF#8 then 8 else 4

/-- A port whose link becomes ACTIVE: after retraining every unacknowledged flit is sent again from `ack` + 1
(R561); a link that was not up starts with empty buffers and full credits. -/
def Port.activate (x : Port) (now width : Nat) (partner : BitVec 64) (pport : Nat) : Port :=
  if x.retraining then
    { x with
      state := .active, since := now, retraining := false, width := width, partner := partner, partnerPort := pport
      replay := x.replay.map (fun f => { f with sent := false, resends := 0 }), ackProgress := now }
  else
    { Port.reset with
      state := .active, since := now, lanes := x.lanes, reversed := x.reversed, inverted := x.inverted, width := width, partner := partner, partnerPort := pport
      ackProgress := now, waiting := x.waiting }

/-- The port after an exit condition of its state, none where the condition is not that of its state. -/
def Port.trained (x : Port) (e : TrainExit) (now : Nat) : Option Port :=
  match x.state, e with
  | .detect, .beacon lanes => if 4 ≤ lanesIn lanes then some (x.enter .lock now) else none
  | .lock, .locked seen => (x.lock seen).map (fun y => y.enter .equalise now)
  | .equalise, .equalised lanes => match usableLanes (x.lanes &&& lanes) with
    | none => none
    | some m => some ({ x with lanes := m }.enter .align now)
  | .align, .aligned => some (x.enter .negotiate now)
  | .negotiate, .hello serial pport _ _ width =>
    if width = 4 ∨ width = 8 then some (x.activate now (min (widthOf x.lanes) width) serial pport) else none
  | _, _ => none

/-- Table 10.2: the time limit of a state in ns, none for DETECT and ACTIVE. -/
def PortState.limit (t : PortState) : Option Nat :=
  match t with
  | .lock => some 10000000
  | .equalise => some 20000000
  | .align => some 2000000
  | .negotiate => some 1000000
  | _ => none

/-- Executes TRAINING_TIMEOUT: back to DETECT with a training failure counted (R551). -/
def execTrainingTimeout (port : Nat) (s : State) : Result :=
  if 4 ≤ port then .fault .noSuchUnit
  else if !s.portOn port then .next s
  else match (s.port port).state.limit with
    | none => .next s
    | some t =>
      let s := s.advance ((s.port port).since + t)
      .next ((s.setPort port ((s.port port).enter .detect s.tbk)).count 3 (8 * port + 5) 1)

/-- R561: an ACTIVE port trains again; replay buffers and sequence numbers stay. -/
def State.retrainPort (s : State) (p : Nat) : State :=
  let x := s.port p
  (s.setPort p { x with state := .detect, since := s.tbk, retraining := true, retrainAt := s.tbk }).count 3 (8 * p + 4) 1

/-- Executes LOSS_OF_LOCK (Table 10.2, R562). -/
def execLossOfLock (port : Nat) (s : State) : Result :=
  if 4 ≤ port then .fault .noSuchUnit
  else if !s.portOn port || (s.port port).state != .active then .next s
  else .next (s.retrainPort port)

/-- Executes LINK_RETRAIN: a flit resent eight times without acknowledgement (R561). -/
def execLinkRetrain (port : Nat) (s : State) : Result :=
  if 4 ≤ port then .fault .noSuchUnit
  else if !s.portOn port || (s.port port).state != .active || !(s.port port).replay.any (fun f => 8 ≤ f.resends) then .next s
  else .next (s.retrainPort port)

/-- R562: a link declared down: its flits are lost, and the port goes on training as a new link. -/
def Port.down (x : Port) : Port :=
  { Port.reset with
    state := x.state, since := x.since, lanes := x.lanes, reversed := x.reversed, inverted := x.inverted, partner := x.partner, partnerPort := x.partnerPort }

/-- R562: a member tells the lead that the link of a port is down; the lead itself knows. -/
def State.reportLink (s : State) (p : Nat) : State :=
  if s.follows then s.sendMessage s.casc.leadOrdinal msgLINK_DOWN 0 (leBytes 1 p) else s

/-- Executes LINK_DOWN: 100 ms of retraining have passed (R562). -/
def execLinkDown (port : Nat) (s : State) : Result :=
  if 4 ≤ port then .fault .noSuchUnit
  else if !s.portOn port || !(s.port port).retraining then .next s
  else
    let s := s.advance ((s.port port).retrainAt + 100000000)
    let s := (s.setPort port (s.port port).down).count 3 (8 * port + 7) 1
    let s := s.logEvent evHXL_LINK 0xFF (Config.severity evHXL_LINK) (unitKey 11 port) [BitVec.ofNat 8 port, 0]
    let s := s.traceRec 8 0xFF (unitKey 11 port) (BitVec.ofNat 64 port) (BitVec.ofNat 64 (s.port port).state.code)
    .next (s.reportLink port)

/-! ### Transmit -/

/-- R565: credits of a half withheld by n of perturbation control 5; keys 5, 4, 3, 2 in turn. -/
def withheld (n key : Nat) : Nat :=
  let a := min n (vcHalf 2 - 1)
  let b := min (n - a) (vcHalf 2 - 1)
  let c := min (n - a - b) (vcHalf 1 - 1)
  let d := min (n - a - b - c) (vcHalf 1 - 1)
  if key = 5 then a else if key = 4 then b else if key = 3 then c else if key = 2 then d else 0

/-- Key of a flit's buffer half. -/
def TxFlit.key (f : TxFlit) : Nat := 2 * f.vc + f.half

/-- A credit for the flit's half may be used (R563, R565). -/
def Port.mayUse (x : Port) (n : Nat) (f : TxFlit) : Bool := withheld n f.key < FMap.getD x.credits f.key 0

/-- The oldest waiting flit of a virtual channel whose half has a credit. -/
def Port.nextOf (x : Port) (n vc : Nat) : Option TxFlit :=
  let head := fun h => x.waiting.find? (fun f => f.vc == vc && f.half == h)
  x.waiting.find? (fun f => f.vc == vc && x.mayUse n f && some f == head f.half)

/-- R564: the next new DATA flit. -/
def Port.nextNew (x : Port) (n : Nat) : Option TxFlit :=
  if 512 ≤ x.replay.length then none
  else match x.nextOf n 2 with
    | some f => if 15 ≤ x.sinceVc2 then some f
        else (x.nextOf n 0).orElse (fun _ => (x.nextOf n 1).orElse (fun _ => some f))
    | none => (x.nextOf n 0).orElse (fun _ => x.nextOf n 1)

/-- Table 10.3: a flit's bytes; every flit carries `ack`, `nak` where due, and a credit return (R557). -/
def Port.flitBytes (x : Port) (ftype : Nat) (f : TxFlit) : Bytes :=
  let owed := x.owed.find? (fun p => 0 < p.2)
  let key := match owed with
    | none => 0
    | some p => p.1
  let n := match owed with
    | none => 0
    | some p => min 255 p.2
  let b := leBytes 1 (ftype + f.vc % 4 * 16 + f.half % 2 * 64 + (if x.nakDue then 128 else 0)) ++
    leBytes 2 f.seq.toNat ++ leBytes 2 (x.rxNext - 1).toNat ++ leBytes 1 (key / 2 + key % 2 * 4) ++ leBytes 1 n ++
    zeros 1 ++ fit 240 f.payload
  b ++ leBytes 8 (crc64 b).toNat

/-- What sending a flit leaves: the `nak` sent and the credits returned. -/
def Port.afterSend (x : Port) : Port :=
  let owed := match x.owed.find? (fun p => 0 < p.2) with
    | none => x.owed
    | some p => FMap.set x.owed p.1 (p.2 - min 255 p.2)
  { x with owed := owed, nakDue := false, nakSent := x.nakSent || x.nakDue }

/-- A flit sent on a port. -/
def State.sendFlit (s : State) (p ftype : Nat) (f : TxFlit) (x : Port) : State :=
  (s.setPort p x.afterSend).emit (.flit p (x.flitBytes ftype f))

/-- Table 10.2: what a port sends on entering a state: marker flits in ALIGN, its HELLO flit in NEGOTIATE. -/
def State.greet (s : State) (p : Nat) : State :=
  let x := s.port p
  match x.state with
  | .align => s.sendFlit p 2 ⟨0, 0, 0, Config.markerPayload, false, 0⟩ x
  | .negotiate => s.sendFlit p 3 ⟨0, 0, 0, Config.helloPayload Config.serial p s.role ownHxlVersion (widthOf x.lanes), false, 0⟩ x
  | _ => s

/-- Executes LINK_TRAINING_ADVANCE (Table 10.2, R549, R551, R552); without VDD_HXL a port never leaves DETECT (14, Limits). -/
def execLinkTrainingAdvance (port : Nat) (exit : TrainExit) (s : State) : Result :=
  if 4 ≤ port then .fault .noSuchUnit
  else if !s.portOn port || !s.board.hxlRail then .next s
  else match (s.port port).trained exit s.tbk with
    | none => .next s
    | some x =>
      let s := s.setPort port x
      if x.state = .active then
        let s := s.logEvent evHXL_LINK 0xFF 0 (unitKey 11 port) [BitVec.ofNat 8 port, if x.width = 8 then 1 else 2]
        .next (s.traceRec 8 0xFF (unitKey 11 port) (BitVec.ofNat 64 port) (BitVec.ofNat 64 x.state.code))
      else .next (s.greet port)

/-- Executes FLIT_TRANSMIT: a flit to be resent first, then new DATA by VC, else IDLE (R557, R558, R560, R563,
R564). -/
def execFlitTransmit (port : Nat) (s : State) : Result :=
  if 4 ≤ port then .fault .noSuchUnit
  else if !s.portOn port || (s.port port).state != .active then .next s
  else
    let x := s.port port
    match x.replay.find? (fun f => !f.sent) with
    | some f =>
      let y := { x with replay := x.replay.map (fun g =>
        if g.seq = f.seq then { g with sent := true, resends := g.resends + 1 } else g) }
      .next ((s.sendFlit port 1 f y).count 3 (8 * port + 3) 1)
    | none => match x.nextNew (s.control 5 0xFF port) with
      | none => .next (s.sendFlit port 0 ⟨0, 0, 0, [], false, 0⟩ x)
      | some f =>
        let g := { f with seq := x.txSeq, sent := true }
        let y := { x with
          txSeq := x.txSeq + 1, waiting := dropFirst (fun h => h == f) x.waiting, replay := x.replay ++ [g]
          ackProgress := if x.replay.isEmpty then s.tbk else x.ackProgress
          credits := FMap.set x.credits f.key (FMap.getD x.credits f.key 0 - 1)
          sinceVc2 := if f.vc = 2 then 0 else x.sinceVc2 + 1 }
        .next ((s.sendFlit port 1 g y).count 3 (8 * port) 1)

/-- Every unacknowledged flit to be sent again (R560). -/
def Port.replayAll (x : Port) : Port := { x with replay := x.replay.map (fun f => { f with sent := false }) }

/-- Executes REPLAY_TIMEOUT: 2 µs without progress of `ack` (R560). -/
def execReplayTimeout (port : Nat) (s : State) : Result :=
  if 4 ≤ port then .fault .noSuchUnit
  else if !s.portOn port || (s.port port).state != .active || (s.port port).replay.isEmpty then .next s
  else
    let s := s.advance ((s.port port).ackProgress + 2000)
    .next (s.setPort port { (s.port port).replayAll with ackProgress := s.tbk })

/-! ### Receive -/

/-- R558, R560: an acknowledgement: flits up to `ack` leave the replay buffer. -/
def Port.acked (x : Port) (ack : BitVec 12) (now : Nat) : Port :=
  if x.replay.any (fun f => f.seq == ack) then
    { x with replay := (x.replay.dropWhile (fun f => f.seq != ack)).drop 1, ackProgress := now }
  else x

/-- R563: credits returned by the partner. -/
def Port.credited (x : Port) (key n : Nat) : Port :=
  if key < 6 then
    { x with credits := FMap.set x.credits key (min (vcHalf (key / 2)) (FMap.getD x.credits key 0 + n)) }
  else x

/-- The message that the flits received in a half complete, with the flits kept (R566). -/
def messageDone (fs : List TxFlit) : Option Bytes :=
  let b := fs.flatMap (fun f => f.payload)
  if b.length < 16 then none
  else if 16 + num b 4 4 ≤ b.length then some (b.take (16 + num b 4 4)) else none

/-- R566, R568 to R571: a message that arrived on port q for another member goes on by its route, with its hop
count raised; one for this device is handed over. -/
def State.forward (s : State) (q vc half : Nat) (b : Bytes) : State :=
  let dst := num b 0 1
  let x := { s.casc with treeRouting := flag b 12 0 }
  if dst = 0xFF || dst = x.ordinal then s
  else match x.routePort x.ordinal dst (num b 1 1) with
    | none => s
    | some p => s.queueFlits p (messageFlits vc (x.halfOf x.ordinal p half (q / 2))
        (overlay b 3 (leBytes 1 (num b 3 1 + 1))))

/-- R559, R563: an accepted DATA flit: it leaves the buffer at once and its credit is owed (log 47). -/
def State.takeFlit (s : State) (p : Nat) (f : TxFlit) : State :=
  let x := s.port p
  let fs := x.received.filter (fun g => g.key == f.key) ++ [f]
  let rest := x.received.filter (fun g => g.key != f.key)
  let y := { x with
    rxNext := x.rxNext + 1, nakSent := false, owed := FMap.set x.owed f.key (FMap.getD x.owed f.key 0 + 1) }
  match messageDone fs with
  | none => s.setPort p { y with received := rest ++ fs }
  | some b => (s.setPort p { y with received := rest }).forward p f.vc f.half b

/-- R559: a DATA flit discarded: `nak` once until a flit is accepted. -/
def Port.refuse (x : Port) : Port := if x.nakSent then x else { x with nakDue := true }

/-- Table 10.2, R557: the states in which flits arrive: markers, HELLO flits and, in ACTIVE, traffic; each carries `ack` and a credit
return. -/
def PortState.takesFlits (t : PortState) : Bool := t == .align || t == .negotiate || t == .active

/-- Executes FLIT_RECEIVE; the operand is what each receive lane carried, descrambled; the flit reaches the port's logic through crossing queue 352 + p (R549, R555 to R560, R563, R566, Table 14.5). -/
def execFlitReceive (port : Nat) (lanes : List Bytes) (s : State) : Result :=
  if 4 ≤ port then .fault .noSuchUnit
  else if !s.portOn port || !(s.port port).state.takesFlits then .next s
  else
    let a := s.cross (352 + port) ((s.port port).gather lanes)
    let s := a.1
    let b := a.2
    let data : Bool := num b 0 1 % 16 == 1
    let good : Bool := num b 248 8 == (crc64 (b.take 248)).toNat
    if !good then
      let s := s.count 3 (8 * port + 2) 1
      .next (if data then s.setPort port (s.port port).refuse else s)
    else
      let x := (s.port port).acked (BitVec.ofNat 12 (num b 3 2)) s.tbk
      let x := if flag b 0 7 then x.replayAll else x
      let x := x.credited (num b 5 1 % 4 * 2 + num b 5 1 / 4 % 2) (num b 6 1)
      let s := s.setPort port x
      if !data then .next s
      else if x.state = .active ∧ BitVec.ofNat 12 (num b 1 2) = x.rxNext then
        .next ((s.takeFlit port ⟨x.rxNext, num b 0 1 / 16 % 4, num b 0 1 / 64 % 2, slice b 8 240, true, 0⟩).count
          3 (8 * port + 1) 1)
      else .next (s.setPort port x.refuse)

end Sys2Proof.Machine
end

