-- ==== Sys2Proof/Machine/Handles.lean ====
section
/-! DEFINITION. Handle queues between the units of the query path (08, Handle queues and the narrow path; R289, R445 to
R447, R681). -/

namespace Sys2Proof.Machine

/-- R445: entries of a handle queue. -/
def queueDepth : Nat := 64
/-- R445: the handle queues that the Steward holds; each of them is empty. -/
def State.freeQueues (s : State) : List Nat := (List.range 256).filter (fun n => (FMap.get? s.handleQueues n).isNone)
/-- A handle queue set. -/
def State.setQueue (s : State) (n : Nat) (q : HandleQueue) : State := { s with handleQueues := FMap.set s.handleQueues n q }
/-- R445: the free queue that the Steward assigns for the work of a number; which one the manual leaves open (log 101). None
while all are in use. -/
def State.queueFor (s : State) (work : Nat) : Option Nat :=
  match s.freeQueues with
  | [] => none
  | a :: l => some ((a :: l).getD (Config.pickQueue work % (l.length + 1)) a)
/-- R681: a control makes the queue for that work act as full now. -/
def State.queueHeld (s : State) (work : Nat) : Bool := (s.queueFor work).any (s.dutyHeld 2 0xFF)
/-- R445: a free queue assigned to a producer and a consumer of a field. -/
def State.assignQueue (s : State) (work producer consumer f : Nat) : Option (State × Nat) :=
  (s.queueFor work).map (fun n => (s.setQueue n ⟨producer, consumer, f, [], none⟩, n))
/-- R447: a handle: bits 31:24 name the owner of its buffer, bits 23:0 the place of the buffer in the owner's memory, which
the manual leaves open (log 101). -/
def handleWord (owner n : Nat) : BitVec 32 := Config.handleOwner owner ++ Config.bufferPlace n
/-- R446, R447: a buffer of candidates pushed by its owner; none where the queue is full, which stalls the producer. -/
def State.pushHandle (s : State) (n : Nat) (cs : List Cand) : Option State :=
  match FMap.get? s.handleQueues n with
  | none => none
  | some q =>
    if queueDepth ≤ q.handles.length then none
    else some ({ s with fresh := s.fresh + 1 }.setQueue n
      { q with handles := q.handles ++ [(⟨handleWord q.producer s.fresh, cs⟩ : Handle)] })
/-- R446, R447: the oldest handle popped; the consumer holds its buffer. None on an empty queue, which stalls the consumer,
or while it holds a buffer. -/
def State.popHandle (s : State) (n : Nat) : Option (State × Handle) :=
  match FMap.get? s.handleQueues n with
  | none => none
  | some q => match q.held, q.handles with
    | none, h :: rest => some (s.setQueue n { q with handles := rest, held := some h }, h)
    | _, _ => none
/-- R447: the consumer returns the handle that it holds to the owner of the buffer. -/
def State.returnHandle (s : State) (n : Nat) : State :=
  match FMap.get? s.handleQueues n with
  | none => s
  | some q => s.setQueue n { q with held := none }
/-- R445: an empty queue returns to the Steward. -/
def State.releaseQueue (s : State) (n : Nat) : State :=
  match FMap.get? s.handleQueues n with
  | none => s
  | some q => if q.handles.isEmpty && q.held.isNone then { s with handleQueues := FMap.erase s.handleQueues n } else s
/-- R447: one buffer taken by the consumer: its candidates, and the handle back at its owner. -/
def State.takeBuffer (s : State) (n : Nat) : State × List Cand :=
  match s.popHandle n with
  | none => (s, [])
  | some (t, h) => (t.returnHandle n, h.cands)
/-- The consumer takes so many buffers. -/
def State.takeBuffers : Nat → State → Nat → State × List Cand
  | 0, s, _ => (s, [])
  | k + 1, s, n =>
    let a := s.takeBuffer n
    let b := State.takeBuffers k a.1 n
    (b.1, a.2 ++ b.2)
/-- R289, R446: candidates sent one buffer each; a full queue stalls the producer until the consumer has taken one. -/
def State.sendCands (s : State) (n : Nat) : List Cand → State × List Cand
  | [] => s.takeBuffers queueDepth n
  | c :: cs =>
    match s.pushHandle n [c] with
    | some t => t.sendCands n cs
    | none =>
      let a := s.takeBuffer n
      let t := (a.1.pushHandle n [c]).getD a.1
      let b := t.sendCands n cs
      (b.1, a.2 ++ b.2)
/-- R289, R445: the candidates of a visitor carried from its core to its Crystalliser: what the Crystalliser receives, in
order. The queue returns empty. -/
def State.carry (s : State) (work producer consumer f : Nat) (cs : List Cand) : State × List Cand :=
  match s.assignQueue work producer consumer f with
  | none => (s, cs)
  | some (t, n) =>
    let r := t.sendCands n cs
    (r.1.releaseQueue n, r.2)

end Sys2Proof.Machine
end

