-- ==== Sys2Proof/Machine/Search.lean ====
section
/-! DEFINITION. SEARCH, SEARCH_BATCH and SEARCH_RADIUS: their checks, the certified bound, narrowing and admission
(03, 0x20–0x22; R33 to R39, R46 to R58, R170 to R178, R266 to R274, R465 to R470). -/

namespace Sys2Proof.Machine

/-- What a search asks for (Table 3.6, R170). -/
structure SearchIn where
  cls : Nat
  addr : Nat
  len : Nat
  deadlineUs : Nat
  k : Nat
  nprobe : Nat
  floor : Nat
  rerank : Nat
  narrow : Bool
  t8 : Bool
  useEpoch : Bool
  ms : Bool
  sbacOn : Bool
  outFmt : Nat
  filterId : Nat
  bitmapId : Nat
  epoch : Nat
  radius : BitVec 32
  vecFmt : Nat
  n : Nat
  sbac : Sbac

/-- A search as its packet and block say it. -/
def searchIn (x : Ctx) : SearchIn :=
  let p := x.pkt
  let b := x.block
  let w := fun (o : Nat) => BitVec.ofNat 32 (num b o 4)
  { cls := x.cmd.cls, addr := num p 16 8, len := num p 24 4, deadlineUs := num p 28 4, k := num p 32 2
    nprobe := num p 34 2, floor := num p 36 2, rerank := num p 38 1, narrow := flag p 39 0, t8 := flag p 39 1
    useEpoch := flag p 39 2, ms := flag p 39 3, sbacOn := flag p 39 4, outFmt := num p 40 1, filterId := num p 41 1
    bitmapId := num p 42 1, epoch := num p 44 8, radius := BitVec.ofNat 32 (num p 52 4), vecFmt := num b 0 1
    n := num b 2 2, sbac := ⟨w 16, w 20, num b 24 1, w 28, w 32⟩ }

/-- Candidate slots k′ of each query (R296). -/
def SearchIn.slots (q : SearchIn) : Nat := q.k * max q.rerank 1
/-- R301: bytes of one query block. -/
def blockBytes (k outFmt : Nat) : Nat := 64 + roundUp (8 * k) 64 + roundUp (k * outBytes outFmt) 64
/-- R170: bytes of one query vector. -/
def queryBytes (p : IParams) (vf : Nat) : Nat := roundUp (p.v * (vecFmt vf).bytes) 64
/-- The patterns of query n. -/
def queryPats (x : Ctx) (p : IParams) (vf n : Nat) : List Nat :=
  patterns (vecFmt vf) p.v (x.block.drop (64 + n * queryBytes p vf))

/-- Table 3.2 row b: inline values (Table 3.6, R172). -/
def SearchIn.inlineBad (q : SearchIn) (p : IParams) (radius : Bool) : Bool :=
  q.k == 0 || 4096 < q.k || q.nprobe == 0 || min 4096 p.nlist < q.nprobe ||
    (q.narrow && (q.floor == 0 || q.nprobe < q.floor)) || 64 < q.rerank || 4096 < q.slots || 4 < q.outFmt ||
    ((q.outFmt == 3 || q.outFmt == 4) && !q.sbacOn) || (q.filterId != 0xFF && 31 < q.filterId) ||
    (q.bitmapId != 0xFF && 15 < q.bitmapId) || q.addr % 64 != 0 || (radius && isSpecial fFP32 q.radius.toNat)
/-- R171: number of queries. -/
def SearchIn.countBad (q : SearchIn) (batch : Bool) : Bool := if batch then q.n == 0 || 256 < q.n else q.n != 1
/-- R172, R341, R782: the SBAC record; an `sbac_act` that Table 3.6 does not give is refused whether or not the search uses
it, as R782 excepts none. -/
def SearchIn.sbacBad (q : SearchIn) : Bool :=
  3 < q.sbac.act || (q.sbacOn && ([q.sbac.scale, q.sbac.bias, q.sbac.lo, q.sbac.hi].any (fun v => isSpecial fFP32 v.toNat) ||
    (q.sbac.act == 1 && fltb (fp32 q.sbac.hi) (fp32 q.sbac.lo))))

/-- R587: sub-quantisers of member i of c present members. -/
def shareM (p : IParams) (c i : Nat) : Nat :=
  let r := ceilDiv p.m p.run
  min p.m ((i + 1) * r / c * p.run) - min p.m (i * r / c * p.run)
/-- R175: the sub-quantisers of the largest share that a device holds. -/
def Index.tableM (x : Index) : Nat :=
  if x.p.cascMode = 2 then
    let c := (x.placement.headD []).length
    maxBy (shareM x.p c) (List.range c)
  else x.p.m
/-- R268: bytes of the distance table that a core holds. -/
def Index.tableBytes (x : Index) (t8 : Bool) : Nat := x.tableM * x.p.entries * (if t8 then 1 else 4)

/-- The filter program that a search binds (R39): none when it names none. -/
def SearchIn.filterOf (q : SearchIn) (f : Field) : Option FilterProg :=
  if q.filterId = 0xFF then none else FMap.get? f.filters q.filterId
/-- The published image that a search binds. -/
def SearchIn.bitmapOf (q : SearchIn) (f : Field) : Option BitmapImage :=
  if q.bitmapId = 0xFF then none
  else match FMap.get? f.bitmaps q.bitmapId with
    | none => none
    | some b => b.published
/-- R174: the filter or the bitmap reads beyond the index's attribute words. -/
def beyondWords (p : IParams) (fp : Option FilterProg) (bm : Option BitmapImage) : Bool :=
  (match fp with
    | none => false
    | some g => g.words.any (fun w => p.attrWords ≤ w)) ||
  (match bm with
    | none => false
    | some b => p.attrWords ≤ b.attrSel)
/-- R33: the snapshot epoch. -/
def SearchIn.snapshot (q : SearchIn) (x : Index) : Nat := if q.useEpoch then q.epoch else x.epoch

/-- Everything that admission binds of a search (R39). -/
structure Bound where
  q : SearchIn
  ctx : Ctx
  key : Nat
  x : Index
  epoch : Nat
  radius : Option (BitVec 32)
  filter : Option FilterProg
  bitmap : Option BitmapImage
  vecs : List (List (BitVec 32) × Acc)

/-- R460: the key: fetch time plus `deadline_us`. -/
def Bound.keyNs (b : Bound) : Nat := b.ctx.cmd.tFetch + b.q.deadlineUs * 1000
/-- Terms that a Sieve evaluates on an entry (Table 8.6). -/
def Bound.terms (b : Bound) : Nat :=
  (match b.filter with
    | none => 0
    | some g => sumBy (fun r => r.terms.length) g.rules) + (if b.bitmap.isSome then 1 else 0)
/-- What the planner needs at an nprobe. -/
def Bound.figures (b : Bound) (c : FieldCfg) (nprobe : Nat) : BoundIn :=
  { key := b.key, x := b.x, cfg := c, epoch := b.epoch, nprobe := nprobe, slots := b.q.slots, rerank := b.q.rerank != 0
    t8 := b.q.t8, terms := b.terms, resultBytes := blockBytes b.q.k b.q.outFmt, tFetch := b.ctx.cmd.tFetch
    deadlineKey := b.keyNs }
/-- The queries of a search at an nprobe (R274: in query order). -/
def Bound.queries (b : Bound) (nprobe now order : Nat) : List Query :=
  (List.range b.vecs.length).map (fun n =>
    let v := b.vecs.getD n ([], acc0)
    { ref := ⟨b.ctx.ring, b.ctx.cmd.seq, n⟩, field := b.ctx.fn, index := b.key % 64, cls := b.q.cls, epoch := b.epoch
      vec := v.1, k := b.q.k, rerank := b.q.rerank, nprobe := nprobe, t8 := b.q.t8, radius := b.radius
      sbac := if b.q.sbacOn then some b.q.sbac else none, ms := b.q.ms, outFmt := b.q.outFmt, filter := b.filter
      bitmapId := b.q.bitmapId, bitmap := b.bitmap, admitted := now, order := order, ownSlots := none, key := b.keyNs, core := none, cryst := 0
      sieve := 0, assayer := 0, window := none, coulterDone := false, lists := [], read := [], table := none, todo := [], cands := []
      qualified := 0, reranked := false, merged := none, parts := []
      flags := v.2.fl ||| flIf (b.radius.any (fun r => isSubnormal fFP32 r.toNat)) flDIN |||
        flIf (nprobe < b.q.nprobe) flNARROWED ||| flIf b.x.modeA flND })

/-- R467, R470: the state with the queries entered at an nprobe, and their bound; none under R465. -/
def State.tryAt (s : State) (b : Bound) (nprobe : Nat) : Option (State × Nat) :=
  match s.enterAll (b.figures (s.cfg b.ctx.fn) nprobe) true (b.x.tableBytes b.q.t8) (b.queries nprobe s.tbk s.order) with
  | none => none
  | some t => some (t, t.boundOf b.ctx.ring b.ctx.cmd.seq b.ctx.cmd.tFetch)
/-- R57, R470: the nprobe values to try, from the requested one downwards. -/
def SearchIn.tries (q : SearchIn) : List Nat :=
  if q.narrow then (List.range (q.nprobe - q.floor + 1)).map (fun i => q.nprobe - i) else [q.nprobe]
/-- R57: the largest nprobe whose bound meets the deadline. -/
def State.firstMeeting (s : State) (b : Bound) : Option Nat :=
  b.q.tries.find? (fun n => match s.tryAt b n with
    | none => false
    | some r => r.2 ≤ b.q.deadlineUs)
/-- R55, R57: the nprobe of a class B or class X search. R57 says what a class B search does whose floor misses the
deadline: it runs at the floor; a class X search does the same here (DESIGN CHOICE, log 60). -/
def State.bestEffortProbe (s : State) (b : Bound) : Nat :=
  if !b.q.narrow || b.q.deadlineUs = 0 then b.q.nprobe
  else match s.firstMeeting b with
    | none => b.q.floor
    | some n => n
/-- R273: with `sowing_us` 0 the window closes as soon as the packet's queries have been placed in it. -/
def State.closeAtOnce (s : State) (b : Bound) : State :=
  match s.openWindow b.ctx.fn (b.key % 64) (b.q.cls == 2) with
    | none => s
    | some (n, w) => if w.sowingUs = 0 then s.closeWindow n else s
/-- The admitted search goes on in the query path. -/
def State.searchAdmitted (s : State) (b : Bound) (nprobe bound : Nat) : Verdict :=
  let t := (s.closeAtOnce b).countField b.ctx.fn (if b.q.cls = 0 then 1 else if b.q.cls = 1 then 3 else 4) 1
  let t := b.vecs.foldl (fun t v => t.noteReplays b.ctx.fn v.2) t
  .accept ⟨{ t with order := t.order + 1 }, some .search, 0, 0, flIf (nprobe < b.q.nprobe) flNARROWED, bound, b.epoch, []⟩
/-- R177, R465: a class C search turned away with its bound. -/
def State.infeasible (s : State) (b : Bound) (bound : Nat) : Verdict :=
  .turnAway (s.countField b.ctx.fn 2 1) stDEADLINE_INFEASIBLE (min bound 0xFFFF_FFFF)
/-- R48, R51, R57, R465, R468: the planner on a class C search. -/
def State.planCertified (s : State) (b : Bound) : Verdict :=
  match s.tryAt b b.q.nprobe with
  | none => s.infeasible b 0xFFFF_FFFF
  | some (_, asked) =>
    if !s.searchPinned b.key b.x (b.q.rerank != 0) b.epoch || (b.x.p.cascMode != 0 && s.casc.state == 3) then
      s.infeasible b asked
    else match s.firstMeeting b with
      | none => s.infeasible b asked
      | some n => match s.tryAt b n with
        | none => s.infeasible b 0xFFFF_FFFF
        | some (t, bound) =>
          if t.othersHold b.ctx.ring b.ctx.cmd.seq then
            (t.recordBound b.ctx.ring b.ctx.cmd.seq bound).searchAdmitted b n bound
          else s.infeasible b asked
/-- A class B or class X search placed at an nprobe, with no entry of its own in the ledger. -/
def State.placeBestEffort (s : State) (b : Bound) (nprobe : Nat) : Option State :=
  s.enterAll (b.figures (s.cfg b.ctx.fn) nprobe) false (b.x.tableBytes b.q.t8) (b.queries nprobe s.tbk s.order)
/-- R55, R462, R470: the planner on a class B or class X search. Where it would push back the start of a class C query
beyond its bound, the open window closes first and the search opens the next one (DESIGN CHOICE, log 60). -/
def State.planBestEffort (s : State) (b : Bound) : Verdict :=
  let n := s.bestEffortProbe b
  let apart := match s.openWindow b.ctx.fn (b.key % 64) (b.q.cls == 2) with
    | none => s
    | some (w, _) => s.closeWindow w
  match s.placeBestEffort b n, apart.placeBestEffort b n with
  | some t, some u => if t.othersHold b.ctx.ring b.ctx.cmd.seq then t.searchAdmitted b n 0 else u.searchAdmitted b n 0
  | _, _ => failed s stHW_FAULT

/-- R129, R266: a search after Table 2.6. A reserved `vec_fmt` gives the vectors no size, so it is refused before their length
is checked (log 89). -/
def State.searchBody (s : State) (x : Ctx) (batch radius : Bool) : Verdict :=
  match FMap.get? s.indexes x.key, s.field? x.fn with
  | some i, some f =>
    let q := searchIn x
    let fp := q.filterOf f
    let bm := q.bitmapOf f
    let pats := (List.range q.n).map (queryPats x i.p q.vecFmt)
    checks [(q.cls == 0 && !f.cfg.certified, stNOT_PERMITTED), (q.inlineBad i.p radius, stBAD_VALUE),
      (q.len < q.n * blockBytes q.k q.outFmt, stBAD_LENGTH), (2 < q.vecFmt, stBAD_VALUE),
      (x.block.length < 64 + q.n * queryBytes i.p q.vecFmt, stBAD_LENGTH), (q.countBad batch, stBAD_VALUE),
      (pats.any (fun v => v.any (isSpecial (vecFmt q.vecFmt))) || q.sbacBad, stBAD_VALUE)] (fun _ =>
      let done := pats.map (prepare i.p (vecFmt q.vecFmt))
      checks [(done.any (fun v => v.isNone), stBAD_VALUE),
        ((q.filterId != 0xFF && fp.isNone) || (q.bitmapId != 0xFF && bm.isNone), stNOT_FOUND),
        (!i.active, stBAD_STATE), (q.rerank != 0 && i.p.fpFmt == 0, stMODE_FORBIDS),
        (beyondWords i.p fp bm, stMODE_FORBIDS), (!q.t8 && tableArea < i.tableBytes false, stMODE_FORBIDS),
        (q.snapshot i != i.epoch && !i.holds.contains (q.snapshot i), stEPOCH_UNAVAILABLE)] (fun _ =>
        let key := if i.p.metric = 0 then q.radius else q.radius ^^^ 0x80000000#32
        let b : Bound := ⟨q, x, x.key, i, q.snapshot i, if radius then some key else none, fp, bm,
          done.filterMap (fun v => v)⟩
        if b.vecs.any (fun v => s.replayDiffers x.fn v.2) then
          failed ({ s with fresh := s.fresh + 1 }.logMismatch x.fn x.ring x.cmd.seq) stHW_FAULT
        else if q.cls = 0 then s.planCertified b else s.planBestEffort b))
  | _, _ => no stBAD_INDEX

/-- Executes SEARCH (R170 to R177, R266). -/
def execSearch (ring : Nat) (dma : Dma) (s : State) : Result :=
  s.runPacket 0x20 ring dma (fun x s => s.searchBody x false false)

/-- Executes SEARCH_BATCH (R171, R178, R274). -/
def execSearchBatch (ring : Nat) (dma : Dma) (s : State) : Result :=
  s.runPacket 0x21 ring dma (fun x s => s.searchBody x true false)

/-- Executes SEARCH_RADIUS (R28, R297). -/
def execSearchRadius (ring : Nat) (dma : Dma) (s : State) : Result :=
  s.runPacket 0x22 ring dma (fun x s => s.searchBody x false true)

end Sys2Proof.Machine
end

