-- ==== Sys2Proof/Machine/Splits.lean ====
section
/-! DEFINITION. Sums divided among contributors: the atomic adds of mode A, the partials of mode D and their combination, and what a
member of a SPLIT-DIM cascade contributes (06, R344 to R350; 10, R587 to R589; R62). -/

namespace Sys2Proof.Machine

/-! ### Mode A (R348, R349) -/

/-- R349: one atomic add at a location. -/
def modeAStep (x : BitVec 32 × Flags) (p : BitVec 32) : BitVec 32 × Flags :=
  let r := satFmt fFP32 (fadd (fp32 x.1) (fp32 p))
  (toFp32 r.1, x.2 ||| r.2)
/-- R349: the adds that arrive in one cycle, in ascending requester number. -/
def modeAAll (x : BitVec 32 × Flags) (adds : List (Nat × BitVec 32)) : BitVec 32 × Flags :=
  (sortLt (fun a b => a.1 < b.1) adds).foldl (fun x a => modeAStep x a.2) x

/-- Executes MODE_A_ADD: adds of one NCK cycle to a location of a slice, which starts at +0 (R348, R349). -/
def execModeAAdd (slice location : Nat) (adds : List (Nat × BitVec 32)) (s : State) : Result :=
  if 32 ≤ slice then .fault .noSuchUnit
  else if !s.up then .next s
  else
    let x := modeAAll (FMap.getD s.modeA (location * 32 + slice) (0, 0)) adds
    .next { s with modeA := FMap.set s.modeA (location * 32 + slice) x }

/-! ### Mode D records (R345) -/

/-- R345: the flags of a partial: IX, UF, OF, DIN, DSAT in bits 0 to 4. -/
def partialFlags (b : Nat) : Flags :=
  flIf (b.testBit 0) flIX ||| flIf (b.testBit 1) flUF ||| flIf (b.testBit 2) flOF ||| flIf (b.testBit 3) flDIN |||
    flIf (b.testBit 4) flDSAT
/-- R345: byte 5 of a partial. -/
def partialByte (fl : Flags) : Nat :=
  let bit := fun (f : Flags) (n : Nat) => if fl &&& f = 0 then 0 else n
  bit flIX 1 + bit flUF 2 + bit flOF 4 + bit flDIN 8 + bit flDSAT 16
/-- R345: the record of a run. -/
def partialRecord (r : RunR) : Bytes :=
  leBytes 4 (toFp32 r.v).toNat ++ leBytes 1 r.level ++ leBytes 1 (partialByte r.fl) ++ zeros 2
/-- R345: the record is one of a run. -/
def partialOk (b : Bytes) : Bool := b.length == 8 && num b 4 1 ≤ 2 && num b 5 1 < 32 && num b 6 2 == 0

/-! ### The combining core (R344 to R347) -/

/-- Runs of a sum. -/
def SplitShape.runs (x : SplitShape) : Nat := ceilDiv x.terms x.run
/-- The shape is one of R318. -/
def SplitShape.ok (x : SplitShape) : Bool := x.group != 0 && x.run != 0 && x.run % x.group == 0 && x.terms != 0 && x.contributors != 0
/-- Terms of run r. -/
def SplitShape.inRun (x : SplitShape) (r : Nat) : Nat := min x.run (x.terms - r * x.run)
/-- A sum of which nothing has come. -/
def Combine.fresh (x : SplitShape) : Combine := ⟨x, fv0, 0, 0, 0, [], []⟩
/-- R322, R347: a run sum added into W at its scale level. -/
def Combine.add (x : Combine) (v : Fv) (level : Nat) (fl : Flags) : Combine :=
  let q := roundFmt fF64 (fadd x.w (fscale v (64 * (level : Int))))
  { x with w := q.v, fl := x.fl ||| fl ||| flIf q.ix flIX, runs := x.runs + 1 }
/-- R62, R344: the runs of a contributor follow those of every contributor of lower ordinal. -/
def Combine.inOrder (x : Combine) (contributor run : Nat) : Bool :=
  x.owners.all (fun o => (run ≤ o.1 || o.2 ≤ contributor) && (o.1 ≤ run || contributor ≤ o.2))
/-- R345, R346: what a part leaves of its run; none for a part that does not belong there. -/
def RunPart.take (old : Option RunPart) (n : Nat) (p : SplitPart) : Option RunPart :=
  match old, p with
  | none, .record b =>
    if partialOk b then some (.whole (BitVec.ofNat 32 (num b 0 4)) (num b 4 1) (partialFlags (num b 5 1))) else none
  | some _, .record _ => none
  | some (.whole _ _ _), .terms _ _ _ => none
  | none, .terms level first ts =>
    if level = 0 && first + ts.length ≤ n then some (.terms 0 (ts.mapIdx (fun k t => (first + k, t))) 0) else none
  | some (.terms l got r), .terms level first ts =>
    if level = l && first + ts.length ≤ n then
      some (.terms l ((List.range ts.length).foldl (fun m k => FMap.set m (first + k) (ts.getD k (0, 0))) got) r)
    else none
/-- A term received: a value that overflowed when it was formed overflows again. -/
def sentTerm (t : BitVec 32 × Flags) : Term :=
  ⟨if t.2 &&& flOF = 0 then fp32 t.1 else ⟨t.1.msb, 1, 128⟩, t.2 &&& flIX != 0⟩
/-- R346: what the combining core makes of the next run. -/
inductive Formed where
  /-- Parts of it are still to come. -/
  | waits
  | run (v : Fv) (level : Nat) (fl : Flags)
  /-- It overflowed: the terms are wanted again at the next scale level. -/
  | again (level replays : Nat)
/-- R326, R327, R346: a run formed of its terms. -/
def formRun (x : SplitShape) (run : Nat) : RunPart → Formed
  | .whole v level fl => .run (fp32 v) level fl
  | .terms level got replays =>
    let n := x.inRun run
    if got.length < n then .waits
    else
      let ts := (List.range n).map (fun k => FMap.getD got k (0, 0))
      let r := runPass 0 x.group (ts.map sentTerm ++ List.replicate (x.run - n) ⟨fv0, false⟩)
      let fl := runFlags r.2 (replays != 0) ||| ts.foldl (fun f t => f ||| (t.2 &&& (flUF ||| flDIN))) 0
      match r.2.ovf with
      | none => .run r.1 level fl
      | some neg => if level < 2 then .again (level + 1) (replays + 1)
          else .run (fFP32.largest neg) 2 (fl ||| flOF ||| flIX ||| flDSAT)
/-- R347: runs added in run order as far as they have come, with the run and level whose terms are wanted again; fuel is the number
of runs. -/
def Combine.settle : Nat → Combine → Combine × Option (Nat × Nat)
  | 0, x => (x, none)
  | n + 1, x => match FMap.get? x.waiting x.runs with
    | none => (x, none)
    | some p => match formRun x.shape x.runs p with
      | .waits => (x, none)
      | .run v level fl => Combine.settle n { x.add v level fl with waiting := FMap.erase x.waiting x.runs }
      | .again level replays =>
        ({ x with waiting := FMap.set x.waiting x.runs (.terms level [] replays), replays := x.replays + 1 }, some (x.runs, level))
/-- A part of a run taken: none where it does not belong to the sum. -/
def Combine.take (x : Combine) (contributor run : Nat) (p : SplitPart) : Option Combine :=
  if run < x.runs || x.shape.runs ≤ run || x.shape.contributors ≤ contributor || !x.inOrder contributor run then none
  else (RunPart.take (FMap.get? x.waiting run) (x.shape.inRun run) p).map (fun y =>
    { x with waiting := FMap.set x.waiting run y, owners := (run, contributor) :: x.owners })
/-- The sum of a number as it stands: one that is complete gives way to the next. -/
def State.sumOf (s : State) (total : Nat) (shape : SplitShape) : Combine :=
  match FMap.get? s.modeD total with
  | none => Combine.fresh shape
  | some x => if x.runs = x.shape.runs then Combine.fresh shape else x
/-- R346: the members whose terms of a run overflowed are asked for them at the next scale level; engines of this device see it at
the combining core. -/
def State.askAgain (s : State) (total : Nat) (x : Combine) (w : Nat × Nat) : State :=
  (((x.owners.filter (fun o => o.1 == w.1)).map (fun o => o.2)).eraseDups.filter (fun m =>
    s.cascFormed && s.casc.isMember m && m != s.casc.ordinal)).foldl (fun s m =>
      s.sendMessage m msgTERMS 1 (leBytes 4 total ++ leBytes 2 w.1 ++ leBytes 1 w.2)) s

/-- Executes MODE_D_PARTIAL: a run record, or terms of a run, of a contributor; runs are added in run order, and a run of terms that
overflows is asked for again at the next scale level (R62, R344 to R347). A part that does not belong to its sum is ignored
(log 113). -/
def execModeDPartial (total : Nat) (shape : SplitShape) (contributor run : Nat) (part : SplitPart) (s : State) : Result :=
  let x := s.sumOf total shape
  if !s.up || !shape.ok || x.shape != shape then .next s
  else match x.take contributor run part with
    | none => .next s
    | some y =>
      let r := y.settle shape.runs
      let t := { s with modeD := FMap.set s.modeD total r.1 }
      match r.2 with
      | none => .next t
      | some w => .next (t.askAgain total r.1 w)

/-! ### What a member of a SPLIT-DIM cascade contributes (R587 to R589) -/

/-- A sum to which a member contributes: its name in messages, its terms, and which of them consume a subnormal operand. -/
structure SplitSum where
  name : Bytes
  terms : List Term
  din : List Bool
/-- R344, R587: the first run of contributor i among c, and the one behind its last. -/
def runShare (l c i n : Nat) : Nat × Nat := (i * ceilDiv n l / c, (i + 1) * ceilDiv n l / c)
/-- R345: the records of the runs that contributor i among c holds, each with its run. -/
def ownRecords (g l c i : Nat) (x : SplitSum) : List (Nat × RunR) :=
  let a := runShare l c i x.terms.length
  (List.range (a.2 - a.1)).map (fun k =>
    let r := a.1 + k
    let y := runReplay g ((runTerms l x.terms).getD r [])
    (r, { y with fl := y.fl ||| flIf (((x.din.drop (r * l)).take l).any (fun b => b)) flDIN }))
/-- R587: the combining member of an index: the one at position 0. -/
def Index.combiner (x : Index) : Nat := (x.placement.headD []).headD 0
/-- R588: this member's partials of a sum sent to the combining member: in mode A its own wide total in FP32, in mode D a record for
each of its runs. -/
def State.contribute (s : State) (x : Index) (modeA : Bool) (tag : BitVec 32) (y : SplitSum) : State :=
  let ms := x.placement.headD []
  let i := ms.idxOf s.casc.ordinal
  let head := leBytes 4 tag.toNat ++ y.name
  if modeA then
    let p := plainSum x.p.group x.p.run (shareOf x.p.run ms.length i y.terms)
    s.sendMessage x.combiner msgADD 1 (head ++ leBytes 4 (toFp32 p.1).toNat ++ leBytes 4 p.2.fl.toNat)
  else (ownRecords x.p.group x.p.run ms.length i y).foldl (fun s r =>
    s.sendMessage x.combiner msgPARTIAL 1 (head ++ leBytes 2 r.1 ++ partialRecord r.2)) s

/-- The score sum of prepared values with stored patterns of a format. -/
def scoreSum (metric : Nat) (f : Fmt) (name : Bytes) (q : List Fv) (pats : List Nat) : SplitSum :=
  ⟨name, scoreTerms metric q (values f pats), pats.map (isSubnormal f)⟩
/-- R281: the coarse sums of a prepared vector. -/
def Index.coarseSums (x : Index) (v : List (BitVec 32)) : List SplitSum :=
  let q := (coarseQuery x.p v).1
  x.centroids.map (fun c => scoreSum x.p.metric (coarseFmt x.p.coarse) (0 :: leBytes 4 c.1) q c.2)
/-- R236, R283: the sums of every codebook entry with the sub-vectors of a prepared vector. -/
def Index.entrySums (x : Index) (metric kind : Nat) (v : List (BitVec 32)) : List SplitSum :=
  (List.range x.p.m).flatMap (fun i => (x.sub i).mapIdx (fun j e =>
    scoreSum metric fFP32 (leBytes 1 kind ++ leBytes 2 i ++ leBytes 1 j) ((subVector x.p v i).map fp32) (e.map (fun b => b.toNat))))
/-- The name of an entry of a list image. -/
def entryName (kind l pos : Nat) : Bytes := leBytes 1 kind ++ leBytes 4 l ++ leBytes 4 pos
/-- R284: the sum of a coded key. -/
def codeSum (p : IParams) (t : QTable) (l pos : Nat) (code : Bytes) : SplitSum :=
  ⟨entryName 2 l pos, terms32 ((List.range p.m).map (fun i => (t.t32.getD i []).getD (subCode p code i) 0)), []⟩
/-- R589: the integer partial sum of a coded key over the sub-quantisers that a member's runs cover. -/
def intPartial (p : IParams) (c i : Nat) (t : QTable) (code : Bytes) : Nat :=
  let a := runShare p.run c i p.m
  sumBy (fun k => if k < p.m then (t.t8.getD k []).getD (subCode p code k) 0 else 0)
    ((List.range ((a.2 - a.1) * p.run)).map (fun k => a.1 * p.run + k))
/-- R589: the largest spread of the sub-tables that a member's runs cover. -/
def ownSpread (p : IParams) (c i : Nat) (t : List (List (BitVec 32))) : BitVec 32 :=
  let a := runShare p.run c i p.m
  greatest32 (((t.drop (a.1 * p.run)).take ((a.2 - a.1) * p.run)).map (fun row => (sub32 (greatest32 row) (least32 row)).1))
/-- R298: the sum of an exact key. -/
def exactSum (p : IParams) (v : List (BitVec 32)) (l pos : Nat) (stored : List Nat) : SplitSum :=
  scoreSum p.metric (fpFmt p.fpFmt) (entryName 3 l pos) (v.map fp32) stored
/-- R588: the sums of list assignment and encoding of a record, which a member always contributes in mode D. -/
def State.contributeRecord (s : State) (x : Index) (tag : BitVec 32) (v : List (BitVec 32)) : State :=
  (x.coarseSums v ++ x.entrySums 0 4 v).foldl (fun s y => s.contribute x false tag y) s

end Sys2Proof.Machine
end

