-- ==== Sys2Proof/Machine/Query.lean ====
section
/-! DEFINITION. The stages of the query path after admission: waiting for table area, coarse selection, table build,
sowing windows, list passes, re-rank, final merge and output (05; R270 to R306, R329, R337 to R341, R351, R439 to R452, R787). -/

namespace Sys2Proof.Machine

/-! ### Queries -/

/-- A query replaced. -/
def State.putQuery (s : State) (q : Query) : State :=
  s.setQueries (s.queries.map (fun p => if p.ref = q.ref then q else p))
/-- A query of a name. -/
def State.query? (s : State) (r : QRef) : Option Query := s.queries.find? (fun q => q.ref == r)
/-- Perturbation control 3 holds a unit (R681). -/
def State.unitHeld (s : State) (ty n : Nat) : Bool := s.dutyHeld 3 0xFF (unitKey ty n)
/-- A unit works on the query path: it serves what is placed on it while it drains (R651). -/
def State.unitWorks (s : State) (ty n : Nat) : Bool :=
  s.completing && (s.unitState ty n == 0 || s.unitState ty n == 1) && !s.unitHeld ty n
/-- R50: the commands of queries that p names end with ST_HW_FAULT. -/
def State.faultQueries (s : State) (p : Query → Bool) : State :=
  let rs := (s.queries.filter p).map (fun q => q.ref)
  s.stopCmds (fun c => rs.any (fun r => r.of c.ring c.seq)) stHW_FAULT
/-- R493: what a stage must read lies behind a channel that retrains: its class C queries end, the others wait. -/
def State.heldBack (s : State) (p : Query → Bool) : State := s.faultQueries (fun q => q.cls == 0 && p q)
/-- R329: what computing for queries raised is counted; a replay that does not repeat its run ends their command. -/
def State.queryReplays (s : State) (q : QRef) (f : Nat) (a : Acc) : State :=
  let t := s.noteReplays f a
  if s.replayDiffers f a then (t.logMismatch f q.ring q.seq).faultQueries (fun p => p.ref == q) else t
/-- R461: the place of a class C query in key order. -/
def Query.rank (q : Query) : Nat := ((q.key * 1024 + q.ref.ring) * 2 ^ 48 + q.ref.seq.toNat) * 256 + q.ref.q
/-- R56, R471: the query of a set that is served first: class C in key order, then class B and then class X, each in order of
arrival. -/
def firstServed (qs : List Query) : Option Query :=
  (argMin Query.rank (qs.filter (fun q => q.cls == 0))).orElse (fun _ =>
    (qs.find? (fun q => q.cls == 1)).orElse (fun _ => qs.head?))
/-- R56: a class C or class B query before class X ones. -/
def firstBuilt (qs : List Query) : Option Query := (qs.find? (fun q => q.cls != 2)).orElse (fun _ => qs.head?)
/-- The query scans nothing on this device: every slot of its index is another member's part. -/
def Query.scansNothing (q : Query) : Bool := q.ownSlots == some []
/-- The query's table is no longer needed: its core is released (R267). -/
def State.dropTable (s : State) (r : QRef) : State :=
  { s with cores := FMap.mapVals s.cores (fun _ c => { c with tables := c.tables.filter (fun t => t.ref != r) }) }

/-! ### TABLE_AREA_PLACEMENT -/

/-- Bytes of a query's table. -/
def State.queryTable (s : State) (q : Query) : Nat :=
  match s.index? q.field q.index with
  | none => 0
  | some x => x.tableBytes q.t8
/-- R56, R270: queries that wait for table area, class B before class X, each in order of arrival. -/
def State.waiters (s : State) : List Query :=
  let qs := s.queries.filter (fun q => q.core.isNone && q.cls != 0)
  qs.filter (fun q => q.cls == 1) ++ qs.filter (fun q => q.cls == 2)
/-- R270: a core has table area for a waiting query. -/
def State.fits (s : State) (q : Query) : Bool := (s.place q (s.queryTable q)).isSome
/-- The first waiting query for which a core has table area. -/
def State.waiter (s : State) : Option Query := s.waiters.find? s.fits
/-- R272, R273: windows that close once a waiting query has been placed: those of the queries that must go on waiting, and
one with `sowing_us` 0 that has all queries of its packet. -/
def State.afterPlacing (s : State) (q : Query) : State :=
  let s := (s.waiters.filter (fun w => !s.fits w)).foldl State.mustWait s
  match s.openWindow q.field q.index (q.cls == 2) with
  | none => s
  | some (n, w) =>
    if w.sowingUs = 0 && !s.queries.any (fun p => p.core.isNone && p.ref.of q.ref.ring q.ref.seq) then s.closeWindow n else s

/-- Executes TABLE_AREA_PLACEMENT (R270): the query takes its place in the order of placement. -/
def execTableAreaPlacement (s : State) : Result :=
  if !s.completing then .next s
  else match s.waiter with
    | none => .next s
    | some q => match s.place q (s.queryTable q) with
      | none => .next s
      | some t =>
        let here := t.queries.filter (fun p => p.ref == q.ref)
        .next ((t.setQueries (t.queries.filter (fun p => p.ref != q.ref) ++ here)).afterPlacing q)

/-! ### COULTER_TILE -/

/-- R787: the queries of the next tile. -/
def State.nextTile (s : State) : List Query :=
  let waiting := s.queries.filter (fun q => q.core.isSome && !q.coulterDone)
  match firstBuilt waiting with
  | none => []
  | some h => (waiting.filter (fun q => q.field == h.field && q.index == h.index && (q.cls == 2) == (h.cls == 2))).take 64
/-- Outstanding parts of searches of an index on a copy (R586). -/
def State.copyLoad (s : State) (key m : Nat) : Nat :=
  (s.queries.filter (fun q => indexKey q.field q.index == key &&
    (if m = s.casc.ordinal then q.ownSlots.any (fun l => !l.isEmpty) else q.parts.any (fun p => p.2 == m)))).length
/-- R585, R586: the copy to which a slot's part goes. -/
def State.copyFor (s : State) (key : Nat) (x : Index) (slot : Nat) : Option Nat :=
  argMin (fun m => s.copyLoad key m * 128 + m) (s.slotCopies x slot)
/-- Virtual channel of a class (Table 10.4). -/
def classVc (cls : Nat) : Nat := if cls = 0 then 1 else 2
/-- Tables 5.2 to 5.4: the block of a filter program. -/
def FilterProg.bytes (g : FilterProg) : Bytes :=
  fit 64 (leBytes 2 g.rules.length ++ leBytes 1 g.defaultAllow.toNat) ++ g.rules.flatMap (fun r =>
    fit 64 (leBytes 2 r.priority ++ leBytes 1 r.allow.toNat ++ leBytes 1 r.terms.length ++ zeros 12 ++ r.terms.flatMap (fun t =>
      leBytes 1 t.word ++ leBytes 1 t.op ++ zeros 2 ++ leBytes 4 t.a.toNat ++ leBytes 4 t.b.toNat)))
/-- R590: the trigger epoch of the image of list l that a query reads. -/
def Index.e0Of (x : Index) (q : Query) (l : Nat) : Nat := ((x.list l).imageFor q.epoch q.order).e0
/-- Content of a search part in the model's record of outputs, with the filter program and the bitmap image that the search
bound at its admission (R39); a SPLIT-DIM part names the images of its lists (R590) and the entries to re-rank. -/
def partBytes (x : Index) (q : Query) (slot : Nat) (lists : List Nat) (entries : List (Nat × Nat)) : Bytes :=
  let radius := match q.radius with
    | none => 0
    | some r => 1 + 256 * r.toNat
  let filter := match q.filter with
    | none => [0]
    | some g => 1 :: g.bytes
  let bitmap := match q.bitmap with
    | none => [0]
    | some b => 1 :: (leBytes 1 b.attrSel ++ leBytes 4 b.nbits ++ leBytes (b.nbits / 8) b.bits)
  filter ++ bitmap ++ leBytes 1 q.ref.ring ++ leBytes 6 q.ref.seq.toNat ++ leBytes 1 q.ref.q ++ leBytes 2 slot ++ leBytes 1 q.cls ++
    leBytes 8 q.epoch ++ leBytes 2 q.k ++ leBytes 1 q.rerank ++ leBytes 1 (if q.t8 then 1 else 0) ++ leBytes 1 q.bitmapId ++
    leBytes 5 radius ++ lists.flatMap (fun l => leBytes 4 l ++ leBytes 8 (x.e0Of q l)) ++
    entries.flatMap (fun e => leBytes 4 e.1 ++ leBytes 4 e.2) ++ q.vec.flatMap (fun v => leBytes 4 v.toNat)
/-- R587, R588: every other member of a SPLIT-DIM index is sent its part of a stage of a search. -/
def State.askRuns (s : State) (x : Index) (q : Query) (lists : List Nat) (entries : List (Nat × Nat)) : State :=
  if x.p.cascMode ≠ 2 || !s.slotCovered x 0 then s
  else ((x.placement.headD []).filter (fun m => m != s.casc.ordinal)).foldl
    (fun s m => s.sendMessage m msgSEARCH_PART (classVc q.cls) (partBytes x q 0 lists entries)) s
/-- R585, R44: the slots of a cascade index divided among their copies; an uncovered slot is left out with DEGRADED. -/
def State.splitQuery (s : State) (key : Nat) (x : Index) (q : Query) : State :=
  if x.p.cascMode = 0 then s.putQuery q
  else if x.p.cascMode = 2 then
    if s.slotCovered x 0 then (s.putQuery q).askRuns x q q.lists []
    else s.putQuery { q with ownSlots := some [], flags := q.flags ||| flDEGRADED }
  else
    let picks := (List.range x.placement.length).map (fun k => (k, s.copyFor key x k))
    let own := (picks.filter (fun p => p.2 == some s.casc.ordinal)).map (fun p => p.1)
    let far := picks.filterMap (fun p => match p.2 with
      | none => none
      | some m => if m = s.casc.ordinal then none else some (p.1, m))
    let q := { q with
      ownSlots := some own, parts := far
      flags := q.flags ||| flIf (picks.any (fun p => p.2.isNone)) flDEGRADED }
    far.foldl (fun s p => s.sendMessage p.2 msgSEARCH_PART (classVc q.cls) (partBytes x q p.1 q.lists [])) (s.putQuery q)
/-- R281, R282: coarse selection of one query. -/
def State.coarseSelect (s : State) (q : Query) : State :=
  match s.index? q.field q.index with
  | none => s
  | some x =>
    let s := s.askRuns x q [] []
    let r := x.coarse (x.searchWay s.fresh) q.vec
    let s := if x.modeA then { s with fresh := s.fresh + x.p.nlist } else s
    let q := { q with coulterDone := true, lists := pickLists q.nprobe r.1, flags := q.flags ||| r.2.fl }
    (s.splitQuery (indexKey q.field q.index) x q).queryReplays q.ref q.field r.2
/-- Coulters that score (R282). -/
def State.coultersUp (s : State) : List Nat := ([0, 1] : List Nat).filter (s.unitWorks 1)
/-- R282, R506: Coulter c scores the centroid of list l: l mod 2 names it; one that works alone scores every centroid. -/
def State.scores (s : State) (c l : Nat) : Bool := s.coultersUp == [c] || l % 2 == c
/-- Rows `first` to `first + n − 1` of the centroid table that a Coulter reads, each row where R505 and R506 place it. -/
def State.rowSpans (s : State) (f i : Nat) (p : IParams) (c first n : Nat) : List Span :=
  let hash := (s.cfg f).mapHash
  ((List.range n).filter (fun k => first + k < p.nlist && s.scores c (first + k))).map (fun k =>
    let l := first + k
    if hash then (⟨some i, .centroids, 0, l * p.rowBytes, p.rowBytes⟩ : Span)
    else ⟨some i, .centroids, l % 2, l / 2 * p.rowBytes, p.rowBytes⟩)
/-- R452: spans that may be fetched ahead: none whose pages cannot be read. -/
def State.readsAhead (s : State) (f cls unit : Nat) (xs : List Span) : State :=
  s.readSpans f cls unit false (xs.filter (fun a => !s.spanFault f a && (s.spanAway f a).isNone))
/-- R451, R452: while the Coulters score, every Harrow that works fetches the codebook of the tile's index, and each Coulter the
first rows of the next tile's centroids; the manual does not say how many, here 64, one group of its array (DESIGN CHOICE, log
107). -/
def State.prefetch (s : State) (h : Query) : State :=
  let s := match s.index? h.field h.index with
    | none => s
    | some x => ((List.range 8).filter (s.unitWorks 2)).foldl
      (fun s n => s.readsAhead h.field h.cls (unitKey 2 n) [codebookSpan h.index x.p]) s
  match s.nextTile with
  | [] => s
  | q :: _ => match s.index? q.field q.index with
    | none => s
    | some x => s.coultersUp.foldl (fun s c => s.readsAhead q.field q.cls (unitKey 1 c) (s.rowSpans q.field q.index x.p c 0 64)) s
/-- R351: one cell of an output tile: the coarse sum of a query and a centroid row as its last run leaves it. -/
def coulterCell (p : IParams) (v : List (BitVec 32)) (row : List Nat) : CoulterCell :=
  let ts := scoreTerms p.metric (coarseQuery p v).1 (values (coarseFmt p.coarse) row)
  let w := wideSum p.group p.run ts
  let r := runReplay p.group ((runTerms p.run ts).getLastD [])
  ⟨w.w, r.v, r.level⟩
/-- R351: the output tile that a Coulter holds once it has scored a tile: its last group of up to 64 centroids. -/
def State.holdTile (s : State) (c : Nat) (x : Index) (tile : List Query) : State :=
  let rows := x.centroids.filter (fun r => s.scores c r.1)
  let last := rows.drop ((rows.length - 1) / 64 * 64)
  let t : CoulterTile :=
    ⟨tile.map (fun q => q.ref), last.map (fun r => r.1), tile.flatMap (fun q => last.map (fun r => coulterCell x.p q.vec r.2))⟩
  { s with coulters := FMap.set s.coulters c t }
/-- R494, R499: the centroid table of a query's index cannot be read. -/
def State.coarseFault (s : State) (q : Query) : Bool :=
  match s.index? q.field q.index with
  | none => false
  | some x => (centroidSpans q.index x.p (s.cfg q.field).mapHash).any (s.spanFault q.field)
/-- The rows of a tile's centroid table read, each by the Coulter that scores it, and what the Coulters then hold. -/
def State.scoreRows (s : State) (h : Query) (x : Index) (tile : List Query) : State :=
  let cls := ((argMin (fun q : Query => q.cls) tile).map (fun q => q.cls)).getD 2
  s.coultersUp.foldl (fun s c =>
    (s.readSpans h.field cls (unitKey 1 c) false (s.rowSpans h.field h.index x.p c 0 x.p.nlist)).holdTile c x tile) s
/-- One tile, all of one index: each Coulter that works reads and scores its own rows, and the lists are picked. -/
def State.scoreTile (s : State) (h : Query) (tile : List Query) : State :=
  match s.index? h.field h.index with
  | none => s
  | some x =>
    if s.retrains h.field (centroidSpans h.index x.p (s.cfg h.field).mapHash) then
      s.heldBack (fun q => tile.any (fun t => t.ref == q.ref))
    else
    let s := if s.coarseFault h then s else s.scoreRows h x tile
    if s.coarseFault h then s.faultQueries (fun q => tile.any (fun t => t.ref == q.ref))
    else (tile.foldl State.coarseSelect s).prefetch h

/-- Executes COULTER_TILE (R279 to R282, R351, R452, R506, R585, R586, R787). -/
def execCoulterTile (s : State) : Result :=
  if s.coultersUp.isEmpty || ([0, 1] : List Nat).any (s.unitHeld 1) then .next s
  else match s.nextTile with
    | [] => .next s
    | h :: rest => .next (s.scoreTile h (h :: rest))

/-! ### DISTANCE_TABLE_BUILD -/

/-- Queries whose table is due. -/
def State.tableDue (s : State) : List Query :=
  s.queries.filter (fun q => q.core.isSome && q.coulterDone && q.table.isNone && !q.scansNothing)
/-- Executes DISTANCE_TABLE_BUILD on a Harrow (R283 to R285). -/
def execDistanceTableBuild (harrow : Nat) (s : State) : Result :=
  if 8 ≤ harrow then .fault .noSuchUnit
  else if !s.unitWorks 2 harrow then .next s
  else match firstBuilt s.tableDue with
    | none => .next s
    | some q => match s.index? q.field q.index with
      | none => .next s
      | some x =>
        let span := codebookSpan q.index x.p
        if s.retrains q.field [span] then .next (s.heldBack (fun p => p.ref == q.ref))
        else
        let s := if s.spanFault q.field span then s else s.readSpans q.field q.cls (unitKey 2 harrow) false [span]
        if s.spanFault q.field span then .next (s.faultQueries (fun p => p.ref == q.ref))
        else
          let t := x.buildTable q.vec q.t8
          .next ((s.putQuery { q with table := some t.1, flags := q.flags ||| t.2.fl }).queryReplays q.ref q.field t.2)

/-! ### Sowing windows -/

/-- Executes SOWING_WINDOW_CLOSE: `sowing_us` of the open window has passed (R272). -/
def execSowingWindowClose (field index : Nat) (classX : Bool) (s : State) : Result :=
  if !s.completing then .next s
  else match s.openWindow field index classX with
    | none => .next s
    | some (n, w) => .next ((s.advance (w.openAt + w.sowingUs * 1000)).closeWindow n)

/-- Visitors of a list and the image each reads. -/
def visitorsOf (x : Index) (qs : List Query) (l : Nat) : List (Query × Image) :=
  (qs.filter (fun q => q.lists.contains l && !q.scansNothing)).map (fun q => (q, (x.list l).imageFor q.epoch q.order))
/-- R275: the passes of one list: one for each image that its visitors read. -/
def passesOf (x : Index) (qs : List Query) (l : Nat) : List ListPass :=
  let vs := visitorsOf x qs l
  ((vs.map (fun v => v.2)).eraseDups).map (fun m =>
    let here := (vs.filter (fun v => v.2 == m)).map (fun v => v.1)
    ⟨l, m.e0, here.map (fun q => q.ref), argMin (fun k => k) ((here.filter (fun q => q.cls == 0)).map (fun q => q.key)), false, []⟩)
/-- R276: before in the order in which passes start. -/
def ListPass.before (a b : ListPass) : Bool :=
  match a.key, b.key with
  | some x, some y => x < y || (x == y && a.list < b.list)
  | some _, none => true
  | none, some _ => false
  | none, none => a.list < b.list
/-- The passes of a window may be formed: every query has its lists and its table (R451, Table 8.6). -/
def Window.ready (w : Window) (qs : List Query) : Bool :=
  w.closed && !w.formed && qs.all (fun q => q.coulterDone && (q.table.isSome || q.scansNothing))
/-- R275, R276: the passes of a closed window formed. -/
def State.formPasses (s : State) (n : Nat) (w : Window) (x : Index) (qs : List Query) : State :=
  let ls := (qs.flatMap (fun q => q.lists)).eraseDups
  let ps := sortLt ListPass.before (ls.flatMap (passesOf x qs))
  let s := s.setWindow n { w with formed := true, passes := ps }
  let s := qs.foldl (fun s q =>
    if q.scansNothing then s.dropTable q.ref else s.putQuery { q with todo := q.lists }) s
  s.traceRec 3 w.field noUnit (BitVec.ofNat 64 w.index) (traceWord 3 1 qs.length ps.length)

/-! ### LIST_PASS -/

/-- R287: the slot counts at the query's epoch and is not tombstoned there. -/
def Slot.liveAt (e : Slot) (epoch : Nat) : Bool :=
  e.born ≤ epoch && (match e.died with
    | none => true
    | some d => epoch < d)
/-- R25, R181, R288: a considered entry is a candidate of the query. -/
def Query.admits (q : Query) (attrs : List (BitVec 32)) : Bool :=
  (match q.bitmap with
    | none => true
    | some b => b.allows attrs) &&
  (match q.filter with
    | none => true
    | some f => f.allows attrs)
/-- The slots of an image that this device scans for a query. -/
def Query.considers (q : Query) (x : Index) (m : Image) : List Slot :=
  m.slots.filter (fun e => e.liveAt q.epoch && (match q.ownSlots with
    | none => true
    | some l => l.contains (x.slotOf e.id.toNat)))
/-- R21: candidates in order of the coded key. -/
def Cand.before (a b : Cand) : Bool := Machine.before a.key a.id.toNat b.key b.id.toNat
/-- The key by which the final merge orders a candidate (R300). -/
def Cand.final (c : Cand) : BitVec 32 := c.exact.getD c.key
/-- R21: candidates in order of the final key. -/
def Cand.finalBefore (a b : Cand) : Bool := Machine.before a.final a.id.toNat b.final b.id.toNat
/-- R28, R297: a key within the query's radius. -/
def Query.within (q : Query) (k : BitVec 32) : Bool :=
  match q.radius with
  | none => true
  | some r => (orderKey k).toNat ≤ (orderKey r).toNat
/-- R296: the first k′ of old and new candidates. -/
def Query.keep (q : Query) (new : List Cand) : List Cand := (sortLt Cand.before (q.cands ++ new)).take q.slots
/-- What scanning one image for one visitor gives: the query, its candidates, how many entries were considered and sent, and
what was raised. -/
structure Scan where
  q : Query
  new : List Cand
  considered : Nat
  sent : Nat
  acc : Acc
/-- R287 to R290, R297: an image scanned for a visitor; its candidates are still to be sent. -/
def Query.scan (q : Query) (x : Index) (way : SumWay) (t : QTable) (m : Image) : Scan :=
  let es := q.considers x m
  let cs := es.filter (fun e => q.admits e.attrs)
  let ks := (List.range cs.length).filterMap (fun n => match cs[n]? with
    | none => none
    | some e => let k := codedKey x.p (way n) t q.t8 e.code
                some ((⟨k.1, e.id, none⟩ : Cand), k.2))
  let acc := joinAll ks
  let new := (ks.map (fun k => k.1)).filter (fun c => q.rerank != 0 || q.within c.key)
  let n := if q.radius.isSome && q.rerank = 0 then new.length else cs.length
  ⟨{ q with qualified := q.qualified + n, flags := q.flags ||| acc.fl }, new, es.length, cs.length, acc⟩
/-- A pass ends for a visitor: its list is done, and after its last list its table is released. -/
def State.listDone (s : State) (q : Query) (l : Nat) : State :=
  let q := { q with todo := q.todo.erase l }
  let s := s.putQuery q
  if q.todo.isEmpty then s.dropTable q.ref else s
/-- The entry of an ID that a query reads: its list, image, position and slot. -/
def Index.entryOf (x : Index) (q : Query) (id : BitVec 64) : Option (Nat × Image × Nat × Slot) :=
  x.lists.findSome? (fun l =>
    let m := l.2.imageFor q.epoch q.order
    match m.slots.find? (fun e => e.id == id && e.liveAt q.epoch) with
    | none => none
    | some e => some (l.1, m, m.slots.idxOf e, e))
/-- Where the stored vectors of candidates lie. -/
def State.candSpans (s : State) (x : Index) (q : Query) (cs : List Cand) : List Span :=
  cs.filterMap (fun c => match x.entryOf q c.id with
    | none => none
    | some (l, m, pos, _) => some (vectorSpan q.index x.p (s.cfg q.field).mapHash l m pos))
/-- R439, R442: vectors that the Assayer of a query gathered before the selection of a list was decided, and that nothing
reads: how many is free (log 105). Gathers of what is not resident are dropped (R440). -/
def State.gatherAhead (s : State) (x : Index) (q : Query) (new : List Cand) : State :=
  if q.rerank = 0 then s
  else
    let lost := new.filter (fun c => !q.cands.any (fun d => d.id == c.id))
    let xs := (s.candSpans x q (lost.take (Config.gatherAhead s.fresh))).filter (fun a =>
      !s.spanFault q.field a && (s.spanAway q.field a).isNone)
    ({ s with fresh := s.fresh + 1 }.readSpans q.field q.cls (unitKey 4 q.assayer) true xs).countField q.field 16
      (sumBy (fun (a : Span) => a.len) xs)
/-- A number for what a query's visit to a list carries, by which a handle queue is assigned. -/
def QRef.work (r : QRef) (l : Nat) : Nat := ((r.ring * 2 ^ 48 + r.seq.toNat) * 256 + r.q) * 2 ^ 32 + l
/-- R289, R290, R296: one visitor served by a pass: its candidates go through a handle queue to its Crystalliser, which keeps the
first k′. No core drops a candidate, as R290 allows it to (log 105). -/
def State.visit (s : State) (x : Index) (l : Nat) (q : Query) : State :=
  let m := (x.list l).imageFor q.epoch q.order
  match q.table with
  | none => s
  | some t =>
    let r := q.scan x (x.searchWay s.fresh) t m
    let s := if x.modeA then { s with fresh := s.fresh + r.sent } else s
    let c := s.carry (q.ref.work l) (unitKey 0 (q.core.getD 0)) (unitKey 5 q.cryst) q.field r.new
    let q := { r.q with cands := q.keep c.2 }
    (((c.1.countField q.field 11 r.considered).countField q.field 12 r.sent).listDone q l |>.gatherAhead x q r.new).queryReplays
      q.ref q.field r.acc

/-! ### What a pass reads (R277, R437 to R442) -/

/-- The bytes a to a + n − 1 of what spans hold one after another. -/
def cropSpans : Nat → Nat → List Span → List Span
  | _, _, [] => []
  | a, n, x :: xs =>
    if n = 0 then []
    else if x.len ≤ a then cropSpans (a - x.len) n xs
    else
      let k := min n (x.len - a)
      { x with start := x.start + a, len := k } :: cropSpans 0 (n - k) xs
/-- Narrow reads of a visitor beside the stream of a pass: the directory record, the block table and tombstones of the blocks
that count for it, its version records and its bitmap. -/
def State.sideSpans (s : State) (x : Index) (l : Nat) (q : Query) : List Span :=
  let m := (x.list l).imageFor q.epoch q.order
  directorySpan q.index l :: (m.blocks.take (blocksFor (m.countAt q.epoch))).flatMap (fun b =>
    (scanSpans q.index x.p (s.cfg q.field).mapHash l b).take 2) ++ versionSpans q.index x q.epoch ++
    (match q.bitmap with
      | none => []
      | some b => [bitmapSpan q.bitmapId b])
/-- The byte sequence of the stream of a list image: every block of the chain (R439). -/
def State.imageStream (s : State) (f i : Nat) (x : Index) (l : Nat) (m : Image) : List Span :=
  m.blocks.map (scanSpan i x.p (s.cfg f).mapHash l)
/-- What a visitor's part of a pass reads. -/
def State.visitSpans (s : State) (x : Index) (l : Nat) (q : Query) : List Span :=
  let m := (x.list l).imageFor q.epoch q.order
  cropSpans 0 (blocksFor (m.countAt q.epoch) * x.p.scanBytes) (s.imageStream q.field q.index x l m) ++ s.sideSpans x l q
/-- What a pass needs and what its stream fetches beside it. -/
structure PassReads where
  /-- Narrow reads. -/
  side : List Span
  /-- The stream up to the last byte that a visitor needs. -/
  need : List Span
  /-- R438: what the fetcher has fetched beyond it: the rest of the last tile, and the four tiles that follow. -/
  ahead : List Span
  /-- R442: those of its bytes that no consumer gets. -/
  unused : Nat
  blocks : Nat
/-- The reads of a pass for its visitors. -/
def State.passReads (s : State) (f i : Nat) (x : Index) (l : Nat) (vs : List Query) : PassReads :=
  match vs with
  | [] => ⟨[], [], [], 0, 0⟩
  | v :: _ =>
    let m := (x.list l).imageFor v.epoch v.order
    let blocks := maxBy (fun q => blocksFor (m.countAt q.epoch)) vs
    let xs := s.imageStream f i x l m
    let used := blocks * x.p.scanBytes
    let total := m.blocks.length * x.p.scanBytes
    let tile := roundUp used 4096
    let here := fun (ys : List Span) => ys.filter (fun a => (s.spanAway f a).isNone && !s.spanFault f a)
    let rest := here (cropSpans used (min total tile - used) xs)
    let beyond := if used = 0 then [] else here (cropSpans tile (min total (tile + 16384) - tile) xs)
    ⟨(vs.flatMap (s.sideSpans x l)).eraseDups, cropSpans 0 used xs, rest ++ beyond, sumBy (fun a : Span => a.len) beyond, blocks⟩
/-- R685, R64: an armed forced page fault on a list, in a field in which perturbation takes effect. -/
def State.forcedFault (s : State) (f i l : Nat) : Option (Nat × Setting) :=
  if !s.perturbIn f then none
  else s.pert.slots.find? (fun p => p.2.control == 8 && p.2.armed && p.2.field == f && p.2.index == i && p.2.target.toNat == l)
/-- The setting has fired. -/
def State.disarm (s : State) (n : Nat) (x : Setting) : State :=
  { s with pert := { s.pert with slots := FMap.set s.pert.slots n { x with armed := false } } }
/-- The pass of a window is the one named. -/
def ListPass.same (a b : ListPass) : Bool := a.list == b.list && a.e0 == b.e0 && a.visitors == b.visitors
/-- A pass marked as started, with its trace record (Table 12.6 source 4). -/
def State.startPass (s : State) (n : Nat) (w : Window) (p : ListPass) (blocks : Nat) : State :=
  if p.started then s
  else (s.setWindow n { w with passes := w.passes.map (fun y => if y.same p then { y with started := true } else y) }).traceRec 4
    w.field noUnit (traceWord 4 0 w.index p.list) (traceWord 4 1 p.visitors.length blocks)
/-- R471: visitors in the order in which their cores serve them: class C in key order, then class B and class X in order of
arrival. -/
def serveOrder (vs : List Query) : List Query :=
  sortLt (fun a b => a.rank < b.rank) (vs.filter (fun q => q.cls == 0)) ++ vs.filter (fun q => q.cls != 0)
/-- The reads of a pass made: its narrow reads and its stream, with what the stream fetched ahead (R442, R443, R448). -/
def State.readPass (s : State) (f cls unit : Nat) (r : PassReads) : State :=
  (((s.readSpans f cls unit true r.side).readSpans f cls unit false r.need).readLines f cls unit false
    (s.linesOfSpans f r.ahead)).countField f 16 r.unused
/-- A pass that has read its whole image: every visitor is served. -/
def State.endPass (s : State) (n : Nat) (w : Window) (p : ListPass) (x : Index) (vs : List Query) (blocks : Nat) : State :=
  let s := (serveOrder vs).foldl (fun s q => s.visit x p.list q) (s.startPass n w p blocks)
  let s := match FMap.get? s.windows n with
    | none => s
    | some v => s.setWindow n { v with passes := v.passes.filter (fun y => !y.same p) }
  (s.countField w.field 13 1).traceRec 4 w.field noUnit (traceWord 4 0 w.index p.list) (traceWord 4 1 p.visitors.length blocks)
/-- R478: a halted pass goes on where it halted: what it has read it does not read again. -/
def State.noteRead (s : State) (n : Nat) (p : ListPass) (pages : List Nat) : State :=
  match FMap.get? s.windows n with
  | none => s
  | some w => s.setWindow n { w with passes := w.passes.map (fun y => if y.same p then { y with read := pages } else y) }
/-- R476: where a pass halts: a narrow read first, else its stream; whether it is the stream, what it reads, and the piece. -/
def State.passAway (s : State) (f : Nat) (done : List Nat) (r : PassReads) : Option (Bool × List Span × Segment) :=
  match s.firstAway f done r.side with
  | some g => some (false, r.side, g)
  | none => (s.firstAway f done r.need).map (fun g => (true, r.need, g))
/-- R275 to R278, R287 to R291, R480, R499, R685: one pass. -/
def State.runPass (s : State) (n : Nat) (w : Window) (p : ListPass) (x : Index) : State :=
  let f := w.field
  let me := Reader.pass n p.list p.e0
  let s := s.dropReader me
  let vs := p.visitors.filterMap s.query?
  let certified := vs.any (fun q => q.cls == 0)
  let cls := if certified then 0 else if w.classX then 2 else 1
  let bad := fun (s : State) (q : Query) => vs.any (fun v => v.ref == q.ref) && (s.visitSpans x p.list q).any (s.spanFault f)
  let r := s.passReads f w.index x p.list vs
  let requester := unitKey 0 ((vs.head?.bind (fun q => q.core)).getD 0)
  let halt := fun (s : State) (a : Bool × List Span × Segment) =>
    (s.startPass n w p r.blocks).haltReader f me cls requester a.1 a.2.1 a.2.2 (fun q => p.visitors.contains q)
  if vs.any (bad s) then s.faultQueries (bad s)
  else match (if certified || p.started then none else s.forcedFault f w.index p.list), (s.segments f 0 r.need).head? with
    | some (k, c), some g => halt ((s.disarm k c).countField f 29 1) (true, r.need, g)
    | _, _ => match s.passAway f p.read r with
      | some a =>
        if certified then
          (s.logEvent evCLASS_C_NOT_RESIDENT f 2 noUnit (leBytes 8 a.2.2.page.num)).faultQueries
            (fun q => q.cls == 0 && vs.any (fun v => v.ref == q.ref))
        else (halt s a).noteRead n p (s.readUpTo f p.read (if a.1 then r.side ++ r.need else r.side) a.2.2.page.num)
      | none =>
        if s.retrains f (r.side ++ r.need) then s.heldBack (fun q => vs.any (fun v => v.ref == q.ref))
        else
        let t := s.readPass f cls requester r
        if vs.any (bad t) then t.faultQueries (bad t) else t.endPass n w p x vs r.blocks
/-- A unit or a handle queue that a pass needs is held by a control (R681). -/
def State.passHeld (s : State) (p : ListPass) : Bool :=
  (p.visitors.filterMap s.query?).any (fun q => s.queueHeld (q.ref.work p.list) || (match q.core with
    | none => false
    | some c => s.unitHeld 0 c) || s.unitHeld 5 q.cryst || ((q.filter.isSome || q.bitmap.isSome) && s.unitHeld 3 q.sieve))

/-- Units on which a pass works for class C visitors: cores and Sieves. -/
def State.passUnits (s : State) (p : ListPass) : List Nat :=
  ((p.visitors.filterMap s.query?).filter (fun q => q.cls == 0)).flatMap (fun q =>
    unitKey 0 (q.core.getD 0) :: (if q.filter.isSome || q.bitmap.isSome then [unitKey 3 q.sieve] else []))
/-- R471: a pass of another window with an earlier key works on a core or a Sieve of the pass. -/
def State.passBehind (s : State) (n : Nat) (p : ListPass) : Bool :=
  let units := (p.visitors.filterMap s.query?).flatMap (fun q =>
    unitKey 0 (q.core.getD 0) :: (if q.filter.isSome || q.bitmap.isSome then [unitKey 3 q.sieve] else []))
  s.windows.any (fun w => w.1 != n && w.2.passes.any (fun y =>
    (match y.key, p.key with
      | some a, some b => a < b
      | some _, none => true
      | none, _ => false) && (s.passUnits y).any units.contains))
/-- R56: a class X pass waits while a pass of class C or class B work can run. -/
def State.yields (s : State) (w : Window) : Bool :=
  w.classX && s.windows.any (fun v => !v.2.classX && v.2.passes.any (fun y => !s.readerHalted (.pass v.1 y.list y.e0) &&
    !s.passHeld y))

/-- Executes LIST_PASS of a window: its passes are formed, then each event runs the first pass that is not halted. Class C work
of other windows goes first on shared cores and Sieves, and class C and class B work before class X (R56, R276, R471). -/
def execListPass (window : Nat) (s : State) : Result :=
  match FMap.get? s.windows window with
  | none => .next s
  | some w => match s.index? w.field w.index with
    | none => .next s
    | some x =>
      if !s.completing then .next s
      else
        let qs := w.queries.filterMap s.query?
        if w.ready qs then .next (s.formPasses window w x qs)
        else match w.passes.find? (fun p => !s.readerHalted (.pass window p.list p.e0)) with
          | none => .next s
          | some p =>
            if s.passHeld p || s.passBehind window p || s.yields w then .next s
            else .next (s.runPass window w p x)

/-! ### RERANK -/

/-- The query's own list passes and the parts of other members have ended. -/
def State.scanned (s : State) (q : Query) : Bool :=
  q.coulterDone && q.todo.isEmpty && q.parts.isEmpty && (match q.window with
    | none => false
    | some n => match FMap.get? s.windows n with
      | none => false
      | some w => w.formed)
/-- What the re-rank of a query reads. -/
def State.rerankSpans (s : State) (x : Index) (q : Query) : List Span :=
  s.candSpans x q (q.cands.filter (fun c => c.exact.isNone))
/-- R298: the exact keys of the shortlist. -/
def Query.withExact (q : Query) (x : Index) (way : SumWay) : Query × Acc :=
  let cs := (List.range q.cands.length).filterMap (fun n => match q.cands[n]? with
    | none => none
    | some c => match c.exact, x.entryOf q c.id with
      | none, some (_, _, _, e) => let k := exactKey x.p (way n) q.vec e.vec
                                   some ({ c with exact := some k.1 }, k.2)
      | _, _ => some (c, acc0))
  let a := joinAll cs
  ({ q with cands := cs.map (fun c => c.1), reranked := true, flags := q.flags ||| a.fl }, a)
/-- The re-rank of a query by its Assayer, which reads over the narrow path (R448 to R450). -/
def State.rerankQuery (s : State) (q : Query) (x : Index) : State :=
  let me := Reader.rerank q.ref
  let unit := unitKey 4 q.assayer
  let spans := s.rerankSpans x q
  let mine := fun (p : Query) => p.ref == q.ref
  if spans.any (s.spanFault q.field) then s.faultQueries mine
  else match s.firstAway q.field q.read spans with
    | some g =>
      if q.cls = 0 then
        (s.logEvent evCLASS_C_NOT_RESIDENT q.field 2 unit (leBytes 8 g.page.num)).faultQueries mine
      else ((s.dropReader me).putQuery { q with read := s.readUpTo q.field q.read spans g.page.num }).haltReader q.field me q.cls unit
        false spans g (fun r => r == q.ref)
    | none =>
      if s.retrains q.field spans then s.heldBack mine
      else
      let t := (s.dropReader me).readSpans q.field q.cls unit true spans
      if spans.any (t.spanFault q.field) then t.faultQueries mine
      else
        let r := q.withExact x (x.searchWay t.fresh)
        let t := t.askRuns x q [] (q.cands.filterMap (fun c => (x.entryOf q c.id).map (fun e => (e.1, e.2.2.1))))
        let t := if x.modeA then { t with fresh := t.fresh + q.cands.length } else t
        (t.putQuery r.1).queryReplays q.ref q.field r.2

/-- Executes RERANK on an Assayer (R27, R298, R448 to R450, R471). -/
def execRerank (assayer : Nat) (s : State) : Result :=
  if 4 ≤ assayer then .fault .noSuchUnit
  else if !s.unitWorks 4 assayer || s.narrowStalls (unitKey 4 assayer) then .next s
  else match firstServed (s.queries.filter (fun q => q.rerank != 0 && !q.reranked && q.assayer == assayer && s.scanned q &&
      !s.readerHalted (.rerank q.ref))) with
    | none => .next s
    | some q => match s.index? q.field q.index with
      | none => .next s
      | some x => .next (s.rerankQuery q x)

/-- What the present stage of a query reads. -/
def State.stageSpans (s : State) (q : Query) : List Span :=
  match s.index? q.field q.index with
  | none => []
  | some x =>
    if !q.coulterDone then centroidSpans q.index x.p (s.cfg q.field).mapHash
    else if q.table.isNone && !q.scansNothing then [codebookSpan q.index x.p]
    else if !s.scanned q then q.todo.flatMap (fun l => s.visitSpans x l q)
    else if q.rerank != 0 && !q.reranked then s.rerankSpans x q else []

/-! ### FINAL_MERGE -/

/-- R26 to R29, R299, R300: the ordered result, and the number of entries that qualify. -/
def Query.merge (q : Query) : Query :=
  let near := (sortLt Cand.finalBefore q.cands).filter (fun c => q.within c.final)
  { q with
    merged := some (near.take q.k)
    qualified := if q.radius.isSome && q.rerank != 0 then near.length else q.qualified }

/-- Executes FINAL_MERGE on a Crystalliser (R300, R471). -/
def execFinalMerge (crystalliser : Nat) (s : State) : Result :=
  if 4 ≤ crystalliser then .fault .noSuchUnit
  else if !s.unitWorks 5 crystalliser then .next s
  else match firstServed (s.queries.filter (fun q => q.merged.isNone && q.core.isSome && q.cryst == crystalliser && s.scanned q &&
      (q.rerank == 0 || q.reranked))) with
    | none => .next s
    | some q => .next (s.putQuery q.merge)

/-! ### RESULT_OUTPUT -/

/-- R30: the reported score of a key. -/
def reported (metric : Nat) (k : BitVec 32) : Fv := if metric = 0 then fp32 k else fneg (fp32 k)
/-- DIN of the SBAC parameters that a score consumes (Table 6.4, R341). -/
def Sbac.din (c : Sbac) : Flags :=
  let sub := fun (v : BitVec 32) => isSubnormal fFP32 v.toNat
  flIf (sub c.scale || sub c.bias || (c.act == 1 && (sub c.lo || sub c.hi))) flDIN
/-- R305, R306: one score as written, with what its output stage raised. -/
def Query.outScore (q : Query) (v : Fv) : Bytes × Flags :=
  let r := match q.sbac with
    | none => (v, 0)
    | some c => let u := sbacStage c v
                (u.1, u.2 ||| c.din)
  let o := toOut q.outFmt r.1
  (leBytes (outBytes q.outFmt) o.1, r.2 ||| o.2)
/-- R301 to R303, R305, R337, Table 5.6: a query's block and its flags. -/
def Query.block (q : Query) (p : IParams) (perturbed : Bool) : Bytes × Flags × Acc :=
  let es := q.merged.getD []
  let vs := es.map (fun c => reported p.metric c.final)
  let outs := vs.map q.outScore
  let sum := msSum p.group p.run vs
  let acc := if q.ms then sum.2.acc else acc0
  let fl := outs.foldl (fun f o => f ||| o.2) (q.flags ||| flIf perturbed flPERTURBED ||| acc.fl)
  let ms := if q.ms then leBytes 4 (toFp32 (msMax vs)).toNat ++ leBytes 4 (toFp32 sum.1).toNat else zeros 8
  (leBytes 4 es.length ++ leBytes 2 q.nprobe ++ leBytes 2 q.ref.q ++ leBytes 8 q.epoch ++ ms ++ leBytes 1 q.outFmt ++ zeros 3 ++
    leBytes 4 fl.toNat ++ leBytes 8 q.qualified ++ zeros 24 ++
    fit (roundUp (8 * q.k) 64) (es.flatMap (fun c => leBytes 8 c.id.toNat)) ++
    fit (roundUp (q.k * outBytes q.outFmt) 64) (outs.flatMap (fun o => o.1)), fl, acc)
/-- Queries of a command, in order. -/
def State.queriesOfCmd (s : State) (c : Cmd) : List Query :=
  sortLt (fun a b => a.ref.q < b.ref.q) (s.queries.filter (fun q => q.ref.of c.ring c.seq))
/-- The search that the Gleaner outputs next (R56, R471). -/
def State.nextOutput (s : State) : Option Cmd :=
  let done := s.cmds.filter (fun c => c.work == .search && c.stopped.isNone && (s.queriesOfCmd c).all (fun q => q.merged.isSome))
  match firstServed (done.flatMap s.queriesOfCmd) with
  | none => none
  | some q => done.find? (fun c => c.is q.ref.ring q.ref.seq)
/-- `info` of a search (Table 3.1). -/
def searchInfo (c : Cmd) (nprobe : Nat) (counts : List Nat) : Nat :=
  if c.opcode = 0x21 then counts.length + nprobe * 2 ^ 16 + sumBy (fun n => n) counts * 2 ^ 32
  else sumBy (fun n => n) counts + nprobe * 2 ^ 32
/-- Table 12.7 group 1, positions 5 and 10: what a completed search counts beside its flags. -/
def State.countSearch (s : State) (f queries : Nat) (late : Bool) : State :=
  let s := s.countField f 5 queries
  if late then s.countField f 10 1 else s
/-- R91, R301, R304: a search's blocks and record written. -/
def State.outputSearch (s : State) (c : Cmd) (p : IParams) (dataOk recordOk : Bool) : State :=
  let qs := s.queriesOfCmd c
  let bs := qs.map (fun q => q.block p c.perturbed)
  let fl := bs.foldl (fun f b => f ||| b.2.1) c.flags
  let addr := num c.pkt 16 8
  let f := ringFn c.ring
  let late : Bool := c.cls == 0 && c.bound.toNat * 1000 < s.tbk - c.tFetch
  let differs := bs.any (fun b => s.replayDiffers f b.2.2)
  let s := bs.foldl (fun s b => s.noteReplays f b.2.2) s
  let t := s.dropQueries (fun r => r.of c.ring c.seq)
  if differs then ((t.logMismatch f c.ring c.seq).finish c stHW_FAULT 0 c.bound.toNat fl recordOk).releasePages f
  else if dataOk then
    let size := match qs with
      | [] => 0
      | q :: _ => blockBytes q.k q.outFmt
    let t := t.countSearch f qs.length late
    let t := t.writeReply c ((List.range bs.length).map (fun n => (addr + n * size, (bs.getD n ([], 0, acc0)).1)))
    (t.finish c 0 (searchInfo c ((qs.head?.map (fun q => q.nprobe)).getD 0) (qs.map (fun q => (q.merged.getD []).length)))
      c.bound.toNat fl recordOk).releasePages f
  else (t.finish c stDMA_WRITE 0 c.bound.toNat fl recordOk).releasePages f

/-- Executes RESULT_OUTPUT on the Gleaner (R91, R301 to R306). -/
def execResultOutput (dataOk recordOk : Bool) (s : State) : Result :=
  if !s.unitWorks 8 0 then .next s
  else match s.nextOutput with
    | none => .next s
    | some c => match s.index? (ringFn c.ring) c.idx with
      | none => .next s
      | some x => .next (s.outputSearch c x.p dataOk recordOk)

/-! ### Replies of search parts (R585) -/

/-- The candidates of a reply. -/
def candBytes (l : List Cand) : Bytes :=
  l.flatMap (fun c => leBytes 4 c.key.toNat ++ leBytes 8 c.id.toNat ++ leBytes 1 (if c.exact.isSome then 1 else 0) ++
    leBytes 4 (c.exact.getD 0).toNat)
/-- A part's reply sent to the lead: its status, the flags that it raised, and its candidates. -/
def State.replyPart (s : State) (tag : BitVec 32) (status qualified : Nat) (fl : Flags) (cs : List Cand) : State :=
  s.sendMessage s.casc.leadOrdinal msgPART_REPLY 1
    (leBytes 4 tag.toNat ++ leBytes 2 status ++ leBytes 8 qualified ++ leBytes 4 fl.toNat ++ candBytes cs)
/-- R50, R481: a part of a search on this device ends with ST_HW_FAULT. -/
def State.failPart (s : State) (n : Nat) : State :=
  match FMap.get? s.served n with
  | none => s
  | some j =>
    let t := s.dropReader (.part n)
    ({ t with served := FMap.erase t.served n }).replyPart j.msg.tag stHW_FAULT 0 j.query.flags []

/-! ### FETCH_VECTOR -/

/-- The entry of an ID at an epoch, with where it lies (R253, R307). -/
def Index.entryAt (x : Index) (epoch order : Nat) (id : BitVec 64) : Option (Nat × Image × Nat × Slot) :=
  x.lists.findSome? (fun l =>
    let m := l.2.imageFor epoch order
    match m.slots.find? (fun e => e.id == id && e.liveAt epoch) with
    | none => none
    | some e => some (l.1, m, m.slots.idxOf e, e))
/-- R179, R180, R308, R309: the record of an ID. -/
def Index.vectorRecord (x : Index) (source : Nat) (e : Option Slot) : Bytes :=
  let n := if source = 0 then x.p.v else x.p.dim
  let vals : List Nat := match e with
    | none => []
    | some e =>
      if source = 0 then (values (fpFmt x.p.fpFmt) e.vec).map (fun v => (toFp32 v).toNat)
      else (List.range x.p.m).flatMap (fun i => ((x.sub i).getD (subCode x.p e.code i) []).map (fun v => v.toNat))
  fit 64 (leBytes 1 (if e.isSome then 1 else 0)) ++ fit (roundUp (4 * n) 64) (vals.flatMap (fun v => leBytes 4 v))
/-- What the vector of an entry reads. -/
def State.fetchSpans (s : State) (f i : Nat) (x : Index) (source : Nat) (e : Nat × Image × Nat × Slot) : List Span :=
  let hash := (s.cfg f).mapHash
  if source = 0 then [vectorSpan i x.p hash e.1 e.2.1 e.2.2.1]
  else scanSpans i x.p hash e.1 (e.2.1.blocks.getD (e.2.2.1 / 64) 0)

/-- The ID map and, for decoded vectors, the codebook: what a FETCH_VECTOR reads beside the records of its entries. -/
def fetchTables (i : Nat) (p : IParams) (source : Nat) : List Span :=
  wholePart i .idMap 0 (256 * p.buckets) :: (if source = 0 then [] else [codebookSpan i p])

/-- Executes FETCH_VECTOR (R126, R129, R179, R180, R253, R307 to R309). Its outcome is decided at admission; it completes once
every page that it reads has been resident, and a read of one that is not halts it (R450). -/
def execFetchVector (ring : Nat) (dma : Dma) (s : State) : Result :=
  s.runReading 0x23 ring dma (fun ctx s =>
    match FMap.get? s.indexes ctx.key with
    | none => no stBAD_INDEX
    | some x =>
      let source := num ctx.pkt 28 1
      let count := num ctx.block 0 4
      let epoch := if flag ctx.pkt 29 0 then num ctx.pkt 32 8 else x.epoch
      let n := if source = 0 then x.p.v else x.p.dim
      let size := 64 + roundUp (4 * n) 64
      checks [(num ctx.pkt 16 8 % 64 != 0 || 1 < source, stBAD_VALUE), (num ctx.pkt 24 4 < count * size, stBAD_LENGTH),
        (ctx.block.length < 64 + 8 * count, stBAD_LENGTH), (count == 0 || 4096 < count, stBAD_VALUE),
        (source == 0 && x.p.fpFmt == 0, stMODE_FORBIDS),
        (epoch != x.epoch && !x.holds.contains epoch, stEPOCH_UNAVAILABLE)] (fun _ =>
        let i := ctx.key % 64
        let es := (List.range count).map (fun k =>
          x.entryAt epoch s.order (BitVec.ofNat 64 (num ctx.block (64 + 8 * k) 8)))
        let spans := (es.filterMap (fun e => e)).flatMap (s.fetchSpans ctx.fn i x source)
        let found := (es.filter (fun e => e.isSome)).length
        reads { s with order := s.order + 1 } (fetchTables i x.p source ++ spans) (some (ctx.key, epoch, s.order)) found 0
          [(num ctx.pkt 16 8, es.flatMap (fun e => x.vectorRecord source (e.map (fun y => y.2.2.2))))]))

end Sys2Proof.Machine
end

