-- ==== Sys2Proof/Machine/Units.lean ====
section
/-! DEFINITION. Units: UNIT_FALLOW, its drain, frame moves, UNIT_TILL, self-tests and UNIT_STATUS (03, 0x40–0x42 and
0x69; 09, Fallow and till; 12, Fallow and till; R201 to R207, R217, R218, R539 to R545, R597, R598, R650 to R659). -/

namespace Sys2Proof.Machine

/-! ### Units and their offsets (Table 3.7) -/

/-- The unit whose byte stands at an offset of UNIT_STATUS. -/
def unitAt (off : Nat) : Option (Nat × Nat) :=
  ((List.range 13).find? (fun t => unitOffset t ≤ off && off < unitOffset t + unitCount t)).map (fun t => (t, off - unitOffset t))
/-- 512 bytes, one for each unit, and another value where Table 3.7 assigns no unit. -/
def unitBytes (value : Nat → Nat → Nat) (unassigned : Nat) : Bytes :=
  (List.range 512).map (fun o => match unitAt o with
    | none => BitVec.ofNat 8 unassigned
    | some (t, n) => BitVec.ofNat 8 (value t n))
/-- Executes UNIT_STATUS (R127, R201). -/
def execUnitStatus (ring : Nat) (dma : Dma) (s : State) : Result :=
  s.runPacket 0x42 ring dma (fun ctx s =>
    checks (replyChecks ctx.pkt 24 32 512) (fun _ => yesReply s 0 [(num ctx.pkt 24 8, unitBytes s.unitState 5)]))

/-! ### Work on a unit (Table 12.1) -/

/-- Queries with work on a unit. -/
def State.queriesOn (s : State) (ty n : Nat) : List Query :=
  match ty with
  | 0 => s.queries.filter (fun q => (s.core n).tables.any (fun t => t.ref == q.ref))
  | 3 => s.queries.filter (fun q => (q.filter.isSome || q.bitmap.isSome) && q.sieve == n && !s.scanned q)
  | 4 => s.queries.filter (fun q => q.rerank != 0 && q.assayer == n && !q.reranked)
  | 5 => s.queries.filter (fun q => q.core.isSome && q.merged.isNone && q.cryst == n)
  | 11 => s.queries.filter (fun q => q.parts.any (fun p => s.casc.routePort s.casc.ordinal p.2 s.casc.ordinal == some n))
  | 12 => s.queries.filter (fun q => q.parts.any (fun p => p.2 == n))
  | _ => []
/-- The run that a command waits for holds core n. -/
def State.runHolds (s : State) (c : Cmd) (n : Nat) : Bool :=
  match c.work with
  | .run id => (match FMap.get? s.runs id with
    | none => false
    | some x => x.cores.contains n)
  | _ => false
/-- R249: a COMMIT of a cascade index waits for a copy on member n, or for one that is reached through port n. -/
def State.commitUses (s : State) (c : Cmd) (ty n : Nat) : Bool :=
  match c.work with
  | .commit key _ _ _ => (match FMap.get? s.indexes key with
    | none => false
    | some x => x.placement.any (fun ms => ms.any (fun m => m != s.casc.ordinal &&
        ((ty == 12 && m == n) || (ty == 11 && s.casc.routePort s.casc.ordinal m s.casc.ordinal == some n)))))
  | _ => false
/-- Commands with work on a unit. -/
def State.usersOf (s : State) (ty n : Nat) : List Cmd :=
  let qs := s.queriesOn ty n
  s.cmds.filter (fun c => qs.any (fun q => q.ref.of c.ring c.seq) || (ty == 0 && s.runHolds c n) || s.commitUses c ty n)
/-- NEAR frames of a half, as (field, page). -/
def State.nearPages (s : State) (half : Nat) : List (Nat × Page) :=
  s.fields.flatMap (fun f => (f.2.pages.filter (fun p => match p.loc with
    | .near h _ => h == half
    | _ => false)).map (fun p => (f.1, p)))
/-- Messages queued on a port or unacknowledged. -/
def Port.quiet (x : Port) : Bool := x.waiting.isEmpty && x.replay.isEmpty
/-- Work that belongs to no command of a ring: a compaction, frames still to move, messages of a port. -/
def State.unitQuiet (s : State) (ty n : Nat) : Bool :=
  match ty with
  | 7 => (FMap.get? s.evaporators n).isNone
  | 10 => (s.nearPages (n / 4)).isEmpty
  | 11 => (s.port n).quiet
  | _ => true
/-- R651: nothing is left on the unit. -/
def State.drained (s : State) (ty n : Nat) : Bool := (s.usersOf ty n).isEmpty && s.unitQuiet ty n
/-- R205: no class C work is left on the unit; the moves of a pair and the messages of a port end first. -/
def State.drainedC (s : State) (ty n : Nat) : Bool :=
  !(s.queriesOn ty n).any (fun q => q.cls == 0) && (ty == 7 || s.unitQuiet ty n)

/-- R652: the commands with work on a unit end with ST_UNIT_WITHDRAWN; how many. -/
def State.withdraw (s : State) (ty n : Nat) : State × Nat :=
  let cs := s.usersOf ty n
  (cs.foldl (fun s c => s.stopCmd c stUNIT_WITHDRAWN (if ty = 0 then some n else none)) s, cs.length)
/-- R654: the compaction on an Evaporator discards its new image and waits again with the same E0. -/
def State.abortCompaction (s : State) (n : Nat) : State :=
  match FMap.get? s.evaporators n with
  | none => s
  | some e =>
    let t := { s.dropReader (.evaporator n) with evaporators := FMap.erase s.evaporators n }
    (t.enqueueLists e.key e.e0 [e.list]).releasePages (e.key / 64)

/-! ### Frame moves (R539, R540) -/

/-- A NEAR page moved to the other half: copied, its mapping switched, the old frame's lines gone; charged to the
regulator. None while no frame is free there. -/
def State.moveFrame (s : State) (f : Nat) (p : Page) : Option State :=
  match p.loc with
  | .near h _ => match s.freeNear (1 - h) with
    | none => none
    | some l =>
      let t := (s.dropLines f p.loc).setPage f { p with loc := l }
      some (t.charge f (2 * pageSize))
  | _ => some s
/-- Every NEAR frame of a half moved. -/
def State.moveHalf (s : State) (half : Nat) : Option State :=
  (s.nearPages half).foldl (fun t p => match t with
    | none => none
    | some t => t.moveFrame p.1 p.2) (some s)
/-- A UNIT_FALLOW of a pair of the half counts a moved frame. -/
def Cmd.frameMoved (half : Nat) (c : Cmd) : Cmd :=
  match c.work with
  | .fallow u m a => if u / 256 = 10 && u % 256 / 4 == half then { c with work := .fallow u (m + 1) a } else c
  | _ => c

/-- Executes FRAME_MOVE: one page of a half with a draining pair (R539, R540). -/
def execFrameMove (field page : Nat) (s : State) : Result :=
  if !s.completing then .next s
  else match s.field? field with
    | none => .next s
    | some x => match x.pages.find? (fun p => p.num == page) with
      | none => .next s
      | some p => match p.loc with
        | .near h _ =>
          if ([0, 1, 2, 3] : List Nat).all (fun k => s.unitState 10 (4 * h + k) != 1) then .next s
          else match s.moveFrame field p with
            | none => .next s
            | some t => .next ((t.setCmds (t.cmds.map (Cmd.frameMoved h))).pinLines field)
        | _ => .next s

/-! ### The cascade's part (R597, R598) -/

/-- A port code of Table 10.10 `ports` replaced. -/
def setCode (ports : BitVec 8) (p c : Nat) : BitVec 8 :=
  (ports &&& ~~~(3#8 <<< (2 * p))) ||| (BitVec.ofNat 8 c <<< (2 * p))
/-- The link of a port of member m down at both ends. -/
def Cascade.dropLink (x : Cascade) (m p : Nat) : Cascade :=
  let off := fun (rs : FMap CensusRec) (m p : Nat) => match FMap.get? rs m with
    | none => rs
    | some r => FMap.set rs m { r with ports := setCode r.ports p 3 }
  let rs := off x.records m p
  { x with records := match x.neighbour m p with
    | none => rs
    | some b => off rs b (p ^^^ 1) }
/-- The member's census status replaced. -/
def Cascade.withStatus (x : Cascade) (m st : Nat) : Cascade :=
  match FMap.get? x.records m with
  | none => x
  | some r => { x with records := FMap.set x.records m { r with status := st } }
/-- R598: no member unreachable after the fallow of a port, no slot uncovered after the fallow of a member. -/
def State.cascRoom (s : State) (ty n : Nat) : Bool :=
  if ty = 11 then
    let y := s.casc.dropLink s.casc.ordinal n
    !s.cascFormed || y.present.all (fun m => (FMap.get? y.dist m).isSome)
  else n != s.casc.ordinal && (s.setCasc (s.casc.withStatus n 3)).indexes.all (fun p =>
    (List.range p.2.placement.length).all (fun k => (s.setCasc (s.casc.withStatus n 3)).slotCovered p.2 k))
/-- R598: the census re-run on what the lead knows. -/
def State.recensus (s : State) (x : Cascade) : State := if s.leads then s.census x.records else s.setCasc x

/-! ### UNIT_FALLOW -/

/-- R520, R543: the slice is the last one in service of a field. -/
def State.lastSlice (s : State) (n : Nat) : Bool :=
  s.fields.any (fun f => f.2.slices.getLsbD n &&
    (List.range 32).all (fun m => m == n || !f.2.slices.getLsbD m || s.unitState 9 m != 0))
/-- R535, R539, R543: the way limits hold in the sets of the pages that p names, by field. -/
def State.movedFit (s : State) (p : Nat → Page → Bool) : Bool := s.fields.all (fun f => s.pinsFit f.1 (p f.1))
/-- R203, R204, R539, R543, R598: the fallow leaves room for what the unit holds. -/
def State.fallowRoom (s : State) (ty n : Nat) : Bool :=
  match ty with
  | 0 => true
  | 9 => (if s.ownership then !s.lastSlice n else s.unitState 9 (n ^^^ 1) == 0) &&
      (let t := s.setUnit 9 n { s.unit 9 n with state := 2 }
       t.movedFit (fun f p => p.lines.any (fun cj => s.home f cj.1 cj.2 == n)))
  | 10 => (match (s.setUnit 10 n { s.unit 10 n with state := 1 }).moveHalf (n / 4) with
    | none => false
    | some t => t.movedFit (fun f p => (s.nearPages (n / 4)).any (fun q => q.1 == f && q.2.num == p.num)))
  | 11 | 12 => s.cascRoom ty n
  | _ => ((List.range (unitCount ty)).filter (fun m => s.unitState ty m == 0)).length != 1
/-- R652: what force does at once. -/
def State.forceOut (s : State) (ty n : Nat) : State × Nat :=
  match ty with
  | 7 => (s.abortCompaction n, 0)
  | 9 | 10 => (s, 0)
  | 11 =>
    let r := s.withdraw 11 n
    (r.1.setPort n (r.1.port n).down, r.2)
  | _ => s.withdraw ty n
/-- R650: the unit drains from now on. -/
def State.startDrain (s : State) (ty n : Nat) (force byDevice : Bool) : State :=
  let t := s.unitTo ty n 1 byDevice
  t.setUnit ty n { t.unit ty n with force := force, byDevice := byDevice, leaving := true, entering := false }

/-- Executes UNIT_FALLOW (R201 to R207, R539, R543, R598, R650 to R654). -/
def execUnitFallow (ring : Nat) (dma : Dma) (s : State) : Result :=
  s.runPacket 0x40 ring dma (fun ctx s =>
    let ty := num ctx.pkt 16 1
    let n := num ctx.pkt 18 2
    let force := flag ctx.pkt 17 0
    checks [(unitCount ty ≤ n, stBAD_VALUE), (ty == 12 && !s.leads, stMODE_FORBIDS), (s.unitState ty n != 0, stBAD_STATE),
      (ty == 10 && s.fields.any (fun f => f.2.cfg.mapHash || f.2.tgt.mapHash), stMODE_FORBIDS),
      (!s.fallowRoom ty n, stNO_CAPACITY)] (fun _ =>
        let t := s.startDrain ty n force false
        let r := if force then t.forceOut ty n else (t, 0)
        stays r.1 (.fallow (unitKey ty n) 0 r.2)))

/-! ### The end of a drain -/

/-- The UNIT_FALLOW that waits for a unit. -/
def State.fallowCmd (s : State) (ty n : Nat) : Option (Cmd × Nat × Nat) :=
  s.cmds.findSome? (fun c => match c.work with
    | .fallow u m a => if u = unitKey ty n && c.stopped.isNone then some (c, m, a) else none
    | _ => none)
/-- The unit leaves service: a slice gives up its lines, a port and a member leave the cascade (R541, R544, R598). -/
def State.leaveService (s : State) (ty n : Nat) : State :=
  let s := s.unitTo ty n 2 (s.unit ty n).byDevice
  match ty with
  | 9 => s.retire true (fun l => l.slice == n)
  | 11 =>
    let t := s.setPort n { (s.port n).down with state := .off }
    if t.cascFormed then t.recensus (t.casc.dropLink t.casc.ordinal n) else t
  | 12 => s.recensus (s.casc.withStatus n 3)
  | _ => s
/-- R205, R651: what a draining unit's remaining work leaves: the unit fallow, the command completed. -/
def State.endDrain (s : State) (ty n aborted : Nat) (recordOk : Bool) : State :=
  let cDone := s.drainedC ty n
  let t := if s.drained ty n then s.leaveService ty n else s
  match t.fallowCmd ty n with
  | none => t
  | some (c, m, a) => if cDone then t.finish c 0 (info2 (a + aborted) m) 0 c.flags recordOk else t

/-- Executes FALLOW_DRAIN_END: from the planner epoch after the fallow on (R205, R650 to R652). -/
def execFallowDrainEnd (unitType instNo : Nat) (recordOk : Bool) (s : State) : Result :=
  if unitCount unitType ≤ instNo then .fault .noSuchUnit
  else
    let u := s.unit unitType instNo
    if !s.completing || u.state != 1 || u.leaving then .next s
    else
      let r := if u.force then s.forceOut unitType instNo else (s, 0)
      .next (r.1.endDrain unitType instNo r.2 recordOk)

/-! ### UNIT_TILL and self-tests -/

/-- Executes UNIT_TILL (R202, R207, R655, R656). -/
def execUnitTill (ring : Nat) (dma : Dma) (s : State) : Result :=
  s.runPacket 0x41 ring dma (fun ctx s =>
    let ty := num ctx.pkt 16 1
    let n := num ctx.pkt 18 2
    let st := s.unitState ty n
    checks [(unitCount ty ≤ n, stBAD_VALUE), (ty == 12 && !s.leads, stMODE_FORBIDS), (st != 2 && st != 4, stBAD_STATE)] (fun _ =>
      let t := s.setUnit ty n { s.unit ty n with before := st, entering := false, leaving := false, force := false }
      stays (t.unitTo ty n 3 false) (.till (unitKey ty n))))
/-- R597: a member that rejoins holds nothing: its copies stay fenced until they are copied. -/
def Index.rejoin (x : Index) (m : Nat) : Index :=
  let slots := (List.range x.placement.length).filter (fun k => (x.placement.getD k []).contains m)
  if x.p.cascMode = 0 then x else { x with fenced := (x.fenced ++ slots.map (fun k => (k, m))).eraseDups }
/-- SELF_TEST_RESULT logged for a unit (Table 12.5, R218). -/
def State.logTest (s : State) (ty n : Nat) (pass : Bool) : State :=
  s.logEvent evSELF_TEST_RESULT 0xFF (if ty = 8 && !pass then 3 else Config.severity evSELF_TEST_RESULT) (unitKey ty n)
    [if pass then 0 else 1]
/-- The UNIT_TILL that waits for a unit's test. -/
def State.tillCmd (s : State) (ty n : Nat) : Option Cmd :=
  s.cmds.find? (fun c => c.work == .till (unitKey ty n) && c.stopped.isNone)

/-- Executes UNIT_SELF_TEST_END; for a cascade member `pass` says that the device at its position has the same serial
number (R206, R542, R545, R597, R655). -/
def execUnitSelfTestEnd (unitType instNo : Nat) (pass recordOk : Bool) (s : State) : Result :=
  if unitCount unitType ≤ instNo then .fault .noSuchUnit
  else match s.tillCmd unitType instNo with
    | none => .next s
    | some c =>
      if !s.completing || s.unitState unitType instNo != 3 then .next s
      else
        let t := if unitType = 12 then s else s.logTest unitType instNo pass
        if pass then
          let t := t.setUnit unitType instNo { t.unit unitType instNo with entering := true }
          let t := if unitType = 12 then { t with indexes := FMap.mapVals t.indexes (fun _ x => x.rejoin instNo) } else t
          .next (t.finish c 0 0 0 c.flags recordOk)
        else .next ((t.unitTo unitType instNo 4 false).finish c stHW_FAULT 0 0 c.flags recordOk)

/-- R217, Table 12.2: a SELF_TEST tests the unit. -/
def State.testable (s : State) (ty n : Nat) : Bool := ty != 8 && ty != 12 && (s.unitState ty n == 2 || s.unitState ty n == 4)
/-- R217: the units that a scope selects. -/
def scopeUnits (scope ty n : Nat) : List (Nat × Nat) :=
  if scope = 1 then [(ty, n)] else (List.range 512).filterMap unitAt
/-- R217, R659, 03 (Units): a tested unit reads 3 while its test runs, then what it read before, or 4 when it failed. -/
def State.testUnit (s : State) (u : Nat × Nat) (pass : Bool) : State :=
  let before := s.unitState u.1 u.2
  ((s.unitTo u.1 u.2 3 false).logTest u.1 u.2 pass).unitTo u.1 u.2 (if pass then before else 4) false

/-- Executes SELF_TEST; `failing` are the units whose test fails (R217, R218, R658, R659). -/
def execSelfTest (ring : Nat) (dma : Dma) (failing : List (Nat × Nat)) (s : State) : Result :=
  s.runPacket 0x69 ring dma (fun ctx s =>
    let scope := num ctx.pkt 16 1
    let ty := num ctx.pkt 17 1
    let n := num ctx.pkt 18 2
    checks (([(1 < scope, stBAD_VALUE), (scope == 1 && unitCount ty ≤ n, stBAD_VALUE)] : List (Bool × Nat)) ++ replyChecks ctx.pkt 24 32 512) (fun _ =>
      if scope = 1 && ty == 8 then stays s (.gleanerTest (s.epoch + 1))
      else
        let us := (scopeUnits scope ty n).filter (fun u => s.testable u.1 u.2)
        let bad := us.filter (fun u => failing.contains u)
        let t := us.foldl (fun t u => t.testUnit u (!failing.contains u)) s
        yesReply t (info2 (us.length - bad.length) bad.length)
          [(num ctx.pkt 24 8, unitBytes (fun a b => if us.contains (a, b) then (if bad.contains (a, b) then 1 else 0) else 2) 2)]))

/-- R218: a SELF_TEST of the Gleaner that may start: the class C searches admitted before its epoch have ended. -/
def State.gleanerDue (s : State) : Option Cmd :=
  s.cmds.find? (fun c => c.stopped.isNone && (match c.work with
    | .gleanerTest e => e ≤ s.epoch && s.queries.all (fun q => q.cls != 0 || e ≤ q.admitted / 10000)
    | _ => false))

/-- Executes GLEANER_TEST_START: the test in place and its outcome (R218, R659). -/
def execGleanerTestStart (pass replyOk recordOk : Bool) (s : State) : Result :=
  if !s.completing then .next s
  else match s.gleanerDue with
    | none => .next s
    | some c =>
      let t := s.logTest 8 0 pass
      if replyOk then
        let t := t.writeReply c [(num c.pkt 24 8, unitBytes (fun a _ => if a = 8 then (if pass then 0 else 1) else 2) 2)]
        .next (t.finish c 0 (if pass then info2 1 0 else info2 0 1) 0 c.flags recordOk)
      else .next (t.finish c stDMA_WRITE 0 0 c.flags recordOk)

end Sys2Proof.Machine
end

