-- ==== Sys2Proof/Machine/Planner.lean ====
section
/-! DEFINITION. The planner epoch: every 10 µs, accepted configuration, unit states and core reservations take effect
(R414, R458, R459, R472, R473, R511, R519, R525, R544, R545, R606, R640, R650, R655). -/

namespace Sys2Proof.Machine

/-! ### Fields -/

/-- R473: the rates that class C searches admitted before planner epoch `epoch` keep, when it brings another rate. -/
def Field.turnRates (x : Field) (epoch : Nat) (classC : Bool) : List (Nat × Nat) :=
  if !classC then []
  else if x.present && x.tgt.regRate != x.cfg.regRate then (x.cfg.regRate, epoch) :: x.keepRates
  else x.keepRates
/-- A field with its accepted configuration in force (R142, R459, R472, R511). -/
def Field.turn (x : Field) (f now : Nat) (classC : Bool) : Field :=
  let y := if x.present then x.refill now else { x with tokens := x.tgt.regBurst * 1024000, tokensAt := now }
  { y with
    cfg := x.tgt, present := true, keepRates := x.turnRates (now / 10000) classC
    tokens := min y.tokens (x.tgt.regBurst * 1024000), slices := if f = 0 then x.tgt.ownedSlices else x.slices }
/-- R497: the check frames that a field's data frames need; `n` bounds their number. -/
def State.addChecks : Nat → State → Nat → State
  | 0, s, _ => s
  | n + 1, s, f => match s.field? f with
    | none => s
    | some x =>
      if checksFor x.cfg (x.frames - x.checks) ≤ x.checks then s
      else match s.freeFrame x .check 0 with
        | none => s
        | some l => State.addChecks n (s.setField f (x.addPage ⟨none, .check, 0, x.checks, true⟩ l s.tbk false)) f
/-- R497, R499: inline ECC goes on or off in a field: its check frames come or go; without checks no chunk is uncorrectable. -/
def State.turnEcc (s : State) (f : Nat) (old : FieldCfg) : State :=
  match s.field? f with
  | none => s
  | some x =>
    if x.cfg.ecc == old.ecc then s
    else if x.cfg.ecc then s.addChecks (x.frames + 1) f
    else { s.trimChecks f with badChunks := s.badChunks.filter (fun b => b.1 != f) }
/-- R687: the controls that a field's turn clears: its own and the device-scope ones when `perturb` goes to 0, the device-scope
ones when the field is created. -/
def Field.clears (x : Field) (f : Nat) (y : Setting) : Bool :=
  if !x.present then y.field == 0xFF
  else x.cfg.perturb && !x.tgt.perturb && (y.field == f || y.field == 0xFF)
/-- Field f at the planner epoch: removed (R144, log 108), or with its accepted configuration. -/
def State.turnField (s : State) (f : Nat) : State :=
  match s.field? f with
  | none => s
  | some x =>
    if x.removing then s.removeField f
    else
      let t := s.setField f (x.turn f s.tbk (s.queries.any (fun q => q.field == f && q.cls == 0)))
      ({ t with pert := t.pert.keep (fun y => !x.clears f y) }.turnEcc f x.cfg)
/-- R525: a change of slicing mode empties the Granary and every read cache; back under hash slicing no field owns a
slice. -/
def State.turnSlicing (s : State) : State :=
  let due := match s.field? 0 with
    | none => false
    | some x => x.cfg.granaryOwned
  if due = s.ownership then s
  else
    let s := { s.retire true (fun _ => true) with ownership := due }
    if due then s
    else { s with fields := FMap.mapVals s.fields (fun f x => if f = 0 then x else { x with slices := 0 }) }

/-! ### Units -/

/-- A unit enters service (R542, R545, R550, R597, R655). -/
def State.enterUnit (s : State) (ty n : Nat) : State :=
  let s := s.unitTo ty n 0 false
  match ty with
  | 11 => s.setPort n { Port.reset with state := .detect, since := s.tbk }
  | 12 => (s.recensus (s.casc.withStatus n 0)).sendMessage n msgCONFIG 0 (leBytes 1 0 ++ leBytes 1 6 ++ leBytes 8 s.epoch)
  | _ => s
/-- R650, R655: a unit's state at the planner epoch. -/
def State.turnUnit (s : State) (key : Nat) : State :=
  let ty := key / 256
  let n := key % 256
  let u := s.unit ty n
  if u.entering then (s.setUnit ty n { u with entering := false, leaving := false }).enterUnit ty n
  else if u.leaving then s.setUnit ty n { u with leaving := false }
  else s
/-- R519, R520, R544, R545: lines leave the slices that are no longer their home, and pinned lines follow. -/
def State.rehome (s : State) : State :=
  let s := s.retire true (fun l => l.slice != s.home l.field l.channel l.j)
  s.fields.foldl (fun t f => t.pinLines f.1) s
/-- A Granary slice changes service at this epoch. -/
def State.slicesTurn (s : State) : Bool := s.units.any (fun u => u.1 / 256 == 9 && (u.2.entering || u.2.leaving))

/-! ### Core reservations (R413, R414) -/

/-- Cores that runs of a field hold. -/
def State.coresOfField (s : State) (f : Nat) : Nat :=
  sumBy (fun r => if r.2.field = f then r.2.cores.length else 0) s.runs
/-- R413: the run may proceed as far as its program and its field go. -/
def State.mayReserve (s : State) (x : Run) : Bool :=
  x.phase == .waiting && !s.runs.any (fun r => r.2.field == x.field && r.2.prog == x.prog && r.2.phase != .waiting) &&
    s.coresOfField x.field + x.nCores ≤ (s.cfg x.field).programCores
/-- R414: the lowest-numbered in-service cores that no run holds; none where they are too few. -/
def State.freeCores (s : State) (n : Nat) : Option (List Nat) :=
  let free := (s.inService 0).filter (fun c => (s.core c).run.isNone)
  if free.length < n then none else some (free.take n)
/-- Cores reserved for a run, numbered run-logically (R416). -/
def State.reserve (s : State) (id : Nat) (x : Run) (cs : List Nat) : State :=
  let s := s.setRun id { x with phase := .reserved, cores := cs }
  (List.range cs.length).foldl (fun s k =>
    let c := cs.getD k 0
    s.setCore c { s.core c with run := some id, logical := k }) s
/-- R414: the run's reservation at a planner epoch, where it may proceed. -/
def State.tryReserve (s : State) (id : Nat) : State :=
  match FMap.get? s.runs id with
  | none => s
  | some x =>
    if s.mayReserve x then
      match s.freeCores x.nCores with
      | none => s
      | some cs => s.reserve id x cs
    else s
/-- Reservations of every waiting run, oldest first. -/
def State.reserveRuns (s : State) : State := (s.runs.map (fun r => r.1)).foldl State.tryReserve s

/-! ### The epoch -/

/-- R606: copies that are whole again take part. -/
def Index.rejoined (x : Index) : Index :=
  { x with fenced := x.fenced.filter (fun c => !x.copied.contains c), copied := [] }
/-- Something accepted waits for the planner epoch. -/
def State.changeDue (s : State) : Bool :=
  s.fields.any (fun f => f.2.removing || !f.2.present || f.2.cfg != f.2.tgt) ||
    s.units.any (fun u => u.2.entering || u.2.leaving) || s.pert.clearDue
/-- Trace source 7 (Table 12.6); the manual gives no codes for the kind of change (log 10). -/
def State.tracePlanner (s : State) (due : Bool) : State :=
  if due then s.traceRec 7 0xFF noUnit (BitVec.ofNat 64 s.epoch) (traceWord 7 1 s.epoch 0) else s
/-- What the epoch does to fields, units, controls and runs. -/
def State.turnAll (s : State) : State :=
  let moved := s.slicesTurn
  let s := (s.fields.map (fun f => f.1)).foldl State.turnField s
  let s := s.turnSlicing
  let s := (s.units.map (fun u => u.1)).foldl State.turnUnit s
  let s := if moved then s.rehome else s
  let s := { s with indexes := FMap.mapVals s.indexes (fun _ x => x.rejoined) }
  let s := if s.pert.clearDue then { s with pert := { s.pert with slots := [], clearDue := false } } else s
  s.reserveRuns.refreshCasc

/-- Executes PLANNER_EPOCH: TBK reaches the next multiple of 10 µs (R458, R459). -/
def execPlannerEpoch (s : State) : Result :=
  if !s.completing then .next s
  else
    let t := s.advance ((s.tbk / 10000 + 1) * 10000)
    .next (t.turnAll.tracePlanner s.changeDue).takeBusy

end Sys2Proof.Machine
end

