-- ==== Sys2Proof/Machine/Programs.lean ====
section
/-! DEFINITION. Field programs: images, PROGRAM_LOAD, runs, and the saved tile files (03, 0x38–0x3B; R194 to R200, R352
to R355, R406 to R428). -/

namespace Sys2Proof.Machine

/-! ### Tiles (Table 6.8) -/

/-- A row of Table 6.8. -/
structure Shape where
  rows : Nat
  cols : Nat
  /-- Bytes of an element. -/
  elem : Nat
  deriving DecidableEq, Repr

/-- Table 6.8; none for a reserved code. -/
def shapeOf (c : Nat) : Option Shape :=
  match c with
  | 0x00 => some ⟨16, 16, 4⟩ | 0x01 => some ⟨32, 16, 4⟩ | 0x02 => some ⟨32, 32, 4⟩ | 0x03 => some ⟨64, 32, 4⟩
  | 0x04 => some ⟨16, 16, 8⟩ | 0x05 => some ⟨16, 16, 5⟩ | 0x06 => some ⟨32, 16, 5⟩ | 0x07 => some ⟨16, 16, 2⟩
  | 0x08 => some ⟨16, 16, 2⟩ | 0x09 => some ⟨32, 32, 2⟩ | 0x0A => some ⟨32, 32, 2⟩ | 0x0B => some ⟨32, 32, 1⟩
  | 0x0C => some ⟨64, 64, 1⟩ | 0x0D => some ⟨64, 64, 2⟩ | 0x0E => some ⟨16, 16, 4⟩ | _ => none
/-- Bytes b_c of a tile. -/
def Shape.bytes (x : Shape) : Nat := x.rows * x.cols * x.elem
/-- Tiles of the shape in the tile file (R352). -/
def Shape.count (x : Shape) : Nat := 8192 / x.bytes
/-- R353: the shape carries scale fields. -/
def scaled (c : Nat) : Bool := c ≤ 3
/-- R354: bytes of the packed scale fields. -/
def Shape.scaleBytes (x : Shape) (c : Nat) : Nat := if scaled c then roundUp (x.rows * x.cols / 4) 64 else 0
/-- R354: bytes that TILE_READ and TILE_WRITE carry. -/
def Shape.wire (x : Shape) (c : Nat) : Nat := x.bytes + x.scaleBytes c
/-- R354: scale fields packed four to a byte. -/
def packScales (l : List Nat) : Bytes :=
  (List.range (ceilDiv l.length 4)).map (fun i => BitVec.ofNat 8 (sumBy (fun k => l.getD (4 * i + k) 0 * 4 ^ k) [0, 1, 2, 3]))
/-- Scale field i of packed fields. -/
def scaleAt (b : Bytes) (i : Nat) : Nat := num b (i / 4) 1 / 4 ^ (i % 4) % 4
/-- R354: tile n of a shape as TILE_READ writes it. -/
def tileWire (c : Nat) (x : Shape) (n : Nat) (tile scale : Mem) : Bytes :=
  let at_ := n * x.bytes
  Mem.readN 0 tile at_ x.bytes ++
    fit (x.scaleBytes c) (packScales ((List.range (x.rows * x.cols)).map (fun i => (Mem.read 0 scale (at_ / 4 + i)).toNat)))
/-- The scale fields of tile n as written: zero for shapes without them (R353). -/
def scalesIn (c : Nat) (x : Shape) (b : Bytes) : Bytes :=
  (List.range (x.bytes / 4)).map (fun i => if scaled c then BitVec.ofNat 8 (scaleAt (b.drop x.bytes) i) else 0)

/-! ### Images (R406 to R409) -/

/-- Segments of an image, as its descriptors. -/
def segments (b : Bytes) : List Bytes := (List.range (num b 10 2)).map (fun n => slice b (256 + 64 * n) 64)
/-- Table 7.6: `kind`. -/
def segKind (d : Bytes) : Nat := num d 0 1
/-- Table 7.6: `offset`. -/
def segOffset (d : Bytes) : Nat := num d 4 4
/-- Table 7.6: `length`. -/
def segLength (d : Bytes) : Nat := num d 8 4
/-- The payload of a segment. -/
def segData (b d : Bytes) : Bytes := slice b (num d 12 4) (segLength d)
/-- The code words of a payload. -/
def wordsOf (p : Bytes) : List (BitVec 32) :=
  (List.range (ceilDiv p.length 4)).map (fun n => BitVec.ofNat 32 (num p (4 * n) 4))
/-- `entry` of thread t. -/
def entryOfThread (b : Bytes) (t : Nat) : Nat := num b (16 + 2 * t) 2
/-- R407: a segment of an image is well formed. -/
def segmentOk (b d : Bytes) : Bool :=
  segKind d ≤ 1 && segOffset d % 4 == 0 && num d 12 4 + segLength d ≤ b.length && num d 16 16 < 2 ^ num b 6 2 &&
    (segKind d != 0 || (wordsOf (segData b d)).all codeOk)
/-- R407, Table 7.5: the image is valid. -/
def imageOk (b : Bytes) : Bool :=
  num b 0 4 == 0x4B514650 && num b 4 2 == 1 && 1 ≤ num b 6 2 && num b 6 2 ≤ 128 && num b 8 1 ≤ 1 &&
    [4, 8, 16].contains (num b 9 1) && 1 ≤ num b 10 2 && num b 10 2 ≤ 64 && 256 + 64 * num b 10 2 ≤ b.length &&
    num b 12 4 == (crc32c (overlay b 12 (zeros 4))).toNat &&
    (List.range 8).all (fun t => entryOfThread b t < 4096 || entryOfThread b t == 0xFFFF) &&
    !(List.range 8).all (fun t => entryOfThread b t == 0xFFFF) && num b 32 4 ≤ 512 &&
    num b 36 4 % 64 == 0 && num b 40 4 % 64 == 0 && num b 40 4 ≤ 65536 && num b 44 4 % 64 == 0 &&
    num b 36 4 + num b 40 4 ≤ 131072 && (segments b).all (segmentOk b)
/-- R408: the segments fit each core. -/
def segmentsFit (b : Bytes) : Bool :=
  (segments b).all (fun d => segOffset d + segLength d ≤ (if segKind d = 0 then 16384 else 131072))
/-- R196: a run of the program is outstanding. A run that still waits for cores counts, since it runs the image that
stands when it starts (the spec says `running`; log 99). -/
def State.programBusy (s : State) (f id : Nat) : Bool := s.runs.any (fun r => r.2.field == f && r.2.prog == id)
/-- R200: a run of the program has started and has not ended. -/
def State.programRuns (s : State) (f id : Nat) : Bool :=
  s.runs.any (fun r => r.2.field == f && r.2.prog == id && r.2.started)

/-- R410: the image, the saved tile files and the scratch pages of a program. -/
def programSpans (id : Nat) (image : Bytes) : List Span :=
  [⟨none, .program id, 0, 0, image.length⟩, ⟨none, .tileFile id, 0, 0, num image 6 2 * 8704⟩,
    ⟨none, .scratch id, 0, 0, num image 32 4 * pageSize⟩]
/-- Executes PROGRAM_LOAD (R194 to R197, R406 to R411, R494). -/
def execProgramLoad (ring : Nat) (dma : Dma) (s : State) : Result :=
  s.runReading 0x38 ring dma (fun ctx s =>
    let id := num ctx.pkt 16 1
    let b := ctx.block
    match s.field? ctx.fn with
    | none => no stNOT_FOUND
    | some f =>
      checks [(!s.programsIn ctx.fn, stNOT_PERMITTED), (7 < id, stBAD_VALUE), (!imageOk b, stIMAGE_INVALID),
        ((FMap.get? f.programs id).isSome && !flag ctx.pkt 17 0, stEXISTS), (s.programBusy ctx.fn id, stBAD_STATE),
        (!segmentsFit b || f.cfg.programCores < num b 6 2, stLIMIT)] (fun _ =>
          match (s.setField ctx.fn { f with programs := FMap.set f.programs id ⟨b, [], [], []⟩ }).syncPages ctx.fn with
          | none => no stNO_CAPACITY
          | some t => stores (t.extend 5 (eventRecord 0x50 (leBytes 1 ctx.fn ++ leBytes 1 id ++ b))) (programSpans id b) 0 0))

/-! ### Runs -/

/-- R418: bytes of the reply of a run. -/
def replySize (image : Bytes) : Nat := 64 + 16 * num image 6 2 + num image 6 2 * num image 40 4
/-- Executes PROGRAM_RUN (R194, R198, R412, R413, R418). -/
def execProgramRun (ring : Nat) (dma : Dma) (s : State) : Result :=
  s.runPacket 0x39 ring dma (fun ctx s =>
    let id := num ctx.pkt 16 1
    let slice_ := num ctx.pkt 20 4
    match s.field? ctx.fn with
    | none => no stNOT_FOUND
    | some f =>
      checks [(!s.programsIn ctx.fn, stNOT_PERMITTED),
        (7 < id || slice_ == 0 || f.cfg.programSliceUs < slice_ || num ctx.pkt 24 8 % 64 != 0, stBAD_VALUE),
        (65536 < ctx.block.length, stBAD_LENGTH)] (fun _ =>
        match FMap.get? f.programs id with
        | none => no stNOT_FOUND
        | some p =>
          let n := num p.image 6 2
          checks [(num ctx.pkt 32 4 < replySize p.image, stBAD_LENGTH),
            (131072 < num p.image 44 4 + ctx.block.length, stBAD_LENGTH),
            ((s.inService 0).length < n, stNO_CAPACITY)] (fun _ =>
              let x : Run := ⟨ctx.ring, ctx.cmd.seq, ctx.fn, id, n, [], .waiting, ctx.block, slice_, 0, false⟩
              stays { s with runs := FMap.set s.runs s.nextRun x, nextRun := s.nextRun + 1 } (.run s.nextRun))))

/-- The code words that a payload leaves from word w on: bytes of its last word beyond its length stay as they were
(R409). -/
def wordsOver (imem : FMap (BitVec 32)) (w : Nat) (p : Bytes) : List (BitVec 32) :=
  if p.length % 4 = 0 then wordsOf p
  else wordsOf (p ++ (leBytes 4 (FMap.getD imem (w + p.length / 4) 0).toNat).drop (p.length % 4))
/-- R417, R409: a segment loaded into a core's memories. -/
def Core.loadSegment (c : Core) (image d : Bytes) : Core :=
  let p := segData image d
  let w := segOffset d / 4
  let ws := wordsOver c.imem w p
  let code := (List.range ws.length).foldl (fun m n => FMap.set m (w + n) (ws.getD n 0)) c.imem
  if segKind d = 0 then { c with imem := code }
  else { c with mem := Mem.write 0 c.mem (segOffset d) p }
/-- R364: thread t at the start of a run. -/
def startThread (image : Bytes) (t : Nat) : Thread :=
  if entryOfThread image t = 0xFFFF then Thread.reset
  else { Thread.reset with pc := BitVec.ofNat 12 (entryOfThread image t), status := .running }
/-- R417: core n of a run loaded from the program. -/
def Core.start (c : Core) (p : Program) (n : Nat) (args : Bytes) : Core :=
  let base : Core := { Core.reset with
    run := c.run, logical := c.logical, tables := c.tables
    consts := (List.range 8).map (fun i => BitVec.ofNat 32 (num p.image (48 + 4 * i) 4))
    twin := num p.image 8 1 == 1, group := num p.image 9 1
    tile := FMap.getD p.tiles n [], scale := FMap.getD p.scales n []
    threads := (List.range 8).map (fun t => (t, startThread p.image t)) }
  let c := ((segments p.image).filter (fun d => (num d 16 16).testBit n)).foldl (fun c d => c.loadSegment p.image d) base
  { c with mem := Mem.write 0 c.mem (num p.image 44 4) args }
/-- R415: every reserved core is free of tables. -/
def State.runReady (s : State) (x : Run) : Bool := x.phase == .reserved && x.cores.all (fun c => (s.core c).tables.isEmpty)

/-- The command of a run, where nothing has stopped it. -/
def State.runCmd (s : State) (x : Run) : Option Cmd := s.cmds.find? (fun c => c.is x.ring x.seq && c.stopped.isNone)
/-- R417: what the start of a run reads: the segments of the image and the saved tile files of its cores. -/
def startSpans (id : Nat) (image : Bytes) : List Span := (programSpans id image).take 2
/-- R417: every core of a run loaded, and the run started. -/
def State.startRun (s : State) (run : Nat) (x : Run) (p : Program) : State :=
  let t := (List.range x.cores.length).foldl (fun t n =>
    t.setCore (x.cores.getD n 0) ((t.core (x.cores.getD n 0)).start p n x.args)) s
  t.setRun run { x with phase := .running, tStart := s.tbk }

/-- Executes PROGRAM_RUN_START: the start waits for a channel that retrains, and a run whose image or tile files cannot be read
ends with ST_HW_FAULT (R364, R415 to R417, R419, R493, R494, R499). -/
def execProgramRunStart (run : Nat) (s : State) : Result :=
  if !s.completing then .next s
  else match FMap.get? s.runs run with
    | none => .next s
    | some x => match (s.field? x.field).bind (fun f => FMap.get? f.programs x.prog), s.runCmd x with
      | some p, some c =>
        let spans := startSpans x.prog p.image
        if !s.runReady x then .next s
        else if spans.any (s.spanFault x.field) then .next (s.stopCmd c stHW_FAULT none)
        else if s.retrains x.field spans then .next s
        else
          let t := s.readSpans x.field c.runClass replyUnit false spans
          if spans.any (t.spanFault x.field) then .next (t.stopCmd c stHW_FAULT none) else .next (t.startRun run x p)
      | _, _ => .next s

/-- Executes PROGRAM_SLICE_EXPIRE: the slice of a running run has passed (R198, R419, R425, R427). -/
def execProgramSliceExpire (run : Nat) (s : State) : Result :=
  if !s.completing then .next s
  else match FMap.get? s.runs run with
    | none => .next s
    | some x => match s.runCmd x with
      | none => .next s
      | some c =>
        if x.phase != .running then .next s
        else
          let t := s.advance (x.tStart + x.sliceUs * 1000)
          .next (t.stopCmd c stPROGRAM_TIMEOUT none)

/-- R424: every core of the run has ended and its stream writes have completed. -/
def State.runOver (s : State) (id : Nat) (x : Run) : Bool :=
  x.phase == .running && !s.granary.any (fun l => l.field == x.field && (match l.pend with
    | none => false
    | some (p, _) => p == x.prog)) && x.cores.all (fun c => (s.core c).threads.all (fun t => t.2.status != .running)) &&
    s.streams.all (fun y => y.2.run != some id || num y.2.desc 1 1 != 1 || (match y.2.phase with
      | .ended _ => true
      | _ => false))

/-- Executes PROGRAM_RUN_END; `cycles` are the SCK cycles of each core. A tile file that cannot be saved ends the run with
ST_HW_FAULT (R199, R423, R424, R427, R428, R494). -/
def execProgramRunEnd (run : Nat) (cycles : List Nat) (replyOk recordOk : Bool) (s : State) : Result :=
  if !s.completing then .next s
  else match FMap.get? s.runs run with
    | none => .next s
    | some x => match s.runCmd x with
      | none => .next s
      | some c =>
        let files : List Span := [⟨none, .tileFile x.prog, 0, 0, x.nCores * 8704⟩]
        if !s.runOver run x then .next s
        else if files.any (s.spanLost x.field) then .next (s.endRun run c stHW_FAULT none cycles replyOk recordOk)
        else if s.retrains x.field files then .next s
        else .next ((s.storeSpans x.field files).endRun run c 0 none cycles replyOk recordOk)

/-! ### TILE_READ and TILE_WRITE -/

/-- R200, R355: what TILE_READ and TILE_WRITE check before their buffers. -/
def tileChecks (s : State) (ctx : Ctx) (f : Field) : List (Bool × Nat) :=
  let id := num ctx.pkt 16 1
  let shape := shapeOf (num ctx.pkt 19 1)
  let cores := match FMap.get? f.programs id with
    | none => 128
    | some p => num p.image 6 2
  [(!s.programsIn ctx.fn, stNOT_PERMITTED), (7 < id || cores ≤ num ctx.pkt 17 1, stBAD_VALUE),
    ((match shape with
      | none => true
      | some x => x.count ≤ num ctx.pkt 18 1), stBAD_VALUE)]
/-- R200: the program is loaded and does not run. -/
def savedChecks (s : State) (ctx : Ctx) (f : Field) : List (Bool × Nat) :=
  [((FMap.get? f.programs (num ctx.pkt 16 1)).isNone, stNOT_FOUND), (s.programRuns ctx.fn (num ctx.pkt 16 1), stBAD_STATE)]

/-- Where a tile lies in the saved tile files: 8,704 bytes a core (R410), its bytes and, from 8,192, its scale fields (DESIGN CHOICE,
log 110). -/
def tileSpans (id core c : Nat) (x : Shape) (n : Nat) : List Span :=
  ⟨none, .tileFile id, 0, core * 8704 + n * x.bytes, x.bytes⟩ ::
    (if scaled c then [⟨none, .tileFile id, 0, core * 8704 + 8192 + n * x.bytes / 16, x.bytes / 16⟩] else [])

/-- Executes TILE_READ (R194, R200, R354, R355, R494, R499). -/
def execTileRead (ring : Nat) (dma : Dma) (s : State) : Result :=
  s.runReading 0x3A ring dma (fun ctx s =>
    match s.field? ctx.fn with
    | none => no stNOT_FOUND
    | some f =>
      checks (tileChecks s ctx f) (fun _ =>
        match shapeOf (num ctx.pkt 19 1) with
        | none => no stBAD_VALUE
        | some x =>
          let c := num ctx.pkt 19 1
          checks (replyChecks ctx.pkt 24 32 (x.wire c) ++ savedChecks s ctx f) (fun _ =>
            match FMap.get? f.programs (num ctx.pkt 16 1) with
            | none => no stNOT_FOUND
            | some p =>
              let n := num ctx.pkt 17 1
              reads s (tileSpans (num ctx.pkt 16 1) n c x (num ctx.pkt 18 1)) none (x.wire c) 0 [(num ctx.pkt 24 8,
                tileWire c x (num ctx.pkt 18 1) (FMap.getD p.tiles n []) (FMap.getD p.scales n []))])))

/-- A tile written into a saved tile file. -/
def Program.putTile (p : Program) (core c : Nat) (x : Shape) (n : Nat) (b : Bytes) : Program :=
  { p with
    tiles := FMap.set p.tiles core (Mem.write 0 (FMap.getD p.tiles core []) (n * x.bytes) (fit x.bytes b))
    scales := FMap.set p.scales core (Mem.write 0 (FMap.getD p.scales core []) (n * x.bytes / 4) (scalesIn c x b)) }

/-- Executes TILE_WRITE (R194, R200, R353 to R355, R494). -/
def execTileWrite (ring : Nat) (dma : Dma) (s : State) : Result :=
  s.runReading 0x3B ring dma (fun ctx s =>
    match s.field? ctx.fn with
    | none => no stNOT_FOUND
    | some f =>
      checks (tileChecks s ctx f) (fun _ =>
        match shapeOf (num ctx.pkt 19 1) with
        | none => no stBAD_VALUE
        | some x =>
          let c := num ctx.pkt 19 1
          checks (([(ctx.block.length < x.wire c, stBAD_LENGTH),
            ((scalesIn c x ctx.block).any (fun v => v == 3), stBAD_VALUE)] : List (Bool × Nat)) ++ savedChecks s ctx f) (fun _ =>
            match FMap.get? f.programs (num ctx.pkt 16 1) with
            | none => no stNOT_FOUND
            | some p =>
              let q := p.putTile (num ctx.pkt 17 1) c x (num ctx.pkt 18 1) ctx.block
              stores (s.setField ctx.fn { f with programs := FMap.set f.programs (num ctx.pkt 16 1) q })
                (tileSpans (num ctx.pkt 16 1) (num ctx.pkt 17 1) c x (num ctx.pkt 18 1)) 0 0)))

end Sys2Proof.Machine
end

