-- ==== Sys2Proof/Machine/Cores.lean ====
section
/-! DEFINITION. How a furrow core issues an instruction of a thread: what every instruction shares, traps, and the flow
of control with its repeat levels (07; R364, R369, R371 to R379, R424). -/

namespace Sys2Proof.Machine

/-! ### An issue -/

/-- An instruction about to issue: physical core and thread, the thread's registers, its word, and its run. -/
structure Slot3 where
  core : Nat
  thread : Nat
  c : Core
  t : Thread
  w : BitVec 32
  id : Nat
  run : Run

/-- What an instruction does. -/
inductive Issue where
  /-- The rest of the state after it, and the thread, which goes on behind the instruction. -/
  | next (s : State) (t : Thread)
  /-- As `next`, but the thread is already placed. -/
  | placed (s : State) (t : Thread)
  /-- R369, R424: the thread traps and nothing else changes. -/
  | trap (cause : Nat)
  /-- R378: the thread is not ready; what waiting for it leaves. -/
  | wait (s : State)
  /-- A code that the manual reserves. -/
  | reserved

/-- The word at a program counter (R365). -/
def Core.word (c : Core) (pc : BitVec 12) : BitVec 32 := FMap.getD c.imem pc.toNat 0
/-- The instruction of a thread that may issue: its run executes, the thread runs, and the core takes new work. -/
def State.issuing (s : State) (core thread : Nat) : Option Slot3 :=
  let c := s.core core
  let t := c.thread thread
  match c.run with
  | none => none
  | some id => match FMap.get? s.runs id with
    | none => none
    | some x =>
      if s.completing && x.phase == .running && t.status == .running && !s.unitHeld 0 core then
        some ⟨core, thread, c, t, c.word t.pc, id, x⟩
      else none

/-! ### Flow of control (R371 to R376) -/

/-- Levels suspended by the newest CALL. -/
def Thread.suspended (t : Thread) : Nat :=
  match t.rs with
  | [] => 0
  | e :: _ => e.levels
/-- Levels opened since the newest CALL, innermost first. -/
def Thread.active (t : Thread) : List Level := t.levels.take (t.levels.length - t.suspended)
/-- The suspended levels. -/
def Thread.outer (t : Thread) : List Level := t.levels.drop (t.levels.length - t.suspended)
/-- R371, R373: where execution goes behind the word at `pc`, with the active levels then open. -/
def afterWord (pc : BitVec 12) : List Level → BitVec 12 × List Level
  | [] => (pc + 1, [])
  | l :: rest =>
    if l.last = pc then
      if 1 < l.count.toNat then (l.start, { l with count := l.count - 1 } :: rest)
      else afterWord pc rest
    else (pc + 1, l :: rest)
/-- The thread placed behind the word at `pc`, with the given active levels. -/
def Thread.behind (t : Thread) (pc : BitVec 12) (active : List Level) : Thread :=
  let r := afterWord pc active
  { t with pc := r.1, levels := r.2 ++ t.outer }
/-- The thread behind its own instruction. -/
def Thread.advance (t : Thread) : Thread := t.behind t.pc t.active
/-- The block holds a word address; blocks may wrap (R371). -/
def Level.holds (l : Level) (a : BitVec 12) : Bool := (a - l.start).toNat ≤ (l.last - l.start).toNat
/-- R374: a taken branch: levels whose block does not hold the target end, with those inside them. -/
def Thread.branch (t : Thread) (target : BitVec 12) : Thread :=
  { t with pc := target, levels := (t.active.reverse.takeWhile (fun l => l.holds target)).reverse ++ t.outer }
/-- R371, R372, R375: a repeat of the block behind the instruction up to `last`; `room` entries of the loop buffer are
free. -/
def Thread.repeat_ (t : Thread) (last : BitVec 12) (count : BitVec 16) (room : Nat) : Thread :=
  let len := (last - t.pc).toNat
  if count = 0 then t.behind last t.active
  else { t with
    pc := t.pc + 1, levels := ⟨count, t.pc + 1, last, if len ≤ room then len else 0⟩ :: t.levels }
/-- Free entries of a core's loop buffer (R375). -/
def Core.loopRoom (c : Core) : Nat := 64 - sumBy (fun t => sumBy (fun l => l.buffered) t.2.levels) c.threads

/-! ### Outcomes -/

/-- R369, R424, Table 7.8: a trap stops its thread; the core keeps its first one. -/
def State.trapThread (s : State) (core thread cause : Nat) : State :=
  let c := s.core core
  let t := c.thread thread
  let c := c.setThread thread { t with status := .trapped cause t.pc }
  s.setCore core { c with firstTrap := match c.firstTrap with
    | none => some (thread, cause, t.pc)
    | some f => some f }
/-- An instruction of class and code `op` of a thread issues, if that is the thread's next one. -/
def State.issue (s : State) (cls op core thread : Nat) (body : Slot3 → Issue) : Result :=
  if 128 ≤ core || 8 ≤ thread then .fault .noSuchUnit
  else match s.issuing core thread with
    | none => .next s
    | some x =>
      if !isWord cls op x.w then .next s
      else match body x with
        | .next t y => .next (t.setThread core thread y.advance)
        | .placed t y => .next (t.setThread core thread y)
        | .trap cause => .next (s.trapThread core thread cause)
        | .wait t => .next t
        | .reserved => .fault .reservedCode
/-- An instruction that changes only registers of its thread. -/
def State.issueReg (s : State) (cls op core thread : Nat) (body : Slot3 → Thread) : Result :=
  s.issue cls op core thread (fun x => .next s (body x))

end Sys2Proof.Machine
end

