-- ==== Sys2Proof/Machine/CoreMemory.lean ====
section
/-! DEFINITION. Fixed-point and load/store instructions of the furrow cores (Table 7.4 classes 3 and 4; R343, R366 to
R370, R384 to R388, R394 to R396, R420, R422, R532 to R534). -/

namespace Sys2Proof.Machine

/-! ### Dual operands (format M) -/

/-- Local addresses of the two operands. -/
def Slot3.ax (x : Slot3) : Nat := localAddr (x.t.reg (aReg (wAx x.w)))
/-- Local address of the `ay` operand. -/
def Slot3.ay (x : Slot3) : Nat := localAddr (x.t.reg (aReg (wAy x.w)))
/-- Bytes of each access of a dual-operand instruction (the worked example's 32). -/
def dualSize : Nat := 32
/-- R367, R384, R387: the trap of a dual-operand instruction. -/
def Slot3.dualTrap (x : Slot3) : Option Nat :=
  if x.c.twin && wP x.w then some 6
  else if !aligned x.ax dualSize || !aligned x.ay dualSize then some 1
  else if !x.c.twin && (!bankX x.ax || bankX x.ay) then some 2
  else none
/-- R368: both address registers after the accesses. -/
def Slot3.dualModify (x : Slot3) (t : Thread) : Thread :=
  postModify (postModify t (wAx x.w) (wNx x.w) (wPmx x.w) dualSize) (wAy x.w) (wNy x.w) (wPmy x.w) dualSize
/-- A dual-operand instruction. -/
def State.dual (s : State) (cls op core thread : Nat) (f : Slot3 → State × Thread) : Result :=
  s.issue cls op core thread (fun x =>
    match x.dualTrap with
    | some n => .trap n
    | none =>
      let r := f x
      .next r.1 (x.dualModify r.2))

/-! ### Fixed point (class 3) -/

/-- R395: a lane takes an exact sum, or the nearer end of the range. -/
def fixAdd (l : FixLane) (p : Int) : FixLane :=
  let v := l.v.toInt + p
  if v < -549755813888 then ⟨BitVec.ofInt 40 (-549755813888), true⟩
  else if 549755813887 < v then ⟨BitVec.ofInt 40 549755813887, true⟩
  else ⟨BitVec.ofInt 40 v, l.sat⟩
/-- R394: the product of lane n of MAC16 operands. -/
def mac16Lane (a b : Bytes) (n : Nat) : Int :=
  (BitVec.ofNat 16 (num a (2 * n) 2)).toInt * (BitVec.ofNat 16 (num b (2 * n) 2)).toInt
/-- R394: the products of the pair of lanes n of MAC8 operands. -/
def mac8Lane (a b : Bytes) (n : Nat) : Int :=
  (num a (2 * n) 1 * num b (2 * n) 1 + num a (2 * n + 1) 1 * num b (2 * n + 1) 1 : Nat)
/-- R385: the P operand that a dual-operand word names. -/
def Slot3.pConst (x : Slot3) : Option (BitVec 32) := if wP x.w then some (x.c.consts.getD (wPIndex x.w) 0) else none
/-- R394, R395: accumulator `t` after products of both operands; what a P operand makes of a lane is open (R385, log 72). -/
def Slot3.mac (x : Slot3) (op : Nat) (f : Bytes → Bytes → Nat → Int) : Thread :=
  let a := x.c.load x.ax dualSize
  let b := x.c.load x.ay dualSize
  x.t.setAcc (wT x.w) ((List.range 16).map (fun n =>
    let l := fixAdd (x.t.accLane (wT x.w) n) (f a b n)
    match x.pConst with
    | none => l
    | some k => let r := Config.pMac op n l.v l.sat k
                ⟨r.1, r.2⟩))

/-- Executes MAC16 (R384 to R387, R394, R395). -/
def execMac16 (core thread : Nat) (s : State) : Result := s.dual 3 0x01 core thread (fun x => (s, x.mac 0x01 mac16Lane))
/-- Executes MAC8 (R384 to R387, R394, R395). -/
def execMac8 (core thread : Nat) (s : State) : Result := s.dual 3 0x02 core thread (fun x => (s, x.mac 0x02 mac8Lane))
/-- Executes ACLR on accumulator `t` (R395). -/
def execAclr (core thread : Nat) (s : State) : Result :=
  s.issueReg 3 0x04 core thread (fun x => x.t.setAcc (wT x.w) (List.replicate 16 ⟨0, false⟩))

/-- The local address of a format S access. -/
def Slot3.addr (x : Slot3) : Nat := localAddr (x.t.reg (aReg (wA x.w)))
/-- R368: the address register after a format S access of n bytes. -/
def Slot3.modify (x : Slot3) (t : Thread) (n : Nat) : Thread := postModify t (wA x.w) (wN x.w) (wPm x.w) n
/-- R343, R396: 16 accumulator lanes as bytes of n each at shift h, with DSAT. -/
def Slot3.fixLanes (x : Slot3) (n : Nat) : Bytes × Flags :=
  let ls := (List.range 16).map (fun k => x.t.accLane (wD x.w % 4) k)
  let h := wX6 x.w % 32
  let rs := ls.map (fun l => (fixStore (8 * n) h l.v, fixFlags (fixStore (8 * n) h l.v).2 l.sat (fixInexact h l.v)))
  (rs.flatMap (fun r => leBytes n (BitVec.ofInt (8 * n) r.1.1).toNat), rs.foldl (fun f r => f ||| r.2) 0)
/-- STA16 and STA32: lanes of n bytes stored. -/
def State.storeFix (s : State) (op n core thread : Nat) : Result :=
  s.issue 3 op core thread (fun x =>
    if !aligned x.addr (16 * n) then .trap 1
    else
      let r := x.fixLanes n
      .next (s.setCore core (x.c.store x.addr r.1)) (x.modify (x.t.raise r.2) (16 * n)))
/-- Executes STA32 (R343, R366 to R368, R396). -/
def execSta32 (core thread : Nat) (s : State) : Result := s.storeFix 0x08 4 core thread
/-- Executes STA16 (R343, R366 to R368, R396). -/
def execSta16 (core thread : Nat) (s : State) : Result := s.storeFix 0x09 2 core thread

/-! ### Local loads and stores (class 4) -/

/-- Bytes of a format S access. -/
def Slot3.size (x : Slot3) : Nat := 2 ^ wSize x.w
/-- A register after bytes are loaded into it: its low bytes exactly up to 8; the rest is open (log 72). -/
def loadReg (b : Bytes) (old : BitVec 64) : BitVec 64 :=
  let up := Config.loadUpper b.length b old
  if b.length < 8 then BitVec.ofNat 64 (le b + up.toNat / 2 ^ (8 * b.length) * 2 ^ (8 * b.length))
  else if b.length = 8 then BitVec.ofNat 64 (le b) else up
/-- Bytes that a register stores: its low bytes up to 8; the rest is open (log 72). -/
def storeBytes (n : Nat) (v : BitVec 64) : Bytes := leBytes (min n 8) v.toNat ++ fit (n - 8) (Config.storeUpper n v)
/-- A vector register after bytes are loaded into its low bytes; the rest is open (log 72). -/
def loadVec (b : Bytes) (old : BitVec 512) : BitVec 512 :=
  vecOf (b ++ (vecBytes (Config.vectorUpper b.length b old)).drop b.length)

/-- Executes LD (R366 to R368). -/
def execLd (core thread : Nat) (s : State) : Result :=
  s.issue 4 0x00 core thread (fun x =>
    if !aligned x.addr x.size then .trap 1
    else .next s (x.modify (x.t.setReg (wD x.w) (loadReg (x.c.load x.addr x.size) (x.t.reg (wD x.w)))) x.size))
/-- Executes ST (R366 to R368). -/
def execSt (core thread : Nat) (s : State) : Result :=
  s.issue 4 0x01 core thread (fun x =>
    if !aligned x.addr x.size then .trap 1
    else .next (s.setCore core (x.c.store x.addr (storeBytes x.size (x.t.reg (wD x.w))))) (x.modify x.t x.size))
/-- Executes LDV (R366 to R368). -/
def execLdv (core thread : Nat) (s : State) : Result :=
  s.issue 4 0x02 core thread (fun x =>
    if !aligned x.addr x.size then .trap 1
    else .next s (x.modify (x.t.setV (wD x.w) (loadVec (x.c.load x.addr x.size) (x.t.vreg (wD x.w)))) x.size))
/-- Executes STV (R366 to R368). -/
def execStv (core thread : Nat) (s : State) : Result :=
  s.issue 4 0x03 core thread (fun x =>
    if !aligned x.addr x.size then .trap 1
    else .next (s.setCore core (x.c.store x.addr ((vecBytes (x.t.vreg (wD x.w))).take x.size))) (x.modify x.t x.size))
/-- The vector registers after a dual read of two byte strings and, where the word names one, of its P constant; which ones they
reach is open (R385, log 72). -/
def Slot3.dualRead (x : Slot3) (a b : Bytes) : Thread :=
  { x.t with v := (List.range 16).map (fun n => Config.dualRegs (wT x.w) a b x.pConst x.t.v n) }
/-- Executes LD2: two reads (R384 to R387). -/
def execLd2 (core thread : Nat) (s : State) : Result :=
  s.dual 4 0x04 core thread (fun x => (s, x.dualRead (x.c.load x.ax dualSize) (x.c.load x.ay dualSize)))
/-- Executes LDST: X read, Y written; what is written is open (R384 to R387, log 72). -/
def execLdst (core thread : Nat) (s : State) : Result :=
  s.dual 4 0x05 core thread (fun x =>
    (s.setCore core (x.c.store x.ay (fit dualSize (Config.dualStore (wT x.w) x.pConst x.t.v))),
      x.dualRead (x.c.load x.ax dualSize) []))

/-! ### LDC (R370, R420, R422, R532 to R534) -/

/-- The index address of an LDC. -/
def Slot3.ldcAddr (x : Slot3) : Nat := (x.t.reg (aReg (wA x.w))).toNat % 2 ^ 48
/-- The page of a field at an index address. -/
def State.pageAt (s : State) (f a : Nat) : Option Page :=
  match s.field? f with
  | none => none
  | some x => x.pages.find? (fun p => p.num == a / pageSize)
/-- R420: a program may read the page: one of its field, but of scratch pages only its own. -/
def Page.readableBy (p : Page) (prog : Nat) : Bool :=
  match p.part with
  | .scratch id => id == prog
  | _ => true
/-- R422, R476, R477: an LDC whose page is away: the thread stalls, the run carries PAGED, and the page is awaited. -/
def State.awaitPage (s : State) (x : Slot3) (page : Nat) : State :=
  let n := s.nextStream
  let waits := s.streams.any (fun y => y.2.run == some x.id && y.2.core == x.core && y.2.thread == x.thread && y.2.desc == [] &&
    y.2.phase == .halted page)
  if waits then s
  else
    let y : Stream :=
      { desc := [], field := x.run.field, run := some x.id, core := x.core, thread := x.thread, slot := 6, reader := .program
        prog := AddrProg.reset, tile := 0, requested := [], delivered := [], ahead := 0, issued := []
        phase := .halted page
        context := contextBytes (n % 65536) 1 0 x.thread x.core 0xFFFF_FFFF 0 x.ldcAddr (positionBytes 0 0 AddrProg.reset) 0
        faultTime := s.tbk }
    let t := { s with streams := FMap.set s.streams n y, nextStream := n + 1 }
    (t.setRun x.id { x.run with paged := true }).traceRec 5 x.run.field noUnit (BitVec.ofNat 64 n) (BitVec.ofNat 64 page)
/-- R494, R499, R663: the line cannot be read. -/
def State.lineLost (s : State) (f : Nat) (p : Page) (a : Nat) : Bool :=
  p.damaged || s.lost p || s.badChunks.any (fun b => b.1 == f && b.2.1 == p.num && b.2.2 / 4 == a % pageSize / 256)
/-- The narrow request of an LDC for a line; it carries no deadline (R457). -/
def Slot3.ldcRequest (x : Slot3) (j : Nat) : Request :=
  ⟨unitKey 0 x.core, x.run.field, 2 ^ 32 + x.core, x.thread, 1, true, false, j, none⟩
/-- R448, R449, R457: an LDC whose line the Granary does not hold asks for it over the narrow path, and its thread stalls; with 32
requests of its core outstanding it stalls until one completes. -/
def State.askNarrow (s : State) (x : Slot3) (c j : Nat) : State :=
  s.setChannel c { s.channel c with queue := (s.channel c).queue ++ [x.ldcRequest j] }
/-- The command of the run ends with a status (R499). -/
def State.failRun (s : State) (x : Run) (status : Nat) : State :=
  match s.runCmd x with
  | none => s
  | some c => s.stopCmd c status none
/-- The thread after an LDC that reads these bytes. -/
def Slot3.ldc (x : Slot3) (line : Bytes) : Thread :=
  let o := x.ldcAddr % 256
  let b := (line.drop o).take x.size
  let all := b ++ fit (x.size - b.length) (Config.loadBeyond x.ldcAddr (x.size - b.length))
  x.modify (x.t.setReg (wD x.w) (loadReg all (x.t.reg (wD x.w)))) x.size
/-- LDC of a resident page. -/
def State.ldcResident (s : State) (x : Slot3) (p : Page) : Issue :=
  let f := x.run.field
  match p.placeOf x.ldcAddr with
  | none => .wait s
  | some (c, j) =>
    let key := lineKey c j
    let t := s.usePages f (fun q => q.num == p.num)
    match x.c.cache.find? (fun e => e.1 == key) with
    | some e => .next (if (s.lineOf c j).isSome then t else t.setCore x.core ((t.core x.core).dropLine key)) (x.ldc e.2)
    | none =>
      if s.lineLost f p x.ldcAddr then .wait (s.failRun x.run stHW_FAULT)
      else if (s.lineOf c j).any (fun l => l.dir == .W) || (s.channel c).queue.contains (x.ldcRequest j) ||
          ((s.lineOf c j).isNone && (s.narrowStalls (unitKey 0 x.core) || s.laneFull c (x.ldcRequest j))) then .wait s
      else
        let r := t.lookupLine f c j
        match r.2, r.1.lineOf c j with
        | true, some l =>
          let b := s.lineData f c j
          let u := r.1.setLine { l with dir := .S, sharers := x.core :: l.sharers.filter (fun n => n != x.core) }
          .next (u.setCore x.core ((u.core x.core).cacheLine key b)) (x.ldc b)
        | _, _ => .wait (r.1.askNarrow x c j)

/-- Executes LDC: its line comes from the core's read cache or the Granary, or is asked for over the narrow path, after which the
instruction issues again (R370, R420, R422, R448, R449, R499, R514, R532 to R534). -/
def execLdc (core thread : Nat) (s : State) : Result :=
  s.issue 4 0x08 core thread (fun x =>
    match s.pageAt x.run.field x.ldcAddr with
    | none => .trap 5
    | some p =>
      if !p.readableBy x.run.prog then .trap 5
      else if !p.inGddr then .wait (s.awaitPage x p.num)
      else s.ldcResident x p)

end Sys2Proof.Machine
end

