-- ==== Sys2Proof/Machine/AddressProgram.lean ====
section
/-! DEFINITION. Address programs of streams, one instruction per command, and how a stream ends (08, Stream descriptors;
R420, R430, R432 to R435). -/

namespace Sys2Proof.Machine

/-! ### What a program may address (R420, R441) -/

/-- Bytes of a program's scratch pages. -/
def State.scratchBytes (s : State) (x : Run) : Nat :=
  match (s.field? x.field).bind (fun f => FMap.get? f.programs x.prog) with
  | none => 0
  | some p => num p.image 32 4 * pageSize
/-- The page of a stream's address in its space: of the index address space, or of the scratch pages, numbered from
their first byte. -/
def State.pageIn (s : State) (x : Run) (space a : Nat) : Option Page :=
  if space = 0 then s.pageAt x.field a
  else match s.field? x.field with
    | none => none
    | some f => f.pages.find? (fun p => p.part == .scratch x.prog && p.n == a / pageSize)

/-! ### The end of a stream -/

/-- A program's stream with its run. -/
def State.streamRun (s : State) (n : Nat) : Option (Stream × Run) :=
  match FMap.get? s.streams n with
  | none => none
  | some x => match x.run with
    | none => none
    | some id => (FMap.get? s.runs id).map (fun r => (x, r))
/-- Status of a stream whose tiles are all delivered (R434, R435). -/
def Stream.status (x : Stream) : Nat := if x.prog.misaligned then 2 else 0
/-- The stream ends once its sequence is known and all of it has been delivered. -/
def Stream.settle (x : Stream) : Stream :=
  if (descForm x.desc = 1 || x.prog.done) && x.tiles ≤ x.tile then { x with phase := .ended x.status } else x
/-- R420: an address that is not permitted traps the stream's thread, and the stream transfers nothing. -/
def State.streamTrap (s : State) (n : Nat) (x : Stream) : State :=
  (s.trapThread x.core x.thread 5).setStream n { x with phase := .ended 2 }

/-! ### Instructions (Table 8.3) -/

/-- A stream register X. -/
def AddrProg.reg (p : AddrProg) (n : Nat) : BitVec 48 := p.x.getD n 0
/-- The next instruction. -/
def AddrProg.word (p : AddrProg) (d : Bytes) : BitVec 16 := descProg d p.pc
/-- Behind the present instruction. -/
def AddrProg.after (p : AddrProg) : AddrProg := { p with pc := p.pc + 1, steps := p.steps + 1 }
/-- END, or execution past the last instruction. -/
def AddrProg.finish (p : AddrProg) : AddrProg := { p with done := true, steps := p.steps + 1 }
/-- SETB. -/
def AddrProg.setb (p : AddrProg) (d : Bytes) : AddrProg :=
  { p.after with x := p.x.set (apX (p.word d)) (descBase d (apB (p.word d))) }
/-- ADDS. -/
def AddrProg.adds (p : AddrProg) (d : Bytes) : AddrProg :=
  { p.after with x := p.x.set (apX (p.word d)) (p.reg (apX (p.word d)) + descStride d (apS (p.word d))) }
/-- EMIT: its elements and the register behind them. -/
def AddrProg.emit (p : AddrProg) (d : Bytes) : AddrProg :=
  let w := p.word d
  let a := p.reg (apX w)
  { p.after with
    emitted := p.emitted ++ [(a.toNat, apN w)], x := p.x.set (apX w) (a + BitVec.ofNat 48 (apN w * descElem d)) }
/-- The word behind the LOOP of a level, searched from word n. -/
def loopEnd (d : Bytes) (level : Nat) : Nat → Nat → Nat
  | 0, n => n
  | f + 1, n => if apOp (descProg d n) = 5 && apX (descProg d n) == level then n + 1 else loopEnd d level f (n + 1)
/-- DO: with a count of 0 the block and its LOOP are passed over (log 77). -/
def AddrProg.open_ (p : AddrProg) (d : Bytes) : AddrProg :=
  let w := p.word d
  let c := descCount d (apB w)
  if c = 0 then { p with pc := loopEnd d (apX w) 16 (p.pc + 1), steps := p.steps + 1, loops := p.loops.set (apX w) 0 }
  else { p.after with loops := p.loops.set (apX w) c, openLevels := (apX w, p.pc + 1) :: p.openLevels }
/-- LOOP: behind the matching DO while the count is not 0. -/
def AddrProg.loop (p : AddrProg) (d : Bytes) : AddrProg :=
  let l := apX (p.word d)
  let c := p.loops.getD l 0 - 1
  let q := { p.after with loops := p.loops.set l c }
  if c = 0 then { q with openLevels := p.openLevels.filter (fun e => e.1 != l) }
  else match p.openLevels.find? (fun e => e.1 == l) with
    | none => q
    | some e => { q with pc := e.2 }
/-- One instruction, without the checks of an EMIT. -/
def AddrProg.step (p : AddrProg) (d : Bytes) : AddrProg :=
  match apOp (p.word d) with
  | 1 => p.setb d
  | 2 => p.adds d
  | 3 => p.emit d
  | 4 => p.open_ d
  | 5 => p.loop d
  | _ => p.finish
/-- Table 8.7: the program as at the start of byte `at_` of its sequence; `n` bounds the instructions run again. -/
def progAt (d : Bytes) (at_ : Nat) : Nat → AddrProg → AddrProg
  | 0, p => p
  | n + 1, p =>
    let e := descElem d
    if apOp (p.word d) = 3 && at_ < p.bytes e + apN (p.word d) * e then
      let k := (at_ - p.bytes e) / e
      { p with x := p.x.set (apX (p.word d)) (p.reg (apX (p.word d)) + BitVec.ofNat 48 (k * e)) }
    else progAt d at_ n (p.step d)

/-- An address-program instruction of code `op` of a stream of a program, if it is the next one. -/
def State.addressOp (s : State) (n op : Nat) (f : Stream → Run → State) : Result :=
  match s.streamRun n with
  | none => .next s
  | some (x, r) =>
    if !s.completing || x.phase != .running || descForm x.desc != 0 || x.desc.isEmpty || x.prog.done ||
        apOp (x.prog.word x.desc) != op then .next s
    else .next (f x r)
/-- The stream with its program moved on. -/
def State.withProg (s : State) (n : Nat) (x : Stream) (p : AddrProg) : State :=
  s.setStream n ({ x with prog := p } : Stream).settle

/-- Executes END (R430). -/
def execApEnd (stream : Nat) (s : State) : Result :=
  s.addressOp stream 0 (fun x _ => s.withProg stream x x.prog.finish)
/-- Executes SETB (R430). -/
def execApSetb (stream : Nat) (s : State) : Result :=
  s.addressOp stream 1 (fun x _ => s.withProg stream x (x.prog.setb x.desc))
/-- Executes ADDS (R430). -/
def execApAdds (stream : Nat) (s : State) : Result :=
  s.addressOp stream 2 (fun x _ => s.withProg stream x (x.prog.adds x.desc))
/-- Executes EMIT: a misaligned address ends the sequence, and a sequence that the buffer cannot hold is malformed; an address that is
not permitted traps when its tile is the oldest (R430, R432 to R434, R440). -/
def execApEmit (stream : Nat) (s : State) : Result :=
  s.addressOp stream 3 (fun x _ =>
    let d := x.desc
    let e := descElem d
    let w := x.prog.word d
    let a := (x.prog.reg (apX w)).toNat
    if a % e != 0 then s.withProg stream x { x.prog with done := true, misaligned := true, steps := x.prog.steps + 1 }
    else if descBufSize d < x.prog.bytes e + apN w * e then s.setStream stream { x with phase := .ended 2 }
    else s.withProg stream x (x.prog.emit d))
/-- Executes DO (R430). -/
def execApDo (stream : Nat) (s : State) : Result :=
  s.addressOp stream 4 (fun x _ => s.withProg stream x (x.prog.open_ x.desc))
/-- Executes LOOP (R430). -/
def execApLoop (stream : Nat) (s : State) : Result :=
  s.addressOp stream 5 (fun x _ => s.withProg stream x (x.prog.loop x.desc))

end Sys2Proof.Machine
end

