-- ==== Sys2Proof/Machine/Cascade.lean ====
section
/-! DEFINITION. CASCADE_FORM, CASCADE_STATUS and CASCADE_PROMOTE (03, 0x48–0x4A; R207 to R210, R574 to R576, R600,
R601). -/

namespace Sys2Proof.Machine

/-! ### CASCADE_FORM -/

/-- What a CASCADE_FORM asks for. -/
structure FormIn where
  topology : Nat
  torusX : Nat
  torusY : Nat
  expected : Nat
  serials : List (BitVec 64)

/-- The inline parameters and the serial list. -/
def formIn (x : Ctx) : FormIn :=
  let n := num x.pkt 20 2
  { topology := num x.pkt 16 1, torusX := num x.pkt 17 1, torusY := num x.pkt 18 1, expected := n
    serials := if x.hasBlock then (List.range n).map (fun k => BitVec.ofNat 64 (num x.block (8 * k) 8)) else [] }
/-- R209 and the ranges of the parameters; the torus limit holds in each dimension (log 48). -/
def FormIn.bad (q : FormIn) : Bool :=
  3 < q.topology || q.expected == 0 || 128 < q.expected ||
    (q.topology == 3 && (q.torusX * q.torusY != q.expected || 16 < q.torusX || 8 < q.torusY))
/-- R208: lead by strap and by stake. -/
def State.mayForm (s : State) : Bool :=
  s.glob.straps.hxlEn && s.glob.straps.cascLead && s.trust.effectiveValue 2 == 1
/-- R208, R601: a cascade is formed or forming, or another lead has claimed this device. -/
def State.cascadeExists (s : State) : Bool := s.casc.state != 0 || s.casc.probed.isSome
/-- Table 10.8 steps 1 and 2: the lead enters state forming and floods its probe. -/
def State.startCensus (s : State) (q : FormIn) : State :=
  let x := { Cascade.reset with
    state := 1, topology := q.topology, torusX := q.torusX, torusY := q.torusY, expected := q.expected
    serials := q.serials, standby := s.casc.standby }
  (s.setCasc x).sendMessage 0xFF msgPROBE 0 (leBytes 8 Config.serial.toNat)
/-- CASCADE_FORM after Table 2.6. -/
def State.formBody (s : State) (x : Ctx) : Verdict :=
  let q := formIn x
  checks ([(!s.mayForm, stNOT_PERMITTED), (q.bad || num x.pkt 24 8 % 64 != 0, stBAD_VALUE),
    (num x.pkt 32 4 < 4160 || (x.hasBlock && x.block.length < 8 * q.expected), stBAD_LENGTH),
    (s.cascadeExists, stEXISTS)] : List (Bool × Nat)) (fun _ => stays (s.startCensus q) (.census false))

/-- Executes CASCADE_FORM: the command stays outstanding until the census ends (R208, R209, R574, R575). -/
def execCascadeForm (ring : Nat) (dma : Dma) (s : State) : Result :=
  s.runPacket 0x48 ring dma (fun x s => s.formBody x)

/-! ### CASCADE_STATUS -/

/-- Executes CASCADE_STATUS (R127, Tables 3.1 and 10.10). -/
def execCascadeStatus (ring : Nat) (dma : Dma) (s : State) : Result :=
  s.runPacket 0x49 ring dma (fun x s =>
    checks (replyChecks x.pkt 24 32 4160) (fun _ =>
      yesReply s (s.casc.state + 65536 * s.casc.reachable) [(num x.pkt 24 8, s.casc.reply s.casc.tCensus)]))

/-! ### CASCADE_PROMOTE -/

/-- R210: standby lead by the CASCADE_ROLE_LOCK stake. -/
def State.standbyByStake (s : State) : Bool :=
  s.glob.straps.hxlEn && !s.glob.straps.cascLead && s.trust.effectiveValue 2 == 3
/-- R210, R599: the current lead answers: the device follows it, and its last heartbeat is less than 5 ms old. -/
def State.leadAnswers (s : State) : Bool := s.cascFormed && s.tbk < s.casc.lastHeartbeat + 5000000
/-- CASCADE_PROMOTE after Table 2.6; a device that never had a census has nothing to take over (log 48). -/
def State.promoteBody (s : State) (_ : Ctx) : Verdict :=
  checks [(!s.standbyByStake, stNOT_PERMITTED),
    (s.casc.promoted || s.leadAnswers || s.casc.records.isEmpty, stBAD_STATE)] (fun _ =>
      stays ((s.setCasc { s.casc with state := 1, promoted := true }).extend 4 (eventRecord 0x41 [])) (.census true))

/-- Executes CASCADE_PROMOTE: the command stays outstanding until the census ends (R210, R600). -/
def execCascadePromote (ring : Nat) (dma : Dma) (s : State) : Result :=
  s.runPacket 0x4A ring dma (fun x s => s.promoteBody x)

end Sys2Proof.Machine
end

