-- ==== Sys2Proof/Machine/Pins.lean ====
section
/-! DEFINITION. Sideband bus, thermal sensors, VID and the JTAG TAP (14_pins_clocks_power_reset). -/

namespace Sys2Proof.Machine

/-! ### Sideband -/

/-- The sideband answers once the firmware runs (Table 14.3, R619). -/
def State.sidebandServed (s : State) : Bool := s.up && s.trust.bootCode == 0

/-- R776: what the UDID of the device carries: Vendor ID, Device ID and bits 31:0 of the serial number. -/
def smbusUdid : BitVec 64 := (0x1E7A#16 ++ 0x4816#16) ++ Config.serial.truncate 32
/-- R776: what the I3C provisioned ID carries: bits 31:0 of the serial number. -/
def i3cProvisionedId : BitVec 32 := Config.serial.truncate 32

/-- Executes SMBUS_ARP: the protocol assigns a bus address to the device of a UDID (R776). -/
def execSmbusArp (udid : BitVec 64) (address : BitVec 7) (s : State) : Result :=
  if s.sidebandServed && udid == smbusUdid then .next (s.setBoard { s.board with smbusAddr := address }) else .next s

/-- Executes I3C_ADDRESS_ASSIGN: SETDASA at static address 0x4A, or ENTDAA (R776). -/
def execI3cAddressAssign (byStatic : Bool) (staticAddr dynamicAddr : BitVec 7) (s : State) : Result :=
  if s.sidebandServed && (!byStatic || staticAddr == 0x4A#7) then
    .next (s.setBoard { s.board with i3cAddr := some dynamicAddr })
  else .next s

/-- Executes SMBUS_SCL_TIMEOUT: SB_SCL held low for over 35 ms resets the bus interface (R777). -/
def execSmbusSclTimeout (lowMs : Nat) (s : State) : Result :=
  if s.sidebandServed && 35 < lowMs then .next (s.setBoard { s.board with sbResets := s.board.sbResets + 1 })
  else .next s

/-! ### Temperature and core voltage -/

/-- Table 0.1: the upper junction limit of the grade, in 1/8 °C. -/
def junctionLimit : Int := if Config.grade then 840 else 800

/-- R742: the thermal part of ALERT_N after a sample. -/
def alertHotAfter (hot : Bool) (tj : Int) : Bool :=
  if junctionLimit < tj then true else if tj ≤ junctionLimit - 40 then false else hot

/-- Executes TJ_SAMPLE at the next millisecond (Table 13.4, R742). -/
def execTjSample (sample : BitVec 16) (s : State) : Result :=
  if !s.up then .next s
  else
    let s := s.advance (nextMultiple 1000000 s.tbk)
    let hot := alertHotAfter s.board.alertHot sample.toInt
    let s := s.setGlob { s.glob with tj := sample }
    .next (s.setBoard { s.board with alertHot := hot, alertN := !(hot || s.glob.fatal) })

/-- R748, R750: the code of the fused table for the effective profile and `tj`, at most 20. -/
def State.vidTarget (s : State) : Nat := min 20 (Config.vidCode (s.trust.effectiveValue 4) s.glob.tj.toInt)

/-- Executes VID_STEP: one step towards the target, 200 µs after the last one (R750). -/
def execVidStep (s : State) : Result :=
  if !s.up || !s.board.vidDriven || s.board.vid == s.vidTarget then .next s
  else
    let s := s.advance (s.board.vidLast + 200000)
    let v := if s.board.vid < s.vidTarget then s.board.vid + 1 else s.board.vid - 1
    .next (s.setBoard { s.board with vid := v, vidLast := s.tbk })

/-- Executes THERMTRIP: an on-die sensor reads `sensor` in 1/8 °C; above 120 °C every clock but AON stops and the outputs fall
back to their reset states (R740, Table 14.3). -/
def execThermtrip (sensor : Int) (s : State) : Result :=
  if s.board.powered && 960 < sensor then
    .next (s.setBoard { s.board with
      thermtripN := false, clocksStopped := true, vidDriven := false, vid := 10, qspiOn := false, gddrOn := false
      alertN := true })
  else .next s

/-! ### TAP -/

/-- The state diagram of IEEE 1149.1. -/
def TapState.step (t : TapState) (tms : Bool) : TapState :=
  match t with
  | .testLogicReset => if tms then .testLogicReset else .runTestIdle
  | .runTestIdle => if tms then .selectDr else .runTestIdle
  | .selectDr => if tms then .selectIr else .captureDr
  | .captureDr => if tms then .exit1Dr else .shiftDr
  | .shiftDr => if tms then .exit1Dr else .shiftDr
  | .exit1Dr => if tms then .updateDr else .pauseDr
  | .pauseDr => if tms then .exit2Dr else .pauseDr
  | .exit2Dr => if tms then .updateDr else .shiftDr
  | .updateDr => if tms then .selectDr else .runTestIdle
  | .selectIr => if tms then .testLogicReset else .captureIr
  | .captureIr => if tms then .exit1Ir else .shiftIr
  | .shiftIr => if tms then .exit1Ir else .shiftIr
  | .exit1Ir => if tms then .updateIr else .pauseIr
  | .pauseIr => if tms then .exit2Ir else .pauseIr
  | .exit2Ir => if tms then .updateIr else .shiftIr
  | .updateIr => if tms then .selectDr else .runTestIdle

/-- Instructions of R778, as Config.tapInstruction numbers them: 0 BYPASS, 1 IDCODE, 2 SAMPLE/PRELOAD,
3 EXTEST, 4 HIGHZ, 5 CLAMP; any other is debug access (log 13). -/
def tapIDCODE : Nat := 1

/-- R629: the instruction in force: debug instructions act as BYPASS unless `debug_unlock` is effective. -/
def State.tapInstruction (s : State) : Nat :=
  if s.board.tapInstr ≤ 5 || s.debugUnlock then s.board.tapInstr else 0

/-- The low n bits of a number, least significant first. -/
def bitsOf (n v : Nat) : List Bool := (List.range n).map (fun i => v.testBit i)
/-- The number that bits spell, least significant first. -/
def ofBits (l : List Bool) : Nat := l.foldr (fun b n => (if b then 1 else 0) + 2 * n) 0

/-- R779: the IDCODE. -/
def idcode : Nat := 1 + 0x3D5 * 2 + 0x4816 * 2 ^ 12 + Config.deviceRev.toNat % 16 * 2 ^ 28

/-- What Capture-DR loads: the device identification, one bit of BYPASS, or the boundary register, whose
balls' levels are free values (log 13). -/
def State.captureDr (s : State) : List Bool :=
  let i := s.tapInstruction
  if i = 1 then bitsOf 32 idcode
  else if i = 2 || i = 3 then (List.range Config.tapBoundaryLength).map (fun n => Config.freeBool (s.fresh + n))
  else [false]

/-- A shift by one bit towards TDO. -/
def shiftIn (l : List Bool) (tdi : Bool) : List Bool := l.drop 1 ++ [tdi]

/-- The TDO level after an edge: driven in the shift states only (Table 14.3). -/
def tdoOf (t : TapState) (l : List Bool) : Option Bool :=
  if t = .shiftDr || t = .shiftIr then some (l.headD false) else none

/-- The work of the state that a TCK edge leaves. -/
def State.tapAct (s : State) (tdi : Bool) : State :=
  let b := s.board
  match b.tap with
  | .testLogicReset => s.setBoard { b with tapInstr := tapIDCODE }
  | .captureDr => ({ s with fresh := s.fresh + Config.tapBoundaryLength }).setBoard { b with tapShift := s.captureDr }
  | .captureIr => s.setBoard { b with tapShift := bitsOf Config.tapIrLength 1 }
  | .shiftDr | .shiftIr => s.setBoard { b with tapShift := shiftIn b.tapShift tdi }
  | .updateDr =>
    if s.tapInstruction = 2 || s.tapInstruction = 3 then s.setBoard { b with tapBoundary := b.tapShift } else s
  | .updateIr => s.setBoard { b with tapIr := ofBits b.tapShift, tapInstr := Config.tapInstruction (ofBits b.tapShift) }
  | _ => s

/-- A data-register scan step under a debug instruction. -/
def State.tapDebug (s : State) : Bool :=
  5 < s.tapInstruction && (s.board.tap == .captureDr || s.board.tap == .shiftDr || s.board.tap == .updateDr)

/-- Executes TAP_STEP: one rising edge of TCK (R629, R778, R779). Debug access beyond boundary scan, which the
manual names and does not describe, is refused. -/
def execTapStep (tms tdi : Bool) (s : State) : Result :=
  if !s.board.powered then .next s
  else if s.tapDebug then .refused .debugAccess
  else
    let t := s.tapAct tdi
    let n := s.board.tap.step tms
    .next (t.setBoard { t.board with tap := n, tdo := tdoOf n t.board.tapShift })

end Sys2Proof.Machine
end

