-- ==== Sys2Proof/Machine/CascadeEvents.lean ====
section
/-! DEFINITION. The cascade's own events: probe, census, heartbeats, losses and configuration (10_cascade; R570 to
R579, R593, R594, R596, R599, R600). -/

namespace Sys2Proof.Machine

/-! ### The probe and the census -/

/-- What a device answers a probe with: its record (Table 10.8 step 2). -/
def State.probeAnswer (s : State) : Bytes :=
  s.ownRecord.bytes ++ leBytes 1 (if s.glob.straps.gddrType then 1 else 0) ++ leBytes 1 ownHxlVersion
/-- A message queued on one port, before routes exist. -/
def State.sendOn (s : State) (p kind dst : Nat) (content : Bytes) : State :=
  let body := Config.messageBody kind content
  s.queueFlits p (messageFlits 0 0 (messageHeader dst s.casc.ordinal kind body.length 0 false ++ body))
/-- The device may answer a probe of a lead: it runs, has not answered that lead's probe and follows no lead. -/
def State.answersProbe (s : State) (port : Nat) (leadSerial : BitVec 64) : Bool :=
  s.portOn port && (s.port port).state == .active && !s.cascFormed && s.casc.state == 0 &&
    s.casc.probed != some leadSerial
/-- Executes CENSUS_PROBE: the probe forwarded on the other ACTIVE links and answered on the port it came by (R574);
the first lead to reach a device claims it (R601). -/
def execCensusProbe (port : Nat) (leadSerial : BitVec 64) (s : State) : Result :=
  if 4 ≤ port then .fault .noSuchUnit
  else if !s.answersProbe port leadSerial then .next s
  else
    let first := s.casc.probed.isNone
    let t := if first && s.role != 0 then s.setCasc { s.casc with probed := some leadSerial } else s
    let t := (t.activePorts.filter (fun p => p != port)).foldl (fun t p => t.sendOn p msgPROBE 0xFF (leBytes 8 leadSerial.toNat)) t
    .next ((t.sendOn port msgANSWER 0 s.probeAnswer).emit (.message 0 msgANSWER s.probeAnswer))

/-- The CASCADE_FORM or CASCADE_PROMOTE whose census runs. -/
def State.censusCmd (s : State) : Option (Cmd × Bool) :=
  s.cmds.findSome? (fun c => match c.work with
    | .census p => if c.stopped.isNone then some (c, p) else none
    | _ => none)
/-- R600: an index of a cascade as its new lead takes it over: back at the committed epoch that the standby lead has
recorded, without holds and pending mutations. -/
def Index.resume (x : Index) (epoch : Nat) : Index :=
  let back := fun (l : List Slot) => (l.filter (fun e => e.born ≤ epoch)).map (fun e =>
    if e.died.any (fun d => epoch < d) then { e with died := none } else e)
  let image := fun (m : Image) =>
    let l := back m.slots
    { m with slots := l, blocks := m.blocks.take (blocksFor l.length) }
  if x.epoch ≤ epoch then { x with pending := [], holds := [] }
  else { x with
    pending := [], holds := [], epoch := epoch, versions := x.versions.filter (fun v => v.until_ ≤ epoch)
    lists := FMap.mapVals x.lists (fun _ l => ⟨image l.image, l.olds.map image⟩) }
/-- R596, R600: the last committed epoch recorded for an index. -/
def Cascade.committed (x : Cascade) (key : Nat) : Option Nat :=
  (x.standby.filterMap (fun i => match i with
    | .committed f n e => if indexKey f n = key then some e.toNat else none
    | _ => none)).getLast?
/-- R600: every cascade index resumes. -/
def State.resumeIndexes (s : State) : State :=
  let t := { s with indexes := FMap.mapVals s.indexes (fun k x =>
    if x.p.cascMode = 0 then x else x.resume ((s.casc.committed k).getD x.epoch)) }
  (t.fields.map (fun f => f.1)).foldl State.releasePages t
/-- R596: a field configuration or a filter that the standby lead recorded, in force with its promotion. -/
def State.takeOver (s : State) (i : StandbyItem) : State :=
  match i with
  | .config f b => s.modField f (fun x => { x with tgt := x.tgt.apply b })
  | .filter f n b => (match parseFilter b with
    | none => s
    | some p => s.modField f (fun x => { x with filters := FMap.set x.filters n p }))
  | _ => s
/-- R600: the records after a promotion: the old lead's ordinal is lost. -/
def State.promotedRecords (s : State) (found : List MemberRecord) : FMap CensusRec :=
  FMap.mapVals (s.rerunRecords found) (fun m r =>
    if m = s.casc.leadOrdinal && m != s.casc.ordinal then { r with status := 4 } else r)
/-- Table 10.8 steps 3 to 6 for a CASCADE_FORM. -/
def State.formed (s : State) (found : List MemberRecord) : State := s.census (s.censusRecords s.casc found)
/-- R600: the census of a promoted standby lead. -/
def State.promoted (s : State) (found : List MemberRecord) : State :=
  let recs := s.promotedRecords found
  let t := s.setCasc { s.casc with leadOrdinal := s.casc.ordinal, probed := none }
  (t.casc.standby.foldl State.takeOver t).resumeIndexes.census recs

/-- Executes CENSUS_QUIET_TIMER: 50 ms without a new record have passed; `found` are the records received (R574 to
R576, R600, Table 10.8). -/
def execCensusQuietTimer (found : List MemberRecord) (replyOk recordOk : Bool) (s : State) : Result :=
  if !s.completing then .next s
  else match s.censusCmd with
    | none => .next s
    | some (c, promote) =>
      let t := s.advance (s.tbk + 50000000)
      if promote then .next ((t.promoted found).finish c 0 0 0 c.flags recordOk)
      else
        let t := t.formed found
        if replyOk then
          .next ((t.writeReply c [(num c.pkt 24 8, t.casc.reply t.casc.tCensus)]).finish c 0 t.casc.reachable 0 c.flags recordOk)
        else .next (t.finish c stDMA_WRITE 0 0 c.flags recordOk)

/-- Executes CENSUS_RERUN: steps 3 to 6 again on the lead (R578, R597). -/
def execCensusRerun (found : List MemberRecord) (s : State) : Result :=
  if !s.completing || !s.leads then .next s else .next (s.census (s.rerunRecords found))

/-! ### Heartbeats -/

/-- Executes HEARTBEAT on the lead, at the next millisecond (R577). -/
def execHeartbeat (s : State) : Result :=
  if !s.completing || !s.leads then .next s
  else
    let t := s.advance (nextMultiple 1000000 s.tbk)
    .next (t.tellMembers msgHEARTBEAT 0 (leBytes 8 t.tbk))

/-- TB_LEAD_OFFSET: the lead's TBK minus this device's, from half the round trip (Table 13.10). -/
def leadOffsetOf (leadTbk : BitVec 64) (roundTrip own : Nat) : BitVec 64 :=
  leadTbk + BitVec.ofNat 64 (roundTrip / 2) - BitVec.ofNat 64 own
/-- Executes HEARTBEAT_ANSWER on a member (R577, Table 13.10). -/
def execHeartbeatAnswer (leadTbk : BitVec 64) (roundTrip : Nat) (s : State) : Result :=
  if !s.up || !s.follows then .next s
  else
    let t := s.setCasc { s.casc with lastHeartbeat := s.tbk, leadOffset := leadOffsetOf leadTbk roundTrip s.tbk }
    .next (t.sendMessage t.casc.leadOrdinal msgANSWER 0 (leBytes 1 t.casc.ordinal))

/-! ### A member lost (R577, R594) -/

/-- A search uses a member: one of its parts is there, or its SPLIT-DIM index lies there. -/
def State.usesMember (s : State) (q : Query) (m : Nat) : Bool :=
  q.parts.any (fun p => p.2 == m) || (q.merged.isNone && (match s.index? q.field q.index with
    | none => false
    | some x => x.p.cascMode == 2 && (x.placement.headD []).contains m))
/-- R594: one part of a lost member sent to another covering copy, which may be the lead's own, or left out with DEGRADED. -/
def State.resendPart (s : State) (key : Nat) (x : Index) (q : Query) (slot : Nat) : State × Query :=
  let rest := q.parts.filter (fun p => p.1 != slot)
  match s.copyFor key x slot with
  | none => (s, { q with parts := rest, flags := q.flags ||| flDEGRADED })
  | some m =>
    (s.sendMessage m msgSEARCH_PART (classVc q.cls) (partBytes x q slot q.lists []), { q with parts := rest ++ [(slot, m)] })
/-- R594: a class B or class X search goes on without a lost member. -/
def State.reroute (s : State) (q : Query) (m : Nat) : State :=
  let key := indexKey q.field q.index
  match s.index? q.field q.index with
  | none => s
  | some x =>
    if x.p.cascMode = 2 then
      s.putQuery { q with ownSlots := some [], todo := [], cands := [], qualified := 0, flags := q.flags ||| flDEGRADED }
    else
      let r := ((q.parts.filter (fun p => p.2 == m)).map (fun p => p.1)).foldl
        (fun (a : State × Query) k => a.1.resendPart key x a.2 k) (s, q)
      r.1.putQuery r.2
/-- R594: the class C searches that use a lost member end with ST_HW_FAULT. -/
def State.endLostC (s : State) (m : Nat) (recordOk : Bool) : State :=
  let rs := (s.queries.filter (fun q => q.cls == 0 && s.usesMember q m)).map (fun q => q.ref)
  (s.cmds.filter (fun c => c.work == .search && rs.any (fun r => r.of c.ring c.seq))).foldl (fun s c =>
    let fl := s.queryFlags c
    (s.dropQueries (fun r => r.of c.ring c.seq)).finish c stHW_FAULT 0 c.bound.toNat fl recordOk) s

/-- Executes MEMBER_LOST on the lead (R577, R593, R594). -/
def execMemberLost (ordinal : Nat) (recordOk : Bool) (s : State) : Result :=
  if !s.completing || !s.leads || ordinal == s.casc.ordinal || !s.casc.isMember ordinal then .next s
  else
    let t := (s.setCasc (s.casc.withStatus ordinal 4)).syncMembers
    let t := t.logEvent evMEMBER_LOST 0xFF (Config.severity evMEMBER_LOST) (unitKey 12 ordinal) (leBytes 1 ordinal)
    let t := t.endLostC ordinal recordOk
    let t := (t.queries.filter (fun q => t.usesMember q ordinal)).foldl (fun t q => t.reroute q ordinal) t
    .next t.refreshCasc

/-- R599: the cascade as a follower without its lead sees it; links, index data and the last census stay. -/
def Cascade.leaderless (x : Cascade) : Cascade := { x with state := 0, probed := none, leadOffset := 0, commitPages := [] }
/-- Cascade indexes without their pending mutations. -/
def State.dropCascPending (s : State) : State :=
  { s with indexes := FMap.mapVals s.indexes (fun _ x => if x.p.cascMode = 0 then x else { x with pending := [] }) }
/-- R599: the parts of searches that the device scans for its lead dropped, with what they halt on. -/
def State.dropParts (s : State) : State :=
  { s with
    served := []
    streams := s.streams.filter (fun x => match x.2.reader with
      | .part _ | .copy _ => false
      | _ => true) }
/-- Executes LEAD_LOST on a follower: no heartbeat for 5 ms (R599). -/
def execLeadLost (s : State) : Result :=
  if !s.up || !s.follows then .next s
  else
    let t := s.advance (s.casc.lastHeartbeat + 5000000)
    let t := t.logEvent evLEAD_LOST 0xFF (Config.severity evLEAD_LOST) noUnit (leBytes 1 s.casc.leadOrdinal)
    .next (((t.setCasc t.casc.leaderless).dropCascPending).dropParts)

/-! ### Configuration from the lead (R579, Table 10.8 step 5) -/

/-- The census as a member takes it from the lead. -/
def State.joinCascade (s : State) (m : CensusMsg) : State :=
  let recs := m.members.foldl (fun (r : FMap CensusRec) (e : Nat × BitVec 64 × Nat × BitVec 8) =>
    FMap.set r e.1 ⟨e.2.1, e.2.2.1, 0, if e.1 = m.leadOrdinal then 1 else 2, 0, 0, 0, e.2.2.2, 0⟩) []
  let x := { s.casc with
    state := 2, topology := m.topology, torusX := m.torusX, torusY := m.torusY, expected := m.expected
    treeRouting := m.tree, records := recs, ordinal := m.ordinal, leadOrdinal := m.leadOrdinal, probed := none
    lastHeartbeat := s.tbk, tCensus := s.tbk }
  let d := x.dist
  (s.setCasc { x with records := FMap.mapVals recs (fun n r => { r with hops := FMap.getD d n 0 }) }).syncMembers
/-- A definition, load or filter of the lead as a command on this member (log 47). -/
def defCtx (field : Nat) (pkt block : Bytes) : Ctx :=
  { cmd := ⟨field * 8, 0, pkt, 0, .fetched, 0, 0, false, none⟩, pkt := pkt, ring := field * 8, fn := field
    block := block, hasBlock := !block.isEmpty, key := indexKey field (num pkt 4 1 % 64), dma := ⟨none, true, true⟩ }
/-- The commands of the lead that a member repeats. -/
def State.definition (s : State) (x : Ctx) : Verdict :=
  match x.cmd.opcode with
  | 0x08 =>
    let p := paramsOf x.pkt
    yes (s.setIndex x.key (Index.create p ((placementOf p.cascMode p.replicas s.casc.present).getD []))) 0
  | 0x09 => s.dropBody x
  | 0x0A => s.centroidsBody x
  | 0x0B => s.codebookBody x
  | 0x0C => s.activateBody x
  | 0x28 => s.filterBody x
  | 0x29 => s.filterDropBody x
  | 0x2A => s.bitmapBody x
  | _ => no stBAD_OPCODE
/-- This device's TBK at the start of a lead planner epoch. -/
def State.leadEpochAt (s : State) (e : BitVec 64) : Nat := ((e.toNat * 10000 : Int) - s.casc.leadOffset.toInt).toNat
/-- R590: lists of a SPLIT-DIM index that the lead has selected for compaction: index, trigger epoch, lists. -/
def State.compactAsTold (s : State) (field : Nat) (b : Bytes) : State :=
  s.enqueueLists (indexKey field (num b 0 1 % 64)) (num b 1 8) ((List.range ((b.length - 9) / 4)).map (fun n => num b (9 + 4 * n) 4))
/-- R590: the swap of a list of a SPLIT-DIM index at the lead's planner epoch: index, list, epoch; false where no new image of it
is at hand. -/
def State.swapAsTold (s : State) (field : Nat) (b : Bytes) : State × Bool :=
  let key := indexKey field (num b 0 1 % 64)
  match s.evaporators.find? (fun e => e.2.key == key && e.2.list == num b 1 4), FMap.get? s.indexes key with
  | some (n, e), some x => ((s.advance (s.leadEpochAt (BitVec.ofNat 64 (num b 5 8)))).swapList n e x true, true)
  | _, _ => (s, false)
/-- R579, Table 11.6: an accepted change is measured, and takes effect at a planner epoch of the lead. -/
def State.changedAt (s : State) (field action : Nat) (block : Bytes) (leadEpoch : BitVec 64) : State :=
  let t := s.extend 3 (eventRecord 0x30 (leBytes 1 field ++ leBytes 1 action ++ block))
  (t.advance (t.leadEpochAt leadEpoch)).turnField field
/-- An index without its records; its definition stays. -/
def Index.emptied (x : Index) : Index := { x with lists := [], pending := [], versions := [], holds := [] }
/-- R597: a member that joins again discards its data of every cascade index. -/
def State.discardCascade (s : State) : State :=
  let casc := fun k => s.indexes.any (fun x => x.1 == k && x.2.p.cascMode != 0)
  let t := { s.dropIndexes casc with indexes := FMap.mapVals s.indexes (fun _ x => if x.p.cascMode = 0 then x else x.emptied) }
  (t.fields.map (fun f => f.1)).foldl State.releasePages t
/-- The outcome of a change from the lead: the state, and the status that goes back. Actions 0 to 2 are those of FIELD_CONFIGURE,
which every member applies at the same planner epoch of the lead (R579); action 6 is a member's return (R597). -/
def State.memberApply (s : State) (field action : Nat) (block : Bytes) (leadEpoch : BitVec 64) : State × Nat :=
  match action with
  | 0 => (match s.applyBlock field (fit 256 block) with
    | .inl st => (s, st)
    | .inr t => (t.changedAt field 0 (fit 256 block) leadEpoch, 0))
  | 1 => (((s.fieldReset field).releasePages field).changedAt field 1 [] leadEpoch, 0)
  | 2 => ((s.modField field (fun x => { x with removing := true })).changedAt field 2 [] leadEpoch, 0)
  | 3 => (match s.definition (defCtx field (fit 64 block) (block.drop 64)) with
    | .refuse st _ => (s, st)
    | .turnAway t st _ => (t, st)
    | .accept a => (a.s, a.status))
  | 4 => (s.compactAsTold field block, 0)
  | 5 => (match s.swapAsTold field block with
    | (t, true) => (t, 0)
    | (t, false) => (t, stBAD_STATE))
  | 6 => (s.discardCascade, 0)
  | _ => (s, 0)

/-- Executes CONFIG_MESSAGE on a member: the census where the message carries one, then the change; action 3
carries a packet of the lead and its block, actions 4 and 5 the selection and the swap of lists of a SPLIT-DIM index. The status goes
back to the lead (R579, R585, R590, Table 10.8 step 5). -/
def execConfigMessage (field action : Nat) (block : Bytes) (leadEpoch : BitVec 64) (census : Option CensusMsg) (s : State) : Result :=
  if !s.completing || !(s.role == 2 || s.role == 3) then .next s
  else
    let t := match census with
      | none => s
      | some m => s.joinCascade m
    if !t.cascFormed || 15 < field then .next t
    else
      let r := t.memberApply field action block leadEpoch
      .next (r.1.sendMessage r.1.casc.leadOrdinal msgANSWER 0 (leBytes 1 field ++ leBytes 1 action ++ leBytes 2 r.2))

end Sys2Proof.Machine
end

