-- ==== Sys2Proof/Machine/Channels.lean ====
section
/-! DEFINITION. The commands of the memory channels: grants, retraining, upkeep, patrol, temperature and training (09, Training,
refresh and upkeep; R483 to R494, R498, R512 to R514). -/

namespace Sys2Proof.Machine

/-- Executes CHANNEL_GRANT: level 1 work first, but one operation at most before a level 2 request; an access that fails its EDC check is repeated up to four times, and a
fifth failure leaves it waiting for GDDR_RETRAIN (R453 to R457, R491, R493, R495, R498, R499, R511 to R514). -/
def execChannelGrant (channel edcFails : Nat) (ecc : List Ecc) (s : State) : Result :=
  if 16 ≤ channel then .fault .noSuchUnit
  else if !s.channelServes channel then .next s
  else if s.upkeepFirst channel then .next (s.doUpkeep channel)
  else
    match s.nextGrant channel with
    | none => .next s
    | some (level, q) =>
      let t := s.count 2 (32 + channel) (min edcFails 4)
      if 5 ≤ edcFails then .next t else .next (t.grant channel level q ecc)

/-! ### Level 1 work (R491, R492, R500) -/

/-- Executes REFRESH: the channel's refresh interval has passed (R491, R492). -/
def execRefresh (channel : Nat) (s : State) : Result :=
  if 16 ≤ channel then .fault .noSuchUnit
  else if !s.memoryOn then .next s
  else .next (s.setChannel channel { s.channel channel with upkeep := (s.channel channel).upkeep ++ [.refresh] })

/-- Executes TRAINING_UPKEEP: steps 4 to 6 of Table 9.2 are due again (R491). -/
def execTrainingUpkeep (channel : Nat) (s : State) : Result :=
  if 16 ≤ channel then .fault .noSuchUnit
  else if !s.memoryOn then .next s
  else .next (s.setChannel channel { s.channel channel with upkeep := (s.channel channel).upkeep ++ [.training] })

/-- Executes GDDR_TEMPERATURE_READ; the operand has the hottest device of each channel in °C (R492). -/
def execGddrTemperatureRead (temps : List Int) (s : State) : Result :=
  if !s.memoryOn then .next s
  else
    let t := s.advance ((s.tbk / 32000000 + 1) * 32000000)
    .next ((List.range 16).foldl (fun t c => t.setChannel c { t.channel c with hot := 85 < temps.getD c 0 }) t)

/-- Executes PATROL_SCRUB: one chunk of an inline-ECC frame read as level 1 work (R498 to R500). -/
def execPatrolScrub (field page chunk : Nat) (ecc : Ecc) (s : State) : Result :=
  if !s.memoryOn || !(s.cfg field).ecc || pageSize / 64 ≤ chunk then .next s
  else match s.field? field with
    | none => .next s
    | some x => match x.pages.find? (fun p => p.num == page && p.inGddr) with
      | none => .next s
      | some p => match p.placeOf (64 * chunk) with
        | none => .next s
        | some (c, _) => if s.channelServes c then .next (s.checkChunk field page chunk ecc) else .next s

/-! ### Retraining (R493, R494) -/

/-- A page of the field has lines on a pair. -/
def Page.onPair (p : Page) (n : Nat) : Bool := p.loc.pairs.contains n
/-- R493: the present stage of a query waits for lines of a channel (log 74). -/
def State.stageOn (s : State) (c : Nat) (q : Query) : Bool :=
  (s.linesOfSpans q.field (s.stageSpans q)).any (fun cj => cj.1 == c && (s.lineOf cj.1 cj.2).isNone)
/-- R493: class C searches with a request that waits on a channel. -/
def State.searchesOnChannel (s : State) (c : Nat) (d : Cmd) : Bool :=
  d.work == .search && d.cls == 0 && s.queries.any (fun q => q.ref.of d.ring d.seq && s.stageOn c q)

/-- Executes GDDR_RETRAIN: a fifth EDC failure; the channel retrains, and class C work that waits on it ends (R493, log 74). -/
def execGddrRetrain (channel : Nat) (s : State) : Result :=
  if 16 ≤ channel then .fault .noSuchUnit
  else if !s.completing || !s.channelServes channel then .next s
  else
    let t := (s.setChannel channel { s.channel channel with retraining := true }).count 2 (48 + channel) 1
    .next (t.stopCmds (fun d => d.stopped.isNone && s.searchesOnChannel channel d) stHW_FAULT)

/-- PAIR_FAILED entries of a field: one for each index with frames on the pair, one for its other frames (R494). -/
def State.logPairOf (s : State) (pair f : Nat) : State :=
  match s.field? f with
  | none => s
  | some x =>
    let on := x.pages.filter (fun p => p.onPair pair)
    let count := fun (i : Option Nat) => (on.filter (fun p => p.index == i)).length
    let note := fun (t : State) (i : Option Nat) => if count i = 0 then t else
      t.logEvent evPAIR_FAILED f 3 (unitKey 10 pair)
        (leBytes 1 pair ++ leBytes 1 (i.getD 0xFF) ++ zeros 2 ++ leBytes 4 (count i))
    note ((s.indexesOf f).foldl (fun t k => note t (some (k % 64))) s) none
/-- R494, R499: chunks of a page whose check values lay on the failed pair. -/
def Field.lostChecks (x : Field) (f pair : Nat) (p : Page) : List (Nat × Nat × Nat) :=
  match x.checkOf f p.num with
  | none => []
  | some (q, block) =>
    if !q.onPair pair then []
    else ((List.range (pageSize / 64)).filter (fun n => match q.placeOf (65536 * block + 2 * n) with
      | none => false
      | some (c, _) => c / 2 == pair)).map (fun n => (f, p.num, n))
/-- Chunks lost with the check values of a field with inline ECC. -/
def State.loseChecks (s : State) (pair f : Nat) : State :=
  match s.field? f with
  | none => s
  | some x => if x.cfg.ecc then
      let gone := (x.pages.filter (fun p => p.part != .check && p.inGddr)).flatMap (x.lostChecks f pair)
      { s with badChunks := s.badChunks ++ gone.filter (fun b => !s.badChunks.contains b) }
    else s
/-- R494: a pair fails: it reads 4, and the log names what lay on it. -/
def State.failPair (s : State) (pair : Nat) : State :=
  let t := (s.setUnit 10 pair { s.unit 10 pair with entering := false, leaving := false }).unitTo 10 pair 4 true
  let fs := s.fields.map (fun f => f.1)
  let t := fs.foldl (fun t f => t.logPairOf pair f) t
  fs.foldl (fun t f => t.loseChecks pair f) t

/-- Executes GDDR_RETRAIN_END (R493, R494). -/
def execGddrRetrainEnd (channel : Nat) (pass : Bool) (s : State) : Result :=
  if 16 ≤ channel then .fault .noSuchUnit
  else if !s.up || !(s.channel channel).retraining then .next s
  else
    let t := s.setChannel channel { s.channel channel with retraining := false }
    let t := t.logEvent evGDDR_RETRAIN 0xFF (if pass then 1 else 3) noUnit [BitVec.ofNat 8 channel, if pass then 0 else 1]
    if pass then .next t else .next ((t.failPair (channel / 2)).count 0 7 1)

/-! ### Training (Table 9.2) -/

/-- Table 9.1: data rates of the strapped type, rising. -/
def ratesOf (gddr7 : Bool) : List Nat := if gddr7 then [24, 28, 32] else [14, 16, 18, 20]
/-- Table 9.1: device densities of the strapped type, in Gbit. -/
def densitiesOf (gddr7 : Bool) : List Nat := if gddr7 then [16, 24, 32] else [8, 16]
/-- R487: density of the reference channel, the lowest-numbered one that answers. -/
def referenceDensity (ps : List ChannelProbe) : Option Nat := (ps.find? (fun p => p.answers)).map (fun p => p.density)
/-- R487: a channel passes step 2. -/
def passesStep2 (x : Straps) (ref : Option Nat) (p : ChannelProbe) : Bool :=
  p.answers && p.gddr7 == x.gddrType && p.clamshell == x.gddrClam && some p.density == ref &&
    (densitiesOf x.gddrType).contains p.density
/-- R488: the one rate of all channels, and the channels that fail at it; none where no channel passes step 2. -/
def trainRate (x : Straps) (binding : List (Nat × ChannelProbe)) : Option (Nat × List Nat) :=
  if binding.isEmpty then none
  else
    let all := ratesOf x.gddrType
    match (all.filter (fun r => binding.all (fun p => p.2.rates.contains r))).getLast? with
    | some r => some (r, [])
    | none =>
      let r := all.headD 0
      some (r, (binding.filter (fun p => !p.2.rates.contains r)).map (fun p => p.1))
/-- MiB of one memory channel: one device, or two in clamshell (Table 9.1). -/
def channelSize (x : Straps) (density : Nat) : Nat := density * 128 * (if x.gddrClam then 2 else 1)

/-- Executes GDDR_TRAINING: every channel trained, one rate fixed, failed pairs marked (R487 to R490, Table 9.2). -/
def execGddrTraining (probes : List ChannelProbe) (s : State) : Result :=
  if !s.up || s.trust.fw.isNone || s.trust.bootCode != 1 || s.board.gddrOn then .next s
  else
    let ps := (List.range 16).map (fun c => (c, probes.getD c ⟨false, false, 0, false, []⟩))
    let x := s.glob.straps
    let ref := referenceDensity (ps.map (fun p => p.2))
    let binding := ps.filter (fun p => passesStep2 x ref p.2)
    let out := ps.filter (fun p => !passesStep2 x ref p.2)
    let t := s.setBoard { s.board with gddrOn := true }
    let size := channelSize x (ref.getD 0)
    match trainRate x binding with
    | none => .next ((List.range 8).foldl (fun t n => t.unitTo 10 n 4 true) { t with memRate := 0, channelMib := 0 })
    | some (r, slow) =>
      let bad := ((out.map (fun p => p.1)) ++ slow).map (fun c => c / 2)
      let u := { t with memRate := r, channelMib := size }
      .next (((List.range 8).filter (fun n => bad.contains n)).foldl (fun t n => t.unitTo 10 n 4 true) u)

end Sys2Proof.Machine
end

