-- ==== Sys2Proof/Machine/Streams.lean ====
section
/-! DEFINITION. Streams of field programs: SSTART, SWAIT, SPOLL, tile requests and deliveries, halts, page-ins and
resumption (08; R381, R420, R422, R429 to R444, R454, R476 to R482, R507). -/

namespace Sys2Proof.Machine

/-! ### SSTART, SWAIT, SPOLL (R381, R435, R436) -/

/-- The stream of a slot of a core has ended. -/
def State.slotEnded (s : State) (c : Core) (k : Nat) : Bool :=
  match (FMap.get? c.slots k).bind (FMap.get? s.streams) with
  | none => true
  | some y => match y.phase with
    | .ended _ => true
    | _ => false
/-- R381: the slot that an SSTART takes: none while six transfers are outstanding; else the lowest free one, and where ended streams
hold them all, the lowest of those, whose status is then gone (DESIGN CHOICE, log 88). -/
def State.freeSlot (s : State) (c : Core) : Option Nat :=
  let ks : List Nat := [0, 1, 2, 3, 4, 5]
  (ks.find? (fun n => (FMap.get? c.slots n).isNone)).orElse (fun _ => ks.find? (s.slotEnded c))
/-- The stream of a slot gone, its surplus counted (R442). -/
def State.clearSlot (s : State) (core k : Nat) : State :=
  match FMap.get? (s.core core).slots k with
  | none => s
  | some n =>
    let t := s.setCore core { s.core core with slots := FMap.erase (s.core core).slots k }
    match FMap.get? t.streams n with
    | none => t
    | some y => ({ t with streams := FMap.erase t.streams n }).countField y.field 16 y.ahead
/-- A stream that SSTART starts: running, or ended at once when its descriptor is malformed (R433, R434, R436). -/
def Slot3.stream (x : Slot3) (d : Bytes) (slot : Nat) (ok : Bool) : Stream :=
  ({ desc := d, field := x.run.field, run := some x.id, core := x.core, thread := x.thread, slot := slot, reader := .program
     prog := AddrProg.reset, tile := 0, requested := [], delivered := [], ahead := 0, issued := []
     phase := if ok then .running else .ended 2
     context := [], faultTime := 0 } : Stream)

/-- Executes SSTART: the descriptor at the local address in `s1` (R381, R420, R429, R433, R435, R436). -/
def execSstart (core thread : Nat) (s : State) : Result :=
  s.issue 9 0x00 core thread (fun x =>
    let a := localAddr (x.t.reg (wS1 x.w))
    let d := x.c.load a 128
    let ok := a % 64 == 0 && a + 128 ≤ localSize && descOk d
    if ok && descDir d == 1 && descSpace d == 0 then .trap 5
    else match s.freeSlot x.c with
      | none => .wait s
      | some k =>
        let s := s.clearSlot core k
        let n := s.nextStream
        let t := { s with streams := FMap.set s.streams n (x.stream d k ok), nextStream := n + 1 }
        .next (t.setCore core { t.core core with slots := FMap.set (t.core core).slots k n })
          (x.t.setReg (wD x.w) (BitVec.ofNat 64 k)))

/-- The stream in the slot that a register value names. -/
def State.slotStream (s : State) (x : Slot3) : Option (Nat × Stream) :=
  let v := (x.t.reg (wS1 x.w)).toNat
  if 6 ≤ v then none
  else (FMap.get? x.c.slots v).bind (fun n => (FMap.get? s.streams n).map (fun y => (n, y)))

/-- Executes SWAIT on the slot in `s1`; a slot without a stream leaves the value open (R435, log 72). -/
def execSwait (core thread : Nat) (s : State) : Result :=
  s.issue 9 0x01 core thread (fun x =>
    match s.slotStream x with
    | none => .next s (x.t.setReg (wD x.w) (Config.emptySlot (x.t.reg (wS1 x.w))))
    | some (_, y) => match y.phase with
      | .ended st =>
        .next (s.clearSlot core y.slot) (x.t.setReg (wD x.w) (BitVec.ofNat 64 st))
      | _ => .wait s)
/-- Executes SPOLL on the slot in `s1` (R435, log 72). -/
def execSpoll (core thread : Nat) (s : State) : Result :=
  s.issueReg 9 0x02 core thread (fun x =>
    x.t.setReg (wD x.w) (match s.slotStream x with
      | none => Config.emptySlot (x.t.reg (wS1 x.w))
      | some (_, y) => match y.phase with
        | .ended st => BitVec.ofNat 64 st
        | _ => 1))

/-! ### Where the bytes of a tile lie -/

/-- A piece of a stream's sequence: offset, page, byte in the page, bytes. -/
structure Piece where
  off : Nat
  page : Option Page
  at_ : Nat
  len : Nat
/-- Page and byte in it of byte `off` of a stream (R430, R431); no page where its address lies in none. -/
def State.byteOf (s : State) (x : Stream) (r : Run) (off : Nat) : Option Page × Nat :=
  if byEntry x.desc then
    match s.entrySpan x off with
    | none => (none, 0)
    | some a => ((s.spanOf x.field a).head?.map (fun p => p.1), a.start % pageSize)
  else match s.addrAt x off with
    | none => (none, 0)
    | some a => (s.pageIn r (descSpace x.desc) a, a % pageSize)
/-- First and last byte of the tile, as offsets. -/
def Stream.tileSpan (x : Stream) (n : Nat) : Nat × Nat := (4096 * n, min (4096 * (n + 1)) x.length)
/-- The elements of a tile. -/
def State.pieces (s : State) (x : Stream) (r : Run) (n : Nat) : List Piece :=
  let e := descElem x.desc
  let a := x.tileSpan n
  (List.range (ceilDiv (a.2 - a.1) e)).map (fun k =>
    let p := s.byteOf x r (a.1 + k * e)
    ⟨a.1 + k * e, p.1, p.2, min e (a.2 - (a.1 + k * e))⟩)
/-- R431: the index values that a tile of an index-driven stream needs and that lie in the index address space. -/
def State.indexPieces (s : State) (x : Stream) (r : Run) (n : Nat) : List Piece :=
  let d := x.desc
  if descForm d = 0 || num d 29 1 = 1 then []
  else
    let a := x.tileSpan n
    let first := a.1 / num d 44 4
    (List.range ((a.2 - 1) / num d 44 4 + 1 - first)).map (fun k =>
      let at_ := indexAt d (first + k)
      ⟨a.1, s.pageIn r 0 at_, at_ % pageSize, num d 28 1⟩)
/-- Everything that a tile reads: its index values, then its elements. -/
def State.tilePieces (s : State) (x : Stream) (r : Run) (n : Nat) : List Piece := s.indexPieces x r n ++ s.pieces x r n
/-- The program may read the element's page (R420, R441). -/
def Piece.permitted (p : Piece) (r : Run) : Bool :=
  match p.page with
  | none => false
  | some q => q.readableBy r.prog
/-- Pages of the pieces, each once. -/
def pagesOf (ps : List Piece) : List Page := (ps.filterMap (fun p => p.page)).eraseDups
/-- The first page of the pieces that is not resident. -/
def awayPage (ps : List Piece) : Option Page := (pagesOf ps).find? (fun p => !p.inGddr)
/-- Channel lines of the pieces, each once. -/
def linesOfPieces (ps : List Piece) : List (Nat × Nat) :=
  (ps.flatMap (fun p => match p.page with
    | none => []
    | some q => [q.placeOf p.at_, q.placeOf (p.at_ + p.len - 1)].filterMap (fun o => o))).eraseDups
/-- R494, R499, R663: a piece that cannot be read; a write fails only where its frame is lost (R494, R499). -/
def State.pieceLost (s : State) (x : Stream) (ps : List Piece) : Bool :=
  (pagesOf ps).any (fun p => p.damaged || s.lost p) || (descDir x.desc == 0 && ps.any (fun p => match p.page with
    | none => false
    | some q => s.badChunks.any (fun b => b.1 == x.field && b.2.1 == q.num && p.at_ / 64 ≤ b.2.2 && b.2.2 ≤ (p.at_ + p.len - 1) / 64)))

/-! ### Tile requests (R437 to R443, R454) -/

/-- R454, R438: bytes delivered and not yet consumed; a tile of a stream started by SSTART is consumed once it is delivered. -/
def Stream.unconsumed (x : Stream) : Nat :=
  if x.reader = .program then 0
  else sumBy (fun k => (x.tileSpan k).2 - (x.tileSpan k).1) (x.delivered.filter (fun k => x.tile ≤ k))
/-- R454: when the stream's buffer runs dry; a stream with `drain` 0 has no deadline. -/
def Stream.deadline (x : Stream) (now : Nat) : Option Nat :=
  if descDrain x.desc = 0 then none else some (now + x.unconsumed * 1000 / descDrain x.desc)
/-- A request of a stream for a line: served by the Granary, or waiting at its channel. -/
def State.askLine (s : State) (n tile : Nat) (x : Stream) (cj : Nat × Nat) : State :=
  let r := s.lookupLine x.field cj.1 cj.2
  if r.2 then r.1.fetched n 256
  else
    let t := r.1
    let c := t.channel cj.1
    let q : Request := ⟨unitKey 0 x.core, x.field, n, tile, 1, false, false, cj.2, x.deadline t.tbk⟩
    t.setChannel cj.1 { c with queue := c.queue ++ [q] }
/-- A tile requested. -/
def State.askTile (s : State) (n tile : Nat) (ls : List (Nat × Nat)) : State :=
  match FMap.get? s.streams n with
  | none => s
  | some x =>
    let t := ls.foldl (fun t cj => match FMap.get? t.streams n with
      | none => t
      | some y => t.askLine n tile y cj) s
    match FMap.get? t.streams n with
    | none => t
    | some y => t.setStream n { y with requested := x.requested ++ [tile] }
/-- R425: the bytes of a write tile as it is issued, by scratch address (log 109). -/
def State.issueOf (s : State) (x : Stream) (ps : List Piece) : List (Nat × Bytes) :=
  ps.filterMap (fun p => p.page.map (fun q =>
    (q.n * pageSize + p.at_, Mem.readN 0 (s.core x.core).mem (descPlace x.desc p.off) p.len)))
/-- R420, R438 to R440, R493: one tile of a stream's run-ahead. Only the oldest faults; a request for another that cannot be
made is dropped. -/
def State.requestTile (s : State) (n : Nat) (r : Run) (tile : Nat) : State :=
  match FMap.get? s.streams n with
  | none => s
  | some x =>
    if x.phase != .running || x.requested.contains tile || !x.roomFor tile then s
    else
      let ps := s.tilePieces x r tile
      let oldest := tile == x.tile
      if !ps.all (fun p => p.permitted r) then (if oldest then s.streamTrap n x else s)
      else if (awayPage ps).isSome then s
      else if s.pieceLost x ps then (if oldest then s.failRun r stHW_FAULT else s)
      else if descDir x.desc = 1 then
        s.setStream n { x with requested := x.requested ++ [tile], issued := FMap.set x.issued tile (s.issueOf x ps) }
      else (s.askTile n tile (linesOfPieces ps)).usePages x.field (fun q => (pagesOf ps).any (fun p => p.num == q.num))
/-- R438: the tiles that a stream keeps asked for: a read stream the oldest and the four behind it, a write stream the
oldest. -/
def Stream.window (x : Stream) : List Nat :=
  ((List.range (if descDir x.desc = 1 then 1 else 5)).map (fun k => x.tile + k)).filter (fun t => t < x.tiles)
/-- The stream's sequence is known. -/
def Stream.ready (x : Stream) : Bool := x.phase == .running && !x.desc.isEmpty && (descForm x.desc == 1 || x.prog.done)

/-- Executes STREAM_TILE_REQUEST (R420, R437 to R441, R443, R454, R494, R499). -/
def execStreamTileRequest (stream : Nat) (s : State) : Result :=
  match s.streamRun stream with
  | none => .next s
  | some (x, r) =>
    if !s.completing || !x.ready then .next s
    else .next (x.window.foldl (fun t k => t.requestTile stream r k) s)

/-! ### Deliveries (R382, R432, R434) -/

/-- Requests of the tile still wait at a channel. -/
def State.tileWaits (s : State) (n tile : Nat) : Bool :=
  s.channels.any (fun c => c.2.queue.any (fun q => q.stream == n && q.tile == tile && !q.write))
/-- The bytes of a tile that a read stream delivers. -/
def State.tileData (s : State) (x : Stream) (r : Run) (tile : Nat) : Bytes :=
  (s.pieces x r tile).flatMap (fun p => match p.page with
    | none => zeros p.len
    | some q => s.pageBytes x.field q p.at_ p.len)
/-- The tile no longer outstanding; the stream ends with its last one. -/
def Stream.take (x : Stream) (tile : Nat) : Stream :=
  let all := tile :: x.delivered
  ({ x with
    delivered := all, tile := lowestFree all (x.tiles + 1) x.tile, issued := FMap.erase x.issued tile
    ahead := x.ahead - min x.ahead ((x.tileSpan tile).2 - (x.tileSpan tile).1) } : Stream).settle
/-- Scratch lines that writes touch, by number. -/
def writtenLines (ws : List (Nat × Bytes)) : List Nat := (ws.map (fun w => w.1 / 256)).eraseDups
/-- A scratch line with the writes that lie in it laid over it. -/
def State.mergedLine (s : State) (f prog line : Nat) (ws : List (Nat × Bytes)) : Bytes :=
  (ws.filter (fun w => w.1 / 256 == line)).foldl (fun b w => overlay b (w.1 % 256) w.2) (s.scratchLine f prog (256 * line))
/-- Chunks of a scratch line that writes cover whole (R499). -/
def coveredChunks (ws : List (Nat × Bytes)) (line : Nat) : List Nat :=
  ([0, 1, 2, 3] : List Nat).filter (fun k => (List.range 64).all (fun b =>
    ws.any (fun w => w.1 ≤ 256 * line + 64 * k + b && 256 * line + 64 * k + b < w.1 + w.2.length)))
/-- R499, R533: the writes of a tile laid into the scratch pages, line by line. -/
def State.writeTile (s : State) (x : Stream) (r : Run) (ws : List (Nat × Bytes)) : State :=
  (writtenLines ws).foldl (fun t line => match t.pageIn r 1 (256 * line) with
    | none => t
    | some q => match q.placeOf (256 * line % pageSize) with
      | none => t
      | some (c, j) =>
        let b := t.mergedLine x.field r.prog line ws
        let t := t.writeLine x.field r.prog c j (256 * line) b b
        let t := (coveredChunks ws line).foldl (fun t k => t.coverChunks x.field q.num (256 * line % pageSize + 64 * k) 64) t
        t.usePages x.field (fun p => p.num == q.num)) s
/-- A write waits for acknowledgements on one of the lines. -/
def State.writeHeld (s : State) (r : Run) (ws : List (Nat × Bytes)) : Bool :=
  (writtenLines ws).any (fun line => match (s.pageIn r 1 (256 * line)).bind (fun q => q.placeOf (256 * line % pageSize)) with
    | none => false
    | some (c, j) => (s.lineOf c j).any (fun l => l.dir == .W))
/-- A tile of a read stream laid into the consumer's buffer (R432). -/
def State.landTile (s : State) (x : Stream) (r : Run) (tile : Nat) : State :=
  s.setCore x.core ((s.core x.core).store (descPlace x.desc (4096 * tile)) (s.tileData x r tile))
/-- R440: a tile ahead that cannot be delivered is dropped, to be asked for again. -/
def Stream.drop (x : Stream) (tile : Nat) : Stream := { x with requested := x.requested.filter (fun k => k != tile) }

/-- Executes STREAM_TILE_DELIVER (R382, R425, R432 to R434, R438, R440, R494, R499, R533). -/
def execStreamTileDeliver (stream tile : Nat) (s : State) : Result :=
  match s.streamRun stream with
  | none => .next s
  | some (x, r) =>
    if !s.completing || !x.ready || !x.requested.contains tile || x.delivered.contains tile || s.tileWaits stream tile then .next s
    else
      let ps := s.tilePieces x r tile
      let ws := FMap.getD x.issued tile []
      if s.pieceLost x ps then
        (if tile = x.tile then .next (s.failRun r stHW_FAULT) else .next (s.setStream stream (x.drop tile)))
      else if descDir x.desc = 0 then .next ((s.landTile x r tile).setStream stream (x.take tile))
      else if s.writeHeld r ws then .next s
      else .next ((s.writeTile x r ws).setStream stream (x.take tile))

/-! ### Halts and page-ins (R422, R476 to R482) -/

/-- Bit i: tile `tile` + 1 + i was delivered (Table 8.7). -/
def Stream.aheadMask (x : Stream) : Nat := sumBy (fun i => if x.delivered.contains (x.tile + 1 + i) then 2 ^ i else 0) (List.range 8)
/-- Table 8.7: the context of a program's stream that halts at an index address. -/
def Stream.haltContext (x : Stream) (n addr : Nat) : Bytes :=
  let d := x.desc
  contextBytes (n % 65536) 1 (descForm d) x.thread x.core 0xFFFF_FFFF x.tile addr
    (positionBytes (descForm d) (if descForm d = 1 then x.tile * 4096 / num d 44 4 else 0)
      (progAt d (4096 * x.tile) x.prog.steps AddrProg.reset)) x.aheadMask

/-- Executes STREAM_HALT: the oldest unconsumed tile touches a page that is not resident; its run carries PAGED (R422,
R476, R479). -/
def execStreamHalt (stream : Nat) (s : State) : Result :=
  match s.streamRun stream with
  | none => .next s
  | some (x, r) =>
    if !s.completing || !x.ready || x.tiles ≤ x.tile then .next s
    else
      let ps := s.tilePieces x r x.tile
      match ps.find? (fun p => p.permitted r && p.page.any (fun q => !q.inGddr)) with
      | none => .next s
      | some p => match p.page, x.run with
        | some q, some id =>
          let addr := q.num * pageSize + p.at_
          let t := s.setStream stream { x with phase := .halted q.num, context := x.haltContext stream addr, faultTime := s.tbk }
          .next ((t.setRun id { r with paged := true }).traceRec 5 x.field noUnit (BitVec.ofNat 64 stream) (BitVec.ofNat 64 q.num))
        | _, _ => .next s

/-- The stream waits for a page of a field. -/
def Stream.waitsFor (x : Stream) (f page : Nat) : Bool := x.field == f && x.phase == .halted page
/-- R477: the page of a field whose first fault is the earliest. -/
def State.faultingPage (s : State) (f : Nat) : Option Page :=
  match s.field? f with
  | none => none
  | some y =>
    let waits := (s.streams.filter (fun x => x.2.field == f)).filterMap (fun x => match x.2.phase with
      | .halted p => (y.pages.find? (fun q => q.num == p && !q.inGddr)).map (fun q => (x.2.faultTime, q))
      | _ => none)
    (argMin (fun (e : Nat × Page) => e.1) waits).map (fun e => e.2)
/-- The command reads through the stream. -/
def State.readsThrough (s : State) (x : Stream) (c : Cmd) : Bool :=
  match x.reader with
  | .program => x.run.any (fun id => c.work == .run id)
  | .rerank r => r.of c.ring c.seq
  | .pass w l e => (match FMap.get? s.windows w with
    | none => false
    | some y => y.passes.any (fun z => z.list == l && z.e0 == e && z.visitors.any (fun r => r.of c.ring c.seq)))
  | .cmd ring seq => c.is ring seq
  | .evaporator _ | .part _ | .copy _ => false
/-- The command waits for a page of a field (R481). -/
def State.waitsForPage (s : State) (f page : Nat) (c : Cmd) : Bool :=
  s.streams.any (fun x => x.2.waitsFor f page && s.readsThrough x.2 c)
/-- R481: the compaction of an Evaporator given up, with the COMPACTs that wait for it (log 102). -/
def State.giveUp (s : State) (n : Nat) : State :=
  match FMap.get? s.evaporators n with
  | none => s
  | some e => s.abandonCompaction n e
/-- What a copy tells the lead of a COMMIT (R584). -/
def State.answerCommit (s : State) (key status : Nat) : State :=
  s.sendMessage s.casc.leadOrdinal msgCOMMIT 0 (leBytes 1 (key / 64) ++ leBytes 1 (key % 64) ++ leBytes 2 status)
/-- R481: the COMMIT of a copy fails for want of a page. -/
def State.failCopy (s : State) (key : Nat) : State :=
  let t := s.dropReader (.copy key)
  (t.setCasc { t.casc with commitPages := FMap.erase t.casc.commitPages key }).answerCommit key stHW_FAULT
/-- R481, R507: every command that waits for a page ends with ST_HW_FAULT; so do the parts of searches and the compactions that
wait for it. -/
def State.failWaiting (s : State) (f page : Nat) : State :=
  let readers := (s.streams.filter (fun x => x.2.waitsFor f page)).map (fun x => x.2.reader)
  let t := s.stopCmds (fun c => c.stopped.isNone && s.waitsForPage f page c) stHW_FAULT
  readers.foldl (fun t r => match r with
    | .evaporator n => t.giveUp n
    | .part n => t.failPart n
    | .copy k => t.failCopy k
    | _ => t) t
/-- R507: a field in HASH mapping needs a frame while a pair is out of service. -/
def State.hashBlocked (s : State) (f : Nat) : Bool := (s.cfg f).mapHash && !(s.halfWhole 0 && s.halfWhole 1)

/-- R477: the page-in of a field that goes on, with the pages that it passes over, or else the page whose fault is the earliest. -/
def State.pageInDue (s : State) (f : Nat) : Option (Page × List Nat) :=
  match s.field? f with
  | none => none
  | some y => match y.pageIn.bind (fun n => (y.pages.find? (fun p => p.num == n.1 && !p.inGddr)).map (fun p => (p, n.2))) with
    | some r => some r
    | none => (s.faultingPage f).map (fun p => (p, []))

/-- Executes PAGE_IN: the page of the earliest fault; `failedWriteBacks` write-backs of evicted frames fail first (R477,
R481, R507). -/
def execPageIn (field : Nat) (readOk : Bool) (failedWriteBacks : Nat) (s : State) : Result :=
  if !s.completing then .next s
  else match s.pageInDue field with
    | none => .next s
    | some (p, passed) =>
      if s.hashBlocked field then .next ((s.notePageIn field none).failWaiting field p.num)
      else match s.bringIn field p passed failedWriteBacks readOk with
        | .done t => .next t
        | .waits t => .next t
        | .failed t => .next ((t.logEvent evPAGE_IN_FAILED field 2 noUnit (leBytes 8 p.num)).failWaiting field p.num)

/-- R478: a halted stream resumed: a program's stream asks again for what was not delivered, an LDC issues again, and a read of the
device's own work goes on at the page in its next step. -/
def State.resumeStream (s : State) (n : Nat) (x : Stream) (page : Nat) : State :=
  let t := if x.reader != .program then s.setStream n { x with phase := .resumed page }
    else if x.desc.isEmpty then { s with streams := FMap.erase s.streams n }
    else s.setStream n { x with phase := .running, requested := x.delivered }
  t.traceRec 5 x.field noUnit (BitVec.ofNat 64 n) (BitVec.ofNat 64 page)

/-- Executes STREAM_RESUME: every stream halted on a resident page (R478). -/
def execStreamResume (field page : Nat) (s : State) : Result :=
  if !s.completing then .next s
  else match s.field? field with
    | none => .next s
    | some y =>
      if y.pages.any (fun p => p.num == page && p.inGddr) then
        .next ((s.streams.filter (fun x => x.2.waitsFor field page)).foldl (fun t x => t.resumeStream x.1 x.2 page) s)
      else .next s

end Sys2Proof.Machine
end

