-- ==== Sys2Proof/Machine/CascadeData.lean ====
section
/-! DEFINITION. What members and the lead exchange about cascade indexes: mutations, COMMITs, parts of searches,
copies and scrubbing (10_cascade; R583 to R591, R596, R597, R602 to R607). -/

namespace Sys2Proof.Machine

/-! ### Mutations and COMMIT on a copy -/

/-- R583: what a record of the lead does on a copy; none for a record that cannot be prepared. -/
def Index.memberRecord (x : Index) (opcode vf : Nat) (record : Bytes) : Option (List PendRec × List (BitVec 64) × Acc) :=
  if opcode = 0x11 then some ([], [BitVec.ofNat 64 (num record 0 8)], acc0)
  else
    let coded : Bool := opcode == 0x13
    (x.prepareRec coded vf (if coded then codedRec x.p vf record else plainRec x.p vf record)).map
      (fun r => ([r.1], [], r.2))
/-- A record joined to the mutation that it belongs to. -/
def Index.joinPending (x : Index) (ring : Nat) (seq : BitVec 48) (puts : List PendRec) (dels : List (BitVec 64)) : Index :=
  if x.pending.any (fun m => m.ring == ring && m.seq == seq) then
    { x with pending := x.pending.map (fun m =>
        if m.ring = ring ∧ m.seq = seq then { m with puts := m.puts ++ puts, dels := m.dels ++ dels } else m) }
  else { x with pending := x.pending ++ [⟨ring, seq, x.stamp, puts, dels⟩], stamp := x.stamp + 1 }
/-- R583: a copy's index with a record in its pending state. Where no page can be had for it, the record stays all the same, and the
COMMIT that takes it in fails in step 3 of R247 (DESIGN CHOICE, log 112). -/
def State.holdRecord (s : State) (field index : Nat) (x y : Index) : State :=
  let t := s.setIndex (indexKey field index) y
  ((t.syncMutation field).getD t).storeSpans field
    [⟨some index, .pendingStore, 0, x.pendingBytes, y.pendingBytes - x.pendingBytes⟩]
/-- R588: a SPLIT-DIM member's partials of the list assignment and encoding of an INSERT or UPSERT record. -/
def State.shareRecord (s : State) (x : Index) (seq : BitVec 48) (opcode vf : Nat) (record : Bytes) : State :=
  if x.p.cascMode ≠ 2 || !(opcode == 0x10 || opcode == 0x12) then s
  else match prepare x.p (vecFmt vf) (plainRec x.p vf record).pats with
    | none => s
    | some (v, _) => s.contributeRecord x (seq.zeroExtend 32) v

/-- Executes MUTATION_RECORD on a copy: the list and the code are the copy's own (R234 to R239, R583, R588). -/
def execMutationRecord (field index ring : Nat) (seq : BitVec 48) (opcode vecFmt : Nat) (record : Bytes) (s : State) : Result :=
  if !s.completing || !s.follows then .next s
  else match s.index? field index with
    | none => .next s
    | some x =>
      if !x.active || x.p.cascMode == 0 || !([0x10, 0x11, 0x12, 0x13] : List Nat).contains opcode then .next s
      else match x.memberRecord opcode vecFmt record with
        | none => .next s
        | some (puts, dels, a) =>
          let t := (s.holdRecord field index x (x.joinPending ring seq puts dels)).shareRecord x seq opcode vecFmt record
          let u := t.noteReplays field a
          if t.replayDiffers field a then .next (u.logMismatch field ring seq) else .next u

/-- R584: a copy's index with the mutations that a COMMIT of the lead takes in set apart from the others. -/
def Index.setApart (x : Index) (taken : List (Nat × BitVec 48)) : Index :=
  { x with pending := x.pending.map (fun m => { m with stamp := if taken.contains (m.ring, m.seq) then 0 else 1 }), stamp := 2 }
/-- R247, R249, R476, R584: the COMMIT of a copy tried: it fails with a status, waits, or has taken effect. -/
def State.commitCopy (s : State) (key : Nat) (x : Index) (taken : List (Nat × BitVec 48)) : State × Option Nat :=
  let f := key / 64
  let s := s.dropReader (.copy key)
  let done := FMap.getD s.casc.commitPages key []
  let clear := fun (t : State) => t.setCasc { t.casc with commitPages := FMap.erase t.casc.commitPages key }
  match (s.setIndex key (x.setApart taken)).prepareCommit key 1 with
  | none => (clear s, some stNO_CAPACITY)
  | some r =>
    if r.spans.any (r.s.spanLost f) then (clear s, some stHW_FAULT)
    else match r.s.firstAway f done r.spans with
      | some g =>
        let t := s.setCasc { s.casc with commitPages := FMap.set s.casc.commitPages key (r.s.readUpTo f done r.spans g.page.num) }
        (t.haltReader f (.copy key) 1 replyUnit false r.spans g (fun _ => false), none)
      | none => if r.s.retrains f r.spans then (s, none) else (clear (r.committed key 1), some 0)

/-- Executes COMMIT_MESSAGE on a copy: the mutations that the lead's COMMIT takes in are resolved and applied, and the epoch is
readable at the named lead planner epoch; `readable` are the other epochs that the lead still reads (log 103). The copy answers with
its status; where a page is not resident it halts, and the message is taken again (R247 to R250, R476, R584). -/
def execCommitMessage (field index : Nat) (taken : List (Nat × BitVec 48)) (readable : List Nat) (leadEpoch : BitVec 64)
    (s : State) : Result :=
  let key := indexKey field index
  if !s.completing || !s.follows || s.readerHalted (.copy key) then .next s
  else match s.index? field index with
    | none => .next s
    | some x =>
      if !x.active || x.p.cascMode == 0 then .next s
      else match s.commitCopy key x taken with
        | (t, none) => .next t
        | (t, some 0) =>
          let u := (t.modIndex key (fun y => { y with holds := readable.filter (fun e => e != y.epoch) })).advance (t.leadEpochAt leadEpoch)
          .next (u.answerCommit key 0)
        | (t, some st) => .next (t.answerCommit key st)

/-! ### Parts of searches (R585, R586) -/

/-- The query of a part, as this copy scans it, with the filter and the bitmap that the lead bound (R39). -/
def State.partQuery (s : State) (m : SearchPartMsg) (v : List (BitVec 32)) (fl : Flags) : Query :=
  { ref := ⟨adminRing, BitVec.ofNat 48 m.tag.toNat, 0⟩, field := m.field, index := m.index, cls := m.cls, epoch := m.epoch.toNat
    vec := v, k := m.k, rerank := m.rerank, nprobe := m.lists.length, t8 := m.t8, radius := m.radius, sbac := none, ms := false
    outFmt := 0, filter := m.filter, bitmapId := m.bitmapId, bitmap := m.bitmap, admitted := s.tbk
    order := s.order, ownSlots := some [m.slot], key := 0, core := none, cryst := 0, sieve := 0, assayer := 0, window := none
    coulterDone := true, lists := m.lists, read := [], table := none, todo := [], cands := [], qualified := 0, reranked := false
    merged := none, parts := [], flags := fl }
/-- R590: the image of a list with a trigger epoch. -/
def ListRec.imageAt (l : ListRec) (e0 : Nat) : Image := ((l.image :: l.olds).find? (fun i => i.e0 == e0)).getD l.image
/-- R590: the image that a SPLIT-DIM part reads of its n-th list. -/
def partImage (m : SearchPartMsg) (x : Index) (n : Nat) : Image :=
  (x.list (m.lists.getD n 0)).imageAt (m.e0s.getD n 0)
/-- A copy's table and scan of the part's lists: the query with its first k′ candidates, and what was counted. -/
def Index.scanPart (x : Index) (q : Query) : Scan :=
  let t := x.buildTable q.vec q.t8
  q.lists.foldl (fun a l =>
    let y := a.q.scan x (x.searchWay 0) t.1 ((x.list l).imageFor q.epoch q.order)
    ⟨{ y.q with cands := a.q.keep y.new }, [], a.considered + y.considered, a.sent + y.sent, a.acc.join y.acc⟩)
    ⟨{ q with flags := q.flags ||| t.2.fl }, [], 0, 0, t.2⟩
/-- What a part reads. -/
def State.partSpans (s : State) (x : Index) (j : PartJob) : List Span :=
  let q := j.query
  let hash := (s.cfg q.field).mapHash
  if x.p.cascMode ≠ 2 then
    codebookSpan q.index x.p :: q.lists.flatMap (fun l => s.visitSpans x l q) ++
      (if q.rerank = 0 then [] else s.candSpans x q (x.scanPart q).q.cands)
  else if !j.msg.entries.isEmpty then
    j.msg.entries.map (fun e => vectorSpan q.index x.p hash e.1 ((x.list e.1).imageFor q.epoch q.order) e.2)
  else if j.msg.lists.isEmpty then codebookSpan q.index x.p :: centroidSpans q.index x.p hash
  else (List.range j.msg.lists.length).flatMap (fun n => s.imageStream q.field q.index x (j.msg.lists.getD n 0) (partImage j.msg x n))
/-- R585: a part scanned, re-ranked where asked, and answered; a replay that does not repeat its run fails it (R329). -/
def State.answerPart (s : State) (n : Nat) (x : Index) (q : Query) (m : SearchPartMsg) : State :=
  let r := x.scanPart q
  let e := if q.rerank = 0 then (r.q, acc0) else r.q.withExact x (x.searchWay 0)
  let a := r.acc.join e.2
  let t := ((s.noteReplays q.field a).countField q.field 11 r.considered).countField q.field 12 r.sent
  if s.replayDiffers q.field a then (t.logMismatch q.field q.ref.ring q.ref.seq).failPart n
  else ({ t with served := FMap.erase t.served n }).replyPart m.tag 0 e.1.qualified e.1.flags e.1.cands
/-- R588, R589: what a SPLIT-DIM member sends for a stage of a search: its partials of the coarse and table sums with its largest
spread and its part of B; of the coded keys of its lists; or of the exact keys asked for. -/
def State.sharePart (s : State) (x : Index) (q : Query) (m : SearchPartMsg) : State :=
  let ms := x.placement.headD []
  let i := ms.idxOf s.casc.ordinal
  let head := leBytes 4 m.tag.toNat
  let sums := fun (s : State) (l : List SplitSum) => l.foldl (fun s y => s.contribute x x.modeA m.tag y) s
  if !m.entries.isEmpty then
    sums s (m.entries.filterMap (fun e => ((x.list e.1).imageFor q.epoch q.order).slots[e.2]?.map (fun y =>
      exactSum x.p q.vec e.1 e.2 y.vec)))
  else if m.lists.isEmpty then
    let t := (x.table32 q.vec).map (fun row => row.map (fun c => c.1))
    let u := sums s (x.coarseSums q.vec ++ x.entrySums x.p.metric 1 q.vec)
    if !q.t8 then u
    else
      let w := u.sendMessage x.combiner msgSPREAD 1 (head ++ leBytes 4 (ownSpread x.p ms.length i t).toNat)
      w.contribute x false m.tag ⟨[5], terms32 (t.map least32), []⟩
  else
    let t := (x.buildTable q.vec q.t8).1
    (List.range m.lists.length).foldl (fun s n =>
      let l := m.lists.getD n 0
      ((partImage m x n).slots.mapIdx (fun pos e => (pos, e.code))).foldl (fun s e =>
        if q.t8 then s.sendMessage x.combiner msgPARTIAL 1 (head ++ entryName 2 l e.1 ++ leBytes 4 (intPartial x.p ms.length i t e.2))
        else s.contribute x x.modeA m.tag (codeSum x.p t l e.1 e.2)) s) s
/-- A part whose pages have all been resident. -/
def State.endPart (s : State) (n : Nat) (j : PartJob) (x : Index) : State :=
  if x.p.cascMode = 2 then { s with served := FMap.erase s.served n }.sharePart x j.query j.msg
  else s.answerPart n x j.query j.msg
/-- R476, R480, R493, R499, R685: a part goes on: it fails on what cannot be read, halts on a page that is away, or ends. `first`
says that it has only just been taken. -/
def State.continuePart (s : State) (n : Nat) (j : PartJob) (x : Index) (first : Bool) : State :=
  let q := j.query
  let f := q.field
  let me := Reader.part n
  let s := s.dropReader me
  let spans := s.partSpans x j
  let unit := unitKey 0 ((s.inService 0).headD 0)
  let halt := fun (s : State) (xs : List Span) (g : Segment) => s.haltReader f me q.cls unit true xs g (fun _ => false)
  let forced := if !first || q.cls = 0 then none
    else q.lists.findSome? (fun l => (s.forcedFault f q.index l).map (fun c => (c, s.visitSpans x l q)))
  if spans.any (s.spanFault f) then s.failPart n
  else match forced.bind (fun c => (s.segments f 0 c.2).head?.map (fun g => (c, g))) with
    | some (c, g) => halt ((s.disarm c.1.1 c.1.2).countField f 29 1) c.2 g
    | none => match s.firstAway f j.read spans with
      | some g =>
        if q.cls = 0 then (s.logEvent evCLASS_C_NOT_RESIDENT f 2 noUnit (leBytes 8 g.page.num)).failPart n
        else halt { s with served := FMap.set s.served n { j with read := s.readUpTo f j.read spans g.page.num } } spans g
      | none =>
        if s.retrains f spans then (if q.cls = 0 then s.failPart n else s)
        else
          let t := s.readSpans f q.cls unit false spans
          if spans.any (t.spanFault f) then t.failPart n else t.endPart n j x

/-- Executes SEARCH_PART on a copy: its first k′ candidates under R21 on the coded key, each with its exact key where
the search re-ranks; in SPLIT-DIM its partials. A part that has halted goes on with the same message once its page has come (R54,
R283 to R298, R450, R476, R585 to R589, log 114). -/
def execSearchPart (part : SearchPartMsg) (s : State) : Result :=
  if !s.completing || !(s.follows || s.leads) then .next s
  else match s.index? part.field part.index with
    | none => .next s
    | some x =>
      if !x.active || x.p.cascMode == 0 then .next s
      else match s.served.find? (fun j => j.2.msg == part) with
        | some (n, j) => if s.readerHalted (.part n) then .next s else .next (s.continuePart n j x false)
        | none =>
          let f := vecFmt part.vecFmt
          match prepare x.p f (patterns f x.p.v part.query) with
          | none => .next (s.replyPart part.tag stBAD_VALUE 0 0 [])
          | some (v, a) =>
            let n := maxBy (fun j => j.1 + 1) s.served
            let j : PartJob := ⟨part, s.partQuery part v a.fl, []⟩
            .next ({ s with served := FMap.set s.served n j, order := s.order + 1 }.continuePart n j x true)

/-- Executes SEARCH_PART_REPLY on the lead: a copy's candidates join the union; a part that ended with ST_HW_FAULT ends its command
with it (R50, R54, R296, R585). -/
def execSearchPartReply (ring : Nat) (seq : BitVec 48) (query slot status : Nat)
    (cands : List (BitVec 32 × BitVec 64 × Option (BitVec 32))) (qualified : Nat) (flags : BitVec 11) (s : State) : Result :=
  if !s.completing then .next s
  else match s.query? ⟨ring, seq, query⟩ with
    | none => .next s
    | some q =>
      if !q.parts.any (fun p => p.1 == slot) then .next s
      else
        let q := { q with flags := q.flags ||| flags }
        if status ≠ 0 then .next ((s.putQuery q).faultQueries (fun p => p.ref == q.ref))
        else .next (s.putQuery { q with
          parts := q.parts.filter (fun p => p.1 != slot), cands := q.keep (cands.map (fun c => ⟨c.1, c.2.1, c.2.2⟩))
          qualified := q.qualified + qualified })

/-! ### The standby lead (R596) -/

/-- Both items say the same thing: a later one replaces an earlier one. -/
def sameItem (a b : StandbyItem) : Bool :=
  match a, b with
  | .config f _, .config g _ => f == g
  | .definition f i _, .definition g j _ => f == g && i == j
  | .placement f i _, .placement g j _ => f == g && i == j
  | .filter f i _, .filter g j _ => f == g && i == j
  | .bitmap f i _, .bitmap g j _ => f == g && i == j
  | .committed f i _, .committed g j _ => f == g && i == j
  | _, _ => false
/-- Executes STANDBY_SYNC on the standby lead (R596). -/
def execStandbySync (item : StandbyItem) (s : State) : Result :=
  if !s.up || !s.cascFormed || s.role != 3 then .next s
  else .next (s.setCasc { s.casc with standby := s.casc.standby.filter (fun i => !sameItem item i) ++ [item] })

/-! ### Copies and scrubbing -/

/-- Executes SLOT_COPY on the lead: a fenced copy is whole again, copied from the lowest-ordinal covering copy; it serves
from the next planner epoch (R597, R606). -/
def execSlotCopy (field index slot ordinal : Nat) (s : State) : Result :=
  if !s.completing || !s.leads then .next s
  else match s.index? field index with
    | none => .next s
    | some x =>
      if x.p.cascMode == 0 || x.p.cascMode == 2 || !x.fenced.contains (slot, ordinal) || x.copied.contains (slot, ordinal) ||
          !s.casc.isMember ordinal then .next s
      else match argMin (fun m => m) (s.slotCopies x slot) with
        | none => .next s
        | some m => .next ((s.setIndex (indexKey field index) { x with copied := x.copied ++ [(slot, ordinal)] }).sendMessage
            m msgSLOT_COPY 2 (leBytes 1 field ++ leBytes 1 index ++ leBytes 2 slot ++ leBytes 1 ordinal))

/-- R603: what this device reports of a list of an index: the digest and the padding flag of each block, the digest of the ID map, and
the slot count. -/
def State.ownReport (s : State) (field index list : Nat) (x : Index) : CopyReport :=
  let key := indexKey field index
  let hash := (s.cfg field).mapHash
  let m := (x.list list).image
  let block := fun (b : Nat) =>
    let es := (s.blockSlots key x b).getD []
    let place := blockPlace hash b list
    let bytes := fun (part : Part) (size : Nat) =>
      (List.range size).map (fun o => s.indexPartByte key x hash part place.1 (place.2 * size + o))
    (sha384 (x.p.entryBytes es),
      x.p.paddingFlag es.length (bytes .scan x.p.scanBytes) (if x.p.fpFmt = 0 then [] else bytes .full x.p.fullBytes))
  ⟨s.casc.ordinal, m.blocks.map block, sha384 (x.idRecords.flatMap (fun n => leBytes 8 n)), m.slots.length⟩
/-- A report in a message. -/
def CopyReport.bytes (r : CopyReport) : Bytes :=
  leBytes 1 r.ordinal ++ leBytes 4 r.slots ++ r.buckets ++ r.blocks.flatMap (fun b => b.1 ++ leBytes 1 (if b.2 then 1 else 0))
/-- R602: what two copies that agree have in common. -/
def CopyReport.data (r : CopyReport) : List Bytes × Bytes × Nat := (r.blocks.map (fun b => b.1), r.buckets, r.slots)
/-- Some block of the copy has its padding flag set. -/
def CopyReport.padded (r : CopyReport) : Bool := r.blocks.any (fun b => b.2)
/-- R605: the copies to fence: those outside the largest set of equal digests where it is a strict majority, else all. -/
def toFence (rs : List CopyReport) : List Nat :=
  let count := fun (r : CopyReport) => (rs.filter (fun q => q.data == r.data)).length
  let best := maxBy count rs
  if rs.length < 2 * best then (rs.filter (fun r => count r != best)).map (fun r => r.ordinal) else rs.map (fun r => r.ordinal)
/-- R603: every digest is the same. -/
def digestsAgree (rs : List CopyReport) : Bool :=
  match rs with
  | [] => true
  | r :: t => t.all (fun q => q.data == r.data)
/-- `detail` of a scrub event (Table 12.5). -/
def scrubDetail (index list ordinal : Nat) : Bytes := leBytes 1 index ++ leBytes 4 list ++ leBytes 1 ordinal
/-- R604: padding rewritten on a copy, and the event. -/
def State.scrubPad (s : State) (field index list m : Nat) : State :=
  (s.logEvent evSCRUB_PAD field (Config.severity evSCRUB_PAD) noUnit (scrubDetail index list m)).sendMessage m msgPAD_REWRITE 2
    (leBytes 1 field ++ leBytes 1 index ++ leBytes 4 list)
/-- R605: copies fenced, and the event for each. -/
def State.scrubData (s : State) (field index slot list : Nat) (x : Index) (ms : List Nat) : State :=
  let s := ms.foldl (fun s m => s.logEvent evSCRUB_DATA field (Config.severity evSCRUB_DATA) noUnit (scrubDetail index list m)) s
  (s.setIndex (indexKey field index) { x with fenced := (x.fenced ++ ms.map (fun m => (slot, m))).eraseDups }).refreshCasc
/-- R607: GDDR bytes that comparing a list reads on a member. -/
def State.scrubBytes (s : State) (field index : Nat) (x : Index) (l : Nat) : Nat :=
  let hash := (s.cfg field).mapHash
  let m := (x.list l).image
  sumBy (fun a => a.len) (imageSpans index x.p hash l m m.slots.length) +
    (if x.p.fpFmt = 0 then 0 else m.blocks.length * x.p.fullBytes)
/-- R602 to R605: the reports of the serving copies of a slot compared. -/
def State.scrubCompare (s : State) (field index slot list : Nat) (x : Index) (rs : List CopyReport) : State :=
  if digestsAgree rs then (rs.filter CopyReport.padded).foldl (fun s r => s.scrubPad field index list r.ordinal) s
  else s.scrubData field index slot list x (toFence rs)

/-- Executes SCRUB_LIST_COMPARE; `copies` are the reports of the other copies. A copy that follows reports its own list to the lead;
the lead compares, its own report with the others' where it serves the slot. Both wait until they have swapped every compaction of the
list (R264, R602 to R607). -/
def execScrubListCompare (field index slot list : Nat) (copies : List CopyReport) (s : State) : Result :=
  if !s.completing || !(s.leads || s.follows) then .next s
  else match s.index? field index with
    | none => .next s
    | some x =>
      if (x.p.cascMode != 3 && x.p.cascMode != 4) || s.compacting (indexKey field index) list then .next s
      else
        let t := s.charge field (s.scrubBytes field index x list)
        let own := s.ownReport field index list x
        if s.follows then
          .next (t.sendMessage s.casc.leadOrdinal msgSCRUB 2 (leBytes 1 field ++ leBytes 1 index ++ leBytes 2 slot ++ leBytes 4 list ++ own.bytes))
        else
          let serving := s.slotCopies x slot
          let rs := (own :: copies.filter (fun r => r.ordinal != s.casc.ordinal)).filter (fun r => serving.contains r.ordinal)
          if serving.all (fun m => rs.any (fun r => r.ordinal == m)) then .next (t.scrubCompare field index slot list x rs)
          else .next s

end Sys2Proof.Machine
end

