-- ==== Sys2Proof/Machine/CoreControl.lean ====
section
/-! DEFINITION. Control instructions of the furrow cores (Table 7.4 class 0; R371 to R376, R398, R399, R405, R416,
R424). -/

namespace Sys2Proof.Machine

/-- Executes HALT (R424). -/
def execHalt (core thread : Nat) (s : State) : Result :=
  s.issue 0 0x00 core thread (fun x => .placed s { x.t with status := .halted })
/-- Executes the furrow core's NOP (R399). -/
def execCoreNop (core thread : Nat) (s : State) : Result := s.issueReg 0 0x01 core thread (fun x => x.t)
/-- Executes BR (R374). -/
def execBr (core thread : Nat) (s : State) : Result :=
  s.issue 0 0x02 core thread (fun x => .placed s (x.t.branch (wTarget x.w)))
/-- Executes BRC on `a6`[3:0] (R374, R405). -/
def execBrc (core thread : Nat) (s : State) : Result :=
  s.issue 0 0x03 core thread (fun x =>
    if condition (wA6 x.w % 16) x.t.cc then .placed s (x.t.branch (wTarget x.w)) else .next s x.t)
/-- Executes CALL (R376). -/
def execCall (core thread : Nat) (s : State) : Result :=
  s.issue 0 0x04 core thread (fun x =>
    if 8 ≤ x.t.rs.length then .trap 7
    else .placed s { x.t with pc := wTarget x.w, rs := ⟨x.t.pc + 1, x.t.levels.length⟩ :: x.t.rs })
/-- Executes RET (R376). -/
def execRet (core thread : Nat) (s : State) : Result :=
  s.issue 0 0x05 core thread (fun x =>
    match x.t.rs with
    | [] => .trap 8
    | e :: rest => .placed s { x.t with pc := e.addr, rs := rest, levels := x.t.outer })
/-- Executes REP_I: `a6` + 1 instructions, `imm16` times (R371, R372). -/
def execRepI (core thread : Nat) (s : State) : Result :=
  s.issue 0 0x10 core thread (fun x =>
    if 4 ≤ x.t.levels.length then .trap 4
    else .placed s (x.t.repeat_ (x.t.pc + BitVec.ofNat 12 (wA6 x.w + 1)) (BitVec.ofNat 16 (wImm16 x.w)) x.c.loopRoom))
/-- Executes REP_D: up to the word at `imm16`[11:0], as often as the low 16 bits of a D register (R371, R372). -/
def execRepD (core thread : Nat) (s : State) : Result :=
  s.issue 0 0x11 core thread (fun x =>
    if 4 ≤ x.t.levels.length then .trap 4
    else .placed s (x.t.repeat_ (wTarget x.w) ((x.t.reg (wA6 x.w % 16)).truncate 16) x.c.loopRoom))
/-- Executes BREAK (R374, R376). -/
def execBreakLevel (core thread : Nat) (s : State) : Result :=
  s.issue 0 0x12 core thread (fun x =>
    match x.t.active with
    | [] => .next s x.t
    | l :: rest => .placed s (x.t.behind l.last rest))
/-- Executes TIME: TBK into the D register of `a6`[3:0] (R399, log 72). -/
def execTime (core thread : Nat) (s : State) : Result :=
  s.issueReg 0 0x20 core thread (fun x => x.t.setReg (wA6 x.w % 16) (BitVec.ofNat 64 s.tbk))
/-- Executes SELF: run-logical core and thread into the D register of `a6`[3:0] (R416, log 72). -/
def execSelfId (core thread : Nat) (s : State) : Result :=
  s.issueReg 0 0x21 core thread (fun x => x.t.setReg (wA6 x.w % 16) (Config.selfPack x.c.logical thread))
/-- Executes FLAGS_RD into the D register of `a6`[3:0] (R398, log 72). -/
def execFlagsRd (core thread : Nat) (s : State) : Result :=
  s.issueReg 0 0x22 core thread (fun x => x.t.setReg (wA6 x.w % 16) (x.t.flags.zeroExtend 64))
/-- Executes FLAGS_CLR (R398). -/
def execFlagsClr (core thread : Nat) (s : State) : Result :=
  s.issueReg 0 0x23 core thread (fun x => { x.t with flags := 0 })

end Sys2Proof.Machine
end

