-- ==== Sys2Proof/Machine/CoreScalar.lean ====
section
/-! DEFINITION. Scalar instructions of the furrow cores (Table 7.4 class 1; R399). -/

namespace Sys2Proof.Machine

/-- A scalar instruction of format R: `d` from `s1` and `s2`. -/
def State.scalar (s : State) (op core thread : Nat) (f : BitVec 64 → BitVec 64 → BitVec 64) : Result :=
  s.issueReg 1 op core thread (fun x => x.t.setReg (wD x.w) (f (x.t.reg (wS1 x.w)) (x.t.reg (wS2 x.w))))
/-- A shift of code `op` by a register value; by 64 or more the manual states no result (log 15). -/
def shiftBy (op : Nat) (f : BitVec 64 → Nat → BitVec 64) (a b : BitVec 64) : BitVec 64 :=
  if b.toNat < 64 then f a b.toNat else Config.longShift op a b

/-- Executes ADD. -/
def execAdd (core thread : Nat) (s : State) : Result := s.scalar 0x00 core thread (fun a b => a + b)
/-- Executes SUB. -/
def execSub (core thread : Nat) (s : State) : Result := s.scalar 0x01 core thread (fun a b => a - b)
/-- Executes AND. -/
def execAnd (core thread : Nat) (s : State) : Result := s.scalar 0x02 core thread (fun a b => a &&& b)
/-- Executes OR. -/
def execOr (core thread : Nat) (s : State) : Result := s.scalar 0x03 core thread (fun a b => a ||| b)
/-- Executes XOR. -/
def execXor (core thread : Nat) (s : State) : Result := s.scalar 0x04 core thread (fun a b => a ^^^ b)
/-- Executes SHL. -/
def execShl (core thread : Nat) (s : State) : Result :=
  s.scalar 0x05 core thread (shiftBy 0x05 (fun a n => a <<< n))
/-- Executes SHR. -/
def execShr (core thread : Nat) (s : State) : Result :=
  s.scalar 0x06 core thread (shiftBy 0x06 (fun a n => a >>> n))
/-- Executes SAR. -/
def execSar (core thread : Nat) (s : State) : Result :=
  s.scalar 0x07 core thread (shiftBy 0x07 (fun a n => a.sshiftRight n))
/-- Executes MUL: the low 64 bits. -/
def execMul (core thread : Nat) (s : State) : Result := s.scalar 0x08 core thread (fun a b => a * b)
/-- Executes CMP: the condition codes of `s1` against `s2` (Table 7.1, log 66). -/
def execCmp (core thread : Nat) (s : State) : Result :=
  s.issueReg 1 0x09 core thread (fun x => { x.t with cc := compareCodes (x.t.reg (wS1 x.w)) (x.t.reg (wS2 x.w)) })
/-- Executes MOV: `s1` into `d`. -/
def execMov (core thread : Nat) (s : State) : Result := s.scalar 0x0A core thread (fun a _ => a)
/-- Executes MOVI: `imm17`, zero-extended. -/
def execMovi (core thread : Nat) (s : State) : Result :=
  s.issueReg 1 0x20 core thread (fun x => x.t.setReg (wD x.w) (wImm17 x.w))
/-- Executes ADDI: `d` plus `imm17`, sign-extended. -/
def execAddi (core thread : Nat) (s : State) : Result :=
  s.issueReg 1 0x21 core thread (fun x => x.t.setReg (wD x.w) (x.t.reg (wD x.w) + wSimm17 x.w))

end Sys2Proof.Machine
end

