-- ==== Sys2Proof/Machine/CoreVector.lean ====
section
/-! DEFINITION. Vector FP32 and division instructions of the furrow cores (Table 7.4 classes 2 and 7; R333 to R336, R339,
R389 to R391, R397). -/

namespace Sys2Proof.Machine

/-! ### Lanes -/

/-- An FP32 pattern that is an infinity or a NaN (log 20). -/
def special32 (a : BitVec 32) : Bool := isSpecial fFP32 a.toNat
/-- A lane of an operation `op` of two operands: DIN of subnormal operands, and the free value of a special one. -/
def binaryLane (op : Nat) (f : BitVec 32 → BitVec 32 → BitVec 32 × Flags) (a b : BitVec 32) : BitVec 32 × Flags :=
  if special32 a || special32 b then (Config.specialLane op a b, Config.specialFlags op a b)
  else
    let r := f a b
    (r.1, r.2 ||| dinLane a ||| dinLane b)
/-- An exact value rounded and saturated to a lane (R313, R316, R389). -/
def satLane (v : Fv) : BitVec 32 × Flags :=
  let r := satFmt fFP32 v
  (toFp32 r.1, r.2)
/-- Lanes of an operation, with the flags of all. -/
def zipLanes (f : BitVec 32 → BitVec 32 → BitVec 32 × Flags) (a b : BitVec 512) : BitVec 512 × Flags :=
  let rs := List.zipWith f (lanes a) (lanes b)
  (ofLanes (rs.map (fun r => r.1)), rs.foldl (fun x r => x ||| r.2) 0)
/-- A vector instruction of format R: V[`d`] from V[`s1`] and V[`s2`], lane by lane. -/
def State.vector (s : State) (op core thread : Nat) (f : BitVec 32 → BitVec 32 → BitVec 32 × Flags) : Result :=
  s.issueReg 2 op core thread (fun x =>
    let r := zipLanes (binaryLane op f) (x.t.vreg (wS1 x.w)) (x.t.vreg (wS2 x.w))
    (x.t.setV (wD x.w) r.1).raise r.2)
/-- R389: the larger (or smaller) of two lanes; which of two equal ones is open (log 19). -/
def pickLane (less : Fv → Fv → Bool) (a b : BitVec 32) : BitVec 32 × Flags :=
  if less (fp32 a) (fp32 b) then (b, 0) else if less (fp32 b) (fp32 a) then (a, 0)
  else (if Config.tiePick a b then a else b, 0)

/-- Executes VADD (R389). -/
def execVadd (core thread : Nat) (s : State) : Result :=
  s.vector 0x00 core thread (fun a b => satLane (fadd (fp32 a) (fp32 b)))
/-- Executes VSUB (R389). -/
def execVsub (core thread : Nat) (s : State) : Result :=
  s.vector 0x01 core thread (fun a b => satLane (fadd (fp32 a) (fneg (fp32 b))))
/-- Executes VMUL (R389). -/
def execVmul (core thread : Nat) (s : State) : Result :=
  s.vector 0x02 core thread (fun a b => satLane (fmul (fp32 a) (fp32 b)))
/-- Executes VMAX (R389, log 19). -/
def execVmax (core thread : Nat) (s : State) : Result := s.vector 0x03 core thread (pickLane fltb)
/-- Executes VMIN (R389, log 19). -/
def execVmin (core thread : Nat) (s : State) : Result := s.vector 0x04 core thread (pickLane (fun a b => fltb b a))
/-- Executes VSEL: each lane of V[`s1`] or V[`s2`]; the manual gives no selector (log 17). -/
def execVsel (core thread : Nat) (s : State) : Result :=
  s.issueReg 2 0x05 core thread (fun x =>
    let m := Config.vselMask (BitVec.ofNat 7 (wX7 x.w)) x.t.cc (x.t.vreg (wD x.w))
    x.t.setV (wD x.w) (ofLanes ((List.range 16).map (fun n =>
      if m.getLsbD n then lane (x.t.vreg (wS1 x.w)) n else lane (x.t.vreg (wS2 x.w)) n))))

/-! ### VRED (R391) -/

/-- One saturating addition with its flags. -/
def satAdd (a b : Fv × Flags) : Fv × Flags :=
  let r := satFmt fFP32 (fadd a.1 b.1)
  (r.1, a.2 ||| b.2 ||| r.2)
/-- One level of the pairwise tree of R320 over saturating additions. -/
def satPairs : List (Fv × Flags) → List (Fv × Flags)
  | a :: b :: t => satAdd a b :: satPairs t
  | l => l
/-- The tree over the lanes of one group. -/
def satTree : Nat → List (Fv × Flags) → Fv × Flags
  | 0, l => l.headD (fv0, 0)
  | n + 1, l => satTree n (satPairs l)
/-- R320, R321, R391: the sum of 16 lanes with group width g. -/
def reduceLanes (g : Nat) (l : List (BitVec 32)) : Fv × Flags :=
  match (chunkList g 16 (l.map (fun a => (fp32 a, dinLane a)))).map (satTree (clog2 g)) with
  | [] => (fv0, 0)
  | a :: rest => rest.foldl satAdd a

/-- Executes VRED; where the sum goes in V[`d`] is open (R391, log 72). -/
def execVred (core thread : Nat) (s : State) : Result :=
  s.issueReg 2 0x06 core thread (fun x =>
    let ls := lanes (x.t.vreg (wS1 x.w))
    let old := x.t.vreg (wD x.w)
    match ls.find? special32 with
    | some a => (x.t.setV (wD x.w) (Config.vredPlace old (Config.specialLane 0x06 a 0))).raise (Config.specialFlags 0x06 a 0)
    | none =>
      let r := reduceLanes x.c.group ls
      (x.t.setV (wD x.w) (Config.vredPlace old (toFp32 r.1))).raise r.2)

/-! ### VCVT (R390) -/

/-- Bytes of a value of a VCVT format. -/
def cvtBytes (k : Nat) : Nat :=
  match k with
  | 0 | 5 => 4
  | 1 | 2 | 7 => 2
  | _ => 1
/-- The floating-point format of a VCVT code, none for an integer. -/
def cvtFmt (k : Nat) : Option Fmt :=
  match k with
  | 0 => some fFP32 | 1 => some fFP16 | 2 => some fBF16 | 3 => some fE4M3 | 4 => some fE5M2 | _ => none
/-- A two's complement number of n bits. -/
def signedOf (n v : Nat) : Int := (BitVec.ofNat n v).toInt
/-- An integer as an exact value. -/
def intFv (i : Int) : Fv := ⟨i < 0, i.natAbs, 0⟩
/-- Table 6.2: range of an integer format of VCVT. -/
def cvtRange (k : Nat) : Int × Int :=
  match k with
  | 5 => (-2147483648, 2147483647)
  | 6 => (-128, 127)
  | _ => (0, 65535)
/-- A value to FP32 from the pattern v of a format. -/
def cvtWiden (k v : Nat) : BitVec 32 × Flags :=
  match cvtFmt k with
  | some f =>
    if k = 3 && isSpecial f v then (0, flIV)
    else if isSpecial f v then (Config.specialLane (0x100 + k) (BitVec.ofNat 32 v) 0, Config.specialFlags (0x100 + k) (BitVec.ofNat 32 v) 0)
    else (toFp32 (decodeFp f v), dinOf f [v])
  | none => satLane (intFv (if k = 7 then (v : Int) else signedOf (8 * cvtBytes k) v))
/-- A value from FP32 to the pattern of a format. -/
def cvtNarrow (k : Nat) (a : BitVec 32) : Nat × Flags :=
  if special32 a then ((Config.specialLane (0x200 + k) a 0).toNat % 2 ^ (8 * cvtBytes k), Config.specialFlags (0x200 + k) a 0)
  else match cvtFmt k with
    | some f =>
      let r := satFmt f (fp32 a)
      (encodeFp f r.1, r.2 ||| dinLane a)
    | none =>
      let r := toIntRange (cvtRange k).1 (cvtRange k).2 (fp32 a)
      ((BitVec.ofInt (8 * cvtBytes k) r.1).toNat, r.2 ||| dinLane a)
/-- R390: a lane converted. -/
def cvtLane (src dst v : Nat) : Nat × Flags :=
  if dst = 0 then
    let r := cvtWiden src v
    (r.1.toNat, r.2)
  else cvtNarrow dst (BitVec.ofNat 32 v)

/-- Executes VCVT (R390). -/
def execVcvt (core thread : Nat) (s : State) : Result :=
  s.issueReg 2 0x08 core thread (fun x =>
    let src := wX7 x.w % 8
    let dst := wX7 x.w / 8 % 8
    let b := vecBytes (x.t.vreg (wS1 x.w))
    let rs := (List.range 16).map (fun n => cvtLane src dst (num b (n * cvtBytes src) (cvtBytes src)))
    (x.t.setV (wD x.w) (vecOf (rs.flatMap (fun r => leBytes (cvtBytes dst) r.1)))).raise (rs.foldl (fun f r => f ||| r.2) 0))

/-- R339 in a lane; the parameters come through V[`s2`] and `x7` (log 18). -/
def sbacLane (c : Sbac) (a : BitVec 32) : BitVec 32 × Flags :=
  if special32 a || special32 c.scale || special32 c.bias then (Config.specialLane 0x09 a c.scale, Config.specialFlags 0x09 a c.scale)
  else
    let r := sbacStage c (fp32 a)
    (toFp32 r.1, r.2 ||| dinLane a ||| dinLane c.scale ||| dinLane c.bias)
/-- The SBAC record that VSBAC reads. -/
def sbacOf (v : BitVec 512) (x7 : Nat) : Sbac :=
  let p := Config.vsbacParams v (BitVec.ofNat 7 x7)
  ⟨p.1, p.2.1, p.2.2.1.toNat, p.2.2.2.1, p.2.2.2.2⟩

/-- Executes VSBAC (R339). -/
def execVsbac (core thread : Nat) (s : State) : Result :=
  s.issueReg 2 0x09 core thread (fun x =>
    let c := sbacOf (x.t.vreg (wS2 x.w)) (wX7 x.w)
    let rs := (lanes (x.t.vreg (wS1 x.w))).map (sbacLane c)
    (x.t.setV (wD x.w) (ofLanes (rs.map (fun r => r.1)))).raise (rs.foldl (fun f r => f ||| r.2) 0))

/-! ### Division (class 7) -/

/-- R333: one division step: the quotient bit and the next partial remainder. -/
def divStep (r d : Nat) : Bool × Nat := (decide (d ≤ r), if d ≤ r then 2 * (r - d) else 2 * r)
/-- R334: one step of the digit recurrence of a square root: from remainder r = n − q² of root q to those of one digit more. -/
def sqrtStep (r q : Nat) : Nat × Nat := if 4 * q + 1 ≤ 4 * r then (4 * r - (4 * q + 1), 2 * q + 1) else (4 * r, 2 * q)
/-- Executes DSTEP; how registers hold remainder, divisor and quotient bit is open (R397, log 16). -/
def execDstep (core thread : Nat) (s : State) : Result :=
  s.issueReg 7 0x00 core thread (fun x =>
    let p := Config.dstepUnpack (x.t.reg (wS1 x.w)) (x.t.reg (wS2 x.w))
    let r := divStep p.1 p.2
    x.t.setReg (wD x.w) (Config.dstepPack (BitVec.ofNat 64 r.2) r.1))
/-- Executes SQSTEP; how registers hold remainder and root is open (R397, log 16). -/
def execSqstep (core thread : Nat) (s : State) : Result :=
  s.issueReg 7 0x01 core thread (fun x =>
    let p := Config.sqstepUnpack (x.t.reg (wS1 x.w)) (x.t.reg (wS2 x.w))
    let r := sqrtStep p.1 p.2
    x.t.setReg (wD x.w) (Config.sqstepPack r.1 r.2))
/-- R333, R336: a / b. -/
def divLane (a b : BitVec 32) : BitVec 32 × Flags :=
  let x := fp32 a
  let y := fp32 b
  if y.m = 0 then (if x.m = 0 then (0, flIV) else (toFp32 (fFP32.largest x.neg), flIV ||| flDSAT))
  else if x.m = 0 then (toFp32 ⟨x.neg != y.neg, 0, 0⟩, 0)
  else satLane (quotient x y)
/-- R334, R336: the reciprocal norm of a. -/
def rsqLane (a : BitVec 32) : BitVec 32 × Flags :=
  let x := fp32 a
  if x.m = 0 then (toFp32 (fFP32.largest false), flIV ||| flDSAT)
  else if x.neg then (0, flIV)
  else
    let r := reciprocalNorm x
    (toFp32 r.1, r.2)
/-- A result of class 7 on the low halves of registers, in the low half of `d`; the upper half is open (log 72). -/
def divReg (x : Slot3) (r : BitVec 32 × Flags) : Thread :=
  (x.t.setReg (wD x.w) (Config.upperHalf r.1 (x.t.reg (wD x.w)) ++ r.1)).raise r.2
/-- Executes DIV (R333, R336, R397). -/
def execDiv (core thread : Nat) (s : State) : Result :=
  s.issueReg 7 0x02 core thread (fun x =>
    divReg x (binaryLane 0x22 divLane ((x.t.reg (wS1 x.w)).truncate 32) ((x.t.reg (wS2 x.w)).truncate 32)))
/-- Executes RSQ (R334, R336, R397). -/
def execRsq (core thread : Nat) (s : State) : Result :=
  s.issueReg 7 0x03 core thread (fun x =>
    divReg x (binaryLane 0x23 (fun a _ => rsqLane a) ((x.t.reg (wS1 x.w)).truncate 32) 0))

end Sys2Proof.Machine
end

