-- ==== Sys2Proof/Machine/CoreTile.lean ====
section
/-! DEFINITION. Tile and code-lookup instructions of the furrow cores (Table 7.4 classes 5 and 6; R342, R352, R353, R392,
R393, R400 to R402). -/

namespace Sys2Proof.Machine

/-! ### Tiles of a core -/

/-- The shape code of a tile instruction. -/
def Slot3.shapeCode (x : Slot3) : Nat := wX6 x.w
/-- R352: a tile number of a shape; beyond the shape's count the manual names no tile (log 72). -/
def tileNo (c : Nat) (x : Shape) (n : Nat) : Nat := if n < x.count then n else Config.oddTile c n % x.count
/-- R352: the byte at which the tile named by a field of the word starts. -/
def tileAt (c : Nat) (x : Shape) (n : Nat) : Nat := tileNo c x n * x.bytes
/-- Bytes of a tile. -/
def Core.tileRead (c : Core) (at_ : Nat) (x : Shape) : Bytes := Mem.readN 0 c.tile at_ x.bytes
/-- R353: a tile written, its scale fields 0. -/
def Core.tileWrite (c : Core) (at_ : Nat) (x : Shape) (b : Bytes) : Core :=
  { c with tile := Mem.write 0 c.tile at_ (fit x.bytes b), scale := Mem.clear c.scale (at_ / 4) (x.bytes / 4) }
/-- A tile instruction over the shape that its word names. -/
def State.tileOp (s : State) (op core thread : Nat) (f : Slot3 → Shape → Issue) : Result :=
  s.issue 5 op core thread (fun x =>
    match shapeOf x.shapeCode with
    | none => .reserved
    | some y => f x y)

/-- Executes TLD; which registers receive the tile is open (R352, log 72). -/
def execTld (core thread : Nat) (s : State) : Result :=
  s.tileOp 0x00 core thread (fun x y =>
    let b := x.c.tileRead (tileAt x.shapeCode y (wTile x.w)) y
    .next s { x.t with v := (List.range 16).map (fun n => Config.tileRegs x.w b x.t.v n) })
/-- Executes TST; the bytes stored are open (R352, log 72). -/
def execTst (core thread : Nat) (s : State) : Result :=
  s.tileOp 0x01 core thread (fun x y =>
    let a := tileAt x.shapeCode y (wTile x.w)
    .next (s.setCore core (x.c.tileWrite a y (Config.tileBytes x.w (x.c.tileRead a y) x.t.v))) x.t)
/-- Executes TCLR (R352). -/
def execTclr (core thread : Nat) (s : State) : Result :=
  s.tileOp 0x05 core thread (fun x y => .next (s.setCore core (x.c.tileWrite (tileAt x.shapeCode y (wTile x.w)) y [])) x.t)

/-! ### TACC (R392) -/

/-- An accumulator element with its scale level. -/
structure Elem where
  v : BitVec 32
  level : Nat
/-- One pass of a TACC on an element at a level: the element, rescaled, plus the group sum. -/
def taccPass (g : Nat) (acc : Fv) (from_ level : Nat) (ts : List Term) : Fv × Pass :=
  let a := groupSum level g ts ⟨false, false, none⟩
  let b := passRound (fscale acc (-64 * ((level : Int) - from_))) a.2
  passRound (fadd b.1 a.1) b.2
/-- R326, R392: a TACC on an element from its level up, saturating when level 2 overflows. -/
def taccElem (g : Nat) (acc : Fv) (from_ : Nat) (ts : List Term) : Nat → Nat → Elem × Flags
  | 0, level => (⟨toFp32 (taccPass g acc from_ level ts).1, level⟩, 0)
  | n + 1, level =>
    let r := taccPass g acc from_ level ts
    match r.2.ovf with
    | none => (⟨toFp32 r.1, level⟩, runFlags r.2 (level != from_))
    | some neg =>
      if level < 2 then taccElem g acc from_ ts n (level + 1)
      else (⟨toFp32 (fFP32.largest neg), 2⟩, runFlags r.2 true ||| flIX ||| flDSAT)
/-- A TACC on element k of a tile, from its pattern and level; which lanes multiply is open (log 72). -/
def Slot3.taccOn (x : Slot3) (k : Nat) (v : BitVec 32) (level : Nat) : Elem × Flags :=
  let fs := (List.range x.c.group).map (fun n => Config.taccFactors x.w x.t.v k n)
  match (v :: fs.flatMap (fun p => [p.1, p.2])).find? special32 with
  | some a => (⟨Config.specialLane 0x52 a v, level⟩, Config.specialFlags 0x52 a v)
  | none =>
    let r := taccElem x.c.group (fp32 v) level (fs.map (fun p => ipTerm (fp32 p.1) (fp32 p.2))) 3 level
    (r.1, r.2 ||| dinLane v ||| fs.foldl (fun f p => f ||| dinLane p.1 ||| dinLane p.2) 0)
/-- Elements of an FP32 accumulator tile: pattern and scale level. -/
def Core.elems (c : Core) (at_ : Nat) (x : Shape) : List (BitVec 32 × Nat) :=
  let b := c.tileRead at_ x
  (List.range (x.rows * x.cols)).map (fun k => (BitVec.ofNat 32 (num b (4 * k) 4), (Mem.read 0 c.scale (at_ / 4 + k)).toNat % 4))
/-- An FP32 accumulator tile written with its scale fields. -/
def Core.putElems (c : Core) (at_ : Nat) (es : List Elem) : Core :=
  { c with
    tile := Mem.write 0 c.tile at_ (es.flatMap (fun e => leBytes 4 e.v.toNat))
    scale := Mem.write 0 c.scale (at_ / 4) (es.map (fun e => BitVec.ofNat 8 e.level)) }

/-- Executes TACC; on a tile that is no FP32 accumulator the manual states no result (R392, log 72). -/
def execTacc (core thread : Nat) (s : State) : Result :=
  s.tileOp 0x02 core thread (fun x y =>
    let a := tileAt x.shapeCode y (wTile x.w)
    if scaled x.shapeCode then
      let es := x.c.elems a y
      let rs := (List.range es.length).map (fun k => x.taccOn k (es.getD k (0, 0)).1 (es.getD k (0, 0)).2)
      .next (s.setCore core (x.c.putElems a (rs.map (fun r => r.1)))) (x.t.raise (rs.foldl (fun f r => f ||| r.2) 0))
    else .next (s.setCore core (x.c.tileWrite a y (Config.tileBytes x.w (x.c.tileRead a y) x.t.v))) x.t)

/-! ### TFOLD (R393) -/

/-- R322, R393: an element folded into a binary64 pattern. -/
def foldElem (w : Nat) (e : BitVec 32 × Nat) : Nat × Flags :=
  let q := roundFmt fF64 (fadd (decodeFp fF64 w) (fscale (fp32 e.1) (64 * (e.2 : Int))))
  (encodeFp fF64 q.v, flIf q.ix flIX)
/-- The shape of the binary64 tile that matches an FP32 shape. -/
def wideShape : Shape := ⟨16, 16, 8⟩

/-- Executes TFOLD: `tile` into the binary64 tile `tile2`; a shape without a binary64 match leaves open what the tiles
hold (R393, log 72). -/
def execTfold (core thread : Nat) (s : State) : Result :=
  s.tileOp 0x03 core thread (fun x y =>
    let a := tileAt x.shapeCode y (wTile x.w)
    let b := tileAt 0x04 wideShape (wTile2 x.w)
    let wide := x.c.tileRead b wideShape
    if x.shapeCode = 0 then
      let es := x.c.elems a y
      let rs := (List.range es.length).map (fun k => foldElem (num wide (8 * k) 8) (es.getD k (0, 0)))
      let c := x.c.tileWrite b wideShape (rs.flatMap (fun r => leBytes 8 r.1))
      .next (s.setCore core (c.tileWrite a y [])) (x.t.raise (rs.foldl (fun f r => f ||| r.2) 0))
    else
      let c := x.c.tileWrite b wideShape (Config.foldBytes x.w (x.c.tileRead a y) wide)
      .next (s.setCore core (c.tileWrite a y [])) x.t)

/-! ### TSTS (R342) -/

/-- R342: scale and bias of a column: lane c of V[`v1`] and V[`v2`] for c below 16; beyond that open (log 18). -/
def Slot3.channel (x : Slot3) (c : Nat) : BitVec 32 × BitVec 32 :=
  let a := x.t.vreg (wV1 x.w)
  let b := x.t.vreg (wV2 x.w)
  if c < 16 then (lane a c, lane b c) else Config.tileChannel c a b
/-- R339, R342: an element of column c through the SBAC steps; activation and limits are open (log 18). -/
def Slot3.sbacElem (x : Slot3) (c : Nat) (v : BitVec 32) : BitVec 32 × Flags :=
  let p := x.channel c
  let q := Config.tileAct x.w
  sbacLane ⟨p.1, p.2, q.1.toNat, q.2.1, q.2.2⟩ v

/-- R342, R352: element k of a tile as the FP32 value that enters the SBAC steps, with what its conversion raised: an FP32
accumulator at its scale level, a binary64 total, a FIX40 or INT32 integer, or a narrow format. -/
def Core.tileValue (c : Core) (at_ : Nat) (x : Shape) (code k : Nat) : BitVec 32 × Flags :=
  let b := c.tileRead at_ x
  let bits := num b (x.elem * k) x.elem
  let round := fun (v : Fv) => let r := satFmt fFP32 v
                               (toFp32 r.1, r.2)
  let int := fun (n : Int) => round ⟨n < 0, n.natAbs, 0⟩
  match code with
  | 0x04 => round (decodeFp fF64 bits)
  | 0x05 | 0x06 => int (BitVec.ofNat 40 bits).toInt
  | 0x07 | 0x09 => round (decodeFp fFP16 bits)
  | 0x08 | 0x0A => round (decodeFp fBF16 bits)
  | 0x0B | 0x0C => int (BitVec.ofNat 8 bits).toInt
  | 0x0D => int bits
  | 0x0E => int (BitVec.ofNat 32 bits).toInt
  | _ =>
    let level := (Mem.read 0 c.scale (at_ / 4 + k)).toNat % 4
    if level = 0 then (BitVec.ofNat 32 bits, 0) else round (fscale (decodeFp fFP32 bits) (64 * (level : Int)))
/-- R339 steps 1 to 4 on element k: its pattern in the output format, and what the steps raised. -/
def Slot3.tsts (x : Slot3) (y : Shape) (at_ k : Nat) : Nat × Flags :=
  let v := x.c.tileValue at_ y x.shapeCode k
  let u := x.sbacElem (k % y.cols) v.1
  let o := if special32 u.1 then (u.1.toNat, 0) else toOut (Config.tileFormat x.w).val (fp32 u.1)
  (o.1, v.2 ||| u.2 ||| o.2)

/-- Executes TSTS: the elements of `tile` through SBAC; how the results lie in `tile2` is open (R342, log 72). -/
def execTsts (core thread : Nat) (s : State) : Result :=
  s.tileOp 0x04 core thread (fun x y =>
    let a := tileAt x.shapeCode y (wTile x.w)
    let d := tileAt x.shapeCode y (wTile2 x.w)
    let rs := (List.range (y.rows * y.cols)).map (x.tsts y a)
    .next (s.setCore core (x.c.tileWrite d y (Config.tileStored x.w (rs.map (fun r => r.1)))))
      (x.t.raise (rs.foldl (fun f r => f ||| r.2) 0)))

/-! ### Code lookup (R400 to R402) -/

/-- R402: operands of a lookup of codes of `bits` bits: table address, M, `fmt`, code address and stride. -/
structure Lookup where
  table : Nat
  m : Nat
  bits : Nat
  coded : Bool
  code : Nat
  stride : Nat
/-- R402: the operands that a word and its registers give. -/
def Slot3.lookup (x : Slot3) (bits : Nat) : Lookup :=
  let q := (x.t.reg (wS2 x.w)).toNat
  let m := q / 2 ^ 32 % 512
  ⟨q % 2 ^ 17, m, bits, x.w.getLsbD 0, localAddr (x.t.reg (wS1 x.w)), roundUp (ceilDiv (m * bits) 8) 8⟩
/-- A byte of local memory; local addresses wrap (R366). -/
def Core.byteAt (c : Core) (a : Nat) : Nat := (Mem.read 0 c.mem (a % localSize)).toNat
/-- R224: sub-code i of code n. -/
def Lookup.sub (q : Lookup) (c : Core) (n i : Nat) : Nat :=
  let a := q.code + n * q.stride
  if q.bits = 8 then c.byteAt (a + i) else c.byteAt (a + i / 2) / 16 ^ (i % 2) % 16
/-- A table value: FP32 in `fmt` 0, u8 in `fmt` 1. -/
def Lookup.value (q : Lookup) (c : Core) (i k : Nat) : Nat :=
  if q.coded then c.byteAt (q.table + i * 2 ^ q.bits + k)
  else sumBy (fun b => c.byteAt (q.table + (i * 2 ^ q.bits + k) * 4 + b) * 256 ^ b) [0, 1, 2, 3]
/-- R401: the run length of a T32 key; an image names none (log 72). -/
def lookupL : Nat := 64 * 2 ^ (Config.lookupRun % 7)
/-- R401: the key or sum of code n, with its flags. -/
def Lookup.lane (q : Lookup) (c : Core) (n : Nat) : BitVec 32 × Flags :=
  let vs := (List.range q.m).map (fun i => q.value c i (q.sub c n i))
  if q.coded then (BitVec.ofNat 32 (sumBy (fun v => v) vs), 0)
  else
    let ps := vs.map (fun v => BitVec.ofNat 32 v)
    match ps.find? special32 with
    | some a => (Config.specialLane 0x60 a 0, Config.specialFlags 0x60 a 0)
    | none =>
      let r := plainSum c.group lookupL (ps.map (fun p => ⟨fp32 p, false⟩))
      (toFp32 r.1, r.2.fl ||| ps.foldl (fun f p => f ||| dinLane p) 0)
/-- R402: `count` codes looked up into vector registers from V[`d`] on. -/
def State.lookupOp (s : State) (op bits count core thread : Nat) : Result :=
  s.issue 6 op core thread (fun x =>
    let q := x.lookup bits
    if q.table % 64 != 0 || q.code % 8 != 0 then .trap 1
    else if q.m = 0 || 256 < q.m then .trap 9
    else
      let rs := (List.range count).map (q.lane x.c)
      let t := (List.range (count / 16)).foldl (fun t n =>
        t.setV (wD x.w + n) (ofLanes (((rs.drop (16 * n)).take 16).map (fun r => r.1)))) x.t
      let t := t.raise (rs.foldl (fun f r => f ||| r.2) 0)
      .next s (if x.w.getLsbD 1 then t.setReg (wS1 x.w) (t.reg (wS1 x.w) + BitVec.ofNat 64 (count * q.stride)) else t))

/-- Executes LKP8 (R400 to R402). -/
def execLkp8 (core thread : Nat) (s : State) : Result := s.lookupOp 0x00 8 32 core thread
/-- Executes LKP4 (R400 to R402). -/
def execLkp4 (core thread : Nat) (s : State) : Result := s.lookupOp 0x01 4 128 core thread

end Sys2Proof.Machine
end

