-- ==== Sys2Proof/Machine/Errors.lean ====
section
/-! DEFINITION. Errors and containment: a unit's error, a damaged page, a device-fatal error and the warm Steward restart
(12, Errors and containment; 14, Warm restart; R620, R660 to R666, R761 to R763). -/

namespace Sys2Proof.Machine

/-! ### Units and pages -/

/-- R664: the unit is the last one of a fixed-engine type in service. -/
def State.lastEngine (s : State) (ty n : Nat) : Bool :=
  1 ≤ ty && ty ≤ 8 && s.unitState ty n == 0 && (List.range (unitCount ty)).all (fun m => m == n || s.unitState ty m != 0)
/-- R662: every command with work on a unit ends with ST_HW_FAULT. -/
def State.faultUnit (s : State) (ty n : Nat) : State :=
  (s.usersOf ty n).foldl (fun s c => s.stopCmd c stHW_FAULT (if ty = 0 then some n else none)) s
/-- A UNIT_FALLOW or UNIT_TILL that waits for the unit ends: the unit is out of service, or its test has failed; whether its record can
be written is no operand here and free (log 28). -/
def State.endUnitCmd (s : State) (ty n : Nat) : State :=
  let s := match s.fallowCmd ty n with
    | none => s
    | some (c, m, a) => s.takeFree.finish c 0 (info2 a m) 0 c.flags (Config.freeBool s.fresh)
  match s.tillCmd ty n with
  | none => s
  | some c => s.takeFree.finish c stHW_FAULT 0 0 c.flags (Config.freeBool s.fresh)
/-- R662: what the forced fallow of a unit by the device takes with it (R541, R544, R562, R598, R654). -/
def State.failUnit (s : State) (ty n : Nat) : State :=
  let s := s.setUnit ty n { s.unit ty n with force := true, byDevice := true, leaving := false, entering := false }
  match ty with
  | 7 => (s.abortCompaction n).unitTo 7 n 4 true
  | 9 => (s.unitTo 9 n 4 true).retire true (fun l => l.slice == n)
  | 10 => s.failPair n
  | 11 =>
    let t := (s.unitTo 11 n 4 true).setPort n { (s.port n).down with state := .off }
    if t.cascFormed then t.recensus (t.casc.dropLink t.casc.ordinal n) else t
  | _ => s.unitTo ty n 4 true
/-- R662: the unit's commands ended, the unit fallowed by the device and failed. -/
def State.withdrawFailed (s : State) (ty n : Nat) : State :=
  (((s.faultUnit ty n).failUnit ty n).endUnitCmd ty n).count 0 7 1

/-- Executes UNIT_ERROR: an uncorrectable error in a unit of this device (R661, R662, R664). -/
def execUnitError (unitType instNo : Nat) (address : BitVec 64) (s : State) : Result :=
  if unitCount unitType ≤ instNo || unitType == 12 then .fault .noSuchUnit
  else if !s.completing then .next s
  else
    let t := (s.logEvent evSRAM_UNCORRECTABLE 0xFF 3 (unitKey unitType instNo) (leBytes 8 address.toNat)).count 0 5 1
    if s.unitState unitType instNo == 4 then .next t
    else if s.lastEngine unitType instNo then .next (t.fatalError 2)
    else .next (t.withdrawFailed unitType instNo)

/-- Executes PAGE_DAMAGED: an uncorrectable error in a dirty Granary line of a page (R661, R663). -/
def execPageDamaged (field page : Nat) (s : State) : Result :=
  if !s.up then .next s
  else match s.field? field with
    | none => .next s
    | some x => match x.pages.find? (fun p => p.num == page) with
      | none => .next s
      | some p =>
        let t := s.setField field { x with pages := x.pages.map (fun q => if q.num = page then { q with damaged := true } else q) }
        .next ((t.logEvent evPAGE_DAMAGED field 2 noUnit (leBytes 4 page ++ leBytes 1 (p.index.getD 0xFF))).count 0 5 1)

/-- Table 12.3, Table 12.7: a Steward error is an uncorrectable error in Steward memory, which counts, or a
control-core check, which does not; which one it was is free (log 78). -/
def State.countSteward (s : State) : State := (s.count 0 5 (if Config.freeBool s.fresh then 1 else 0)).takeFree

/-- Executes DEVICE_FATAL; `cause` is as in Table 12.5 (R664, R665). -/
def execDeviceFatal (cause : Nat) (s : State) : Result :=
  if !s.up || 3 < cause || s.glob.fatal then .next s
  else .next ((if cause = 3 then s.countSteward else s.count 0 5 1).fatalError cause)

/-! ### The warm Steward restart -/

/-- Executes STEWARD_RESTART: a Steward error; the second within 1 s of a restart by error is device-fatal (R664,
R706, R762). -/
def execStewardRestart (s : State) : Result :=
  if !s.up || s.trust.bootCode != 0 || s.glob.fatal then .next s
  else match s.glob.lastRestart with
    | some t => if s.tbk ≤ t + 1000000000 then .next (s.countSteward.fatalError 3) else .next (s.countSteward.startRestart true)
    | none => .next (s.countSteward.startRestart true)

/-- R762: the commands that the restart stopped end with their status. -/
def State.endStopped (s : State) : State :=
  (s.cmds.filter (fun c => c.stopped.isSome)).foldl (fun s c => s.stopCmd c (c.stopped.getD 0).toNat none) s
/-- R763: a restarted lead has left its cascade, and its indexes resume as for a promotion. -/
def State.leaveCascade (s : State) : State :=
  if s.leads then
    let t := { s with indexes := FMap.mapVals s.indexes (fun _ x => if x.p.cascMode = 0 then x else x.resume x.epoch) }
    { t.setCasc t.casc.left with units := t.units.filter (fun u => u.1 / 256 != 12) }
  else if s.casc.state = 1 then s.setCasc s.casc.left
  else s
/-- Executes STEWARD_RESTART_END (R620, R707, R761 to R763, Table 13.6). -/
def execStewardRestartEnd (s : State) : Result :=
  if !s.up || s.glob.fatal || !s.glob.restarting then .next s
  else
    let t := (s.endStopped.leaveCascade).extend 1 (eventRecord 0x11 (leBytes 4 s.glob.restarts))
    .next ((t.setGlob { t.glob with restarting := false }).setEvent 0 7).takeBusy

end Sys2Proof.Machine
end

