-- ==== Sys2Proof/Machine/Messages.lean ====
section
/-! DEFINITION. Messages of field programs: SEND, RECV, PROBE and their delivery (07; R356 to R362, R404, R421). -/

namespace Sys2Proof.Machine

/-- The physical core of a run-logical number. -/
def Run.physical (x : Run) (n : Nat) : Option Nat := x.cores[n]?
/-- R421: the target lies in the run: one of its cores, and a thread that was started there (log 76). -/
def State.targetOf (s : State) (x : Run) (core thread : Nat) : Option Nat :=
  match x.physical core with
  | none => none
  | some c => if ((s.core c).thread thread).status == .idle then none else some c
/-- The message that a SEND makes; its payload and tag are open (log 72). -/
def Slot3.message (x : Slot3) (dst : Nat) : Message :=
  ⟨x.c.logical, x.thread, dst, wThread x.w, Config.sendTag x.w x.t.r x.t.v, fit (wLen x.w) (Config.sendPayload x.w x.t.r x.t.v)⟩

/-- Executes SEND: into the core's send buffer of two messages (R359, R360, R421). -/
def execSend (core thread : Nat) (s : State) : Result :=
  s.issue 8 0x00 core thread (fun x =>
    match s.targetOf x.run (wCore x.w) (wThread x.w) with
    | none => .trap 3
    | some dst =>
      if 2 ≤ x.c.sendBuf.length then .wait s
      else .next (s.setCore core { x.c with sendBuf := x.c.sendBuf ++ [x.message dst] }) x.t)

/-- The message names the sender that a RECV waits for (R362, R404). -/
def Slot3.takes (x : Slot3) (m : Message) : Bool := wAny x.w || (m.fromCore == wCore x.w && m.fromThread == wThread x.w)
/-- The thread with a received message; where its bytes go is open (log 72). -/
def Slot3.received (x : Slot3) (m : Message) : Thread :=
  let t := x.t.setReg (wD x.w) (Config.recvReg x.w m.tag m.payload (x.t.reg (wD x.w)))
  let t := t.setV (wD x.w) (Config.recvVec x.w m.tag m.payload (x.t.vreg (wD x.w)))
  { t with recvQ := dropFirst x.takes x.t.recvQ }

/-- Executes RECV (R361, R362, R404). -/
def execRecv (core thread : Nat) (s : State) : Result :=
  s.issue 8 0x01 core thread (fun x =>
    match x.t.recvQ.find? x.takes with
    | none => .wait s
    | some m => .next s (x.received m))
/-- Executes PROBE: the number of queued messages (R362). -/
def execProbe (core thread : Nat) (s : State) : Result :=
  s.issueReg 8 0x02 core thread (fun x => x.t.setReg (wD x.w) (BitVec.ofNat 64 x.t.recvQ.length))

/-- The message is for a thread of a core. -/
def Message.for_ (m : Message) (core thread : Nat) : Bool := m.toCore == core && m.toThread == thread
/-- The first message for a thread at the head of a core's send buffer, with the state in which it has left the buffer. -/
def State.sentMessage (s : State) (core thread : Nat) : Option (Message × State) :=
  match s.cores.find? (fun c => (c.2.sendBuf.head?).any (fun m => m.for_ core thread)) with
  | none => none
  | some c => match c.2.sendBuf with
    | [] => none
    | m :: rest => some (m, s.setCore c.1 { c.2 with sendBuf := rest })
/-- R361: the next message for a thread: the oldest that waits in the network, else one of a send buffer; with the state
in which it has left that place. -/
def State.nextMessage (s : State) (core thread : Nat) : Option (Message × State) :=
  match s.messages.find? (fun m => m.for_ core thread) with
  | some m => some (m, { s with messages := dropFirst (fun m => m.for_ core thread) s.messages })
  | none => s.sentMessage core thread

/-- Executes MESSAGE_DELIVER: a message reaches the thread's receive queue of four; one that leaves its send buffer and
finds the queue full waits in the network, behind those that wait there already (R357, R360, R361). -/
def execMessageDeliver (core thread : Nat) (s : State) : Result :=
  if 128 ≤ core || 8 ≤ thread then .fault .noSuchUnit
  else if !s.completing then .next s
  else if 4 ≤ ((s.core core).thread thread).recvQ.length then
    match s.sentMessage core thread with
    | none => .next s
    | some (m, t) => .next { t with messages := t.messages ++ [m] }
  else match s.nextMessage core thread with
    | none => .next s
    | some (m, t) =>
      let y := (t.core core).thread thread
      .next (t.setThread core thread { y with recvQ := y.recvQ ++ [m] })

end Sys2Proof.Machine
end

