-- ==== Sys2Proof/Machine/Package.lean ====
section
/-! DEFINITION. The package: its ball map, and the state of every interface's pins (14, R731 to R734, R737, R778; Tables 14.1 to
14.3). -/

namespace Sys2Proof.Machine

/-! ### The ball map -/

/-- R731: rows and columns of the full array of 2,601 balls. -/
def ballRows : Nat := 51
/-- R732: the nineteen letters of ball rows. -/
def rowLetters : List Char := "ABCDEFGHJKLMNPTUVWY".toList
/-- R732: the name of a row counted from 0: one letter, then A or B before one. -/
def rowName (n : Nat) : List Char :=
  let c := rowLetters.getD (n % 19) 'A'
  if n < 19 then [c] else if n < 38 then ['A', c] else ['B', c]
/-- R732: a row's number by its name. -/
def rowOf (name : String) : Nat := ((List.range ballRows).find? (fun n => rowName n == name.toList)).getD ballRows

/-- Table 14.1: the regions of the array. -/
inductive Region where
  | westMemory
  | eastMemory
  | pcie
  | hxlNorth
  | core
  | control
  | hxlSouth
  deriving DecidableEq, Repr

/-- Table 14.1: the region of a ball; rows from 0, columns from 1. -/
def regionOf (row col : Nat) : Region :=
  if col ≤ 12 then .westMemory
  else if 40 ≤ col then .eastMemory
  else if row ≤ rowOf "H" then (if col ≤ 26 then .pcie else .hxlNorth)
  else if row ≤ rowOf "BD" then .core
  else if col ≤ 26 then .control else .hxlSouth
/-- R733: the four corner balls are VSS. -/
def cornerVss (row col : Nat) : Bool := (row == 0 || row == 50) && (col == 1 || col == 51)

/-- Table 14.1, R734: the rails that a region's balls may carry, besides VSS. -/
def Region.rails (r : Region) : List Rail :=
  match r with
  | .westMemory | .eastMemory => [.vddqG]
  | .pcie => [.vddPcie]
  | .hxlNorth | .hxlSouth => [.vddHxl]
  | .core => [.vddCore, .vddSram]
  | .control => [.vddAon, .vddio18, .vddio33]

/-- Table 14.2: a ball of the control region. -/
structure Ball where
  row : String
  col : Nat
  signal : String
  rail : Rail
  deriving DecidableEq, Repr

/-- Table 14.2. -/
def controlBalls : List Ball :=
  [⟨"BE", 14, "XTAL_IN", Rail.vddAon⟩, ⟨"BE", 15, "XTAL_OUT", Rail.vddAon⟩, ⟨"BE", 17, "TIMEREF_IN", Rail.vddio33⟩,
   ⟨"BF", 14, "SYS_RESET_N", Rail.vddio33⟩, ⟨"BF", 15, "PERST_N", Rail.vddio33⟩, ⟨"BF", 17, "THERMTRIP_N", Rail.vddio33⟩,
   ⟨"BF", 18, "ALERT_N", Rail.vddio33⟩, ⟨"BG", 14, "SB_SCL", Rail.vddio33⟩, ⟨"BG", 15, "SB_SDA", Rail.vddio33⟩] ++
  [⟨"BH", 14, "TCK", Rail.vddio18⟩, ⟨"BH", 15, "TMS", Rail.vddio18⟩, ⟨"BH", 16, "TDI", Rail.vddio18⟩, ⟨"BH", 17, "TDO", Rail.vddio18⟩,
   ⟨"BH", 18, "TRST_N", Rail.vddio18⟩, ⟨"BJ", 14, "QSPI_SCLK", Rail.vddio18⟩, ⟨"BJ", 15, "QSPI_CS_N", Rail.vddio18⟩,
   ⟨"BJ", 16, "QSPI_IO0", Rail.vddio18⟩, ⟨"BJ", 17, "QSPI_IO1", Rail.vddio18⟩, ⟨"BJ", 18, "QSPI_IO2", Rail.vddio18⟩,
   ⟨"BJ", 19, "QSPI_IO3", Rail.vddio18⟩] ++
  [⟨"BK", 14, "CASC_LEAD", Rail.vddio18⟩, ⟨"BK", 15, "BOOT_SEL0", Rail.vddio18⟩, ⟨"BK", 16, "BOOT_SEL1", Rail.vddio18⟩,
   ⟨"BK", 17, "GDDR_TYPE", Rail.vddio18⟩, ⟨"BK", 18, "GDDR_CLAM", Rail.vddio18⟩, ⟨"BK", 19, "HXL_EN", Rail.vddio18⟩,
   ⟨"BL", 14, "VID0", Rail.vddio18⟩, ⟨"BL", 15, "VID1", Rail.vddio18⟩, ⟨"BL", 16, "VID2", Rail.vddio18⟩, ⟨"BL", 17, "VID3", Rail.vddio18⟩,
   ⟨"BL", 18, "VID4", Rail.vddio18⟩] ++
  [⟨"BM", 14, "GPIO0", Rail.vddio33⟩, ⟨"BM", 15, "GPIO1", Rail.vddio33⟩, ⟨"BM", 16, "GPIO2", Rail.vddio33⟩, ⟨"BM", 17, "GPIO3", Rail.vddio33⟩,
   ⟨"BM", 19, "TEST_EN", Rail.vddio18⟩]

/-! ### The pins (Table 14.3, R737) -/

/-- Table 14.3: an interface. -/
inductive Interface where
  | pcie
  | hxl (port : Nat)
  | gddr
  | qspi
  | sideband
  | thermtrip
  | alert
  | vid
  | tdo
  deriving DecidableEq, Repr

/-- What a neighbour sees of an interface: high impedance, electrical idle, released, or its outputs enabled; an alarm that is
asserted is driven low; under EXTEST and CLAMP the boundary register drives the balls that it holds. -/
inductive PinState where
  | highImpedance
  | electricalIdle
  | released
  | enabled
  | low
  | boundary
  deriving DecidableEq, Repr

/-- Table 14.3: the state of an interface that is powered and in reset, which its outputs also take when THERMTRIP_N asserts (R740). -/
def Interface.inReset (i : Interface) : PinState :=
  match i with
  | .pcie | .hxl _ => .electricalIdle
  | .sideband | .thermtrip | .alert => .released
  | .gddr | .qspi | .vid | .tdo => .highImpedance
/-- Table 14.3, R550, R737: the step that enables an interface's outputs has been taken. -/
def State.pinsOn (s : State) (i : Interface) : Bool :=
  match i with
  | .pcie => s.up && s.board.pcie
  | .hxl p => s.portOn p && s.board.hxlRail
  | .gddr => s.up && s.board.gddrOn
  | .qspi => s.up && s.board.qspiOn
  | .sideband => s.sidebandServed
  | .thermtrip => !s.board.thermtripN
  | .alert => s.up && !s.board.alertN
  | .vid => s.up && s.board.vidDriven
  | .tdo => s.board.tdo.isSome
/-- R778: the boundary register holds the balls of the interface: GDDR, QSPI and control, no PCIe or HXL lane; TDO is the TAP's
own. -/
def Interface.inBoundary (i : Interface) : Bool :=
  match i with
  | .pcie | .hxl _ | .tdo => false
  | _ => true
/-- Table 14.3, R778: the state of an interface's pins. -/
def State.pins (s : State) (i : Interface) : PinState :=
  if s.board.powered && i.inBoundary && s.tapInstruction = 4 then .highImpedance
  else if s.board.powered && i.inBoundary && (s.tapInstruction = 3 || s.tapInstruction = 5) then .boundary
  else if !s.board.powered then (match i with
    | .sideband | .thermtrip | .alert => .released
    | _ => .highImpedance)
  else if s.pinsOn i then (match i with
    | .thermtrip | .alert => .low
    | _ => .enabled)
  else i.inReset

end Sys2Proof.Machine
end

