-- ==== Sys2Proof/Machine/Paging.lean ====
section
/-! DEFINITION. PAGE_POOL_GRANT, PAGE_PIN and PAGE_UNPIN (03, 0x30–0x32; R186 to R193, R535 to R538). -/

namespace Sys2Proof.Machine

/-- Addresses that a grant carries. -/
def grantAddrs (b : Bytes) (count : Nat) : List (BitVec 64) :=
  (List.range count).map (fun n => BitVec.ofNat 64 (num b (8 * n) 8))

/-- R186: pages granted to the field's pool. -/
def State.poolGrant (s : State) (ctx : Ctx) (f : Field) : Verdict :=
  let count := num ctx.pkt 20 4
  let new := grantAddrs ctx.block count
  checks [(!ctx.hasBlock || ctx.block.length < 8 * count, stBAD_LENGTH),
    (new.any (fun a => a.toNat % pageSize != 0 || f.pool.contains a) || !new.Nodup, stBAD_VALUE),
    (f.cfg.poolPages < f.pool.length + count, stLIMIT)] (fun _ =>
      let t := s.setField ctx.fn { f with pool := f.pool ++ new }
      yes t (info2 (f.pool.length + count) 0))
/-- R189: free pool pages returned, in the order of their grant (log 57). -/
def State.poolReclaim (s : State) (ctx : Ctx) (f : Field) : Verdict :=
  let gone := f.freeSlots.take (min (num ctx.pkt 20 4) (num ctx.pkt 32 4 / 8))
  checks [(num ctx.pkt 24 8 % 64 != 0, stBAD_VALUE)] (fun _ =>
    let left := f.pool.filter (fun a => !gone.contains a)
    yesReply (s.setField ctx.fn { f with pool := left }) (info2 left.length gone.length)
      [(num ctx.pkt 24 8, gone.flatMap (fun a => leBytes 8 a.toNat))])

/-- Executes PAGE_POOL_GRANT (R186 to R189). -/
def execPagePoolGrant (ring : Nat) (dma : Dma) (s : State) : Result :=
  s.runPacket 0x30 ring dma (fun ctx s =>
    match s.field? ctx.fn with
    | none => no stNOT_FOUND
    | some f =>
      match num ctx.pkt 16 1 with
      | 0 => s.poolGrant ctx f
      | 1 => s.poolReclaim ctx f
      | _ => no stBAD_VALUE)

/-- The pin or unpin that a packet names. -/
def pinIn (ctx : Ctx) (on : Bool) : Pin :=
  { on := on, gddr := flag ctx.pkt 16 0, granary := flag ctx.pkt 16 1, scope := num ctx.pkt 17 1
    first := if num ctx.pkt 17 1 = 1 then num ctx.pkt 20 4 else 0
    count := if num ctx.pkt 17 1 = 1 then num ctx.pkt 24 4 else 0, forQueries := none, kept := [] }
/-- R190: a target, the scope and the range lie in their ranges (log 58). -/
def pinBad (q : Pin) (p : IParams) : Bool :=
  !(q.gddr || q.granary) || 2 < q.scope || (q.scope == 1 && (q.count == 0 || p.nlist < q.first + q.count))
/-- The newer one takes away all that the older one says. -/
def Pin.covers (new old : Pin) : Bool :=
  old.forQueries.isNone && (new.scope == 2 || (new.scope == old.scope && new.first == old.first && new.count == old.count)) &&
    (new.gddr || !old.gddr) && (new.granary || !old.granary)
/-- A pin or unpin added to an index. -/
def Index.addPin (x : Index) (q : Pin) : Index := { x with pins := q :: x.pins.filter (fun o => !q.covers o) }
/-- Pages in the scope of a pin. -/
def State.pagesIn (s : State) (f i : Nat) (q : Pin) : List Page :=
  (s.pagesOfIndex f i).filter (fun p => s.inScope f (s.cfg f).mapHash p.need q)
/-- The command's own pins on a page, without those kept for queries. -/
def State.ownPins (s : State) (f : Nat) (p : Page) : Bool × Bool :=
  pinned ((s.pinsOf f (s.cfg f).mapHash p.need).filter (fun q => q.forQueries.isNone))

/-- Executes PAGE_PIN (R190 to R192, R535 to R537). -/
def execPagePin (ring : Nat) (dma : Dma) (s : State) : Result :=
  s.runPacket 0x31 ring dma (fun ctx s =>
    match FMap.get? s.indexes ctx.key with
    | none => no stBAD_INDEX
    | some x =>
      let q := pinIn ctx true
      checks [(pinBad q x.p, stBAD_VALUE)] (fun _ =>
        match ((s.setIndex ctx.key (x.addPin q)).tighten ctx.fn q).syncCapacity ctx.fn with
        | none => no stNO_CAPACITY
        | some t =>
          if q.granary && !t.pinsFit ctx.fn (fun p => p.index == some (ctx.key % 64) &&
              t.inScope ctx.fn (t.cfg ctx.fn).mapHash p.need q) then no stLIMIT
          else
            let t := t.pinLines ctx.fn
            yes t (t.pagesIn ctx.fn (ctx.key % 64) q).length))

/-- What the class C queries of an index will read or may read of it. -/
def State.certifiedSpans (s : State) (key : Nat) (x : Index) (qs : List Query) : List Span :=
  let i := key % 64
  let hash := (s.cfg (key / 64)).mapHash
  centroidSpans i x.p hash ++ codebookSpan i x.p :: wholePart i .directory 0 (x.p.nlist * 64) ::
    qs.flatMap (fun q => s.searchSpans key x hash (q.rerank != 0) q.epoch)
/-- R193: pages that class C queries admitted earlier will read stay pinned, as they were, until those queries complete. -/
def State.keepFor (s : State) (key : Nat) (q : Pin) (x : Index) : Index :=
  let f := key / 64
  let qs := (s.queriesOf key).filter (fun p => p.cls == 0)
  if qs.isEmpty then x
  else
    let nums := (s.certifiedSpans key x qs).flatMap (fun a => (s.spanOf f a).map (fun p => p.1.num))
    let ps := (s.pagesIn f (key % 64) q).filter (fun p => nums.contains p.num)
    let names := fun (l : List Page) => l.map (fun p => (p.part, p.half, p.n))
    let keep := fun (granary : Bool) (l : List Page) =>
      if l.isEmpty then [] else
        [({ q with on := true, gddr := !granary, granary := granary, forQueries := some (qs.map (fun p => p.ref)), kept := names l } : Pin)]
    let inGranary := keep true (ps.filter (fun p => q.granary && p.pinGranary))
    let inGddr := keep false (ps.filter (fun p => p.pinGddr))
    { x with pins := inGranary ++ inGddr ++ x.pins }

/-- Executes PAGE_UNPIN (R193, R538). -/
def execPageUnpin (ring : Nat) (dma : Dma) (s : State) : Result :=
  s.runPacket 0x32 ring dma (fun ctx s =>
    match FMap.get? s.indexes ctx.key with
    | none => no stBAD_INDEX
    | some x =>
      let q := pinIn ctx false
      checks [(pinBad q x.p, stBAD_VALUE)] (fun _ =>
        let t := s.setIndex ctx.key (s.keepFor ctx.key q (x.addPin q))
        let n := (s.pagesIn ctx.fn (ctx.key % 64) q).filter (fun p =>
          (q.gddr && (s.ownPins ctx.fn p).1 && !(t.ownPins ctx.fn p).1) ||
            (q.granary && (s.ownPins ctx.fn p).2 && !(t.ownPins ctx.fn p).2))
        yes (t.releasePages ctx.fn) n.length))

end Sys2Proof.Machine
end

