-- ==== Sys2Proof/Machine/Regs.lean ====
section
/-! DEFINITION. Register writes and the registers with behaviour of their own (13_register_window). -/

namespace Sys2Proof.Machine

/-- The functions: the physical function and fifteen virtual ones (R69). -/
def fnCount : Nat := 16

/-- R697: the offsets beyond identification and boot status are served. -/
def State.windowServed (s : State) : Bool := s.up && s.board.pcie && s.trust.bootCode == 0

/-- R698: the interrupt registers other than the MSI-X table accept writes. -/
def State.eventsServed (s : State) : Bool := s.windowServed && !s.glob.fatal

/-- R713, Table 13.5: a W1C write to EVENT_CAUSE. -/
def State.clearCause (s : State) (fn : Nat) (v : BitVec 32) : State :=
  if s.eventsServed then s.setFn fn { s.fn fn with cause := (s.fn fn).cause &&& ~~~v } else s

/-- Table 13.6: the enable bits a function has. -/
def enableMask (fn : Nat) : BitVec 32 := if fn = 0 then 0x0000_03FD#32 else 0x0000_0013#32

/-- R710, R712: a write to EVENT_ENABLE; the vector is raised when an enable bit that was 0 becomes 1
over a set cause bit (log 31). -/
def State.writeEnable (s : State) (fn : Nat) (v : BitVec 32) : State :=
  if s.eventsServed then
    let x := s.fn fn
    let new := (v &&& enableMask fn) ||| alwaysEnabled fn
    let t := s.setFn fn { x with enable := new }
    if new &&& ~~~x.enable &&& x.cause ≠ 0 then t.raiseVector fn (eventVector fn) else t
  else s

/-- Table 13.5 IRQ_TEST. -/
def State.testVector (s : State) (fn : Nat) (v : BitVec 32) : State :=
  if s.eventsServed && v.toNat % 16 ≤ 8 then s.raiseVector fn (v.toNat % 16) else s

/-- R726: TB_CTL `src`, in the physical function; `locked` ends when TBK leaves the reference (log 32). -/
def State.writeTbCtl (s : State) (fn : Nat) (v : BitVec 32) : State :=
  if s.windowServed && fn = 0 then
    { s with time := { s.time with src := v.getLsbD 0, locked := s.time.locked && v.getLsbD 0 } }
  else s

/-- Table 13.10 TB_CAPTURE_CTL. -/
def State.captureTime (s : State) (fn : Nat) : State :=
  if s.windowServed then s.setFn fn { s.fn fn with tbCapture := BitVec.ofNat 64 s.tbk } else s

/-- R693: a 4-byte write to the low or the high half of a 64-bit register. -/
def setHalf (x : BitVec 64) (high : Bool) (v : BitVec 32) : BitVec 64 :=
  if high then v ++ x.truncate 32 else x.extractLsb' 32 32 ++ v

/-- R73: the bases of a ring are writable. -/
def State.basesWritable (s : State) (r : Nat) : Bool :=
  s.ringServed r && s.ringWritable r

/-- A 4-byte write in a doorbell page (Table 2.1). -/
def State.writeRingReg (s : State) (r off : Nat) (v : BitVec 32) : State :=
  if off = 0x000 then s.writeTail r (v.truncate 16)
  else if off = 0x004 then s.writeHead r (v.truncate 16)
  else if off = 0x00C then s.writeRingCtl r v
  else if off = 0x010 || off = 0x014 then
    if s.basesWritable r then s.setRing r { s.ring r with sqBase := setHalf (s.ring r).sqBase (off == 0x014) v } else s
  else if off = 0x018 || off = 0x01C then
    if s.basesWritable r then s.setRing r { s.ring r with cqBase := setHalf (s.ring r).cqBase (off == 0x01C) v } else s
  else if off = 0x030 then
    if s.ringServed r then s.setRing r { s.ring r with irqTime := (v >>> 8).truncate 16, irqCount := v.truncate 8 } else s
  else s

/-- A 4-byte write in the MSI-X table: entry and word; unmasking a pending vector sends it (PCIe, R713). -/
def State.writeMsix (s : State) (fn off : Nat) (v : BitVec 32) : State :=
  let n := off / 16
  let w := off / 4 % 4
  let old := (s.fn fn).vector n
  let keep := old &&& ~~~((0xFFFF_FFFF#128) <<< (32 * w))
  let new := keep ||| ((v.zeroExtend 128) <<< (32 * w))
  let s := s.setFn fn { s.fn fn with msix := FMap.set (s.fn fn).msix n new }
  if !new.getLsbD 96 && (s.fn fn).pba.getLsbD n then
    (s.setFn fn { s.fn fn with pba := (s.fn fn).pba &&& ~~~(1#64 <<< n) }).emit (.msix fn n)
  else s

/-- R706: GLOBAL_CTL. -/
def State.writeGlobalCtl (s : State) (v : BitVec 32) : State :=
  if s.mayRestart && v.getLsbD 0 then s.startRestart false else s

/-- A 4-byte write in the perturbation window (Table 13.8). -/
def State.writePert (s : State) (off : Nat) (v : BitVec 32) : State :=
  if !s.pertServed then s
  else if off = 0x4000 then { s with pert := { s.pert with req := v &&& 0x3FFF_FFFF#32 } }
  else if off = 0x4004 then { s with pert := { s.pert with target := v } }
  else if off = 0x4008 then { s with pert := { s.pert with value := v } }
  else if off = 0x400C && v.getLsbD 0 then s.takePert
  else s

/-- A 4-byte write in BAR0 (Table 13.1). -/
def State.writeBar0 (s : State) (fn off : Nat) (v : BitVec 32) : State :=
  if !s.windowServed then s
  else if 0x1000 ≤ off && off < 0x2000 then
    if off = 0x1000 then s.clearCause fn v
    else if off = 0x1004 then s.writeEnable fn v
    else if off = 0x1008 then s.testVector fn v
    else if 0x1800 ≤ off && off < 0x1890 then s.writeMsix fn (off - 0x1800) v
    else s
  else if 0x8000 ≤ off && off < 0x9000 then
    if off = 0x8010 then s.writeTbCtl fn v
    else if off = 0x8018 then (if v.getLsbD 0 then s.captureTime fn else s)
    else s
  else if fn ≠ 0 then s
  else if off = 0x010C then s.writeGlobalCtl v
  else if off = 0x0110 then s.setGlob { s.glob with scratch := v }
  else if 0x0400 ≤ off && off < 0x0434 then s.writeRingReg adminRing (off - 0x400) v
  else if 0x4000 ≤ off && off < 0x5000 then s.writePert off v
  else s

/-- A 4-byte write to a function's BAR. -/
def State.writeReg32 (s : State) (fn bar off : Nat) (v : BitVec 32) : State :=
  if bar = 0 then (if off < 0x10000 then s.writeBar0 fn off v else s)
  else if bar = 2 then (if off < 0x8000 then s.writeRingReg (fn * 8 + off / 0x1000) (off % 0x1000) v else s)
  else s

/-- R692, R693: a host write of a size: 4 or 8 aligned bytes act, anything else is ignored (for BAR2 too,
log 37). -/
def State.hostAccess (s : State) (fn bar off size : Nat) (v : BitVec 64) : State :=
  if !s.up then s
  else if size = 4 && off % 4 == 0 then s.writeReg32 fn bar off (v.truncate 32)
  else if size = 8 && off % 8 == 0 then
    (s.writeReg32 fn bar off (v.truncate 32)).writeReg32 fn bar (off + 4) (v.extractLsb' 32 32)
  else s

/-- Executes REGISTER_WRITE (R14, R692, R693, R695). -/
def execRegisterWrite (fn bar offset size : Nat) (value : BitVec 64) (s : State) : Result :=
  if fnCount ≤ fn then .fault .noSuchUnit else .next (s.hostAccess fn bar offset size value)

/-- Executes EVENT_CAUSE_CLEAR (R713). -/
def execEventCauseClear (fn : Nat) (value : BitVec 32) (s : State) : Result :=
  if fnCount ≤ fn then .fault .noSuchUnit else .next (s.clearCause fn value)

/-- Executes EVENT_ENABLE_WRITE (R710, R712). -/
def execEventEnableWrite (fn : Nat) (value : BitVec 32) (s : State) : Result :=
  if fnCount ≤ fn then .fault .noSuchUnit else .next (s.writeEnable fn value)

/-- Executes IRQ_TEST (R709). -/
def execIrqTest (fn : Nat) (value : BitVec 32) (s : State) : Result :=
  if fnCount ≤ fn then .fault .noSuchUnit else .next (s.testVector fn value)

/-- Executes STEWARD_RESTART_REQUEST (R706). -/
def execStewardRestartRequest (value : BitVec 32) (s : State) : Result := .next (s.writeGlobalCtl value)

/-- Executes TB_CAPTURE (R726). -/
def execTbCapture (fn : Nat) (s : State) : Result :=
  if fnCount ≤ fn then .fault .noSuchUnit else .next (s.captureTime fn)

/-- Executes TB_CTL_WRITE (R726, R728). -/
def execTbCtlWrite (fn : Nat) (value : BitVec 32) (s : State) : Result :=
  if fnCount ≤ fn then .fault .noSuchUnit else .next (s.writeTbCtl fn value)

/-- Executes TIMEREF_LOCK_CHANGE: the reference present for 10 ms, or lost (R729); nothing is detected while
the device is held in reset. -/
def execTimerefLockChange (present : Bool) (s : State) : Result :=
  if !s.up then .next s
  else .next { s with time := { s.time with refPresent := present, locked := present && s.time.src } }

end Sys2Proof.Machine
end

