-- ==== Sys2Proof/Machine/Resets.lean ====
section
/-! DEFINITION. Resets, power-up and device power states (14, Resets; R757 to R766, R736, R751 to R755). -/

namespace Sys2Proof.Machine

/-- The board in reset, with what no reset of the device reaches: power, the two reset pins and the TAP,
which only TRST_N or TMS reset. -/
def Board.held (b : Board) (sysResetN perstN : Bool) : Board :=
  { Board.inReset with
    powered := b.powered, hxlRail := b.hxlRail, pcie := b.pcie, sysResetN := sysResetN, perstN := perstN
    tap := b.tap, tapIr := b.tapIr, tapShift := b.tapShift, tapInstr := b.tapInstr, tapBoundary := b.tapBoundary,
    tdo := b.tdo }

/-- Table 14.11: the device held in a cold or PERST_N reset: all but the stake store, the flash, the
board's side and the model's own record of outputs. -/
def State.heldInReset (s : State) (b : Board) : State :=
  { State.inReset s.trust.stakes s.trust.flash b with pending := s.pending, out := s.out, fresh := s.fresh }

/-! ### What a reset cuts short (R764, R766) -/

/-- The packet of the admin ring with an opcode that the Steward may be executing when a reset arrives. -/
def State.executing (s : State) (code : Nat) (dma : Dma) : Option Ctx :=
  match s.nextPacket adminRing, opSpec code with
  | some c, some o =>
    if c.opcode == code && s.unfenced c && s.serving && (s.packetFault c o dma).isNone && !s.followerForbids code then some (ctxOf c dma)
    else none
  | _, _ => none
/-- Every check passes. -/
def passAll (l : List (Bool × Nat)) : Bool := l.all (fun c => !c.1)
/-- R764: the copies of the record that were programmed when the reset took hold: copy 0, or both. -/
def State.cutStake (s : State) (pkt : Bytes) (copies : Nat) : Trust :=
  let k := num pkt 16 1
  let slot := s.trust.used k
  let b := stakeRecord k slot (num pkt 24 8) (num pkt 20 4) s.fwSvn
  let t := s.trust.program k slot 0 b
  if copies = 1 then t else t.program k slot 1 b
/-- Free bytes of a flash range under way (R766). -/
def cutBytes (n a len : Nat) : Bytes := (List.range len).map (fun i => Config.cutByte n (a + i))
/-- R766: a staging cut short: sectors erased in order, then pages programmed in order; the one under way holds free bytes. -/
def State.cutStaging (s : State) (slot off : Nat) (b : Bytes) (erase : Bool) (sectors pages : Nat) : Mem :=
  let base := slotBase slot
  if erase && sectors < 4096 then
    Mem.write 0xFF (Mem.clear s.trust.flash base (4096 * sectors)) (base + 4096 * sectors) (cutBytes s.fresh (base + 4096 * sectors) 4096)
  else
    let kept := b.take (sectorAt - off)
    let done := min kept.length (256 * pages)
    let flash := if erase then Mem.clear s.trust.flash base 0x100_0000 else s.trust.flash
    Mem.write 0xFF flash (base + off) (kept.take done ++ cutBytes s.fresh (base + off + done) (min 256 (kept.length - done)))
/-- R766: an activation sector whose rewriting was cut short. -/
def State.cutSector (s : State) (slot : Nat) : Mem :=
  Mem.write 0xFF s.trust.flash (slotBase slot + sectorAt) (cutBytes s.fresh (slotBase slot + sectorAt) 4096)
/-- R764, R766: the stake store and the flash as a reset leaves them, where the command that it cuts short was executing. -/
def State.cutShort (s : State) (cut : CutShort) : State :=
  match cut with
  | .nothing => s
  | .stake copies => (match s.executing 0x59 ⟨none, true, true⟩ with
    | none => s
    | some x => if passAll (s.stakeChecks x.pkt) then s.setTrust (s.cutStake x.pkt copies) else s)
  | .staging dma sectors pages => (match s.executing 0x70 dma with
    | none => s
    | some x =>
      if passAll (s.stageChecks x) then
        s.takeFree.setTrust { s.trust with
          flash := s.cutStaging (num x.pkt 16 1) (num x.pkt 20 4) x.block (flag x.pkt 17 0) sectors pages }
      else s)
  | .sector dma => (match s.executing 0x70 dma, s.executing 0x71 dma with
    | some x, _ =>
      if passAll (s.stageChecks x) && flag x.pkt 17 1 then
        s.takeFree.setTrust { s.stageBlock (num x.pkt 16 1) (num x.pkt 20 4) x.block (flag x.pkt 17 0) |>.trust with
          flash := (s.stageBlock (num x.pkt 16 1) (num x.pkt 20 4) x.block (flag x.pkt 17 0)).cutSector (num x.pkt 16 1) }
      else s
    | none, some x =>
      if passAll (s.activateChecks x.pkt) then s.takeFree.setTrust { s.trust with flash := s.cutSector (num x.pkt 16 1) } else s
    | none, none => s)

/-- Executes COLD_RESET: SYS_RESET_N low, or VDD_AON lost, which leaves the device unpowered (R757, R764, R766, Tables 14.10 and
14.11). -/
def execColdReset (aonLost : Bool) (cut : CutShort) (s : State) : Result :=
  let b := s.board.held false s.board.perstN
  .next ((s.cutShort cut).heldInReset { b with powered := b.powered && !aonLost })

/-- Executes PERST_N: PERST_N low; the THERMTRIP latch and the bus addresses stay (R764, R766, Table 14.11). -/
def execPerstN (cut : CutShort) (s : State) : Result :=
  .next ((s.cutShort cut).heldInReset { s.board.held s.board.sysResetN false with
    thermtripN := s.board.thermtripN, clocksStopped := s.board.clocksStopped, smbusAddr := s.board.smbusAddr
    i3cAddr := s.board.i3cAddr })

/-- Executes RESET_RELEASE: both reset pins high; the straps are sampled and start-up begins (R757, R780,
Table 14.3). -/
def execResetRelease (straps : Straps) (s : State) : Result :=
  if s.board.powered && !(s.board.sysResetN && s.board.perstN) then
    let s := s.setBoard { s.board with sysResetN := true, perstN := true, qspiOn := !s.board.clocksStopped }
    .next (s.setGlob { s.glob with straps := straps })
  else .next s

/-- R730, R736: the registers of a function after its FLR. -/
def State.resetFn (s : State) (fn : Nat) : State := s.setFn fn (FnRegs.reset (alwaysEnabled fn))

/-- R758: what an FLR does to the commands, the rings and the registers of function fn, and to its field. -/
def State.flr (s : State) (fn : Nat) : State :=
  let s := s.dropCmds (fun c => c.ring != adminRing && ringFn c.ring == fn)
  (s.removeField fn).resetFn fn

/-- Executes FLR_VIRTUAL_FUNCTION (R758, R120, R756). -/
def execFlrVirtualFunction (fn : Nat) (s : State) : Result :=
  if fn = 0 || 16 ≤ fn then .fault .noSuchUnit
  else if !s.up then .next s else .next (s.flr fn)

/-- R759: every field reset and removed, with all commands and every function's registers. -/
def State.flrEvery (s : State) : State :=
  (List.range 16).foldl (fun s fn => s.flr fn) (s.dropCmds (fun _ => true))

/-- R759, Table 14.11: field 0 recreated at its defaults, the admin ring reset, no cascade, no control. -/
def State.afterFlr (s : State) : State :=
  { s with
    rings := FMap.erase s.rings adminRing
    fields := [(0, Field.fresh FieldCfg.reset)]
    ownership := false
    casc := Cascade.reset
    units := s.units.filter (fun u => u.1 / 256 != 12)
    served := []
    trace := ⟨false, false, 0, [], 0, 0, 0⟩
    pert := { s.pert with slots := [], clearDue := false, req := 0, target := 0, value := 0 }
    glob := { s.glob with restarting := false } }

/-- Executes FLR_PHYSICAL_FUNCTION (R759, R730, R756): it takes over from a warm restart in progress. -/
def execFlrPhysicalFunction (s : State) : Result :=
  if !s.up then .next s
  else if s.trust.bootCode = 0 then .next (s.flrEvery.afterFlr.extend 3 (eventRecord 0x31 []))
  else .next s.flrEvery.afterFlr

/-- Executes D3HOT_ENTRY (R736). -/
def execD3hotEntry (fn : Nat) (s : State) : Result :=
  if 16 ≤ fn then .fault .noSuchUnit
  else if !s.up then .next s else .next (s.setFn fn { s.fn fn with d3hot := true })

/-- Executes D3HOT_EXIT: with No_Soft_Reset the function's state is kept (R736). -/
def execD3hotExit (fn : Nat) (s : State) : Result :=
  if 16 ≤ fn then .fault .noSuchUnit
  else if !s.up then .next s else .next (s.setFn fn { s.fn fn with d3hot := false })

/-! ### Power-up -/

/-- Rail a rises, before rail b wherever b rises. -/
def risesBefore (order : List Rail) (a b : Rail) : Bool :=
  order.contains a && (!order.contains b || order.idxOf a < order.idxOf b)

/-- R751, R753: the rails rise in the order of Table 14.9, with its permitted deviations. -/
def powerOrderOk (order : List Rail) : Bool :=
  order.Nodup && order.contains .vddio33 && order.contains .vddqG &&
    [Rail.vddio18, .vddSram, .vddCore, .vddPcie, .vddHxl, .vddqG].all (risesBefore order .vddAon) &&
    [Rail.vddSram, .vddCore, .vddPcie, .vddHxl, .vddqG].all (risesBefore order .vddio18) &&
    risesBefore order .vddSram .vddCore && risesBefore order .vddCore .vddqG

/-- Executes POWER_UP: from unpowered into powered reset. After another order than R751 allows, the start of
the device is not guaranteed and left free (R755). -/
def execPowerUp (order : List Rail) (refclk : Bool) (s : State) : Result :=
  if s.board.powered then .next s
  else
    let ok := powerOrderOk order || Config.freeBool s.fresh
    let t := s.heldInReset { Board.inReset with
      powered := ok, hxlRail := order.contains .vddHxl, pcie := order.contains .vddPcie && refclk, sysResetN := false, perstN := false }
    .next t.takeFree

end Sys2Proof.Machine
end

