-- ==== Sys2Proof/Machine/Spdm.lean ====
section
/-! DEFINITION. The SPDM 1.2 responder on its two transports (11, SPDM). The message layouts are those of
the DMTF specification that the manual names (PRESUMED, log 41). -/

namespace Sys2Proof.Machine

/-- Connection state of a transport (R632). -/
def State.spdm (s : State) (t : Transport) : Spdm :=
  match t with
  | .mctp => s.trust.spdmMctp
  | .doe => s.trust.spdmDoe
/-- Connection state of one transport replaced; the other keeps its own (R632). -/
def State.setSpdm (s : State) (t : Transport) (x : Spdm) : State :=
  match t with
  | .mctp => s.setTrust { s.trust with spdmMctp := x }
  | .doe => s.setTrust { s.trust with spdmDoe := x }

/-- Nothing but the identification answers before the firmware runs (R619); the DOE mailbox needs PCIe (R770). -/
def State.spdmServed (s : State) (t : Transport) : Bool := s.up && s.trust.bootCode == 0 && (t == .mctp || s.board.pcie)

/-- The version byte of SPDM 1.2. -/
def spdm12 : Byte := 0x12#8
/-- R633: an ERROR response with a code and data. -/
def spdmError (code data : Byte) : Bytes := [spdm12, 0x7F#8, code, data]
/-- ERROR codes of the DMTF specification. -/
def errInvalidRequest : Byte := 0x01#8
def errUnsupportedRequest : Byte := 0x07#8
def errVersionMismatch : Byte := 0x41#8

/-- A request answered: a version other than 1.2 gives VersionMismatch (R633). -/
def State.answer (s : State) (t : Transport) (version : Byte) (f : Unit → State × Bytes) : Result :=
  if !s.spdmServed t then .next s
  else if version ≠ spdm12 then .next (s.emit (.spdm t (spdmError errVersionMismatch 0)))
  else .next ((f ()).1.emit (.spdm t (f ()).2))

/-- Table 11.9: the chain of slot 0. -/
def State.chain (s : State) : Bytes :=
  let certs := fixedCertificates ++ s.trust.attCert
  leBytes 2 (52 + certs.length) ++ zeros 2 ++ sha384 Config.rootCertificate ++ certs

/-- R634: measurement block n, from 1 to 9. -/
def State.measBlock (s : State) (n : Nat) : Bytes :=
  let ty := if n = 1 then 0x01 else if n = 2 then 0x02 else if n = 9 then 0x84 else 0x03
  let v := if n = 9 then (List.range 8).flatMap (fun i => leBytes 4 (s.trust.regCount i)) else s.trust.reg (n - 1)
  [BitVec.ofNat 8 n, 1] ++ leBytes 2 (3 + v.length) ++ [BitVec.ofNat 8 ty] ++ leBytes 2 v.length ++ v

/-- Blocks with numbers from a list. -/
def State.measBlocks (s : State) (l : List Nat) : Bytes := l.flatMap s.measBlock

/-- DMTF: the prefix of a signed message: the version text four times, then the context padded to 36. -/
def signPrefix (context : String) : Bytes :=
  let text := ascii "dmtf-spdm-v1.2.*"
  let ctx := ascii context
  text ++ text ++ text ++ text ++ zeros (36 - ctx.length) ++ ctx

/-- R628: the signature over a transcript that ends with the response. -/
def State.spdmSign (s : State) (context : String) (transcript response : Bytes) : Bytes :=
  ecdsaSign s.trust.attKey (sha384 (signPrefix context ++ sha384 (transcript ++ response)))

/-- Executes GET_VERSION: one version entry, 1.2 (Table 11.9). -/
def execGetVersion (transport : Transport) (s : State) : Result :=
  if !s.spdmServed transport then .next s
  else .next ((s.setSpdm transport { Spdm.reset with versioned := true, signed := (s.spdm transport).signed }).emit
    (.spdm transport [0x10#8, 0x04#8, 0, 0, 0, 1, 0x00#8, 0x12#8]))

/-- Executes GET_CAPABILITIES: CERT_CAP, CHAL_CAP, MEAS_CAP 10b; CTExponent 16 (Table 11.9). -/
def execGetCapabilities (transport : Transport) (version : Byte) (s : State) : Result :=
  s.answer transport version (fun _ =>
    (s.setSpdm transport { s.spdm transport with capable := true },
      [spdm12, 0x61#8, 0, 0, 0, 16#8, 0, 0] ++ leBytes 4 0x16 ++ fit 8 Config.spdmSizes))

/-- Executes NEGOTIATE_ALGORITHMS; `offered` says whether the request offers the device's algorithms
(Table 11.9). -/
def execNegotiateAlgorithms (transport : Transport) (version : Byte) (offered : Bool) (s : State) : Result :=
  s.answer transport version (fun _ =>
    if offered then
      (s.setSpdm transport { s.spdm transport with negotiated := true },
        [spdm12, 0x63#8, 0, 0] ++ leBytes 2 36 ++ [1, 0] ++ leBytes 4 4 ++ leBytes 4 0x80 ++ leBytes 4 2 ++ zeros 16)
    else (s, spdmError errInvalidRequest 0))

/-- Executes GET_DIGESTS: the digest of the chain of slot 0 (Table 11.9). -/
def execGetDigests (transport : Transport) (version : Byte) (s : State) : Result :=
  s.answer transport version (fun _ => (s, [spdm12, 0x01#8, 0, 1] ++ sha384 s.chain))

/-- Executes GET_CERTIFICATE: up to 1,024 bytes of slot 0 (Table 11.9). -/
def execGetCertificate (transport : Transport) (version : Byte) (slot offset length : Nat) (s : State) : Result :=
  s.answer transport version (fun _ =>
    let n := min (min length 1024) (s.chain.length - offset)
    if slot ≠ 0 || s.chain.length ≤ offset then (s, spdmError errInvalidRequest 0)
    else (s, [spdm12, 0x02#8, 0, 0] ++ leBytes 2 n ++ leBytes 2 (s.chain.length - offset - n) ++ slice s.chain offset n))

/-- Table 11.9: the blocks that a measurement summary covers. -/
def summaryBlocks (summary : Nat) : Option (List Nat) :=
  if summary = 0 then some [] else if summary = 1 then some [1, 2]
  else if summary = 0xFF then some [1, 2, 3, 4, 5, 6, 7, 8, 9] else none

/-- Executes CHALLENGE: a signed measurement summary (Table 11.9, R628); `transcript` is what came before
the request. -/
def execChallenge (transport : Transport) (version : Byte) (slot summary : Nat) (nonce transcript : Bytes)
    (s : State) : Result :=
  s.answer transport version (fun _ =>
    match summaryBlocks summary with
    | none => (s, spdmError errInvalidRequest 0)
    | some l =>
      if slot ≠ 0 then (s, spdmError errInvalidRequest 0)
      else
        let r := [spdm12, 0x03#8, 0, 1] ++ sha384 s.chain ++ fit 32 (Config.spdmNonce s.fresh) ++
          (if l.isEmpty then [] else sha384 (s.measBlocks l)) ++ zeros 2
        (s.takeFree.setSpdm transport { s.spdm transport with signed := (s.spdm transport).signed + 1 },
          r ++ s.spdmSign "responder-challenge_auth signing"
            (transcript ++ [spdm12, 0x83#8, BitVec.ofNat 8 slot, BitVec.ofNat 8 summary] ++ fit 32 nonce) r))

/-- Table 11.9: the blocks that an index names; index 0 names none and asks for their number. -/
def measIndex (index : Nat) : Option (List Nat) :=
  if index = 0 then some [] else if index ≤ 9 then some [index]
  else if index = 0xFF then some [1, 2, 3, 4, 5, 6, 7, 8, 9] else none

/-- Executes GET_MEASUREMENTS (Table 11.9, R625, R634). -/
def execGetMeasurements (transport : Transport) (version : Byte) (index : Nat) (signed : Bool)
    (nonce transcript : Bytes) (s : State) : Result :=
  s.answer transport version (fun _ =>
    match measIndex index with
    | none => (s, spdmError errInvalidRequest 0)
    | some l =>
      let rec_ := s.measBlocks l
      let r := [spdm12, 0x60#8, if index = 0 then 9 else 0, 0, BitVec.ofNat 8 l.length] ++ leBytes 3 rec_.length ++
        rec_ ++ fit 32 (Config.spdmNonce s.fresh) ++ zeros 2
      if signed then
        (s.takeFree.setSpdm transport { s.spdm transport with signed := (s.spdm transport).signed + 1 },
          r ++ s.spdmSign "responder-measurements signing"
            (transcript ++ [spdm12, 0xE0#8, 1, BitVec.ofNat 8 index] ++ fit 32 nonce ++ [0]) r)
      else (s.takeFree, r))

/-- Executes SPDM_UNSUPPORTED_REQUEST: any other request code (R633, R635). -/
def execSpdmUnsupportedRequest (transport : Transport) (version : Byte) (code : Byte) (s : State) : Result :=
  s.answer transport version (fun _ => (s, spdmError errUnsupportedRequest code))

end Sys2Proof.Machine
end

