-- ==== Sys2Proof/Machine/Window.lean ====
section
/-! DEFINITION. What a host read returns from every register of BAR0 and BAR2 (13_register_window; 02, Tables 2.1 and 2.2). A read
has no side effect (R696), so the reads are functions of the state and no command; the one exception is TB_NOW_READ (log 115). -/

namespace Sys2Proof.Machine

/-- R693: the half of a 64-bit register that stands at an offset. -/
def halfAt (x : BitVec 64) (off : Nat) : BitVec 32 := if off % 8 < 4 then x.truncate 32 else x.extractLsb' 32 32
/-- A word of fields, each a value and the number of its lowest bit. -/
def fieldWord (fs : List (Nat × Nat)) : BitVec 32 := fs.foldl (fun (w : BitVec 32) f => w ||| (BitVec.ofNat 32 f.1 <<< f.2)) 0
/-- A bit as a number. -/
def bit (b : Bool) : Nat := if b then 1 else 0

/-! ### Identification and capabilities (Tables 13.2 and 13.3) -/

/-- R700: an identification register. The fused fields read at any time, LIMITS not after a failed boot (R619); firmware sets the
others before `boot_code` becomes 0. -/
def State.readIdent (s : State) (off : Nat) : BitVec 32 :=
  let running : Bool := s.trust.bootCode == 0
  let later := fun (w : BitVec 32) => if running then w else 0
  if off = 0x00 then 0x4816_1E7A#32
  else if off = 0x04 then fieldWord [(Config.deviceRev.toNat, 8), (bit Config.grade, 0)]
  else if off = 0x08 then BitVec.ofNat 32 s.fwVersion
  else if off = 0x0C then BitVec.ofNat 32 s.fwSvn
  else if off = 0x10 || off = 0x14 then halfAt Config.serial off
  else if off = 0x18 then later (BitVec.ofNat 32 s.gddrMib)
  else if off = 0x1C then
    later (fieldWord [(sumBy (fun p => 2 ^ p) (s.inService 10), 16), (s.memRate, 8), (bit s.glob.straps.gddrClam, 1),
      (bit s.glob.straps.gddrType, 0)])
  else if off = 0x20 then later (fieldWord [(if s.cascFormed then s.casc.ordinal else 0, 8), (s.role, 0)])
  else if off = 0x24 then
    (if s.trust.bootCode = 2 then 0 else fieldWord [(0x40, 8), (if running then s.trust.current 3 else 0, 0)])
  else 0

/-- R701: a capability word. -/
def readCap (off : Nat) : BitVec 32 := BitVec.ofNat 32 (num capWords (off - 0x40) 4)

/-! ### Global control and status (Table 13.4) -/

/-- `ready`: the firmware runs and serves the admin ring; 0 during a warm restart (R707). -/
def State.isReady (s : State) : Bool := s.glob.ready && !s.glob.restarting
/-- GLOBAL_STATUS. -/
def State.globalStatus (s : State) : BitVec 32 :=
  fieldWord [(bit s.glob.fatal, 31), (bit !s.board.alertN, 30), (bit !s.pert.slots.isEmpty, 2), (bit s.debugUnlock, 1),
    (bit s.isReady, 0)]
/-- BOOT_STATUS (R705). -/
def State.bootStatus (s : State) : BitVec 32 :=
  let slot := match s.trust.fw with
    | none => 0
    | some f => f.slot
  fieldWord [(slot, 12), (s.trust.stepB, 8), (s.trust.stepA, 4), (s.trust.bootCode, 0)]
/-- STRAPS, as sampled (R780). -/
def strapWord (p : Straps) : BitVec 32 :=
  fieldWord [(bit p.hxlEn, 5), (bit p.cascLead, 4), (bit p.gddrClam, 3), (bit p.gddrType, 2), (p.bootSel.toNat, 0)]
/-- A global register that a virtual function shows as well (Table 13.1). -/
def State.readShared (s : State) (off : Nat) : BitVec 32 :=
  if off = 0x100 then s.globalStatus
  else if off = 0x104 then s.bootStatus
  else if off = 0x108 then strapWord s.glob.straps
  else if off = 0x114 then s.glob.tj.zeroExtend 32
  else if off = 0x120 then fieldWord [(if s.cascFormed then s.casc.reachable else 0, 16), (s.casc.state, 0)]
  else 0
/-- A global register of the physical function. -/
def State.readGlobal (s : State) (off : Nat) : BitVec 32 :=
  if off = 0x110 then s.glob.scratch
  else if off = 0x118 then BitVec.ofNat 32 s.glob.fatalCause
  else if off = 0x11C then BitVec.ofNat 32 (sumBy (fun f => if s.fieldExists f then 2 ^ f else 0) (List.range 16))
  else s.readShared off

/-! ### Rings (Tables 2.1 and 2.2; R70, R708) -/

/-- RING_STATUS; `eff_prio` of the admin ring reads 0 (R76). -/
def State.ringStatus (s : State) (r : Nat) : BitVec 32 :=
  let x := s.ring r
  fieldWord [(x.errorCause.toNat, 8), (if r = adminRing then 0 else s.effPrio r, 4), (bit ((s.cmdsOf r).any (fun c => c.fence)), 3),
    (bit x.error, 2), (bit (x.enable && !x.error), 1), (bit (s.ringIdle r), 0)]
/-- A register of a doorbell page, or of the admin ring. -/
def State.readRing (s : State) (r off : Nat) : BitVec 32 :=
  let x := s.ring r
  if off = 0x000 then x.tail.zeroExtend 32
  else if off = 0x004 then x.head.zeroExtend 32
  else if off = 0x008 then s.ringStatus r
  else if off = 0x00C then x.ctl
  else if off = 0x010 || off = 0x014 then halfAt x.sqBase off
  else if off = 0x018 || off = 0x01C then halfAt x.cqBase off
  else if off = 0x020 then x.sqHead.zeroExtend 32
  else if off = 0x028 || off = 0x02C then halfAt (x.seqNext.zeroExtend 64) off
  else if off = 0x030 then fieldWord [(x.irqTime.toNat, 8), (x.irqCount.toNat, 0)]
  else 0

/-! ### Interrupts (Table 13.5, R709) -/

/-- EVENT_NEWEST: the sequence of the newest log entry, in the physical function. -/
def State.eventNewest (s : State) (fn : Nat) : BitVec 64 :=
  if fn ≠ 0 then 0
  else match s.log.entries.head? with
    | none => BitVec.allOnes 64
    | some e => BitVec.ofNat 64 e.seq
/-- An interrupt register of a function. -/
def State.readEvents (s : State) (fn off : Nat) : BitVec 32 :=
  let x := s.fn fn
  if off = 0x1000 then x.cause
  else if off = 0x1004 then x.enable
  else if off = 0x1010 || off = 0x1014 then halfAt (s.eventNewest fn) off
  else if 0x1800 ≤ off && off < 0x1890 then (x.vector ((off - 0x1800) / 16)).extractLsb' (8 * (off % 16)) 32
  else if off = 0x1C00 || off = 0x1C04 then halfAt x.pba off
  else 0

/-! ### Mirrors (Table 13.7; R714, R715, R717, R718) -/

/-- A register of a stake's mirror block. -/
def State.readStake (s : State) (k off : Nat) : BitVec 32 :=
  let t := s.trust
  let last := if t.used k = 0 then none else t.slotRecord k (t.used k - 1)
  let from_ := fun (at_ : Nat) => match last with
    | none => 0
    | some b => BitVec.ofNat 32 (num b at_ 4)
  if !t.resolved then 0
  else if off = 0x00 || off = 0x04 then halfAt (BitVec.ofNat 64 (t.current k)) off
  else if off = 0x08 || off = 0x0C then halfAt (BitVec.ofNat 64 (t.effectiveValue k)) off
  else if off = 0x10 then fieldWord [(bit (t.flawed k), 16), (t.used k, 8), (stakeSlots k, 0)]
  else if off = 0x14 then from_ 8
  else if off = 0x18 then from_ 12
  else 0
/-- The stake mirror and STAKE_GEN. -/
def State.readStakes (s : State) (off : Nat) : BitVec 32 :=
  if off < 0x2140 then s.readStake ((off - 0x2000) / 0x40) (off % 0x40)
  else if off = 0x2200 || off = 0x2204 then halfAt s.trust.stakeGen off
  else 0
/-- The measurement mirror and MEAS_GEN. -/
def State.readMeasures (s : State) (off : Nat) : BitVec 32 :=
  let n := (off - 0x3000) / 0x40
  let at_ := off % 0x40
  if off < 0x3200 then
    if at_ < 0x30 then BitVec.ofNat 32 (num (s.trust.reg n) at_ 4)
    else if at_ = 0x30 then BitVec.ofNat 32 (s.trust.regCount n) else 0
  else if off = 0x3200 || off = 0x3204 then halfAt s.trust.measGen off
  else 0

/-! ### The perturbation window and the time base (Tables 13.8 to 13.10) -/

/-- Table 13.9: a word of a setting slot. -/
def Setting.word (y : Setting) (off : Nat) : BitVec 32 :=
  if off = 0 then fieldWord [(1, 31), (y.field, 8), (y.control, 0)]
  else if off = 4 then y.target
  else if off = 8 then y.value
  else BitVec.ofNat 32 y.index
/-- R719: a register of the perturbation window, while `ready` is 1. -/
def State.readPert (s : State) (off : Nat) : BitVec 32 :=
  let x := s.pert
  if !s.isReady then 0
  else if off = 0x4000 then x.req
  else if off = 0x4004 then x.target
  else if off = 0x4008 then x.value
  else if off = 0x4010 then fieldWord [(bit x.busy, 31), (x.active, 16), (x.status.toNat, 0)]
  else if off = 0x4014 then x.done
  else if 0x4100 ≤ off && off < 0x4500 then
    match FMap.get? x.slots ((off - 0x4100) / 16) with
    | none => 0
    | some y => y.word (off % 16)
  else 0
/-- A register of the time base as a function sees it. -/
def State.readTime (s : State) (fn off : Nat) : BitVec 32 :=
  let b := s.time
  if off = 0x8000 || off = 0x8004 then halfAt (BitVec.ofNat 64 s.tbk) off
  else if off = 0x8008 then (s.fn fn).tbHi
  else if off = 0x8010 then BitVec.ofNat 32 (bit b.src)
  else if off = 0x8014 then fieldWord [(bit (b.src && !b.locked), 2), (bit b.locked, 1), (bit b.refPresent, 0)]
  else if off = 0x8020 || off = 0x8024 then halfAt (s.fn fn).tbCapture off
  else if off = 0x8028 || off = 0x802C then halfAt (if s.follows then s.casc.leadOffset else 0) off
  else if off = 0x8030 || off = 0x8034 then halfAt (BitVec.ofNat 64 s.epoch) off
  else 0

/-! ### The windows (Table 13.1) -/

/-- R697: an offset that is served while `boot_code` is not 0. -/
def servedAtBoot (off : Nat) : Bool := off < 0x100 || off == 0x100 || off == 0x104 || off == 0x108

/-- The aligned 4-byte word at an offset of a function's BAR0 (R690, R691, R695, R697, R699). -/
def State.readBar0 (s : State) (fn off : Nat) : BitVec 32 :=
  if s.trust.bootCode ≠ 0 && !servedAtBoot off then 0
  else if off < 0x40 then s.readIdent off
  else if off < 0x80 then readCap off
  else if off < 0x100 then 0
  else if off < 0x400 then (if fn = 0 then s.readGlobal off else s.readShared off)
  else if off < 0x1000 then (if fn = 0 && off < 0x434 then s.readRing adminRing (off - 0x400) else 0)
  else if off < 0x2000 then s.readEvents fn off
  else if off < 0x3000 then s.readStakes off
  else if off < 0x4000 then s.readMeasures off
  else if off < 0x8000 then (if fn = 0 then s.readPert off else 0)
  else if off < 0x9000 then s.readTime fn off
  else 0

/-- The aligned 4-byte word at an offset of a function's BAR2: its doorbell pages (R68, R69); a page without its field reads zero
(log 29). -/
def State.readBar2 (s : State) (fn off : Nat) : BitVec 32 :=
  if s.trust.bootCode ≠ 0 || !s.fieldExists fn || 0x8000 ≤ off then 0
  else s.readRing (fn * 8 + off / 0x1000) (off % 0x1000)

/-- The aligned 4-byte word at an offset of a BAR. -/
def State.readWord (s : State) (fn bar off : Nat) : BitVec 32 :=
  if !s.up || !s.board.pcie then 0 else if bar = 0 then s.readBar0 fn off else if bar = 2 then s.readBar2 fn off else 0

/-- What a host read returns: 8 aligned bytes from one instant, else the bytes that it names from the enclosing aligned 4-byte word
(R692 to R694). -/
def State.hostRead (s : State) (fn bar off size : Nat) : Bytes :=
  let w := fun (o : Nat) => leBytes 4 (s.readWord fn bar o).toNat
  if size = 8 && off % 8 == 0 then w off ++ w (off + 4) else ((w (off / 4 * 4)).drop (off % 4)).take size

/-- Executes TB_NOW_READ: a 4-byte read at 0x8000, which latches the high half (R725); before the firmware runs it reads zero
(R697). -/
def execTbNowRead (fn : Nat) (s : State) : Result :=
  if fnCount ≤ fn then .fault .noSuchUnit
  else if !s.up then .next s
  else
    let v := s.readWord fn 0 0x8000
    if !s.windowServed then .next (s.emit (.readData fn v))
    else .next ((s.setFn fn { s.fn fn with tbHi := (BitVec.ofNat 64 s.tbk).extractLsb' 32 32 }).emit (.readData fn v))

end Sys2Proof.Machine
end

