-- ==== Sys2Proof/Machine/Dispatch.lean ====
section
/-! DEFINITION. What every command does: one arm per constructor, each the one call of its meaning. -/

namespace Sys2Proof.Machine

def exec (i : Instr) (s : State) : Host.Outcome State Fault Refusal :=
  match i with
  | .sqTailWrite ring value => Sys2Proof.Machine.execSqTailWrite ring value s
  | .cqHeadWrite ring value => Sys2Proof.Machine.execCqHeadWrite ring value s
  | .ringEnable ring value => Sys2Proof.Machine.execRingEnable ring value s
  | .ringReset ring => Sys2Proof.Machine.execRingReset ring s
  | .registerWrite fn bar offset size value => Sys2Proof.Machine.execRegisterWrite fn bar offset size value s
  | .packetFetch data => Sys2Proof.Machine.execPacketFetch data s
  | .ringErrorRecord ring recordOk => Sys2Proof.Machine.execRingErrorRecord ring recordOk s
  | .irqCoalesceTimer ring => Sys2Proof.Machine.execIrqCoalesceTimer ring s
  | .reservedOpcode ring dma => Sys2Proof.Machine.execReservedOpcode ring dma s
  | .nop ring dma => Sys2Proof.Machine.execNop ring dma s
  | .identify ring dma => Sys2Proof.Machine.execIdentify ring dma s
  | .fieldConfigure ring dma memberStatus => Sys2Proof.Machine.execFieldConfigure ring dma memberStatus s
  | .fieldQuery ring dma => Sys2Proof.Machine.execFieldQuery ring dma s
  | .indexCreate ring dma => Sys2Proof.Machine.execIndexCreate ring dma s
  | .indexDrop ring dma => Sys2Proof.Machine.execIndexDrop ring dma s
  | .indexLoadCentroids ring dma => Sys2Proof.Machine.execIndexLoadCentroids ring dma s
  | .indexLoadCodebook ring dma => Sys2Proof.Machine.execIndexLoadCodebook ring dma s
  | .indexActivate ring dma => Sys2Proof.Machine.execIndexActivate ring dma s
  | .indexInfo ring dma => Sys2Proof.Machine.execIndexInfo ring dma s
  | .insert ring dma => Sys2Proof.Machine.execInsert ring dma s
  | .delete ring dma => Sys2Proof.Machine.execDelete ring dma s
  | .upsert ring dma => Sys2Proof.Machine.execUpsert ring dma s
  | .insertCoded ring dma => Sys2Proof.Machine.execInsertCoded ring dma s
  | .commit ring dma => Sys2Proof.Machine.execCommit ring dma s
  | .commitApply field index copiesOk recordOk => Sys2Proof.Machine.execCommitApply field index copiesOk recordOk s
  | .snapshotHold ring dma => Sys2Proof.Machine.execSnapshotHold ring dma s
  | .snapshotRelease ring dma => Sys2Proof.Machine.execSnapshotRelease ring dma s
  | .compact ring dma => Sys2Proof.Machine.execCompact ring dma s
  | .compactionStart evaporator => Sys2Proof.Machine.execCompactionStart evaporator s
  | .compactionSwap evaporator copiesOk recordOk => Sys2Proof.Machine.execCompactionSwap evaporator copiesOk recordOk s
  | .oldImageFree field index list => Sys2Proof.Machine.execOldImageFree field index list s
  | .versionFree field index => Sys2Proof.Machine.execVersionFree field index s
  | .search ring dma => Sys2Proof.Machine.execSearch ring dma s
  | .searchBatch ring dma => Sys2Proof.Machine.execSearchBatch ring dma s
  | .searchRadius ring dma => Sys2Proof.Machine.execSearchRadius ring dma s
  | .tableAreaPlacement => Sys2Proof.Machine.execTableAreaPlacement s
  | .coulterTile => Sys2Proof.Machine.execCoulterTile s
  | .distanceTableBuild harrow => Sys2Proof.Machine.execDistanceTableBuild harrow s
  | .sowingWindowClose field index classX => Sys2Proof.Machine.execSowingWindowClose field index classX s
  | .listPass window => Sys2Proof.Machine.execListPass window s
  | .rerank assayer => Sys2Proof.Machine.execRerank assayer s
  | .finalMerge crystalliser => Sys2Proof.Machine.execFinalMerge crystalliser s
  | .resultOutput dataOk recordOk => Sys2Proof.Machine.execResultOutput dataOk recordOk s
  | .gleanerTestStart pass replyOk recordOk => Sys2Proof.Machine.execGleanerTestStart pass replyOk recordOk s
  | .fetchVector ring dma => Sys2Proof.Machine.execFetchVector ring dma s
  | .filterDefine ring dma => Sys2Proof.Machine.execFilterDefine ring dma s
  | .filterDrop ring dma => Sys2Proof.Machine.execFilterDrop ring dma s
  | .bitmapLoad ring dma => Sys2Proof.Machine.execBitmapLoad ring dma s
  | .pagePoolGrant ring dma => Sys2Proof.Machine.execPagePoolGrant ring dma s
  | .pagePin ring dma => Sys2Proof.Machine.execPagePin ring dma s
  | .pageUnpin ring dma => Sys2Proof.Machine.execPageUnpin ring dma s
  | .programLoad ring dma => Sys2Proof.Machine.execProgramLoad ring dma s
  | .programRun ring dma => Sys2Proof.Machine.execProgramRun ring dma s
  | .programRunStart run => Sys2Proof.Machine.execProgramRunStart run s
  | .programSliceExpire run => Sys2Proof.Machine.execProgramSliceExpire run s
  | .programRunEnd run cycles replyOk recordOk => Sys2Proof.Machine.execProgramRunEnd run cycles replyOk recordOk s
  | .tileRead ring dma => Sys2Proof.Machine.execTileRead ring dma s
  | .tileWrite ring dma => Sys2Proof.Machine.execTileWrite ring dma s
  | .unitFallow ring dma => Sys2Proof.Machine.execUnitFallow ring dma s
  | .fallowDrainEnd unitType instNo recordOk => Sys2Proof.Machine.execFallowDrainEnd unitType instNo recordOk s
  | .frameMove field page => Sys2Proof.Machine.execFrameMove field page s
  | .unitTill ring dma => Sys2Proof.Machine.execUnitTill ring dma s
  | .unitSelfTestEnd unitType instNo pass recordOk => Sys2Proof.Machine.execUnitSelfTestEnd unitType instNo pass recordOk s
  | .unitStatus ring dma => Sys2Proof.Machine.execUnitStatus ring dma s
  | .cascadeForm ring dma => Sys2Proof.Machine.execCascadeForm ring dma s
  | .cascadeStatus ring dma => Sys2Proof.Machine.execCascadeStatus ring dma s
  | .cascadePromote ring dma => Sys2Proof.Machine.execCascadePromote ring dma s
  | .attest ring dma => Sys2Proof.Machine.execAttest ring dma s
  | .measureRead ring dma => Sys2Proof.Machine.execMeasureRead ring dma s
  | .stakeRead ring dma => Sys2Proof.Machine.execStakeRead ring dma s
  | .stakeWrite ring dma verify0 verify1 => Sys2Proof.Machine.execStakeWrite ring dma verify0 verify1 s
  | .countersRead ring dma => Sys2Proof.Machine.execCountersRead ring dma s
  | .logRead ring dma => Sys2Proof.Machine.execLogRead ring dma s
  | .traceCtl ring dma => Sys2Proof.Machine.execTraceCtl ring dma s
  | .testPerturb ring dma => Sys2Proof.Machine.execTestPerturb ring dma s
  | .selfTest ring dma failing => Sys2Proof.Machine.execSelfTest ring dma failing s
  | .firmwareStage ring dma flashOk => Sys2Proof.Machine.execFirmwareStage ring dma flashOk s
  | .firmwareActivate ring dma => Sys2Proof.Machine.execFirmwareActivate ring dma s
  | .plannerEpoch => Sys2Proof.Machine.execPlannerEpoch s
  | .channelGrant channel edcFails ecc => Sys2Proof.Machine.execChannelGrant channel edcFails ecc s
  | .gddrRetrain channel => Sys2Proof.Machine.execGddrRetrain channel s
  | .gddrRetrainEnd channel pass => Sys2Proof.Machine.execGddrRetrainEnd channel pass s
  | .gddrTemperatureRead temps => Sys2Proof.Machine.execGddrTemperatureRead temps s
  | .patrolScrub field page chunk ecc => Sys2Proof.Machine.execPatrolScrub field page chunk ecc s
  | .gddrTraining probes => Sys2Proof.Machine.execGddrTraining probes s
  | .streamTileRequest stream => Sys2Proof.Machine.execStreamTileRequest stream s
  | .streamTileDeliver stream tile => Sys2Proof.Machine.execStreamTileDeliver stream tile s
  | .streamHalt stream => Sys2Proof.Machine.execStreamHalt stream s
  | .pageIn field readOk failedWriteBacks => Sys2Proof.Machine.execPageIn field readOk failedWriteBacks s
  | .streamResume field page => Sys2Proof.Machine.execStreamResume field page s
  | .modeAAdd slice location adds => Sys2Proof.Machine.execModeAAdd slice location adds s
  | .modeDPartial total shape contributor run part => Sys2Proof.Machine.execModeDPartial total shape contributor run part s
  | .invalidationAck slice channel line core => Sys2Proof.Machine.execInvalidationAck slice channel line core s
  | .messageDeliver core thread => Sys2Proof.Machine.execMessageDeliver core thread s
  | .halt core thread => Sys2Proof.Machine.execHalt core thread s
  | .coreNop core thread => Sys2Proof.Machine.execCoreNop core thread s
  | .br core thread => Sys2Proof.Machine.execBr core thread s
  | .brc core thread => Sys2Proof.Machine.execBrc core thread s
  | .call core thread => Sys2Proof.Machine.execCall core thread s
  | .ret core thread => Sys2Proof.Machine.execRet core thread s
  | .repI core thread => Sys2Proof.Machine.execRepI core thread s
  | .repD core thread => Sys2Proof.Machine.execRepD core thread s
  | .breakLevel core thread => Sys2Proof.Machine.execBreakLevel core thread s
  | .time core thread => Sys2Proof.Machine.execTime core thread s
  | .selfId core thread => Sys2Proof.Machine.execSelfId core thread s
  | .flagsRd core thread => Sys2Proof.Machine.execFlagsRd core thread s
  | .flagsClr core thread => Sys2Proof.Machine.execFlagsClr core thread s
  | .add core thread => Sys2Proof.Machine.execAdd core thread s
  | .sub core thread => Sys2Proof.Machine.execSub core thread s
  | .and core thread => Sys2Proof.Machine.execAnd core thread s
  | .or core thread => Sys2Proof.Machine.execOr core thread s
  | .xor core thread => Sys2Proof.Machine.execXor core thread s
  | .shl core thread => Sys2Proof.Machine.execShl core thread s
  | .shr core thread => Sys2Proof.Machine.execShr core thread s
  | .sar core thread => Sys2Proof.Machine.execSar core thread s
  | .mul core thread => Sys2Proof.Machine.execMul core thread s
  | .cmp core thread => Sys2Proof.Machine.execCmp core thread s
  | .mov core thread => Sys2Proof.Machine.execMov core thread s
  | .movi core thread => Sys2Proof.Machine.execMovi core thread s
  | .addi core thread => Sys2Proof.Machine.execAddi core thread s
  | .vadd core thread => Sys2Proof.Machine.execVadd core thread s
  | .vsub core thread => Sys2Proof.Machine.execVsub core thread s
  | .vmul core thread => Sys2Proof.Machine.execVmul core thread s
  | .vmax core thread => Sys2Proof.Machine.execVmax core thread s
  | .vmin core thread => Sys2Proof.Machine.execVmin core thread s
  | .vsel core thread => Sys2Proof.Machine.execVsel core thread s
  | .vred core thread => Sys2Proof.Machine.execVred core thread s
  | .vcvt core thread => Sys2Proof.Machine.execVcvt core thread s
  | .vsbac core thread => Sys2Proof.Machine.execVsbac core thread s
  | .mac16 core thread => Sys2Proof.Machine.execMac16 core thread s
  | .mac8 core thread => Sys2Proof.Machine.execMac8 core thread s
  | .aclr core thread => Sys2Proof.Machine.execAclr core thread s
  | .sta32 core thread => Sys2Proof.Machine.execSta32 core thread s
  | .sta16 core thread => Sys2Proof.Machine.execSta16 core thread s
  | .ld core thread => Sys2Proof.Machine.execLd core thread s
  | .st core thread => Sys2Proof.Machine.execSt core thread s
  | .ldv core thread => Sys2Proof.Machine.execLdv core thread s
  | .stv core thread => Sys2Proof.Machine.execStv core thread s
  | .ld2 core thread => Sys2Proof.Machine.execLd2 core thread s
  | .ldst core thread => Sys2Proof.Machine.execLdst core thread s
  | .ldc core thread => Sys2Proof.Machine.execLdc core thread s
  | .tld core thread => Sys2Proof.Machine.execTld core thread s
  | .tst core thread => Sys2Proof.Machine.execTst core thread s
  | .tacc core thread => Sys2Proof.Machine.execTacc core thread s
  | .tfold core thread => Sys2Proof.Machine.execTfold core thread s
  | .tsts core thread => Sys2Proof.Machine.execTsts core thread s
  | .tclr core thread => Sys2Proof.Machine.execTclr core thread s
  | .lkp8 core thread => Sys2Proof.Machine.execLkp8 core thread s
  | .lkp4 core thread => Sys2Proof.Machine.execLkp4 core thread s
  | .dstep core thread => Sys2Proof.Machine.execDstep core thread s
  | .sqstep core thread => Sys2Proof.Machine.execSqstep core thread s
  | .div core thread => Sys2Proof.Machine.execDiv core thread s
  | .rsq core thread => Sys2Proof.Machine.execRsq core thread s
  | .send core thread => Sys2Proof.Machine.execSend core thread s
  | .recv core thread => Sys2Proof.Machine.execRecv core thread s
  | .probe core thread => Sys2Proof.Machine.execProbe core thread s
  | .sstart core thread => Sys2Proof.Machine.execSstart core thread s
  | .swait core thread => Sys2Proof.Machine.execSwait core thread s
  | .spoll core thread => Sys2Proof.Machine.execSpoll core thread s
  | .apEnd stream => Sys2Proof.Machine.execApEnd stream s
  | .apSetb stream => Sys2Proof.Machine.execApSetb stream s
  | .apAdds stream => Sys2Proof.Machine.execApAdds stream s
  | .apEmit stream => Sys2Proof.Machine.execApEmit stream s
  | .apDo stream => Sys2Proof.Machine.execApDo stream s
  | .apLoop stream => Sys2Proof.Machine.execApLoop stream s
  | .beacon port => Sys2Proof.Machine.execBeacon port s
  | .linkTrainingAdvance port exit => Sys2Proof.Machine.execLinkTrainingAdvance port exit s
  | .trainingTimeout port => Sys2Proof.Machine.execTrainingTimeout port s
  | .flitTransmit port => Sys2Proof.Machine.execFlitTransmit port s
  | .flitReceive port lanes => Sys2Proof.Machine.execFlitReceive port lanes s
  | .replayTimeout port => Sys2Proof.Machine.execReplayTimeout port s
  | .linkRetrain port => Sys2Proof.Machine.execLinkRetrain port s
  | .linkDown port => Sys2Proof.Machine.execLinkDown port s
  | .censusProbe port leadSerial => Sys2Proof.Machine.execCensusProbe port leadSerial s
  | .censusQuietTimer found replyOk recordOk => Sys2Proof.Machine.execCensusQuietTimer found replyOk recordOk s
  | .heartbeat => Sys2Proof.Machine.execHeartbeat s
  | .memberLost ordinal recordOk => Sys2Proof.Machine.execMemberLost ordinal recordOk s
  | .censusRerun found => Sys2Proof.Machine.execCensusRerun found s
  | .leadLost => Sys2Proof.Machine.execLeadLost s
  | .configMessage field action block leadEpoch census => Sys2Proof.Machine.execConfigMessage field action block leadEpoch census s
  | .mutationRecord field index ring seq opcode vecFmt record => Sys2Proof.Machine.execMutationRecord field index ring seq opcode vecFmt record s
  | .searchPart part => Sys2Proof.Machine.execSearchPart part s
  | .standbySync item => Sys2Proof.Machine.execStandbySync item s
  | .slotCopy field index slot ordinal => Sys2Proof.Machine.execSlotCopy field index slot ordinal s
  | .scrubListCompare field index slot list copies => Sys2Proof.Machine.execScrubListCompare field index slot list copies s
  | .bootRom readOkA readOkB busy => Sys2Proof.Machine.execBootRom readOkA readOkB busy s
  | .firmwareBoot => Sys2Proof.Machine.execFirmwareBoot s
  | .getVersion transport => Sys2Proof.Machine.execGetVersion transport s
  | .getCapabilities transport version => Sys2Proof.Machine.execGetCapabilities transport version s
  | .negotiateAlgorithms transport version offered => Sys2Proof.Machine.execNegotiateAlgorithms transport version offered s
  | .getDigests transport version => Sys2Proof.Machine.execGetDigests transport version s
  | .getCertificate transport version slot offset length => Sys2Proof.Machine.execGetCertificate transport version slot offset length s
  | .challenge transport version slot summary nonce transcript => Sys2Proof.Machine.execChallenge transport version slot summary nonce transcript s
  | .getMeasurements transport version index signed nonce transcript => Sys2Proof.Machine.execGetMeasurements transport version index signed nonce transcript s
  | .spdmUnsupportedRequest transport version code => Sys2Proof.Machine.execSpdmUnsupportedRequest transport version code s
  | .smbusArp udid address => Sys2Proof.Machine.execSmbusArp udid address s
  | .i3cAddressAssign byStatic staticAddr dynamicAddr => Sys2Proof.Machine.execI3cAddressAssign byStatic staticAddr dynamicAddr s
  | .smbusSclTimeout lowMs => Sys2Proof.Machine.execSmbusSclTimeout lowMs s
  | .eventCauseClear fn value => Sys2Proof.Machine.execEventCauseClear fn value s
  | .eventEnableWrite fn value => Sys2Proof.Machine.execEventEnableWrite fn value s
  | .irqTest fn value => Sys2Proof.Machine.execIrqTest fn value s
  | .stewardRestartRequest value => Sys2Proof.Machine.execStewardRestartRequest value s
  | .pertGo value taken => Sys2Proof.Machine.execPertGo value taken s
  | .tbNowRead fn => Sys2Proof.Machine.execTbNowRead fn s
  | .tbCapture fn => Sys2Proof.Machine.execTbCapture fn s
  | .tbCtlWrite fn value => Sys2Proof.Machine.execTbCtlWrite fn value s
  | .timerefLockChange present => Sys2Proof.Machine.execTimerefLockChange present s
  | .tjSample sample => Sys2Proof.Machine.execTjSample sample s
  | .vidStep => Sys2Proof.Machine.execVidStep s
  | .thermtrip sensor => Sys2Proof.Machine.execThermtrip sensor s
  | .unitError unitType instNo address => Sys2Proof.Machine.execUnitError unitType instNo address s
  | .pageDamaged field page => Sys2Proof.Machine.execPageDamaged field page s
  | .deviceFatal cause => Sys2Proof.Machine.execDeviceFatal cause s
  | .stewardRestart => Sys2Proof.Machine.execStewardRestart s
  | .stewardRestartEnd => Sys2Proof.Machine.execStewardRestartEnd s
  | .coldReset aonLost cut => Sys2Proof.Machine.execColdReset aonLost cut s
  | .perstN cut => Sys2Proof.Machine.execPerstN cut s
  | .resetRelease straps => Sys2Proof.Machine.execResetRelease straps s
  | .flrPhysicalFunction => Sys2Proof.Machine.execFlrPhysicalFunction s
  | .flrVirtualFunction fn => Sys2Proof.Machine.execFlrVirtualFunction fn s
  | .d3hotEntry fn => Sys2Proof.Machine.execD3hotEntry fn s
  | .lossOfLock port => Sys2Proof.Machine.execLossOfLock port s
  | .refresh channel => Sys2Proof.Machine.execRefresh channel s
  | .trainingUpkeep channel => Sys2Proof.Machine.execTrainingUpkeep channel s
  | .powerUp order refclk => Sys2Proof.Machine.execPowerUp order refclk s
  | .heartbeatAnswer leadTbk roundTrip => Sys2Proof.Machine.execHeartbeatAnswer leadTbk roundTrip s
  | .searchPartReply ring seq query slot status cands qualified flags => Sys2Proof.Machine.execSearchPartReply ring seq query slot status cands qualified flags s
  | .commitMessage field index taken readable leadEpoch => Sys2Proof.Machine.execCommitMessage field index taken readable leadEpoch s
  | .d3hotExit fn => Sys2Proof.Machine.execD3hotExit fn s
  | .tapStep tms tdi => Sys2Proof.Machine.execTapStep tms tdi s

end Sys2Proof.Machine
end

