-- ==== Sys2Proof/WellFormed.lean ====
section
/-! DEFINITION. Which commands are well formed: every ring, function, unit, port, channel, core, thread and slice that a
command names is one that the device has (Tables 2.2, 3.7, 7.1 and 13.1). -/

namespace Sys2Proof

/-- A part of the device that a command names. -/
inductive Part where
  /-- A ring by its global number: 8 per field, and the admin ring 128 (R69, R71). -/
  | ring (n : Nat)
  /-- A PCIe function. -/
  | fn (n : Nat)
  /-- A virtual function. -/
  | vfn (n : Nat)
  /-- A unit of a type of Table 3.7, cascade members apart. -/
  | unit (ty n : Nat)
  /-- A unit of any type of Table 3.7. -/
  | anyUnit (ty n : Nat)
  /-- A thread of a furrow core. -/
  | thread (core n : Nat)
  /-- A memory channel. -/
  | channel (n : Nat)
  deriving DecidableEq, Repr

/-- Table 3.7: number of units of a type. -/
def instances (ty : Nat) : Nat :=
  ([128, 2, 8, 4, 4, 4, 2, 2, 1, 32, 8, 4, 128] : List Nat).getD ty 0

/-- The device has the part. -/
def Part.exists_ (p : Part) : Bool :=
  match p with
  | .ring n => n ≤ 128
  | .fn n => n < 16
  | .vfn n => 1 ≤ n && n < 16
  | .unit ty n => ty < 12 && n < instances ty
  | .anyUnit ty n => n < instances ty
  | .thread c n => c < 128 && n < 8
  | .channel n => n < 16

/-- The parts of the device that a command names. -/
def Instr.parts (i : Instr) : List Part :=
  match i with
  | .sqTailWrite ring _ => [.ring ring]
  | .cqHeadWrite ring _ => [.ring ring]
  | .ringEnable ring _ => [.ring ring]
  | .ringReset ring => [.ring ring]
  | .registerWrite fn _ _ _ _ => [.fn fn]
  | .packetFetch _ => []
  | .ringErrorRecord ring _ => [.ring ring]
  | .irqCoalesceTimer ring => [.ring ring]
  | .reservedOpcode ring _ => [.ring ring]
  | .nop ring _ => [.ring ring]
  | .identify ring _ => [.ring ring]
  | .fieldConfigure ring _ _ => [.ring ring]
  | .fieldQuery ring _ => [.ring ring]
  | .indexCreate ring _ => [.ring ring]
  | .indexDrop ring _ => [.ring ring]
  | .indexLoadCentroids ring _ => [.ring ring]
  | .indexLoadCodebook ring _ => [.ring ring]
  | .indexActivate ring _ => [.ring ring]
  | .indexInfo ring _ => [.ring ring]
  | .insert ring _ => [.ring ring]
  | .delete ring _ => [.ring ring]
  | .upsert ring _ => [.ring ring]
  | .insertCoded ring _ => [.ring ring]
  | .commit ring _ => [.ring ring]
  | .commitApply _ _ _ _ => []
  | .snapshotHold ring _ => [.ring ring]
  | .snapshotRelease ring _ => [.ring ring]
  | .compact ring _ => [.ring ring]
  | .compactionStart evaporator => [.unit 7 evaporator]
  | .compactionSwap evaporator _ _ => [.unit 7 evaporator]
  | .oldImageFree _ _ _ => []
  | .versionFree _ _ => []
  | .search ring _ => [.ring ring]
  | .searchBatch ring _ => [.ring ring]
  | .searchRadius ring _ => [.ring ring]
  | .tableAreaPlacement => []
  | .coulterTile => []
  | .distanceTableBuild harrow => [.unit 2 harrow]
  | .sowingWindowClose _ _ _ => []
  | .listPass _ => []
  | .rerank assayer => [.unit 4 assayer]
  | .finalMerge crystalliser => [.unit 5 crystalliser]
  | .resultOutput _ _ => []
  | .gleanerTestStart _ _ _ => []
  | .fetchVector ring _ => [.ring ring]
  | .filterDefine ring _ => [.ring ring]
  | .filterDrop ring _ => [.ring ring]
  | .bitmapLoad ring _ => [.ring ring]
  | .pagePoolGrant ring _ => [.ring ring]
  | .pagePin ring _ => [.ring ring]
  | .pageUnpin ring _ => [.ring ring]
  | .programLoad ring _ => [.ring ring]
  | .programRun ring _ => [.ring ring]
  | .programRunStart _ => []
  | .programSliceExpire _ => []
  | .programRunEnd _ _ _ _ => []
  | .tileRead ring _ => [.ring ring]
  | .tileWrite ring _ => [.ring ring]
  | .unitFallow ring _ => [.ring ring]
  | .fallowDrainEnd unitType instNo _ => [.anyUnit unitType instNo]
  | .frameMove _ _ => []
  | .unitTill ring _ => [.ring ring]
  | .unitSelfTestEnd unitType instNo _ _ => [.anyUnit unitType instNo]
  | .unitStatus ring _ => [.ring ring]
  | .cascadeForm ring _ => [.ring ring]
  | .cascadeStatus ring _ => [.ring ring]
  | .cascadePromote ring _ => [.ring ring]
  | .attest ring _ => [.ring ring]
  | .measureRead ring _ => [.ring ring]
  | .stakeRead ring _ => [.ring ring]
  | .stakeWrite ring _ _ _ => [.ring ring]
  | .countersRead ring _ => [.ring ring]
  | .logRead ring _ => [.ring ring]
  | .traceCtl ring _ => [.ring ring]
  | .testPerturb ring _ => [.ring ring]
  | .selfTest ring _ _ => [.ring ring]
  | .firmwareStage ring _ _ => [.ring ring]
  | .firmwareActivate ring _ => [.ring ring]
  | .plannerEpoch => []
  | .channelGrant channel _ _ => [.channel channel]
  | .gddrRetrain channel => [.channel channel]
  | .gddrRetrainEnd channel _ => [.channel channel]
  | .gddrTemperatureRead _ => []
  | .patrolScrub _ _ _ _ => []
  | .gddrTraining _ => []
  | .streamTileRequest _ => []
  | .streamTileDeliver _ _ => []
  | .streamHalt _ => []
  | .pageIn _ _ _ => []
  | .streamResume _ _ => []
  | .modeAAdd slice _ _ => [.unit 9 slice]
  | .modeDPartial _ _ _ _ _ => []
  | .invalidationAck slice channel _ core => [.unit 9 slice, .channel channel, .unit 0 core]
  | .messageDeliver core thread => [.thread core thread]
  | .halt core thread => [.thread core thread]
  | .coreNop core thread => [.thread core thread]
  | .br core thread => [.thread core thread]
  | .brc core thread => [.thread core thread]
  | .call core thread => [.thread core thread]
  | .ret core thread => [.thread core thread]
  | .repI core thread => [.thread core thread]
  | .repD core thread => [.thread core thread]
  | .breakLevel core thread => [.thread core thread]
  | .time core thread => [.thread core thread]
  | .selfId core thread => [.thread core thread]
  | .flagsRd core thread => [.thread core thread]
  | .flagsClr core thread => [.thread core thread]
  | .add core thread => [.thread core thread]
  | .sub core thread => [.thread core thread]
  | .and core thread => [.thread core thread]
  | .or core thread => [.thread core thread]
  | .xor core thread => [.thread core thread]
  | .shl core thread => [.thread core thread]
  | .shr core thread => [.thread core thread]
  | .sar core thread => [.thread core thread]
  | .mul core thread => [.thread core thread]
  | .cmp core thread => [.thread core thread]
  | .mov core thread => [.thread core thread]
  | .movi core thread => [.thread core thread]
  | .addi core thread => [.thread core thread]
  | .vadd core thread => [.thread core thread]
  | .vsub core thread => [.thread core thread]
  | .vmul core thread => [.thread core thread]
  | .vmax core thread => [.thread core thread]
  | .vmin core thread => [.thread core thread]
  | .vsel core thread => [.thread core thread]
  | .vred core thread => [.thread core thread]
  | .vcvt core thread => [.thread core thread]
  | .vsbac core thread => [.thread core thread]
  | .mac16 core thread => [.thread core thread]
  | .mac8 core thread => [.thread core thread]
  | .aclr core thread => [.thread core thread]
  | .sta32 core thread => [.thread core thread]
  | .sta16 core thread => [.thread core thread]
  | .ld core thread => [.thread core thread]
  | .st core thread => [.thread core thread]
  | .ldv core thread => [.thread core thread]
  | .stv core thread => [.thread core thread]
  | .ld2 core thread => [.thread core thread]
  | .ldst core thread => [.thread core thread]
  | .ldc core thread => [.thread core thread]
  | .tld core thread => [.thread core thread]
  | .tst core thread => [.thread core thread]
  | .tacc core thread => [.thread core thread]
  | .tfold core thread => [.thread core thread]
  | .tsts core thread => [.thread core thread]
  | .tclr core thread => [.thread core thread]
  | .lkp8 core thread => [.thread core thread]
  | .lkp4 core thread => [.thread core thread]
  | .dstep core thread => [.thread core thread]
  | .sqstep core thread => [.thread core thread]
  | .div core thread => [.thread core thread]
  | .rsq core thread => [.thread core thread]
  | .send core thread => [.thread core thread]
  | .recv core thread => [.thread core thread]
  | .probe core thread => [.thread core thread]
  | .sstart core thread => [.thread core thread]
  | .swait core thread => [.thread core thread]
  | .spoll core thread => [.thread core thread]
  | .apEnd _ => []
  | .apSetb _ => []
  | .apAdds _ => []
  | .apEmit _ => []
  | .apDo _ => []
  | .apLoop _ => []
  | .beacon port => [.unit 11 port]
  | .linkTrainingAdvance port _ => [.unit 11 port]
  | .trainingTimeout port => [.unit 11 port]
  | .flitTransmit port => [.unit 11 port]
  | .flitReceive port _ => [.unit 11 port]
  | .replayTimeout port => [.unit 11 port]
  | .linkRetrain port => [.unit 11 port]
  | .linkDown port => [.unit 11 port]
  | .censusProbe port _ => [.unit 11 port]
  | .censusQuietTimer _ _ _ => []
  | .heartbeat => []
  | .memberLost _ _ => []
  | .censusRerun _ => []
  | .leadLost => []
  | .configMessage _ _ _ _ _ => []
  | .mutationRecord _ _ _ _ _ _ _ => []
  | .searchPart _ => []
  | .standbySync _ => []
  | .slotCopy _ _ _ _ => []
  | .scrubListCompare _ _ _ _ _ => []
  | .bootRom _ _ _ => []
  | .firmwareBoot => []
  | .getVersion _ => []
  | .getCapabilities _ _ => []
  | .negotiateAlgorithms _ _ _ => []
  | .getDigests _ _ => []
  | .getCertificate _ _ _ _ _ => []
  | .challenge _ _ _ _ _ _ => []
  | .getMeasurements _ _ _ _ _ _ => []
  | .spdmUnsupportedRequest _ _ _ => []
  | .smbusArp _ _ => []
  | .i3cAddressAssign _ _ _ => []
  | .smbusSclTimeout _ => []
  | .eventCauseClear fn _ => [.fn fn]
  | .eventEnableWrite fn _ => [.fn fn]
  | .irqTest fn _ => [.fn fn]
  | .stewardRestartRequest _ => []
  | .pertGo _ _ => []
  | .tbNowRead fn => [.fn fn]
  | .tbCapture fn => [.fn fn]
  | .tbCtlWrite fn _ => [.fn fn]
  | .timerefLockChange _ => []
  | .tjSample _ => []
  | .vidStep => []
  | .thermtrip _ => []
  | .unitError unitType instNo _ => [.unit unitType instNo]
  | .pageDamaged _ _ => []
  | .deviceFatal _ => []
  | .stewardRestart => []
  | .stewardRestartEnd => []
  | .coldReset _ _ => []
  | .perstN _ => []
  | .resetRelease _ => []
  | .flrPhysicalFunction => []
  | .flrVirtualFunction fn => [.vfn fn]
  | .d3hotEntry fn => [.fn fn]
  | .lossOfLock port => [.unit 11 port]
  | .refresh channel => [.channel channel]
  | .trainingUpkeep channel => [.channel channel]
  | .powerUp _ _ => []
  | .heartbeatAnswer _ _ => []
  | .searchPartReply _ _ _ _ _ _ _ _ => []
  | .commitMessage _ _ _ _ _ => []
  | .d3hotExit fn => [.fn fn]
  | .tapStep _ _ => []

/-- A command that names only parts the device has. -/
def Instr.wellFormed (i : Instr) : Bool := i.parts.all Part.exists_

end Sys2Proof
end

