-- ==== Sys2Proof/Safety.lean ====
section
/-! DEFINITION. What counts as a safe run of the block, and the words that statements use: a packet that is admitted,
a state that keeps what no command may take back. -/

namespace Sys2Proof.Machine

/-- Every command of the queue names only parts that the device has. -/
abbrev State.queueOk (s : State) : Prop := ∀ c ∈ s.pending, c.wellFormed = true

/-- The flash is in canonical form: addresses rise, and no listed byte is the erased 0xFF (log 7). -/
abbrev State.flashOk (s : State) : Prop := Mem.wf 0xFF s.trust.flash

/-- R743, R745: no crossing queue holds an entry: what a command sends across one it carries to the other side. -/
abbrev State.crossingsEmpty (s : State) : Prop := ∀ q, (s.crossing q).entries = []

/-- R80, R79: from s to t no ring changes but that of vector 0 of the physical function, the admin ring, whose records an event
may have signalled. -/
abbrev State.ringsKept (s t : State) : Prop :=
  (∀ r, r ≠ adminRing → t.ring r = s.ring r) ∧
    (t.ring adminRing = s.ring adminRing ∨ t.ring adminRing = { s.ring adminRing with unsignalled := 0, unsignalledSince := none })

/-- A step that goes on. -/
def goesOn (r : Host.Outcome State Fault Refusal) : Prop := ∃ t, r = .next t

/-- Packet c of a ring is the next to be admitted there, carries the opcode, and passes every check of Table 2.6
and R573: the opcode's own checks come next. -/
def State.admits (s : State) (code ring : Nat) (dma : Dma) (c : Cmd) : Bool :=
  decide (ring ≤ adminRing) && s.nextPacket ring == some c && c.opcode == code && s.unfenced c && s.serving &&
    (match opSpec code with
    | none => false
    | some o => s.packetFault c o dma == none) && !s.followerForbids code

/-- The commands of Table 3.1 that take a packet, each with its opcode; the operands are the outcomes of the transfers
and of the checks that the world outside answers. -/
def packetRows (ring : Nat) (dma : Dma) (b0 b1 : Bool) (status : Nat) (failing : List (Nat × Nat)) :
    List (Nat × Instr) :=
  [(0x00, .nop ring dma), (0x01, .identify ring dma), (0x02, .fieldConfigure ring dma status),
   (0x03, .fieldQuery ring dma), (0x08, .indexCreate ring dma), (0x09, .indexDrop ring dma),
   (0x0A, .indexLoadCentroids ring dma), (0x0B, .indexLoadCodebook ring dma), (0x0C, .indexActivate ring dma),
   (0x0D, .indexInfo ring dma), (0x10, .insert ring dma), (0x11, .delete ring dma), (0x12, .upsert ring dma),
   (0x13, .insertCoded ring dma), (0x14, .commit ring dma), (0x15, .snapshotHold ring dma),
   (0x16, .snapshotRelease ring dma), (0x17, .compact ring dma), (0x20, .search ring dma), (0x21, .searchBatch ring dma),
   (0x22, .searchRadius ring dma), (0x23, .fetchVector ring dma), (0x28, .filterDefine ring dma),
   (0x29, .filterDrop ring dma), (0x2A, .bitmapLoad ring dma), (0x30, .pagePoolGrant ring dma), (0x31, .pagePin ring dma),
   (0x32, .pageUnpin ring dma), (0x38, .programLoad ring dma), (0x39, .programRun ring dma), (0x3A, .tileRead ring dma),
   (0x3B, .tileWrite ring dma), (0x40, .unitFallow ring dma), (0x41, .unitTill ring dma), (0x42, .unitStatus ring dma),
   (0x48, .cascadeForm ring dma), (0x49, .cascadeStatus ring dma), (0x4A, .cascadePromote ring dma),
   (0x50, .attest ring dma), (0x51, .measureRead ring dma), (0x58, .stakeRead ring dma),
   (0x59, .stakeWrite ring dma b0 b1), (0x60, .countersRead ring dma), (0x61, .logRead ring dma),
   (0x62, .traceCtl ring dma), (0x68, .testPerturb ring dma), (0x69, .selfTest ring dma failing),
   (0x70, .firmwareStage ring dma b0), (0x71, .firmwareActivate ring dma)]

/-- A command that ends at once with success: from state s with packet c, the effect leaves t; then the reply data go
to host memory and the completion record follows (R91), under the outcomes that `dma` gives those writes. -/
def ended (s t : State) (c : Cmd) (dma : Dma) (info : Nat) (replies : List (Nat × Bytes)) : Result :=
  .next (s.settle c dma (yesReply t info replies))

/-- A command that stays outstanding with work to do, its effect at admission being t. -/
def outstanding (s t : State) (c : Cmd) (dma : Dma) (w : Work) : Result := .next (s.settle c dma (stays t w))

/-- R47, R89: a step has ended command c with ST_SUCCESS and `info`; v is the state but for what the record changes. -/
abbrev completed (r : Result) (c : Cmd) (info : Nat) (fl : Flags) (ok : Bool) (v : State) : Prop :=
  ∃ d : Cmd, d.ring = c.ring ∧ d.seq = c.seq ∧ d.tag = c.tag ∧ d.irq = c.irq ∧ d.tFetch = c.tFetch ∧
    r = .next (v.finish d 0 info 0 fl ok)

/-- Commands but the one that c is stay as they are. -/
abbrev State.othersStay (s t : State) (c : Cmd) : Prop := ∀ d, d.is c.ring c.seq = false → (d ∈ t.cmds ↔ d ∈ s.cmds)

/-- R476: a row whose commands read or write pages takes packet c: none that it has admitted before goes on first. -/
abbrev State.takesNext (s : State) (code ring : Nat) (c : Cmd) : Prop :=
  s.nextReading code ring = none ∧ s.readerHalted (.cmd c.ring c.seq) = false

/-- R476, R493, R494, R499: the pages of spans are resident and hold what they held, and no channel on the way retrains. -/
abbrev State.atHand (s : State) (f : Nat) (store : Bool) (xs : List Span) : Prop :=
  (∀ x ∈ xs, (if store then s.spanLost f x else s.spanFault f x) = false) ∧ s.retrains f xs = false ∧
    s.firstAway f [] xs = none

/-- A field without its counters, which every packet of the field moves. -/
def Field.uncounted (x : Field) : Field := { x with counters := [] }

/-- The writes to host memory in a record of outputs. -/
def hostWrites (l : List Out) : List Out :=
  l.filter (fun o => match o with
    | .hostWrite _ _ _ => true
    | _ => false)

/-- Instruction `op` of class `cls` is the next one of a thread, which issues it with what x holds. -/
abbrev State.issues (s : State) (cls op core thread : Nat) (x : Slot3) : Prop :=
  core < 128 ∧ thread < 8 ∧ s.issuing core thread = some x ∧ isWord cls op x.w = true

/-- A thread has the registers, vector registers and accumulators of Table 7.1. -/
abbrev Thread.shaped (t : Thread) : Prop :=
  t.r.length = 32 ∧ t.v.length = 16 ∧ t.vacc.length = 4 ∧ ∀ a ∈ t.vacc, a.length = 16

/-- What every instruction leaves of a thread t that only writes some of its registers: the rest of the thread, with the
program counter and the repeat levels as they stand behind the instruction. -/
abbrev Thread.goesOn (t y : Thread) : Prop :=
  y.rs = t.rs ∧ y.recvQ = t.recvQ ∧ y.status = t.status ∧ y.pc = t.advance.pc ∧ y.levels = t.advance.levels

/-- Scalar registers but those that p names hold what they held. -/
abbrev Thread.keepsRegs (t y : Thread) (p : Nat → Prop) : Prop := ∀ n, ¬ p n → y.reg n = t.reg n

/-- Vector registers but those that p names hold what they held. -/
abbrev Thread.keepsVecs (t y : Thread) (p : Nat → Prop) : Prop := ∀ n, n < 16 → ¬ p n → y.vreg n = t.vreg n

/-- A thread y that goes on behind an instruction of t and has only scalar register d changed. -/
abbrev Thread.onlyReg (t y : Thread) (d : Nat) : Prop :=
  t.goesOn y ∧ t.keepsRegs y (fun n => n = d) ∧ y.v = t.v ∧ y.vacc = t.vacc ∧ y.cc = t.cc ∧ y.flags = t.flags

/-- A thread y that goes on behind an instruction of t and has only vector register d and FLAGS changed. -/
abbrev Thread.onlyVec (t y : Thread) (d : Nat) : Prop :=
  t.goesOn y ∧ y.r = t.r ∧ t.keepsVecs y (fun n => n = d) ∧ y.vacc = t.vacc ∧ y.cc = t.cc

/-- Core y differs from c in no more than its local memory. -/
abbrev Core.onlyMem (c y : Core) : Prop := y = { c with mem := y.mem }

/-- Core y differs from c in no more than its tile file. -/
abbrev Core.onlyTile (c y : Core) : Prop := y = { c with tile := y.tile, scale := y.scale }

/-- R368: an address register with value v after an access of n bytes, k being the N register named. -/
def addressAfter (v k : BitVec 64) (pm n : Nat) : BitVec 64 :=
  if pm = 0 then v else if pm = 1 then v + k else if pm = 2 then v - k else v + BitVec.ofNat 64 n

end Sys2Proof.Machine
end

