-- ==== Sys2Proof/Certificates/Slice0/Obligations.lean ====
section
/-! DEFINITION. The statements about the model, for the provers. -/

open Sys2Proof Sys2Proof.Machine

/-- A command at the front of the queue is executed with the queue's rest; on an empty queue the block idles for one
nanosecond of TBK while it runs (the model's choices, logs 1 and 5). -/
def Obligations.StepRunsFront : Prop :=
  (∀ (c : Instr) (rest : List Instr) (s : State), s.pending = c :: rest →
    step s = exec c { s with pending := rest }) ∧
  ∀ s : State, s.pending = [] → step s = .next { s with tbk := if s.up = true then s.tbk + 1 else s.tbk }

/-- What reset leaves (Tables 2.1, 3.4, 13.4, 13.5; R135, R710, R727): every ring at its reset values, field 0 alone
at the defaults with no index, no command, TBK 0, the always-enabled event bits, measurement registers of zeros, no
cascade, no control, no log entry and no trace, and nothing in a crossing queue or a handle queue; a queue without commands, and a
blank flash and stake store (log 7). -/
def Obligations.ResetLeaves : Prop :=
  (∀ r, State.reset.ring r = Ring.reset) ∧ Ring.reset.log2 = 6 ∧ Ring.reset.enable = false ∧
  (∀ f, State.reset.fieldExists f = decide (f = 0)) ∧ State.reset.cfg 0 = FieldCfg.reset ∧
  (∀ f i, State.reset.index? f i = none) ∧ State.reset.cmds = [] ∧ State.reset.tbk = 0 ∧
  (State.reset.fn 0).enable = 0x101#32 ∧ (∀ fn, 0 < fn → (State.reset.fn fn).enable = 1#32) ∧
  (∀ fn, (State.reset.fn fn).cause = 0) ∧ (∀ n, State.reset.trust.mr.getD n (zeros 48) = zeros 48) ∧
  State.reset.casc.state = 0 ∧ State.reset.pert.slots = [] ∧ State.reset.log.entries = [] ∧
  State.reset.glob.ready = false ∧ State.reset.glob.fatal = false ∧ State.reset.trust.bootCode = 1 ∧
  State.reset.crossingsEmpty ∧ (∀ n, FMap.get? State.reset.handleQueues n = none) ∧ State.reset.trace.running = false ∧
  State.reset.pending = [] ∧ State.reset.flashOk ∧ ∀ k slot c, State.reset.trust.copy k slot c = zeros 32

/-- R114: a value in range, that is one reached from the old `tail` without passing `sq_head` − 1, is stored as
`tail`; any other value below 2^16 puts the ring in error with cause 1; a ring that is disabled, in error or under
reset keeps everything. R92, R114: CQ_HEAD takes a value reached from the old `head` without passing the next
completion slot, and the records passed over count as consumed; any other value stops the ring with cause 1. R697,
R698: where the ring's registers are not served, none of the four ring writes has an effect; a number that no ring has
is a fault. -/
def Obligations.DoorbellWrites : Prop :=
  (∀ (s : State) (ring : Nat) (v : BitVec 32), ring ≤ adminRing → s.ringServed ring = true →
    let x := s.ring ring
    let new := v.toNat % 65536
    let inRange := ∃ k, k ≤ ahead x.tail.toNat (x.sqHead.toNat + x.n - 1) x.n ∧ new = (x.tail.toNat + k) % x.n
    (x.listening = true → inRange →
      exec (.sqTailWrite ring v) s = .next (s.setRing ring { x with tail := BitVec.ofNat 16 new })) ∧
    (x.listening = true → ¬ inRange → exec (.sqTailWrite ring v) s = .next (s.ringError ring 1)) ∧
    (x.listening = false → exec (.sqTailWrite ring v) s = .next s)) ∧
  (∀ (s : State) (ring : Nat) (v : BitVec 32), ring ≤ adminRing → s.ringServed ring = true →
    let x := s.ring ring
    let new := v.toNat % 65536
    (x.listening = true → ∀ k, k ≤ ahead x.head.toNat x.cqTail.toNat x.n → new = (x.head.toNat + k) % x.n →
      exec (.cqHeadWrite ring v) s =
        .next (s.setRing ring { x with head := BitVec.ofNat 16 new, unconsumed := x.unconsumed - k })) ∧
    (x.listening = true → (∀ k, k ≤ ahead x.head.toNat x.cqTail.toNat x.n → new ≠ (x.head.toNat + k) % x.n) →
      exec (.cqHeadWrite ring v) s = .next (s.ringError ring 1)) ∧
    (x.listening = false → exec (.cqHeadWrite ring v) s = .next s)) ∧
  (∀ (s : State) (ring : Nat) (v : BitVec 32),
    (ring ≤ adminRing → s.ringServed ring = false →
      exec (.sqTailWrite ring v) s = .next s ∧ exec (.cqHeadWrite ring v) s = .next s ∧
      exec (.ringEnable ring v) s = .next s ∧ exec (.ringReset ring) s = .next s) ∧
    (adminRing < ring → exec (.sqTailWrite ring v) s = .fault .noSuchUnit ∧
      exec (.cqHeadWrite ring v) s = .fault .noSuchUnit ∧ exec (.ringEnable ring v) s = .fault .noSuchUnit ∧
      exec (.ringReset ring) s = .fault .noSuchUnit))

/-- R74 and R73 for RING_CTL: on a ring that is disabled and idle, a write of `enable` takes `log2_entries` and `prio` from the value;
on any other ring they stay. It then enables a disabled ring where the configuration is valid, so that the next record takes the next
completion slot with phase 1 (log 30), and stops it with cause 4 where it is not; an enabled ring it leaves as it was. R77: with no
command outstanding, RING_RESET clears the ring at once; with commands outstanding it only marks the reset, and the ring is cleared
when the last of them ends, without a record. -/
def Obligations.RingEnableAndReset : Prop :=
  (∀ (s : State) (ring : Nat) (v : BitVec 32), ring ≤ adminRing → s.ringServed ring = true → v.getLsbD 1 = false →
    let x := s.ring ring
    let y := if s.ringIdle ring = true then { x with log2 := (v >>> 4).truncate 5, prio := (v >>> 2).truncate 2 } else x
    let valid := 6 ≤ y.log2.toNat ∧ y.log2.toNat ≤ 16 ∧ y.sqBase.toNat % 4096 = 0 ∧ y.cqBase.toNat % 4096 = 0
    (x.enable = false → valid →
      exec (.ringEnable ring v) s = .next (s.setRing ring { y with
        enable := true, phase := true, cqTail := BitVec.ofNat 16 (y.cqTail.toNat % 2 ^ y.log2.toNat) })) ∧
    (x.enable = false → ¬ valid →
      exec (.ringEnable ring v) s = .next ((s.setRing ring { y with enable := true }).ringError ring 4)) ∧
    (x.enable = true → exec (.ringEnable ring v) s = .next (s.setRing ring x)) ∧
    (s.ringIdle ring = true ↔ s.cmdsOf ring = [] ∧ (x.errRecordDue = false ∨ x.cqWritable = false))) ∧
  (∀ (s : State) (ring : Nat), ring ≤ adminRing → s.ringServed ring = true →
    (s.cmdsOf ring = [] → exec (.ringReset ring) s = .next (s.setRing ring { s.ring ring with
      enable := false, tail := 0, head := 0, sqHead := 0, seqNext := 0, error := false, errorCause := 0,
      resetting := false, errRecordDue := false, cqWritable := true, cqTail := 0, phase := true, unconsumed := 0,
      unsignalled := 0, unsignalledSince := none })) ∧
    (s.cmdsOf ring ≠ [] →
      exec (.ringReset ring) s = .next (s.setRing ring { s.ring ring with resetting := true })) ∧
    ∀ (c : Cmd) (status info bound : Nat) (fl : Flags) (ok : Bool), (s.ring c.ring).resetting = true →
      (s.finish c status info bound fl ok).out = s.out ∧
      (s.cmdsOf c.ring = [c] → (s.finish c status info bound fl ok).ring c.ring = (s.ring c.ring).cleared))

/-- Table 2.7, R114, R115: the first ring error of a ring sets `error` and `error_cause` and makes the device's own
record due, appends a RING_ERROR entry that names the ring and the cause, and changes no other ring; causes 3 and 4
leave the completion ring unwritable. A second error changes nothing. R97, R115: once its commands have ended, a ring
in error gets its own record, tag 0xFFFF, status ST_RING_ERROR and sequence number 2^48 − 1, if its completion ring
can be written, and the field-event bit 0 is set either way. R80: when `irq_time_us` has passed since the first record
not yet signalled, the ring's vector is raised and the records count as signalled; TBK stands at that moment or later
(log 5). R105, R106, R107, R108: a fetch takes the admin ring whenever it is ready; a field ring that is fetched from
is ready, and no ready field ring of a higher effective priority is passed over unless the level served has reached a
skip count of 31. R96, R107: a packet read from the ring that is next takes the ring's `seq_next`, which then rises by
1 modulo 2^48, joins the outstanding commands as the newest, and frees its slot. R72, R743, R745, Table 14.5: the slot is read at
`sq_base` + 64 · index, and the packet reaches the Steward through crossing queue 0, three STW cycles after it is written, or later by
what control 0 adds, and leaves no entry behind; a failed read stops the ring with cause 2 and changes nothing else (log 98). No other ring, index, function register or module of the device changes. -/
def Obligations.RingErrorsAndFetching : Prop :=
  (∀ (s : State) (ring cause : Nat),
    ((s.ring ring).error = true → s.ringError ring cause = s) ∧
    ((s.ring ring).error = false →
      (s.ringError ring cause).ring ring = { s.ring ring with
        error := true, errorCause := BitVec.ofNat 4 cause, errRecordDue := true,
        cqWritable := decide (cause ≠ 3) && decide (cause ≠ 4) && (s.ring ring).cqWritable } ∧
      (∀ q, q ≠ ring → (s.ringError ring cause).ring q = s.ring q) ∧
      (∃ e rest, (s.ringError ring cause).log.entries = e :: rest ∧ e.code = 0x0030 ∧ e.field = ringField ring) ∧
      (s.ringError ring cause).cmds = s.cmds ∧ (s.ringError ring cause).fields = s.fields ∧
      (s.ringError ring cause).indexes = s.indexes ∧ (s.ringError ring cause).tbk = s.tbk ∧
      (s.ringError ring cause).glob = s.glob ∧ (s.ringError ring cause).trust = s.trust)) ∧
  (∀ (s : State) (ring : Nat) (ok : Bool), ring ≤ adminRing → s.errorRecordDue ring = true →
    ∃ t : State, exec (.ringErrorRecord ring ok) s = .next t ∧
      (t.ring ring).errRecordDue = false ∧ (t.fn (ringFn ring)).cause.getLsbD 0 = true ∧
      (∀ q, q ≠ ring → q ≠ adminRing → t.ring q = s.ring q) ∧
      (ring ≠ adminRing → t.ring adminRing = s.ring adminRing ∨
        t.ring adminRing = { s.ring adminRing with unsignalled := 0, unsignalledSince := none }) ∧ t.cmds = s.cmds ∧ t.fields = s.fields ∧ t.tbk = s.tbk ∧
      ((s.ring ring).cqWritable = true → ok = true →
        .hostWrite (ringFn ring) ((s.ring ring).cqBase + BitVec.ofNat 64 (32 * (s.ring ring).cqTail.toNat))
          (recordBytes (s.ring ring) 0xFFFF 0x0200 0 0xFFFF_FFFF_FFFF#48 0 0 0) ∈ t.out) ∧
      (((s.ring ring).cqWritable && ok) = false →
        t.out = s.out ∨ t.out = .msix (ringFn ring) (eventVector (ringFn ring)) :: s.out)) ∧
  (∀ (s : State) (ring t : Nat), ring ≤ adminRing → (s.ring ring).unsignalledSince = some t →
    (s.ring ring).irqTime ≠ 0 →
    exec (.irqCoalesceTimer ring) s =
      .next (({ s with tbk := max s.tbk (t + (s.ring ring).irqTime.toNat * 1000) }.setRing ring
        { s.ring ring with unsignalled := 0, unsignalledSince := none }).raiseVector (ringFn ring) (ringVector ring))) ∧
  ((∀ s : State, s.ringReady adminRing = true → s.nextRing = some adminRing) ∧
  ∀ (s : State) (r : Nat), s.nextRing = some r → r ≠ adminRing →
    s.ringReady r = true ∧ s.ringReady adminRing = false ∧ r < 128 ∧
    (31 ≤ FMap.getD s.skip (s.effPrio r) 0 ∨
      ∀ q, q < 128 → FMap.get? s.rings q ≠ none → s.ringReady q = true → s.effPrio r ≤ s.effPrio q)) ∧
  (∀ (s : State) (r : Nat), s.serving = true → s.nextRing = some r →
    let read := Out.hostRead (ringFn r) ((s.ring r).sqBase + BitVec.ofNat 64 (64 * ((s.ring r).sqHead.toNat % (s.ring r).n))) 64
    exec (.packetFetch none) s = .next ({ s with out := read :: s.out }.ringError r 2) ∧
    (s.crossingsEmpty → ∀ b : Bytes, ∃ (fs : FMap Field) (cs : FMap Nat) (tr : Trace) (sk ls : FMap Nat) (xs : FMap Crossing) (now : Nat),
      exec (.packetFetch (some b)) s = .next { s with
        out := read :: s.out, crossings := xs, tbk := now
        cmds := s.cmds ++ [⟨r, (s.ring r).seqNext, fit 64 b, now, .fetched, 0, 0, false, none⟩]
        rings := FMap.set s.rings r { s.ring r with
          sqHead := BitVec.ofNat 16 (((s.ring r).sqHead.toNat + 1) % (s.ring r).n), seqNext := (s.ring r).seqNext + 1 }
        fields := fs, counters := cs, trace := tr, skip := sk, lastServed := ls } ∧
      now = s.tbk + 3 + s.control 0 0xFF 0 ∧ (∀ q, (FMap.getD xs q ⟨0, 0, []⟩).entries = []) ∧
      (∀ f, (FMap.get? fs f).map Field.uncounted = (FMap.get? s.fields f).map Field.uncounted) ∧
      (r = adminRing → fs = s.fields ∧ sk = s.skip ∧ ls = s.lastServed)))

/-- R713, R710, R712: a write of ones clears those cause bits; a write to EVENT_ENABLE sets the bits the function has,
with those that always read 1, and raises the event vector exactly when an enable bit that was 0 becomes 1 over a set
cause bit. Table 13.5: IRQ_TEST raises the vector that it names, 0 to 8, and no other: the message goes out at once,
or waits as a pending bit while the vector is masked; R79, R80: either way the completion records of the ring that the vector serves
count as signalled. R725, R726, R729: a read of TB_NOW returns bits 31:0 of TBK and
latches bits 63:32, which TB_NOW_HI then gives; R694: an 8-byte read returns all of it; TB_CAPTURE latches all of it; TB_CTL is writable in the physical function alone; the reference's
presence shows in `locked` while `src` is 1. -/
def Obligations.EventAndTimeRegisters : Prop :=
  (∀ (s : State) (fn : Nat) (v : BitVec 32), fn < 16 → s.eventsServed = true →
    let x := s.fn fn
    let mask : BitVec 32 := if fn = 0 then 0x3FD#32 else 0x013#32
    let always : BitVec 32 := if fn = 0 then 0x101#32 else 0x001#32
    let new := v &&& mask ||| always
    exec (.eventCauseClear fn v) s = .next (s.setFn fn { x with cause := x.cause &&& ~~~ v }) ∧
    ((∀ b, b < 32 → new.getLsbD b = true → x.enable.getLsbD b = false → x.cause.getLsbD b = false) →
      exec (.eventEnableWrite fn v) s = .next (s.setFn fn { x with enable := new })) ∧
    ((∃ b, b < 32 ∧ new.getLsbD b = true ∧ x.enable.getLsbD b = false ∧ x.cause.getLsbD b = true) →
      exec (.eventEnableWrite fn v) s =
        .next ((s.setFn fn { x with enable := new }).raiseVector fn (if fn = 0 then 0 else 8)))) ∧
  (∀ (s : State) (fn : Nat) (v : BitVec 32), fn < 16 → s.eventsServed = true →
    let n := v.toNat % 16
    (n ≤ 8 → ((s.fn fn).vector n).getLsbD 96 = false →
      exec (.irqTest fn v) s = .next { s.signalled (vectorRing fn n) with out := .msix fn n :: s.out }) ∧
    (n ≤ 8 → ((s.fn fn).vector n).getLsbD 96 = true →
      exec (.irqTest fn v) s =
        .next ((s.signalled (vectorRing fn n)).setFn fn { s.fn fn with pba := (s.fn fn).pba ||| 1#64 <<< n })) ∧
    (∀ r, r ≤ adminRing → vectorRing (ringFn r) (ringVector r) = some r) ∧
    (∀ r, s.signalled (some r) = s.setRing r { s.ring r with unsignalled := 0, unsignalledSince := none }) ∧
    s.signalled none = s ∧
    (8 < n → exec (.irqTest fn v) s = .next s)) ∧
  ((∀ (s : State) (fn : Nat), fn < 16 → s.windowServed = true →
    exec (.tbNowRead fn) s = .next { s.setFn fn { s.fn fn with tbHi := BitVec.ofNat 32 (s.tbk / 2 ^ 32) } with
      out := .readData fn (BitVec.ofNat 32 s.tbk) :: s.out } ∧
    s.hostRead fn 0 0x8000 8 = leBytes 8 s.tbk ∧ s.hostRead fn 0 0x8008 4 = leBytes 4 (s.fn fn).tbHi.toNat ∧
    exec (.tbCapture fn) s = .next (s.setFn fn { s.fn fn with tbCapture := BitVec.ofNat 64 s.tbk })) ∧
  (∀ (s : State) (v : BitVec 32), s.windowServed = true →
    exec (.tbCtlWrite 0 v) s =
      .next { s with time := { s.time with src := v.getLsbD 0, locked := s.time.locked && v.getLsbD 0 } }) ∧
  (∀ (s : State) (fn : Nat) (v : BitVec 32), 0 < fn → fn < 16 → exec (.tbCtlWrite fn v) s = .next s) ∧
  ∀ (s : State) (present : Bool), s.up = true → exec (.timerefLockChange present) s =
    .next { s with time := { s.time with refPresent := present, locked := present && s.time.src } })

/-- R692, R693, R695: REGISTER_WRITE of 4 aligned bytes reaches SCRATCH, a ring base or IRQ_COALESCE of a field's
doorbell page and changes nothing else; an 8-byte write sets both halves of a base; any other size or alignment is
ignored. R692, R694, Table 2.1: a read of 4 or 8 bytes gives what these registers hold. R706: a write of 1 to `steward_restart` starts a warm restart only while the firmware runs, no device-fatal
error has occurred and no restart runs: the admitted commands are marked to end with ST_HW_FAULT, the packets not yet
admitted, rings, fields and indexes stay; at other times nothing happens. -/
def Obligations.WindowWrites : Prop :=
  ((∀ (s : State) (v : BitVec 64), s.windowServed = true →
    exec (.registerWrite 0 0 0x0110 4 v) s = .next (s.setGlob { s.glob with scratch := v.truncate 32 }) ∧
    s.hostRead 0 0 0x0110 4 = leBytes 4 s.glob.scratch.toNat) ∧
  (∀ (s : State) (fn page : Nat) (v : BitVec 64), fn < 16 → page < 8 → s.ringServed (fn * 8 + page) = true →
    let r := fn * 8 + page
    (s.basesWritable r = true →
      exec (.registerWrite fn 2 (page * 0x1000 + 0x10) 8 v) s = .next (s.setRing r { s.ring r with sqBase := v }) ∧
      exec (.registerWrite fn 2 (page * 0x1000 + 0x18) 8 v) s = .next (s.setRing r { s.ring r with cqBase := v })) ∧
    (s.basesWritable r = false →
      exec (.registerWrite fn 2 (page * 0x1000 + 0x10) 8 v) s = .next s ∧
      exec (.registerWrite fn 2 (page * 0x1000 + 0x18) 8 v) s = .next s) ∧
    s.hostRead fn 2 (page * 0x1000 + 0x10) 8 = leBytes 8 (s.ring r).sqBase.toNat ∧
    s.hostRead fn 2 (page * 0x1000 + 0x18) 8 = leBytes 8 (s.ring r).cqBase.toNat ∧
    s.hostRead fn 2 (page * 0x1000) 4 = leBytes 4 (s.ring r).tail.toNat ∧
    s.hostRead fn 2 (page * 0x1000 + 0x20) 4 = leBytes 4 (s.ring r).sqHead.toNat ∧
    exec (.registerWrite fn 2 (page * 0x1000 + 0x30) 4 v) s = .next (s.setRing r { s.ring r with
      irqTime := BitVec.ofNat 16 (v.toNat / 256), irqCount := BitVec.ofNat 8 v.toNat })) ∧
  ∀ (s : State) (fn bar off size : Nat) (v : BitVec 64), fn < 16 →
    ¬ (size = 4 ∧ off % 4 = 0) → ¬ (size = 8 ∧ off % 8 = 0) → exec (.registerWrite fn bar off size v) s = .next s) ∧
  (∀ (s : State) (v : BitVec 32), s.up = true → s.trust.bootCode = 0 →
    (s.glob.fatal = false → s.glob.restarting = false → v.getLsbD 0 = true →
      ∃ t : State, exec (.stewardRestartRequest v) s = .next t ∧ t.glob.restarting = true ∧
        t.glob.restarts = s.glob.restarts + 1 ∧ t.glob.lastRestart = s.glob.lastRestart ∧
        t.cmds = s.cmds.map (fun c => if c.work = .fetched then c else { c with stopped := some 0x0103#16 }) ∧
        s.ringsKept t ∧ t.fields = s.fields ∧ t.indexes = s.indexes ∧ t.queries = s.queries ∧ t.runs = s.runs ∧
        t.trust = s.trust ∧ t.tbk = s.tbk ∧
        (∃ e rest, t.log.entries = e :: rest ∧ e.code = 0x0060)) ∧
    (s.glob.fatal = true ∨ s.glob.restarting = true ∨ v.getLsbD 0 = false →
      exec (.stewardRestartRequest v) s = .next s))

/-- R727, R757, Table 14.11: a cold reset leaves every register at its reset value, TBK at 0 and no command, and keeps the stake
store, the flash, the TAP and, unless VDD_AON was lost, the power; PERST_N does the same and also keeps the THERMTRIP latch and the
sideband's bus addresses. R764, R766: a STAKE_WRITE that the reset cuts short leaves every written copy of a stake slot as it was, and
a rewriting of the flash that it cuts short keeps the flash in canonical form; where nothing is cut short, stake store and flash are
as before. R757, R780: once both reset pins are high the straps are sampled and the flash port is on;
nothing else changes. R751, R755: with the rails in a permitted order the device comes up powered and held in both
resets, keeping only the stake store and the flash; a permitted order is one that Table 14.9 or its deviations give; HXL and PCIe are
there as their rails and the reference clock are. R736: D3hot marks the function; D0 takes the mark away and, with No_Soft_Reset,
everything else of the function is as before. While a function is in D3hot none of its rings is fetched from. -/
def Obligations.DeviceResets : Prop :=
  (∀ (s : State) (cut : CutShort),
    let u := s.cutShort cut
    (∀ aonLost : Bool, ∃ b : Board, exec (.coldReset aonLost cut) s = .next { State.reset with
        board := b, trust := Trust.reset u.trust.stakes u.trust.flash, pending := s.pending, out := s.out,
        fresh := u.fresh } ∧
      b.sysResetN = false ∧ b.perstN = s.board.perstN ∧ b.powered = (s.board.powered && !aonLost) ∧ b.tap = s.board.tap ∧
      b.thermtripN = true ∧ b.clocksStopped = false ∧ b.smbusAddr = 0x4A#7 ∧
      b.i3cAddr = none) ∧
    (∃ b : Board, exec (.perstN cut) s = .next { State.reset with
        board := b, trust := Trust.reset u.trust.stakes u.trust.flash, pending := s.pending, out := s.out,
        fresh := u.fresh } ∧
      b.perstN = false ∧ b.sysResetN = s.board.sysResetN ∧ b.powered = s.board.powered ∧ b.tap = s.board.tap ∧
      b.thermtripN = s.board.thermtripN ∧ b.clocksStopped = s.board.clocksStopped ∧ b.smbusAddr = s.board.smbusAddr ∧
      b.i3cAddr = s.board.i3cAddr) ∧
    (cut = .nothing → u = s) ∧
    (∀ k slot c, s.trust.copy k slot c ≠ zeros 32 → u.trust.copy k slot c = s.trust.copy k slot c) ∧
    (s.flashOk → u.flashOk)) ∧
  (∀ (s : State) (p : Straps), s.board.powered = true → (s.board.sysResetN && s.board.perstN) = false →
    exec (.resetRelease p) s = .next { s with
      board := { s.board with sysResetN := true, perstN := true, qspiOn := !s.board.clocksStopped }
      glob := { s.glob with straps := p } }) ∧
  (∀ (s : State) (order : List Rail) (refclk : Bool), s.board.powered = false → powerOrderOk order = true →
    exec (.powerUp order refclk) s = .next { State.reset with
      board := { Board.inReset with
        powered := true, sysResetN := false, perstN := false, hxlRail := order.contains .vddHxl
        pcie := order.contains .vddPcie && refclk }
      trust := Trust.reset s.trust.stakes s.trust.flash, pending := s.pending, out := s.out, fresh := s.fresh + 1 }) ∧
  ((∀ (s : State) (fn : Nat), fn < 16 → s.up = true →
    exec (.d3hotEntry fn) s = .next (s.setFn fn { s.fn fn with d3hot := true }) ∧
    exec (.d3hotExit fn) s = .next (s.setFn fn { s.fn fn with d3hot := false })) ∧
  ∀ (s : State) (r : Nat), (s.fn (ringFn r)).d3hot = true → s.ringReady r = false)

/-- R758, R120, R730: an FLR of virtual function v ends every command of field v and writes nothing to host memory,
removes the field with its indexes and returns the function's rings and registers to their reset values; commands and
rings of the other functions, the stake store and TBK stay. R759, R758, R120: an FLR of the physical function ends
every command and writes nothing to host memory, leaves field 0 alone at its defaults with no index, the admin ring at
reset, no cascade and no trace, returns every function's registers to reset values and, once the firmware runs, extends
measurement register 3; the stake store stays. -/
def Obligations.FunctionResets : Prop :=
  (∀ (s : State) (fn : Nat), 0 < fn → fn < 16 → s.up = true →
    ∃ t : State, exec (.flrVirtualFunction fn) s = .next t ∧
      t.field? fn = none ∧ (∀ i, i < 64 → t.index? fn i = none) ∧
      (∀ c ∈ t.cmds, c.ring = adminRing ∨ ringFn c.ring ≠ fn) ∧
      (∀ c ∈ s.cmds, c.ring = adminRing ∨ ringFn c.ring ≠ fn → c ∈ t.cmds) ∧
      (∀ r, r < 128 → r / 8 = fn → t.ring r = Ring.reset) ∧
      (∀ r, r / 8 ≠ fn → t.ring r = s.ring r) ∧
      t.fn fn = FnRegs.reset 1#32 ∧ t.trust = s.trust ∧ t.tbk = s.tbk ∧ t.glob = s.glob ∧
      hostWrites t.out = hostWrites s.out) ∧
  (∀ s : State, s.up = true → ∃ t : State, exec .flrPhysicalFunction s = .next t ∧
    t.fields = [(0, Field.fresh FieldCfg.reset)] ∧ (∀ f i, f < 16 → i < 64 → t.index? f i = none) ∧
    t.cmds = [] ∧ t.ring adminRing = Ring.reset ∧ t.casc = Cascade.reset ∧ t.pert.slots = [] ∧ t.trace.running = false ∧
    (∀ fn, fn < 16 → t.fn fn = FnRegs.reset (alwaysEnabled fn)) ∧
    t.trust.stakes = s.trust.stakes ∧ t.trust.flash = s.trust.flash ∧ t.tbk = s.tbk ∧
    hostWrites t.out = hostWrites s.out ∧
    (s.trust.bootCode = 0 → s.trust.mr.length = 8 →
      t.trust.mr.getD 3 [] = sha384 (s.trust.mr.getD 3 (zeros 48) ++ sha384 [0x31, 0, 0, 0])))

/-- R616, R705, R747: from a released reset, BOOT_ROM with a slot that passes every check of Table 11.3 measures the
image into register 0, notes outcome 9 for it and starts it, having reset the flash, polled its status for at most 2 s and read each
slot that it tried once (R765, R772); with no slot that passes, boot ends with `boot_code` 2.
The stakes take effect and the registers start from zero. R747, Tables 11.6 and 14.3: the started firmware with GDDR
trained extends registers 1 and 2 (and 7 with debug unlocked), drives VID, sets `boot_code` 0 and `ready`; rings,
fields and the stake store stay. -/
def Obligations.BootSequence : Prop :=
  (∀ (s : State) (okA okB : Bool) (busy : Nat), s.up = true → s.trust.bootCode = 1 → s.trust.fw = none →
    let u := s.romStart
    let r := u.trust.tryAll okA okB (u.trust.candidates s.glob.straps.bootSel.toNat)
    (r.2 = none → ∃ t : State, exec (.bootRom okA okB busy) s = .next t ∧ t.trust.bootCode = 2 ∧ t.trust.fw = none ∧
      t.tbk = s.tbk + min busy 2000000000 ∧
      t.trust.stakes = s.trust.stakes ∧ t.trust.flash = s.trust.flash ∧ t.glob.ready = s.glob.ready) ∧
    (∀ slot, r.2 = some slot → ∃ t : State, exec (.bootRom okA okB busy) s = .next t ∧
      t.trust.bootCode = 1 ∧ (t.trust.fw.map (fun f => f.slot)) = some slot ∧ t.tbk = s.tbk + min busy 2000000000 ∧
      t.out = ((r.1.tried (u.trust.candidates s.glob.straps.bootSel.toNat)).map (fun n =>
          Out.qspi 0x0C (slotBase n) (s.trust.image n).length)).reverse ++
        .qspi 0x05 0 1 :: .qspi 0x99 0 0 :: .qspi 0x66 0 0 :: u.out ∧
      (if slot = 0 then t.trust.stepA = 9 else t.trust.stepB = 9) ∧
      t.trust.mr.getD 0 [] =
        sha384 (zeros 48 ++ sha384 ([0x01, 0, 0, 0] ++ s.trust.image slot)) ∧
      t.trust.stakes = s.trust.stakes ∧ t.trust.flash = s.trust.flash ∧ t.glob.ready = s.glob.ready)) ∧
  (∀ (s : State) (f : Firmware), s.up = true → s.trust.bootCode = 1 → s.trust.fw = some f → s.board.gddrOn = true →
    s.trust.mr.length = 8 →
    ∃ t : State, exec .firmwareBoot s = .next t ∧ t.trust.bootCode = 0 ∧ t.glob.ready = true ∧
      t.board = { s.board with vidDriven := true } ∧ s.ringsKept t ∧ t.fields = s.fields ∧
      t.trust.stakes = s.trust.stakes ∧ t.tbk = s.tbk ∧
      t.trust.mr.getD 1 [] = sha384 (s.trust.mr.getD 1 (zeros 48) ++ sha384 ([0x10, 0, 0, 0] ++ s.bootRecord f.slot)) ∧
      t.trust.mr.getD 2 [] = sha384 (s.trust.mr.getD 2 (zeros 48) ++ sha384 ([0x20, 0, 0, 0] ++ s.trust.usedCopies)) ∧
      (∀ p, p < 4 → s.glob.straps.hxlEn = true → (t.port p).state = .detect) ∧
      (s.glob.straps.hxlEn = false → t.ports = s.ports))

/-- Table 2.6 steps 2 to 8 and R113: a packet passes exactly when its tag is allowed and free on its ring, its opcode
belongs to its ring, a search names one of the three classes, its block keeps the block column of Table 3.1 and is
read, and its index exists (or, for INDEX_CREATE, does not). R113, R573: a packet that fails a check of Table 2.6, or
that a follower turns away, completes with that status and `info` 0 and has no other effect, whatever its opcode. R84, R85: the
block of a packet that gets that far is read once, from the address that the packet names, and of no packet refused before step 7. R99,
R101, R665, R707: a packet waits, with no effect at all, while an earlier packet of its ring is not admitted that
carries another opcode, while a fence holds it, or while the Steward does not serve. -/
def Obligations.PacketOutcome : Prop :=
  (∀ (s : State) (c : Cmd) (o : OpSpec) (dma : Dma),
    s.packetFault c o dma = none ↔
      c.tag ≠ 0xFFFF ∧ (∀ d ∈ s.earlier c, d.tag ≠ c.tag) ∧
      (if c.ring = adminRing then o.admin = true else o.field = true) ∧
      (o.code = 0x20 ∨ o.code = 0x21 ∨ o.code = 0x22 → c.cls ≠ 3) ∧
      (c.pbValid = true → o.need ≠ .none ∧ c.pbLen ≠ 0 ∧ c.pbAddr % 64 = 0 ∧ dma.block ≠ none) ∧
      (c.pbValid = false → o.need ≠ .required) ∧
      (o.namesIndex = true →
        if o.code = 0x08 then s.index? (ringFn c.ring) c.idx = none else s.index? (ringFn c.ring) c.idx ≠ none)) ∧
  (∀ (s : State) (ring : Nat) (dma : Dma) (b0 b1 : Bool) (status : Nat) (failing : List (Nat × Nat)) (c : Cmd)
    (code : Nat) (i : Instr) (o : OpSpec),
    (code, i) ∈ packetRows ring dma b0 b1 status failing → ring ≤ adminRing → s.nextReading code ring = none →
    s.nextPacket ring = some c → c.opcode = code → s.unfenced c = true → s.serving = true → opSpec code = some o →
    (∀ st, s.packetFault c o dma = some st → exec i s = .next ((s.readBlock c (some st)).finish c st 0 0 0 dma.recordOk)) ∧
    (s.packetFault c o dma = none → s.followerForbids code = true →
      exec i s = .next ((s.readBlock c none).finish c 0x0008 0 0 0 dma.recordOk))) ∧
  (∀ (s : State) (c : Cmd) (st : Option Nat),
    (c.pbValid = true → st = none ∨ st = some 0x0011 ∨ st = some 0x0004 ∨ st = some 0x000A → s.readBlock c st =
      { s with out := .hostRead (ringFn c.ring) (BitVec.ofNat 64 c.pbAddr) (c.pbLen * 64) :: s.out }) ∧
    (c.pbValid = false ∨ st = some 0x0002 ∨ st = some 0x0003 ∨ st = some 0x0006 ∨ st = some 0x0007 →
      s.readBlock c st = s)) ∧
  (∀ (s : State) (ring : Nat) (dma : Dma) (b0 b1 : Bool) (status : Nat) (failing : List (Nat × Nat)) (code : Nat)
    (i : Instr), (code, i) ∈ packetRows ring dma b0 b1 status failing → ring ≤ adminRing →
    s.nextReading code ring = none → (s.nextPacket ring = none ∨ s.serving = false ∨
      ∃ c, s.nextPacket ring = some c ∧ (c.opcode ≠ code ∨ s.unfenced c = false)) →
    exec i s = .next s)

/-- R12: a packet that carries a reserved opcode completes with ST_BAD_OPCODE and has no other effect. -/
def Obligations.ReservedOpcode : Prop :=
  ∀ (s : State) (ring : Nat) (dma : Dma) (c : Cmd), ring ≤ adminRing → s.nextPacket ring = some c →
    opSpec c.opcode = none → s.unfenced c = true → s.serving = true →
    exec (.reservedOpcode ring dma) s = .next (s.finish c 0x0001 0 0 0 dma.recordOk)

/-- Table 2.4, R89, R91, R100: the end of a command writes one record of 32 bytes into the next completion slot, with
the phase of the pass, frees the tag and moves the slot on; with `irq` set the ring's vector is raised, without it and
without a count limit no vector is. R482: what the command had halted on reading is forgotten. Only counters, the trace and vector registers change besides. R91: where all of
them are written, the reply data of a command reach host memory before its record, in order. R117: a reply that cannot
be written ends its command with ST_DMA_WRITE and `info` 0, with no reply data; the effect of the command stays. -/
def Obligations.CompletionRecords : Prop :=
  (∀ (s : State) (c : Cmd) (status info bound : Nat) (fl : Flags),
    (s.ring c.ring).resetting = false → (s.ring c.ring).cqWritable = true → s.glob.fatal = false →
    let x := s.ring c.ring
    let shown := if 0 < status ∧ status < 0x100 then 0 else fl ||| flIf c.perturbed flPERTURBED
    let record := recordBytes x c.tag status shown c.seq (min (s.tbk - c.tFetch) 0xFFFF_FFFF) bound
      (if status = 0 then info else 0)
    let sent : Out := .hostWrite (ringFn c.ring) (x.cqBase + BitVec.ofNat 64 (32 * x.cqTail.toNat)) record
    record.length = 32 ∧
    ∃ (y : Ring) (out : List Out) (fs : FMap Field) (cs : FMap Nat) (tr : Trace) (fns : FMap FnRegs),
      s.finish c status info bound fl true = { s with
        cmds := s.cmds.filter (fun d => !d.is c.ring c.seq), rings := FMap.set s.rings c.ring y
        streams := s.streams.filter (fun x => x.2.reader != Reader.cmd c.ring c.seq)
        out := out, fields := fs, counters := cs, trace := tr, fns := fns } ∧
      (∀ f, (FMap.get? fs f).map Field.uncounted = (FMap.get? s.fields f).map Field.uncounted) ∧
      y.cqTail = BitVec.ofNat 16 ((x.cqTail.toNat + 1) % x.n) ∧
      y.phase = (if (x.cqTail.toNat + 1) % x.n = 0 then !x.phase else x.phase) ∧
      y.unconsumed = x.unconsumed + 1 ∧ y.tail = x.tail ∧ y.head = x.head ∧ y.sqHead = x.sqHead ∧
      y.seqNext = x.seqNext ∧ y.enable = x.enable ∧ y.error = x.error ∧
      (c.irq = true → y.unsignalled = 0 ∧
        (out = .msix (ringFn c.ring) (ringVector c.ring) :: sent :: s.out ∨
          out = sent :: s.out ∧ ∃ fr, fns = FMap.set s.fns (ringFn c.ring) fr ∧
            fr.pba.getLsbD (ringVector c.ring) = true)) ∧
      (c.irq = false → x.irqCount = 0 → out = sent :: s.out ∧ fns = s.fns ∧ y.unsignalled = x.unsignalled + 1)) ∧
  (∀ (s t : State) (c : Cmd) (dma : Dma) (info : Nat) (replies : List (Nat × Bytes)),
    dma.replyOk = true → dma.recordOk = true → t.glob.fatal = false → (t.ring c.ring).resetting = false →
    (t.ring c.ring).cqWritable = true → (∀ w ∈ replies, w.2 ≠ []) →
    ∃ (u : State) (record : Bytes), ended s t c dma info replies = .next u ∧ record.length = 32 ∧
      hostWrites u.out = .hostWrite (ringFn c.ring)
          ((t.ring c.ring).cqBase + BitVec.ofNat 64 (32 * (t.ring c.ring).cqTail.toNat)) record ::
        (replies.reverse.map (fun w => .hostWrite (ringFn c.ring) (BitVec.ofNat 64 w.1) w.2)) ++ hostWrites t.out ∧
      u.cmds = t.cmds.filter (fun d => !d.is c.ring c.seq)) ∧
  (∀ (s t : State) (c : Cmd) (dma : Dma) (info : Nat) (replies : List (Nat × Bytes)),
    dma.replyOk = false → replies ≠ [] → t.glob.fatal = false → (t.ring c.ring).resetting = false →
    (t.ring c.ring).cqWritable = true → dma.recordOk = true →
    ∃ u : State, ended s t c dma info replies = .next u ∧
      (∃ lat fl, hostWrites u.out = .hostWrite (ringFn c.ring)
          ((t.ring c.ring).cqBase + BitVec.ofNat 64 (32 * (t.ring c.ring).cqTail.toNat))
          (recordBytes (t.ring c.ring) c.tag 0x0104 fl c.seq lat 0 0) :: hostWrites t.out) ∧
      u.indexes = t.indexes ∧ u.trust = t.trust ∧ u.cmds = t.cmds.filter (fun d => !d.is c.ring c.seq))

/-- Table 3.1: NOP, IDENTIFY, FIELD_QUERY, COUNTERS_READ and LOG_READ change nothing but their reply and record: the
reply goes to the address the packet names, with the bytes of Tables 3.3, 3.4, 12.4 and 12.7 (R127, R670, R675). R625,
R630, R631, R649, Tables 11.8 and 12: MEASURE_READ, ATTEST and STAKE_READ only read: each replies with values taken at
one instant, and nothing but the reply and the record changes. R672: TRACE_CTL starts a cleared buffer with the mode
and sources given, stops it with its contents kept, or reads whole records, oldest first, from a multiple of 32. -/
def Obligations.ReadingCommands : Prop :=
  (∀ (s : State) (ring : Nat) (dma : Dma) (c : Cmd),
    let p := c.pkt
    (s.admits 0x00 ring dma c = true → exec (.nop ring dma) s = ended s s c dma 0 []) ∧
    (s.admits 0x01 ring dma c = true → num p 16 8 % 64 = 0 → 512 ≤ num p 24 4 →
      exec (.identify ring dma) s =
        ended s s c dma (info2 s.fwVersion s.fwSvn) [(num p 16 8, s.identifyReply)]) ∧
    (s.admits 0x03 ring dma c = true → (ring ≠ adminRing → num p 16 1 = ring / 8) → num p 16 1 ≤ 15 →
      num p 24 8 % 64 = 0 → 512 ≤ num p 32 4 →
      exec (.fieldQuery ring dma) s =
        match s.field? (num p 16 1) with
        | some x => if x.present = true then
            ended s s c dma (1 + 256 * (s.indexesOf (num p 16 1)).length) [(num p 24 8, s.fieldReply (num p 16 1) x)]
          else ended s s c dma 0 [(num p 24 8, zeros 512)]
        | none => ended s s c dma 0 [(num p 24 8, zeros 512)]) ∧
    (s.admits 0x60 ring dma c = true → num p 24 8 % 64 = 0 → 8 ≤ num p 32 4 →
      (ring = adminRing ∧ num p 16 1 ≤ 4 ∧ (num p 16 1 = 1 → num p 17 1 ≤ 15) ∨
        ring ≠ adminRing ∧ num p 16 1 = 1 ∧ num p 17 1 = ring / 8) →
      (num p 16 1 = 1 → s.fieldExists (num p 17 1) = true) →
      let g := num p 16 1
      let n := min (groupSize g) ((num p 32 4 - 8) / 8)
      exec (.countersRead ring dma) s = ended s s c dma (info2 n (groupSize g)) [(num p 24 8, leBytes 8 s.tbk ++
        (List.range n).flatMap (fun k => leBytes 8 (s.counterValue g (num p 17 1) k)))]) ∧
    (s.admits 0x61 ring dma c = true → num p 24 8 % 64 = 0 →
      let held := s.log.entries.reverse.filter (fun e =>
        decide (num p 16 8 ≤ e.seq) && (ring == adminRing || e.field == ring / 8))
      let shown := held.take (num p 32 4 / 32)
      exec (.logRead ring dma) s =
        ended s s c dma (info2 shown.length s.log.lost) [(num p 24 8, shown.flatMap LogEntry.bytes)])) ∧
  (∀ (s : State) (ring : Nat) (dma : Dma) (c : Cmd),
    let p := c.pkt
    (s.admits 0x51 ring dma c = true → num p 16 8 % 64 = 0 → 512 ≤ num p 24 4 →
      exec (.measureRead ring dma) s = ended s s c dma 0 [(num p 16 8, (List.range 8).flatMap (fun n =>
        s.trust.mr.getD n (zeros 48) ++ leBytes 4 (s.trust.mrCount.getD n 0) ++ zeros 12))]) ∧
    (s.admits 0x50 ring dma c = true → num p 48 8 % 64 = 0 → 720 ≤ num p 56 4 →
      exec (.attest ring dma) s = ended s s c dma 720 [(num p 48 8,
        let body := s.reportBody (slice p 16 32) (if ring = adminRing then 0xFF else ring / 8)
        body ++ ecdsaSign s.trust.attKey (sha384 body))]) ∧
    (s.admits 0x58 ring dma c = true → num p 16 1 ≤ 4 → num p 24 8 % 64 = 0 →
      64 + 64 * stakeSlots (num p 16 1) ≤ num p 32 4 →
      exec (.stakeRead ring dma) s = ended s s c dma
        (s.trust.current (num p 16 1) % 2 ^ 32 + s.trust.used (num p 16 1) * 2 ^ 32 + stakeSlots (num p 16 1) * 2 ^ 40)
        [(num p 24 8, s.stakeReply (num p 16 1))])) ∧
  (∀ (s : State) (ring : Nat) (dma : Dma) (c : Cmd), s.admits 0x62 ring dma c = true →
    let p := c.pkt
    (num p 16 1 = 1 → num p 17 1 ≤ 1 → exec (.traceCtl ring dma) s =
      ended s { s with trace := ⟨true, num p 17 1 == 1, BitVec.ofNat 16 (num p 18 2) &&& 0x07FF#16, [], 0, 0, 0⟩ }
        c dma 0 []) ∧
    (num p 16 1 = 0 → num p 17 1 ≤ 1 → exec (.traceCtl ring dma) s =
      ended s { s with trace := { s.trace with running := false } } c dma (32 * s.trace.records.length) []) ∧
    (num p 16 1 = 2 → num p 17 1 ≤ 1 → num p 36 4 % 32 = 0 → num p 24 8 % 64 = 0 →
      let shown := (s.trace.records.reverse.drop (num p 36 4 / 32)).take (num p 32 4 / 32)
      exec (.traceCtl ring dma) s = ended s s c dma (32 * shown.length) [(num p 24 8, shown.flatten)]))

/-- R680, R720: TEST_PERTURB and PERT_GO apply an accepted request alike; the window's request also ends with its
status, the count in force and `done` one higher, a refused one with its status and no other effect; one that the Steward does not
take at once leaves only `busy` set until it is taken (log 116). R723, R680, Table
11.6: an accepted set leaves one setting that the request names, with its value; an accepted clear leaves none;
settings that the request does not name stay in their slots; clear-all leaves no setting. Register 7 is extended with
record type 0x71 each time, and only the settings, the measurements, the log and its events change. -/
def Obligations.Perturbation : Prop :=
  ((∀ (s : State) (ring : Nat) (dma : Dma) (c : Cmd), s.admits 0x68 ring dma c = true →
    let q := pertReq (slice c.pkt 16 12) c.idx
    (s.pertFault q = none → exec (.testPerturb ring dma) s =
      ended s (s.pertApply q) c dma (s.pertApply q).pert.slots.length []) ∧
    ∀ st, s.pertFault q = some st → exec (.testPerturb ring dma) s = .next (s.finish c st 0 0 0 dma.recordOk)) ∧
  ∀ (s : State) (v : BitVec 32), s.pertServed = true → v.getLsbD 0 = true →
    let q := s.pert.request
    exec (.pertGo v false) s = .next { s with pert := { s.pert with busy := true } } ∧
    (s.pertFault q = none → exec (.pertGo v true) s = .next { s.pertApply q with pert := { (s.pertApply q).pert with
      busy := false, status := 0, active := (s.pertApply q).pert.slots.length, done := s.pert.done + 1 } }) ∧
    (∀ st, s.pertFault q = some st → exec (.pertGo v true) s = .next { s with pert := { s.pert with
      busy := false, status := BitVec.ofNat 16 st, active := s.pert.slots.length, done := s.pert.done + 1 } }) ∧
    (s.pert.busy = true → s.up = true → s.serving = true → s.takeBusy = s.takePert) ∧
    (s.pert.busy = false → s.takeBusy = s)) ∧
  (∀ (s : State) (q : PertReq), q.target < 2 ^ 32 → s.pertFault q = none →
    let t := s.pertApply q
    (q.action = 0 → ∃ n y, FMap.get? t.pert.slots n = some y ∧ q.names y = true ∧ y.value = BitVec.ofNat 32 q.value) ∧
    (q.action = 1 → ∀ p ∈ t.pert.slots, q.names p.2 = false) ∧
    (q.action ≠ 2 → ∀ n y, FMap.get? s.pert.slots n = some y → (∀ p ∈ s.pert.slots, p.1 = n → q.names p.2 = false) →
      FMap.get? t.pert.slots n = some y) ∧
    (q.action = 2 → t.pert.slots = []) ∧
    (s.trust.mr.length = 8 →
      t.trust.mr.getD 7 [] = sha384 (s.trust.mr.getD 7 (zeros 48) ++ sha384 ([0x71, 0, 0, 0] ++ q.raw))) ∧
    (∀ n, n ≠ 7 → t.trust.mr.getD n [] = s.trust.mr.getD n []) ∧
    s.ringsKept t ∧ t.cmds = s.cmds ∧ t.fields = s.fields ∧ t.indexes = s.indexes ∧ t.trust.stakes = s.trust.stakes ∧
    t.tbk = s.tbk ∧ t.glob = s.glob)

/-- R212, R213, R636, R638, R643, R644: an accepted STAKE_WRITE programs copy 0 and then copy 1 of the slot above the
highest used one and no other copy of any stake; when both verify, both hold the record, the current value is the new
one and `info` is the slot; when one does not, the command ends with ST_HW_FAULT and the slot counts as used, copy 1
being left alone if copy 0 failed. The effective values stay until a reset. -/
def Obligations.StakeWrite : Prop :=
  ∀ (s : State) (ring : Nat) (dma : Dma) (c : Cmd) (v0 v1 : Bool), s.admits 0x59 ring dma c = true →
    let k := num c.pkt 16 1
    let v := num c.pkt 24 8
    let slot := s.trust.used k
    let record := stakeRecord k slot v (num c.pkt 20 4) s.fwSvn
    k ≤ 4 → stakeValueOk k v = true → num c.pkt 17 1 = slot → v ≠ s.trust.current k →
    (k = 1 → s.trust.current 1 ≤ v ∧ v ≤ s.fwSvn) → (k = 3 → s.fieldCount ≤ v) → slot < stakeSlots k →
    ∃ t : State,
      exec (.stakeWrite ring dma v0 v1) s =
        .next (s.settle c dma (if v0 && v1 then yes t slot else failed t 0x0103)) ∧
      (∀ key, key ≠ k * 256 + slot * 2 → key ≠ k * 256 + slot * 2 + 1 →
        FMap.get? t.trust.stakes key = FMap.get? s.trust.stakes key) ∧
      (v0 = true → t.trust.copy k slot 0 = record) ∧
      (v0 = true → v1 = true → t.trust.copy k slot 1 = record ∧ t.trust.current k = v) ∧
      (v0 = false → t.trust.copy k slot 1 = s.trust.copy k slot 1) ∧
      t.trust.used k = slot + 1 ∧ t.trust.effective = s.trust.effective ∧ t.trust.flash = s.trust.flash ∧
      s.ringsKept t ∧ t.cmds = s.cmds ∧ t.indexes = s.indexes ∧ t.tbk = s.tbk

/-- R219, R609, R614: FIRMWARE_STAGE lays its block over the slot from the offset, but for the activation sector,
which it leaves alone; with erase the whole slot reads 0xFF elsewhere; every other byte of the flash stays. With the
final bit the slot's sector then says STAGED and register 6 is extended, or INVALID and the command ends with
ST_IMAGE_INVALID. R765, R772: what is erased, programmed and read back goes to the flash as commands of its port. R222, R614, R615: FIRMWARE_ACTIVATE of a STAGED or ACTIVE slot whose security version is not below
the floor writes the slot's sector ACTIVE with an `act_seq` one above the larger of the two, extends register 6 and
changes no image byte of either slot. -/
def Obligations.FirmwareSlots : Prop :=
  (∀ (s : State) (ring : Nat) (dma : Dma) (c : Cmd) (flashOk : Bool), s.admits 0x70 ring dma c = true →
    let p := c.pkt
    let slot := num p 16 1
    let off := num p 20 4
    let b := (ctxOf c dma).block
    let u := s.readBlock c none
    let t := u.stageBlock slot off b (flag p 17 0)
    let staged := FMap.getD t.trust.staged slot 0
    let digest := sha384 (t.trust.image slot)
    let checked := t.flashReadBack (slotBase slot) (t.trust.image slot).length
    slot ≤ 1 → off % 4096 = 0 → off + b.length ≤ 0x100_0000 → (∀ f, s.trust.fw = some f → f.slot ≠ slot) →
    (flag p 17 1 = false → exec (.firmwareStage ring dma flashOk) s = ended u t c dma staged []) ∧
    (flag p 17 1 = true → flashOk = true → imageFault (t.trust.image slot) (t.trust.current 1) = 0 →
      exec (.firmwareStage ring dma flashOk) s = ended u
        ((checked.rewriteSector slot ⟨1, 0, digest⟩).extend 6
          (eventRecord 0x60 ([BitVec.ofNat 8 slot] ++ digest))) c dma staged []) ∧
    (flag p 17 1 = true → flashOk = false ∨ imageFault (t.trust.image slot) (t.trust.current 1) ≠ 0 →
      exec (.firmwareStage ring dma flashOk) s =
        .next (u.settle c dma (failed (checked.rewriteSector slot ⟨0, 0, digest⟩) 0x0010))) ∧
    t = { s with trust := t.trust, out := t.out } ∧ t.trust = s.trust.stage slot off b (flag p 17 0) ∧
    (∀ x : Sector, checked.rewriteSector slot x = { checked with
      trust := t.trust.writeSector slot x
      out := .qspi 0x12 (slotBase slot + 0x0FF_F000) 68 :: .qspi 0x21 (slotBase slot + 0x0FF_F000) 4096 :: checked.out }) ∧
    ∀ a, Mem.read 0xFF t.trust.flash a =
      if slot * 0x100_0000 + off ≤ a ∧ a < slot * 0x100_0000 + off + b.length ∧ a < slot * 0x100_0000 + 0x0FF_F000 then
        b.getD (a - (slot * 0x100_0000 + off)) 0
      else if flag p 17 0 = true ∧ slot * 0x100_0000 ≤ a ∧ a < (slot + 1) * 0x100_0000 then 0xFF
      else Mem.read 0xFF s.trust.flash a) ∧
  (∀ (s : State) (ring : Nat) (dma : Dma) (c : Cmd), s.admits 0x71 ring dma c = true →
    let slot := num c.pkt 16 1
    let n := 1 + max (s.trust.sector 0).actSeq (s.trust.sector 1).actSeq
    slot ≤ 1 → (s.trust.sector slot).state = 1 ∨ (s.trust.sector slot).state = 2 →
    s.trust.current 1 ≤ num (s.trust.flashRead (slot * 0x100_0000) 512) 16 4 →
    ∃ t : State, exec (.firmwareActivate ring dma) s = ended s t c dma 0 [] ∧
      (∀ a, a < slot * 0x100_0000 + 0x0FF_F000 ∨ slot * 0x100_0000 + 0x100_0000 ≤ a →
        Mem.read 0xFF t.trust.flash a = Mem.read 0xFF s.trust.flash a) ∧
      (n < 2 ^ 64 → (t.trust.sector slot).state = 2 ∧ (t.trust.sector slot).actSeq = n ∧
        (t.trust.sector slot).digest = (s.trust.sector slot).digest) ∧
      (s.trust.mr.length = 8 → t.trust.mr.getD 6 [] =
        sha384 (s.trust.mr.getD 6 (zeros 48) ++ sha384 ([0x61, 0, 0, 0] ++ [BitVec.ofNat 8 slot] ++ leBytes 8 n))) ∧
      t.trust.stakes = s.trust.stakes ∧ s.ringsKept t ∧ t.cmds = s.cmds ∧ t.fields = s.fields ∧ t.tbk = s.tbk)

/-- R133, R134, R144, R459, R118: an accepted APPLY changes the configuration that takes force at the next planner
epoch, as `info` says; a RESET resets the field at once; a REMOVE marks the field. All three are measured. R134, R135,
R459: what an accepted block leaves: an existing field keeps the configuration in force and takes the items that
`valid_mask` names into the one that follows it; a new field waits, not present, with the items over the defaults, and
was only created with a rate and a frame quota and within FIELD_LIMIT. Other fields keep both configurations; indexes,
rings and commands stay. That a RESET acts at once and a REMOVE at the next planner epoch is the model's choice (log 108). R118, R119: a field reset ends every command of the field, empties its rings as R77 does, and
discards the uncommitted mutations and the holds of its indexes, which keep their epoch and their lists; commands,
rings and indexes of other fields stay. -/
def Obligations.FieldConfiguration : Prop :=
  (∀ (s : State) (ring : Nat) (dma : Dma) (c : Cmd) (ms : Nat), s.admits 0x02 ring dma c = true →
    (s.leads = true → ms = 0) →
    let p := c.pkt
    let f := num p 16 1
    let b := (ctxOf c dma).block
    (∀ t : State, f ≤ 15 → num p 17 1 = 0 → c.pbValid = true → c.pbLen = 4 → s.applyPermitted f b = true →
      (s.readBlock c none).applyBlock f b = .inr t →
      exec (.fieldConfigure ring dma ms) s = ended (s.readBlock c none) (t.configured f 0 b) c dma (s.epoch + 1) []) ∧
    (∀ x, f ≤ 15 → c.pbValid = false → s.field? f = some x → x.present = true → x.removing = false →
      (num p 17 1 = 1 → exec (.fieldConfigure ring dma ms) s =
        ended s (((s.fieldReset f).releasePages f).configured f 1 []) c dma s.epoch []) ∧
      (num p 17 1 = 2 → f ≠ 0 → s.removable f = true → exec (.fieldConfigure ring dma ms) s =
        ended s ((s.setField f { x with removing := true }).configured f 2 []) c dma (s.epoch + 1) []))) ∧
  ((∀ (s t : State) (f : Nat) (b : Bytes), s.applyBlock f b = .inr t →
    (∀ x, s.field? f = some x → ∃ y, t.field? f = some y ∧ y.cfg = x.cfg ∧ y.tgt = x.tgt.apply b ∧
      y.present = x.present ∧ y.removing = x.removing) ∧
    (s.field? f = none → ∃ y, t.field? f = some y ∧ y.present = false ∧ y.tgt = FieldCfg.reset.apply b ∧
      maskBit b 6 = true ∧ maskBit b 12 = true ∧ s.lasting.length < s.trust.current 3) ∧
    (∀ g x, g ≠ f → s.field? g = some x → ∃ y, t.field? g = some y ∧ y.cfg = x.cfg ∧ y.tgt = x.tgt) ∧
    t.indexes = s.indexes ∧ s.ringsKept t ∧ t.cmds = s.cmds ∧ t.trust = s.trust) ∧
  ∀ (x : FieldCfg) (b : Bytes),
    (maskBit b 0 = false → (x.apply b).certified = x.certified) ∧ (maskBit b 1 = false → (x.apply b).mapHash = x.mapHash) ∧
    (maskBit b 3 = false → (x.apply b).sowingUs = x.sowingUs) ∧ (maskBit b 3 = true → (x.apply b).sowingUs = num b 16 2) ∧
    (maskBit b 6 = false → (x.apply b).regRate = x.regRate) ∧ (maskBit b 6 = true → (x.apply b).regRate = num b 20 4) ∧
    (maskBit b 10 = false → (x.apply b).perturb = x.perturb) ∧ (maskBit b 12 = true → (x.apply b).gddrPages = num b 44 4)) ∧
  (∀ (s : State) (f : Nat), f < 16 →
    let t := s.fieldReset f
    (∀ c ∈ t.cmds, c.ring = adminRing ∨ ringFn c.ring ≠ f) ∧
    (∀ c ∈ s.cmds, c.ring = adminRing ∨ ringFn c.ring ≠ f → c ∈ t.cmds) ∧
    (∀ r, r < 8 → (t.ring (f * 8 + r)).enable = false ∧ (t.ring (f * 8 + r)).tail = 0 ∧
      (t.ring (f * 8 + r)).sqHead = 0 ∧ (t.ring (f * 8 + r)).error = false) ∧
    (∀ i x, i < 64 → s.index? f i = some x → ∃ y, t.index? f i = some y ∧
      y.pending = [] ∧ y.holds = [] ∧ y.epoch = x.epoch ∧ y.lists = x.lists ∧ y.active = x.active ∧ y.p = x.p) ∧
    (∀ g i x, g ≠ f → i < 64 → s.index? g i = some x → ∃ y, t.index? g i = some y ∧ y.pending = x.pending ∧
      y.holds = x.holds ∧ y.epoch = x.epoch ∧ y.lists = x.lists) ∧
    t.trust = s.trust ∧ t.tbk = s.tbk)

/-- R201, Table 3.7: UNIT_STATUS replies with one byte for each unit, its state at its offset, and 5 at every offset
that has no unit, and changes nothing. R201 to R204, R650, R652: an accepted UNIT_FALLOW starts the drain: the unit
reads 1 and takes work until the next planner epoch, and the command stays outstanding; without `force` nothing else
of the device's work changes; with `force`, on a unit whose work belongs to commands, each of those commands has
ended. R205, R541, R650, R651: from the planner epoch after the fallow on, a drain whose last work has gone leaves the
unit fallow, and the UNIT_FALLOW that waits completes with the counts of frames moved and commands ended; a Granary
slice then holds no line. -/
def Obligations.UnitsFallow : Prop :=
  (∀ (s : State) (ring : Nat) (dma : Dma) (c : Cmd), s.admits 0x42 ring dma c = true →
    num c.pkt 24 8 % 64 = 0 → 512 ≤ num c.pkt 32 4 →
    ∃ b : Bytes, exec (.unitStatus ring dma) s = ended s s c dma 0 [(num c.pkt 24 8, b)] ∧ b.length = 512 ∧
      (∀ ty n, n < unitCount ty → b.getD (unitOffset ty + n) 0 = BitVec.ofNat 8 (s.unitState ty n)) ∧
      ∀ o, o < 512 → (∀ ty n, n < unitCount ty → o ≠ unitOffset ty + n) → b.getD o 0 = 5#8) ∧
  (∀ (s : State) (ring : Nat) (dma : Dma) (c : Cmd), s.admits 0x40 ring dma c = true →
    let ty := num c.pkt 16 1
    let n := num c.pkt 18 2
    n < unitCount ty → (ty = 12 → s.leads = true) → s.unitState ty n = 0 →
    (ty = 10 → s.fields.any (fun f => f.2.cfg.mapHash || f.2.tgt.mapHash) = false) → s.fallowRoom ty n = true →
    (flag c.pkt 17 0 = false → ∃ t : State, exec (.unitFallow ring dma) s = outstanding s t c dma (.fallow (unitKey ty n) 0 0) ∧
      t.unitState ty n = 1 ∧ (t.unit ty n).leaving = true ∧ (t.unit ty n).force = false ∧
      t.cmds = s.cmds ∧ t.queries = s.queries ∧ t.runs = s.runs ∧ t.fields = s.fields ∧ t.indexes = s.indexes ∧
      s.ringsKept t ∧ t.ports = s.ports ∧ t.granary = s.granary ∧ t.tbk = s.tbk) ∧
    (flag c.pkt 17 0 = true → ty ≠ 7 → ty ≠ 9 → ty ≠ 10 → ∃ t : State,
      exec (.unitFallow ring dma) s = outstanding s t c dma (.fallow (unitKey ty n) 0 (s.usersOf ty n).length) ∧
      ∀ d ∈ s.usersOf ty n, ∀ e ∈ t.cmds, ¬ (e.ring = d.ring ∧ e.seq = d.seq)) ∧
    (flag c.pkt 17 0 = true → ty = 7 ∨ ty = 9 ∨ ty = 10 → ∃ t : State,
      exec (.unitFallow ring dma) s = outstanding s t c dma (.fallow (unitKey ty n) 0 0) ∧ t.unitState ty n = 1 ∧
      t.cmds = s.cmds ∧ (ty = 7 → FMap.get? t.evaporators n = none ∨ FMap.get? s.evaporators n = none))) ∧
  (∀ (s : State) (ty n : Nat) (ok : Bool) (c : Cmd) (m a : Nat), n < unitCount ty → ty ≠ 11 → ty ≠ 12 →
    s.completing = true → s.unitState ty n = 1 → (s.unit ty n).leaving = false → (s.unit ty n).force = false →
    s.drained ty n = true → s.drainedC ty n = true → s.fallowCmd ty n = some (c, m, a) →
    ∃ t : State, exec (.fallowDrainEnd ty n ok) s = .next (t.finish c 0 (info2 a m) 0 c.flags ok) ∧
      t.unitState ty n = 2 ∧ (t.finish c 0 (info2 a m) 0 c.flags ok).unitState ty n = 2 ∧ t.cmds = s.cmds ∧
      (ty = 9 → ∀ l ∈ t.granary, l.slice ≠ n) ∧ (ty ≠ 9 → t.granary = s.granary) ∧ t.indexes = s.indexes ∧ t.tbk = s.tbk)

/-- R202, R655, R206: UNIT_TILL of a fallow or failed unit starts its self-test, state 3, and stays outstanding. The
test of a unit that passes ends the command with success and lets the unit enter service at the next planner epoch;
one that fails ends it with ST_HW_FAULT and leaves the unit failed. R217, R218, R658, R659: SELF_TEST tests the fallow
and failed units of its scope: a unit that passes reads what it read before and one that fails reads 4; the reply has
0 for a pass, 1 for a failure and 2 for a unit not tested. For the Gleaner the command waits; its test, once due, only
reports. -/
def Obligations.UnitTests : Prop :=
  ((∀ (s : State) (ring : Nat) (dma : Dma) (c : Cmd), s.admits 0x41 ring dma c = true →
    let ty := num c.pkt 16 1
    let n := num c.pkt 18 2
    n < unitCount ty → (ty = 12 → s.leads = true) → s.unitState ty n = 2 ∨ s.unitState ty n = 4 →
    ∃ t : State, exec (.unitTill ring dma) s = outstanding s t c dma (.till (unitKey ty n)) ∧
      t.unitState ty n = 3 ∧ (t.unit ty n).before = s.unitState ty n ∧ (t.unit ty n).entering = false ∧
      t.cmds = s.cmds ∧ t.fields = s.fields ∧ t.indexes = s.indexes ∧ s.ringsKept t) ∧
  ∀ (s : State) (ty n : Nat) (pass ok : Bool) (c : Cmd), n < unitCount ty → s.completing = true →
    s.unitState ty n = 3 → s.tillCmd ty n = some c →
    ∃ t : State, exec (.unitSelfTestEnd ty n pass ok) s =
        .next (t.finish c (if pass then 0 else 0x0103) 0 0 c.flags ok) ∧
      (pass = true → (t.unit ty n).entering = true ∧ t.unitState ty n = 3) ∧ (pass = false → t.unitState ty n = 4) ∧
      t.cmds = s.cmds ∧ t.fields = s.fields ∧ s.ringsKept t ∧ (ty ≠ 12 → t.indexes = s.indexes)) ∧
  ((∀ (s : State) (ring : Nat) (dma : Dma) (failing : List (Nat × Nat)) (c : Cmd), s.admits 0x69 ring dma c = true →
    let scope := num c.pkt 16 1
    let ty := num c.pkt 17 1
    let n := num c.pkt 18 2
    scope ≤ 1 → (scope = 1 → n < unitCount ty) → num c.pkt 24 8 % 64 = 0 → 512 ≤ num c.pkt 32 4 →
    (scope = 1 → ty = 8 → exec (.selfTest ring dma failing) s = outstanding s s c dma (.gleanerTest (s.epoch + 1))) ∧
    (scope = 0 ∨ ty ≠ 8 → ∃ (t : State) (passed failed : Nat) (b : Bytes),
      exec (.selfTest ring dma failing) s = ended s t c dma (info2 passed failed) [(num c.pkt 24 8, b)] ∧
      ∀ ty' n', n' < unitCount ty' →
        let tested := (scope = 0 ∨ ty' = ty ∧ n' = n) ∧ s.testable ty' n' = true
        t.unitState ty' n' = (if tested ∧ (ty', n') ∈ failing then 4 else s.unitState ty' n') ∧
        b.getD (unitOffset ty' + n') 2 = (if tested then (if (ty', n') ∈ failing then 1#8 else 0#8) else 2#8))) ∧
  ∀ (s : State) (pass ok : Bool) (c : Cmd), s.completing = true → s.gleanerDue = some c →
    ∃ t : State, exec (.gleanerTestStart pass true ok) s =
        .next (t.finish c 0 (if pass then info2 1 0 else info2 0 1) 0 c.flags ok) ∧
      t.units = s.units ∧ t.cmds = s.cmds ∧ t.queries = s.queries ∧ t.fields = s.fields ∧
      (s.glob.fatal = false → ∃ b : Bytes, b.length = 512 ∧ b.getD 154 2 = (if pass then 0#8 else 1#8) ∧
        .hostWrite (ringFn c.ring) (BitVec.ofNat 64 (num c.pkt 24 8)) b ∈ t.out))

/-- R459, R640, R655: at the planner epoch TBK stands at the next multiple of 10 µs, every accepted configuration is
in force, a field marked for removal is gone, a tilled unit that passed reads 0, and the controls that a stake write
ended are gone. R539, R540: while a pair of a page's half drains, FRAME_MOVE gives the page a free frame of the other
half and counts it for the UNIT_FALLOW that waits; the other pages keep their frames. R491, R492: REFRESH and
TRAINING_UPKEEP queue level 1 work on their channel; a temperature reading, every 32 ms, marks the channels whose
hottest device is above 85 °C. Nothing else of a channel changes. R495, R498, R499: a patrol scrub of a chunk of an
inline-ECC frame changes nothing when the chunk is clean; an uncorrectable chunk is marked as such, logged and
counted, and so, without a mark, is a corrected one. -/
def Obligations.EpochAndUpkeep : Prop :=
  (∀ s : State, s.completing = true → ∃ t : State, exec .plannerEpoch s = .next t ∧
    t.tbk = (s.tbk / 10000 + 1) * 10000 ∧
    (∀ f x, s.field? f = some x → x.removing = true → t.field? f = none) ∧
    (∀ f x, s.field? f = some x → x.removing = false → ∃ y, t.field? f = some y ∧
      y.cfg = x.tgt ∧ y.tgt = x.tgt ∧ y.present = true) ∧
    (∀ ty n, ty ≠ 12 → n < unitCount ty → (s.unit ty n).entering = true → t.unitState ty n = 0 ∧ (t.unit ty n).entering = false) ∧
    (s.pert.clearDue = true → s.pert.busy = false → t.pert.slots = []) ∧ t.cmds = s.cmds ∧
    t.trust.stakes = s.trust.stakes) ∧
  (∀ (s : State) (field page : Nat) (x : Field) (p : Page) (h frame : Nat) (l : Loc), s.completing = true →
    s.field? field = some x → x.pages.find? (fun q => q.num == page) = some p → p.loc = .near h frame →
    (∃ k, k < 4 ∧ s.unitState 10 (4 * h + k) = 1) → s.freeNear (1 - h) = some l →
    ∃ t : State, exec (.frameMove field page) s = .next t ∧
      (∃ y, t.field? field = some y ∧ y.pages = x.pages.map (fun q => if q.num = page then { p with loc := l } else q)) ∧
      t.cmds = s.cmds.map (Cmd.frameMoved h) ∧ t.indexes = s.indexes ∧ s.ringsKept t ∧ t.tbk = s.tbk) ∧
  ((∀ (s : State) (ch : Nat), ch < 16 → s.memoryOn = true →
    exec (.refresh ch) s = .next (s.setChannel ch { s.channel ch with upkeep := (s.channel ch).upkeep ++ [.refresh] }) ∧
    exec (.trainingUpkeep ch) s =
      .next (s.setChannel ch { s.channel ch with upkeep := (s.channel ch).upkeep ++ [.training] })) ∧
  ∀ (s : State) (temps : List Int), s.memoryOn = true →
    ∃ cs : FMap Channel, exec (.gddrTemperatureRead temps) s =
        .next { s with tbk := (s.tbk / 32000000 + 1) * 32000000, channels := cs } ∧
      ∀ ch, (FMap.getD cs ch Channel.reset) =
        if ch < 16 then { s.channel ch with hot := decide (85 < temps.getD ch 0) } else s.channel ch) ∧
  (∀ (s : State) (field page chunk : Nat) (x : Field) (p : Page) (ch line : Nat), s.memoryOn = true →
    s.field? field = some x → x.cfg.ecc = true → chunk < pageSize / 64 →
    x.pages.find? (fun q => q.num == page && q.inGddr) = some p → p.placeOf (64 * chunk) = some (ch, line) →
    s.channelServes ch = true →
    exec (.patrolScrub field page chunk .clean) s = .next s ∧
    (∃ t : State, exec (.patrolScrub field page chunk .uncorrectable) s = .next t ∧ (field, page, chunk) ∈ t.badChunks ∧
      (∃ e rest, t.log.entries = e :: rest ∧ e.code = 0x0011 ∧ e.field = field) ∧
      (∀ b ∈ s.badChunks, b ∈ t.badChunks) ∧ t.cmds = s.cmds ∧ t.granary = s.granary ∧ t.channels = s.channels) ∧
    ((field, page, chunk) ∉ s.badChunks → ∃ t : State, exec (.patrolScrub field page chunk .corrected) s = .next t ∧
      t.badChunks = s.badChunks ∧ (∃ e rest, t.log.entries = e :: rest ∧ e.code = 0x0010 ∧ e.field = field) ∧
      t.cmds = s.cmds ∧ t.granary = s.granary ∧ t.channels = s.channels))

/-- R661, R662, R664: an error in a unit that has not failed ends every command with work on it and leaves it failed;
in the last engine of its type in service it is device-fatal with cause 2; in a failed unit it is only logged. R661,
R663: a page with an uncorrectable dirty line is marked damaged, the other pages and every command stay, and the loss
is logged and counted. R665: a device-fatal error latches `fatal` and its cause, reports through AER, pulls ALERT_N
low and sets event bit 8; no command ends and no field, index or stake changes. Once fatal, further causes have no
effect, and no packet is fetched or admitted. R664, R706, R761, R762: a Steward error starts a warm restart, and the
second within one second of a restart by error is device-fatal with cause 3. The restart's end completes every stopped
command, extends register 1, sets event bit 7 and lets the Steward serve again; the packets not admitted before it
stay. -/
def Obligations.DeviceErrors : Prop :=
  (∀ (s : State) (ty n : Nat) (a : BitVec 64), n < unitCount ty → ty ≠ 12 → s.completing = true →
    (s.unitState ty n ≠ 4 → s.lastEngine ty n = false → ty ≠ 11 → ∃ t : State, exec (.unitError ty n a) s = .next t ∧
      t.unitState ty n = 4 ∧ (∀ d ∈ s.usersOf ty n, ∀ e ∈ t.cmds, ¬ (e.ring = d.ring ∧ e.seq = d.seq)) ∧
      t.trust = s.trust ∧ t.tbk = s.tbk ∧ t.glob = s.glob) ∧
    (s.unitState ty n ≠ 4 → s.lastEngine ty n = false → ty = 11 → ∃ t : State, exec (.unitError ty n a) s = .next t ∧
      (t.port n).state = .off ∧ t.tbk = s.tbk ∧ t.glob = s.glob) ∧
    (s.unitState ty n ≠ 4 → s.lastEngine ty n = true → ∃ t : State, exec (.unitError ty n a) s = .next t ∧
      t.glob.fatal = true ∧ t.glob.fatalCause = 2 ∧ t.cmds = s.cmds) ∧
    (s.unitState ty n = 4 → exec (.unitError ty n a) s =
      .next ((s.logEvent 0x0012 0xFF 3 (unitKey ty n) (leBytes 8 a.toNat)).count 0 5 1))) ∧
  (∀ (s : State) (field page : Nat) (x : Field) (p : Page), s.up = true → s.field? field = some x →
    x.pages.find? (fun q => q.num == page) = some p →
    ∃ t : State, exec (.pageDamaged field page) s = .next t ∧
      t.field? field = some { x with pages := x.pages.map (fun q => if q.num = page then { q with damaged := true } else q) } ∧
      (∀ g, g ≠ field → t.field? g = s.field? g) ∧ (∃ e rest, t.log.entries = e :: rest ∧ e.code = 0x0013 ∧ e.field = field) ∧
      t.cmds = s.cmds ∧ t.indexes = s.indexes ∧ t.granary = s.granary ∧ t.tbk = s.tbk) ∧
  ((∀ (s : State) (cause : Nat), s.up = true → cause ≤ 3 →
    (s.glob.fatal = false → ∃ t : State, exec (.deviceFatal cause) s = .next t ∧
      t.glob = { s.glob with fatal := true, fatalCause := cause } ∧ .aer ∈ t.out ∧ t.board = { s.board with alertN := false } ∧
      (t.fn 0).cause.getLsbD 8 = true ∧ t.cmds = s.cmds ∧ t.fields = s.fields ∧ t.indexes = s.indexes ∧
      t.trust = s.trust ∧ t.tbk = s.tbk) ∧
    (s.glob.fatal = true → exec (.deviceFatal cause) s = .next s)) ∧
  ∀ (s : State) (ring : Nat) (dma : Dma) (data : Option Bytes), s.glob.fatal = true →
    exec (.packetFetch data) s = .next s ∧ (ring ≤ adminRing → exec (.nop ring dma) s = .next s)) ∧
  ((∀ s : State, s.up = true → s.trust.bootCode = 0 → s.glob.fatal = false →
    ((∀ u, s.glob.lastRestart = some u → u + 1000000000 < s.tbk) → ∃ t : State, exec .stewardRestart s = .next t ∧
      t.glob.restarting = true ∧ t.glob.lastRestart = some s.tbk ∧ t.glob.restarts = s.glob.restarts + 1 ∧
      t.cmds = s.cmds.map (fun c => if c.work = .fetched then c else { c with stopped := some 0x0103#16 }) ∧
      s.ringsKept t ∧ t.fields = s.fields ∧ t.indexes = s.indexes) ∧
    (∀ u, s.glob.lastRestart = some u → s.tbk ≤ u + 1000000000 → ∃ t : State, exec .stewardRestart s = .next t ∧
      t.glob.fatal = true ∧ t.glob.fatalCause = 3 ∧ t.cmds = s.cmds ∧ s.ringsKept t)) ∧
  ∀ s : State, s.up = true → s.glob.fatal = false → s.glob.restarting = true → s.trust.mr.length = 8 →
    ∃ t : State, exec .stewardRestartEnd s = .next t ∧ t.glob.restarting = false ∧
      (∀ c ∈ t.cmds, c.stopped = none) ∧
      (∀ c ∈ s.cmds, (∀ d ∈ s.cmds, d.stopped ≠ none → ¬ (d.ring = c.ring ∧ d.seq = c.seq)) → c ∈ t.cmds) ∧
      (t.fn 0).cause.getLsbD 7 = true ∧ t.trust.mr.getD 1 [] =
        sha384 (s.trust.mr.getD 1 (zeros 48) ++ sha384 ([0x11, 0, 0, 0] ++ leBytes 4 s.glob.restarts)) ∧
      t.trust.stakes = s.trust.stakes ∧ t.tbk = s.tbk)

/-- R453 to R457, R493, R511 to R514, R517: a grant serves level 1 work first, without touching a request, but one
operation at most before a level 2 request that waits. Otherwise
the request that the levels pick moves: a write leaves the queue, its bytes are counted, and its field pays for it in
tokens unless it went at level 4. After a fifth EDC failure it stays where it is. -/
def Obligations.ChannelGrant : Prop :=
  ∀ (s : State) (ch edc : Nat) (es : List Ecc), ch < 16 → s.channelServes ch = true →
    (s.upkeepFirst ch = true → exec (.channelGrant ch edc es) s =
      .next (s.setChannel ch { s.channel ch with
        upkeep := (s.channel ch).upkeep.tail, upkept := !(s.lane ch).isEmpty })) ∧
    (s.upkeepFirst ch = true ↔ (s.channel ch).upkeep ≠ [] ∧
      ((s.channel ch).upkept = false ∨ ∀ r ∈ (s.channel ch).queue, r.priority = false)) ∧
    (∀ level q, s.upkeepFirst ch = false → s.nextGrant ch = some (level, q) →
      (edc < 5 → ∃ t : State, exec (.channelGrant ch edc es) s = .next t ∧
        (q.write = true → t.channel ch = { s.channel ch with
            queue := dropFirst (fun r => r == q) (s.channel ch).queue, upkept := false } ∧
          t.granary = s.granary ∧
          ∀ x, s.field? q.field = some x → ∃ y, t.field? q.field = some y ∧ y.tokens =
            if level = 4 then x.tokens else (x.refill s.tbk).tokens - 1000 * s.priceOf ch q) ∧
        t.cmds = s.cmds ∧ t.indexes = s.indexes ∧ s.ringsKept t ∧ t.trust = s.trust ∧ t.tbk = s.tbk) ∧
      (5 ≤ edc → exec (.channelGrant ch edc es) s = .next (s.count 2 (32 + ch) 4))) ∧
    (∀ level q, s.nextGrant ch = some (level, q) → q ∈ (s.channel ch).queue ∧
      (level = 2 → q.narrow = true ∧ q.write = false ∧ q.cls = 0) ∧
      (level = 3 → 1000 * s.priceOf ch q ≤ s.tokensFor q ∧ (q.cls = 0 ∨ s.classCWaits q.field = false) ∧ ∀ r ∈ (s.channel ch).queue, r.priority = false) ∧
      (level = 4 → (s.cfg q.field).workConserving = true))

/-- R487 to R489, Table 9.2: training fixes one rate that every channel of the strapped kind can run, the highest
such, and the channel capacity of the reference density; each pair with a channel that fails reads 4 and the others
keep their state; GDDR is on. R493: a fifth EDC failure sets the channel retraining, counts it, and ends with
ST_HW_FAULT every class C search with a request that waits on the channel (log 74) and has not ended otherwise; the
channel then grants nothing. R493, R494: the end of a retraining clears it; a passed one is logged and changes nothing else, a
failed one leaves the pair failed, state 4. -/
def Obligations.GddrTrainingAndRetraining : Prop :=
  (∀ (s : State) (probes : List ChannelProbe), s.up = true → s.trust.fw ≠ none → s.trust.bootCode = 1 →
    s.board.gddrOn = false →
    let probe := fun ch : Nat => probes.getD ch ⟨false, false, 0, false, []⟩
    let x := s.glob.straps
    let ref := referenceDensity ((List.range 16).map probe)
    let good := fun ch : Nat => passesStep2 x ref (probe ch)
    ∀ r, r ∈ ratesOf x.gddrType → (∃ ch, ch < 16 ∧ good ch = true) →
      (∀ ch, ch < 16 → good ch = true → r ∈ (probe ch).rates) →
      (∀ r' ∈ ratesOf x.gddrType, (∀ ch, ch < 16 → good ch = true → r' ∈ (probe ch).rates) → r' ≤ r) →
      ∃ t : State, exec (.gddrTraining probes) s = .next t ∧ t.board = { s.board with gddrOn := true } ∧ t.memRate = r ∧
        t.channelMib = channelSize x (ref.getD 0) ∧
        (∀ n, n < 8 → t.unitState 10 n =
          if good (2 * n) = true ∧ good (2 * n + 1) = true then s.unitState 10 n else 4) ∧
        t.trust = s.trust ∧ s.ringsKept t ∧ t.fields = s.fields) ∧
  ((∀ (s : State) (ch : Nat), ch < 16 → s.completing = true → s.channelServes ch = true →
    ∃ t : State, exec (.gddrRetrain ch) s = .next t ∧ (t.channel ch).retraining = true ∧
      (∀ d ∈ s.cmds, d.stopped = none → s.searchesOnChannel ch d = true →
        ∀ e ∈ t.cmds, ¬ (e.ring = d.ring ∧ e.seq = d.seq)) ∧
      (∀ e ∈ s.cmds, (∀ d ∈ s.cmds, d.stopped = none → s.searchesOnChannel ch d = true →
        ¬ (e.ring = d.ring ∧ e.seq = d.seq)) → e ∈ t.cmds) ∧
      t.trust = s.trust ∧ t.tbk = s.tbk) ∧
  ∀ (s : State) (ch edc : Nat) (es : List Ecc), ch < 16 → (s.channel ch).retraining = true →
    exec (.channelGrant ch edc es) s = .next s) ∧
  (∀ (s : State) (ch : Nat), ch < 16 → s.up = true → (s.channel ch).retraining = true →
    (∃ (t : State) (l : EventLog) (cs : FMap Nat) (fns : FMap FnRegs) (out : List Out) (rs : FMap Ring),
      exec (.gddrRetrainEnd ch true) s = .next t ∧ s.ringsKept t ∧
      t = { s.setChannel ch { s.channel ch with retraining := false } with
        log := l, counters := cs, fns := fns, out := out, rings := rs } ∧
      ∃ e rest, l.entries = e :: rest ∧ e.code = 0x0014) ∧
    ∃ t : State, exec (.gddrRetrainEnd ch false) s = .next t ∧ (t.channel ch).retraining = false ∧
      t.unitState 10 (ch / 2) = 4 ∧ t.cmds = s.cmds ∧ t.indexes = s.indexes ∧ t.granary = s.granary ∧ t.tbk = s.tbk)

/-- R130, R147 to R149: an accepted INDEX_CREATE adds one index in state CREATED at epoch 0 with the packet's
parameters and nothing loaded; every other index stays, and outside a cascade nothing else changes. R150: INDEX_DROP
of an index without outstanding commands and holds removes it with its waiting compactions and reports its pages;
every other index stays as it is. R151, R784: a load into an index that is not active stores the given rows or
sub-quantisers from the first one on, keeps the others and reports how many are loaded; it is taken where the index's
pages find room, and completes where they are resident (R476, R494). R152, Table 3.1: INDEX_ACTIVATE of a fully loaded index makes it ACTIVE at epoch 0, where its pages
find room; INDEX_INFO replies with its parameters, state, epoch and counts and changes nothing. -/
def Obligations.IndexLife : Prop :=
  (∀ (s : State) (ring : Nat) (dma : Dma) (c : Cmd), s.admits 0x08 ring dma c = true →
    let p := paramsOf c.pkt
    let f := ringFn c.ring
    p.ok = true → (p.cascMode ≠ 0 → s.cascFormed = true ∧ s.role = 1) → (s.indexesOf f).length < (s.cfg f).maxIndexes →
    s.indexes.length < 64 → sumBy (fun i => i.2.p.maxEntries) s.indexes + p.maxEntries ≤ 17179869184 →
    (p.cascMode = 0 → exec (.indexCreate ring dma) s =
      ended s { s with indexes := FMap.set s.indexes (indexKey f c.idx) (Index.create p [[0]]) } c dma 0 []) ∧
    ∀ place, placementOf p.cascMode p.replicas s.casc.present = some place →
      ∃ t : State, exec (.indexCreate ring dma) s = ended s t c dma 0 [] ∧
        t.indexes = FMap.set s.indexes (indexKey f c.idx) (Index.create p place) ∧ t.fields = s.fields ∧
        s.ringsKept t ∧ t.cmds = s.cmds ∧ t.trust = s.trust ∧ t.tbk = s.tbk) ∧
  (∀ (s : State) (ring : Nat) (dma : Dma) (c : Cmd) (x : Index), s.admits 0x09 ring dma c = true →
    let key := indexKey (ringFn c.ring) c.idx
    FMap.get? s.indexes key = some x → s.indexBusy key = false → x.holds = [] →
    ∃ t : State, exec (.indexDrop ring dma) s =
        ended s t c dma (s.pagesOfIndex (ringFn c.ring) c.idx).length [] ∧
      t.indexes = s.indexes.filter (fun i => i.1 ≠ key) ∧ (∀ w ∈ t.compactQueue, w.key ≠ key) ∧
      (∀ e ∈ t.evaporators, e.2.key ≠ key) ∧ s.ringsKept t ∧ t.cmds = s.cmds ∧ t.trust = s.trust ∧ t.tbk = s.tbk) ∧
  (∀ (s u : State) (ring : Nat) (dma : Dma) (c : Cmd) (x : Index),
    let key := indexKey (ringFn c.ring) c.idx
    let block := (ctxOf c dma).block
    let f := ringFn c.ring
    FMap.get? s.indexes key = some x → x.active = false →
    (s.admits 0x0A ring dma c = true → s.takesNext 0x0A ring c →
      let first := num c.pkt 16 4
      let count := num c.pkt 20 4
      let rows := rowsOf (coarseFmt x.p.coarse) x.p.dim count block
      let y := { x with centroids := storeRows x.centroids first rows }
      count ≠ 0 → first + count ≤ x.p.nlist →
      block.length = roundUp (count * x.p.dim * (coarseFmt x.p.coarse).bytes) 64 →
      (∀ r ∈ rows, ∀ v ∈ r, isSpecial (coarseFmt x.p.coarse) v = false) →
      ((s.readBlock c none).setIndex key y).syncPages f = some u →
      u.atHand f true (rowSpans c.idx x.p (s.cfg f).mapHash first count) →
      ∃ t : State, completed (exec (.indexLoadCentroids ring dma) s) c y.centroids.length 0 dma.recordOk t ∧
        FMap.get? t.indexes key = some y ∧ (∀ k, k ≠ key → FMap.get? t.indexes k = FMap.get? s.indexes k) ∧
        s.ringsKept t ∧ s.othersStay t c ∧ t.trust = s.trust ∧
        ∀ k, FMap.get? y.centroids k = if first ≤ k ∧ k < first + count then rows[k - first]? else FMap.get? x.centroids k) ∧
    (s.admits 0x0B ring dma c = true → s.takesNext 0x0B ring c →
      let first := num c.pkt 16 2
      let count := num c.pkt 18 2
      let size := x.p.entries * x.p.subDim * 4
      let subs := (List.range count).map (fun n => subQuantiser x.p (block.drop (n * size)))
      let y := { x with codebook := storeRows x.codebook first subs }
      count ≠ 0 → first + count ≤ x.p.m → block.length = roundUp (count * size) 64 →
      (∀ q ∈ subs, ∀ e ∈ q, ∀ v ∈ e, isSpecial fFP32 v.toNat = false) →
      ((s.readBlock c none).setIndex key y).syncPages f = some u →
      u.atHand f true [⟨some c.idx, .codebook, 0, first * size, count * size⟩] →
      ∃ t : State, completed (exec (.indexLoadCodebook ring dma) s) c y.codebook.length 0 dma.recordOk t ∧
        FMap.get? t.indexes key = some y ∧ (∀ k, k ≠ key → FMap.get? t.indexes k = FMap.get? s.indexes k) ∧
        s.ringsKept t ∧ s.othersStay t c ∧ t.trust = s.trust ∧
        ∀ k, FMap.get? y.codebook k = if first ≤ k ∧ k < first + count then subs[k - first]? else FMap.get? x.codebook k)) ∧
  (∀ (s u : State) (ring : Nat) (dma : Dma) (c : Cmd) (x : Index),
    let key := indexKey (ringFn c.ring) c.idx
    FMap.get? s.indexes key = some x →
    (s.admits 0x0C ring dma c = true → x.active = false → x.centroids.length = x.p.nlist → x.codebook.length = x.p.m →
      (s.setIndex key { x with active := true, epoch := 0 }).syncPages (ringFn c.ring) = some u →
      ∃ (t : State) (n : Nat), exec (.indexActivate ring dma) s = ended s t c dma n [] ∧
        FMap.get? t.indexes key = some { x with active := true, epoch := 0 } ∧
        (∀ k, k ≠ key → FMap.get? t.indexes k = FMap.get? s.indexes k) ∧ s.ringsKept t ∧ t.cmds = s.cmds ∧
        t.trust = s.trust) ∧
    (s.admits 0x0D ring dma c = true → num c.pkt 16 8 % 64 = 0 → 256 ≤ num c.pkt 24 4 →
      exec (.indexInfo ring dma) s =
        ended s s c dma x.epoch [(num c.pkt 16 8, s.indexInfo (ringFn c.ring) c.idx x)]))

/-- R153 to R161, R240: an accepted INSERT, UPSERT or INSERT_CODED adds one pending mutation, under the command's ring
and sequence number, whose records have the block's IDs in order; nothing becomes visible: epoch, lists, holds and
every other index stay, and `info` is the number of records. R157, R160, R162, R240: an accepted DELETE adds one
pending mutation that deletes those of its IDs that are live in the pending view, and reports how many; nothing
becomes visible before a COMMIT. -/
def Obligations.PreparedMutations : Prop :=
  (∀ (s u : State) (ring : Nat) (dma : Dma) (c : Cmd) (x : Index) (coded upsert : Bool) (spans : List Span),
    let code := if coded then 0x13 else if upsert then 0x12 else 0x10
    s.admits code ring dma c = true → s.takesNext code ring c → (coded && upsert) = false →
    let ctx := ctxOf c dma
    let b := ctx.block
    let vf := num b 0 1
    let count := num b 4 4
    let size := if coded then x.p.codedBytes vf else x.p.recordBytes vf
    let raw := (List.range count).map (fun n =>
      if coded then codedRec x.p vf (recordAt b size n) else plainRec x.p vf (recordAt b size n))
    let recs := raw.filterMap (x.prepareRec coded vf)
    let m := x.mutation ctx (recs.map (fun r => r.1)) []
    FMap.get? s.indexes ctx.key = some x → x.active = true → vf ≤ 2 → count ≠ 0 → num b 8 4 = size →
    64 + count * size ≤ b.length → (raw.map (fun r => r.id)).Nodup →
    (∀ r ∈ raw, r.list < x.p.nlist ∧ (∀ p ∈ r.pats, isSpecial (vecFmt vf) p = false) ∧ x.prepareRec coded vf r ≠ none ∧
      (upsert = false → x.liveIn (s.viewOrder ctx.key x) r.id = false) ∧ s.idCovered x r.id = true) →
    x.sizeIn (resolveOrder (s.commitStamps ctx.key) (x.pending ++ [m])) ≤ x.p.maxEntries →
    (s.readBlock c none).addMutation ctx x m = some (u, spans) → u.atHand ctx.fn true spans →
    s.replayDiffers ctx.fn (joinAll recs) = false →
    ∃ (t : State) (fl : Flags),
      completed (exec (if coded then .insertCoded ring dma else if upsert then .upsert ring dma else .insert ring dma) s)
        c count fl dma.recordOk t ∧
      FMap.get? t.indexes ctx.key = some { x with
        pending := x.pending ++ [⟨c.ring, c.seq, x.stamp, recs.map (fun r => r.1), []⟩], stamp := x.stamp + 1 } ∧
      (∀ k, k ≠ ctx.key → FMap.get? t.indexes k = FMap.get? s.indexes k) ∧
      recs.map (fun r => r.1.id) = raw.map (fun r => r.id) ∧ s.ringsKept t ∧ s.othersStay t c ∧
      t.queries = s.queries ∧ t.trust = s.trust ∧ t.tbk = s.tbk) ∧
  (∀ (s u : State) (ring : Nat) (dma : Dma) (c : Cmd) (x : Index) (spans : List Span),
    s.admits 0x11 ring dma c = true → s.takesNext 0x11 ring c →
    let ctx := ctxOf c dma
    let ids := deleteIds ctx
    let live := x.liveIn (s.viewOrder ctx.key x)
    let found := ids.filter live
    FMap.get? s.indexes ctx.key = some x → x.active = true →
    (c.pbValid = true → 64 + 8 * num ctx.block 0 4 ≤ ctx.block.length) → ids.Nodup →
    (flag c.pkt 16 0 = false → ∀ i ∈ ids, live i = true) → (∀ i ∈ ids, s.idCovered x i = true) →
    (s.readBlock c none).addMutation ctx x (x.mutation ctx [] found) = some (u, spans) → u.atHand ctx.fn true spans →
    ∃ t : State, completed (exec (.delete ring dma) s) c found.length 0 dma.recordOk t ∧
      FMap.get? t.indexes ctx.key = some { x with
        pending := x.pending ++ [⟨c.ring, c.seq, x.stamp, [], found⟩], stamp := x.stamp + 1 } ∧
      (∀ k, k ≠ ctx.key → FMap.get? t.indexes k = FMap.get? s.indexes k) ∧ s.ringsKept t ∧ s.othersStay t c ∧
      t.trust = s.trust ∧ t.tbk = s.tbk)

/-- R163, R247: COMMIT of an active index stays outstanding, marked to take the mutations admitted before it, and
changes nothing else of the index; the first outstanding COMMIT is applied first, and it raises the index's epoch by
one, moves the mutations that it takes out of the pending state, keeps the others and completes with the new epoch as
`info`. R243, R246: after a COMMIT each list holds its earlier slots, with the live entry of every deleted or replaced
ID tombstoned at the new epoch, followed by the records that the taken mutations make live, born at the new epoch; and
an ID that the taken mutations touch is live exactly if the last of them in commit order makes it live. -/
def Obligations.CommitEffects : Prop :=
  ((∀ (s : State) (ring : Nat) (dma : Dma) (c : Cmd) (x : Index), s.admits 0x14 ring dma c = true →
    let key := indexKey (ringFn c.ring) c.idx
    FMap.get? s.indexes key = some x → x.active = true →
    ∃ t : State, exec (.commit ring dma) s = outstanding s t c dma (.commit key x.stamp [] []) ∧
      t.indexes = FMap.set s.indexes key { x with stamp := x.stamp + 1 } ∧ t.cmds = s.cmds ∧ t.fields = s.fields ∧
      s.ringsKept t ∧ (x.p.cascMode = 0 → t = s.setIndex key { x with stamp := x.stamp + 1 })) ∧
  ∀ (s u : State) (f i : Nat) (ok copies : Bool) (c : Cmd) (upTo : Nat) (done : List Nat) (x : Index),
    s.completing = true → s.firstCommit (indexKey f i) = some (c, upTo, done) → s.index? f i = some x →
    s.readerHalted (.cmd c.ring c.seq) = false → (x.p.cascMode ≠ 0 → copies = true) →
    s.tryCommit c (indexKey f i) upTo done = .done u →
    ∃ (t : State) (y : Index), exec (.commitApply f i copies ok) s = .next (t.finish c 0 (x.epoch + 1) 0 c.flags ok) ∧
      t.index? f i = some y ∧ y.epoch = x.epoch + 1 ∧ y.pending = x.pending.filter (fun m => upTo ≤ m.stamp) ∧
      y.holds = x.holds ∧ y.p = x.p ∧ y.active = x.active ∧ y.centroids = x.centroids ∧ y.codebook = x.codebook ∧
      (∀ k, k ≠ indexKey f i → FMap.get? t.indexes k = FMap.get? s.indexes k) ∧ t.cmds = s.cmds ∧ s.ringsKept t ∧
      t.queries = s.queries ∧ t.trust = s.trust ∧ t.tbk = s.tbk) ∧
  (∀ (s : State) (r : Prepared) (key upTo : Nat) (x : Index), FMap.get? s.indexes key = some x →
    s.prepareCommit key upTo = some r →
    let t := r.committed key upTo
    let taken := inCommitOrder (x.pending.filter (fun m => m.stamp < upTo))
    let dead := goneIds taken
    ∃ y, FMap.get? t.indexes key = some y ∧
      (∀ l, (y.list l).image.slots = (x.list l).image.slots.map (fun e => e.kill dead (x.epoch + 1)) ++
        ((chosen taken).filter (fun r => r.list == l)).map (fun r => r.slot (x.epoch + 1))) ∧
      ∀ id live, lastTouch taken id = some live → (y.liveSlot id).isSome = live)

/-- R166 to R168: a hold of the committed epoch, or of one already held, adds one entry to the index's holds; a
release takes one away and reports how many of that epoch remain. Nothing else changes. A hold of another epoch, one
beyond 8 of the index or 64 of the field, and a release of an epoch without a hold are refused by their status. R251,
R262: VERSION_FREE keeps exactly the versions that some readable epoch needs, and OLD_IMAGE_FREE drops an old image
that no search admitted before its replacement and no readable epoch needs; neither touches a current image, the epoch
or a pending mutation. R169, R255, R257: COMPACT queues the lists it selects, at the committed epoch, and stays
outstanding until they have swapped; with no list to compact it completes at once with `info` 0 and nothing changed.
R257 to R260, R169: an Evaporator in service takes the first waiting list whose new image finds memory; its swap, where
the pages of both images are resident and can be read, no COMMIT of the index is under way and, in SPLIT-DIM, every
member is ready (R590),
replaces the list's image by the entries that are live, or died after E0, in their order, keeps the old image, frees
the Evaporator and counts for the COMPACTs that wait. -/
def Obligations.SnapshotsAndCompaction : Prop :=
  (∀ (s : State) (ring : Nat) (dma : Dma) (c : Cmd) (x : Index),
    let key := indexKey (ringFn c.ring) c.idx
    let e := if flag c.pkt 16 0 then num c.pkt 24 8 else x.epoch
    FMap.get? s.indexes key = some x →
    (s.admits 0x15 ring dma c = true → e = x.epoch ∨ e ∈ x.holds → x.holds.length < 8 → s.fieldHolds (ringFn c.ring) < 64 →
      exec (.snapshotHold ring dma) s = ended s (s.setIndex key { x with holds := x.holds ++ [e] }) c dma e []) ∧
    (s.admits 0x16 ring dma c = true → e ∈ x.holds →
      exec (.snapshotRelease ring dma) s =
        ended s (s.setIndex key { x with holds := x.holds.erase e }) c dma (x.holds.count e - 1) []) ∧
    (s.admits 0x15 ring dma c = true → ¬ (e = x.epoch ∨ e ∈ x.holds) →
      exec (.snapshotHold ring dma) s = .next (s.settle c dma (no stEPOCH_UNAVAILABLE))) ∧
    (s.admits 0x15 ring dma c = true → e = x.epoch ∨ e ∈ x.holds →
      8 ≤ x.holds.length ∨ 64 ≤ s.fieldHolds (ringFn c.ring) →
      exec (.snapshotHold ring dma) s = .next (s.settle c dma (no stLIMIT))) ∧
    (s.admits 0x16 ring dma c = true → e ∉ x.holds →
      exec (.snapshotRelease ring dma) s = .next (s.settle c dma (no stNOT_FOUND)))) ∧
  (∀ (s : State) (f i : Nat) (x : Index), s.up = true → s.index? f i = some x →
    let key := indexKey f i
    let readable := x.epoch :: x.holds ++ (s.queriesOf key).map (fun q => q.epoch) ++
      (s.partsOf key).map (fun q => q.epoch) ++ (s.fetchesOf key).map (fun h => h.1)
    let orders := (s.queriesOf key).map (fun q => q.order) ++ (s.partsOf key).map (fun q => q.order) ++
      (s.fetchesOf key).map (fun h => h.2)
    (∃ t : State, exec (.versionFree f i) s = .next t ∧ t.index? f i = some { x with
        versions := x.versions.filter (fun v => readable.any (fun e => decide (v.since ≤ e) && decide (e < v.until_))) } ∧
      (∀ k, k ≠ key → FMap.get? t.indexes k = FMap.get? s.indexes k) ∧ t.cmds = s.cmds ∧ t.tbk = s.tbk) ∧
    ∀ l, let kept := keptImages orders readable (x.list l).image (x.list l).olds
      (∀ o ∈ kept, o ∈ (x.list l).olds) ∧
      (kept ≠ (x.list l).olds → ∃ t : State, exec (.oldImageFree f i l) s = .next t ∧
        t.index? f i = some { x with lists := FMap.set x.lists l { x.list l with olds := kept } } ∧ t.cmds = s.cmds ∧
        t.tbk = s.tbk) ∧
      (kept = (x.list l).olds → exec (.oldImageFree f i l) s = .next s)) ∧
  (∀ (s : State) (ring : Nat) (dma : Dma) (c : Cmd) (x : Index), s.admits 0x17 ring dma c = true →
    let key := indexKey (ringFn c.ring) c.idx
    let mode := num c.pkt 16 1
    let first := num c.pkt 20 4
    let count := num c.pkt 24 4
    FMap.get? s.indexes key = some x → mode ≤ 1 → (mode = 1 → count ≠ 0 ∧ first + count ≤ x.p.nlist) →
    let ls := (x.lists.filter (fun l => !l.2.image.slots.isEmpty &&
      (if mode = 0 then overRatio x.p.tombPct l.2.image.slots else decide (first ≤ l.1) && decide (l.1 < first + count)))).map
        (fun l => l.1)
    (ls = [] → exec (.compact ring dma) s = ended s s c dma 0 []) ∧
    (ls ≠ [] → ∃ t : State, exec (.compact ring dma) s = outstanding s t c dma (.compact key ls 0 0) ∧
      (∀ l ∈ ls, s.compacting key l = true ∨ ⟨key, l, x.epoch, false⟩ ∈ t.compactQueue) ∧
      (∀ w ∈ s.compactQueue, w ∈ t.compactQueue) ∧ t.indexes = s.indexes ∧ t.cmds = s.cmds ∧ s.ringsKept t ∧
      (x.p.cascMode ≠ 2 → t = { s with compactQueue := t.compactQueue }))) ∧
  ((∀ (s t : State) (n : Nat) (w : Waiting) (rest : List Waiting), n < 2 → s.unitFree 7 n = true →
    FMap.get? s.evaporators n = none → s.compactQueue = w :: rest → w.passedOver = false →
    s.beginCompaction n w = some t →
    exec (.compactionStart n) s = .next t ∧ (∃ e, FMap.get? t.evaporators n = some e ∧ e.key = w.key ∧ e.list = w.list ∧
      e.e0 = w.e0) ∧ ((∀ v ∈ s.compactQueue, v ≠ w → ¬ (v.key = w.key ∧ v.list = w.list)) →
      ∀ v ∈ t.compactQueue, ¬ (v.key = w.key ∧ v.list = w.list)) ∧ t.indexes = s.indexes ∧ t.cmds = s.cmds) ∧
  ∀ (s : State) (n : Nat) (copies ok : Bool) (e : Compaction) (x : Index), n < 2 → FMap.get? s.evaporators n = some e →
    FMap.get? s.indexes e.key = some x → s.unitFree 7 n = true ∨ s.unitDrains 7 n = true →
    s.readerHalted (.evaporator n) = false → s.commitBegun e.key = false →
    (x.p.cascMode = 2 → s.follows = false ∧ copies = true) →
    let f := e.key / 64
    let spans := s.compactionSpans e x
    let u := (s.dropReader (.evaporator n)).readSpans f 2 (unitKey 7 n) false spans.1
    (∀ a ∈ spans.1, s.spanFault f a = false ∧ u.spanFault f a = false) → (∀ a ∈ spans.2, s.spanLost f a = false) →
    s.firstAway f e.read (spans.1 ++ spans.2) = none → s.retrains f (spans.1 ++ spans.2) = false →
    ∃ (t : State) (y : Index), exec (.compactionSwap n copies ok) s = .next t ∧ FMap.get? t.indexes e.key = some y ∧
      (y.list e.list).image.slots = (x.list e.list).image.slots.filter (fun a => match a.died with
        | none => true
        | some d => decide (e.e0 < a.born) || decide (e.e0 < d)) ∧
      (y.list e.list).olds = (x.list e.list).image :: (x.list e.list).olds ∧
      (∀ l, l ≠ e.list → y.list l = x.list l) ∧ y.epoch = x.epoch ∧ y.pending = x.pending ∧
      (∀ k, k ≠ e.key → FMap.get? t.indexes k = FMap.get? s.indexes k) ∧ FMap.get? t.evaporators n = none ∧
      (∀ c ∈ t.cmds, ∀ ns p, c.stopped = none → c.work ≠ .compact e.key [] ns p) ∧ t.trust = s.trust ∧
      (x.p.cascMode ≠ 2 → t.tbk = s.tbk))

/-- R292 to R294, Table 5.5: FILTER_DEFINE stores the parsed program under its number, replacing one only where the
packet says so; FILTER_DROP removes it. A program's verdict is that of the matching rules of the highest priority,
which must all allow, and its default where no rule matches. R181 to R184: BITMAP_LOAD writes the block's bits into
the staging image, from the bit offset on and nowhere else, after creating the image where asked; publishing makes the
staging image the one that searches read; creating one of no bits deletes the bitmap. -/
def Obligations.FiltersAndBitmaps : Prop :=
  ((∀ (s : State) (ring : Nat) (dma : Dma) (c : Cmd) (f : Field), let fn := ringFn c.ring
    let id := num c.pkt 16 1
    s.field? fn = some f → id ≤ 31 →
    (∀ p, s.admits 0x28 ring dma c = true → parseFilter (ctxOf c dma).block = some p →
      FMap.get? f.filters id = none ∨ flag c.pkt 17 0 = true →
      ∃ t : State, exec (.filterDefine ring dma) s = ended s t c dma 0 [] ∧
        t.fields = FMap.set s.fields fn { f with filters := FMap.set f.filters id p } ∧ t.indexes = s.indexes ∧
        s.ringsKept t ∧ t.cmds = s.cmds ∧ t.trust = s.trust ∧
        (s.cascFormed = false → t.out = (s.readBlock c none).out)) ∧
    (s.admits 0x29 ring dma c = true → FMap.get? f.filters id ≠ none →
      ∃ t : State, exec (.filterDrop ring dma) s = ended s t c dma 0 [] ∧
        t.fields = FMap.set s.fields fn { f with filters := FMap.erase f.filters id } ∧ t.indexes = s.indexes ∧
        s.ringsKept t ∧ t.cmds = s.cmds ∧ t.trust = s.trust ∧ (s.cascFormed = false → t.out = s.out))) ∧
  ∀ (p : FilterProg) (attrs : List (BitVec 32)),
    ((∀ r ∈ p.rules, r.matches_ attrs = false) → p.allows attrs = p.defaultAllow) ∧
    ∀ r ∈ p.rules, r.matches_ attrs = true → (∀ q ∈ p.rules, q.matches_ attrs = true → q.priority ≤ r.priority) →
      (p.allows attrs = true ↔ ∀ q ∈ p.rules, q.matches_ attrs = true → q.priority = r.priority → q.allow = true)) ∧
  ((∀ (s u : State) (ring : Nat) (dma : Dma) (c : Cmd) (f : Field), s.admits 0x2A ring dma c = true →
    s.takesNext 0x2A ring c →
    let fn := ringFn c.ring
    let p := c.pkt
    let id := num p 16 1
    let create := flag p 17 0
    let publish := flag p 17 1
    let nbits := num p 20 4
    let off := num p 24 4
    let b := (ctxOf c dma).block
    let old := FMap.get? f.bitmaps id
    let new := bitmapAfter old create publish c.pbValid (num p 18 1) nbits off b
    s.field? fn = some f → id ≤ 15 → num p 18 1 ≤ 3 →
    (create = true → nbits % 512 = 0 ∧ nbits ≤ 2 ^ 30 ∧ (nbits = 0 → c.pbValid = false ∧ publish = false)) →
    (c.pbValid = true → off % 512 = 0 ∧ (create = true → off + 8 * b.length ≤ nbits) ∧
      ∀ o, create = false → old = some o → off + 8 * b.length ≤ o.staging.nbits) →
    (create = false → old = none → c.pbValid = false ∧ publish = false) →
    ((s.readBlock c none).setField fn (f.putBitmap id new)).syncPages fn = some u →
    u.atHand fn true (bitmapWrites id new publish c.pbValid (off / 8) b.length) →
    ∃ (t : State) (g : Field), completed (exec (.bitmapLoad ring dma) s) c 0 0 dma.recordOk t ∧ t.field? fn = some g ∧
      FMap.get? g.bitmaps id = new ∧ (∀ k, k ≠ id → FMap.get? g.bitmaps k = FMap.get? f.bitmaps k) ∧
      g.filters = f.filters ∧ g.cfg = f.cfg ∧ t.indexes = s.indexes ∧ s.ringsKept t ∧ s.othersStay t c) ∧
  (∀ (i : BitmapImage) (off : Nat) (b : Bytes) (n : Nat),
    (i.write off b).bits.testBit n =
      if off ≤ n ∧ n < off + 8 * b.length then (b.getD ((n - off) / 8) 0).getLsbD ((n - off) % 8) else i.bits.testBit n) ∧
  ∀ (old : Option Bitmap) (sel nbits : Nat) (b : Bytes) (off : Nat),
    (∀ o, old = some o → bitmapAfter old false false true sel nbits off b = some ⟨o.published, o.staging.write off b⟩ ∧
      bitmapAfter old false true true sel nbits off b = some ⟨some (o.staging.write off b), o.staging.write off b⟩) ∧
    bitmapAfter old true false false sel 0 off b = none)

/-- R186, R187, R189: PAGE_POOL_GRANT adds the block's page addresses to the field's pool, in their order; a reclaim
returns the free ones, at most as many as asked and as the reply holds, and writes their addresses. R190 to R193, R535
to R538: PAGE_PIN puts its pin first among those of the index, where frames and Granary ways suffice; PAGE_UNPIN puts
an unpin there, and where class C searches of the index are in progress the pages of the scope that they will read and
that are pinned stay so until they complete.
The index keeps everything else, and so do the other indexes. -/
def Obligations.PagePoolAndPins : Prop :=
  (∀ (s : State) (ring : Nat) (dma : Dma) (c : Cmd) (f : Field), s.admits 0x30 ring dma c = true →
    let fn := ringFn c.ring
    let count := num c.pkt 20 4
    let new := grantAddrs (ctxOf c dma).block count
    let gone := f.freeSlots.take (min count (num c.pkt 32 4 / 8))
    let left := f.pool.filter (fun a => !gone.contains a)
    s.field? fn = some f →
    (num c.pkt 16 1 = 0 → c.pbValid = true → 8 * count ≤ (ctxOf c dma).block.length →
      (∀ a ∈ new, a.toNat % 2097152 = 0 ∧ a ∉ f.pool) → new.Nodup → f.pool.length + count ≤ f.cfg.poolPages →
      exec (.pagePoolGrant ring dma) s =
        ended s ((s.readBlock c none).setField fn { f with pool := f.pool ++ new }) c dma (info2 (f.pool.length + count) 0) []) ∧
    (num c.pkt 16 1 = 1 → num c.pkt 24 8 % 64 = 0 →
      exec (.pagePoolGrant ring dma) s = ended s ((s.readBlock c none).setField fn { f with pool := left }) c dma
        (info2 left.length gone.length) [(num c.pkt 24 8, gone.flatMap (fun a => leBytes 8 a.toNat))])) ∧
  (∀ (s : State) (ring : Nat) (dma : Dma) (c : Cmd) (x : Index),
    let f := ringFn c.ring
    let key := indexKey f c.idx
    FMap.get? s.indexes key = some x →
    (∀ u : State, s.admits 0x31 ring dma c = true →
      let q := pinIn (ctxOf c dma) true
      pinBad q x.p = false → ((s.setIndex key (x.addPin q)).tighten f q).syncCapacity f = some u →
      (q.granary = true →
        u.pinsFit f (fun p => p.index == some (key % 64) && u.inScope f (u.cfg f).mapHash p.need q) = true) →
      ∃ (t : State) (n : Nat), exec (.pagePin ring dma) s = ended s t c dma n [] ∧
        (∃ ps, FMap.get? t.indexes key = some { x with pins := q :: ps } ∧ ∀ r ∈ ps, r ∈ x.pins) ∧
        (∀ k, k ≠ key → FMap.get? t.indexes k = FMap.get? s.indexes k) ∧ s.ringsKept t ∧ t.cmds = s.cmds) ∧
    (s.admits 0x32 ring dma c = true →
      let q := pinIn (ctxOf c dma) false
      pinBad q x.p = false →
      ∃ (t : State) (n : Nat) (ps : List Pin), exec (.pageUnpin ring dma) s = ended s t c dma n [] ∧
        FMap.get? t.indexes key = some { x with pins := ps } ∧
        ((∀ r ∈ s.queries, indexKey r.field r.index = key → r.cls ≠ 0) → ∃ rest, ps = q :: rest ∧ ∀ r ∈ rest, r ∈ x.pins) ∧
        ((∃ r ∈ s.queries, indexKey r.field r.index = key ∧ r.cls = 0) → ∃ ks rest, ps = ks ++ q :: rest ∧
          (∀ r ∈ rest, r ∈ x.pins) ∧
          (∀ k ∈ ks, k.on = true ∧ k.forQueries ≠ none ∧ k.scope = q.scope ∧ (k.granary = true → q.granary = true)) ∧
          ∀ p ∈ s.pagesIn f (key % 64) q, p.pinGddr = true →
            (∃ a ∈ s.certifiedSpans key x ((s.queriesOf key).filter (fun r => r.cls == 0)),
              ∃ b ∈ s.spanOf f a, b.1.num = p.num) →
            ∃ k ∈ ks, k.gddr = true ∧ (p.part, p.half, p.n) ∈ k.kept) ∧
        (∀ k, k ≠ key → FMap.get? t.indexes k = FMap.get? s.indexes k) ∧ s.ringsKept t ∧ t.cmds = s.cmds))

/-- R33 to R39, R55, R170 to R176, R266, R274: a class B or class X search that passes its checks is admitted,
whatever its opcode: one query for each vector of the packet, in order, bound to the snapshot epoch, the filter
program and the bitmap image of this moment; the ledger of certified searches keeps its entries and their bounds, and
is as before where the search joins no open window; no index, ring or command changes. -/
def Obligations.SearchBestEffort : Prop :=
  ∀ (s : State) (ring : Nat) (dma : Dma) (c : Cmd) (x : Index) (f : Field) (batch radius : Bool),
    s.admits (if batch then 0x21 else if radius then 0x22 else 0x20) ring dma c = true → (batch && radius) = false →
    let ctx := ctxOf c dma
    let q := searchIn ctx
    let pats := (List.range q.n).map (queryPats ctx x.p q.vecFmt)
    FMap.get? s.indexes ctx.key = some x → s.field? ctx.fn = some f → q.cls ≠ 0 → q.inlineBad x.p radius = false →
    q.vecFmt ≤ 2 → q.countBad batch = false → q.n * blockBytes q.k q.outFmt ≤ q.len →
    64 + q.n * queryBytes x.p q.vecFmt ≤ ctx.block.length →
    (∀ v ∈ pats, (∀ p ∈ v, isSpecial (vecFmt q.vecFmt) p = false) ∧
      ∃ r, prepare x.p (vecFmt q.vecFmt) v = some r ∧ s.replayDiffers ctx.fn r.2 = false) →
    q.sbacBad = false → (q.filterId ≠ 0xFF → q.filterOf f ≠ none) → (q.bitmapId ≠ 0xFF → q.bitmapOf f ≠ none) →
    x.active = true → (q.rerank ≠ 0 → x.p.fpFmt ≠ 0) → beyondWords x.p (q.filterOf f) (q.bitmapOf f) = false →
    (q.t8 = false → x.tableBytes false ≤ tableArea) → q.snapshot x = x.epoch ∨ q.snapshot x ∈ x.holds →
    (∀ p ∈ s.queries, p.ref.of c.ring c.seq = false) →
    ∃ (t : State) (fl : Flags) (n : Nat),
      exec (if batch then .searchBatch ring dma else if radius then .searchRadius ring dma else .search ring dma) s =
        .next (s.settle c dma (.accept ⟨t, some .search, 0, 0, fl, 0, q.snapshot x, []⟩)) ∧
      t.queries.map (fun p => p.ref) = s.queries.map (fun p => p.ref) ++ (List.range q.n).map (fun k => ⟨c.ring, c.seq, k⟩) ∧
      (∀ p ∈ t.queries, p.ref.of c.ring c.seq = true → p.field = ctx.fn ∧ p.index = ctx.key % 64 ∧ p.cls = q.cls ∧
        p.epoch = q.snapshot x ∧ p.k = q.k ∧ p.nprobe = n ∧ p.filter = q.filterOf f ∧ p.bitmap = q.bitmapOf f ∧
        p.admitted = s.tbk ∧ p.cands = [] ∧ p.merged = none) ∧
      n ≤ q.nprobe ∧ (q.narrow = false → n = q.nprobe) ∧ (q.narrow = true → q.floor ≤ n) ∧
      (∀ e ∈ t.ledger, ∃ d ∈ s.ledger, d.ref = e.ref ∧ d.bound = e.bound ∧ d.start ≤ e.start ∧ d.finish ≤ e.finish) ∧
      (∀ d ∈ s.ledger, ∃ e ∈ t.ledger, e.ref = d.ref ∧ e.bound = d.bound) ∧
      (s.openWindow ctx.fn (ctx.key % 64) (q.cls == 2) = none → s.relax = s →
        (∀ p ∈ s.queries, ∀ w, p.window = some w → w < s.nextWindow) →
        (∀ e ∈ s.ledger, e.ref.of c.ring c.seq = false) → t.ledger = s.ledger) ∧ t.indexes = s.indexes ∧ s.ringsKept t ∧ t.cmds = s.cmds ∧ t.trust = s.trust ∧ t.tbk = s.tbk

/-- R48, R57, R177, R462, R465, R467, R468: a class C search with its scan pinned is admitted at the largest nprobe at
which its bound meets its deadline and no earlier bound is broken; its bound goes into the ledger, and then every
certified search in the ledger finishes by its fetch time plus its bound. Where no nprobe will do, it is turned away
with ST_DEADLINE_INFEASIBLE and the bound of the nprobe it asked for. -/
def Obligations.SearchCertified : Prop :=
  ∀ (s : State) (ring : Nat) (dma : Dma) (c : Cmd) (x : Index) (f : Field) (batch radius : Bool),
    s.admits (if batch then 0x21 else if radius then 0x22 else 0x20) ring dma c = true → (batch && radius) = false →
    let i : Instr := if batch then .searchBatch ring dma else if radius then .searchRadius ring dma else .search ring dma
    let ctx := ctxOf c dma
    let q := searchIn ctx
    let pats := (List.range q.n).map (queryPats ctx x.p q.vecFmt)
    let key := if x.p.metric = 0 then q.radius else q.radius ^^^ 0x80000000#32
    let b : Bound := ⟨q, ctx, ctx.key, x, q.snapshot x, if radius then some key else none, q.filterOf f, q.bitmapOf f,
      pats.filterMap (prepare x.p (vecFmt q.vecFmt))⟩
    FMap.get? s.indexes ctx.key = some x → s.field? ctx.fn = some f → q.cls = 0 → f.cfg.certified = true →
    q.inlineBad x.p radius = false → q.vecFmt ≤ 2 → q.countBad batch = false → q.n * blockBytes q.k q.outFmt ≤ q.len →
    64 + q.n * queryBytes x.p q.vecFmt ≤ ctx.block.length →
    (∀ v ∈ pats, (∀ p ∈ v, isSpecial (vecFmt q.vecFmt) p = false) ∧
      ∃ r, prepare x.p (vecFmt q.vecFmt) v = some r ∧ s.replayDiffers ctx.fn r.2 = false) →
    q.sbacBad = false → (q.filterId ≠ 0xFF → q.filterOf f ≠ none) → (q.bitmapId ≠ 0xFF → q.bitmapOf f ≠ none) →
    x.active = true → (q.rerank ≠ 0 → x.p.fpFmt ≠ 0) → beyondWords x.p (q.filterOf f) (q.bitmapOf f) = false →
    (q.t8 = false → x.tableBytes false ≤ tableArea) → q.snapshot x = x.epoch ∨ q.snapshot x ∈ x.holds →
    (∀ e ∈ s.ledger, e.ref.of c.ring c.seq = false) →
    let s₁ := s.readBlock c none
    ∀ (r : State × Nat), s₁.tryAt b q.nprobe = some r →
      (∀ (u : State) (n bound : Nat), s.searchPinned ctx.key x (q.rerank != 0) (q.snapshot x) = true →
        (x.p.cascMode ≠ 0 → s.casc.state ≠ 3) → s₁.firstMeeting b = some n → s₁.tryAt b n = some (u, bound) →
        u.othersHold c.ring c.seq = true →
        ∃ (t : State) (fl : Flags),
          exec i s = .next (s.settle c dma (.accept ⟨t, some .search, 0, 0, fl, bound, q.snapshot x, []⟩)) ∧
          n ≤ q.nprobe ∧ bound ≤ q.deadlineUs ∧ (∀ e ∈ t.ledger, e.ref.of c.ring c.seq = true → e.bound = bound) ∧
          (∀ e ∈ t.ledger, e.finish ≤ e.tFetch + e.bound * 1000) ∧
          t.indexes = s.indexes ∧ s.ringsKept t ∧ t.cmds = s.cmds ∧ t.tbk = s.tbk) ∧
      (s₁.firstMeeting b = none → exec i s =
        .next ((s₁.countField ctx.fn 2 1).finish c 0x000D 0 (min r.2 0xFFFF_FFFF) 0 dma.recordOk))

/-- R270, R281, R283, R787, R24: TABLE_AREA_PLACEMENT gives the oldest waiting query a core with room; COULTER_TILE
gives every query of the next tile its first nprobe lists by coarse key and list number; DISTANCE_TABLE_BUILD gives
the query first in line its table. No command, index or ring changes. R272, R275 to R278: SOWING_WINDOW_CLOSE closes
the open window of its kind at its time. LIST_PASS first forms the passes of a closed window whose queries are ready;
then each event runs the first pass that does not wait for a page, where the units it needs are free, no earlier key
and no better class goes first, and what it reads is resident and whole: every visitor has the list behind it, with at
most k′ candidates, and the pass is gone. (Forced replays, of perturbation control 7, may end a command instead.) -/
def Obligations.QueryScanning : Prop :=
  ((∀ (s u : State) (q : Query), s.completing = true → s.waiter = some q → s.place q (s.queryTable q) = some u →
    ∃ (t : State) (p : Query) (n : Nat), exec .tableAreaPlacement s = .next t ∧ p ∈ t.queries ∧ p.ref = q.ref ∧
      p.core = some n ∧ (⟨q.ref, s.queryTable q, false⟩ : Resident) ∈ (t.core n).tables ∧
      (t.queries.map (fun r => r.ref)).Perm (s.queries.map (fun r => r.ref)) ∧ t.cmds = s.cmds ∧ t.indexes = s.indexes ∧
      s.ringsKept t) ∧
  (∀ (s : State) (h : Query) (y : Index), s.unitWorks 1 0 = true ∨ s.unitWorks 1 1 = true → s.unitHeld 1 0 = false →
    s.unitHeld 1 1 = false → (s.queries.map (fun r => r.ref)).Nodup → s.nextTile.head? = some h →
    s.index? h.field h.index = some y → s.coarseFault h = false →
    s.retrains h.field (centroidSpans h.index y.p (s.cfg h.field).mapHash) = false →
    (s.scoreRows h y s.nextTile).coarseFault h = false → s.forcedReplays h.field = 0 →
    ∃ t : State, exec .coulterTile s = .next t ∧ t.cmds = s.cmds ∧ t.indexes = s.indexes ∧ s.ringsKept t ∧
      ∀ q ∈ s.nextTile, ∀ x, s.index? q.field q.index = some x →
        ∃ (p : Query) (way : SumWay), p ∈ t.queries ∧ p.ref = q.ref ∧ p.coulterDone = true ∧
          p.lists = pickLists q.nprobe (x.coarse way q.vec).1 ∧ (x.modeA = false → way = fixedWay x.p)) ∧
  (∀ (s : State) (n : Nat) (q : Query) (x : Index), n < 8 → s.unitWorks 2 n = true → firstBuilt s.tableDue = some q →
    s.index? q.field q.index = some x → s.spanFault q.field (codebookSpan q.index x.p) = false →
    s.retrains q.field [codebookSpan q.index x.p] = false → s.forcedReplays q.field = 0 →
    (s.readSpans q.field q.cls (unitKey 2 n) false [codebookSpan q.index x.p]).spanFault q.field
      (codebookSpan q.index x.p) = false →
    ∃ t : State, exec (.distanceTableBuild n) s = .next t ∧
      t.queries = s.queries.map (fun p => if p.ref = q.ref then { q with
        table := some (x.buildTable q.vec q.t8).1, flags := q.flags ||| (x.buildTable q.vec q.t8).2.fl } else p) ∧
      t.cmds = s.cmds ∧ t.indexes = s.indexes ∧ s.ringsKept t) ∧
  ∀ (n : Nat) (ks : List Ranked), (ks.map (fun r => r.list)).Nodup → (pickLists n ks).length = min n ks.length ∧
    ∀ r ∈ ks, ∀ q ∈ ks, r.list ∉ pickLists n ks → q.list ∈ pickLists n ks → before r.key r.list q.key q.list = false) ∧
  ((∀ (s : State) (f i : Nat) (classX : Bool) (n : Nat) (w : Window), s.completing = true →
    s.openWindow f i classX = some (n, w) → FMap.get? s.windows n = some w →
    ∃ t : State, exec (.sowingWindowClose f i classX) s = .next t ∧
      t.windows = FMap.set s.windows n { w with closed := true } ∧ t.tbk = max s.tbk (w.openAt + w.sowingUs * 1000) ∧
      t.queries = s.queries ∧ t.cmds = s.cmds ∧ t.indexes = s.indexes) ∧
  (∀ (s : State) (n : Nat) (w : Window) (x : Index), s.completing = true → FMap.get? s.windows n = some w →
    s.index? w.field w.index = some x →
    let qs := w.queries.filterMap s.query?
    (w.ready qs = true → ∃ (t : State) (v : Window), exec (.listPass n) s = .next t ∧ FMap.get? t.windows n = some v ∧
      v.formed = true ∧ v.queries = w.queries ∧ (∀ p ∈ v.passes, ∀ r ∈ p.visitors, ∃ q ∈ qs, q.ref = r ∧ p.list ∈ q.lists) ∧
      (∀ q ∈ qs, q.scansNothing = false → ∀ l ∈ q.lists, ∃ p ∈ v.passes, p.list = l ∧ q.ref ∈ p.visitors) ∧
      t.cmds = s.cmds ∧ t.indexes = s.indexes) ∧
    (∀ p, w.ready qs = false → w.passes.find? (fun p => !s.readerHalted (.pass n p.list p.e0)) = some p →
      let vs := p.visitors.filterMap s.query?
      let r := s.passReads w.field w.index x p.list vs
      let cls := if vs.any (fun q => q.cls == 0) then 0 else if w.classX then 2 else 1
      let u := (s.dropReader (.pass n p.list p.e0)).readPass w.field cls
        (unitKey 0 ((vs.head?.bind (fun q => q.core)).getD 0)) r
      s.passHeld p = false → s.passBehind n p = false → s.yields w = false →
      (∀ q ∈ vs, q.table ≠ none ∧ s.forcedReplays q.field = 0 ∧
        ∀ a ∈ s.visitSpans x p.list q, s.spanFault w.field a = false ∧ u.spanFault w.field a = false) →
      (cls = 0 ∨ p.started = true ∨ s.forcedFault w.field w.index p.list = none) → s.passAway w.field p.read r = none →
      s.retrains w.field (r.side ++ r.need) = false →
      (s.queries.map (fun r => r.ref)).Nodup → p.visitors.Nodup →
      ∃ t : State, exec (.listPass n) s = .next t ∧
        (∀ q ∈ vs, ∃ r ∈ t.queries, r.ref = q.ref ∧ r.todo = q.todo.erase p.list ∧ r.cands.length ≤ q.slots ∧
          r.k = q.k ∧ r.epoch = q.epoch) ∧
        (∀ v, FMap.get? t.windows n = some v → ∀ y ∈ v.passes,
          ¬ (y.list = p.list ∧ y.e0 = p.e0 ∧ y.visitors = p.visitors)) ∧
        t.cmds = s.cmds ∧ t.indexes = s.indexes ∧ s.ringsKept t)))

/-- R25, R181, R287, R288, R296: scanning an image keeps, of a query's candidates and of the entries that are live at
its epoch and pass its filter and bitmap, at most k′, in order, none of them behind one that is dropped; every
candidate kept is an earlier one or such an entry. R289, R446: what a core sends through a handle queue its Crystalliser
receives, in order. R27, R298, R299, R300, R26 to R29: RERANK gives every candidate of
the query first served an exact key; FINAL_MERGE orders the candidates by their final key and ID, keeps those within
the radius, and takes the first k of them. R91, R301, R304, R471: the Gleaner writes the result blocks of the next
finished search, one after the other from the packet's address, and then ends the command with its record; its queries
leave the query path. FETCH_VECTOR, once what it reads is resident, writes one record for each ID, in order, of the entry that is
live at the epoch asked for. -/
def Obligations.QueryResults : Prop :=
  (∀ (q : Query) (x : Index) (way : SumWay) (t : QTable) (m : Image),
    let cands := q.keep (q.scan x way t m).new
    let live := (q.considers x m).filter (fun e => q.admits e.attrs)
    cands.length ≤ q.slots ∧ cands.Pairwise (fun a b => b.before a = false) ∧
    (∀ c ∈ cands, c ∈ q.cands ∨ ∃ e ∈ live, e.id = c.id ∧ e.liveAt q.epoch = true) ∧
    (∀ c ∈ q.cands, c ∉ cands → cands.length = q.slots ∧ ∀ d ∈ cands, c.before d = false) ∧
    (q.radius = none → ∀ e ∈ live, ∃ c : Cand, c.id = e.id ∧
      (c ∈ cands ∨ cands.length = q.slots ∧ ∀ d ∈ cands, c.before d = false)) ∧
    (∀ (s : State) (work producer consumer f : Nat),
      (s.carry work producer consumer f (q.scan x way t m).new).2 = (q.scan x way t m).new) ∧
    (∀ e : Slot, e.liveAt q.epoch = true ↔ e.born ≤ q.epoch ∧ ∀ d, e.died = some d → q.epoch < d)) ∧
  ((∀ (s : State) (n : Nat) (q : Query) (x : Index), n < 4 → s.unitWorks 4 n = true →
    s.narrowStalls (unitKey 4 n) = false →
    firstServed (s.queries.filter (fun q => q.rerank != 0 && !q.reranked && q.assayer == n && s.scanned q &&
      !s.readerHalted (.rerank q.ref))) = some q →
    s.index? q.field q.index = some x →
    let u := (s.dropReader (.rerank q.ref)).readSpans q.field q.cls (unitKey 4 q.assayer) true (s.rerankSpans x q)
    (∀ a ∈ s.rerankSpans x q, s.spanFault q.field a = false ∧ u.spanFault q.field a = false) →
    s.firstAway q.field q.read (s.rerankSpans x q) = none → s.retrains q.field (s.rerankSpans x q) = false →
    s.forcedReplays q.field = 0 →
    ∃ (t : State) (r : Query), exec (.rerank n) s = .next t ∧
      t.queries = s.queries.map (fun p => if p.ref = q.ref then r else p) ∧ r.ref = q.ref ∧ r.reranked = true ∧
      r.cands.map (fun c => c.id) = q.cands.map (fun c => c.id) ∧
      (∀ c ∈ r.cands, x.entryOf q c.id ≠ none → c.exact ≠ none) ∧ t.cmds = s.cmds ∧ t.indexes = s.indexes) ∧
  (∀ (s : State) (n : Nat) (q : Query), n < 4 → s.unitWorks 5 n = true →
    firstServed (s.queries.filter (fun q => q.merged.isNone && q.core.isSome && q.cryst == n && s.scanned q &&
      (q.rerank == 0 || q.reranked))) = some q →
    exec (.finalMerge n) s = .next { s with
      queries := s.queries.map (fun p => if p.ref = q.ref then q.merge else p) }) ∧
  ∀ q : Query, ∃ l, q.merge.merged = some l ∧ l.length ≤ q.k ∧ l.Pairwise (fun a b => b.finalBefore a = false) ∧
    (∀ c ∈ l, c ∈ q.cands ∧ q.within c.final = true) ∧
    ∀ c ∈ q.cands, q.within c.final = true → c ∉ l → l.length = q.k ∧ ∀ d ∈ l, c.finalBefore d = false) ∧
  ((∀ (s : State) (ok : Bool) (c : Cmd) (x : Index), s.unitWorks 8 0 = true → s.nextOutput = some c →
    s.index? (ringFn c.ring) c.idx = some x → s.forcedReplays (ringFn c.ring) = 0 →
    let qs := s.queriesOfCmd c
    let size := ((qs.head?.map (fun q => blockBytes q.k q.outFmt)).getD 0)
    ∃ (t : State) (fl : Flags),
      exec (.resultOutput true ok) s = .next ((t.finish c 0 (searchInfo c ((qs.head?.map (fun q => q.nprobe)).getD 0)
        (qs.map (fun q => (q.merged.getD []).length))) c.bound.toNat fl ok).releasePages (ringFn c.ring)) ∧
      (∀ q ∈ t.queries, q.ref.of c.ring c.seq = false) ∧ t.cmds = s.cmds ∧ s.ringsKept t ∧
      hostWrites t.out = ((List.range qs.length).map (fun n => .hostWrite (ringFn c.ring)
        (BitVec.ofNat 64 (num c.pkt 16 8 + n * size)) ((qs.map (fun q => (q.block x.p c.perturbed).1)).getD n []))).reverse ++
        hostWrites s.out) ∧
  ∀ (s : State) (ring : Nat) (dma : Dma) (c : Cmd) (x : Index), s.admits 0x23 ring dma c = true →
    s.takesNext 0x23 ring c → dma.replyOk = true →
    let p := c.pkt
    let ctx := ctxOf c dma
    let source := num p 28 1
    let count := num ctx.block 0 4
    let epoch := if flag p 29 0 then num p 32 8 else x.epoch
    let es := (List.range count).map (fun k => x.entryAt epoch s.order (BitVec.ofNat 64 (num ctx.block (64 + 8 * k) 8)))
    let spans := fetchTables (ctx.key % 64) x.p source ++
      (es.filterMap (fun e => e)).flatMap (s.fetchSpans ctx.fn (ctx.key % 64) x source)
    FMap.get? s.indexes ctx.key = some x → num p 16 8 % 64 = 0 → source ≤ 1 → 1 ≤ count → count ≤ 4096 →
    64 + 8 * count ≤ ctx.block.length →
    count * (64 + roundUp (4 * (if source = 0 then x.p.v else x.p.dim)) 64) ≤ num p 24 4 →
    (source = 0 → x.p.fpFmt ≠ 0) → epoch = x.epoch ∨ epoch ∈ x.holds →
    (s.readBlock c none).atHand ctx.fn false spans →
    (∀ a ∈ spans, ((s.readBlock c none).readSpans ctx.fn c.runClass replyUnit false spans).spanFault ctx.fn a = false) →
    ∃ t : State, completed (exec (.fetchVector ring dma) s) c (es.filter (fun e => e.isSome)).length 0 dma.recordOk t ∧
      hostWrites t.out = .hostWrite ctx.fn (BitVec.ofNat 64 (num p 16 8))
        (es.flatMap (fun e => x.vectorRecord source (e.map (fun y => y.2.2.2)))) :: hostWrites s.out ∧
      t.indexes = s.indexes ∧ t.queries = s.queries ∧ s.ringsKept t ∧ s.othersStay t c ∧ t.trust = s.trust)

/-- R194 to R197, R406 to R411: PROGRAM_LOAD of a valid image that fits, under a free number or replacing one that
does not run, stores it with an empty scratch area and empty tile files and extends measurement register 5 with field,
number and image. R352 to R355, R200: TILE_READ of a loaded program that does not run replies with the saved tile's
bytes, followed for FP32 accumulators by the scale fields, and changes nothing; TILE_WRITE writes the tile named, with
its scale fields, and no other byte of the saved tile file. -/
def Obligations.StoredPrograms : Prop :=
  (∀ (s u : State) (ring : Nat) (dma : Dma) (c : Cmd) (f : Field), s.admits 0x38 ring dma c = true →
    s.takesNext 0x38 ring c →
    let fn := ringFn c.ring
    let id := num c.pkt 16 1
    let b := (ctxOf c dma).block
    s.field? fn = some f → s.programsIn fn = true → id ≤ 7 → imageOk b = true →
    (FMap.get? f.programs id = none ∨ flag c.pkt 17 0 = true) → s.programBusy fn id = false → segmentsFit b = true →
    num b 6 2 ≤ f.cfg.programCores →
    ((s.readBlock c none).setField fn { f with programs := FMap.set f.programs id ⟨b, [], [], []⟩ }).syncPages fn = some u →
    u.atHand fn true (programSpans id b) →
    ∃ (t : State) (g : Field), completed (exec (.programLoad ring dma) s) c 0 0 dma.recordOk t ∧ t.field? fn = some g ∧
      FMap.get? g.programs id = some ⟨b, [], [], []⟩ ∧
      (∀ k, k ≠ id → FMap.get? g.programs k = FMap.get? f.programs k) ∧ g.cfg = f.cfg ∧ g.filters = f.filters ∧
      g.bitmaps = f.bitmaps ∧ t.indexes = s.indexes ∧ s.ringsKept t ∧ s.othersStay t c ∧ t.runs = s.runs ∧
      t.trust.mr = s.trust.mr.set 5 (sha384 (s.trust.mr.getD 5 (zeros 48) ++
        sha384 (eventRecord 0x50 (leBytes 1 fn ++ leBytes 1 id ++ b)))) ∧ t.trust.stakes = s.trust.stakes) ∧
  (∀ (s : State) (ring : Nat) (dma : Dma) (c : Cmd) (f : Field) (p : Program) (x : Shape),
    let fn := ringFn c.ring
    let id := num c.pkt 16 1
    let core := num c.pkt 17 1
    let tile := num c.pkt 18 1
    let code := num c.pkt 19 1
    let spans := tileSpans id core code x tile
    s.field? fn = some f → FMap.get? f.programs id = some p → s.programsIn fn = true → s.programRuns fn id = false →
    id ≤ 7 → core < num p.image 6 2 → shapeOf code = some x → tile < x.count →
    (s.admits 0x3A ring dma c = true → s.takesNext 0x3A ring c → dma.replyOk = true → num c.pkt 24 8 % 64 = 0 →
      x.wire code ≤ num c.pkt 32 4 → s.atHand fn false spans →
      (∀ a ∈ spans, (s.readSpans fn c.runClass replyUnit false spans).spanFault fn a = false) →
      ∃ (t : State) (b : Bytes), completed (exec (.tileRead ring dma) s) c (x.wire code) 0 dma.recordOk t ∧
        hostWrites t.out = .hostWrite fn (BitVec.ofNat 64 (num c.pkt 24 8)) b :: hostWrites s.out ∧
        (∃ g, t.field? fn = some g ∧ g.programs = f.programs) ∧ t.indexes = s.indexes ∧ t.runs = s.runs ∧
        s.ringsKept t ∧ s.othersStay t c ∧
        b.length = x.wire code ∧
        (∀ i, i < x.bytes → b.getD i 0 = Mem.read 0 (FMap.getD p.tiles core []) (tile * x.bytes + i)) ∧
        (code ≤ 3 → ∀ i, i < x.rows * x.cols →
          let v := (Mem.read 0 (FMap.getD p.scales core []) (tile * x.bytes / 4 + i)).toNat
          v < 4 → (∀ k, k < 4 → (Mem.read 0 (FMap.getD p.scales core []) (tile * x.bytes / 4 + i / 4 * 4 + k)).toNat < 4) →
          scaleAt (b.drop x.bytes) i = v)) ∧
    (s.admits 0x3B ring dma c = true → s.takesNext 0x3B ring c → x.wire code ≤ (ctxOf c dma).block.length →
      (s.readBlock c none).atHand fn true spans →
      (code ≤ 3 → ∀ i, i < x.rows * x.cols → scaleAt ((ctxOf c dma).block.drop x.bytes) i ≠ 3) →
      ∃ (t : State) (g : Field) (q : Program), completed (exec (.tileWrite ring dma) s) c 0 0 dma.recordOk t ∧
        t.field? fn = some g ∧ FMap.get? g.programs id = some q ∧ q.image = p.image ∧ q.scratch = p.scratch ∧
        (∀ n, n ≠ core → FMap.getD q.tiles n [] = FMap.getD p.tiles n [] ∧ FMap.getD q.scales n [] = FMap.getD p.scales n []) ∧
        (∀ a, Mem.read 0 (FMap.getD q.tiles core []) a =
          if tile * x.bytes ≤ a ∧ a < (tile + 1) * x.bytes then (ctxOf c dma).block.getD (a - tile * x.bytes) 0
          else Mem.read 0 (FMap.getD p.tiles core []) a) ∧
        (code ≤ 3 → ∀ i, i < x.rows * x.cols →
          (Mem.read 0 (FMap.getD q.scales core []) (tile * x.bytes / 4 + i)).toNat =
            scaleAt ((ctxOf c dma).block.drop x.bytes) i) ∧
        t.indexes = s.indexes ∧ s.ringsKept t ∧ s.othersStay t c ∧ t.runs = s.runs))

/-- R194, R198, R412, R418: a PROGRAM_RUN that passes its checks becomes a run that waits for furrow cores, with its
argument block, and stays outstanding. R364, R415 to R417: a run with its cores reserved starts once no query table is
left on them: each core then has cleared registers, caches and streams, the saved tile file, the constants, the
arguments at their offset, and each thread with an entry point runs from it; no other core changes. R198, R199, R419,
R423, R425, R427, R428: a running run whose slice passes ends with ST_PROGRAM_TIMEOUT: its reply is written, its tile
files are saved, its cores are cleared and free of it, the writes that its streams have issued complete, and its streams
and messages are gone; whether the reply can be written is free (log 28), and where it cannot, the status is ST_DMA_WRITE. R199, R423, R424, R427,
R428: a run all of whose threads have stopped and whose stream writes have completed ends with success, or with
ST_DMA_WRITE where its reply cannot be written, with the OR of its threads' flags, its tile files saved and its cores
cleared. -/
def Obligations.ProgramRuns : Prop :=
  (∀ (s : State) (ring : Nat) (dma : Dma) (c : Cmd) (f : Field) (p : Program), s.admits 0x39 ring dma c = true →
    let fn := ringFn c.ring
    let id := num c.pkt 16 1
    let slice := num c.pkt 20 4
    let args := (ctxOf c dma).block
    let n := num p.image 6 2
    s.field? fn = some f → FMap.get? f.programs id = some p → s.programsIn fn = true → id ≤ 7 → 1 ≤ slice →
    slice ≤ f.cfg.programSliceUs → num c.pkt 24 8 % 64 = 0 →
    64 + 16 * n + n * num p.image 40 4 ≤ num c.pkt 32 4 → args.length ≤ 65536 →
    num p.image 44 4 + args.length ≤ 131072 → n ≤ (s.inService 0).length →
    exec (.programRun ring dma) s = outstanding s { s.readBlock c none with
      runs := FMap.set s.runs s.nextRun ⟨c.ring, c.seq, fn, id, n, [], .waiting, args, slice, 0, false⟩
      nextRun := s.nextRun + 1 } c dma (.run s.nextRun)) ∧
  (∀ (s : State) (run : Nat) (x : Run) (c : Cmd) (f : Field) (p : Program), s.completing = true →
    FMap.get? s.runs run = some x → x.phase = .reserved → (∀ c ∈ x.cores, (s.core c).tables = []) → s.runCmd x = some c →
    s.field? x.field = some f → FMap.get? f.programs x.prog = some p → x.cores.Nodup →
    let spans := startSpans x.prog p.image
    let u := s.readSpans x.field c.runClass replyUnit false spans
    (∀ a ∈ spans, s.spanFault x.field a = false ∧ u.spanFault x.field a = false) → s.retrains x.field spans = false →
    ∃ t : State, exec (.programRunStart run) s = .next t ∧
      FMap.get? t.runs run = some { x with phase := .running, tStart := s.tbk } ∧
      (∀ n core, x.cores[n]? = some core → ∀ th, th < 8 →
        (t.core core).thread th = (if entryOfThread p.image th = 0xFFFF then Thread.reset
          else { Thread.reset with pc := BitVec.ofNat 12 (entryOfThread p.image th), status := .running }) ∧
        (t.core core).cache = [] ∧ (t.core core).slots = [] ∧ (t.core core).sendBuf = [] ∧
        (t.core core).firstTrap = none ∧ (t.core core).run = (s.core core).run ∧
        (t.core core).tile = FMap.getD p.tiles n [] ∧ (t.core core).scale = FMap.getD p.scales n [] ∧
        Mem.readN 0 (t.core core).mem (num p.image 44 4) x.args.length = x.args ∧
        ∀ k, k < 8 → (t.core core).consts.getD k 0 = BitVec.ofNat 32 (num p.image (48 + 4 * k) 4)) ∧
      (∀ core, core ∉ x.cores → t.core core = s.core core) ∧ t.cmds = s.cmds ∧
      (∀ g y, s.field? g = some y → ∃ z, t.field? g = some z ∧ z.cfg = y.cfg ∧ z.filters = y.filters ∧ z.bitmaps = y.bitmaps) ∧
      t.indexes = s.indexes ∧ s.ringsKept t ∧ t.tbk = s.tbk) ∧
  (∀ (s : State) (run : Nat) (x : Run) (c : Cmd) (f : Field) (p : Program), s.completing = true →
    FMap.get? s.runs run = some x → x.phase = .running → s.runCmd x = some c → s.field? x.field = some f →
    FMap.get? f.programs x.prog = some p → x.cores.Nodup →
    ∃ (t : State) (g : Field) (q : Program) (cycles : List Nat) (info : Nat),
      let written := Config.freeBool s.fresh
      exec (.programSliceExpire run) s = .next (t.finish c (if written then 0x0102 else 0x0104) info 0 (s.runFlags x)
        (Config.freeBool (s.fresh + 1))) ∧
      t.tbk = max s.tbk (x.tStart + x.sliceUs * 1000) ∧ cycles.length = x.cores.length ∧
      (written = true → t.out = .hostWrite (ringFn c.ring) (BitVec.ofNat 64 (num c.pkt 24 8))
        ((s.advance (x.tStart + x.sliceUs * 1000)).runReply x p.image none cycles) :: s.out) ∧
      (written = false → t.out = s.out) ∧
      FMap.get? t.runs run = none ∧ t.field? x.field = some g ∧ FMap.get? g.programs x.prog = some q ∧
      q.image = p.image ∧ q.scratch = ((s.streams.filter (fun y => y.2.run == some run)).flatMap
        (fun y => y.2.issued.flatMap (fun w => w.2))).foldl (fun m w => Mem.write 0 m w.1 w.2) p.scratch ∧
      (∀ n core, x.cores[n]? = some core → FMap.get? q.tiles n = some (s.core core).tile ∧
        FMap.get? q.scales n = some (s.core core).scale ∧ (t.core core).threads = [] ∧ (t.core core).mem = [] ∧
        (t.core core).imem = [] ∧ (t.core core).tile = [] ∧ (t.core core).cache = [] ∧ (t.core core).run = none ∧
        (t.core core).tables = (s.core core).tables) ∧
      (∀ core, core ∉ x.cores → t.core core = s.core core) ∧ (∀ y ∈ t.streams, y.2.run ≠ some run) ∧
      (∀ m ∈ t.messages, m.toCore ∉ x.cores) ∧ t.cmds = s.cmds ∧ t.indexes = s.indexes ∧ s.ringsKept t) ∧
  (∀ (s : State) (run : Nat) (cycles : List Nat) (replyOk recordOk : Bool) (x : Run) (c : Cmd) (f : Field) (p : Program),
    s.completing = true → FMap.get? s.runs run = some x → s.runCmd x = some c → s.runOver run x = true →
    s.field? x.field = some f → FMap.get? f.programs x.prog = some p → x.cores.Nodup →
    s.spanLost x.field ⟨none, .tileFile x.prog, 0, 0, x.nCores * 8704⟩ = false →
    s.retrains x.field [⟨none, .tileFile x.prog, 0, 0, x.nCores * 8704⟩] = false →
    ∃ (t : State) (g : Field) (q : Program) (info : Nat),
      exec (.programRunEnd run cycles replyOk recordOk) s =
        .next (t.finish c (if replyOk then 0 else 0x0104) info 0 (s.runFlags x) recordOk) ∧
      (replyOk = true → t.out = .hostWrite (ringFn c.ring) (BitVec.ofNat 64 (num c.pkt 24 8))
        (s.runReply x p.image none cycles) :: s.out) ∧ (replyOk = false → t.out = s.out) ∧
      FMap.get? t.runs run = none ∧ t.field? x.field = some g ∧ FMap.get? g.programs x.prog = some q ∧
      (∀ n core, x.cores[n]? = some core → FMap.get? q.tiles n = some (s.core core).tile ∧
        FMap.get? q.scales n = some (s.core core).scale ∧ (t.core core).threads = [] ∧ (t.core core).mem = [] ∧
        (t.core core).imem = [] ∧ (t.core core).run = none) ∧
      (∀ core, core ∉ x.cores → t.core core = { s.core core with cache := (t.core core).cache }) ∧ t.cmds = s.cmds ∧ t.indexes = s.indexes ∧ t.tbk = s.tbk)

/-- R430, R432, R433, R434, Table 8.3: the six address-program instructions of a running stream. Each changes only its
stream, and of that only the program's registers, its sequence and, once the sequence is known, its end: END closes
the sequence; SETB and ADDS write the one address register named; EMIT appends its elements and moves its register
behind them, ends the sequence at a misaligned address, and makes a sequence that the buffer cannot hold malformed; DO opens a
level with its count or passes over a block counted 0; LOOP goes back behind its DO until the count is 0. -/
def Obligations.AddressPrograms : Prop :=
  ∀ (s : State) (n : Nat) (x : Stream) (r : Run), s.streamRun n = some (x, r) → s.completing = true →
    x.phase = .running → descForm x.desc = 0 → x.desc ≠ [] → x.prog.done = false → x.prog.x.length = 4 →
    x.prog.loops.length = 4 →
    let p := x.prog
    let d := x.desc
    let w := p.word d
    let e := descElem d
    let a := (p.reg (apX w)).toNat
    let goes := fun (i : Instr) (q : AddrProg → Prop) => ∃ y : Stream, exec i s = .next (s.setStream n y) ∧ q y.prog ∧
      y = { x with prog := y.prog, phase := y.phase } ∧ (y.prog.done = false → y.phase = .running) ∧
      (y.prog.done = true → y.tiles ≤ x.tile → y.phase = .ended (if y.prog.misaligned then 2 else 0))
    (apOp w = 0 → goes (.apEnd n) (fun q => q.done = true ∧ q.emitted = p.emitted ∧ q.misaligned = p.misaligned)) ∧
    (apOp w = 1 → goes (.apSetb n) (fun q => q.reg (apX w) = descBase d (apB w) ∧
      (∀ k, k ≠ apX w → q.reg k = p.reg k) ∧ q.pc = p.pc + 1 ∧ q.emitted = p.emitted ∧ q.loops = p.loops ∧ q.done = false)) ∧
    (apOp w = 2 → goes (.apAdds n) (fun q => q.reg (apX w) = p.reg (apX w) + descStride d (apS w) ∧
      (∀ k, k ≠ apX w → q.reg k = p.reg k) ∧ q.pc = p.pc + 1 ∧ q.emitted = p.emitted ∧ q.loops = p.loops ∧ q.done = false)) ∧
    (apOp w = 3 → a % e = 0 → p.bytes e + apN w * e ≤ descBufSize d →
      goes (.apEmit n) (fun q => q.emitted = p.emitted ++ [(a, apN w)] ∧
        q.reg (apX w) = p.reg (apX w) + BitVec.ofNat 48 (apN w * e) ∧ (∀ k, k ≠ apX w → q.reg k = p.reg k) ∧
        q.pc = p.pc + 1 ∧ q.bytes e = p.bytes e + apN w * e ∧ q.done = false)) ∧
    (apOp w = 3 → a % e ≠ 0 → goes (.apEmit n) (fun q => q.done = true ∧ q.misaligned = true ∧ q.emitted = p.emitted)) ∧
    (apOp w = 3 → a % e = 0 → descBufSize d < p.bytes e + apN w * e →
      exec (.apEmit n) s = .next (s.setStream n { x with phase := .ended 2 })) ∧
    (apOp w = 4 → descCount d (apB w) ≠ 0 → goes (.apDo n) (fun q => q.loops.getD (apX w) 0 = descCount d (apB w) ∧
      q.openLevels = (apX w, p.pc + 1) :: p.openLevels ∧ q.pc = p.pc + 1 ∧ q.x = p.x ∧ q.emitted = p.emitted)) ∧
    (apOp w = 4 → descCount d (apB w) = 0 → goes (.apDo n) (fun q => q.pc = loopEnd d (apX w) 16 (p.pc + 1) ∧
      q.openLevels = p.openLevels ∧ q.x = p.x ∧ q.emitted = p.emitted)) ∧
    (apOp w = 5 → ∀ b, p.openLevels.head? = some (apX w, b) →
      goes (.apLoop n) (fun q => q.loops.getD (apX w) 0 = p.loops.getD (apX w) 0 - 1 ∧ q.x = p.x ∧ q.emitted = p.emitted ∧
        (p.loops.getD (apX w) 0 ≠ 1 → q.pc = b ∧ q.openLevels = p.openLevels) ∧
        (p.loops.getD (apX w) 0 = 1 → q.pc = p.pc + 1 ∧ ∀ l ∈ q.openLevels, l.1 ≠ apX w)))

/-- R437 to R441, R420: a stream whose sequence is known asks for its oldest tile and, reading, for the four behind
it, and for nothing else; a tile with a page that is not resident is not asked for, and one with an address that is not
permitted traps the thread once it is the oldest. R382, R432, R437, R438: a
requested tile of a read stream whose lines have all come lands in the consumer's buffer, at its place in the
sequence, and in no other byte of local memory; the tile counts as consumed. A tile of a write stream waits while a
line that it writes is invalidated; else it is written and counts as consumed. -/
def Obligations.StreamTiles : Prop :=
  (∀ (s : State) (n : Nat) (x : Stream) (r : Run), s.streamRun n = some (x, r) → s.completing = true → x.ready = true →
    s.pieceLost x (s.tilePieces x r x.tile) = false →
    ∃ t : State, exec (.streamTileRequest n) s = .next t ∧ t.indexes = s.indexes ∧ s.ringsKept t ∧ t.trust = s.trust ∧
      (∀ y, FMap.get? t.streams n = some y → y.delivered = x.delivered ∧ y.tile = x.tile ∧
        (∀ k ∈ y.requested, k ∈ x.requested ∨ (x.tile ≤ k ∧ k ≤ x.tile + 4 ∧ k < x.tiles)) ∧
        (descDir x.desc = 1 → ∀ k ∈ y.requested, k ∈ x.requested ∨ k = x.tile) ∧
        ∀ k ∈ y.requested, k ∈ x.requested ∨ awayPage (s.tilePieces x r k) = none) ∧
      (x.tile ∈ x.window → x.tile ∉ x.requested → x.roomFor x.tile = true →
        (s.tilePieces x r x.tile).all (fun p => p.permitted r) = false →
        t = (s.trapThread x.core x.thread 5).setStream n { x with phase := .ended 2 }) ∧
      ((∀ k ∈ x.window, x.roomFor k = true ∧ (s.tilePieces x r k).all (fun p => p.permitted r) = true ∧
          awayPage (s.tilePieces x r k) = none ∧ s.pieceLost x (s.tilePieces x r k) = false) →
        t.cores = s.cores ∧ t.cmds = s.cmds ∧ t.runs = s.runs ∧
        ∃ y, FMap.get? t.streams n = some y ∧ y.phase = .running ∧ ∀ k ∈ x.window, k ∈ y.requested)) ∧
  (∀ (s : State) (n tile : Nat) (x : Stream) (r : Run), s.streamRun n = some (x, r) →
    s.completing = true → x.ready = true → tile ∈ x.requested → tile ∉ x.delivered → s.tileWaits n tile = false →
    s.pieceLost x (s.tilePieces x r tile) = false →
    let b := s.tileData x r tile
    let place := descPlace x.desc (4096 * tile)
    let ws := FMap.getD x.issued tile []
    (descDir x.desc = 0 → ∃ (t : State) (y : Stream), exec (.streamTileDeliver n tile) s = .next t ∧
      FMap.get? t.streams n = some y ∧ y.delivered = tile :: x.delivered ∧ y.desc = x.desc ∧ y.prog = x.prog ∧
      (∀ i, i < b.length → Mem.read 0 (t.core x.core).mem (place + i) = b.getD i 0) ∧
      (∀ a, a < place ∨ place + b.length ≤ a →
        Mem.read 0 (t.core x.core).mem a = Mem.read 0 (s.core x.core).mem a) ∧
      (t.core x.core).threads = (s.core x.core).threads ∧ (t.core x.core).tile = (s.core x.core).tile ∧
      (∀ k, k ≠ x.core → t.core k = s.core k) ∧ t.fields = s.fields ∧ t.granary = s.granary ∧ t.indexes = s.indexes ∧
      t.cmds = s.cmds ∧ t.runs = s.runs) ∧
    b.length = (x.tileSpan tile).2 - (x.tileSpan tile).1 ∧
    (num x.desc 9 1 = 0 → place = descBuf x.desc + 4096 * tile) ∧
    (descDir x.desc ≠ 0 → s.writeHeld r ws = true → exec (.streamTileDeliver n tile) s = .next s) ∧
    (descDir x.desc ≠ 0 → s.writeHeld r ws = false →
      ∃ (t : State) (y : Stream), exec (.streamTileDeliver n tile) s = .next t ∧ FMap.get? t.streams n = some y ∧
        y.delivered = tile :: x.delivered ∧ (∀ k, t.core k = { s.core k with cache := (t.core k).cache }) ∧ t.indexes = s.indexes ∧ t.cmds = s.cmds ∧ t.runs = s.runs))

/-- R476, R479, R422: a stream whose oldest unconsumed tile touches a page that is not resident halts on the first
such page; its run carries PAGED and its context is saved. R478: once the page is resident, every program stream
halted on it runs again, with what was delivered, and asks for nothing that was delivered. R477, R481: the page of the
earliest fault, or of the page-in that waits for a frame, is brought into a frame of its field; where host memory cannot be read, the failure is logged and every
command that waits for the page has ended. -/
def Obligations.HaltedStreams : Prop :=
  ((∀ (s : State) (n id : Nat) (x : Stream) (r : Run) (p : Piece) (q : Page), s.streamRun n = some (x, r) →
    s.completing = true → x.ready = true → x.tile < x.tiles → x.run = some id →
    (s.tilePieces x r x.tile).find? (fun p => p.permitted r && p.page.any (fun q => !q.inGddr)) = some p →
    p.page = some q →
    ∃ (t : State) (y : Stream), exec (.streamHalt n) s = .next t ∧ FMap.get? t.streams n = some y ∧
      y.phase = .halted q.num ∧ y.faultTime = s.tbk ∧ y.context.length = 64 ∧ y.delivered = x.delivered ∧ y.desc = x.desc ∧
      (∀ k, k ≠ n → FMap.get? t.streams k = FMap.get? s.streams k) ∧
      FMap.get? t.runs id = some { r with paged := true } ∧ t.cores = s.cores ∧ t.fields = s.fields ∧
      t.indexes = s.indexes ∧ t.cmds = s.cmds) ∧
  ∀ (s : State) (field page n : Nat) (g : Field) (x : Stream), s.completing = true → s.field? field = some g →
    (∃ q ∈ g.pages, q.num = page ∧ q.inGddr = true) → s.streams.filter (fun e => e.1 == n) = [(n, x)] →
    ∃ t : State, exec (.streamResume field page) s = .next t ∧ t.cores = s.cores ∧ t.fields = s.fields ∧
      t.indexes = s.indexes ∧ t.cmds = s.cmds ∧ t.runs = s.runs ∧
      (x.waitsFor field page = false → FMap.get? t.streams n = some x) ∧
      (x.waitsFor field page = true → x.reader = .program → x.desc ≠ [] →
        FMap.get? t.streams n = some { x with phase := .running, requested := x.delivered }) ∧
      (x.waitsFor field page = true → x.reader = .program → x.desc = [] → FMap.get? t.streams n = none) ∧
      (x.waitsFor field page = true → x.reader ≠ .program →
        FMap.get? t.streams n = some { x with phase := .resumed page })) ∧
  (∀ (s t : State) (field k : Nat) (p : Page) (passed : List Nat), s.completing = true →
    s.pageInDue field = some (p, passed) → s.hashBlocked field = false → s.bringIn field p passed k true = .done t →
    exec (.pageIn field true k) s = .next t ∧
    (∃ (g : Field) (q : Page), t.field? field = some g ∧ q ∈ g.pages ∧ q.num = p.num ∧ q.inGddr = true ∧ q.changed = false) ∧
    t.cmds = s.cmds ∧ t.streams = s.streams ∧ t.indexes = s.indexes ∧
    ∃ u : State, exec (.pageIn field false k) s = .next u ∧
      ∀ c ∈ s.cmds, c.stopped.isNone = true → s.waitsForPage field p.num c = true →
        ∀ e ∈ u.cmds, ¬ (e.ring = c.ring ∧ e.seq = c.seq))

/-- Table 9.5, R532 to R534: an acknowledgement of an invalidation drops the line from the core's read cache. While
other sharers remain the line waits on; with the last one an eviction ends and the line is gone, and a write that was
held back is applied to the scratch area, its line then owned by no one. R348, R349: the adds of one cycle to a
location of a slice change only that location's sum, which takes them in ascending requester number, each rounded and
saturated; the order in which they are listed does not matter. R62, R344, R345, R347: the record of the next
run is added to its total at its scale level, with its flags, and changes only that total; one that comes early waits
for those before it, so the order in which records come changes neither value nor flags. -/
def Obligations.GranaryLines : Prop :=
  (∀ (s : State) (slice channel line core : Nat) (l : Line), slice < 32 → channel < 16 → core < 128 → s.up = true →
    s.lineOf channel line = some l → l.slice = slice → l.dir = .W → core ∈ l.sharers →
    ∃ t : State, exec (.invalidationAck slice channel line core) s = .next t ∧
      (∀ e ∈ (t.core core).cache, e.1 ≠ lineKey channel line) ∧ (∀ k, k ≠ core → t.core k = s.core k) ∧
      t.indexes = s.indexes ∧ t.cmds = s.cmds ∧ t.streams = s.streams ∧
      ((∃ k ∈ l.sharers, k ≠ core) →
        t.lineOf channel line = some { l with sharers := l.sharers.filter (fun k => k != core) } ∧ t.fields = s.fields) ∧
      ((∀ k ∈ l.sharers, k = core) → l.pend = none → t.lineOf channel line = none) ∧
      (∀ prog a b f q, (∀ k ∈ l.sharers, k = core) → l.pend = some (prog, a, b) → s.field? l.field = some f →
        (∀ g ∈ s.granary, g.pend ≠ none → g.dir = .W ∧ ∀ h ∈ s.granary, h.at_ (g.channel, g.j) = true → h = g) →
        FMap.get? f.programs prog = some q →
        ∃ (m : Line) (g : Field) (q' : Program), t.lineOf channel line = some m ∧ m.dir = .U ∧ m.sharers = [] ∧
          m.dirty = true ∧ m.pend = none ∧ t.field? l.field = some g ∧ FMap.get? g.programs prog = some q' ∧
          Mem.readN 0 q'.scratch a b.length = b)) ∧
  ((∀ (s : State) (slice location : Nat) (adds : List (Nat × BitVec 32)), slice < 32 → s.up = true →
    ∃ t : State, exec (.modeAAdd slice location adds) s = .next t ∧ s = { t with modeA := s.modeA } ∧
      (∀ k, k ≠ location * 32 + slice → FMap.getD t.modeA k (0, 0) = FMap.getD s.modeA k (0, 0)) ∧
      (∀ v n, adds = [(n, v)] → FMap.get? t.modeA (location * 32 + slice) =
        some (modeAStep (FMap.getD s.modeA (location * 32 + slice) (0, 0)) v)) ∧
      (∀ rest n v, adds = (n, v) :: rest → (∀ a ∈ rest, n < a.1) →
        FMap.get? t.modeA (location * 32 + slice) =
          some (modeAAll (modeAStep (FMap.getD s.modeA (location * 32 + slice) (0, 0)) v) rest)) ∧
      ∀ other, adds.Perm other → (adds.map (fun a => a.1)).Nodup → exec (.modeAAdd slice location other) s = .next t) ∧
  ∀ (s : State) (total : Nat) (shape : SplitShape) (contributor level fl : Nat) (v : BitVec 32), s.up = true →
    shape.ok = true → level ≤ 2 → fl < 32 →
    let x := s.sumOf total shape
    let b := leBytes 4 v.toNat ++ leBytes 1 level ++ leBytes 1 fl ++ zeros 2
    let q := roundFmt fF64 (fadd x.w (fscale (fp32 v) (64 * (level : Int))))
    x.shape = shape → contributor < shape.contributors →
    (∀ run, run < shape.runs → x.runs ≤ run → x.inOrder contributor run = true → FMap.get? x.waiting run = none →
      ∃ (t : State) (c : Combine), exec (.modeDPartial total shape contributor run (.record b)) s = .next t ∧
        s = { t with modeD := s.modeD } ∧ (∀ k, k ≠ total → FMap.get? t.modeD k = FMap.get? s.modeD k) ∧
        FMap.get? t.modeD total = some c ∧
        (run ≠ x.runs → FMap.get? x.waiting x.runs = none → c = { x with
          waiting := FMap.set x.waiting run (.whole v level (partialFlags fl)), owners := (run, contributor) :: x.owners }) ∧
        (run = x.runs → FMap.get? x.waiting (run + 1) = none → c.w = q.v ∧ c.runs = x.runs + 1 ∧
          c.fl = x.fl ||| partialFlags fl ||| flIf q.ix flIX)) ∧
    ∀ (other level' fl' : Nat) (v' : BitVec 32), level' ≤ 2 → fl' < 32 → contributor ≤ other → other < shape.contributors →
      x.runs + 1 < shape.runs → x.inOrder contributor x.runs = true → x.inOrder other (x.runs + 1) = true →
      (∀ k, k < 3 → FMap.get? x.waiting (x.runs + k) = none) →
      let first : Instr := .modeDPartial total shape contributor x.runs (.record b)
      let second : Instr := .modeDPartial total shape other (x.runs + 1)
        (.record (leBytes 4 v'.toNat ++ leBytes 1 level' ++ leBytes 1 fl' ++ zeros 2))
      ∃ (t u t' u' : State) (c d : Combine), exec first s = .next t ∧ exec second t = .next u ∧
        exec second s = .next t' ∧ exec first t' = .next u' ∧ FMap.get? u.modeD total = some c ∧
        FMap.get? u'.modeD total = some d ∧ c.w = d.w ∧ c.fl = d.fl ∧ c.runs = x.runs + 2 ∧ d.runs = x.runs + 2)

/-- R399, Table 7.4 class 1: a scalar instruction of format R writes its result to `d` and changes nothing else of its
thread; MOVI writes `imm17` zero-extended, ADDI adds it sign-extended. A shift by 64 or more writes the value that the
manual leaves open (log 15). R405, Table 7.1: CMP sets the condition codes so that the conditions of BRC say how `s1`
compares with `s2`: equal or not, signed less or not, unsigned less or not, signed greater or not; it changes nothing
else of its thread. -/
def Obligations.ScalarInstructions : Prop :=
  (∀ (s : State) (core thread : Nat) (x : Slot3), x.t.shaped →
    let a := x.t.reg (wS1 x.w)
    let b := x.t.reg (wS2 x.w)
    let old := x.t.reg (wD x.w)
    ∀ p ∈ ([(0x00, .add core thread, a + b), (0x01, .sub core thread, a - b), (0x02, .and core thread, a &&& b),
      (0x03, .or core thread, a ||| b), (0x04, .xor core thread, a ^^^ b),
      (0x05, .shl core thread, if b.toNat < 64 then a <<< b.toNat else Config.longShift 5 a b),
      (0x06, .shr core thread, if b.toNat < 64 then a >>> b.toNat else Config.longShift 6 a b),
      (0x07, .sar core thread, if b.toNat < 64 then a.sshiftRight b.toNat else Config.longShift 7 a b),
      (0x08, .mul core thread, a * b), (0x0A, .mov core thread, a),
      (0x20, .movi core thread, (x.w.truncate 17).zeroExtend 64),
      (0x21, .addi core thread, old + (x.w.truncate 17).signExtend 64)] : List (Nat × Instr × BitVec 64)),
    s.issues 1 p.1 core thread x →
      ∃ y : Thread, exec p.2.1 s = .next (s.setThread core thread y) ∧ y.reg (wD x.w) = p.2.2 ∧ x.t.onlyReg y (wD x.w)) ∧
  (∀ (s : State) (core thread : Nat) (x : Slot3), s.issues 1 0x09 core thread x →
    let a := x.t.reg (wS1 x.w)
    let b := x.t.reg (wS2 x.w)
    ∃ y : Thread, exec (.cmp core thread) s = .next (s.setThread core thread y) ∧ x.t.goesOn y ∧ y.r = x.t.r ∧
      y.v = x.t.v ∧ y.vacc = x.t.vacc ∧ y.flags = x.t.flags ∧ condition 0 y.cc = true ∧
      condition 1 y.cc = (a == b) ∧ condition 2 y.cc = (a != b) ∧ condition 3 y.cc = a.slt b ∧
      condition 4 y.cc = !(a.slt b) ∧ condition 5 y.cc = a.ult b ∧ condition 6 y.cc = !(a.ult b) ∧
      condition 7 y.cc = b.slt a ∧ condition 8 y.cc = !(b.slt a) ∧ ∀ n, 9 ≤ n → condition n y.cc = false)

/-- R371, R373, R374: behind a word that ends no active repeat execution goes to the next word; behind the last word
of the innermost repeat it goes back to its first word, with the count lowered, while the count runs; with the last
pass the level ends and the level around it decides. A branch ends the levels whose block does not hold its target,
with those inside them. R371 to R376, R398, R399, R405, R416, R424: the control instructions. HALT stops its thread;
NOP and a branch not taken go on; BR and a taken BRC branch; CALL and RET move through the return stack, CALL trapping
on a full and RET on an empty one; a REP opens a level or, counted 0, passes over its block, and traps where four are
active; BREAK goes on behind the innermost level; TIME, SELF and FLAGS_RD write a D register; FLAGS_CLR clears FLAGS.
R369, R424, Table 7.8: a trap stops only the trapping thread, at its instruction, and the core keeps its first one; no
register, memory or other thread changes. -/
def Obligations.ControlInstructions : Prop :=
  ((∀ pc : BitVec 12, afterWord pc [] = (pc + 1, [])) ∧
  (∀ (pc : BitVec 12) (l : Level) (rest : List Level),
    (l.last ≠ pc → afterWord pc (l :: rest) = (pc + 1, l :: rest)) ∧
    (l.last = pc → 2 ≤ l.count.toNat → afterWord pc (l :: rest) = (l.start, { l with count := l.count - 1 } :: rest)) ∧
    (l.last = pc → l.count.toNat < 2 → afterWord pc (l :: rest) = afterWord pc rest)) ∧
  (∀ (t : Thread) (active : List Level), let r := afterWord t.pc t.active
    t.advance = { t with pc := r.1, levels := r.2 ++ t.outer } ∧
    (t.levels = [] → t.advance = { t with pc := t.pc + 1 }) ∧
    ∀ target : BitVec 12, (t.branch target).pc = target ∧
      (t.active = active ++ t.active.drop active.length → ∀ l ∈ active.getLast?, l.holds target = false →
        (t.branch target).levels.length ≤ t.levels.length - active.length) ∧
      ((∀ l ∈ t.active, l.holds target = true) → (t.branch target).levels = t.active ++ t.outer))) ∧
  (∀ (s : State) (core thread : Nat) (x : Slot3), x.t.shaped →
    let t := x.t
    let w := x.w
    let d := wA6 w % 16
    let goes := fun (i : Instr) (y : Thread) => exec i s = .next (s.setThread core thread y)
    let traps := fun (i : Instr) (n : Nat) => exec i s = .next (s.trapThread core thread n)
    (s.issues 0 0x00 core thread x → goes (.halt core thread) { t with status := .halted }) ∧
    (s.issues 0 0x01 core thread x → goes (.coreNop core thread) t.advance) ∧
    (s.issues 0 0x02 core thread x → goes (.br core thread) (t.branch (w.truncate 12))) ∧
    (s.issues 0 0x03 core thread x → condition d t.cc = true → goes (.brc core thread) (t.branch (w.truncate 12))) ∧
    (s.issues 0 0x03 core thread x → condition d t.cc = false → goes (.brc core thread) t.advance) ∧
    (s.issues 0 0x04 core thread x → t.rs.length < 8 → goes (.call core thread)
      { t with pc := w.truncate 12, rs := ⟨t.pc + 1, t.levels.length⟩ :: t.rs }) ∧
    (s.issues 0 0x04 core thread x → 8 ≤ t.rs.length → traps (.call core thread) 7) ∧
    (∀ e rest, s.issues 0 0x05 core thread x → t.rs = e :: rest → goes (.ret core thread)
      { t with pc := e.addr, rs := rest, levels := t.levels.drop (t.levels.length - e.levels) }) ∧
    (s.issues 0 0x05 core thread x → t.rs = [] → traps (.ret core thread) 8) ∧
    (∀ i op last count, (i, op, last, count) ∈ ([(.repI core thread, 0x10, t.pc + BitVec.ofNat 12 (wA6 w + 1), w.truncate 16),
        (.repD core thread, 0x11, w.truncate 12, (t.reg d).truncate 16)] : List (Instr × Nat × BitVec 12 × BitVec 16)) →
      s.issues 0 op core thread x →
      (4 ≤ t.levels.length → traps i 4) ∧
      (t.levels.length < 4 → count = 0 → goes i (t.behind last t.active)) ∧
      (t.levels.length < 4 → count ≠ 0 → ∃ buffered, goes i
        { t with pc := t.pc + 1, levels := ⟨count, t.pc + 1, last, buffered⟩ :: t.levels } ∧
        (buffered = 0 ∨ buffered = (last - t.pc).toNat))) ∧
    (s.issues 0 0x12 core thread x → t.active = [] → goes (.breakLevel core thread) t.advance) ∧
    (∀ l rest, s.issues 0 0x12 core thread x → t.active = l :: rest →
      goes (.breakLevel core thread) (t.behind l.last rest)) ∧
    (∀ i op v, (i, op, v) ∈ ([(.time core thread, 0x20, BitVec.ofNat 64 s.tbk),
        (.selfId core thread, 0x21, Config.selfPack x.c.logical thread),
        (.flagsRd core thread, 0x22, t.flags.zeroExtend 64)] : List (Instr × Nat × BitVec 64)) →
      s.issues 0 op core thread x → ∃ y : Thread, goes i y ∧ y.reg d = v ∧ t.onlyReg y d) ∧
    (s.issues 0 0x23 core thread x → goes (.flagsClr core thread) { t.advance with flags := 0 })) ∧
  (∀ (s : State) (core thread cause : Nat),
    let t := s.trapThread core thread cause
    (t.core core).thread thread = { (s.core core).thread thread with
      status := .trapped cause ((s.core core).thread thread).pc } ∧
    (∀ k, k ≠ thread → (t.core core).thread k = (s.core core).thread k) ∧
    ((s.core core).firstTrap = none →
      (t.core core).firstTrap = some (thread, cause, ((s.core core).thread thread).pc)) ∧
    (∀ f, (s.core core).firstTrap = some f → (t.core core).firstTrap = some f) ∧
    (t.core core).mem = (s.core core).mem ∧ (t.core core).tile = (s.core core).tile ∧
    (∀ k, k ≠ core → t.core k = s.core k) ∧ s = { t with cores := s.cores })

/-- R389, R313, R316, R398: VADD, VSUB and VMUL round each lane of their exact result once and saturate it; VMAX and
VMIN take the greater and the lesser lane. Only V[`d`] and FLAGS change, FLAGS keeping what it held. VSEL takes each
lane from one of its sources. A lane with an infinity or a NaN is open (log 20). R390, R391, R320, R339: VCVT converts
each lane from its source to its destination format; VRED sums the lanes by the group tree, at the place in V[`d`]
that the manual leaves open (log 72); VSBAC takes each lane through the SBAC steps with parameters whose places are
open (log 18). Only V[`d`] and FLAGS change. -/
def Obligations.VectorInstructions : Prop :=
  (∀ (s : State) (core thread : Nat) (x : Slot3), x.t.shaped →
    let a := x.t.vreg (wS1 x.w)
    let b := x.t.vreg (wS2 x.w)
    let rounds := fun (v : Fv) => toFp32 (satFmt fFP32 v).1
    (∀ p ∈ ([(0x00, .vadd core thread, fun u v => rounds (fadd u v)), (0x01, .vsub core thread, fun u v => rounds (fadd u (fneg v))),
        (0x02, .vmul core thread, fun u v => rounds (fmul u v))] : List (Nat × Instr × (Fv → Fv → BitVec 32))),
      s.issues 2 p.1 core thread x →
      ∃ y : Thread, exec p.2.1 s = .next (s.setThread core thread y) ∧ x.t.onlyVec y (wD x.w % 16) ∧
        y.flags &&& x.t.flags = x.t.flags ∧
        ∀ n, n < 16 → special32 (lane a n) = false → special32 (lane b n) = false →
          lane (y.vreg (wD x.w)) n = p.2.2 (fp32 (lane a n)) (fp32 (lane b n))) ∧
    (∀ p ∈ ([(0x03, .vmax core thread, fun u v => fltb u v), (0x04, .vmin core thread, fun u v => fltb v u)] :
        List (Nat × Instr × (Fv → Fv → Bool))),
      s.issues 2 p.1 core thread x →
      ∃ y : Thread, exec p.2.1 s = .next (s.setThread core thread y) ∧ x.t.onlyVec y (wD x.w % 16) ∧
        ∀ n, n < 16 → special32 (lane a n) = false → special32 (lane b n) = false →
          (p.2.2 (fp32 (lane a n)) (fp32 (lane b n)) = true → lane (y.vreg (wD x.w)) n = lane b n) ∧
          (p.2.2 (fp32 (lane b n)) (fp32 (lane a n)) = true → p.2.2 (fp32 (lane a n)) (fp32 (lane b n)) = false →
            lane (y.vreg (wD x.w)) n = lane a n) ∧
          (lane (y.vreg (wD x.w)) n = lane a n ∨ lane (y.vreg (wD x.w)) n = lane b n)) ∧
    (s.issues 2 0x05 core thread x →
      ∃ y : Thread, exec (.vsel core thread) s = .next (s.setThread core thread y) ∧ x.t.onlyVec y (wD x.w % 16) ∧
        y.flags = x.t.flags ∧
        ∀ n, n < 16 → lane (y.vreg (wD x.w)) n = lane a n ∨ lane (y.vreg (wD x.w)) n = lane b n)) ∧
  (∀ (s : State) (core thread : Nat) (x : Slot3), x.t.shaped →
    let a := x.t.vreg (wS1 x.w)
    let src := wX7 x.w % 8
    let dst := wX7 x.w / 8 % 8
    (s.issues 2 0x08 core thread x → cvtOk (wX7 x.w) = true →
      ∃ y : Thread, exec (.vcvt core thread) s = .next (s.setThread core thread y) ∧ x.t.onlyVec y (wD x.w % 16) ∧
        y.flags &&& x.t.flags = x.t.flags ∧
        ∀ n, n < 16 → num (vecBytes (y.vreg (wD x.w))) (n * cvtBytes dst) (cvtBytes dst) =
          (cvtLane src dst (num (vecBytes a) (n * cvtBytes src) (cvtBytes src))).1 % 2 ^ (8 * cvtBytes dst)) ∧
    (s.issues 2 0x06 core thread x → (∀ n, n < 16 → special32 (lane a n) = false) →
      ∃ y : Thread, exec (.vred core thread) s = .next (s.setThread core thread y) ∧ x.t.onlyVec y (wD x.w % 16) ∧
        y.vreg (wD x.w) = Config.vredPlace (x.t.vreg (wD x.w)) (toFp32 (reduceLanes x.c.group (lanes a)).1) ∧
        y.flags = x.t.flags ||| (reduceLanes x.c.group (lanes a)).2) ∧
    (s.issues 2 0x09 core thread x →
      let c := sbacOf (x.t.vreg (wS2 x.w)) (wX7 x.w)
      ∃ y : Thread, exec (.vsbac core thread) s = .next (s.setThread core thread y) ∧ x.t.onlyVec y (wD x.w % 16) ∧
        ∀ n, n < 16 → special32 (lane a n) = false → special32 c.scale = false → special32 c.bias = false →
          lane (y.vreg (wD x.w)) n = toFp32 (sbacStage c (fp32 (lane a n))).1))

/-- R333 to R336, R397: DIV and RSQ leave in the low half of `d` the rounded quotient and the reciprocal norm, with
the results of R336 for zeros and negative operands; DSTEP and SQSTEP take one step of the recurrences, whose
registers are packed as the manual leaves open (log 16). Only `d` and FLAGS change. -/
def Obligations.DivisionInstructions : Prop :=
  ∀ (s : State) (core thread : Nat) (x : Slot3), x.t.shaped →
    let a : BitVec 32 := (x.t.reg (wS1 x.w)).truncate 32
    let b : BitVec 32 := (x.t.reg (wS2 x.w)).truncate 32
    let u := fp32 a
    let v := fp32 b
    let only := fun (y : Thread) => x.t.goesOn y ∧ x.t.keepsRegs y (fun n => n = wD x.w) ∧ y.v = x.t.v ∧
      y.vacc = x.t.vacc ∧ y.cc = x.t.cc
    (s.issues 7 0x02 core thread x → special32 a = false → special32 b = false →
      ∃ y : Thread, exec (.div core thread) s = .next (s.setThread core thread y) ∧ only y ∧
        let r : BitVec 32 := (y.reg (wD x.w)).truncate 32
        (v.m ≠ 0 → u.m ≠ 0 → r = toFp32 (satFmt fFP32 (quotient u v)).1) ∧
        (v.m ≠ 0 → u.m = 0 → r = toFp32 ⟨u.neg != v.neg, 0, 0⟩) ∧
        (v.m = 0 → u.m = 0 → r = 0 ∧ y.flags &&& flIV = flIV) ∧
        (v.m = 0 → u.m ≠ 0 → r = toFp32 (fFP32.largest u.neg) ∧ y.flags &&& (flIV ||| flDSAT) = flIV ||| flDSAT)) ∧
    (s.issues 7 0x03 core thread x → special32 a = false →
      ∃ y : Thread, exec (.rsq core thread) s = .next (s.setThread core thread y) ∧ only y ∧
        let r : BitVec 32 := (y.reg (wD x.w)).truncate 32
        (u.m = 0 → r = toFp32 (fFP32.largest false) ∧ y.flags &&& (flIV ||| flDSAT) = flIV ||| flDSAT) ∧
        (u.m ≠ 0 → u.neg = true → r = 0 ∧ y.flags &&& flIV = flIV) ∧
        (u.m ≠ 0 → u.neg = false → r = toFp32 (reciprocalNorm u).1)) ∧
    (s.issues 7 0x00 core thread x →
      let p := Config.dstepUnpack (x.t.reg (wS1 x.w)) (x.t.reg (wS2 x.w))
      ∃ y : Thread, exec (.dstep core thread) s = .next (s.setThread core thread y) ∧ x.t.onlyReg y (wD x.w) ∧
        (p.2 ≤ p.1 → y.reg (wD x.w) = Config.dstepPack (BitVec.ofNat 64 (2 * (p.1 - p.2))) true) ∧
        (p.1 < p.2 → y.reg (wD x.w) = Config.dstepPack (BitVec.ofNat 64 (2 * p.1)) false)) ∧
    (s.issues 7 0x01 core thread x →
      let p := Config.sqstepUnpack (x.t.reg (wS1 x.w)) (x.t.reg (wS2 x.w))
      ∃ y : Thread, exec (.sqstep core thread) s = .next (s.setThread core thread y) ∧ x.t.onlyReg y (wD x.w) ∧
        (4 * p.2 + 1 ≤ 4 * p.1 → y.reg (wD x.w) = Config.sqstepPack (4 * p.1 - (4 * p.2 + 1)) (2 * p.2 + 1)) ∧
        (4 * p.1 < 4 * p.2 + 1 → y.reg (wD x.w) = Config.sqstepPack (4 * p.1) (2 * p.2)))

/-- R366 to R368, Table 7.4: an aligned LD loads its bytes into the low end of `d`, an aligned LDV into the low end of
V[`d`]; then the address register is modified as `pm` says. Local memory and the rest of the thread do not change; a
misaligned access traps with cause 1. What lies above the bytes loaded is open (log 72). R343, R366 to R368, R396,
Table 7.4: an aligned ST, STV, STA16 or STA32 writes its bytes at the address in its address register and no other
byte of local memory, then modifies that register: ST the low bytes of `d`, STV those of V[`d`], STA16 and STA32 the
16 accumulator lanes rounded at shift h and clamped, with DSAT where one was clamped or had saturated and IX where one
was rounded or clamped to another value (R315, Table 6.4). Bytes that ST stores beyond its 8-byte register are open
(log 72). -/
def Obligations.LocalMemory : Prop :=
  (∀ (s : State) (core thread : Nat) (x : Slot3), x.t.shaped →
    let a := localAddr (x.t.reg (16 + wA x.w))
    let n := 2 ^ wSize x.w
    let r := 16 + wA x.w
    let k := 24 + wN x.w
    wSize x.w ≤ 6 →
    (s.issues 4 0x00 core thread x → a % n = 0 →
      ∃ (y : Thread) (v : BitVec 64), exec (.ld core thread) s = .next (s.setThread core thread y) ∧ x.t.goesOn y ∧
        (n ≤ 8 → v.toNat % 2 ^ (8 * n) = le (Mem.readN 0 x.c.mem a n)) ∧
        y.reg r = addressAfter ((x.t.setReg (wD x.w) v).reg r) ((x.t.setReg (wD x.w) v).reg k) (wPm x.w) n ∧
        (wD x.w ≠ r → y.reg (wD x.w) = v) ∧ x.t.keepsRegs y (fun m => m = wD x.w ∨ m = r) ∧ y.v = x.t.v ∧
        y.vacc = x.t.vacc ∧ y.cc = x.t.cc ∧ y.flags = x.t.flags) ∧
    (s.issues 4 0x02 core thread x → a % n = 0 →
      ∃ y : Thread, exec (.ldv core thread) s = .next (s.setThread core thread y) ∧ x.t.goesOn y ∧
        (vecBytes (y.vreg (wD x.w))).take n = Mem.readN 0 x.c.mem a n ∧
        y.reg r = addressAfter (x.t.reg r) (x.t.reg k) (wPm x.w) n ∧ x.t.keepsRegs y (fun m => m = r) ∧
        x.t.keepsVecs y (fun m => m = wD x.w % 16) ∧ y.vacc = x.t.vacc ∧ y.cc = x.t.cc ∧ y.flags = x.t.flags) ∧
    ∀ i op, (i, op) ∈ ([(.ld core thread, 0x00), (.st core thread, 0x01), (.ldv core thread, 0x02), (.stv core thread, 0x03)] :
        List (Instr × Nat)) → s.issues 4 op core thread x → a % n ≠ 0 → exec i s = .next (s.trapThread core thread 1)) ∧
  (∀ (s : State) (core thread : Nat) (x : Slot3), x.t.shaped →
    let a := localAddr (x.t.reg (16 + wA x.w))
    let r := 16 + wA x.w
    let h := wX6 x.w % 32
    let stored := fun (i : Instr) (n : Nat) (b : Nat → Option Byte) (fl : Flags) =>
      ∃ (y : Thread) (c : Core), exec i s = .next ((s.setCore core c).setThread core thread y) ∧ x.t.goesOn y ∧
        x.c.onlyMem c ∧ (∀ k v, k < n → b k = some v → Mem.read 0 c.mem (a + k) = v) ∧
        (∀ e, e < a ∨ a + n ≤ e → Mem.read 0 c.mem e = Mem.read 0 x.c.mem e) ∧
        y.reg r = addressAfter (x.t.reg r) (x.t.reg (24 + wN x.w)) (wPm x.w) n ∧ x.t.keepsRegs y (fun m => m = r) ∧
        y.v = x.t.v ∧ y.vacc = x.t.vacc ∧ y.cc = x.t.cc ∧ y.flags = x.t.flags ||| fl
    let shifted := fun (k : Nat) => (2 * (x.t.accLane (wD x.w % 4) k).v.toInt + 2 ^ h) / (2 ^ (h + 1) : Int)
    let clampTo := fun (n : Nat) (v : Int) => max (-(2 ^ (8 * n - 1) : Int)) (min (2 ^ (8 * n - 1) - 1 : Int) v)
    (s.issues 4 0x01 core thread x → wSize x.w ≤ 6 → a % 2 ^ wSize x.w = 0 →
      stored (.st core thread) (2 ^ wSize x.w)
        (fun k => if k < 8 then (leBytes 8 (x.t.reg (wD x.w)).toNat)[k]? else none) 0) ∧
    (s.issues 4 0x03 core thread x → wSize x.w ≤ 6 → a % 2 ^ wSize x.w = 0 →
      stored (.stv core thread) (2 ^ wSize x.w) (fun k => (vecBytes (x.t.vreg (wD x.w)))[k]?) 0) ∧
    ∀ i op n, (i, op, n) ∈ ([(.sta32 core thread, 0x08, 4), (.sta16 core thread, 0x09, 2)] : List (Instr × Nat × Nat)) →
      s.issues 3 op core thread x →
      (a % (16 * n) = 0 → stored i (16 * n)
        (fun k => (leBytes n (BitVec.ofInt (8 * n) (clampTo n (shifted (k / n)))).toNat)[k % n]?)
        ((if (List.range 16).any (fun k => clampTo n (shifted k) != shifted k || (x.t.accLane (wD x.w % 4) k).sat) then flDSAT
          else 0) |||
         (if (List.range 16).any (fun k => clampTo n (shifted k) * 2 ^ h != (x.t.accLane (wD x.w % 4) k).v.toInt) then flIX
          else 0))) ∧
      (a % (16 * n) ≠ 0 → exec i s = .next (s.trapThread core thread 1)))

/-- R368, R384 to R387, R394, R395: a dual-operand instruction whose addresses its mode allows. MAC16 and MAC8 add the
exact products of each lane to the accumulator named and saturate it at the ends of its range; LD2 and LDST change no
scalar register but the address registers, LDST stores 32 bytes at `ay` and no other. Both address registers are then
modified. ACLR clears its accumulator. With a P operand the lanes are open (log 72). -/
def Obligations.DualOperands : Prop :=
  ∀ (s : State) (core thread : Nat) (x : Slot3), x.t.shaped →
    let ax := localAddr (x.t.reg (16 + wAx x.w))
    let ay := localAddr (x.t.reg (16 + wAy x.w))
    let a := Mem.readN 0 x.c.mem ax 32
    let b := Mem.readN 0 x.c.mem ay 32
    let walked := fun (y : Thread) => x.t.goesOn y ∧ x.t.keepsRegs y (fun m => m = 16 + wAx x.w ∨ m = 16 + wAy x.w) ∧
      (wAx x.w ≠ wAy x.w →
        y.reg (16 + wAx x.w) = addressAfter (x.t.reg (16 + wAx x.w)) (x.t.reg (24 + wNx x.w)) (wPmx x.w) 32 ∧
        y.reg (16 + wAy x.w) = addressAfter (x.t.reg (16 + wAy x.w)) (x.t.reg (24 + wNy x.w)) (wPmy x.w) 32) ∧
      y.cc = x.t.cc ∧ y.flags = x.t.flags
    (x.dualTrap = none →
      (∀ i op p, (i, op, p) ∈ ([(.mac16 core thread, 0x01, fun k =>
            (BitVec.ofNat 16 (num a (2 * k) 2)).toInt * (BitVec.ofNat 16 (num b (2 * k) 2)).toInt),
          (.mac8 core thread, 0x02, fun k =>
            ((num a (2 * k) 1 * num b (2 * k) 1 + num a (2 * k + 1) 1 * num b (2 * k + 1) 1 : Nat) : Int))] :
          List (Instr × Nat × (Nat → Int))) → s.issues 3 op core thread x →
        ∃ y : Thread, exec i s = .next (s.setThread core thread y) ∧ walked y ∧ y.v = x.t.v ∧
          (∀ m, m ≠ wT x.w → y.vacc.getD m [] = x.t.vacc.getD m []) ∧
          (wP x.w = false → ∀ k, k < 16 →
            let sum := (x.t.accLane (wT x.w) k).v.toInt + p k
            (y.accLane (wT x.w) k).v.toInt = max (-549755813888) (min 549755813887 sum) ∧
            ((y.accLane (wT x.w) k).sat = true ↔ (x.t.accLane (wT x.w) k).sat = true ∨ sum < -549755813888 ∨
              549755813887 < sum))) ∧
      (s.issues 4 0x04 core thread x →
        ∃ y : Thread, exec (.ld2 core thread) s = .next (s.setThread core thread y) ∧ walked y ∧ y.vacc = x.t.vacc) ∧
      (s.issues 4 0x05 core thread x →
        ∃ (y : Thread) (c : Core), exec (.ldst core thread) s = .next ((s.setCore core c).setThread core thread y) ∧
          walked y ∧ y.vacc = x.t.vacc ∧ x.c.onlyMem c ∧
          ∀ e, e < ay ∨ ay + 32 ≤ e → Mem.read 0 c.mem e = Mem.read 0 x.c.mem e)) ∧
    (∀ i cls op, (i, cls, op) ∈ ([(.mac16 core thread, 3, 0x01), (.mac8 core thread, 3, 0x02), (.ld2 core thread, 4, 0x04),
        (.ldst core thread, 4, 0x05)] : List (Instr × Nat × Nat)) → s.issues cls op core thread x →
      (x.c.twin = true → wP x.w = true → exec i s = .next (s.trapThread core thread 6)) ∧
      ((x.c.twin = false ∨ wP x.w = false) → ax % 32 ≠ 0 ∨ ay % 32 ≠ 0 → exec i s = .next (s.trapThread core thread 1)) ∧
      (x.c.twin = false → ax % 32 = 0 → ay % 32 = 0 → 65536 ≤ ax ∨ ay < 65536 →
        exec i s = .next (s.trapThread core thread 2)) ∧
      ((x.c.twin = true → wP x.w = false) → ax % 32 = 0 → ay % 32 = 0 →
        (x.c.twin = false → ax < 65536 ∧ 65536 ≤ ay) → x.dualTrap = none)) ∧
    (s.issues 3 0x04 core thread x → ∃ y : Thread, exec (.aclr core thread) s = .next (s.setThread core thread y) ∧
      x.t.goesOn y ∧ y.r = x.t.r ∧ y.v = x.t.v ∧ y.cc = x.t.cc ∧ y.flags = x.t.flags ∧
      (∀ m, m ≠ wT x.w → y.vacc.getD m [] = x.t.vacc.getD m []) ∧
      ∀ k, k < 16 → y.accLane (wT x.w) k = ⟨0, false⟩)

/-- R370, R420, R422, R448, R449, R499, R522, R534: LDC of an address that lies in no page of the field, or in another
program's scratch, traps with cause 5; of a page that is away the thread waits and its run carries PAGED. Else it loads
its bytes from the line that the read cache holds, and modifies its address register; a line of the Granary that is not
in state W is read there, and its core then shares and caches it; in state W the thread waits; a line that neither holds
is asked for over the narrow path, where 32 requests of the core may wait; one that cannot be read ends the command.
R381, R420, R433, R435, R436: SSTART takes the lowest free stream slot of its core, or the lowest whose stream has ended
where none is free (log 88), for a stream with the descriptor at its local address, which runs, or ended at once where it
is malformed, and writes the slot's number; with six streams outstanding it waits, and a write into the index address
space traps with cause 5. SWAIT waits for a running stream, then writes its status and frees the slot; SPOLL writes 1 or
the status and frees nothing. -/
def Obligations.FieldLoadsAndStreams : Prop :=
  (∀ (s : State) (core thread : Nat) (x : Slot3), x.t.shaped → s.issues 4 0x08 core thread x →
    let f := x.run.field
    let a := x.ldcAddr
    let n := 2 ^ wSize x.w
    let r := 16 + wA x.w
    let ldc : Instr := .ldc core thread
    let others := fun (t : State) => (t.core core).threads = x.c.threads ∧ (t.core core).mem = x.c.mem ∧
      (∀ k, k ≠ core → t.core k = s.core k) ∧ t.indexes = s.indexes ∧ t.cmds = s.cmds ∧ t.runs = s.runs ∧
      t.streams = s.streams
    let loaded := fun (b : Bytes) (q : State → Prop) => ∃ (t : State) (y : Thread) (v : BitVec 64),
      exec ldc s = .next (t.setThread core thread y) ∧ x.t.goesOn y ∧
      (n ≤ 8 → a % 256 + n ≤ 256 → b.length = 256 → v.toNat % 2 ^ (8 * n) = le ((b.drop (a % 256)).take n)) ∧
      y.reg r = addressAfter ((x.t.setReg (wD x.w) v).reg r) ((x.t.setReg (wD x.w) v).reg (24 + wN x.w)) (wPm x.w) n ∧
      (wD x.w ≠ r → y.reg (wD x.w) = v) ∧ x.t.keepsRegs y (fun m => m = wD x.w ∨ m = r) ∧ y.v = x.t.v ∧
      y.vacc = x.t.vacc ∧ y.cc = x.t.cc ∧ y.flags = x.t.flags ∧ others t ∧ q t
    (s.pageAt f a = none → exec ldc s = .next (s.trapThread core thread 5)) ∧
    ∀ p, s.pageAt f a = some p →
      (p.readableBy x.run.prog = false → exec ldc s = .next (s.trapThread core thread 5)) ∧
      (p.readableBy x.run.prog = true → p.inGddr = false → ∃ t : State, exec ldc s = .next t ∧
        t.cores = s.cores ∧ t.fields = s.fields ∧ t.indexes = s.indexes ∧ t.cmds = s.cmds ∧
        ∃ e ∈ t.streams, e.2.phase = .halted p.num) ∧
      ∀ c j, p.readableBy x.run.prog = true → p.inGddr = true → p.placeOf a = some (c, j) →
        let held := x.c.cache.find? (fun e => e.1 == lineKey c j)
        let asked := (s.channel c).queue.contains (x.ldcRequest j)
        (∀ e, held = some e → loaded e.2 (fun t => t.channels = s.channels ∧ t.granary = s.granary)) ∧
        (held = none → s.lineLost f p a = true → exec ldc s = .next (s.failRun x.run stHW_FAULT)) ∧
        (held = none → s.lineLost f p a = false →
          (∀ l, s.lineOf c j = some l →
            (l.dir = .W ∨ asked = true → exec ldc s = .next s) ∧
            (l.dir ≠ .W → asked = false → s.forcedMiss f (s.home f c j) = false →
              loaded (s.lineData f c j) (fun t => t.channels = s.channels ∧
                (t.core core).cache.head? = some (lineKey c j, s.lineData f c j) ∧
                ∃ m, t.lineOf c j = some m ∧ m.dir = .S ∧ core ∈ m.sharers))) ∧
          (s.lineOf c j = none →
            (asked = true ∨ s.narrowStalls (unitKey 0 core) = true ∨ s.laneFull c (x.ldcRequest j) = true →
              exec ldc s = .next s) ∧
            (asked = false → s.narrowStalls (unitKey 0 core) = false → s.laneFull c (x.ldcRequest j) = false →
              ∃ t : State, exec ldc s = .next t ∧ (t.channel c).queue = (s.channel c).queue ++ [x.ldcRequest j] ∧
                (∀ k, k ≠ c → t.channel k = s.channel k) ∧ t.cores = s.cores ∧ t.granary = s.granary ∧
                t.indexes = s.indexes ∧ t.cmds = s.cmds ∧ t.runs = s.runs ∧ t.streams = s.streams)))) ∧
  (∀ (s : State) (core thread : Nat) (x : Slot3), x.t.shaped →
    let a := localAddr (x.t.reg (wS1 x.w))
    let d := Mem.readN 0 x.c.mem a 128
    let ok := a % 64 == 0 && a + 128 ≤ 131072 && descOk d
    let held := fun (k : Nat) => FMap.get? x.c.slots k
    (s.issues 9 0x00 core thread x →
      (ok = true → descDir d = 1 → descSpace d = 0 → exec (.sstart core thread) s = .next (s.trapThread core thread 5)) ∧
      (¬ (ok = true ∧ descDir d = 1 ∧ descSpace d = 0) →
        ((∀ k, k < 6 → s.slotEnded x.c k = false) → exec (.sstart core thread) s = .next s) ∧
        ((∃ k, k < 6 ∧ s.slotEnded x.c k = true) → ∃ (k : Nat) (t : State) (y : Thread) (z : Stream),
          k < 6 ∧ s.slotEnded x.c k = true ∧
          ((∃ m, m < 6 ∧ held m = none) → held k = none ∧ ∀ m, m < k → held m ≠ none) ∧
          ((∀ m, m < 6 → held m ≠ none) → ∀ m, m < k → s.slotEnded x.c m = false) ∧
          exec (.sstart core thread) s = .next (t.setThread core thread y) ∧
          y.reg (wD x.w) = BitVec.ofNat 64 k ∧ x.t.onlyReg y (wD x.w) ∧
          FMap.get? t.streams s.nextStream = some z ∧ t.nextStream = s.nextStream + 1 ∧ z.desc = d ∧ z.slot = k ∧
          z.run = some x.id ∧ z.core = core ∧ z.thread = thread ∧
          z.phase = (if ok then .running else .ended 2) ∧ z.tile = 0 ∧ z.delivered = [] ∧ z.requested = [] ∧
          (∀ n, n ≠ s.nextStream → held k ≠ some n → FMap.get? t.streams n = FMap.get? s.streams n) ∧
          (∃ slots, t.core core = { x.c with slots := slots } ∧ FMap.get? slots k = some s.nextStream ∧
            ∀ m, m ≠ k → FMap.get? slots m = held m) ∧
          (∀ n, n ≠ core → t.core n = s.core n) ∧ (held k = none → t.fields = s.fields) ∧ t.cmds = s.cmds))) ∧
    ∀ n y, s.slotStream x = some (n, y) → y.slot = (x.t.reg (wS1 x.w)).toNat →
      (s.issues 9 0x01 core thread x →
        ((∀ st, y.phase ≠ .ended st) → exec (.swait core thread) s = .next s) ∧
        ∀ st, y.phase = .ended st → ∃ (t : State) (z : Thread), exec (.swait core thread) s = .next (t.setThread core thread z) ∧
          z.reg (wD x.w) = BitVec.ofNat 64 st ∧ x.t.onlyReg z (wD x.w) ∧ FMap.get? t.streams n = none ∧
          (∀ k, k ≠ n → FMap.get? t.streams k = FMap.get? s.streams k) ∧
          FMap.get? (t.core core).slots y.slot = none ∧ (t.core core).mem = x.c.mem ∧
          (∀ k, k ≠ core → t.core k = s.core k) ∧ t.cmds = s.cmds ∧ t.indexes = s.indexes) ∧
      (s.issues 9 0x02 core thread x → ∃ z : Thread, exec (.spoll core thread) s = .next (s.setThread core thread z) ∧
        x.t.onlyReg z (wD x.w) ∧ ((∀ st, y.phase ≠ .ended st) → z.reg (wD x.w) = 1) ∧
        ∀ st, y.phase = .ended st → z.reg (wD x.w) = BitVec.ofNat 64 st))

/-- R342, R352, R353, R392, R393: the tile instructions over a shape of Table 6.8. TLD changes only vector registers;
TCLR clears its tile and its scale fields; TST stores its tile; TACC replaces each element of an FP32 tile by the
replayed sum with its scale level; TFOLD adds each element into the binary64 tile under R322 and clears the FP32 tile;
TSTS stores its second tile. No other byte of the tile file changes, nor local memory, nor a scalar register. A
reserved shape code is refused. R400 to R402: LKP8 and LKP4 leave in each of 32 and 128 lanes, from V[`d`] on, the key
or sum of one code, and move the code address behind the codes where bit 1 of `x7` says so; in `fmt` 1 the sum is
exact over the u8 values that the code's sub-codes select. A misaligned table or code address traps with cause 1, an M
of 0 or above 256 with cause 9. -/
def Obligations.TilesAndLookups : Prop :=
  (∀ (s : State) (core thread : Nat) (x : Slot3), x.t.shaped →
    let code := wX6 x.w
    (∀ y, shapeOf code = some y →
      let a := tileAt code y (wTile x.w)
      let outside := fun (c : Core) (lo n : Nat) =>
        (∀ e, e < lo ∨ lo + n ≤ e → Mem.read 0 c.tile e = Mem.read 0 x.c.tile e) ∧
        ∀ e, e < lo / 4 ∨ lo / 4 + n / 4 ≤ e → Mem.read 0 c.scale e = Mem.read 0 x.c.scale e
      let cleared := fun (c : Core) (lo n : Nat) => (∀ e, lo ≤ e → e < lo + n → Mem.read 0 c.tile e = 0) ∧
        ∀ e, lo / 4 ≤ e → e < lo / 4 + n / 4 → Mem.read 0 c.scale e = 0
      let goes := fun (i : Instr) (q : Thread → Core → Prop) => ∃ (z : Thread) (c : Core),
        exec i s = .next ((s.setCore core c).setThread core thread z) ∧ x.t.goesOn z ∧ z.r = x.t.r ∧ z.vacc = x.t.vacc ∧
        z.cc = x.t.cc ∧ z.flags &&& x.t.flags = x.t.flags ∧ x.c.onlyTile c ∧ q z c
      (wTile x.w < y.count → a = wTile x.w * y.bytes) ∧ a + y.bytes ≤ 8192 ∧
      (s.issues 5 0x00 core thread x → ∃ z : Thread, exec (.tld core thread) s = .next (s.setThread core thread z) ∧
        x.t.goesOn z ∧ z.r = x.t.r ∧ z.vacc = x.t.vacc ∧ z.cc = x.t.cc ∧ z.flags = x.t.flags ∧ z.v.length = 16) ∧
      (s.issues 5 0x01 core thread x → goes (.tst core thread) (fun z c => z.v = x.t.v ∧ z.flags = x.t.flags ∧
        outside c a y.bytes)) ∧
      (s.issues 5 0x05 core thread x → goes (.tclr core thread) (fun z c => z.v = x.t.v ∧ z.flags = x.t.flags ∧
        cleared c a y.bytes ∧ outside c a y.bytes)) ∧
      (s.issues 5 0x02 core thread x → goes (.tacc core thread) (fun z c => z.v = x.t.v ∧ outside c a y.bytes ∧
        (code ≤ 3 → ∀ k, k < y.rows * y.cols →
          let old := BitVec.ofNat 32 (num (Mem.readN 0 x.c.tile a y.bytes) (4 * k) 4)
          let r := (x.taccOn k old ((Mem.read 0 x.c.scale (a / 4 + k)).toNat % 4)).1
          num (Mem.readN 0 c.tile a y.bytes) (4 * k) 4 = r.v.toNat ∧
          Mem.read 0 c.scale (a / 4 + k) = BitVec.ofNat 8 r.level))) ∧
      (s.issues 5 0x03 core thread x → code = 0 → let b := wTile2 x.w * 2048
        wTile2 x.w < 4 → (b + 2048 ≤ a ∨ a + y.bytes ≤ b) → goes (.tfold core thread) (fun z c => z.v = x.t.v ∧
          cleared c a y.bytes ∧ (∀ k, k < 256 →
            let e := (BitVec.ofNat 32 (num (Mem.readN 0 x.c.tile a y.bytes) (4 * k) 4),
              (Mem.read 0 x.c.scale (a / 4 + k)).toNat % 4)
            num (Mem.readN 0 c.tile b 2048) (8 * k) 8 = (foldElem (num (Mem.readN 0 x.c.tile b 2048) (8 * k) 8) e).1 % 2 ^ 64) ∧
          ∀ e, (e < a ∨ a + y.bytes ≤ e) → (e < b ∨ b + 2048 ≤ e) → Mem.read 0 c.tile e = Mem.read 0 x.c.tile e)) ∧
      (s.issues 5 0x03 core thread x → code ≠ 0 → goes (.tfold core thread) (fun z c => z.v = x.t.v ∧
        cleared c a y.bytes)) ∧
      (s.issues 5 0x04 core thread x → goes (.tsts core thread) (fun z c => z.v = x.t.v ∧
        outside c (tileAt code y (wTile2 x.w)) y.bytes))) ∧
    (shapeOf code = none → ∀ i op, (i, op) ∈ ([(.tld core thread, 0x00), (.tst core thread, 0x01), (.tacc core thread, 0x02),
        (.tfold core thread, 0x03), (.tsts core thread, 0x04), (.tclr core thread, 0x05)] : List (Instr × Nat)) →
      s.issues 5 op core thread x → exec i s = .fault .reservedCode)) ∧
  (∀ (s : State) (core thread : Nat) (x : Slot3), x.t.shaped →
    let table := (x.t.reg (wS2 x.w)).toNat % 2 ^ 17
    let m := (x.t.reg (wS2 x.w)).toNat / 2 ^ 32 % 512
    let code := localAddr (x.t.reg (wS1 x.w))
    ∀ i op bits count, (i, op, bits, count) ∈ ([(.lkp8 core thread, 0x00, 8, 32), (.lkp4 core thread, 0x01, 4, 128)] :
        List (Instr × Nat × Nat × Nat)) → s.issues 6 op core thread x →
      (table % 64 ≠ 0 ∨ code % 8 ≠ 0 → exec i s = .next (s.trapThread core thread 1)) ∧
      (table % 64 = 0 → code % 8 = 0 → m = 0 ∨ 256 < m → exec i s = .next (s.trapThread core thread 9)) ∧
      (table % 64 = 0 → code % 8 = 0 → 1 ≤ m → m ≤ 256 →
        let stride := roundUp (ceilDiv (m * bits) 8) 8
        ∃ y : Thread, exec i s = .next (s.setThread core thread y) ∧ x.t.goesOn y ∧ y.vacc = x.t.vacc ∧ y.cc = x.t.cc ∧
          y.flags &&& x.t.flags = x.t.flags ∧ x.t.keepsRegs y (fun n => n = wS1 x.w) ∧
          y.reg (wS1 x.w) = (if x.w.getLsbD 1 then x.t.reg (wS1 x.w) + BitVec.ofNat 64 (count * stride)
            else x.t.reg (wS1 x.w)) ∧
          x.t.keepsVecs y (fun n => ∃ k, k < count / 16 ∧ n = (wD x.w + k) % 16) ∧
          (∀ n, n < count → lane (y.vreg (wD x.w + n / 16)) (n % 16) = ((x.lookup bits).lane x.c n).1) ∧
          (x.w.getLsbD 0 = true → ∀ n, n < count → lane (y.vreg (wD x.w + n / 16)) (n % 16) =
            BitVec.ofNat 32 (sumBy (fun k => x.c.byteAt (table + k * 2 ^ bits +
              (if bits = 8 then x.c.byteAt (code + n * stride + k)
                else x.c.byteAt (code + n * stride + k / 2) / 16 ^ (k % 2) % 16))) (List.range m)))))

/-- R356, R359 to R362, R404, R421: SEND to a started thread of its run puts a message in the core's send buffer,
waits on a full buffer and traps with cause 3 on a target outside the run; RECV takes the oldest queued message of the
sender it names, or of any, and waits for one; PROBE counts the queue. R357, R360, R361: the message that is next for
a thread, the oldest that waits in the network, else the first of a core's send buffer, joins the end of the thread's
receive queue; where four messages fill the queue it waits in the network. -/
def Obligations.CoreMessages : Prop :=
  (∀ (s : State) (core thread : Nat) (x : Slot3), x.t.shaped →
    (s.issues 8 0x00 core thread x →
      (s.targetOf x.run (wCore x.w) (wThread x.w) = none → exec (.send core thread) s = .next (s.trapThread core thread 3)) ∧
      ∀ dst, s.targetOf x.run (wCore x.w) (wThread x.w) = some dst →
        (2 ≤ x.c.sendBuf.length → exec (.send core thread) s = .next s) ∧
        (x.c.sendBuf.length < 2 → ∃ m : Message, exec (.send core thread) s =
            .next ((s.setCore core { x.c with sendBuf := x.c.sendBuf ++ [m] }).setThread core thread x.t.advance) ∧
          m.toCore = dst ∧ m.toThread = wThread x.w ∧ m.fromCore = x.c.logical ∧ m.fromThread = thread ∧
          m.payload.length = wLen x.w)) ∧
    (s.issues 8 0x01 core thread x →
      (x.t.recvQ.find? (fun m => wAny x.w || (m.fromCore == wCore x.w && m.fromThread == wThread x.w)) = none →
        exec (.recv core thread) s = .next s) ∧
      ∀ before m after, x.t.recvQ = before ++ m :: after →
        (wAny x.w = true ∨ (m.fromCore = wCore x.w ∧ m.fromThread = wThread x.w)) →
        (∀ b ∈ before, wAny x.w = false ∧ ¬ (b.fromCore = wCore x.w ∧ b.fromThread = wThread x.w)) →
        ∃ y : Thread, exec (.recv core thread) s = .next (s.setThread core thread y) ∧ y.recvQ = before ++ after ∧
          x.t.keepsRegs y (fun n => n = wD x.w) ∧ x.t.keepsVecs y (fun n => n = wD x.w % 16) ∧ y.vacc = x.t.vacc ∧
          y.cc = x.t.cc ∧ y.flags = x.t.flags ∧ y.rs = x.t.rs ∧ y.status = x.t.status ∧ y.pc = x.t.advance.pc) ∧
    (s.issues 8 0x02 core thread x → ∃ y : Thread, exec (.probe core thread) s = .next (s.setThread core thread y) ∧
      y.reg (wD x.w) = BitVec.ofNat 64 x.t.recvQ.length ∧ x.t.onlyReg y (wD x.w))) ∧
  (∀ (s : State) (core thread : Nat), core < 128 → thread < 8 → s.completing = true →
    (∀ m, s.messages.find? (fun m => m.for_ core thread) = some m → ((s.core core).thread thread).recvQ.length < 4 →
      exec (.messageDeliver core thread) s = .next (({ s with
        messages := dropFirst (fun m => m.for_ core thread) s.messages } : State).setThread core thread
          { (s.core core).thread thread with recvQ := ((s.core core).thread thread).recvQ ++ [m] })) ∧
    (∀ n c m rest, s.messages.find? (fun m => m.for_ core thread) = none →
      s.cores.find? (fun c => (c.2.sendBuf.head?).any (fun m => m.for_ core thread)) = some (n, c) → c.sendBuf = m :: rest →
      ∃ t : State, exec (.messageDeliver core thread) s = .next t ∧ (t.core n).sendBuf = rest ∧
        t.streams = s.streams ∧ t.runs = s.runs ∧ t.cmds = s.cmds ∧
        (((s.setCore n { c with sendBuf := rest }).core core |>.thread thread).recvQ.length < 4 →
          ((t.core core).thread thread).recvQ =
            ((s.setCore n { c with sendBuf := rest }).core core |>.thread thread).recvQ ++ [m] ∧ t.messages = s.messages) ∧
        (4 ≤ ((s.setCore n { c with sendBuf := rest }).core core |>.thread thread).recvQ.length →
          t.messages = m :: s.messages)))

/-- Table 10.2, R549 to R552: a port that is on, its board supplying VDD_HXL, leaves each training state on that state's
condition, and goes back to DETECT, with a failure counted, when its time limit passes; a port in DETECT sends a beacon
every 100 ms, one that enters ALIGN a marker flit and one that enters NEGOTIATE its HELLO flit. In LOCK it finds
reversed lanes and inverted lanes. A link runs on all eight lanes or on the half that passed, at the narrower width of
both ends. R561, R562: a loss of lock, or a flit resent eight times, sends an ACTIVE port back to train with its replay
buffer and sequence numbers kept; 100 ms of it take the link down, its unacknowledged flits lost, and a follower tells
its lead. -/
def Obligations.LinkTraining : Prop :=
  (∀ (s : State) (p : Nat), p < 4 → s.portOn p = true → s.board.hxlRail = true →
    let x := s.port p
    let same := fun (t : State) => (∀ k, k ≠ p → t.port k = s.port k) ∧ s.ringsKept t ∧ t.cmds = s.cmds ∧
      t.fields = s.fields ∧ t.indexes = s.indexes ∧ t.casc = s.casc
    (x.state = .detect → ∃ t : State, exec (.beacon p) s = .next t ∧ t.out = .beacon p :: s.out ∧ s.tbk < t.tbk ∧
      (x.since ≤ s.tbk → (t.tbk - x.since) % 100000000 = 0 ∧ t.tbk ≤ s.tbk + 100000000) ∧ t.ports = s.ports ∧ same t) ∧
    (∀ (e : TrainExit) (st : PortState),
      ((∃ lanes, (x.state, e) = (.detect, .beacon lanes) ∧ 4 ≤ lanesIn lanes) ∧ st = .lock) ∨
      ((∃ seen, (x.state, e) = (.lock, .locked seen) ∧ (x.lock seen).isSome = true) ∧ st = .equalise) ∨
      ((∃ lanes, (x.state, e) = (.equalise, .equalised lanes) ∧ (usableLanes (x.lanes &&& lanes)).isSome = true) ∧ st = .align) ∨
      ((x.state, e) = (.align, .aligned) ∧ st = .negotiate) →
      ∃ t : State, exec (.linkTrainingAdvance p e) s = .next t ∧ (t.port p).state = st ∧ (t.port p).since = s.tbk ∧
        (t.port p).replay = x.replay ∧ (t.port p).txSeq = x.txSeq ∧ (t.port p).rxNext = x.rxNext ∧ t.tbk = s.tbk ∧ same t ∧
        (st = .lock ∨ st = .equalise → t.out = s.out) ∧
        (st = .align → ∃ b : Bytes, t.out = .flit p b :: s.out ∧ b.length = 256 ∧ num b 0 1 % 16 = 2) ∧
        (st = .negotiate → ∃ b : Bytes, t.out = .flit p b :: s.out ∧ b.length = 256 ∧ num b 0 1 % 16 = 3)) ∧
    (∀ (seen : List (Option (Nat × Bool))) (inverted : BitVec 8) (half : Bool) (reversed : Bool), x.state = .lock →
      seen.length = 8 →
      (∀ n, n < 8 → half = false ∨ n < 4 → seen.getD (wiredTo reversed n) none =
        some (n, inverted.getLsbD (wiredTo reversed n))) →
      (∀ n, n < 8 → half = true → 4 ≤ n → seen.getD (wiredTo reversed n) none = none) →
      (∀ n, n < 8 → seen.getD n none = none → inverted.getLsbD n = false) →
      ∃ t : State, exec (.linkTrainingAdvance p (.locked seen)) s = .next t ∧ (t.port p).state = .equalise ∧
        (t.port p).lanes = (if half then 0x0F#8 else 0xFF#8) ∧ (t.port p).reversed = reversed ∧
        (t.port p).inverted = inverted) ∧
    (∀ (serial : BitVec 64) (pport role version width : Nat), x.state = .negotiate → width = 4 ∨ width = 8 →
      ∃ t : State, exec (.linkTrainingAdvance p (.hello serial pport role version width)) s = .next t ∧
        (t.port p).state = .active ∧ (t.port p).width = min (if x.lanes = 0xFF#8 then 8 else 4) width ∧
        (t.port p).partner = serial ∧ (t.port p).partnerPort = pport ∧ (t.port p).retraining = false ∧
        (t.port p).reversed = x.reversed ∧ (t.port p).inverted = x.inverted ∧
        (x.retraining = true → (t.port p).txSeq = x.txSeq ∧ (t.port p).rxNext = x.rxNext ∧
          (t.port p).replay = x.replay.map (fun f => { f with sent := false, resends := 0 })) ∧
        (x.retraining = false → (t.port p).replay = [] ∧ (t.port p).credits = fullCredits) ∧ same t) ∧
    (∀ n, x.state.limit = some n → ∃ t : State, exec (.trainingTimeout p) s = .next t ∧ (t.port p).state = .detect ∧
      t.tbk = max s.tbk (x.since + n) ∧ same t ∧
      FMap.getD t.counters (3 * 1024 + (8 * p + 5)) 0 =
        countUp 3 (8 * p + 5) (FMap.getD s.counters (3 * 1024 + (8 * p + 5)) 0) 1) ∧
    (∀ m : BitVec 8, usableLanes m = if m = 0xFF#8 then some 0xFF#8 else if m &&& 0x0F#8 = 0x0F#8 then some 0x0F#8
      else if m &&& 0xF0#8 = 0xF0#8 then some 0xF0#8 else none)) ∧
  (∀ (s : State) (p : Nat), p < 4 → s.portOn p = true →
    let x := s.port p
    (s.board.hxlRail = false → exec (.beacon p) s = .next s ∧ ∀ e, exec (.linkTrainingAdvance p e) s = .next s) ∧
    (∀ i, (i = .lossOfLock p ∨ (i = .linkRetrain p ∧ ∃ f ∈ x.replay, 8 ≤ f.resends)) → x.state = .active →
      ∃ t : State, exec i s = .next t ∧ t.port p = { x with state := .detect, since := s.tbk, retraining := true, retrainAt := s.tbk } ∧
        (∀ k, k ≠ p → t.port k = s.port k) ∧ t.casc = s.casc ∧ t.out = s.out ∧ t.tbk = s.tbk) ∧
    (x.retraining = true → ∃ t : State, exec (.linkDown p) s = .next t ∧ (t.port p).replay = [] ∧
      (t.port p).retraining = false ∧ (t.port p).state = x.state ∧ t.tbk = max s.tbk (x.retrainAt + 100000000) ∧
      t.casc = s.casc ∧ t.fields = s.fields ∧ t.indexes = s.indexes ∧
      (s.follows = false → (t.port p).waiting = [] ∧ ∀ k, k ≠ p → t.port k = s.port k) ∧
      (s.follows = true → t.out.head? = some (.message s.casc.leadOrdinal msgLINK_DOWN (leBytes 1 p)))))

/-- R557, R558, R560, R563, R564: an ACTIVE port sends a flit that is to be resent before any new one, keeping it; a
new DATA flit takes the next sequence number and a credit of its half and enters the replay buffer; else an IDLE flit
goes. Every flit has 256 bytes, its check over the first 248. Two microseconds without progress mark every
unacknowledged flit to be sent again. R549, R555: a flit is put together from the receive lanes, straight or reversed.
R556 to R560, R563, R745: a flit received by an ACTIVE port crosses to the port's logic in three cycles of NCK, and what
control 0 adds. One whose check fails is
discarded, and a discarded DATA flit makes a `nak` due once; a good one acknowledges the flits up to its `ack`; a DATA
flit with the sequence number expected is accepted, its credit owed, and one with another number is discarded. -/
def Obligations.Flits : Prop :=
  (∀ (s : State) (p : Nat), p < 4 → s.portOn p = true → (s.port p).state = .active →
    let x := s.port p
    let sends := fun (t : State) (ftype seq : Nat) => ∃ b : Bytes, t.out = .flit p b :: s.out ∧ b.length = 256 ∧
      num b 0 1 % 16 = ftype ∧ num b 1 2 = seq ∧ num b 248 8 = (crc64 (b.take 248)).toNat
    (∀ f, x.replay.find? (fun f => !f.sent) = some f → ∃ t : State, exec (.flitTransmit p) s = .next t ∧
      sends t 1 f.seq.toNat ∧ (t.port p).replay.map (fun g => g.seq) = x.replay.map (fun g => g.seq) ∧
      (∀ g ∈ (t.port p).replay, g.seq = f.seq → g.sent = true) ∧ (t.port p).waiting = x.waiting ∧
      (t.port p).credits = x.credits ∧ (t.port p).txSeq = x.txSeq) ∧
    (x.replay.find? (fun f => !f.sent) = none → ∀ f, x.nextNew (s.control 5 0xFF p) = some f →
      ∃ t : State, exec (.flitTransmit p) s = .next t ∧ sends t 1 x.txSeq.toNat ∧ (t.port p).txSeq = x.txSeq + 1 ∧
        (t.port p).replay = x.replay ++ [{ f with seq := x.txSeq, sent := true }] ∧
        FMap.getD (t.port p).credits f.key 0 = FMap.getD x.credits f.key 0 - 1 ∧
        (t.port p).waiting.length + 1 = x.waiting.length ∧ x.replay.length < 512) ∧
    (x.replay.find? (fun f => !f.sent) = none → x.nextNew (s.control 5 0xFF p) = none →
      ∃ t : State, exec (.flitTransmit p) s = .next t ∧ sends t 0 0 ∧ (t.port p).replay = x.replay ∧
        (t.port p).waiting = x.waiting ∧ (t.port p).credits = x.credits ∧ (t.port p).txSeq = x.txSeq) ∧
    (x.replay ≠ [] → ∃ t : State, exec (.replayTimeout p) s = .next t ∧ t.tbk = max s.tbk (x.ackProgress + 2000) ∧
      (t.port p).replay = x.replay.map (fun f => { f with sent := false }) ∧ (t.port p).txSeq = x.txSeq ∧
      (t.port p).waiting = x.waiting ∧ t.out = s.out)) ∧
  (∀ (s : State) (p : Nat) (lanes : List Bytes), p < 4 → s.portOn p = true → (s.port p).state = .active →
    (s.crossing (352 + p)).entries = [] →
    let x := s.port p
    let b := x.gather lanes
    let good := num b 248 8 = (crc64 (b.take 248)).toNat
    let data := num b 0 1 % 16 = 1
    let key := 2 * (num b 0 1 / 16 % 4) + num b 0 1 / 64 % 2
    (b.length = 256 ∧ (x.inverted = 0 → x.width = 8 → ∀ n, n < 256 → b.getD n 0 =
      (lanes.getD (if x.reversed then 7 - n % 8 else n % 8) []).getD (n / 8) 0)) ∧
    ∃ t : State, exec (.flitReceive p lanes) s = .next t ∧ s.ringsKept t ∧ t.fields = s.fields ∧ t.indexes = s.indexes ∧
      t.out = s.out ∧ t.tbk = s.tbk + cyclesNs 2000 (3 + s.control 0 0xFF (352 + p)) ∧
      (t.crossing (352 + p)).entries = [] ∧ (t.crossing (352 + p)).written = (s.crossing (352 + p)).written + 1 ∧
      (¬ good → (t.port p).rxNext = x.rxNext ∧ (t.port p).replay = x.replay ∧ (t.port p).owed = x.owed ∧
        (data → (t.port p).nakDue = true ∨ (t.port p).nakSent = true)) ∧
      (good → ∀ before g after, x.replay = before ++ g :: after → (∀ f ∈ before, f.seq ≠ g.seq) →
        num b 3 2 = g.seq.toNat → (t.port p).replay.map (fun f => f.seq) = after.map (fun f => f.seq)) ∧
      (good → data → num b 1 2 = x.rxNext.toNat → (t.port p).rxNext = x.rxNext + 1 ∧ (t.port p).nakSent = false ∧
        FMap.getD (t.port p).owed key 0 = FMap.getD x.owed key 0 + 1) ∧
      (good → data → num b 1 2 < 4096 → num b 1 2 ≠ x.rxNext.toNat → (t.port p).rxNext = x.rxNext ∧
        (t.port p).owed = x.owed ∧ ((t.port p).nakDue = true ∨ (t.port p).nakSent = true)) ∧
      (good → ¬ data → (t.port p).rxNext = x.rxNext ∧ (t.port p).owed = x.owed))

/-- R207 to R210, R574, R600: CASCADE_FORM of a lead outside any cascade stays outstanding while the census runs, its
probe flooded; CASCADE_PROMOTE of a standby lead whose lead does not answer does the same, measured in register 4;
CASCADE_STATUS replies with the census and changes nothing. R574 to R576, R593, R600, R601, Table 10.8: a device that
a probe reaches answers it once and is claimed by its lead; 50 ms after the last answer the census ends. Each device
found has the ordinal of its position, excluded where it may not be a member; every other ordinal is absent; the
cascade is formed, or DEGRADED where a slot is uncovered. After a promotion the old lead's ordinal is lost. -/
def Obligations.CascadeFormation : Prop :=
  (∀ (s : State) (ring : Nat) (dma : Dma) (c : Cmd),
    let p := c.pkt
    let n := num p 20 2
    (s.admits 0x48 ring dma c = true → s.mayForm = true → s.cascadeExists = false → num p 16 1 ≤ 3 → 1 ≤ n → n ≤ 128 →
      (num p 16 1 = 3 → num p 17 1 * num p 18 1 = n ∧ num p 17 1 ≤ 16 ∧ num p 18 1 ≤ 8) → num p 24 8 % 64 = 0 →
      4160 ≤ num p 32 4 → (c.pbValid = true → 8 * n ≤ c.pbLen * 64) →
      ∃ t : State, exec (.cascadeForm ring dma) s = outstanding s t c dma (.census false) ∧ t.casc.state = 1 ∧
        t.casc.topology = num p 16 1 ∧ t.casc.expected = n ∧ t.casc.ordinal = 0 ∧ t.casc.records = [] ∧
        t.out = .message 0xFF msgPROBE (leBytes 8 Config.serial.toNat) :: (s.readBlock c none).out ∧ s.ringsKept t ∧
        t.cmds = s.cmds ∧ t.fields = s.fields ∧ t.indexes = s.indexes ∧ t.trust = s.trust) ∧
    (s.admits 0x4A ring dma c = true → s.standbyByStake = true → s.casc.promoted = false → s.leadAnswers = false →
      s.casc.records ≠ [] →
      ∃ t : State, exec (.cascadePromote ring dma) s = outstanding s t c dma (.census true) ∧
        t.casc = { s.casc with state := 1, promoted := true } ∧
        t.trust.mr = s.trust.mr.set 4 (sha384 (s.trust.mr.getD 4 (zeros 48) ++ sha384 (eventRecord 0x41 []))) ∧
        s.ringsKept t ∧ t.cmds = s.cmds ∧ t.fields = s.fields ∧ t.indexes = s.indexes ∧ t.out = s.out) ∧
    (s.admits 0x49 ring dma c = true → num p 24 8 % 64 = 0 → 4160 ≤ num p 32 4 →
      ∃ b : Bytes, exec (.cascadeStatus ring dma) s =
          ended s s c dma (s.casc.state + 65536 * s.casc.reachable) [(num p 24 8, b)] ∧ b.length = 4160 ∧
        num b 0 1 = s.casc.state % 256 ∧ num b 1 1 = s.casc.topology % 256 ∧ num b 4 2 = s.casc.expected % 65536 ∧
        ∀ m r, m < 128 → FMap.get? s.casc.records m = some r → slice b (64 + 32 * m) 32 = r.bytes)) ∧
  ((∀ (s : State) (port : Nat) (serial : BitVec 64), port < 4 → s.answersProbe port serial = true →
    ∃ t : State, exec (.censusProbe port serial) s = .next t ∧
      t.out = .message 0 msgANSWER s.probeAnswer :: s.out ∧ t.casc.state = s.casc.state ∧
      (s.casc.probed = none → s.role ≠ 0 → t.casc.probed = some serial) ∧
      (s.casc.probed.isSome = true → t.casc.probed = s.casc.probed) ∧ t.fields = s.fields ∧ t.indexes = s.indexes ∧
      s.ringsKept t ∧ t.tbk = s.tbk) ∧
  (∀ (s : State) (found : List MemberRecord) (replyOk recordOk : Bool) (c : Cmd), s.completing = true →
    s.censusCmd = some (c, false) → ∃ t : State,
      exec (.censusQuietTimer found replyOk recordOk) s = .next (if replyOk
        then (t.writeReply c [(num c.pkt 24 8, t.casc.reply t.casc.tCensus)]).finish c 0 t.casc.reachable 0 c.flags recordOk
        else t.finish c 0x0104 0 0 c.flags recordOk) ∧
      t.tbk = s.tbk + 50000000 ∧ t.casc.tCensus = t.tbk ∧ t.cmds = s.cmds ∧ t.indexes = s.indexes ∧ t.fields = s.fields ∧
      t.casc.state = (if t.allCovered then 2 else 3) ∧ t.casc.ordinal = s.casc.ordinal ∧
      (∃ r, FMap.get? t.casc.records s.casc.ordinal = some r ∧ r.status = 0 ∧ r.serial = Config.serial) ∧
      (∀ m, m < s.casc.expected → m ≠ s.casc.ordinal → (∀ r ∈ found, s.casc.positionOf r ≠ some m) →
        ∃ e, FMap.get? t.casc.records m = some e ∧ e.status = 1) ∧
      ∀ r ∈ found, ∀ pos, s.casc.positionOf r = some pos → pos < 128 → pos ≠ s.casc.ordinal →
        (∀ q ∈ found, s.casc.positionOf q = some pos → q = r) →
        ∃ e, FMap.get? t.casc.records pos = some e ∧ e.serial = r.serial ∧ e.reason = s.exclusion s.casc pos r ∧
          e.status = (if s.exclusion s.casc pos r = 0 then 0 else 2)) ∧
  ∀ (s : State) (found : List MemberRecord) (replyOk recordOk : Bool) (c : Cmd), s.completing = true →
    s.censusCmd = some (c, true) → ∃ t : State,
      exec (.censusQuietTimer found replyOk recordOk) s = .next (t.finish c 0 0 0 c.flags recordOk) ∧
      t.tbk = s.tbk + 50000000 ∧ t.casc.ordinal = s.casc.ordinal ∧ t.casc.leadOrdinal = s.casc.ordinal ∧ t.cmds = s.cmds ∧
      t.casc.state = (if t.allCovered then 2 else 3) ∧
      (s.casc.leadOrdinal < s.casc.expected → s.casc.leadOrdinal ≠ s.casc.ordinal →
        ∃ e, FMap.get? t.casc.records s.casc.leadOrdinal = some e ∧ e.status = 4) ∧
      ∀ k x, FMap.get? t.indexes k = some x → ∃ y, FMap.get? s.indexes k = some y ∧
        (y.p.cascMode = 0 → x = y) ∧ (y.p.cascMode ≠ 0 → x.pending = [] ∧ x.holds = [] ∧
          x.epoch = min y.epoch ((s.casc.committed k).getD y.epoch)))

/-- R577, R578, R597, R599: the lead's heartbeat goes to every other member each millisecond; a member's answer keeps
the time of it and the lead's offset; a census re-run keeps what was lost or fallow so; a follower that misses the
heartbeat for 5 ms leaves the cascade with its pending mutations dropped and its committed data kept. R577, R593,
R594: a member lost on the lead is recorded so; class C searches that use it have ended, and the cascade's state
follows its coverage. -/
def Obligations.CascadeMembers : Prop :=
  ((∀ s : State, s.completing = true → s.leads = true →
    (∃ t : State, exec .heartbeat s = .next t ∧ t.tbk = (s.tbk / 1000000 + 1) * 1000000 ∧
      t.out = (s.casc.others.reverse.map (fun m => Out.message m msgHEARTBEAT (leBytes 8 t.tbk))) ++ s.out ∧
      t.casc = s.casc ∧ t.fields = s.fields ∧ t.indexes = s.indexes ∧ t.cmds = s.cmds) ∧
    ∀ found : List MemberRecord, ∃ t : State, exec (.censusRerun found) s = .next t ∧ t.casc.ordinal = s.casc.ordinal ∧
      t.tbk = s.tbk ∧ t.cmds = s.cmds ∧ t.indexes = s.indexes ∧ t.casc.state = (if t.allCovered then 2 else 3) ∧
      ∀ m r, m < s.casc.expected → m ≠ s.casc.ordinal → FMap.get? s.casc.records m = some r → r.status = 3 ∨ r.status = 4 →
        ∃ e, FMap.get? t.casc.records m = some e ∧ e.status = r.status ∧ e.serial = r.serial) ∧
  ∀ s : State, s.up = true → s.follows = true →
    (∀ (leadTbk : BitVec 64) (roundTrip : Nat), ∃ t : State, exec (.heartbeatAnswer leadTbk roundTrip) s = .next t ∧
      t.casc = { s.casc with
        lastHeartbeat := s.tbk, leadOffset := leadTbk + BitVec.ofNat 64 (roundTrip / 2) - BitVec.ofNat 64 s.tbk } ∧
      t.out = .message s.casc.leadOrdinal msgANSWER (leBytes 1 s.casc.ordinal) :: s.out ∧ t.fields = s.fields ∧
      t.indexes = s.indexes ∧ t.cmds = s.cmds ∧ t.tbk = s.tbk) ∧
    ∃ t : State, exec .leadLost s = .next t ∧ t.casc.state = 0 ∧ t.casc.records = s.casc.records ∧
      t.tbk = max s.tbk (s.casc.lastHeartbeat + 5000000) ∧ t.ports = s.ports ∧ t.fields = s.fields ∧
      ∀ k, FMap.get? t.indexes k = (FMap.get? s.indexes k).map (fun x =>
        if x.p.cascMode = 0 then x else { x with pending := [] })) ∧
  (∀ (s : State) (m : Nat) (recordOk : Bool), s.completing = true → s.leads = true → m ≠ s.casc.ordinal →
    s.casc.isMember m = true →
    ∃ t : State, exec (.memberLost m recordOk) s = .next t ∧
      (∃ r, FMap.get? t.casc.records m = some r ∧ r.status = 4) ∧
      (∀ k, k ≠ m → FMap.get? t.casc.records k = FMap.get? s.casc.records k) ∧
      t.casc.state = (if t.allCovered then 2 else 3) ∧ t.casc.ordinal = s.casc.ordinal ∧ t.tbk = s.tbk ∧
      ∀ q ∈ s.queries, q.cls = 0 → s.usesMember q m = true → ∀ c ∈ s.cmds, c.work = .search → q.ref.of c.ring c.seq = true →
        ∀ e ∈ t.cmds, ¬ (e.ring = c.ring ∧ e.seq = c.seq))

/-- R579, R585, R590, R597, Table 11.6: a change of the lead on a member is applied, measured in register 3 where it is a
field's configuration, reset or removal, which take effect at the planner epoch that the lead names, and is answered with
its status; a definition of the lead is repeated; lists that the lead selects for compaction are queued, and a list is
swapped at the lead's planner epoch; a member that joins again empties its cascade indexes; a census in the message
places the member. The numbers of the actions are the model's (log 47). R583, R584: a mutation record of the lead is
prepared by the copy and joins the index's pending mutations, its lists unchanged, whether or not a page can be had for
it (log 112); a COMMIT of the lead takes in the mutations that the lead names, at the named epoch of the lead, and is
answered, with its failure where it cannot be prepared or meets what is lost. R39, R283 to R298, R585: a part of a search
whose pages are resident is scanned by the copy, which answers with its first candidates and changes no index; on the
lead the candidates of a reply join the search's, which keeps the best, and the part is done. R50: a part that ended
with ST_HW_FAULT ends its command. -/
def Obligations.CascadeData : Prop :=
  (∀ (s : State) (field : Nat) (block : Bytes) (e : BitVec 64), s.completing = true → s.role = 2 ∨ s.role = 3 →
    let takes := fun (action st : Nat) (p : State → Prop) => ∃ t : State,
      exec (.configMessage field action block e none) s = .next t ∧ t.out.head? = some (.message s.casc.leadOrdinal msgANSWER
        (leBytes 1 field ++ leBytes 1 action ++ leBytes 2 st)) ∧ p t
    let same := fun (t : State) => t.fields = s.fields ∧ t.indexes = s.indexes ∧ t.trust = s.trust
    let measured := fun (u t : State) (action : Nat) (content : Bytes) =>
      t.trust.mr = u.trust.mr.set 3 (sha384 (u.trust.mr.getD 3 (zeros 48) ++
        sha384 (eventRecord 0x30 (leBytes 1 field ++ leBytes 1 action ++ content)))) ∧
      t.tbk = max u.tbk ((e.toNat * 10000 : Int) - s.casc.leadOffset.toInt).toNat
    (s.cascFormed = true → field ≤ 15 →
      (∀ st, s.applyBlock field (fit 256 block) = .inl st → takes 0 st same) ∧
      (∀ u f, s.applyBlock field (fit 256 block) = .inr u → u.field? field = some f → f.removing = false →
        takes 0 0 (fun t => measured u t 0 (fit 256 block) ∧ t.indexes = u.indexes ∧
          ∃ g, t.field? field = some g ∧ g.cfg = f.tgt ∧ g.present = true)) ∧
      takes 1 0 (fun t => ∀ c ∈ t.cmds, c.ring = adminRing ∨ ringFn c.ring ≠ field) ∧
      takes 2 0 (fun t => measured s t 2 [] ∧ (∀ f, s.field? field = some f → t.field? field = none) ∧
        ∀ k, k / 64 ≠ field → FMap.get? t.indexes k = FMap.get? s.indexes k) ∧
      (∀ a, s.definition (defCtx field (fit 64 block) (block.drop 64)) = .accept a →
        takes 3 a.status (fun t => t.indexes = a.s.indexes ∧ t.fields = a.s.fields)) ∧
      (∀ st n, s.definition (defCtx field (fit 64 block) (block.drop 64)) = .refuse st n → takes 3 st same) ∧
      (let key := indexKey field (num block 0 1 % 64)
      takes 4 0 (fun t => same t ∧ ∀ n, n < (block.length - 9) / 4 → s.compacting key (num block (9 + 4 * n) 4) = true ∨
        ⟨key, num block (9 + 4 * n) 4, num block 1 8, false⟩ ∈ t.compactQueue) ∧
      (∀ n c x, s.evaporators.find? (fun c => c.2.key == key && c.2.list == num block 1 4) = some (n, c) →
        FMap.get? s.indexes key = some x → takes 5 0 (fun t =>
          t.tbk = max s.tbk (((BitVec.ofNat 64 (num block 5 8)).toNat * 10000 : Int) - s.casc.leadOffset.toInt).toNat ∧
          ∃ y, FMap.get? t.indexes key = some y ∧ y.list c.list = (x.list c.list).swap c.e0 c.blocks s.order ∧
            ∀ l, l ≠ c.list → y.list l = x.list l)) ∧
      (s.evaporators.find? (fun c => c.2.key == key && c.2.list == num block 1 4) = none → takes 5 0x0005 same)) ∧
      takes 6 0 (fun t => ∀ k x, FMap.get? s.indexes k = some x → (x.p.cascMode = 0 → FMap.get? t.indexes k = some x) ∧
        (x.p.cascMode ≠ 0 → FMap.get? t.indexes k = some { x with lists := [], pending := [], versions := [], holds := [] })) ∧
      ∀ action, 7 ≤ action → takes action 0 same) ∧
    ∀ (m : CensusMsg) (action : Nat), 16 ≤ field → ∃ t : State,
      exec (.configMessage field action block e (some m)) s = .next t ∧
      t.casc.state = 2 ∧ t.casc.ordinal = m.ordinal ∧ t.casc.leadOrdinal = m.leadOrdinal ∧ t.casc.expected = m.expected ∧
      t.casc.topology = m.topology ∧ t.casc.lastHeartbeat = s.tbk ∧ t.fields = s.fields ∧ t.indexes = s.indexes ∧ t.out = s.out) ∧
  (∀ (s : State) (field index : Nat) (x : Index), s.completing = true → s.follows = true →
    s.index? field index = some x → x.active = true → x.p.cascMode ≠ 0 → index < 64 →
    (∀ (ring : Nat) (seq : BitVec 48) (opcode vf : Nat) (record : Bytes) (puts : List PendRec) (dels : List (BitVec 64))
      (a : Acc), opcode = 0x10 ∨ opcode = 0x11 ∨ opcode = 0x12 ∨ opcode = 0x13 →
      x.memberRecord opcode vf record = some (puts, dels, a) →
      ∃ (t : State) (y : Index), exec (.mutationRecord field index ring seq opcode vf record) s = .next t ∧
        t.index? field index = some y ∧ y = { x with pending := y.pending, stamp := y.stamp } ∧
        (∃ m ∈ y.pending, m.ring = ring ∧ m.seq = seq ∧ (∀ p ∈ puts, p ∈ m.puts) ∧ ∀ d ∈ dels, d ∈ m.dels) ∧
        (∀ k, k ≠ indexKey field index → FMap.get? t.indexes k = FMap.get? s.indexes k) ∧ t.cmds = s.cmds) ∧
    ∀ (taken : List (Nat × BitVec 48)) (readable : List Nat) (e : BitVec 64),
      s.readerHalted (.copy (indexKey field index)) = false →
      let key := indexKey field index
      let w := (s.dropReader (.copy key)).setIndex key (x.setApart taken)
      let done := FMap.getD s.casc.commitPages key []
      let answers := fun (st : Nat) (p : State → Prop) => ∃ t : State,
        exec (.commitMessage field index taken readable e) s = .next t ∧ p t ∧
        t.out.head? = some (.message s.casc.leadOrdinal msgCOMMIT (leBytes 1 field ++ leBytes 1 index ++ leBytes 2 st))
      let unchanged := fun (t : State) => t.indexes = s.indexes ∧ t.fields = s.fields ∧ t.tbk = s.tbk ∧ t.cmds = s.cmds
      (w.prepareCommit key 1 = none → answers 0x000B unchanged) ∧
      ∀ r, w.prepareCommit key 1 = some r →
        ((∃ a ∈ r.spans, r.s.spanLost field a = true) → answers stHW_FAULT unchanged) ∧
        ((∀ a ∈ r.spans, r.s.spanLost field a = false) → r.s.firstAway field done r.spans = none →
          r.s.retrains field r.spans = false → answers 0 (fun t => ∃ y, t.index? field index = some y ∧
            y.epoch = x.epoch + 1 ∧ y.holds = readable.filter (fun n => n != x.epoch + 1) ∧
            y.pending = (x.pending.filter (fun m => !taken.contains (m.ring, m.seq))).map (fun m => { m with stamp := 1 }) ∧
            (∀ k, k ≠ key → FMap.get? t.indexes k = FMap.get? s.indexes k) ∧
            t.tbk = max s.tbk ((e.toNat * 10000 : Int) - s.casc.leadOffset.toInt).toNat))) ∧
  ((∀ (s : State) (m : SearchPartMsg) (x : Index) (v : List (BitVec 32)) (a : Acc), s.completing = true → s.follows = true →
    s.index? m.field m.index = some x → x.active = true → x.p.cascMode ≠ 0 → x.p.cascMode ≠ 2 →
    (∀ j ∈ s.served, j.2.msg ≠ m) → prepare x.p (vecFmt m.vecFmt) (patterns (vecFmt m.vecFmt) x.p.v m.query) = some (v, a) →
    let n := maxBy (fun j => j.1 + 1) s.served
    let q := s.partQuery m v a.fl
    let u := ({ s with served := FMap.set s.served n ⟨m, q, []⟩, order := s.order + 1 } : State).dropReader (.part n)
    let spans := u.partSpans x ⟨m, q, []⟩
    let w := u.readSpans m.field m.cls (unitKey 0 ((u.inService 0).headD 0)) false spans
    (m.cls ≠ 0 → ∀ l ∈ m.lists, u.forcedFault m.field m.index l = none) → u.atHand m.field false spans →
    (∀ b ∈ spans, w.spanFault m.field b = false) → s.forcedReplays m.field = 0 →
    let scanned := (x.scanPart q).q
    let r := if m.rerank = 0 then scanned else (scanned.withExact x (x.searchWay 0)).1
    ∃ t : State, exec (.searchPart m) s = .next t ∧ t.indexes = s.indexes ∧ t.cmds = s.cmds ∧ t.queries = s.queries ∧
      (∀ j ∈ t.served, j.2.msg ≠ m) ∧
      t.out.head? = some (.message s.casc.leadOrdinal msgPART_REPLY (leBytes 4 m.tag.toNat ++ leBytes 2 0 ++
        leBytes 8 r.qualified ++ leBytes 4 r.flags.toNat ++ candBytes r.cands))) ∧
  ∀ (s : State) (ring : Nat) (seq : BitVec 48) (n slot : Nat) (cs : List (BitVec 32 × BitVec 64 × Option (BitVec 32)))
    (qualified : Nat) (fl : BitVec 11) (q : Query), s.completing = true → s.query? ⟨ring, seq, n⟩ = some q →
    (∃ p ∈ q.parts, p.1 = slot) →
    (∃ (t : State) (r : Query), exec (.searchPartReply ring seq n slot 0 cs qualified fl) s = .next t ∧
      t.query? ⟨ring, seq, n⟩ = some r ∧ (∀ p, p ∈ r.parts ↔ p ∈ q.parts ∧ p.1 ≠ slot) ∧
      r.qualified = q.qualified + qualified ∧ r.flags = q.flags ||| fl ∧ r.cands.length ≤ q.slots ∧
      (∀ e ∈ r.cands, e ∈ q.cands ∨ (e.key, e.id, e.exact) ∈ cs) ∧
      r = { q with parts := r.parts, cands := r.cands, qualified := r.qualified, flags := r.flags } ∧
      t.cmds = s.cmds ∧ t.indexes = s.indexes ∧ t.fields = s.fields) ∧
    ∀ st, st ≠ 0 → (∀ c ∈ s.cmds, c.ring = ring → c.seq = seq → c.work = .search) →
      (∃ c ∈ s.cmds, c.ring = ring ∧ c.seq = seq) →
      ∃ t : State, exec (.searchPartReply ring seq n slot st cs qualified fl) s = .next t ∧
        (∀ c ∈ t.cmds, ¬ (c.ring = ring ∧ c.seq = seq)) ∧ t.query? ⟨ring, seq, n⟩ = none ∧ t.indexes = s.indexes ∧
        ∀ c ∈ s.cmds, ¬ (c.ring = ring ∧ c.seq = seq) → c ∈ t.cmds)

/-- R596, R597, R602 to R606: the standby lead keeps the latest item of each kind; a fenced copy is copied from the
lowest-ordinal copy that serves; a follower reports its own copy of a list to the lead; the lead compares once every
serving copy's report is there, its own among them where it serves: copies of a list that agree only have their padding
rewritten, and copies that differ are fenced, the largest set of equal digests excepted where it is a strict majority. -/
def Obligations.CopiesAndScrub : Prop :=
  (∀ (s : State) (i : StandbyItem), s.up = true → s.cascFormed = true → s.role = 3 →
    ∃ t : State, exec (.standbySync i) s = .next t ∧ s = { t with casc := s.casc } ∧
      t.casc = { s.casc with standby := t.casc.standby } ∧ t.casc.standby.getLast? = some i ∧
      ∀ j, j ≠ i → (j ∈ t.casc.standby ↔ j ∈ s.casc.standby ∧ sameItem i j = false)) ∧
  (∀ (s : State) (field index slot ordinal m : Nat) (x : Index), s.completing = true → s.leads = true →
    s.index? field index = some x → x.p.cascMode ≠ 0 → x.p.cascMode ≠ 2 → (slot, ordinal) ∈ x.fenced →
    (slot, ordinal) ∉ x.copied → s.casc.isMember ordinal = true → argMin (fun m => m) (s.slotCopies x slot) = some m →
    ∃ t : State, exec (.slotCopy field index slot ordinal) s = .next t ∧
      t.indexes = FMap.set s.indexes (indexKey field index) { x with copied := x.copied ++ [(slot, ordinal)] } ∧
      t.out = .message m msgSLOT_COPY (leBytes 1 field ++ leBytes 1 index ++ leBytes 2 slot ++ leBytes 1 ordinal) :: s.out ∧
      t.fields = s.fields ∧ t.cmds = s.cmds) ∧
  (∀ (s : State) (field index slot list : Nat) (copies : List CopyReport) (x : Index), s.completing = true →
    s.index? field index = some x → x.p.cascMode = 3 ∨ x.p.cascMode = 4 →
    s.compacting (indexKey field index) list = false →
    let own := s.ownReport field index list x
    let serving := s.slotCopies x slot
    let rs := (own :: copies.filter (fun r => r.ordinal != s.casc.ordinal)).filter (fun r => serving.contains r.ordinal)
    let i : Instr := .scrubListCompare field index slot list copies
    own.ordinal = s.casc.ordinal ∧ own.slots = (x.list list).image.slots.length ∧
    own.blocks.length = (x.list list).image.blocks.length ∧
    (s.follows = true → ∃ t : State, exec i s = .next t ∧ t.indexes = s.indexes ∧ t.cmds = s.cmds ∧
      t.out = .message s.casc.leadOrdinal msgSCRUB
        (leBytes 1 field ++ leBytes 1 index ++ leBytes 2 slot ++ leBytes 4 list ++ own.bytes) :: s.out) ∧
    (s.leads = true → (∃ m ∈ serving, ∀ r ∈ rs, r.ordinal ≠ m) → exec i s = .next s) ∧
    (s.leads = true → (∀ m ∈ serving, ∃ r ∈ rs, r.ordinal = m) →
      ∃ t : State, exec i s = .next t ∧ t.cmds = s.cmds ∧ t.tbk = s.tbk ∧
        ((∀ r ∈ rs, ∀ q ∈ rs, r.data = q.data) → t.indexes = s.indexes ∧ t.casc = s.casc) ∧
        ((∃ r ∈ rs, ∃ q ∈ rs, r.data ≠ q.data) → ∃ y, t.index? field index = some y ∧
          y = { x with fenced := y.fenced } ∧ (∀ e, e ∈ y.fenced ↔ e ∈ x.fenced ∨ (e.1 = slot ∧ e.2 ∈ toFence rs)) ∧
          ∀ k, k ≠ indexKey field index → FMap.get? t.indexes k = FMap.get? s.indexes k))) ∧
  ∀ rs : List CopyReport, (rs.map (fun r => r.ordinal)).Nodup → ∀ r ∈ rs,
    (r.ordinal ∈ toFence rs ↔ ¬ rs.length < 2 * (rs.filter (fun q => q.data == r.data)).length)

/-- R625, R628, R632 to R635, Table 11.9: every SPDM request is answered on its transport, whose connection state
alone may change, with one response: another version than 1.2 gives VersionMismatch, but for GET_VERSION, and another
code UnsupportedRequest; a certificate portion has at most 1,024 bytes; a challenge and a signed measurement end with
the signature over the transcript. The layouts are those of the DMTF specification (PRESUMED, log 41). R634:
measurement block n, from 1 to 8, carries register n − 1 with its value type; block 9 carries the eight extend counts.
R627: the certificates of the identity and attestation keys do not expire; the attestation certificate's serial number is
the digest of its key, cut to 16 bytes with the top bit cleared. -/
def Obligations.Spdm : Prop :=
  (∀ (s : State) (tr : Transport) (version : Byte), s.spdmServed tr = true →
    let other := fun (t : State) => match tr with
      | .mctp => t.trust.spdmDoe = s.trust.spdmDoe ∧ t.trust = { s.trust with spdmMctp := t.trust.spdmMctp }
      | .doe => t.trust.spdmMctp = s.trust.spdmMctp ∧ t.trust = { s.trust with spdmDoe := t.trust.spdmDoe }
    let tells := fun (i : Instr) (p : Bytes → Prop) => ∃ (t : State) (b : Bytes), exec i s = .next t ∧
      t.out = .spdm tr b :: s.out ∧ other t ∧ s = { t with trust := s.trust, out := s.out, fresh := s.fresh } ∧ p b
    let v12 := version = 0x12#8
    tells (.getVersion tr) (fun b => b = [0x10#8, 0x04#8, 0, 0, 0, 1, 0x00#8, 0x12#8]) ∧
    (∀ i, ¬ v12 → (∃ a b c d e f g h, i ∈ ([.getCapabilities tr version, .negotiateAlgorithms tr version a, .getDigests tr version,
        .getCertificate tr version b c d, .challenge tr version b c e f, .getMeasurements tr version b a g h,
        .spdmUnsupportedRequest tr version 0#8] : List Instr)) →
      tells i (fun r => r = [0x12#8, 0x7F#8, 0x41#8, 0])) ∧
    (v12 →
      tells (.getCapabilities tr version) (fun b => b.take 2 = [0x12#8, 0x61#8] ∧ num b 5 1 = 16 ∧ num b 8 4 = 0x16) ∧
      tells (.negotiateAlgorithms tr version true) (fun b => b.take 2 = [0x12#8, 0x63#8] ∧ num b 8 4 = 4 ∧ num b 12 4 = 0x80 ∧
        num b 16 4 = 2) ∧
      tells (.negotiateAlgorithms tr version false) (fun b => b = [0x12#8, 0x7F#8, 0x01#8, 0]) ∧
      tells (.getDigests tr version) (fun b => b = [0x12#8, 0x01#8, 0, 1] ++ sha384 s.chain) ∧
      (∀ slot offset len, slot ≠ 0 ∨ s.chain.length ≤ offset →
        tells (.getCertificate tr version slot offset len) (fun b => b = [0x12#8, 0x7F#8, 0x01#8, 0])) ∧
      (∀ offset len, offset < s.chain.length → tells (.getCertificate tr version 0 offset len) (fun b =>
        b.take 4 = [0x12#8, 0x02#8, 0, 0] ∧ num b 4 2 = min (min len 1024) (s.chain.length - offset) ∧
        b.drop 8 = (s.chain.drop offset).take (min len 1024))) ∧
      (∀ summary l nonce transcript, summaryBlocks summary = some l →
        tells (.challenge tr version 0 summary nonce transcript) (fun b => ∃ r, b = r ++ s.spdmSign "responder-challenge_auth signing"
            (transcript ++ [0x12#8, 0x83#8, 0, BitVec.ofNat 8 summary] ++ fit 32 nonce) r ∧
          ∃ rest, r = [0x12#8, 0x03#8, 0, 1] ++ sha384 s.chain ++ rest)) ∧
      (∀ index l nonce transcript, measIndex index = some l →
        tells (.getMeasurements tr version index false nonce transcript) (fun b =>
          b.take (8 + (s.measBlocks l).length) = [0x12#8, 0x60#8, if index = 0 then 9 else 0, 0, BitVec.ofNat 8 l.length] ++
            leBytes 3 (s.measBlocks l).length ++ s.measBlocks l) ∧
        tells (.getMeasurements tr version index true nonce transcript) (fun b => ∃ r,
          b = r ++ s.spdmSign "responder-measurements signing"
            (transcript ++ [0x12#8, 0xE0#8, 1, BitVec.ofNat 8 index] ++ fit 32 nonce ++ [0]) r ∧
          r.take (8 + (s.measBlocks l).length) = [0x12#8, 0x60#8, if index = 0 then 9 else 0, 0, BitVec.ofNat 8 l.length] ++
            leBytes 3 (s.measBlocks l).length ++ s.measBlocks l)) ∧
      ∀ code, tells (.spdmUnsupportedRequest tr version code) (fun b => b = [0x12#8, 0x7F#8, 0x07#8, code]))) ∧
  (∀ (s : State) (n : Nat), 1 ≤ n → n ≤ 8 → (s.trust.reg (n - 1)).length = 48 →
    s.measBlock n = [BitVec.ofNat 8 n, 1, 51, 0, if n = 1 then 1 else if n = 2 then 2 else 3, 48, 0] ++ s.trust.reg (n - 1) ∧
    s.measBlock 9 = [9, 1, 35, 0, 0x84#8, 32, 0] ++ (List.range 8).flatMap (fun i => leBytes 4 (s.trust.regCount i))) ∧
  (∀ (svn : BitVec 32) (register0 key : Bytes) (debug : Bool),
    let c := attestationCertificate svn register0 debug key
    c.notAfter = ascii "99991231235959Z" ∧ identityCertificate.notAfter = ascii "99991231235959Z" ∧
    c.notBefore = identityCertificate.notBefore ∧ c.serialNumber.length = 16 ∧ (c.serialNumber.headD 0).msb = false ∧
    c.serialNumber.tail = ((sha384 key).take 16).tail)

/-- R776, R777: the sideband takes the address that ARP assigns, an I3C address by ENTDAA or by SETDASA at static
address 0x4A, and resets its bus interface when SB_SCL stays low for more than 35 ms; nothing else changes. R740,
R742, R748, R750, Table 13.4: a sample of the junction temperature becomes `tj` and drives ALERT_N, which a
temperature above the limit of the grade asserts and one 5 °C below it releases, where no device-fatal error holds it;
the VID code moves by one step towards its target, at most 20, and not within 200 µs of the last step; THERMTRIP_N
stops every clock but AON and returns ALERT_N and the VID code to their reset states. R629, R778, R779: an edge of TCK
moves the TAP by the state diagram of IEEE 1149.1; Test-Logic-Reset selects IDCODE, whose capture loads the
identification register; only the shift states drive TDO; without `debug_unlock` no edge reaches debug access, and
with it debug access, which the manual does not describe, is refused. Table 14.3, R737: without power every interface is at
high impedance but the sideband and the alarms, which are released; with power, memory, flash and VID pins stay so until
they are enabled, and lanes are in electrical idle. -/
def Obligations.PinsAndSideband : Prop :=
  (∀ s : State, s.sidebandServed = true →
    (∀ (u : BitVec 64) (a : BitVec 7),
      (u = smbusUdid → exec (.smbusArp u a) s = .next { s with board := { s.board with smbusAddr := a } }) ∧
      (u ≠ smbusUdid → exec (.smbusArp u a) s = .next s)) ∧
    (∀ (a b : BitVec 7), exec (.i3cAddressAssign false a b) s = .next { s with board := { s.board with i3cAddr := some b } } ∧
      exec (.i3cAddressAssign true 0x4A#7 b) s = .next { s with board := { s.board with i3cAddr := some b } } ∧
      (a ≠ 0x4A#7 → exec (.i3cAddressAssign true a b) s = .next s)) ∧
    ∀ n : Nat, (35 < n → exec (.smbusSclTimeout n) s = .next { s with board := { s.board with sbResets := s.board.sbResets + 1 } }) ∧
      (n ≤ 35 → exec (.smbusSclTimeout n) s = .next s)) ∧
  ((∀ (s : State) (tj : BitVec 16), s.up = true →
    ∃ t : State, exec (.tjSample tj) s = .next t ∧ t.glob = { s.glob with tj := tj } ∧
      t.tbk = (s.tbk / 1000000 + 1) * 1000000 ∧ (s.glob.fatal = true → t.board.alertN = false) ∧
      (junctionLimit < tj.toInt → t.board.alertN = false) ∧
      (tj.toInt ≤ junctionLimit - 40 → s.glob.fatal = false → t.board.alertN = true) ∧
      (junctionLimit - 40 < tj.toInt → tj.toInt ≤ junctionLimit → t.board.alertHot = s.board.alertHot) ∧
      s = { t with glob := s.glob, board := s.board, tbk := s.tbk } ∧
      t.board = { s.board with alertHot := t.board.alertHot, alertN := t.board.alertN }) ∧
  (∀ s : State, s.up = true → s.board.vidDriven = true →
    (s.board.vid = s.vidTarget → exec .vidStep s = .next s) ∧
    (s.board.vid ≠ s.vidTarget → ∃ t : State, exec .vidStep s = .next t ∧ t.tbk = max s.tbk (s.board.vidLast + 200000) ∧
      t.board = { s.board with vid := t.board.vid, vidLast := t.tbk } ∧
      (s.board.vid < s.vidTarget → t.board.vid = s.board.vid + 1) ∧
      (s.vidTarget < s.board.vid → t.board.vid + 1 = s.board.vid) ∧ (s.board.vid ≤ 20 → t.board.vid ≤ 20) ∧
      s = { t with board := s.board, tbk := s.tbk })) ∧
  ∀ (s : State) (sensor : Int), s.board.powered = true → (sensor ≤ 960 → exec (.thermtrip sensor) s = .next s) ∧
    (960 < sensor → ∃ t : State, exec (.thermtrip sensor) s = .next t ∧ t.board.thermtripN = false ∧
      t.board.clocksStopped = true ∧ t.board.vidDriven = false ∧ t.board.qspiOn = false ∧ t.board.gddrOn = false ∧
      t.board.alertN = true ∧ t.board.vid = 10 ∧ t.up = false ∧ s = { t with board := s.board })) ∧
  ((∀ (s : State) (tms tdi : Bool), s.board.powered = true →
    (s.tapDebug = false → ∃ t : State, exec (.tapStep tms tdi) s = .next t ∧ t.board.tap = s.board.tap.step tms ∧
      s = { t with board := s.board, fresh := s.fresh } ∧
      t.board = { s.board with
        tap := t.board.tap, tapIr := t.board.tapIr, tapShift := t.board.tapShift, tapInstr := t.board.tapInstr
        tapBoundary := t.board.tapBoundary, tdo := t.board.tdo } ∧
      (t.board.tdo.isSome = true ↔ t.board.tap = .shiftDr ∨ t.board.tap = .shiftIr) ∧
      (s.board.tap = .testLogicReset → t.board.tapInstr = tapIDCODE) ∧
      (s.board.tap = .captureDr → s.board.tapInstr = tapIDCODE → t.board.tapShift = (List.range 32).map (fun i => idcode.testBit i)) ∧
      (s.board.tap = .shiftDr → t.board.tapShift.length = max s.board.tapShift.length 1 ∧
        t.board.tapShift.getLast? = some tdi)) ∧
    (s.tapDebug = true → exec (.tapStep tms tdi) s = .refused .debugAccess) ∧ (s.debugUnlock = false → s.tapDebug = false)) ∧
  (∀ s : State,
    (s.board.powered = false → (∀ i ∈ [Interface.sideband, .thermtrip, .alert], s.pins i = .released) ∧
      ∀ i, i ∉ [Interface.sideband, .thermtrip, .alert] → s.pins i = .highImpedance) ∧
    (s.board.powered = true → s.tapInstruction ≤ 2 →
      (s.board.gddrOn = false → s.pins .gddr = .highImpedance) ∧ (s.board.qspiOn = false → s.pins .qspi = .highImpedance) ∧
      (s.board.vidDriven = false → s.pins .vid = .highImpedance) ∧ (s.board.pcie = false → s.pins .pcie = .electricalIdle) ∧
      (∀ p, s.portOn p = false → s.pins (.hxl p) = .electricalIdle) ∧
      (s.board.thermtripN = false → s.pins .thermtrip = .low))) ∧
  (∀ t : TapState, ((((t.step true).step true).step true).step true).step true = .testLogicReset) ∧
  idcode % 2 = 1 ∧ idcode / 2 % 2 ^ 11 = 0x3D5 ∧ idcode / 2 ^ 12 % 2 ^ 16 = 0x4816 ∧
  idcode / 2 ^ 28 = Config.deviceRev.toNat % 16)

/-- The queue is served first in, first out, and no command adds to it or takes from it (the model's choice, log 1).
R743, R745: no step leaves an entry in a crossing queue: what a command sends across one it carries to the other side
(the model's choice, log 92). -/
def Obligations.StepTakesFront : Prop :=
  ∀ s t : State, step s = .next t → t.pending = s.pending.tail ∧ (s.crossingsEmpty → t.crossingsEmpty)

/-- Stake slots lie in one-time-programmable memory (11_trust_and_stakes, R643): no step, a reset among them, changes
a copy of a stake slot once it is written; and every step keeps the flash in canonical form (log 7). -/
def Obligations.StakesWrittenOnce : Prop :=
  ∀ s t : State, step s = .next t →
    (∀ k slot c, s.trust.copy k slot c ≠ zeros 32 → t.trust.copy k slot c = s.trust.copy k slot c) ∧
    (s.flashOk → t.flashOk)

/-- R665, R727, R757: but for a cold reset, PERST_N and power-up, no step takes TBK back, and after a device-fatal
error no step takes `fatal` back or writes to host memory. -/
def Obligations.TimeAndFatalLatch : Prop :=
  ∀ s t : State, (∀ c ∈ s.pending.head?,
      (∀ a k, c ≠ .coldReset a k) ∧ (∀ k, c ≠ .perstN k) ∧ ∀ o r, c ≠ .powerUp o r) → step s = .next t →
    s.tbk ≤ t.tbk ∧
    (s.glob.fatal = true → t.glob.fatal = true ∧ hostWrites t.out = hostWrites s.out)
end

