-- ==== Sys2Proof/Laws/Memory.lean ====
section
/-! SUPPORT. Laws of keyed families and of sparse memories: what a read gives after a write, and that every operation
keeps the canonical form. -/

namespace Sys2Proof.Machine

/-! ### Keyed families -/

@[simp] theorem FMap.get?_nil {α : Type} (k : Nat) : FMap.get? ([] : FMap α) k = none := rfl

theorem FMap.get?_cons {α : Type} (j k : Nat) (a : α) (t : FMap α) :
    FMap.get? ((j, a) :: t) k = if j = k then some a else FMap.get? t k := rfl

/-- A read after a write gives the value written at its key and what it gave at every other. -/
theorem FMap.get?_set {α : Type} (m : FMap α) (k j : Nat) (a : α) :
    FMap.get? (FMap.set m k a) j = if k = j then some a else FMap.get? m j := by
  induction m with
  | nil => simp [FMap.set, FMap.get?_cons]
  | cons p t ih =>
    obtain ⟨i, b⟩ := p
    unfold FMap.set
    split
    · simp only [FMap.get?_cons]
    · split
      · rename_i h
        subst h
        simp only [FMap.get?_cons]
        split <;> rfl
      · rename_i h
        simp only [FMap.get?_cons, ih]
        by_cases e : i = j
        · subst e; simp [h]
        · simp [e]

@[simp] theorem FMap.get?_set_self {α : Type} (m : FMap α) (k : Nat) (a : α) : FMap.get? (FMap.set m k a) k = some a := by
  simp [FMap.get?_set]

theorem FMap.get?_set_ne {α : Type} (m : FMap α) {k j : Nat} (a : α) (h : k ≠ j) :
    FMap.get? (FMap.set m k a) j = FMap.get? m j := by simp [FMap.get?_set, h]

theorem FMap.getD_set {α : Type} (m : FMap α) (k j : Nat) (a d : α) :
    FMap.getD (FMap.set m k a) j d = if k = j then a else FMap.getD m j d := by
  unfold FMap.getD
  rw [FMap.get?_set]
  split <;> rfl

@[simp] theorem FMap.getD_set_self {α : Type} (m : FMap α) (k : Nat) (a d : α) : FMap.getD (FMap.set m k a) k d = a := by
  simp [FMap.getD_set]

theorem FMap.getD_set_ne {α : Type} (m : FMap α) {k j : Nat} (a d : α) (h : k ≠ j) :
    FMap.getD (FMap.set m k a) j d = FMap.getD m j d := by simp [FMap.getD_set, h]

/-- Of two writes to one key the later one stands. -/
@[simp] theorem FMap.set_set {α : Type} (m : FMap α) (k : Nat) (a b : α) :
    FMap.set (FMap.set m k a) k b = FMap.set m k b := by
  induction m with
  | nil => simp [FMap.set]
  | cons p t ih =>
    obtain ⟨i, c⟩ := p
    by_cases h1 : k < i
    · simp [FMap.set, h1]
    · by_cases h2 : k = i
      · simp [FMap.set, h2]
      · simp [FMap.set, h1, h2, ih]

/-- An erased key is absent; the others are as they were. -/
theorem FMap.get?_erase {α : Type} (m : FMap α) (k j : Nat) :
    FMap.get? (FMap.erase m k) j = if k = j then none else FMap.get? m j := by
  induction m with
  | nil => simp [FMap.erase]
  | cons p t ih =>
    obtain ⟨i, b⟩ := p
    unfold FMap.erase at ih ⊢
    by_cases h : i = k
    · subst h
      simp only [List.filter_cons, ne_eq, not_true, decide_false, FMap.get?_cons]
      split <;> simp_all
    · simp only [List.filter_cons, ne_eq, h, not_false_eq_true, decide_true, if_true, FMap.get?_cons, ih]
      by_cases e : i = j
      · subst e; simp [Ne.symm h]
      · simp [e]

theorem FMap.mem_set {α : Type} {m : FMap α} {k : Nat} {a : α} {p : Nat × α} (h : p ∈ FMap.set m k a) :
    p = (k, a) ∨ p ∈ m := by
  induction m with
  | nil => simpa [FMap.set] using h
  | cons q t ih =>
    obtain ⟨i, b⟩ := q
    unfold FMap.set at h
    split at h
    · simpa using h
    · split at h
      · simp only [List.mem_cons] at h ⊢; tauto
      · simp only [List.mem_cons] at h ⊢
        rcases h with h | h
        · exact .inr (.inl h)
        · rcases ih h with h | h
          · exact .inl h
          · exact .inr (.inr h)

/-- A write keeps the keys rising. -/
theorem FMap.sorted_set {α : Type} {m : FMap α} (h : FMap.Sorted m) (k : Nat) (a : α) : FMap.Sorted (FMap.set m k a) := by
  induction m with
  | nil => simp [FMap.set, FMap.Sorted]
  | cons p t ih =>
    obtain ⟨i, b⟩ := p
    obtain ⟨h1, h2⟩ := List.pairwise_cons.1 h
    unfold FMap.set
    split
    · rename_i hk
      refine List.pairwise_cons.2 ⟨fun q hq => ?_, h⟩
      rcases List.mem_cons.1 hq with rfl | hq
      · exact hk
      · exact lt_trans hk (h1 q hq)
    · split
      · rename_i hk
        subst hk
        exact List.pairwise_cons.2 ⟨h1, h2⟩
      · rename_i hk hn
        refine List.pairwise_cons.2 ⟨fun q hq => ?_, ih h2⟩
        rcases FMap.mem_set hq with rfl | hq
        · exact lt_of_le_of_ne (not_lt.1 hk) (Ne.symm hn)
        · exact h1 q hq

theorem FMap.sorted_erase {α : Type} {m : FMap α} (h : FMap.Sorted m) (k : Nat) : FMap.Sorted (FMap.erase m k) :=
  List.Pairwise.filter _ h

/-! ### Sparse memory -/

@[simp] theorem Mem.read_nil (d : Byte) (a : Nat) : Mem.read d [] a = d := rfl

theorem Mem.read_cons (d : Byte) (b : Nat) (v : Byte) (t : Mem) (a : Nat) :
    Mem.read d ((b, v) :: t) a = if b = a then v else Mem.read d t a := rfl

theorem Mem.read_append_left (d : Byte) (m n : Mem) (a : Nat) (h : ∀ c ∈ n, c.1 ≠ a) :
    Mem.read d (m ++ n) a = Mem.read d m a := by
  induction m with
  | nil =>
    induction n with
    | nil => rfl
    | cons c n ih =>
      obtain ⟨b, v⟩ := c
      have hb : b ≠ a := h (b, v) (by simp)
      rw [List.nil_append, Mem.read_cons, if_neg hb]
      simpa using ih (fun c hc => h c (by simp [hc]))
  | cons c m ih =>
    obtain ⟨b, v⟩ := c
    simp only [List.cons_append, Mem.read_cons, ih]

theorem Mem.read_append_right (d : Byte) (m n : Mem) (a : Nat) (h : ∀ c ∈ m, c.1 ≠ a) :
    Mem.read d (m ++ n) a = Mem.read d n a := by
  induction m with
  | nil => rfl
  | cons c m ih =>
    obtain ⟨b, v⟩ := c
    have hb : b ≠ a := h (b, v) (by simp)
    rw [List.cons_append, Mem.read_cons, if_neg hb]
    exact ih (fun c hc => h c (by simp [hc]))

/-- A read where the filter takes every cell away gives an unlisted byte; elsewhere it gives what it gave. -/
theorem Mem.read_filter (d : Byte) (m : Mem) (p : Nat → Bool) (a : Nat) :
    Mem.read d (m.filter (fun c => p c.1)) a = if p a then Mem.read d m a else d := by
  induction m with
  | nil => simp
  | cons c m ih =>
    obtain ⟨b, v⟩ := c
    simp only [List.filter_cons]
    by_cases e : b = a
    · subst e
      by_cases h : p b <;> simp_all [Mem.read_cons]
    · by_cases h : p b <;> simp [h, Mem.read_cons, e, ih]

theorem cellsFrom_range (d : Byte) (bs : Bytes) (a : Nat) (c : Host.Cell) (h : c ∈ cellsFrom d a bs) :
    a ≤ c.1 ∧ c.1 < a + bs.length ∧ c.2 ≠ d := by
  induction bs generalizing a with
  | nil => simp [cellsFrom] at h
  | cons b t ih =>
    unfold cellsFrom at h
    split at h
    · have := ih _ h
      simp only [List.length_cons]
      exact ⟨by omega, by omega, this.2.2⟩
    · rename_i hb
      rcases List.mem_cons.1 h with rfl | h
      · exact ⟨le_rfl, by simp, hb⟩
      · have := ih _ h
        simp only [List.length_cons]
        exact ⟨by omega, by omega, this.2.2⟩

theorem cellsFrom_sorted (d : Byte) (bs : Bytes) (a : Nat) : (cellsFrom d a bs).Pairwise (fun p q => p.1 < q.1) := by
  induction bs generalizing a with
  | nil => simp [cellsFrom]
  | cons b t ih =>
    unfold cellsFrom
    split
    · exact ih _
    · refine List.pairwise_cons.2 ⟨fun c hc => ?_, ih _⟩
      have := (cellsFrom_range d t (a + 1) c hc).1
      simp only
      omega

theorem Mem.read_cellsFrom (d : Byte) (bs : Bytes) (a i : Nat) (h : i < bs.length) :
    Mem.read d (cellsFrom d a bs) (a + i) = bs.getD i d := by
  induction bs generalizing a i with
  | nil => simp at h
  | cons b t ih =>
    unfold cellsFrom
    cases i with
    | zero =>
      split
      · rename_i hb
        subst hb
        have : ∀ m : Mem, (∀ c ∈ m, c.1 ≠ a) → Mem.read b m a = b := fun m hm => by
          have := Mem.read_append_right b m [] a hm
          simpa using this
        simpa using this _ (fun c hc => by have := (cellsFrom_range b t (a + 1) c hc).1; omega)
      · simp [Mem.read_cons]
    | succ i =>
      have e : a + (i + 1) = (a + 1) + i := by omega
      have hi : i < t.length := by simpa using h
      split
      · rw [e, ih _ _ hi]; simp
      · rw [Mem.read_cons, if_neg (by omega), e, ih _ _ hi]; simp

/-- A read inside the bytes written gives the byte written there. -/
theorem Mem.read_write_inside (d : Byte) (m : Mem) (a i : Nat) (bs : Bytes) (h : i < bs.length) :
    Mem.read d (Mem.write d m a bs) (a + i) = bs.getD i d := by
  unfold Mem.write
  rw [Mem.read_append_left, Mem.read_append_right]
  · exact Mem.read_cellsFrom d bs a i h
  · intro c hc
    have := (List.mem_filter.1 hc).2
    simp only [decide_eq_true_eq] at this
    omega
  · intro c hc
    have := (List.mem_filter.1 hc).2
    simp only [decide_eq_true_eq] at this
    omega

/-- A read outside the bytes written gives what it gave. -/
theorem Mem.read_write_outside (d : Byte) (m : Mem) (a b : Nat) (bs : Bytes) (h : b < a ∨ a + bs.length ≤ b) :
    Mem.read d (Mem.write d m a bs) b = Mem.read d m b := by
  unfold Mem.write
  rcases h with h | h
  · rw [Mem.read_append_left, Mem.read_append_left,
      Mem.read_filter d m (fun x => decide (x < a))]
    · simp [h]
    · intro c hc
      have := (cellsFrom_range d bs a c hc).1
      omega
    · intro c hc
      have := (List.mem_filter.1 hc).2
      simp only [decide_eq_true_eq] at this
      omega
  · rw [List.append_assoc, Mem.read_append_right, Mem.read_append_right,
      Mem.read_filter d m (fun x => decide (a + bs.length ≤ x))]
    · simp [h]
    · intro c hc
      have := (cellsFrom_range d bs a c hc).2.1
      omega
    · intro c hc
      have := (List.mem_filter.1 hc).2
      simp only [decide_eq_true_eq] at this
      omega

/-- A cleared byte reads as an unlisted one; the others are as they were. -/
theorem Mem.read_clear (d : Byte) (m : Mem) (a n b : Nat) :
    Mem.read d (Mem.clear m a n) b = if a ≤ b ∧ b < a + n then d else Mem.read d m b := by
  unfold Mem.clear
  rw [Mem.read_filter d m (fun x => x < a || a + n ≤ x)]
  by_cases h : a ≤ b ∧ b < a + n
  · rw [if_pos h, if_neg]
    simp only [Bool.or_eq_true, decide_eq_true_eq]
    omega
  · rw [if_neg h, if_pos]
    simp only [Bool.or_eq_true, decide_eq_true_eq]
    omega

@[simp] theorem Mem.wf_nil (d : Byte) : Mem.wf d [] := ⟨List.Pairwise.nil, fun _ h => by cases h⟩

/-- A write keeps the canonical form. -/
theorem Mem.wf_write {d : Byte} {m : Mem} (h : Mem.wf d m) (a : Nat) (bs : Bytes) : Mem.wf d (Mem.write d m a bs) := by
  have lo : ∀ c ∈ m.filter (fun c => c.1 < a), c.1 < a := fun c hc => by simpa using (List.mem_filter.1 hc).2
  have hi : ∀ c ∈ m.filter (fun c => a + bs.length ≤ c.1), a + bs.length ≤ c.1 := fun c hc => by
    simpa using (List.mem_filter.1 hc).2
  constructor
  · unfold Mem.write
    rw [List.pairwise_append, List.pairwise_append]
    refine ⟨⟨List.Pairwise.filter _ h.1, cellsFrom_sorted d bs a, fun p hp q hq => ?_⟩, List.Pairwise.filter _ h.1,
      fun p hp q hq => ?_⟩
    · have := lo p hp
      have := (cellsFrom_range d bs a q hq).1
      omega
    · have := hi q hq
      rcases List.mem_append.1 hp with hp | hp
      · have := lo p hp; omega
      · have := (cellsFrom_range d bs a p hp).2.1; omega
  · intro c hc
    unfold Mem.write at hc
    rcases List.mem_append.1 hc with hc | hc
    · rcases List.mem_append.1 hc with hc | hc
      · exact h.2 c (List.mem_filter.1 hc).1
      · exact (cellsFrom_range d bs a c hc).2.2
    · exact h.2 c (List.mem_filter.1 hc).1

/-- Clearing keeps the canonical form. -/
theorem Mem.wf_clear {d : Byte} {m : Mem} (h : Mem.wf d m) (a n : Nat) : Mem.wf d (Mem.clear m a n) :=
  ⟨List.Pairwise.filter _ h.1, fun c hc => h.2 c (List.mem_filter.1 hc).1⟩

/-- Two memories in canonical form that read alike are equal. -/
theorem Mem.ext {d : Byte} {m n : Mem} (hm : Mem.wf d m) (hn : Mem.wf d n) (h : ∀ a, Mem.read d m a = Mem.read d n a) :
    m = n := by
  have absent : ∀ {t : Mem} {a : Nat}, (∀ c ∈ t, a < c.1) → Mem.read d t a = d := fun {t a} ht => by
    simpa using Mem.read_append_right d t [] a (fun c hc => by have := ht c hc; omega)
  have tail : ∀ {b : Nat} {v : Byte} {t : Mem}, Mem.wf d ((b, v) :: t) →
      Mem.wf d t ∧ (∀ c ∈ t, b < c.1) ∧ v ≠ d := fun {b v t} w =>
    ⟨⟨(List.pairwise_cons.1 w.1).2, fun c hc => w.2 c (by simp [hc])⟩, (List.pairwise_cons.1 w.1).1, w.2 (b, v) (by simp)⟩
  induction m generalizing n with
  | nil =>
    cases n with
    | nil => rfl
    | cons c n =>
      obtain ⟨b, v⟩ := c
      exact absurd (by simpa [Mem.read_cons] using (h b).symm) (tail hn).2.2
  | cons c m ih =>
    obtain ⟨b, v⟩ := c
    obtain ⟨wm, lm, vm⟩ := tail hm
    cases n with
    | nil => exact absurd (by simpa [Mem.read_cons] using h b) vm
    | cons e n =>
      obtain ⟨b', v'⟩ := e
      obtain ⟨wn, ln, vn⟩ := tail hn
      have hb : b = b' := by
        rcases lt_trichotomy b b' with hlt | he | hlt
        · have := h b
          rw [Mem.read_cons, Mem.read_cons, if_pos rfl, if_neg (by omega),
            absent (fun c hc => lt_trans hlt (ln c hc))] at this
          exact absurd this vm
        · exact he
        · have := h b'
          rw [Mem.read_cons, Mem.read_cons, if_neg (by omega), if_pos rfl,
            absent (fun c hc => lt_trans hlt (lm c hc))] at this
          exact absurd this.symm vn
      subst hb
      have hv : v = v' := by simpa [Mem.read_cons] using h b
      subst hv
      congr 1
      refine ih wm wn (fun a => ?_)
      by_cases e : b = a
      · subst e
        rw [absent lm, absent ln]
      · simpa [Mem.read_cons, e] using h a

end Sys2Proof.Machine
end

