-- ==== Sys2Proof/Laws/Keeps.lean ====
section
/-! SUPPORT. What the shared operations keep: one lemma per operation, each from those of the operations it calls. -/

namespace Sys2Proof.Machine

/-- What every command but a reset keeps, from state r to state t: the queue; time, which never goes back; every copy of a
stake slot once written; the canonical form of the flash; empty crossing queues; and, once a device-fatal error has occurred, that error and
silence towards host memory. -/
structure Keeps (r t : State) : Prop where
  pending : t.pending = r.pending
  time : r.tbk ≤ t.tbk
  stakes : ∀ n, FMap.getD r.trust.stakes n (zeros 32) ≠ zeros 32 →
    FMap.getD t.trust.stakes n (zeros 32) = FMap.getD r.trust.stakes n (zeros 32)
  flash : Mem.wf 0xFF r.trust.flash → Mem.wf 0xFF t.trust.flash
  crossed : r.crossingsEmpty → t.crossingsEmpty
  fatal : r.glob.fatal = true → t.glob.fatal = true ∧ hostWrites t.out = hostWrites r.out

theorem Keeps.refl (s : State) : Keeps s s := ⟨rfl, le_rfl, fun _ _ => rfl, id, id, fun h => ⟨h, rfl⟩⟩

theorem Keeps.trans {r s t : State} (a : Keeps r s) (b : Keeps s t) : Keeps r t where
  pending := b.pending.trans a.pending
  time := a.time.trans b.time
  stakes n h := by
    have e := a.stakes n h
    rw [b.stakes n (by rw [e]; exact h), e]
  flash h := b.flash (a.flash h)
  crossed h := b.crossed (a.crossed h)
  fatal h := ⟨(b.fatal (a.fatal h).1).1, (b.fatal (a.fatal h).1).2.trans (a.fatal h).2⟩

/-- A change of other fields keeps. -/
theorem Keeps.update {r s : State} (h : Keeps r s)
    (fresh' : Nat) (rings' : FMap Ring) (skip' : FMap Nat) (lastServed' : FMap Nat) (cmds' : List Cmd) (fields' :
    FMap Field) (indexes' : FMap Index) (compactQueue' : List Waiting) (evaporators' : FMap Compaction) (queries' :
    List Query) (windows' : FMap Window) (nextWindow' : Nat) (order' : Nat) (ledger' : List LedgerEntry) (cores' :
    FMap Core) (messages' : List Message) (runs' : FMap Run) (nextRun' : Nat) (streams' : FMap Stream) (nextStream'
    : Nat) (channels' : FMap Channel) (handleQueues' : FMap HandleQueue) (coulters' :
    FMap CoulterTile) (memRate' : Nat) (channelMib' : Nat) (granary' : List Line) (ownership' : Bool) (badChunks' :
    List (Nat × Nat × Nat)) (modeA' : FMap (BitVec 32 × Flags)) (modeD' : FMap Combine) (served' : FMap PartJob)
    (units' : FMap UnitRec) (ports' : FMap Port) (casc' : Cascade) (log' : EventLog) (trace' : Trace) (counters' :
    FMap Nat) (pert' : Pert) (fns' : FMap FnRegs) (time' : TimeBase) (board' : Board) :
    Keeps r
      ⟨s.pending, s.out, fresh', s.tbk, rings', skip', lastServed', cmds', fields', indexes', compactQueue',
        evaporators', queries', windows', nextWindow', order', ledger', cores', messages', runs', nextRun',
        streams', nextStream', channels', handleQueues', s.crossings, coulters', memRate', channelMib', granary',
        ownership', badChunks', modeA', modeD', served', units', ports', casc', s.trust, log', trace',
        counters', pert', s.glob, fns', time', board'⟩ :=
  ⟨h.pending, h.time, h.stakes, h.flash, h.crossed, h.fatal⟩

theorem Keeps.foldl {α : Type} {r : State} (f : State → α → State) (l : List α) (hf : ∀ s a, Keeps r s → Keeps r (f s a)) :
    ∀ {s : State}, Keeps r s → Keeps r (l.foldl f s) := by
  induction l with
  | nil => exact fun h => h
  | cons a l ih => exact fun h => ih (hf _ a h)
theorem Keeps.foldl_fst {α β : Type} {r : State} (f : State × β → α → State × β) (l : List α)
    (hf : ∀ p a, Keeps r p.1 → Keeps r (f p a).1) : ∀ {p : State × β}, Keeps r p.1 → Keeps r (l.foldl f p).1 := by
  induction l with
  | nil => exact fun h => h
  | cons a l ih => exact fun h => ih (hf _ a h)
theorem Keeps.foldl_option {α : Type} {r : State} (f : Option State → α → Option State) (l : List α)
    (hf : ∀ p a, (∀ t, p = some t → Keeps r t) → ∀ t, f p a = some t → Keeps r t) :
    ∀ {p : Option State}, (∀ t, p = some t → Keeps r t) → ∀ t, l.foldl f p = some t → Keeps r t := by
  induction l with
  | nil => exact fun h => h
  | cons a l ih => exact fun h => ih (hf _ a h)

theorem Keeps.setGlob {r s : State} (h : Keeps r s) (x : Glob) (hx : s.glob.fatal = true → x.fatal = true) :
    Keeps r (s.setGlob x) :=
  ⟨h.pending, h.time, h.stakes, h.flash, h.crossed, fun e => ⟨hx (h.fatal e).1, (h.fatal e).2⟩⟩
theorem Keeps.setTrust {r s : State} (h : Keeps r s) (x : Trust)
    (hx : ∀ n, FMap.getD s.trust.stakes n (zeros 32) ≠ zeros 32 →
      FMap.getD x.stakes n (zeros 32) = FMap.getD s.trust.stakes n (zeros 32))
    (hf : Mem.wf 0xFF s.trust.flash → Mem.wf 0xFF x.flash) : Keeps r (s.setTrust x) :=
  h.trans ⟨rfl, le_rfl, hx, hf, id, fun e => ⟨e, rfl⟩⟩
theorem Keeps.advance {r s : State} (h : Keeps r s) (t : Nat) : Keeps r (s.advance t) :=
  ⟨h.pending, h.time.trans (Nat.le_max_left _ _), h.stakes, h.flash, h.crossed, h.fatal⟩
theorem Keeps.emit {r s : State} (h : Keeps r s) (o : Out) (ho : s.glob.fatal = true → hostWrites [o] = []) :
    Keeps r (s.emit o) :=
  ⟨h.pending, h.time, h.stakes, h.flash, h.crossed, fun e => ⟨(h.fatal e).1, by
    have e1 := ho (h.fatal e).1
    have e2 := (h.fatal e).2
    unfold hostWrites at e1 e2 ⊢
    show ((o :: s.out).filter _) = _
    rw [← List.singleton_append, List.filter_append, e1, e2]
    rfl⟩⟩
theorem Keeps.ite {r a b : State} {c : Prop} [Decidable c] (ha : Keeps r a) (hb : Keeps r b) :
    Keeps r (if c then a else b) := by split <;> assumption

/-- An opcode's verdict keeps what the state it leaves keeps; a refusal leaves none. -/
def VKeeps (r : State) (v : Verdict) : Prop :=
  match v with
  | .refuse _ _ => True
  | .turnAway t _ _ => Keeps r t
  | .accept a => Keeps r a.s
/-- An instruction keeps what the state it leaves keeps. -/
def IKeeps (r : State) (v : Issue) : Prop :=
  match v with
  | .next t _ => Keeps r t
  | .placed t _ => Keeps r t
  | .wait t => Keeps r t
  | _ => True

theorem Keeps.checks {r0 : State} {k : Unit → Verdict} (hk : VKeeps r0 (k ())) (l : List (Bool × ℕ)) :
    VKeeps r0 (Machine.checks l k) := by
  induction l with
  | nil => exact hk
  | cons a l ih =>
    unfold Machine.checks
    split
    · trivial
    · exact ih

theorem Keeps.no {r0 : State} (status : ℕ) :
    VKeeps r0 (no status) := by
  unfold Machine.no
  repeat' trivial

theorem Keeps.setRing {r0 s : State} (h0 : Keeps r0 s) (r : ℕ) (x : Ring) :
    Keeps r0 (State.setRing s r x) := by
  unfold State.setRing
  try dsimp only
  repeat' first
    | assumption
    | with_reducible refine Keeps.foldl _ _ (fun _ _ _ => ?_) ?_
    | split
    | fail_if_no_progress with_reducible apply Keeps.update

theorem Keeps.signalled {r0 s : State} (h0 : Keeps r0 s) (r : Option ℕ) :
    Keeps r0 (State.signalled s r) := by
  unfold State.signalled
  try dsimp only
  repeat' first
    | assumption
    | with_reducible apply Keeps.setRing
    | with_reducible refine Keeps.foldl _ _ (fun _ _ _ => ?_) ?_
    | split

theorem Keeps.setFn {r0 s : State} (h0 : Keeps r0 s) (fn : ℕ) (x : FnRegs) :
    Keeps r0 (State.setFn s fn x) := by
  unfold State.setFn
  try dsimp only
  repeat' first
    | assumption
    | with_reducible refine Keeps.foldl _ _ (fun _ _ _ => ?_) ?_
    | split
    | fail_if_no_progress with_reducible apply Keeps.update

theorem Keeps.raiseVector {r0 s : State} (h0 : Keeps r0 s) (fn : ℕ) (v : ℕ) :
    Keeps r0 (State.raiseVector s fn v) := by
  unfold State.raiseVector
  dsimp only
  split
  · exact Keeps.setFn (Keeps.signalled h0 _) _ _
  · exact Keeps.emit (Keeps.signalled h0 _) _ (fun _ => rfl)

theorem Keeps.setCmds {r0 s : State} (h0 : Keeps r0 s) (x : List Cmd) :
    Keeps r0 (State.setCmds s x) := by
  unfold State.setCmds
  try dsimp only
  repeat' first
    | assumption
    | with_reducible refine Keeps.foldl _ _ (fun _ _ _ => ?_) ?_
    | split
    | fail_if_no_progress with_reducible apply Keeps.update

theorem Keeps.count {r0 s : State} (h0 : Keeps r0 s) (g : ℕ) (pos : ℕ) (n : ℕ) :
    Keeps r0 (State.count s g pos n) := by
  unfold State.count
  try dsimp only
  repeat' first
    | assumption
    | with_reducible refine Keeps.foldl _ _ (fun _ _ _ => ?_) ?_
    | split
    | fail_if_no_progress with_reducible apply Keeps.update

theorem Keeps.setField {r0 s : State} (h0 : Keeps r0 s) (f : ℕ) (x : Machine.Field) :
    Keeps r0 (State.setField s f x) := by
  unfold State.setField
  try dsimp only
  repeat' first
    | assumption
    | with_reducible refine Keeps.foldl _ _ (fun _ _ _ => ?_) ?_
    | split
    | fail_if_no_progress with_reducible apply Keeps.update

theorem Keeps.modField {r0 s : State} (h0 : Keeps r0 s) (f : ℕ) (g : Machine.Field → Machine.Field) :
    Keeps r0 (State.modField s f g) := by
  unfold State.modField
  try dsimp only
  repeat' first
    | assumption
    | with_reducible apply Keeps.setField
    | with_reducible refine Keeps.foldl _ _ (fun _ _ _ => ?_) ?_
    | split

theorem Keeps.countField {r0 s : State} (h0 : Keeps r0 s) (f : ℕ) (pos : ℕ) (n : ℕ) :
    Keeps r0 (State.countField s f pos n) := by
  unfold State.countField
  try dsimp only
  repeat' first
    | assumption
    | with_reducible apply Keeps.modField

theorem Keeps.countFlags {r0 s : State} (h0 : Keeps r0 s) (f : ℕ) (fl : Flags) :
    Keeps r0 (State.countFlags s f fl) := by
  unfold State.countFlags
  try dsimp only
  repeat' first
    | assumption
    | with_reducible apply Keeps.countField
    | with_reducible refine Keeps.foldl _ _ (fun _ _ _ => ?_) ?_
    | split

theorem Keeps.setEvent {r0 s : State} (h0 : Keeps r0 s) (fn : ℕ) (bit : ℕ) :
    Keeps r0 (State.setEvent s fn bit) := by
  unfold State.setEvent
  try dsimp only
  repeat' first
    | assumption
    | with_reducible apply Keeps.setFn
    | with_reducible apply Keeps.raiseVector
    | with_reducible refine Keeps.foldl _ _ (fun _ _ _ => ?_) ?_
    | split

theorem Keeps.appendLog {r0 s : State} (h0 : Keeps r0 s) (code : ℕ) (field : ℕ) (sev : ℕ) (unit : ℕ) (detail : Bytes)
    :
    Keeps r0 (State.appendLog s code field sev unit detail) := by
  unfold State.appendLog
  try dsimp only
  repeat' first
    | assumption
    | with_reducible apply Keeps.count
    | with_reducible apply Keeps.setEvent
    | with_reducible refine Keeps.foldl _ _ (fun _ _ _ => ?_) ?_
    | split
    | fail_if_no_progress with_reducible apply Keeps.update

theorem Keeps.logEvent {r0 s : State} (h0 : Keeps r0 s) (code : ℕ) (field : ℕ) (sev : ℕ) (unit : ℕ) (detail : Bytes) :
    Keeps r0 (State.logEvent s code field sev unit detail) := by
  unfold State.logEvent
  try dsimp only
  repeat' first
    | assumption
    | with_reducible apply Keeps.appendLog
    | with_reducible apply Keeps.setEvent
    | with_reducible refine Keeps.foldl _ _ (fun _ _ _ => ?_) ?_
    | split

theorem Keeps.ringError {r0 s : State} (h0 : Keeps r0 s) (r : ℕ) (cause : ℕ) :
    Keeps r0 (State.ringError s r cause) := by
  unfold State.ringError
  try dsimp only
  repeat' first
    | assumption
    | with_reducible apply Keeps.setRing
    | with_reducible apply Keeps.logEvent
    | with_reducible refine Keeps.foldl _ _ (fun _ _ _ => ?_) ?_
    | split

theorem Keeps.recordFailed {r0 s : State} (h0 : Keeps r0 s) (r : ℕ) :
    Keeps r0 (State.recordFailed s r) := by
  unfold State.recordFailed
  try dsimp only
  repeat' first
    | assumption
    | with_reducible apply Keeps.ringError
    | with_reducible apply Keeps.setRing

theorem Keeps.signalRing {r0 s : State} (h0 : Keeps r0 s) (r : ℕ) :
    Keeps r0 (State.signalRing s r) := by
  unfold State.signalRing
  try dsimp only
  repeat' first
    | assumption
    | with_reducible apply Keeps.raiseVector

theorem Keeps.writeRecord {r0 s : State} (h0 : Keeps r0 s) (r : ℕ) (tag : ℕ) (status : ℕ) (fl : Flags) (seq : BitVec 48)
    (lat : ℕ) (bound : ℕ) (info : ℕ) (irq : Bool) (ok : Bool) :
    Keeps r0 (State.writeRecord s r tag status fl seq lat bound info irq ok) := by
  unfold State.writeRecord
  dsimp only
  split
  · exact h0
  · rename_i c
    have k := Keeps.emit h0 (.hostWrite (ringFn r) ((s.ring r).cqBase + BitVec.ofNat 64 (32 * (s.ring r).cqTail.toNat))
      (recordBytes (s.ring r) tag status fl seq lat bound info)) (fun e => absurd e (by simp_all))
    split
    · exact Keeps.recordFailed h0 _
    · split
      · exact Keeps.signalRing (Keeps.setRing k _ _) _
      · exact Keeps.setRing k _ _

theorem Keeps.traceRec {r0 s : State} (h0 : Keeps r0 s) (src : ℕ) (field : ℕ) (unit : ℕ) (a : BitVec 64) (b : BitVec
    64) :
    Keeps r0 (State.traceRec s src field unit a b) := by
  unfold State.traceRec
  try dsimp only
  repeat' first
    | assumption
    | with_reducible apply Keeps.count
    | with_reducible refine Keeps.foldl _ _ (fun _ _ _ => ?_) ?_
    | split
    | fail_if_no_progress with_reducible apply Keeps.update

theorem Keeps.settleRing {r0 s : State} (h0 : Keeps r0 s) (r : ℕ) :
    Keeps r0 (State.settleRing s r) := by
  unfold State.settleRing
  try dsimp only
  repeat' first
    | assumption
    | with_reducible apply Keeps.setRing
    | with_reducible refine Keeps.foldl _ _ (fun _ _ _ => ?_) ?_
    | split

theorem Keeps.finish {r0 s : State} (h0 : Keeps r0 s) (c : Cmd) (status : ℕ) (info : ℕ) (bound : ℕ) (fl : Flags) (ok
    : Bool) :
    Keeps r0 (State.finish s c status info bound fl ok) := by
  unfold State.finish
  try dsimp only
  repeat' first
    | assumption
    | with_reducible apply Keeps.setCmds
    | with_reducible apply Keeps.count
    | with_reducible apply Keeps.countFlags
    | with_reducible apply Keeps.writeRecord
    | with_reducible apply Keeps.traceRec
    | with_reducible apply Keeps.settleRing
    | with_reducible refine Keeps.foldl _ _ (fun _ _ _ => ?_) ?_
    | split
    | fail_if_no_progress with_reducible apply Keeps.update

theorem Keeps.pinLines {r0 s : State} (h0 : Keeps r0 s) (f : ℕ) :
    Keeps r0 (State.pinLines s f) := by
  unfold State.pinLines
  try dsimp only
  repeat' first
    | assumption
    | with_reducible refine Keeps.foldl _ _ (fun _ _ _ => ?_) ?_
    | split
    | fail_if_no_progress with_reducible apply Keeps.update

theorem Keeps.markPins {r0 s : State} (h0 : Keeps r0 s) (f : ℕ) :
    Keeps r0 (State.markPins s f) := by
  unfold State.markPins
  try dsimp only
  repeat' first
    | assumption
    | with_reducible apply Keeps.modField

theorem Keeps.memoryFreed {r0 s : State} (h0 : Keeps r0 s) (f : ℕ) :
    Keeps r0 (State.memoryFreed s f) := by
  unfold State.memoryFreed
  try dsimp only
  repeat' first
    | assumption
    | with_reducible refine Keeps.foldl _ _ (fun _ _ _ => ?_) ?_
    | split
    | fail_if_no_progress with_reducible apply Keeps.update

theorem Keeps.withLines {r0 s : State} (h0 : Keeps r0 s) (ls : List Line) :
    Keeps r0 (State.withLines s ls) := by
  unfold State.withLines
  try dsimp only
  repeat' first
    | assumption
    | with_reducible refine Keeps.foldl _ _ (fun _ _ _ => ?_) ?_
    | split
    | fail_if_no_progress with_reducible apply Keeps.update

theorem Keeps.freePages {r0 s : State} (h0 : Keeps r0 s) (f : ℕ) (p : Page → Bool) :
    Keeps r0 (State.freePages s f p) := by
  unfold State.freePages
  try dsimp only
  repeat' first
    | assumption
    | with_reducible apply Keeps.setField
    | with_reducible apply Keeps.memoryFreed
    | with_reducible apply Keeps.withLines
    | with_reducible refine Keeps.foldl _ _ (fun _ _ _ => ?_) ?_
    | split
    | fail_if_no_progress with_reducible apply Keeps.update

theorem Keeps.freeUnneeded {r0 s : State} (h0 : Keeps r0 s) (f : ℕ) :
    Keeps r0 (State.freeUnneeded s f) := by
  unfold State.freeUnneeded
  try dsimp only
  repeat' first
    | assumption
    | with_reducible apply Keeps.freePages

theorem Keeps.releasePages {r0 s : State} (h0 : Keeps r0 s) (f : ℕ) :
    Keeps r0 (State.releasePages s f) := by
  unfold State.releasePages
  try dsimp only
  repeat' first
    | assumption
    | with_reducible apply Keeps.pinLines
    | with_reducible apply Keeps.markPins
    | with_reducible apply Keeps.freeUnneeded

theorem Keeps.settleRate {r0 s : State} (h0 : Keeps r0 s) (f : ℕ) :
    Keeps r0 (State.settleRate s f) := by
  unfold State.settleRate
  try dsimp only
  repeat' first
    | assumption
    | with_reducible apply Keeps.modField

theorem Keeps.dropQueries {r0 s : State} (h0 : Keeps r0 s) (p : QRef → Bool) :
    Keeps r0 (State.dropQueries s p) := by
  unfold State.dropQueries
  try dsimp only
  repeat' first
    | assumption
    | with_reducible apply Keeps.releasePages
    | with_reducible apply Keeps.settleRate
    | with_reducible refine Keeps.foldl _ _ (fun _ _ _ => ?_) ?_
    | split
    | fail_if_no_progress with_reducible apply Keeps.update

theorem Keeps.hostWrite {r0 s : State} (h0 : Keeps r0 s) (fn : ℕ) (addr : ℕ) (bs : Bytes) :
    Keeps r0 (State.hostWrite s fn addr bs) := by
  unfold State.hostWrite
  split
  · exact h0
  · rename_i c
    exact Keeps.emit h0 _ (fun e => absurd e (by simp_all))

theorem Keeps.writeReply {r0 s : State} (h0 : Keeps r0 s) (c : Cmd) (writes : List (ℕ × Bytes)) :
    Keeps r0 (State.writeReply s c writes) := by
  unfold State.writeReply
  try dsimp only
  repeat' first
    | assumption
    | with_reducible apply Keeps.hostWrite
    | with_reducible refine Keeps.foldl _ _ (fun _ _ _ => ?_) ?_

theorem Keeps.landIssued {r0 s : State} (h0 : Keeps r0 s) (id : ℕ) (x : Run) :
    Keeps r0 (State.landIssued s id x) := by
  unfold State.landIssued
  try dsimp only
  repeat' first
    | assumption
    | with_reducible apply Keeps.modField

theorem Keeps.setCore {r0 s : State} (h0 : Keeps r0 s) (c : ℕ) (x : Core) :
    Keeps r0 (State.setCore s c x) := by
  unfold State.setCore
  try dsimp only
  repeat' first
    | assumption
    | with_reducible refine Keeps.foldl _ _ (fun _ _ _ => ?_) ?_
    | split
    | fail_if_no_progress with_reducible apply Keeps.update

theorem Keeps.releaseRun {r0 s : State} (h0 : Keeps r0 s) (id : ℕ) (x : Run) :
    Keeps r0 (State.releaseRun s id x) := by
  unfold State.releaseRun
  try dsimp only
  repeat' first
    | assumption
    | with_reducible apply Keeps.modField
    | with_reducible apply Keeps.landIssued
    | with_reducible apply Keeps.setCore
    | with_reducible apply Keeps.countField
    | with_reducible refine Keeps.foldl _ _ (fun _ _ _ => ?_) ?_
    | split
    | fail_if_no_progress with_reducible apply Keeps.update

theorem Keeps.endRun {r0 s : State} (h0 : Keeps r0 s) (id : ℕ) (c : Cmd) (status : ℕ) (withdrawn : Option ℕ) (cycles
    : List ℕ) (replyOk : Bool) (recordOk : Bool) :
    Keeps r0 (State.endRun s id c status withdrawn cycles replyOk recordOk) := by
  unfold State.endRun
  try dsimp only
  repeat' first
    | assumption
    | with_reducible apply Keeps.finish
    | with_reducible apply Keeps.writeReply
    | with_reducible apply Keeps.releaseRun
    | with_reducible refine Keeps.foldl _ _ (fun _ _ _ => ?_) ?_
    | split

theorem Keeps.setUnit {r0 s : State} (h0 : Keeps r0 s) (ty : ℕ) (n : ℕ) (u : UnitRec) :
    Keeps r0 (State.setUnit s ty n u) := by
  unfold State.setUnit
  try dsimp only
  repeat' first
    | assumption
    | with_reducible refine Keeps.foldl _ _ (fun _ _ _ => ?_) ?_
    | split
    | fail_if_no_progress with_reducible apply Keeps.update

theorem Keeps.undo {r0 s : State} (h0 : Keeps r0 s) (c : Cmd) :
    Keeps r0 (State.undo s c) := by
  unfold State.undo
  try dsimp only
  repeat' first
    | assumption
    | with_reducible apply Keeps.releasePages
    | with_reducible apply Keeps.setCmds
    | with_reducible refine Keeps.foldl _ _ (fun _ _ _ => ?_) ?_
    | split
    | fail_if_no_progress with_reducible apply Keeps.update

theorem Keeps.stopCmd {r0 s : State} (h0 : Keeps r0 s) (c : Cmd) (status : ℕ) (withdrawn : Option ℕ) :
    Keeps r0 (State.stopCmd s c status withdrawn) := by
  unfold State.stopCmd
  try dsimp only
  repeat' first
    | assumption
    | with_reducible apply Keeps.finish
    | with_reducible apply Keeps.dropQueries
    | with_reducible apply Keeps.endRun
    | with_reducible apply Keeps.setUnit
    | with_reducible apply Keeps.undo
    | with_reducible refine Keeps.foldl _ _ (fun _ _ _ => ?_) ?_
    | split
    | fail_if_no_progress with_reducible apply Keeps.update

theorem Keeps.stopCmds {r0 s : State} (h0 : Keeps r0 s) (p : Cmd → Bool) (status : ℕ) :
    Keeps r0 (State.stopCmds s p status) := by
  unfold State.stopCmds
  try dsimp only
  repeat' first
    | assumption
    | with_reducible apply Keeps.stopCmd
    | with_reducible refine Keeps.foldl _ _ (fun _ _ _ => ?_) ?_

theorem Keeps.fieldReset {r0 s : State} (h0 : Keeps r0 s) (f : ℕ) :
    Keeps r0 (State.fieldReset s f) := by
  unfold State.fieldReset
  try dsimp only
  repeat' first
    | assumption
    | with_reducible apply Keeps.stopCmds
    | with_reducible apply Keeps.setRing
    | with_reducible apply Keeps.setEvent
    | with_reducible refine Keeps.foldl _ _ (fun _ _ _ => ?_) ?_
    | split
    | fail_if_no_progress with_reducible apply Keeps.update

theorem Keeps.relax {r0 s : State} (h0 : Keeps r0 s) :
    Keeps r0 (State.relax s) := by
  unfold State.relax
  try dsimp only
  repeat' first
    | assumption
    | with_reducible refine Keeps.foldl _ _ (fun _ _ _ => ?_) ?_
    | split
    | fail_if_no_progress with_reducible apply Keeps.update

theorem Keeps.countLookup {r0 s : State} (h0 : Keeps r0 s) (f : ℕ) (slice : ℕ) (hit : Bool) :
    Keeps r0 (State.countLookup s f slice hit) := by
  unfold State.countLookup
  try dsimp only
  repeat' first
    | assumption
    | with_reducible apply Keeps.modField
    | with_reducible apply Keeps.count
    | with_reducible apply Keeps.countField
    | with_reducible refine Keeps.foldl _ _ (fun _ _ _ => ?_) ?_
    | split

theorem Keeps.eccCorrected {r0 s : State} (h0 : Keeps r0 s) (f : ℕ) (page : ℕ) (chunk : ℕ) :
    Keeps r0 (State.eccCorrected s f page chunk) := by
  unfold State.eccCorrected
  try dsimp only
  repeat' first
    | assumption
    | with_reducible apply Keeps.countField
    | with_reducible apply Keeps.logEvent

theorem Keeps.eccFailed {r0 s : State} (h0 : Keeps r0 s) (f : ℕ) (page : ℕ) (chunk : ℕ) :
    Keeps r0 (State.eccFailed s f page chunk) := by
  unfold State.eccFailed
  try dsimp only
  repeat' first
    | assumption
    | with_reducible apply Keeps.countField
    | with_reducible apply Keeps.logEvent
    | with_reducible refine Keeps.foldl _ _ (fun _ _ _ => ?_) ?_
    | split
    | fail_if_no_progress with_reducible apply Keeps.update

theorem Keeps.checkChunk {r0 s : State} (h0 : Keeps r0 s) (f : ℕ) (page : ℕ) (chunk : ℕ) (e : Ecc) :
    Keeps r0 (State.checkChunk s f page chunk e) := by
  unfold State.checkChunk
  try dsimp only
  repeat' first
    | assumption
    | with_reducible apply Keeps.eccCorrected
    | with_reducible apply Keeps.eccFailed
    | with_reducible refine Keeps.foldl _ _ (fun _ _ _ => ?_) ?_
    | split

theorem Keeps.checkLine {r0 s : State} (h0 : Keeps r0 s) (f : ℕ) (c : ℕ) (j : ℕ) (es : List Ecc) :
    Keeps r0 (State.checkLine s f c j es) := by
  unfold State.checkLine
  try dsimp only
  repeat' first
    | assumption
    | with_reducible apply Keeps.checkChunk
    | with_reducible refine Keeps.foldl _ _ (fun _ _ _ => ?_) ?_
    | split

theorem Keeps.setRun {r0 s : State} (h0 : Keeps r0 s) (n : ℕ) (x : Run) :
    Keeps r0 (State.setRun s n x) := by
  unfold State.setRun
  try dsimp only
  repeat' first
    | assumption
    | with_reducible refine Keeps.foldl _ _ (fun _ _ _ => ?_) ?_
    | split
    | fail_if_no_progress with_reducible apply Keeps.update

theorem Keeps.setQueue {r0 s : State} (h0 : Keeps r0 s) (n : ℕ) (q : HandleQueue) :
    Keeps r0 (State.setQueue s n q) := by
  unfold State.setQueue
  try dsimp only
  repeat' first
    | assumption
    | with_reducible refine Keeps.foldl _ _ (fun _ _ _ => ?_) ?_
    | split
    | fail_if_no_progress with_reducible apply Keeps.update

theorem Keeps.popHandle {r0 s : State} (h0 : Keeps r0 s) (n : ℕ) {o} (e0 : (State.popHandle s n) = some o) :
    Keeps r0 o.1 := by
  unfold State.popHandle at e0
  try dsimp only at e0
  repeat' first
    | assumption
    | with_reducible apply Keeps.setQueue
    | with_reducible refine Keeps.foldl _ _ (fun _ _ _ => ?_) ?_
    | (split at e0)
    | (cases e0)

theorem Keeps.returnHandle {r0 s : State} (h0 : Keeps r0 s) (n : ℕ) :
    Keeps r0 (State.returnHandle s n) := by
  unfold State.returnHandle
  try dsimp only
  repeat' first
    | assumption
    | with_reducible apply Keeps.setQueue
    | with_reducible refine Keeps.foldl _ _ (fun _ _ _ => ?_) ?_
    | split

theorem Keeps.takeBuffer {r0 s : State} (h0 : Keeps r0 s) (n : ℕ) :
    Keeps r0 (State.takeBuffer s n).1 := by
  unfold State.takeBuffer
  try dsimp only
  repeat' first
    | assumption
    | with_reducible refine Keeps.popHandle (e0 := by assumption) ?_
    | with_reducible apply Keeps.returnHandle
    | with_reducible refine Keeps.foldl _ _ (fun _ _ _ => ?_) ?_
    | split

theorem Keeps.setBoard {r0 s : State} (h0 : Keeps r0 s) (x : Board) :
    Keeps r0 (State.setBoard s x) := by
  unfold State.setBoard
  try dsimp only
  repeat' first
    | assumption
    | with_reducible refine Keeps.foldl _ _ (fun _ _ _ => ?_) ?_
    | split
    | fail_if_no_progress with_reducible apply Keeps.update

theorem Keeps.assignQueue {r0 s : State} (h0 : Keeps r0 s) (work : ℕ) (producer : ℕ) (consumer : ℕ) (f : ℕ) {o} (e0 :
    (State.assignQueue s work producer consumer f) = some o) :
    Keeps r0 o.1 := by
  unfold State.assignQueue at e0
  try dsimp only at e0
  repeat' first
    | assumption
    | with_reducible apply Keeps.setQueue
    | with_reducible refine Keeps.foldl _ _ (fun _ _ _ => ?_) ?_
    | (split at e0)
    | (cases e0)
    | (simp only [Option.map_eq_some_iff, Option.bind_eq_some_iff] at e0; obtain ⟨_, e0, rfl⟩ := e0)

theorem Keeps.takeBuffers {r0 : State} (n : ℕ) {s : State} (h0 : Keeps r0 s) (q : ℕ) :
    Keeps r0 (State.takeBuffers n s q).1 := by
  induction n generalizing s with
  | zero => exact h0
  | succ n ih =>
    unfold State.takeBuffers
    exact ih (Keeps.takeBuffer h0 _)

theorem Keeps.pushHandle {r0 s : State} (h0 : Keeps r0 s) (n : ℕ) (cs : List Cand) {o : State} (e0 :
    (State.pushHandle s n cs) = some o) :
    Keeps r0 o := by
  unfold State.pushHandle at e0
  try dsimp only at e0
  repeat' first
    | assumption
    | with_reducible apply Keeps.setQueue
    | with_reducible refine Keeps.foldl _ _ (fun _ _ _ => ?_) ?_
    | (split at e0)
    | (cases e0)
    | split
    | fail_if_no_progress with_reducible apply Keeps.update

theorem Keeps.sendCands {r0 : State} (n : ℕ) (cs : List Cand) : ∀ {s : State}, Keeps r0 s → Keeps r0 (State.sendCands s n cs).1 := by
  induction cs with
  | nil => exact fun h => Keeps.takeBuffers _ h _
  | cons c cs ih =>
    intro s h0
    unfold State.sendCands
    split
    · rename_i e
      exact ih (Keeps.pushHandle h0 _ _ e)
    · refine ih ?_
      have k := Keeps.takeBuffer h0 n
      cases e : (s.takeBuffer n).1.pushHandle n [c] with
      | none => exact k
      | some t => exact Keeps.pushHandle k _ _ e

theorem Keeps.releaseQueue {r0 s : State} (h0 : Keeps r0 s) (n : ℕ) :
    Keeps r0 (State.releaseQueue s n) := by
  unfold State.releaseQueue
  try dsimp only
  repeat' first
    | assumption
    | with_reducible refine Keeps.foldl _ _ (fun _ _ _ => ?_) ?_
    | split
    | fail_if_no_progress with_reducible apply Keeps.update

theorem Keeps.carry {r0 s : State} (h0 : Keeps r0 s) (work : ℕ) (producer : ℕ) (consumer : ℕ) (f : ℕ) (cs : List
    Cand) :
    Keeps r0 (State.carry s work producer consumer f cs).1 := by
  unfold State.carry
  try dsimp only
  repeat' first
    | assumption
    | with_reducible refine Keeps.assignQueue (e0 := by assumption) ?_
    | with_reducible apply Keeps.sendCands
    | with_reducible apply Keeps.releaseQueue
    | with_reducible refine Keeps.foldl _ _ (fun _ _ _ => ?_) ?_
    | split

theorem Keeps.flashProgrammed {r0 s : State} (h0 : Keeps r0 s) (addr : ℕ) (len : ℕ) :
    Keeps r0 (State.flashProgrammed s addr len) := by
  unfold State.flashProgrammed
  split
  · exact h0
  · exact Keeps.emit h0 _ (fun _ => rfl)

theorem Keeps.flashErased {r0 s : State} (h0 : Keeps r0 s) (addr : ℕ) (len : ℕ) :
    Keeps r0 (State.flashErased s addr len) := by
  unfold State.flashErased
  split
  · exact h0
  · exact Keeps.emit h0 _ (fun _ => rfl)

theorem Trust.wf_writeSector (t : Trust) (slot : Nat) (x : Sector) (h : Mem.wf 0xFF t.flash) :
    Mem.wf 0xFF (t.writeSector slot x).flash := Mem.wf_write (Mem.wf_clear h _ _) _ _
theorem Trust.wf_stage (t : Trust) (slot off : Nat) (b : Bytes) (erase : Bool) (h : Mem.wf 0xFF t.flash) :
    Mem.wf 0xFF (t.stage slot off b erase).flash := by
  unfold Trust.stage
  dsimp only
  split
  · exact Mem.wf_write (Mem.wf_clear h _ _) _ _
  · exact Mem.wf_write h _ _
theorem Keeps.stageBlock {r0 s : State} (h0 : Keeps r0 s) (slot : ℕ) (off : ℕ) (b : Bytes) (erase : Bool) :
    Keeps r0 (State.stageBlock s slot off b erase) := by
  have k := Keeps.setTrust h0 (s.trust.stage slot off b erase) (fun _ _ => rfl) (Trust.wf_stage _ _ _ _ _)
  unfold State.stageBlock
  dsimp only
  split
  · exact Keeps.flashProgrammed (Keeps.flashErased k _ _) _ _
  · exact Keeps.flashProgrammed k _ _

theorem Keeps.rewriteSector {r0 s : State} (h0 : Keeps r0 s) (slot : ℕ) (x : Sector) :
    Keeps r0 (State.rewriteSector s slot x) := by
  unfold State.rewriteSector
  exact Keeps.flashProgrammed (Keeps.flashErased (Keeps.setTrust h0 (s.trust.writeSector slot x) (fun _ _ => rfl) (Trust.wf_writeSector _ _ _)) _ _) _ _

theorem Keeps.dropReader {r0 s : State} (h0 : Keeps r0 s) (r : Reader) :
    Keeps r0 (State.dropReader s r) := by
  unfold State.dropReader
  try dsimp only
  repeat' first
    | assumption
    | with_reducible refine Keeps.foldl _ _ (fun _ _ _ => ?_) ?_
    | split
    | fail_if_no_progress with_reducible apply Keeps.update

theorem Keeps.enqueueLists {r0 s : State} (h0 : Keeps r0 s) (key : ℕ) (e0 : ℕ) (ls : List ℕ) :
    Keeps r0 (State.enqueueLists s key e0 ls) := by
  unfold State.enqueueLists
  try dsimp only
  repeat' first
    | assumption
    | with_reducible refine Keeps.foldl _ _ (fun _ _ _ => ?_) ?_
    | split
    | fail_if_no_progress with_reducible apply Keeps.update

theorem Keeps.abortCompaction {r0 s : State} (h0 : Keeps r0 s) (n : ℕ) :
    Keeps r0 (State.abortCompaction s n) := by
  unfold State.abortCompaction
  try dsimp only
  repeat' first
    | assumption
    | with_reducible apply Keeps.dropReader
    | with_reducible apply Keeps.releasePages
    | with_reducible apply Keeps.enqueueLists
    | with_reducible refine Keeps.foldl _ _ (fun _ _ _ => ?_) ?_
    | split
    | fail_if_no_progress with_reducible apply Keeps.update

theorem Keeps.withdraw {r0 s : State} (h0 : Keeps r0 s) (ty : ℕ) (n : ℕ) :
    Keeps r0 (State.withdraw s ty n).1 := by
  unfold State.withdraw
  try dsimp only
  repeat' first
    | assumption
    | with_reducible apply Keeps.stopCmd
    | with_reducible refine Keeps.foldl _ _ (fun _ _ _ => ?_) ?_

theorem Keeps.setPort {r0 s : State} (h0 : Keeps r0 s) (p : ℕ) (x : Port) :
    Keeps r0 (State.setPort s p x) := by
  unfold State.setPort
  try dsimp only
  repeat' first
    | assumption
    | with_reducible refine Keeps.foldl _ _ (fun _ _ _ => ?_) ?_
    | split
    | fail_if_no_progress with_reducible apply Keeps.update

theorem Keeps.forceOut {r0 s : State} (h0 : Keeps r0 s) (ty : ℕ) (n : ℕ) :
    Keeps r0 (State.forceOut s ty n).1 := by
  unfold State.forceOut
  try dsimp only
  repeat' first
    | assumption
    | with_reducible apply Keeps.abortCompaction
    | with_reducible apply Keeps.withdraw
    | with_reducible apply Keeps.setPort
    | with_reducible refine Keeps.foldl _ _ (fun _ _ _ => ?_) ?_
    | split

theorem Keeps.setQueries {r0 s : State} (h0 : Keeps r0 s) (x : List Query) :
    Keeps r0 (State.setQueries s x) := by
  unfold State.setQueries
  try dsimp only
  repeat' first
    | assumption
    | with_reducible refine Keeps.foldl _ _ (fun _ _ _ => ?_) ?_
    | split
    | fail_if_no_progress with_reducible apply Keeps.update

theorem Keeps.setWindow {r0 s : State} (h0 : Keeps r0 s) (n : ℕ) (x : Window) :
    Keeps r0 (State.setWindow s n x) := by
  unfold State.setWindow
  try dsimp only
  repeat' first
    | assumption
    | with_reducible refine Keeps.foldl _ _ (fun _ _ _ => ?_) ?_
    | split
    | fail_if_no_progress with_reducible apply Keeps.update

theorem Keeps.closeWindow {r0 s : State} (h0 : Keeps r0 s) (n : ℕ) :
    Keeps r0 (State.closeWindow s n) := by
  unfold State.closeWindow
  try dsimp only
  repeat' first
    | assumption
    | with_reducible apply Keeps.countField
    | with_reducible apply Keeps.setWindow
    | with_reducible refine Keeps.foldl _ _ (fun _ _ _ => ?_) ?_
    | split

theorem Keeps.joinWindow {r0 s : State} (h0 : Keeps r0 s) (q : Query) :
    Keeps r0 (State.joinWindow s q) := by
  unfold State.joinWindow
  try dsimp only
  repeat' first
    | assumption
    | with_reducible apply Keeps.setWindow
    | with_reducible apply Keeps.setQueries
    | with_reducible apply Keeps.closeWindow
    | with_reducible refine Keeps.foldl _ _ (fun _ _ _ => ?_) ?_
    | split
    | fail_if_no_progress with_reducible apply Keeps.update

theorem Keeps.place {r0 s : State} (h0 : Keeps r0 s) (q : Query) (bytes : ℕ) {o : State} (e0 : (State.place s q
    bytes) = some o) :
    Keeps r0 o := by
  unfold State.place at e0
  try dsimp only at e0
  repeat' first
    | assumption
    | with_reducible apply Keeps.setCore
    | with_reducible apply Keeps.setQueries
    | with_reducible apply Keeps.joinWindow
    | with_reducible refine Keeps.foldl _ _ (fun _ _ _ => ?_) ?_
    | (split at e0)
    | (cases e0)

theorem Keeps.mustWait {r0 s : State} (h0 : Keeps r0 s) (q : Query) :
    Keeps r0 (State.mustWait s q) := by
  unfold State.mustWait
  try dsimp only
  repeat' first
    | assumption
    | with_reducible apply Keeps.closeWindow
    | with_reducible refine Keeps.foldl _ _ (fun _ _ _ => ?_) ?_
    | split

theorem Keeps.admitQuery {r0 s : State} (h0 : Keeps r0 s) (q : Query) (bytes : ℕ) {o : State} (e0 : (State.admitQuery
    s q bytes) = some o) :
    Keeps r0 o := by
  unfold State.admitQuery at e0
  try dsimp only at e0
  repeat' first
    | assumption
    | with_reducible apply Keeps.setQueries
    | with_reducible refine Keeps.place (e0 := by assumption) ?_
    | with_reducible apply Keeps.mustWait
    | with_reducible refine Keeps.foldl _ _ (fun _ _ _ => ?_) ?_
    | (split at e0)
    | (cases e0)

theorem Keeps.noteSel {r0 s : State} (h0 : Keeps r0 s) (window : Option ℕ) (sel : ℕ) :
    Keeps r0 (State.noteSel s window sel).1 := by
  unfold State.noteSel
  try dsimp only
  repeat' first
    | assumption
    | with_reducible apply Keeps.setWindow
    | with_reducible refine Keeps.foldl _ _ (fun _ _ _ => ?_) ?_
    | split

theorem Keeps.pushStarts {r0 s : State} (h0 : Keeps r0 s) (window : Option ℕ) (start : ℕ) :
    Keeps r0 (State.pushStarts s window start) := by
  unfold State.pushStarts
  try dsimp only
  repeat' first
    | assumption
    | with_reducible refine Keeps.foldl _ _ (fun _ _ _ => ?_) ?_
    | split
    | fail_if_no_progress with_reducible apply Keeps.update

theorem Keeps.enterQuery {r0 s : State} (h0 : Keeps r0 s) (b : BoundIn) (record : Bool) (q : Query) (bytes : ℕ) {o :
    State} (e0 : (State.enterQuery s b record q bytes) = some o) :
    Keeps r0 o := by
  unfold State.enterQuery at e0
  try dsimp only at e0
  repeat' first
    | assumption
    | with_reducible refine Keeps.admitQuery (e0 := by assumption) ?_
    | with_reducible apply Keeps.noteSel
    | with_reducible apply Keeps.pushStarts
    | with_reducible apply Keeps.relax
    | with_reducible refine Keeps.foldl _ _ (fun _ _ _ => ?_) ?_
    | (split at e0)
    | (cases e0)
    | split
    | fail_if_no_progress with_reducible apply Keeps.update

theorem Keeps.enterAll {r0 : State} (b : BoundIn) (record : Bool) (bytes : ℕ) (l : List Query) :
    ∀ {s : State}, Keeps r0 s → ∀ {o : State}, s.enterAll b record bytes l = some o → Keeps r0 o := by
  induction l with
  | nil => intro s h0 o e0; cases e0; exact h0
  | cons q qs ih =>
    intro s h0 o e0
    unfold State.enterAll at e0
    split at e0
    · cases e0
    · rename_i e
      exact ih (Keeps.enterQuery h0 _ _ _ _ e) e0

theorem Keeps.tryAt {r0 s : State} (h0 : Keeps r0 s) (b : Bound) (nprobe : ℕ) {o} (e0 : (State.tryAt s b nprobe) = some
    o) :
    Keeps r0 o.1 := by
  unfold State.tryAt at e0
  split at e0
  · cases e0
  · rename_i e
    cases e0
    exact Keeps.enterAll _ _ _ _ h0 e

theorem Keeps.infeasible {r0 s : State} (h0 : Keeps r0 s) (b : Bound) (bound : ℕ) :
    VKeeps r0 (State.infeasible s b bound) := by
  unfold State.infeasible
  try dsimp only
  repeat' first
    | assumption
    | with_reducible apply Keeps.countField
    | with_reducible refine Keeps.foldl _ _ (fun _ _ _ => ?_) ?_
    | with_reducible apply Keeps.checks
    | with_reducible apply Keeps.no
    | split
    | (fail_if_no_progress change Keeps r0 _)

theorem Keeps.closeAtOnce {r0 s : State} (h0 : Keeps r0 s) (b : Bound) :
    Keeps r0 (State.closeAtOnce s b) := by
  unfold State.closeAtOnce
  try dsimp only
  repeat' first
    | assumption
    | with_reducible apply Keeps.closeWindow
    | with_reducible refine Keeps.foldl _ _ (fun _ _ _ => ?_) ?_
    | split

theorem Keeps.noteReplays {r0 s : State} (h0 : Keeps r0 s) (f : ℕ) (a : Acc) :
    Keeps r0 (State.noteReplays s f a) := by
  unfold State.noteReplays
  try dsimp only
  repeat' first
    | assumption
    | with_reducible apply Keeps.traceRec
    | with_reducible apply Keeps.countField
    | with_reducible refine Keeps.foldl _ _ (fun _ _ _ => ?_) ?_
    | split
    | fail_if_no_progress with_reducible apply Keeps.update

theorem Keeps.searchAdmitted {r0 s : State} (h0 : Keeps r0 s) (b : Bound) (nprobe : ℕ) (bound : ℕ) :
    VKeeps r0 (State.searchAdmitted s b nprobe bound) := by
  unfold State.searchAdmitted
  try dsimp only
  repeat' first
    | assumption
    | with_reducible apply Keeps.countField
    | with_reducible apply Keeps.closeAtOnce
    | with_reducible apply Keeps.noteReplays
    | with_reducible refine Keeps.foldl _ _ (fun _ _ _ => ?_) ?_
    | with_reducible apply Keeps.checks
    | with_reducible apply Keeps.no
    | split
    | (fail_if_no_progress change Keeps r0 _)
    | fail_if_no_progress with_reducible apply Keeps.update

theorem Keeps.recordBound {r0 s : State} (h0 : Keeps r0 s) (ring : ℕ) (seq : BitVec 48) (bound : ℕ) :
    Keeps r0 (State.recordBound s ring seq bound) := by
  unfold State.recordBound
  try dsimp only
  repeat' first
    | assumption
    | with_reducible refine Keeps.foldl _ _ (fun _ _ _ => ?_) ?_
    | split
    | fail_if_no_progress with_reducible apply Keeps.update

theorem Keeps.planCertified {r0 s : State} (h0 : Keeps r0 s) (b : Bound) :
    VKeeps r0 (State.planCertified s b) := by
  unfold State.planCertified
  try dsimp only
  repeat' first
    | assumption
    | with_reducible refine Keeps.tryAt (e0 := by assumption) ?_
    | with_reducible apply Keeps.infeasible
    | with_reducible apply Keeps.searchAdmitted
    | with_reducible apply Keeps.recordBound
    | with_reducible refine Keeps.foldl _ _ (fun _ _ _ => ?_) ?_
    | with_reducible apply Keeps.checks
    | with_reducible apply Keeps.no
    | split

theorem Keeps.extend {r0 s : State} (h0 : Keeps r0 s) (n : ℕ) (e : Bytes) :
    Keeps r0 (State.extend s n e) := by
  unfold State.extend
  exact Keeps.setTrust h0 _ (fun _ _ => rfl) id

theorem Keeps.queueFlits {r0 s : State} (h0 : Keeps r0 s) (p : ℕ) (fs : List TxFlit) :
    Keeps r0 (State.queueFlits s p fs) := by
  unfold State.queueFlits
  try dsimp only
  repeat' first
    | assumption
    | with_reducible apply Keeps.setPort

theorem Keeps.sendMessage {r0 s : State} (h0 : Keeps r0 s) (dst : ℕ) (kind : ℕ) (vc : ℕ) (content : Bytes) :
    Keeps r0 (State.sendMessage s dst kind vc content) := by
  unfold State.sendMessage
  try dsimp only
  repeat' first
    | assumption
    | (with_reducible apply Keeps.emit (ho := fun _ => rfl))
    | with_reducible apply Keeps.queueFlits
    | split
    | with_reducible refine Keeps.foldl _ _ (fun _ _ _ => ?_) ?_

theorem Keeps.tellStandby {r0 s : State} (h0 : Keeps r0 s) (content : Bytes) :
    Keeps r0 (State.tellStandby s content) := by
  unfold State.tellStandby
  try dsimp only
  repeat' first
    | assumption
    | with_reducible apply Keeps.sendMessage
    | with_reducible refine Keeps.foldl _ _ (fun _ _ _ => ?_) ?_
    | split

theorem Keeps.tellMembers {r0 s : State} (h0 : Keeps r0 s) (kind : ℕ) (vc : ℕ) (content : Bytes) :
    Keeps r0 (State.tellMembers s kind vc content) := by
  unfold State.tellMembers
  try dsimp only
  repeat' first
    | assumption
    | with_reducible apply Keeps.sendMessage
    | with_reducible refine Keeps.foldl _ _ (fun _ _ _ => ?_) ?_
    | split

theorem Keeps.configured {r0 s : State} (h0 : Keeps r0 s) (f : ℕ) (action : ℕ) (b : Bytes) :
    Keeps r0 (State.configured s f action b) := by
  unfold State.configured
  try dsimp only
  repeat' first
    | assumption
    | with_reducible apply Keeps.extend
    | with_reducible apply Keeps.tellStandby
    | with_reducible apply Keeps.tellMembers
    | with_reducible refine Keeps.foldl _ _ (fun _ _ _ => ?_) ?_
    | split

theorem Keeps.logTest {r0 s : State} (h0 : Keeps r0 s) (ty : ℕ) (n : ℕ) (pass : Bool) :
    Keeps r0 (State.logTest s ty n pass) := by
  unfold State.logTest
  try dsimp only
  repeat' first
    | assumption
    | with_reducible apply Keeps.logEvent

theorem Keeps.answerCommit {r0 s : State} (h0 : Keeps r0 s) (key : ℕ) (status : ℕ) :
    Keeps r0 (State.answerCommit s key status) := by
  unfold State.answerCommit
  try dsimp only
  repeat' first
    | assumption
    | with_reducible apply Keeps.sendMessage

theorem Keeps.setCasc {r0 s : State} (h0 : Keeps r0 s) (x : Cascade) :
    Keeps r0 (State.setCasc s x) := by
  unfold State.setCasc
  try dsimp only
  repeat' first
    | assumption
    | with_reducible refine Keeps.foldl _ _ (fun _ _ _ => ?_) ?_
    | split
    | fail_if_no_progress with_reducible apply Keeps.update

theorem Keeps.failCopy {r0 s : State} (h0 : Keeps r0 s) (key : ℕ) :
    Keeps r0 (State.failCopy s key) := by
  unfold State.failCopy
  try dsimp only
  repeat' first
    | assumption
    | with_reducible apply Keeps.dropReader
    | with_reducible apply Keeps.answerCommit
    | with_reducible apply Keeps.setCasc

theorem Keeps.frameFor {r0 s : State} (h0 : Keeps r0 s) (f : ℕ) (part : Machine.Part) (half : ℕ) {o} (e0 :
    (State.frameFor s f part half) = some o) :
    Keeps r0 o.1 := by
  unfold State.frameFor at e0
  split at e0
  · cases e0
  · dsimp only at e0
    split at e0
    · cases e0
    · split at e0
      · cases e0
      · rename_i t e
        have k : Keeps r0 t := by
          split at e
          · split at e
            · cases e
            · cases e; exact Keeps.setField h0 _ _
          · cases e; exact h0
        split at e0
        · cases e0
        · split at e0
          · cases e0
          · cases e0; exact k

theorem Keeps.allocPage {r0 s : State} (h0 : Keeps r0 s) (f : ℕ) (k : Need4) {o : State} (e0 : (State.allocPage s f
    k) = some o) :
    Keeps r0 o := by
  unfold State.allocPage at e0
  try dsimp only at e0
  repeat' first
    | assumption
    | with_reducible refine Keeps.frameFor (e0 := by assumption) ?_
    | with_reducible apply Keeps.modField
    | with_reducible apply Keeps.setField
    | with_reducible refine Keeps.foldl _ _ (fun _ _ _ => ?_) ?_
    | (split at e0)
    | (cases e0)

theorem Keeps.allocNeeded {r0 s : State} (h0 : Keeps r0 s) (f : ℕ) {o : State} (e0 : (State.allocNeeded s f) = some o) :
    Keeps r0 o := by
  unfold State.allocNeeded at e0
  refine Keeps.foldl_option _ _ ?_ ?_ _ e0
  · intro p a hp t ht
    try dsimp only at ht
    split at ht
    · cases ht
    · exact Keeps.allocPage (hp _ rfl) _ _ ht
  · intro t ht; cases ht; exact h0

theorem Keeps.liftPage {r0 s : State} (h0 : Keeps r0 s) (f : ℕ) (p : Page) {o : State} (e0 : (State.liftPage s f p) =
    some o) :
    Keeps r0 o := by
  unfold State.liftPage at e0
  try dsimp only at e0
  repeat' first
    | assumption
    | with_reducible refine Keeps.frameFor (e0 := by assumption) ?_
    | with_reducible apply Keeps.modField
    | with_reducible refine Keeps.foldl _ _ (fun _ _ _ => ?_) ?_
    | (split at e0)
    | (cases e0)

theorem Keeps.liftPinned {r0 s : State} (h0 : Keeps r0 s) (f : ℕ) {o : State} (e0 : (State.liftPinned s f) = some o) :
    Keeps r0 o := by
  unfold State.liftPinned at e0
  split at e0
  · cases e0; exact h0
  · refine Keeps.foldl_option _ _ ?_ ?_ _ e0
    · intro p a hp t ht
      try dsimp only at ht
      split at ht
      · cases ht
      · exact Keeps.liftPage (hp _ rfl) _ _ ht
    · intro t ht; cases ht; exact h0

theorem Keeps.syncCapacity {r0 s : State} (h0 : Keeps r0 s) (f : ℕ) {o : State} (e0 : (State.syncCapacity s f) = some
    o) :
    Keeps r0 o := by
  unfold State.syncCapacity at e0
  try dsimp only at e0
  repeat' first
    | assumption
    | with_reducible refine Keeps.allocNeeded (e0 := by assumption) ?_
    | with_reducible apply Keeps.freeUnneeded
    | with_reducible refine Keeps.liftPinned (e0 := by assumption) ?_
    | with_reducible apply Keeps.markPins
    | with_reducible refine Keeps.foldl _ _ (fun _ _ _ => ?_) ?_
    | (split at e0)
    | (cases e0)

theorem Keeps.syncPages {r0 s : State} (h0 : Keeps r0 s) (f : ℕ) {o : State} (e0 : (State.syncPages s f) = some o) :
    Keeps r0 o := by
  unfold State.syncPages at e0
  try dsimp only at e0
  repeat' first
    | assumption
    | with_reducible refine Keeps.syncCapacity (e0 := by assumption) ?_
    | with_reducible apply Keeps.pinLines
    | with_reducible refine Keeps.foldl _ _ (fun _ _ _ => ?_) ?_
    | (split at e0)
    | (cases e0)

theorem Keeps.beginCompaction {r0 s : State} (h0 : Keeps r0 s) (n : ℕ) (w : Waiting) {o : State} (e0 :
    (State.beginCompaction s n w) = some o) :
    Keeps r0 o := by
  unfold State.beginCompaction at e0
  try dsimp only at e0
  repeat' first
    | assumption
    | with_reducible refine Keeps.syncPages (e0 := by assumption) ?_
    | with_reducible refine Keeps.foldl _ _ (fun _ _ _ => ?_) ?_
    | (split at e0)
    | (cases e0)
    | split
    | fail_if_no_progress with_reducible apply Keeps.update

theorem Keeps.takeWaiting {r0 : State} (n : ℕ) (l : List Waiting) :
    ∀ {s : State}, Keeps r0 s → Keeps r0 (s.takeWaiting n l) := by
  induction l with
  | nil => exact fun h => h
  | cons w ws ih =>
    intro s h0
    unfold State.takeWaiting
    split
    · exact ih h0
    · split
      · rename_i e
        exact Keeps.beginCompaction h0 _ _ e
      · exact ih (by with_reducible apply Keeps.update; assumption)

theorem Keeps.pertApply {r0 s : State} (h0 : Keeps r0 s) (q : PertReq) :
    Keeps r0 (State.pertApply s q) := by
  unfold State.pertApply
  try dsimp only
  repeat' first
    | assumption
    | with_reducible apply Keeps.extend
    | with_reducible apply Keeps.logEvent
    | with_reducible refine Keeps.foldl _ _ (fun _ _ _ => ?_) ?_
    | split
    | fail_if_no_progress with_reducible apply Keeps.update

theorem Keeps.takePert {r0 s : State} (h0 : Keeps r0 s) :
    Keeps r0 (State.takePert s) := by
  unfold State.takePert
  try dsimp only
  repeat' first
    | assumption
    | with_reducible apply Keeps.pertApply
    | with_reducible refine Keeps.foldl _ _ (fun _ _ _ => ?_) ?_
    | split
    | fail_if_no_progress with_reducible apply Keeps.update

theorem Keeps.takeBusy {r0 s : State} (h0 : Keeps r0 s) :
    Keeps r0 (State.takeBusy s) := by
  unfold State.takeBusy
  try dsimp only
  repeat' first
    | assumption
    | with_reducible apply Keeps.takePert
    | with_reducible refine Keeps.foldl _ _ (fun _ _ _ => ?_) ?_
    | split

theorem Keeps.markCmdPaged {r0 s : State} (h0 : Keeps r0 s) (ring : ℕ) (seq : BitVec 48) :
    Keeps r0 (State.markCmdPaged s ring seq) := by
  unfold State.markCmdPaged
  try dsimp only
  repeat' first
    | assumption
    | with_reducible apply Keeps.setCmds

theorem Keeps.markPaged {r0 s : State} (h0 : Keeps r0 s) (p : QRef → Bool) :
    Keeps r0 (State.markPaged s p) := by
  unfold State.markPaged
  try dsimp only
  repeat' first
    | assumption
    | with_reducible apply Keeps.setQueries
    | with_reducible apply Keeps.setCmds

theorem Keeps.notePaged {r0 s : State} (h0 : Keeps r0 s) (r : Reader) (p : QRef → Bool) :
    Keeps r0 (State.notePaged s r p) := by
  unfold State.notePaged
  try dsimp only
  repeat' first
    | assumption
    | with_reducible apply Keeps.markCmdPaged
    | with_reducible apply Keeps.setCmds
    | with_reducible apply Keeps.markPaged
    | with_reducible refine Keeps.foldl _ _ (fun _ _ _ => ?_) ?_
    | split
    | fail_if_no_progress with_reducible apply Keeps.update

theorem Keeps.usePages {r0 s : State} (h0 : Keeps r0 s) (f : ℕ) (p : Page → Bool) :
    Keeps r0 (State.usePages s f p) := by
  unfold State.usePages
  try dsimp only
  repeat' first
    | assumption
    | with_reducible apply Keeps.modField

theorem Keeps.placeBestEffort {r0 s : State} (h0 : Keeps r0 s) (b : Bound) (nprobe : ℕ) {o : State}
    (e0 : (State.placeBestEffort s b nprobe) = some o) : Keeps r0 o := Keeps.enterAll _ _ _ _ h0 e0

theorem Keeps.failed {r0 s : State} (h0 : Keeps r0 s) (status : ℕ) :
    VKeeps r0 (Machine.failed s status) := by
  unfold Machine.failed
  try dsimp only
  repeat' assumption

theorem Keeps.planBestEffort {r0 s : State} (h0 : Keeps r0 s) (b : Bound) :
    VKeeps r0 (State.planBestEffort s b) := by
  unfold State.planBestEffort
  try dsimp only
  repeat' first
    | assumption
    | with_reducible apply Keeps.closeWindow
    | with_reducible refine Keeps.placeBestEffort (e0 := by assumption) ?_
    | with_reducible apply Keeps.searchAdmitted
    | with_reducible apply Keeps.failed
    | with_reducible refine Keeps.foldl _ _ (fun _ _ _ => ?_) ?_
    | with_reducible apply Keeps.checks
    | with_reducible apply Keeps.no
    | split

theorem Keeps.stakeEvent {r0 s : State} (h0 : Keeps r0 s) (e : ℕ × ℕ) :
    Keeps r0 (State.stakeEvent s e) := by
  unfold State.stakeEvent
  repeat' first
    | assumption
    | ((with_reducible refine Keeps.setTrust ?_ _ ?_ ?_); (on_goal 2 => exact fun _ _ => rfl); (on_goal 2 => exact id))
    | with_reducible apply Keeps.extend
    | with_reducible apply Keeps.count
    | with_reducible apply Keeps.logEvent

theorem Keeps.refreshCasc {r0 s : State} (h0 : Keeps r0 s) :
    Keeps r0 (State.refreshCasc s) := by
  unfold State.refreshCasc
  try dsimp only
  repeat' first
    | assumption
    | with_reducible apply Keeps.setCasc
    | with_reducible refine Keeps.foldl _ _ (fun _ _ _ => ?_) ?_
    | split

theorem Keeps.setIndex {r0 s : State} (h0 : Keeps r0 s) (key : ℕ) (x : Index) :
    Keeps r0 (State.setIndex s key x) := by
  unfold State.setIndex
  try dsimp only
  repeat' first
    | assumption
    | with_reducible refine Keeps.foldl _ _ (fun _ _ _ => ?_) ?_
    | split
    | fail_if_no_progress with_reducible apply Keeps.update

theorem Keeps.scrubData {r0 s : State} (h0 : Keeps r0 s) (field : ℕ) (index : ℕ) (slot : ℕ) (list : ℕ) (x : Index)
    (ms : List ℕ) :
    Keeps r0 (State.scrubData s field index slot list x ms) := by
  unfold State.scrubData
  try dsimp only
  repeat' first
    | assumption
    | with_reducible apply Keeps.logEvent
    | with_reducible apply Keeps.refreshCasc
    | with_reducible apply Keeps.setIndex
    | with_reducible refine Keeps.foldl _ _ (fun _ _ _ => ?_) ?_

theorem Keeps.haltReader {r0 s : State} (h0 : Keeps r0 s) (f : ℕ) (r : Reader) (cls : ℕ) (requester : ℕ) (stream :
    Bool) (xs : List Span) (g : Segment) (p : QRef → Bool) :
    Keeps r0 (State.haltReader s f r cls requester stream xs g p) := by
  unfold State.haltReader
  try dsimp only
  repeat' first
    | assumption
    | with_reducible apply Keeps.traceRec
    | with_reducible apply Keeps.notePaged
    | with_reducible refine Keeps.foldl _ _ (fun _ _ _ => ?_) ?_
    | split
    | fail_if_no_progress with_reducible apply Keeps.update

theorem Keeps.dropCmd {r0 s : State} (h0 : Keeps r0 s) (c : Cmd) :
    Keeps r0 (State.dropCmd s c) := by
  unfold State.dropCmd
  try dsimp only
  repeat' first
    | assumption
    | with_reducible apply Keeps.setRing
    | with_reducible apply Keeps.finish
    | with_reducible apply Keeps.releaseRun
    | with_reducible apply Keeps.stopCmd
    | with_reducible refine Keeps.foldl _ _ (fun _ _ _ => ?_) ?_
    | split

theorem Keeps.dropCmds {r0 s : State} (h0 : Keeps r0 s) (p : Cmd → Bool) :
    Keeps r0 (State.dropCmds s p) := by
  unfold State.dropCmds
  try dsimp only
  repeat' first
    | assumption
    | with_reducible apply Keeps.dropCmd
    | with_reducible refine Keeps.foldl _ _ (fun _ _ _ => ?_) ?_

theorem Keeps.putQuery {r0 s : State} (h0 : Keeps r0 s) (q : Query) :
    Keeps r0 (State.putQuery s q) := by
  unfold State.putQuery
  try dsimp only
  repeat' first
    | assumption
    | with_reducible apply Keeps.setQueries

theorem Keeps.startPass {r0 s : State} (h0 : Keeps r0 s) (n : ℕ) (w : Window) (p : ListPass) (blocks : ℕ) :
    Keeps r0 (State.startPass s n w p blocks) := by
  unfold State.startPass
  try dsimp only
  repeat' first
    | assumption
    | with_reducible apply Keeps.traceRec
    | with_reducible apply Keeps.setWindow
    | with_reducible refine Keeps.foldl _ _ (fun _ _ _ => ?_) ?_
    | split

theorem crossRead_one (u : State) (q : ℕ) (x : Crossing) (t : ℕ) (b : Bytes) (h : u.crossing q = x) (e : x.entries = [(some t, b)])
    (ht : t ≤ u.tbk) : u.crossRead q = some (u.setCrossing q { x with read := x.read + 1, entries := [] }, b) := by
  unfold State.crossRead
  rw [h]
  simp only [e, if_pos ht]
theorem crossing_setCrossing (s : State) (q k : ℕ) (x : Crossing) : (s.setCrossing q x).crossing k = if q = k then x else s.crossing k :=
  FMap.getD_set _ _ _ _ _
/-- R745: what is written into an empty queue whose reader's clock runs comes out on the other side, once it is visible, and the
queue is empty again. -/
theorem cross_empty (s : State) (q : ℕ) (b : Bytes) (t : ℕ) (e : (s.crossing q).entries = []) (v : s.visibleAt q = some t) :
    s.cross q b = (((s.setCrossing q { s.crossing q with written := (s.crossing q).written + 1, entries := [(some t, b)] }).advance t).setCrossing q
      ⟨(s.crossing q).written + 1, (s.crossing q).read + 1, []⟩, b) := by
  have w : s.crossWrite q b =
      some (s.setCrossing q { s.crossing q with written := (s.crossing q).written + 1, entries := [(some t, b)] }) := by
    unfold State.crossWrite
    simp only [e, v]
    rfl
  unfold State.cross
  simp only [w]
  have vt : (s.setCrossing q { s.crossing q with written := (s.crossing q).written + 1, entries := [(some t, b)] }).visibleAt q = some t := v
  rw [vt]
  dsimp only
  rw [crossRead_one _ q { s.crossing q with written := (s.crossing q).written + 1, entries := [(some t, b)] } t b
    (by show State.crossing (State.setCrossing s q _) q = _; rw [crossing_setCrossing, if_pos rfl]) rfl (Nat.le_max_right _ _)]
  rfl
theorem Keeps.cross {r0 s : State} (h0 : Keeps r0 s) (q : ℕ) (b : Bytes) (hv : (s.visibleAt q).isSome = true) :
    Keeps r0 (State.cross s q b).1 := by
  obtain ⟨t, v⟩ := Option.isSome_iff_exists.1 hv
  have other : ∀ (a : State) (x : Crossing), a.pending = s.pending → s.tbk ≤ a.tbk → a.trust = s.trust → a.glob = s.glob → a.out = s.out →
      (r0.crossingsEmpty → a.crossingsEmpty) → Keeps r0 a := fun a _ e1 e2 e3 e4 e5 e6 =>
    ⟨e1.trans h0.pending, h0.time.trans e2, by rw [e3]; exact h0.stakes, by rw [e3]; exact h0.flash, e6, by rw [e4, e5]; exact h0.fatal⟩
  by_cases e : (s.crossing q).entries = []
  · rw [cross_empty s q b t e v]
    refine other _ ⟨0, 0, []⟩ rfl (Nat.le_max_left _ _) rfl rfl rfl (fun h k => ?_)
    dsimp only
    rw [crossing_setCrossing]
    split
    · rfl
    · show (State.crossing (State.setCrossing s q _) k).entries = _
      rw [crossing_setCrossing, if_neg (by assumption)]
      exact h0.crossed h k
  · have no : r0.crossingsEmpty → False := fun h => e (h0.crossed h q)
    unfold State.cross
    split
    · exact h0
    · rename_i t' w
      unfold State.crossWrite at w
      dsimp only at w
      split at w
      · cases w
      · cases w
        have read : ∀ u : State, u.pending = s.pending → s.tbk ≤ u.tbk → u.trust = s.trust → u.glob = s.glob → u.out = s.out →
            Keeps r0 ((u.crossRead q).getD (u, b)).1 := by
          intro u e1 e2 e3 e4 e5
          unfold State.crossRead
          dsimp only
          split
          · split
            · exact other _ ⟨0, 0, []⟩ e1 e2 e3 e4 e5 (fun h => (no h).elim)
            · exact other _ ⟨0, 0, []⟩ e1 e2 e3 e4 e5 (fun h => (no h).elim)
          · exact other _ ⟨0, 0, []⟩ e1 e2 e3 e4 e5 (fun h => (no h).elim)
        dsimp only
        refine read _ ?_ ?_ ?_ ?_ ?_ <;> split <;> first | rfl | exact Nat.le_max_left _ _

theorem Keeps.serveLevel {r0 s : State} (h0 : Keeps r0 s) (r : ℕ) :
    Keeps r0 (State.serveLevel s r) := by
  unfold State.serveLevel
  try dsimp only
  repeat' first
    | assumption
    | with_reducible refine Keeps.foldl _ _ (fun _ _ _ => ?_) ?_
    | split
    | fail_if_no_progress with_reducible apply Keeps.update

theorem visibleAt_zero (s : State) : (s.visibleAt 0).isSome = true := rfl
theorem Keeps.fetchFrom {r0 s : State} (h0 : Keeps r0 s) (r : ℕ) (pkt : Bytes) :
    Keeps r0 (State.fetchFrom s r pkt) := by
  have k := Keeps.cross (Keeps.serveLevel h0 r) 0 (fit 64 pkt) (visibleAt_zero _)
  unfold State.fetchFrom
  dsimp only
  repeat' first
    | assumption
    | with_reducible apply Keeps.traceRec
    | with_reducible apply Keeps.countField
    | with_reducible apply Keeps.count
    | with_reducible apply Keeps.setCmds
    | with_reducible apply Keeps.setRing
    | split

theorem Keeps.takeFree {r0 s : State} (h0 : Keeps r0 s) :
    Keeps r0 (State.takeFree s) := by
  unfold State.takeFree
  try dsimp only
  repeat' first
    | assumption
    | with_reducible refine Keeps.foldl _ _ (fun _ _ _ => ?_) ?_
    | split
    | fail_if_no_progress with_reducible apply Keeps.update

theorem Keeps.countSteward {r0 s : State} (h0 : Keeps r0 s) :
    Keeps r0 (State.countSteward s) := by
  unfold State.countSteward
  try dsimp only
  repeat' first
    | assumption
    | with_reducible apply Keeps.takeFree
    | with_reducible apply Keeps.count

theorem Keeps.trapThread {r0 s : State} (h0 : Keeps r0 s) (core : ℕ) (thread : ℕ) (cause : ℕ) :
    Keeps r0 (State.trapThread s core thread cause) := by
  unfold State.trapThread
  try dsimp only
  repeat' first
    | assumption
    | with_reducible apply Keeps.setCore

theorem Keeps.replyPart {r0 s : State} (h0 : Keeps r0 s) (tag : BitVec 32) (status : ℕ) (qualified : ℕ) (fl : Flags)
    (cs : List Cand) :
    Keeps r0 (State.replyPart s tag status qualified fl cs) := by
  unfold State.replyPart
  try dsimp only
  repeat' first
    | assumption
    | with_reducible apply Keeps.sendMessage

theorem Keeps.failPart {r0 s : State} (h0 : Keeps r0 s) (n : ℕ) :
    Keeps r0 (State.failPart s n) := by
  unfold State.failPart
  try dsimp only
  repeat' first
    | assumption
    | with_reducible apply Keeps.dropReader
    | with_reducible apply Keeps.replyPart
    | with_reducible refine Keeps.foldl _ _ (fun _ _ _ => ?_) ?_
    | split
    | fail_if_no_progress with_reducible apply Keeps.update

theorem Keeps.logMismatch {r0 s : State} (h0 : Keeps r0 s) (f : ℕ) (ring : ℕ) (seq : BitVec 48) :
    Keeps r0 (State.logMismatch s f ring seq) := by
  unfold State.logMismatch
  try dsimp only
  repeat' first
    | assumption
    | with_reducible apply Keeps.logEvent

theorem Keeps.answerPart {r0 s : State} (h0 : Keeps r0 s) (n : ℕ) (x : Index) (q : Query) (m : SearchPartMsg) :
    Keeps r0 (State.answerPart s n x q m) := by
  unfold State.answerPart
  try dsimp only
  repeat' first
    | assumption
    | with_reducible apply Keeps.countField
    | with_reducible apply Keeps.noteReplays
    | with_reducible apply Keeps.failPart
    | with_reducible apply Keeps.logMismatch
    | with_reducible apply Keeps.replyPart
    | with_reducible refine Keeps.foldl _ _ (fun _ _ _ => ?_) ?_
    | split
    | fail_if_no_progress with_reducible apply Keeps.update

theorem Keeps.setStream {r0 s : State} (h0 : Keeps r0 s) (n : ℕ) (x : Machine.Stream) :
    Keeps r0 (State.setStream s n x) := by
  unfold State.setStream
  try dsimp only
  repeat' first
    | assumption
    | with_reducible refine Keeps.foldl _ _ (fun _ _ _ => ?_) ?_
    | split
    | fail_if_no_progress with_reducible apply Keeps.update

theorem Keeps.fetched {r0 s : State} (h0 : Keeps r0 s) (n : ℕ) (bytes : ℕ) :
    Keeps r0 (State.fetched s n bytes) := by
  unfold State.fetched
  try dsimp only
  repeat' first
    | assumption
    | with_reducible apply Keeps.setStream
    | with_reducible refine Keeps.foldl _ _ (fun _ _ _ => ?_) ?_
    | split

theorem Keeps.setChannel {r0 s : State} (h0 : Keeps r0 s) (c : ℕ) (x : Channel) :
    Keeps r0 (State.setChannel s c x) := by
  unfold State.setChannel
  try dsimp only
  repeat' first
    | assumption
    | with_reducible refine Keeps.foldl _ _ (fun _ _ _ => ?_) ?_
    | split
    | fail_if_no_progress with_reducible apply Keeps.update

theorem Keeps.serveWaiting {r0 s : State} (h0 : Keeps r0 s) (c : ℕ) (f : ℕ) (ks : List ℕ) :
    Keeps r0 (State.serveWaiting s c f ks) := by
  unfold State.serveWaiting
  try dsimp only
  repeat' first
    | assumption
    | with_reducible apply Keeps.fetched
    | with_reducible apply Keeps.setChannel
    | with_reducible refine Keeps.foldl _ _ (fun _ _ _ => ?_) ?_

theorem Keeps.dropIndexes {r0 s : State} (h0 : Keeps r0 s) (p : ℕ → Bool) :
    Keeps r0 (State.dropIndexes s p) := by
  unfold State.dropIndexes
  try dsimp only
  repeat' first
    | assumption
    | with_reducible refine Keeps.foldl _ _ (fun _ _ _ => ?_) ?_
    | split
    | fail_if_no_progress with_reducible apply Keeps.update

theorem Keeps.setSpdm {r0 s : State} (h0 : Keeps r0 s) (t : Transport) (x : Spdm) :
    Keeps r0 (State.setSpdm s t x) := by
  unfold State.setSpdm
  repeat' first
    | assumption
    | ((with_reducible refine Keeps.setTrust ?_ _ ?_ ?_); (on_goal 2 => exact fun _ _ => rfl); (on_goal 2 => exact id))
    | split

theorem Keeps.stores {r0 s : State} (h0 : Keeps r0 s) (spans : List Span) (info : ℕ) (fl : Flags) :
    VKeeps r0 (Machine.stores s spans info fl) := by
  unfold Machine.stores
  try dsimp only
  repeat' assumption

theorem Keeps.loaded {r0 s : State} (h0 : Keeps r0 s) (x : Ctx) (i : Index) (spans : List Span) (n : ℕ) :
    VKeeps r0 (State.loaded s x i spans n) := by
  unfold State.loaded
  try dsimp only
  repeat' first
    | assumption
    | with_reducible refine Keeps.syncPages (e0 := by assumption) ?_
    | with_reducible apply Keeps.setIndex
    | with_reducible apply Keeps.no
    | with_reducible apply Keeps.stores
    | with_reducible apply Keeps.tellMembers
    | with_reducible refine Keeps.foldl _ _ (fun _ _ _ => ?_) ?_
    | with_reducible apply Keeps.checks
    | with_reducible apply Keeps.no
    | split

theorem Keeps.centroidsBody {r0 s : State} (h0 : Keeps r0 s) (x : Ctx) :
    VKeeps r0 (State.centroidsBody s x) := by
  unfold State.centroidsBody
  try dsimp only
  repeat' first
    | assumption
    | with_reducible apply Keeps.no
    | with_reducible apply Keeps.checks
    | with_reducible apply Keeps.loaded
    | with_reducible refine Keeps.foldl _ _ (fun _ _ _ => ?_) ?_
    | with_reducible apply Keeps.checks
    | with_reducible apply Keeps.no
    | split

theorem Keeps.tellAll {r0 s : State} (h0 : Keeps r0 s) (content : Bytes) :
    Keeps r0 (State.tellAll s content) := by
  unfold State.tellAll
  try dsimp only
  repeat' first
    | assumption
    | with_reducible apply Keeps.tellStandby
    | with_reducible apply Keeps.tellMembers

theorem Keeps.bitmapBody {r0 s : State} (h0 : Keeps r0 s) (x : Ctx) :
    VKeeps r0 (State.bitmapBody s x) := by
  unfold State.bitmapBody
  try dsimp only
  repeat' first
    | assumption
    | with_reducible apply Keeps.no
    | with_reducible apply Keeps.checks
    | with_reducible refine Keeps.syncPages (e0 := by assumption) ?_
    | with_reducible apply Keeps.setField
    | with_reducible apply Keeps.stores
    | with_reducible apply Keeps.tellAll
    | with_reducible refine Keeps.foldl _ _ (fun _ _ _ => ?_) ?_
    | with_reducible apply Keeps.checks
    | with_reducible apply Keeps.no
    | split

theorem Keeps.resetFn {r0 s : State} (h0 : Keeps r0 s) (fn : ℕ) :
    Keeps r0 (State.resetFn s fn) := by
  unfold State.resetFn
  try dsimp only
  repeat' first
    | assumption
    | with_reducible apply Keeps.setFn

theorem Keeps.removeField {r0 s : State} (h0 : Keeps r0 s) (f : ℕ) :
    Keeps r0 (State.removeField s f) := by
  unfold State.removeField
  try dsimp only
  repeat' first
    | assumption
    | with_reducible apply Keeps.dropIndexes
    | with_reducible apply Keeps.withLines
    | (with_reducible apply Keeps.emit (ho := fun _ => rfl))
    | split
    | fail_if_no_progress with_reducible apply Keeps.update

theorem Keeps.flr {r0 s : State} (h0 : Keeps r0 s) (fn : ℕ) :
    Keeps r0 (State.flr s fn) := by
  unfold State.flr
  try dsimp only
  repeat' first
    | assumption
    | with_reducible apply Keeps.dropCmds
    | with_reducible apply Keeps.resetFn
    | with_reducible apply Keeps.removeField

theorem Keeps.resolveStakes {r0 s : State} (h0 : Keeps r0 s) :
    Keeps r0 (State.resolveStakes s) := by
  unfold State.resolveStakes
  repeat' first
    | assumption
    | ((with_reducible refine Keeps.setTrust ?_ _ ?_ ?_); (on_goal 2 => exact fun _ _ => rfl); (on_goal 2 => exact id))
    | with_reducible apply Keeps.stakeEvent
    | with_reducible refine Keeps.foldl _ _ (fun _ _ _ => ?_) ?_

theorem Keeps.romStart {r0 s : State} (h0 : Keeps r0 s) :
    Keeps r0 (State.romStart s) := by
  unfold State.romStart
  exact Keeps.resolveStakes (Keeps.setTrust h0 _ (fun _ _ => rfl) id)

theorem Keeps.withProg {r0 s : State} (h0 : Keeps r0 s) (n : ℕ) (x : Machine.Stream) (p : AddrProg) :
    Keeps r0 (State.withProg s n x p) := by
  unfold State.withProg
  try dsimp only
  repeat' first
    | assumption
    | with_reducible apply Keeps.setStream

theorem Keeps.unitTo {r0 s : State} (h0 : Keeps r0 s) (ty : ℕ) (n : ℕ) (st : ℕ) (byDevice : Bool) :
    Keeps r0 (State.unitTo s ty n st byDevice) := by
  unfold State.unitTo
  try dsimp only
  repeat' first
    | assumption
    | with_reducible apply Keeps.setUnit
    | with_reducible apply Keeps.logEvent
    | with_reducible apply Keeps.traceRec

theorem Keeps.logPairOf {r0 s : State} (h0 : Keeps r0 s) (pair : ℕ) (f : ℕ) :
    Keeps r0 (State.logPairOf s pair f) := by
  unfold State.logPairOf
  try dsimp only
  repeat' first
    | assumption
    | with_reducible apply Keeps.logEvent
    | with_reducible refine Keeps.foldl _ _ (fun _ _ _ => ?_) ?_
    | split

theorem Keeps.loseChecks {r0 s : State} (h0 : Keeps r0 s) (pair : ℕ) (f : ℕ) :
    Keeps r0 (State.loseChecks s pair f) := by
  unfold State.loseChecks
  try dsimp only
  repeat' first
    | assumption
    | with_reducible refine Keeps.foldl _ _ (fun _ _ _ => ?_) ?_
    | split
    | fail_if_no_progress with_reducible apply Keeps.update

theorem Keeps.failPair {r0 s : State} (h0 : Keeps r0 s) (pair : ℕ) :
    Keeps r0 (State.failPair s pair) := by
  unfold State.failPair
  try dsimp only
  repeat' first
    | assumption
    | with_reducible apply Keeps.unitTo
    | with_reducible apply Keeps.setUnit
    | with_reducible apply Keeps.logPairOf
    | with_reducible apply Keeps.loseChecks
    | with_reducible refine Keeps.foldl _ _ (fun _ _ _ => ?_) ?_

theorem Keeps.setLine {r0 s : State} (h0 : Keeps r0 s) (l : Line) :
    Keeps r0 (State.setLine s l) := by
  unfold State.setLine
  try dsimp only
  repeat' first
    | assumption
    | with_reducible refine Keeps.foldl _ _ (fun _ _ _ => ?_) ?_
    | split
    | fail_if_no_progress with_reducible apply Keeps.update

theorem Keeps.overfetch {r0 s : State} (h0 : Keeps r0 s) (l : Line) :
    Keeps r0 (State.overfetch s l) := by
  unfold State.overfetch
  try dsimp only
  repeat' first
    | assumption
    | with_reducible apply Keeps.modField
    | with_reducible refine Keeps.foldl _ _ (fun _ _ _ => ?_) ?_
    | split

theorem Keeps.applyPend {r0 s : State} (h0 : Keeps r0 s) (l : Line) :
    Keeps r0 (State.applyPend s l) := by
  unfold State.applyPend
  try dsimp only
  repeat' first
    | assumption
    | with_reducible apply Keeps.modField
    | with_reducible refine Keeps.foldl _ _ (fun _ _ _ => ?_) ?_
    | split

theorem Keeps.writeBack {r0 s : State} (h0 : Keeps r0 s) (l : Line) :
    Keeps r0 (State.writeBack s l) := by
  unfold State.writeBack
  try dsimp only
  repeat' first
    | assumption
    | with_reducible apply Keeps.setChannel
    | with_reducible refine Keeps.foldl _ _ (fun _ _ _ => ?_) ?_
    | split

theorem Keeps.retire {r0 s : State} (h0 : Keeps r0 s) (back : Bool) (p : Line → Bool) :
    Keeps r0 (State.retire s back p) := by
  unfold State.retire
  try dsimp only
  repeat' first
    | assumption
    | with_reducible apply Keeps.overfetch
    | with_reducible apply Keeps.applyPend
    | with_reducible apply Keeps.writeBack
    | with_reducible apply Keeps.withLines
    | with_reducible refine Keeps.foldl _ _ (fun _ _ _ => ?_) ?_
    | split

theorem Keeps.evictLine {r0 s : State} (h0 : Keeps r0 s) (l : Line) :
    Keeps r0 (State.evictLine s l) := by
  unfold State.evictLine
  try dsimp only
  repeat' first
    | assumption
    | with_reducible apply Keeps.setLine
    | with_reducible apply Keeps.retire
    | with_reducible refine Keeps.foldl _ _ (fun _ _ _ => ?_) ?_
    | split

theorem Keeps.makeWay {r0 s : State} (h0 : Keeps r0 s) (l : Line) {o : State} (e0 : (State.makeWay s l) = some o) :
    Keeps r0 o := by
  unfold State.makeWay at e0
  try dsimp only at e0
  repeat' first
    | assumption
    | with_reducible apply Keeps.evictLine
    | with_reducible refine Keeps.foldl _ _ (fun _ _ _ => ?_) ?_
    | (split at e0)
    | (cases e0)

theorem Keeps.useLine {r0 s : State} (h0 : Keeps r0 s) (l : Line) :
    Keeps r0 (State.useLine s l) := by
  unfold State.useLine
  try dsimp only
  repeat' first
    | assumption
    | with_reducible refine Keeps.foldl _ _ (fun _ _ _ => ?_) ?_
    | split
    | fail_if_no_progress with_reducible apply Keeps.update

theorem Keeps.install {r0 s : State} (h0 : Keeps r0 s) (l : Line) :
    Keeps r0 (State.install s l) := by
  unfold State.install
  try dsimp only
  repeat' first
    | assumption
    | with_reducible refine Keeps.makeWay (e0 := by assumption) ?_
    | with_reducible apply Keeps.useLine
    | with_reducible refine Keeps.foldl _ _ (fun _ _ _ => ?_) ?_
    | split

theorem Keeps.rewriteLine {r0 s : State} (h0 : Keeps r0 s) (l : Line) (b : Bytes) :
    Keeps r0 (State.rewriteLine s l b) := by
  unfold State.rewriteLine
  try dsimp only
  repeat' first
    | assumption
    | with_reducible refine Keeps.makeWay (e0 := by assumption) ?_
    | with_reducible apply Keeps.setLine
    | with_reducible apply Keeps.useLine
    | with_reducible refine Keeps.foldl _ _ (fun _ _ _ => ?_) ?_
    | split

theorem Keeps.dirtyLine {r0 s : State} (h0 : Keeps r0 s) (f : ℕ) (cj : ℕ × ℕ) :
    Keeps r0 (State.dirtyLine s f cj) := by
  unfold State.dirtyLine
  try dsimp only
  repeat' first
    | assumption
    | with_reducible apply Keeps.install
    | with_reducible apply Keeps.rewriteLine
    | with_reducible refine Keeps.foldl _ _ (fun _ _ _ => ?_) ?_
    | split
    | fail_if_no_progress with_reducible apply Keeps.update

theorem Keeps.coverChunks {r0 s : State} (h0 : Keeps r0 s) (f : ℕ) (page : ℕ) (a : ℕ) (n : ℕ) :
    Keeps r0 (State.coverChunks s f page a n) := by
  unfold State.coverChunks
  try dsimp only
  repeat' first
    | assumption
    | with_reducible refine Keeps.foldl _ _ (fun _ _ _ => ?_) ?_
    | split
    | fail_if_no_progress with_reducible apply Keeps.update

theorem Keeps.writeSpans {r0 s : State} (h0 : Keeps r0 s) (f : ℕ) (xs : List Span) :
    Keeps r0 (State.writeSpans s f xs) := by
  unfold State.writeSpans
  try dsimp only
  repeat' first
    | assumption
    | with_reducible apply Keeps.dirtyLine
    | with_reducible apply Keeps.usePages
    | with_reducible apply Keeps.coverChunks
    | with_reducible refine Keeps.foldl _ _ (fun _ _ _ => ?_) ?_

theorem Keeps.reserve {r0 s : State} (h0 : Keeps r0 s) (id : ℕ) (x : Run) (cs : List ℕ) :
    Keeps r0 (State.reserve s id x cs) := by
  unfold State.reserve
  try dsimp only
  repeat' first
    | assumption
    | with_reducible apply Keeps.setRun
    | with_reducible apply Keeps.setCore
    | with_reducible refine Keeps.foldl _ _ (fun _ _ _ => ?_) ?_

theorem Keeps.tryReserve {r0 s : State} (h0 : Keeps r0 s) (id : ℕ) :
    Keeps r0 (State.tryReserve s id) := by
  unfold State.tryReserve
  try dsimp only
  repeat' first
    | assumption
    | with_reducible apply Keeps.reserve
    | with_reducible refine Keeps.foldl _ _ (fun _ _ _ => ?_) ?_
    | split

theorem Keeps.reserveRuns {r0 s : State} (h0 : Keeps r0 s) :
    Keeps r0 (State.reserveRuns s) := by
  unfold State.reserveRuns
  try dsimp only
  repeat' first
    | assumption
    | with_reducible apply Keeps.tryReserve
    | with_reducible refine Keeps.foldl _ _ (fun _ _ _ => ?_) ?_

theorem Keeps.forward {r0 s : State} (h0 : Keeps r0 s) (q : ℕ) (vc : ℕ) (half : ℕ) (b : Bytes) :
    Keeps r0 (State.forward s q vc half b) := by
  unfold State.forward
  try dsimp only
  repeat' first
    | assumption
    | with_reducible apply Keeps.queueFlits
    | with_reducible refine Keeps.foldl _ _ (fun _ _ _ => ?_) ?_
    | split

theorem Keeps.takeFlit {r0 s : State} (h0 : Keeps r0 s) (p : ℕ) (f : TxFlit) :
    Keeps r0 (State.takeFlit s p f) := by
  unfold State.takeFlit
  try dsimp only
  repeat' first
    | assumption
    | with_reducible apply Keeps.setPort
    | with_reducible apply Keeps.forward
    | with_reducible refine Keeps.foldl _ _ (fun _ _ _ => ?_) ?_
    | split

theorem Keeps.idle {r0 s : State} (h0 : Keeps r0 s) :
    Keeps r0 (State.idle s) := by
  unfold State.idle
  split
  · exact ⟨h0.pending, h0.time.trans (Nat.le_succ _), h0.stakes, h0.flash, h0.crossed, h0.fatal⟩
  · exact h0

theorem Keeps.compactAsTold {r0 s : State} (h0 : Keeps r0 s) (field : ℕ) (b : Bytes) :
    Keeps r0 (State.compactAsTold s field b) := by
  unfold State.compactAsTold
  try dsimp only
  repeat' first
    | assumption
    | with_reducible apply Keeps.enqueueLists

theorem Keeps.markChanged {r0 s : State} (h0 : Keeps r0 s) (f : ℕ) (p : Page → Bool) :
    Keeps r0 (State.markChanged s f p) := by
  unfold State.markChanged
  try dsimp only
  repeat' first
    | assumption
    | with_reducible apply Keeps.modField

theorem Keeps.storeSpans {r0 s : State} (h0 : Keeps r0 s) (f : ℕ) (xs : List Span) :
    Keeps r0 (State.storeSpans s f xs) := by
  unfold State.storeSpans
  try dsimp only
  repeat' first
    | assumption
    | with_reducible apply Keeps.markChanged
    | with_reducible apply Keeps.writeSpans

theorem Keeps.clearSlot {r0 s : State} (h0 : Keeps r0 s) (core : ℕ) (k : ℕ) :
    Keeps r0 (State.clearSlot s core k) := by
  unfold State.clearSlot
  try dsimp only
  repeat' first
    | assumption
    | with_reducible apply Keeps.setCore
    | with_reducible apply Keeps.countField
    | with_reducible refine Keeps.foldl _ _ (fun _ _ _ => ?_) ?_
    | split
    | fail_if_no_progress with_reducible apply Keeps.update

theorem Keeps.yesReply {r0 s : State} (h0 : Keeps r0 s) (info : ℕ) (writes : List (ℕ × Bytes)) :
    VKeeps r0 (Machine.yesReply s info writes) := by
  unfold Machine.yesReply
  try dsimp only
  repeat' assumption

theorem Keeps.yes {r0 s : State} (h0 : Keeps r0 s) (info : ℕ) :
    VKeeps r0 (Machine.yes s info) := by
  unfold Machine.yes
  try dsimp only
  repeat' assumption

theorem Keeps.dropBody {r0 s : State} (h0 : Keeps r0 s) (x : Ctx) :
    VKeeps r0 (State.dropBody s x) := by
  unfold State.dropBody
  try dsimp only
  repeat' first
    | assumption
    | with_reducible apply Keeps.no
    | with_reducible apply Keeps.checks
    | with_reducible apply Keeps.refreshCasc
    | with_reducible apply Keeps.releasePages
    | with_reducible apply Keeps.dropIndexes
    | with_reducible apply Keeps.tellStandby
    | with_reducible apply Keeps.tellMembers
    | with_reducible apply Keeps.yes
    | with_reducible refine Keeps.foldl _ _ (fun _ _ _ => ?_) ?_
    | with_reducible apply Keeps.checks
    | with_reducible apply Keeps.no
    | split

theorem Keeps.abandonCompaction {r0 s : State} (h0 : Keeps r0 s) (n : ℕ) (e : Compaction) :
    Keeps r0 (State.abandonCompaction s n e) := by
  unfold State.abandonCompaction
  try dsimp only
  repeat' first
    | assumption
    | with_reducible apply Keeps.dropReader
    | with_reducible apply Keeps.stopCmds
    | with_reducible apply Keeps.releasePages
    | with_reducible refine Keeps.foldl _ _ (fun _ _ _ => ?_) ?_
    | split
    | fail_if_no_progress with_reducible apply Keeps.update

theorem Keeps.giveUp {r0 s : State} (h0 : Keeps r0 s) (n : ℕ) :
    Keeps r0 (State.giveUp s n) := by
  unfold State.giveUp
  try dsimp only
  repeat' first
    | assumption
    | with_reducible apply Keeps.abandonCompaction
    | with_reducible refine Keeps.foldl _ _ (fun _ _ _ => ?_) ?_
    | split

theorem Keeps.failWaiting {r0 s : State} (h0 : Keeps r0 s) (f : ℕ) (page : ℕ) :
    Keeps r0 (State.failWaiting s f page) := by
  unfold State.failWaiting
  try dsimp only
  repeat' first
    | assumption
    | with_reducible apply Keeps.stopCmds
    | with_reducible apply Keeps.giveUp
    | with_reducible apply Keeps.failPart
    | with_reducible apply Keeps.failCopy
    | with_reducible refine Keeps.foldl _ _ (fun _ _ _ => ?_) ?_
    | split

theorem Keeps.disarm {r0 s : State} (h0 : Keeps r0 s) (n : ℕ) (x : Setting) :
    Keeps r0 (State.disarm s n x) := by
  unfold State.disarm
  try dsimp only
  repeat' first
    | assumption
    | with_reducible refine Keeps.foldl _ _ (fun _ _ _ => ?_) ?_
    | split
    | fail_if_no_progress with_reducible apply Keeps.update

theorem Keeps.addChecks {r0 : State} (n : ℕ) : ∀ {s : State}, Keeps r0 s → ∀ f : ℕ, Keeps r0 (State.addChecks n s f) := by
  induction n with
  | zero => exact fun h _ => h
  | succ n ih =>
    intro s h0 f
    unfold State.addChecks
    split
    · exact h0
    · split
      · exact h0
      · split
        · exact h0
        · exact ih (Keeps.setField h0 _ _) _

theorem Keeps.trimChecks {r0 s : State} (h0 : Keeps r0 s) (f : ℕ) :
    Keeps r0 (State.trimChecks s f) := by
  unfold State.trimChecks
  try dsimp only
  repeat' first
    | assumption
    | with_reducible apply Keeps.modField

theorem Keeps.turnEcc {r0 s : State} (h0 : Keeps r0 s) (f : ℕ) (old : FieldCfg) :
    Keeps r0 (State.turnEcc s f old) := by
  unfold State.turnEcc
  try dsimp only
  repeat' first
    | assumption
    | with_reducible apply Keeps.addChecks
    | with_reducible apply Keeps.trimChecks
    | with_reducible refine Keeps.foldl _ _ (fun _ _ _ => ?_) ?_
    | split
    | fail_if_no_progress with_reducible apply Keeps.update

theorem Keeps.turnField {r0 s : State} (h0 : Keeps r0 s) (f : ℕ) :
    Keeps r0 (State.turnField s f) := by
  unfold State.turnField
  try dsimp only
  repeat' first
    | assumption
    | with_reducible apply Keeps.removeField
    | with_reducible apply Keeps.setField
    | with_reducible apply Keeps.turnEcc
    | with_reducible refine Keeps.foldl _ _ (fun _ _ _ => ?_) ?_
    | split
    | fail_if_no_progress with_reducible apply Keeps.update

theorem Keeps.lookupLine {r0 s : State} (h0 : Keeps r0 s) (f : ℕ) (c : ℕ) (j : ℕ) :
    Keeps r0 (State.lookupLine s f c j).1 := by
  unfold State.lookupLine
  try dsimp only
  repeat' first
    | assumption
    | with_reducible apply Keeps.countLookup
    | with_reducible apply Keeps.setLine
    | with_reducible apply Keeps.writeBack
    | with_reducible apply Keeps.useLine
    | with_reducible refine Keeps.foldl _ _ (fun _ _ _ => ?_) ?_
    | split

theorem Keeps.resendPart {r0 s : State} (h0 : Keeps r0 s) (key : ℕ) (x : Index) (q : Query) (slot : ℕ) :
    Keeps r0 (State.resendPart s key x q slot).1 := by
  unfold State.resendPart
  try dsimp only
  repeat' first
    | assumption
    | with_reducible apply Keeps.sendMessage
    | with_reducible refine Keeps.foldl _ _ (fun _ _ _ => ?_) ?_
    | split

theorem Keeps.reroute {r0 s : State} (h0 : Keeps r0 s) (q : Query) (m : ℕ) :
    Keeps r0 (State.reroute s q m) := by
  unfold State.reroute
  repeat' first
    | assumption
    | with_reducible apply Keeps.putQuery
    | with_reducible apply Keeps.resendPart
    | split
    | with_reducible refine Keeps.foldl_fst _ _ (fun _ _ _ => ?_) ?_

theorem Keeps.landNarrow {r0 s : State} (h0 : Keeps r0 s) (c : ℕ) (q : Request) :
    Keeps r0 (State.landNarrow s c q) := by
  unfold State.landNarrow
  try dsimp only
  repeat' first
    | assumption
    | with_reducible apply Keeps.setLine
    | with_reducible apply Keeps.setCore
    | with_reducible refine Keeps.foldl _ _ (fun _ _ _ => ?_) ?_
    | split

theorem Keeps.writeMsix {r0 s : State} (h0 : Keeps r0 s) (fn : ℕ) (off : ℕ) (v : BitVec 32) :
    Keeps r0 (State.writeMsix s fn off v) := by
  unfold State.writeMsix
  try dsimp only
  repeat' first
    | assumption
    | with_reducible apply Keeps.setFn
    | (with_reducible apply Keeps.emit (ho := fun _ => rfl))
    | split

theorem Keeps.turnSlicing {r0 s : State} (h0 : Keeps r0 s) :
    Keeps r0 (State.turnSlicing s) := by
  unfold State.turnSlicing
  try dsimp only
  repeat' first
    | assumption
    | with_reducible apply Keeps.retire
    | with_reducible refine Keeps.foldl _ _ (fun _ _ _ => ?_) ?_
    | split
    | fail_if_no_progress with_reducible apply Keeps.update

theorem Keeps.syncMembers {r0 s : State} (h0 : Keeps r0 s) :
    Keeps r0 (State.syncMembers s) := by
  unfold State.syncMembers
  try dsimp only
  repeat' first
    | assumption
    | with_reducible refine Keeps.foldl _ _ (fun _ _ _ => ?_) ?_
    | split
    | fail_if_no_progress with_reducible apply Keeps.update

theorem Keeps.census {r0 s : State} (h0 : Keeps r0 s) (records : FMap CensusRec) :
    Keeps r0 (State.census s records) := by
  unfold State.census
  try dsimp only
  repeat' first
    | assumption
    | with_reducible apply Keeps.syncMembers
    | with_reducible apply Keeps.setCasc
    | with_reducible apply Keeps.sendMessage
    | with_reducible apply Keeps.extend
    | with_reducible apply Keeps.logEvent
    | with_reducible apply Keeps.traceRec
    | with_reducible refine Keeps.foldl _ _ (fun _ _ _ => ?_) ?_

theorem Keeps.recensus {r0 s : State} (h0 : Keeps r0 s) (x : Cascade) :
    Keeps r0 (State.recensus s x) := by
  unfold State.recensus
  try dsimp only
  repeat' first
    | assumption
    | with_reducible apply Keeps.census
    | with_reducible apply Keeps.setCasc
    | with_reducible refine Keeps.foldl _ _ (fun _ _ _ => ?_) ?_
    | split

theorem Keeps.enterUnit {r0 s : State} (h0 : Keeps r0 s) (ty : ℕ) (n : ℕ) :
    Keeps r0 (State.enterUnit s ty n) := by
  unfold State.enterUnit
  try dsimp only
  repeat' first
    | assumption
    | with_reducible apply Keeps.unitTo
    | with_reducible apply Keeps.setPort
    | with_reducible apply Keeps.sendMessage
    | with_reducible apply Keeps.recensus
    | with_reducible refine Keeps.foldl _ _ (fun _ _ _ => ?_) ?_
    | split

theorem Keeps.turnUnit {r0 s : State} (h0 : Keeps r0 s) (key : ℕ) :
    Keeps r0 (State.turnUnit s key) := by
  unfold State.turnUnit
  try dsimp only
  repeat' first
    | assumption
    | with_reducible apply Keeps.enterUnit
    | with_reducible apply Keeps.setUnit
    | with_reducible refine Keeps.foldl _ _ (fun _ _ _ => ?_) ?_
    | split

theorem Keeps.rehome {r0 s : State} (h0 : Keeps r0 s) :
    Keeps r0 (State.rehome s) := by
  unfold State.rehome
  try dsimp only
  repeat' first
    | assumption
    | with_reducible apply Keeps.retire
    | with_reducible apply Keeps.pinLines
    | with_reducible refine Keeps.foldl _ _ (fun _ _ _ => ?_) ?_

theorem Keeps.turnAll {r0 s : State} (h0 : Keeps r0 s) :
    Keeps r0 (State.turnAll s) := by
  unfold State.turnAll
  try dsimp only
  repeat' first
    | assumption
    | with_reducible apply Keeps.turnField
    | with_reducible apply Keeps.turnSlicing
    | with_reducible apply Keeps.turnUnit
    | with_reducible apply Keeps.rehome
    | with_reducible apply Keeps.refreshCasc
    | with_reducible apply Keeps.reserveRuns
    | with_reducible refine Keeps.foldl _ _ (fun _ _ _ => ?_) ?_
    | split
    | fail_if_no_progress with_reducible apply Keeps.update

theorem Keeps.dropTable {r0 s : State} (h0 : Keeps r0 s) (r : QRef) :
    Keeps r0 (State.dropTable s r) := by
  unfold State.dropTable
  try dsimp only
  repeat' first
    | assumption
    | with_reducible refine Keeps.foldl _ _ (fun _ _ _ => ?_) ?_
    | split
    | fail_if_no_progress with_reducible apply Keeps.update

theorem Keeps.formPasses {r0 s : State} (h0 : Keeps r0 s) (n : ℕ) (w : Window) (x : Index) (qs : List Query) :
    Keeps r0 (State.formPasses s n w x qs) := by
  unfold State.formPasses
  try dsimp only
  repeat' first
    | assumption
    | with_reducible apply Keeps.setWindow
    | with_reducible apply Keeps.dropTable
    | with_reducible apply Keeps.putQuery
    | with_reducible apply Keeps.traceRec
    | with_reducible refine Keeps.foldl _ _ (fun _ _ _ => ?_) ?_
    | split

theorem Keeps.enablePorts {r0 s : State} (h0 : Keeps r0 s) :
    Keeps r0 (State.enablePorts s) := by
  unfold State.enablePorts
  try dsimp only
  repeat' first
    | assumption
    | with_reducible apply Keeps.setPort
    | with_reducible refine Keeps.foldl _ _ (fun _ _ _ => ?_) ?_
    | split

theorem Keeps.stays {r0 s : State} (h0 : Keeps r0 s) (w : Work) :
    VKeeps r0 (Machine.stays s w) := by
  unfold Machine.stays
  try dsimp only
  repeat' assumption

theorem Keeps.charge {r0 s : State} (h0 : Keeps r0 s) (f : ℕ) (n : ℕ) :
    Keeps r0 (State.charge s f n) := by
  unfold State.charge
  try dsimp only
  repeat' first
    | assumption
    | with_reducible apply Keeps.modField

theorem Keeps.setPage {r0 s : State} (h0 : Keeps r0 s) (f : ℕ) (p : Page) :
    Keeps r0 (State.setPage s f p) := by
  unfold State.setPage
  try dsimp only
  repeat' first
    | assumption
    | with_reducible apply Keeps.modField

theorem Keeps.placePage {r0 s : State} (h0 : Keeps r0 s) (f : ℕ) (p : Page) (pick : State → Option (State × Loc))
    (hp : ∀ {o}, pick s = some o → Keeps r0 o.1) {o : State} (e0 : s.placePage f p pick = some o) : Keeps r0 o := by
  unfold State.placePage at e0
  split at e0
  · split at e0
    · cases e0
    · rename_i e
      cases e0
      exact Keeps.charge (Keeps.countField (Keeps.setPage (hp e) _ _) _ _ _) _ _
  · cases e0; exact h0

theorem Keeps.startCensus {r0 s : State} (h0 : Keeps r0 s) (q : FormIn) :
    Keeps r0 (State.startCensus s q) := by
  unfold State.startCensus
  try dsimp only
  repeat' first
    | assumption
    | with_reducible apply Keeps.sendMessage
    | with_reducible apply Keeps.setCasc

theorem Keeps.formBody {r0 s : State} (h0 : Keeps r0 s) (x : Ctx) :
    VKeeps r0 (State.formBody s x) := by
  unfold State.formBody
  try dsimp only
  repeat' first
    | assumption
    | with_reducible apply Keeps.checks
    | with_reducible apply Keeps.stays
    | with_reducible apply Keeps.startCensus

theorem Keeps.touch {r0 s : State} (h0 : Keeps r0 s) (f : ℕ) (xs : List Span) :
    Keeps r0 (State.touch s f xs) := by
  unfold State.touch
  try dsimp only
  repeat' first
    | assumption
    | with_reducible apply Keeps.usePages

theorem Keeps.endLostC {r0 s : State} (h0 : Keeps r0 s) (m : ℕ) (recordOk : Bool) :
    Keeps r0 (State.endLostC s m recordOk) := by
  unfold State.endLostC
  try dsimp only
  repeat' first
    | assumption
    | with_reducible apply Keeps.finish
    | with_reducible apply Keeps.dropQueries
    | with_reducible refine Keeps.foldl _ _ (fun _ _ _ => ?_) ?_

theorem Keeps.resetFlash {r0 s : State} (h0 : Keeps r0 s) (busy : ℕ) :
    Keeps r0 (State.resetFlash s busy) := by
  unfold State.resetFlash
  dsimp only
  exact Keeps.advance (Keeps.emit (Keeps.emit (Keeps.emit h0 _ (fun _ => rfl)) _ (fun _ => rfl)) _ (fun _ => rfl)) _

theorem Keeps.faultQueries {r0 s : State} (h0 : Keeps r0 s) (p : Query → Bool) :
    Keeps r0 (State.faultQueries s p) := by
  unfold State.faultQueries
  try dsimp only
  repeat' first
    | assumption
    | with_reducible apply Keeps.stopCmds

theorem Keeps.codebookBody {r0 s : State} (h0 : Keeps r0 s) (x : Ctx) :
    VKeeps r0 (State.codebookBody s x) := by
  unfold State.codebookBody
  try dsimp only
  repeat' first
    | assumption
    | with_reducible apply Keeps.no
    | with_reducible apply Keeps.checks
    | with_reducible apply Keeps.loaded
    | with_reducible refine Keeps.foldl _ _ (fun _ _ _ => ?_) ?_
    | with_reducible apply Keeps.checks
    | with_reducible apply Keeps.no
    | split

theorem Keeps.activateBody {r0 s : State} (h0 : Keeps r0 s) (x : Ctx) :
    VKeeps r0 (State.activateBody s x) := by
  unfold State.activateBody
  try dsimp only
  repeat' first
    | assumption
    | with_reducible apply Keeps.no
    | with_reducible apply Keeps.checks
    | with_reducible refine Keeps.syncPages (e0 := by assumption) ?_
    | with_reducible apply Keeps.setIndex
    | with_reducible apply Keeps.tellMembers
    | with_reducible apply Keeps.yes
    | with_reducible apply Keeps.refreshCasc
    | with_reducible refine Keeps.foldl _ _ (fun _ _ _ => ?_) ?_
    | with_reducible apply Keeps.checks
    | with_reducible apply Keeps.no
    | split

theorem Keeps.filterBody {r0 s : State} (h0 : Keeps r0 s) (x : Ctx) :
    VKeeps r0 (State.filterBody s x) := by
  unfold State.filterBody
  try dsimp only
  repeat' first
    | assumption
    | with_reducible apply Keeps.no
    | with_reducible apply Keeps.yes
    | with_reducible apply Keeps.tellAll
    | with_reducible apply Keeps.setField
    | with_reducible refine Keeps.foldl _ _ (fun _ _ _ => ?_) ?_
    | with_reducible apply Keeps.checks
    | with_reducible apply Keeps.no
    | split

theorem Keeps.filterDropBody {r0 s : State} (h0 : Keeps r0 s) (x : Ctx) :
    VKeeps r0 (State.filterDropBody s x) := by
  unfold State.filterDropBody
  try dsimp only
  repeat' first
    | assumption
    | with_reducible apply Keeps.no
    | with_reducible apply Keeps.checks
    | with_reducible apply Keeps.yes
    | with_reducible apply Keeps.tellAll
    | with_reducible apply Keeps.setField
    | with_reducible refine Keeps.foldl _ _ (fun _ _ _ => ?_) ?_
    | with_reducible apply Keeps.checks
    | with_reducible apply Keeps.no
    | split

theorem Keeps.definition {r0 s : State} (h0 : Keeps r0 s) (x : Ctx) :
    VKeeps r0 (State.definition s x) := by
  unfold State.definition
  try dsimp only
  repeat' first
    | assumption
    | with_reducible apply Keeps.yes
    | with_reducible apply Keeps.setIndex
    | with_reducible apply Keeps.dropBody
    | with_reducible apply Keeps.centroidsBody
    | with_reducible apply Keeps.codebookBody
    | with_reducible apply Keeps.activateBody
    | with_reducible apply Keeps.filterBody
    | with_reducible apply Keeps.filterDropBody
    | with_reducible apply Keeps.bitmapBody
    | with_reducible apply Keeps.no
    | with_reducible refine Keeps.foldl _ _ (fun _ _ _ => ?_) ?_
    | with_reducible apply Keeps.checks
    | with_reducible apply Keeps.no
    | split

theorem Keeps.sendRecord {r0 s : State} (h0 : Keeps r0 s) (x : Index) (ctx : Ctx) (id : BitVec 64) (record : Bytes) :
    Keeps r0 (State.sendRecord s x ctx id record) := by
  unfold State.sendRecord
  try dsimp only
  repeat' first
    | assumption
    | with_reducible apply Keeps.sendMessage
    | with_reducible refine Keeps.foldl _ _ (fun _ _ _ => ?_) ?_
    | split

theorem Keeps.fill {r0 s : State} (h0 : Keeps r0 s) (f : ℕ) (c : ℕ) (j : ℕ) (k : ℕ) (b : Bytes) :
    Keeps r0 (State.fill s f c j k b) := by
  unfold State.fill
  try dsimp only
  repeat' first
    | assumption
    | with_reducible apply Keeps.install
    | with_reducible refine Keeps.foldl _ _ (fun _ _ _ => ?_) ?_
    | split

theorem Keeps.sendOn {r0 s : State} (h0 : Keeps r0 s) (p : ℕ) (kind : ℕ) (dst : ℕ) (content : Bytes) :
    Keeps r0 (State.sendOn s p kind dst content) := by
  unfold State.sendOn
  try dsimp only
  repeat' first
    | assumption
    | with_reducible apply Keeps.queueFlits

theorem Keeps.loosen {r0 s : State} (h0 : Keeps r0 s) (f : ℕ) (old : State) (h_old : Keeps r0 old) :
    Keeps r0 (State.loosen s f old) := by
  unfold State.loosen
  try dsimp only
  repeat' first
    | assumption
    | with_reducible apply Keeps.modField
    | with_reducible refine Keeps.foldl _ _ (fun _ _ _ => ?_) ?_
    | split

theorem Keeps.dropLines {r0 s : State} (h0 : Keeps r0 s) (f : ℕ) (l : Loc) :
    Keeps r0 (State.dropLines s f l) := by
  unfold State.dropLines
  try dsimp only
  repeat' first
    | assumption
    | with_reducible apply Keeps.retire

theorem Keeps.moveFrame {r0 s : State} (h0 : Keeps r0 s) (f : ℕ) (p : Page) {o : State} (e0 : (State.moveFrame s f p)
    = some o) :
    Keeps r0 o := by
  unfold State.moveFrame at e0
  try dsimp only at e0
  repeat' first
    | assumption
    | with_reducible apply Keeps.setPage
    | with_reducible apply Keeps.dropLines
    | with_reducible apply Keeps.charge
    | with_reducible refine Keeps.foldl _ _ (fun _ _ _ => ?_) ?_
    | (split at e0)
    | (cases e0)

theorem Keeps.failRun {r0 s : State} (h0 : Keeps r0 s) (x : Run) (status : ℕ) :
    Keeps r0 (State.failRun s x status) := by
  unfold State.failRun
  try dsimp only
  repeat' first
    | assumption
    | with_reducible apply Keeps.stopCmd
    | with_reducible refine Keeps.foldl _ _ (fun _ _ _ => ?_) ?_
    | split

theorem Keeps.askNarrow {r0 s : State} (h0 : Keeps r0 s) (x : Slot3) (c : ℕ) (j : ℕ) :
    Keeps r0 (State.askNarrow s x c j) := by
  unfold State.askNarrow
  try dsimp only
  repeat' first
    | assumption
    | with_reducible apply Keeps.setChannel

theorem Keeps.ldcResident {r0 s : State} (h0 : Keeps r0 s) (x : Slot3) (p : Page) :
    IKeeps r0 (State.ldcResident s x p) := by
  unfold State.ldcResident
  try dsimp only
  repeat' first
    | assumption
    | with_reducible apply Keeps.usePages
    | with_reducible apply Keeps.setCore
    | with_reducible apply Keeps.failRun
    | with_reducible apply Keeps.lookupLine
    | with_reducible apply Keeps.setLine
    | with_reducible apply Keeps.askNarrow
    | with_reducible refine Keeps.foldl _ _ (fun _ _ _ => ?_) ?_
    | trivial
    | split
    | (fail_if_no_progress change Keeps r0 _)

theorem Keeps.switchOff {r0 s : State} (h0 : Keeps r0 s) (f : ℕ) (perturb : Bool) :
    Keeps r0 (State.switchOff s f perturb) := by
  unfold State.switchOff
  try dsimp only
  repeat' first
    | assumption
    | with_reducible apply Keeps.extend
    | with_reducible apply Keeps.setField
    | with_reducible refine Keeps.foldl _ _ (fun _ _ _ => ?_) ?_
    | split

theorem Keeps.readBlock {r0 s : State} (h0 : Keeps r0 s) (c : Cmd) (st : Option ℕ) :
    Keeps r0 (State.readBlock s c st) := by
  unfold State.readBlock
  split
  · exact Keeps.emit h0 _ (fun _ => rfl)
  · exact h0

theorem Keeps.countSearch {r0 s : State} (h0 : Keeps r0 s) (f : ℕ) (queries : ℕ) (late : Bool) :
    Keeps r0 (State.countSearch s f queries late) := by
  unfold State.countSearch
  try dsimp only
  repeat' first
    | assumption
    | with_reducible apply Keeps.countField
    | with_reducible refine Keeps.foldl _ _ (fun _ _ _ => ?_) ?_
    | split

theorem Keeps.outputSearch {r0 s : State} (h0 : Keeps r0 s) (c : Cmd) (p : IParams) (dataOk : Bool) (recordOk : Bool)
    :
    Keeps r0 (State.outputSearch s c p dataOk recordOk) := by
  unfold State.outputSearch
  try dsimp only
  repeat' first
    | assumption
    | with_reducible apply Keeps.noteReplays
    | with_reducible apply Keeps.dropQueries
    | with_reducible apply Keeps.releasePages
    | with_reducible apply Keeps.finish
    | with_reducible apply Keeps.logMismatch
    | with_reducible apply Keeps.countSearch
    | with_reducible apply Keeps.writeReply
    | with_reducible refine Keeps.foldl _ _ (fun _ _ _ => ?_) ?_
    | split

theorem Keeps.leaveService {r0 s : State} (h0 : Keeps r0 s) (ty : ℕ) (n : ℕ) :
    Keeps r0 (State.leaveService s ty n) := by
  unfold State.leaveService
  try dsimp only
  repeat' first
    | assumption
    | with_reducible apply Keeps.unitTo
    | with_reducible apply Keeps.retire
    | with_reducible apply Keeps.setPort
    | with_reducible apply Keeps.recensus
    | with_reducible refine Keeps.foldl _ _ (fun _ _ _ => ?_) ?_
    | split

theorem Keeps.landRead {r0 s : State} (h0 : Keeps r0 s) (c : ℕ) (q : Request) :
    Keeps r0 (State.landRead s c q) := by
  unfold State.landRead
  try dsimp only
  repeat' first
    | assumption
    | with_reducible apply Keeps.fill
    | with_reducible apply Keeps.serveWaiting
    | with_reducible apply Keeps.fetched
    | with_reducible refine Keeps.foldl _ _ (fun _ _ _ => ?_) ?_
    | split

theorem Keeps.poolGrant {r0 s : State} (h0 : Keeps r0 s) (ctx : Ctx) (f : Machine.Field) :
    VKeeps r0 (State.poolGrant s ctx f) := by
  unfold State.poolGrant
  try dsimp only
  repeat' first
    | assumption
    | with_reducible apply Keeps.checks
    | with_reducible apply Keeps.setField
    | with_reducible apply Keeps.yes

theorem Keeps.writeHead {r0 s : State} (h0 : Keeps r0 s) (r : ℕ) (v : BitVec 16) :
    Keeps r0 (State.writeHead s r v) := by
  unfold State.writeHead
  try dsimp only
  repeat' first
    | assumption
    | with_reducible apply Keeps.setRing
    | with_reducible apply Keeps.ringError
    | with_reducible refine Keeps.foldl _ _ (fun _ _ _ => ?_) ?_
    | split

theorem Keeps.writeLine {r0 s : State} (h0 : Keeps r0 s) (f : ℕ) (prog : ℕ) (c : ℕ) (j : ℕ) (a : ℕ) (b : Bytes) (line
    : Bytes) :
    Keeps r0 (State.writeLine s f prog c j a b line) := by
  unfold State.writeLine
  try dsimp only
  repeat' first
    | assumption
    | with_reducible apply Keeps.modField
    | with_reducible apply Keeps.install
    | with_reducible apply Keeps.setLine
    | with_reducible apply Keeps.rewriteLine
    | with_reducible refine Keeps.foldl _ _ (fun _ _ _ => ?_) ?_
    | split
    | fail_if_no_progress with_reducible apply Keeps.update

theorem Keeps.takeOver {r0 s : State} (h0 : Keeps r0 s) (i : StandbyItem) :
    Keeps r0 (State.takeOver s i) := by
  unfold State.takeOver
  try dsimp only
  repeat' first
    | assumption
    | with_reducible apply Keeps.modField
    | with_reducible refine Keeps.foldl _ _ (fun _ _ _ => ?_) ?_
    | split

theorem Keeps.askRuns {r0 s : State} (h0 : Keeps r0 s) (x : Index) (q : Query) (lists : List ℕ) (entries : List (ℕ ×
    ℕ)) :
    Keeps r0 (State.askRuns s x q lists entries) := by
  unfold State.askRuns
  try dsimp only
  repeat' first
    | assumption
    | with_reducible apply Keeps.sendMessage
    | with_reducible refine Keeps.foldl _ _ (fun _ _ _ => ?_) ?_
    | split

theorem Keeps.holdTile {r0 s : State} (h0 : Keeps r0 s) (c : ℕ) (x : Index) (tile : List Query) :
    Keeps r0 (State.holdTile s c x tile) := by
  unfold State.holdTile
  try dsimp only
  repeat' first
    | assumption
    | with_reducible refine Keeps.foldl _ _ (fun _ _ _ => ?_) ?_
    | split
    | fail_if_no_progress with_reducible apply Keeps.update

theorem Keeps.endStopped {r0 s : State} (h0 : Keeps r0 s) :
    Keeps r0 (State.endStopped s) := by
  unfold State.endStopped
  try dsimp only
  repeat' first
    | assumption
    | with_reducible apply Keeps.stopCmd
    | with_reducible refine Keeps.foldl _ _ (fun _ _ _ => ?_) ?_

theorem Keeps.reuseFrame {r0 s : State} (h0 : Keeps r0 s) (f : ℕ) (p : Page) {o} (e0 : (State.reuseFrame s f p) =
    some o) :
    Keeps r0 o.1 := by
  unfold State.reuseFrame at e0
  try dsimp only at e0
  repeat' first
    | assumption
    | with_reducible refine Keeps.foldl _ _ (fun _ _ _ => ?_) ?_
    | (split at e0)
    | (cases e0)
    | (simp only [Option.map_eq_some_iff, Option.bind_eq_some_iff] at e0; obtain ⟨_, e0, rfl⟩ := e0)

theorem Keeps.contribute {r0 s : State} (h0 : Keeps r0 s) (x : Index) (modeA : Bool) (tag : BitVec 32) (y : SplitSum)
    :
    Keeps r0 (State.contribute s x modeA tag y) := by
  unfold State.contribute
  try dsimp only
  repeat' first
    | assumption
    | with_reducible apply Keeps.sendMessage
    | with_reducible refine Keeps.foldl _ _ (fun _ _ _ => ?_) ?_
    | split

theorem Keeps.sharePart {r0 s : State} (h0 : Keeps r0 s) (x : Index) (q : Query) (m : SearchPartMsg) :
    Keeps r0 (State.sharePart s x q m) := by
  unfold State.sharePart
  try dsimp only
  repeat' first
    | assumption
    | with_reducible apply Keeps.contribute
    | with_reducible apply Keeps.sendMessage
    | with_reducible refine Keeps.foldl _ _ (fun _ _ _ => ?_) ?_
    | split

theorem Keeps.endPart {r0 s : State} (h0 : Keeps r0 s) (n : ℕ) (j : PartJob) (x : Index) :
    Keeps r0 (State.endPart s n j x) := by
  unfold State.endPart
  try dsimp only
  repeat' first
    | assumption
    | with_reducible apply Keeps.sharePart
    | with_reducible apply Keeps.answerPart
    | with_reducible refine Keeps.foldl _ _ (fun _ _ _ => ?_) ?_
    | split
    | fail_if_no_progress with_reducible apply Keeps.update

theorem Keeps.tighten {r0 s : State} (h0 : Keeps r0 s) (f : ℕ) (q : Pin) :
    Keeps r0 (State.tighten s f q) := by
  unfold State.tighten
  try dsimp only
  repeat' first
    | assumption
    | with_reducible apply Keeps.modField

theorem Keeps.fatalError {r0 s : State} (h0 : Keeps r0 s) (cause : ℕ) :
    Keeps r0 (State.fatalError s cause) := by
  unfold State.fatalError
  repeat' first
    | assumption
    | ((with_reducible refine Keeps.setGlob ?_ _ ?_); on_goal 2 => first | exact id | exact fun _ => rfl)
    | with_reducible apply Keeps.logEvent
    | (with_reducible apply Keeps.emit (ho := fun _ => rfl))
    | with_reducible apply Keeps.setEvent
    | with_reducible apply Keeps.setBoard
    | split

theorem Keeps.askLine {r0 s : State} (h0 : Keeps r0 s) (n : ℕ) (tile : ℕ) (x : Machine.Stream) (cj : ℕ × ℕ) :
    Keeps r0 (State.askLine s n tile x cj) := by
  unfold State.askLine
  try dsimp only
  repeat' first
    | assumption
    | with_reducible apply Keeps.lookupLine
    | with_reducible apply Keeps.fetched
    | with_reducible apply Keeps.setChannel
    | with_reducible refine Keeps.foldl _ _ (fun _ _ _ => ?_) ?_
    | split

theorem Keeps.askTile {r0 s : State} (h0 : Keeps r0 s) (n : ℕ) (tile : ℕ) (ls : List (ℕ × ℕ)) :
    Keeps r0 (State.askTile s n tile ls) := by
  unfold State.askTile
  try dsimp only
  repeat' first
    | assumption
    | with_reducible apply Keeps.askLine
    | with_reducible apply Keeps.setStream
    | with_reducible refine Keeps.foldl _ _ (fun _ _ _ => ?_) ?_
    | split

theorem Keeps.joinCascade {r0 s : State} (h0 : Keeps r0 s) (m : CensusMsg) :
    Keeps r0 (State.joinCascade s m) := by
  unfold State.joinCascade
  try dsimp only
  repeat' first
    | assumption
    | with_reducible apply Keeps.syncMembers
    | with_reducible apply Keeps.setCasc

theorem Keeps.scrubPad {r0 s : State} (h0 : Keeps r0 s) (field : ℕ) (index : ℕ) (list : ℕ) (m : ℕ) :
    Keeps r0 (State.scrubPad s field index list m) := by
  unfold State.scrubPad
  try dsimp only
  repeat' first
    | assumption
    | with_reducible apply Keeps.sendMessage
    | with_reducible apply Keeps.logEvent

theorem Keeps.scrubCompare {r0 s : State} (h0 : Keeps r0 s) (field : ℕ) (index : ℕ) (slot : ℕ) (list : ℕ) (x : Index)
    (rs : List CopyReport) :
    Keeps r0 (State.scrubCompare s field index slot list x rs) := by
  unfold State.scrubCompare
  try dsimp only
  repeat' first
    | assumption
    | with_reducible apply Keeps.scrubPad
    | with_reducible apply Keeps.scrubData
    | with_reducible refine Keeps.foldl _ _ (fun _ _ _ => ?_) ?_
    | split

theorem Keeps.flashReadBack {r0 s : State} (h0 : Keeps r0 s) (addr : ℕ) (len : ℕ) :
    Keeps r0 (State.flashReadBack s addr len) := by
  unfold State.flashReadBack
  exact Keeps.emit h0 _ (fun _ => rfl)

theorem Keeps.dropParts {r0 s : State} (h0 : Keeps r0 s) :
    Keeps r0 (State.dropParts s) := by
  unfold State.dropParts
  try dsimp only
  repeat' first
    | assumption
    | with_reducible refine Keeps.foldl _ _ (fun _ _ _ => ?_) ?_
    | split
    | fail_if_no_progress with_reducible apply Keeps.update

theorem Keeps.leaveCascade {r0 s : State} (h0 : Keeps r0 s) :
    Keeps r0 (State.leaveCascade s) := by
  unfold State.leaveCascade
  try dsimp only
  repeat' first
    | assumption
    | with_reducible apply Keeps.setCasc
    | with_reducible refine Keeps.foldl _ _ (fun _ _ _ => ?_) ?_
    | split
    | fail_if_no_progress with_reducible apply Keeps.update

theorem Keeps.searchBody {r0 s : State} (h0 : Keeps r0 s) (x : Ctx) (batch : Bool) (radius : Bool) :
    VKeeps r0 (State.searchBody s x batch radius) := by
  unfold State.searchBody
  try dsimp only
  repeat' first
    | assumption
    | with_reducible apply Keeps.checks
    | with_reducible apply Keeps.failed
    | with_reducible apply Keeps.logMismatch
    | with_reducible apply Keeps.planCertified
    | with_reducible apply Keeps.planBestEffort
    | with_reducible apply Keeps.no
    | with_reducible refine Keeps.foldl _ _ (fun _ _ _ => ?_) ?_
    | with_reducible apply Keeps.checks
    | with_reducible apply Keeps.no
    | split
    | (fail_if_no_progress change Keeps r0 _)
    | fail_if_no_progress with_reducible apply Keeps.update

theorem Keeps.modIndex {r0 s : State} (h0 : Keeps r0 s) (key : ℕ) (g : Index → Index) :
    Keeps r0 (State.modIndex s key g) := by
  unfold State.modIndex
  try dsimp only
  repeat' first
    | assumption
    | with_reducible apply Keeps.setIndex
    | with_reducible refine Keeps.foldl _ _ (fun _ _ _ => ?_) ?_
    | split

theorem Keeps.enqueue {r0 s : State} (h0 : Keeps r0 s) (key : ℕ) (e0 : ℕ) (ls : List ℕ) :
    Keeps r0 (State.enqueue s key e0 ls) := by
  unfold State.enqueue
  try dsimp only
  repeat' first
    | assumption
    | with_reducible apply Keeps.enqueueLists
    | with_reducible apply Keeps.tellMembers
    | with_reducible refine Keeps.foldl _ _ (fun _ _ _ => ?_) ?_
    | split

theorem Keeps.selectLists {r0 s : State} (h0 : Keeps r0 s) (key : ℕ) :
    Keeps r0 (State.selectLists s key) := by
  unfold State.selectLists
  try dsimp only
  repeat' first
    | assumption
    | with_reducible apply Keeps.enqueue
    | with_reducible refine Keeps.foldl _ _ (fun _ _ _ => ?_) ?_
    | split

theorem Keeps.prepareCommit {r0 s : State} (h0 : Keeps r0 s) (key : ℕ) (upTo : ℕ) {o : Prepared}
    (e0 : (State.prepareCommit s key upTo) = some o) : Keeps r0 o.s := by
  unfold State.prepareCommit at e0
  split at e0
  · cases e0
  · dsimp only at e0
    split at e0
    · cases e0
    · simp only [Option.map_eq_some_iff] at e0
      obtain ⟨_, e0, rfl⟩ := e0
      refine Keeps.syncPages (e0 := e0) ?_
      have k := Keeps.setIndex h0
      repeat' first
        | with_reducible apply Keeps.setIndex
        | assumption
        | fail_if_no_progress with_reducible apply Keeps.update
theorem Keeps.committed {r0 : State} (key : ℕ) (upTo : ℕ) (r : Prepared) (hr : Keeps r0 r.s) :
    Keeps r0 (r.committed key upTo) := by
  unfold Prepared.committed
  dsimp only
  repeat' first
    | assumption
    | with_reducible apply Keeps.countField
    | with_reducible apply Keeps.selectLists
    | with_reducible apply Keeps.storeSpans
    | with_reducible apply Keeps.releasePages
    | with_reducible apply Keeps.modIndex

theorem Keeps.commitCopy {r0 s : State} (h0 : Keeps r0 s) (key : ℕ) (x : Index) (taken : List (ℕ × BitVec 48)) :
    Keeps r0 (State.commitCopy s key x taken).1 := by
  unfold State.commitCopy
  dsimp only
  have k := Keeps.dropReader h0 (.copy key)
  split
  · exact Keeps.setCasc k _
  · rename_i r e
    have kr := Keeps.prepareCommit (Keeps.setIndex k _ _) _ _ e
    split
    · exact Keeps.setCasc k _
    · split
      · exact Keeps.haltReader (Keeps.setCasc k _) _ _ _ _ _ _ _ _
      · split
        · exact k
        · exact Keeps.setCasc (Keeps.committed _ _ _ kr) _

theorem Keeps.askAgain {r0 s : State} (h0 : Keeps r0 s) (total : ℕ) (x : Combine) (w : ℕ × ℕ) :
    Keeps r0 (State.askAgain s total x w) := by
  unfold State.askAgain
  try dsimp only
  repeat' first
    | assumption
    | with_reducible apply Keeps.sendMessage
    | with_reducible refine Keeps.foldl _ _ (fun _ _ _ => ?_) ?_

theorem Keeps.settle {r0 s : State} (h0 : Keeps r0 s) (c : Cmd) (dma : Dma) {v : Verdict} (hv : VKeeps r0 v) :
    Keeps r0 (s.settle c dma v) := by
  unfold State.settle
  split
  · exact Keeps.finish h0 _ _ _ _ _ _
  · exact Keeps.finish hv _ _ _ _ _ _
  · dsimp only
    have k : ∀ u f n a b, Keeps r0 (State.traceRec _ u f n a b) := fun u f n a b => Keeps.traceRec hv u f n a b
    split
    · exact Keeps.setCmds (k _ _ _ _ _) _
    · split
      · exact Keeps.finish (Keeps.writeReply (k _ _ _ _ _) _ _) _ _ _ _ _ _
      · exact Keeps.finish (k _ _ _ _ _) _ _ _ _ _ _

theorem Keeps.writeEnable {r0 s : State} (h0 : Keeps r0 s) (fn : ℕ) (v : BitVec 32) :
    Keeps r0 (State.writeEnable s fn v) := by
  unfold State.writeEnable
  try dsimp only
  repeat' first
    | assumption
    | with_reducible apply Keeps.setFn
    | with_reducible apply Keeps.raiseVector
    | with_reducible refine Keeps.foldl _ _ (fun _ _ _ => ?_) ?_
    | split

theorem Keeps.resetRing {r0 s : State} (h0 : Keeps r0 s) (r : ℕ) :
    Keeps r0 (State.resetRing s r) := by
  unfold State.resetRing
  try dsimp only
  repeat' first
    | assumption
    | with_reducible apply Keeps.settleRing
    | with_reducible apply Keeps.setRing

theorem Keeps.takeTokens {r0 s : State} (h0 : Keeps r0 s) (f : ℕ) (n : ℕ) :
    Keeps r0 (State.takeTokens s f n) := by
  unfold State.takeTokens
  try dsimp only
  repeat' first
    | assumption
    | with_reducible apply Keeps.modField

theorem Keeps.checkLines {r0 s : State} (h0 : Keeps r0 s) (f : ℕ) (c : ℕ) (j : ℕ) (ks : List ℕ) (es : List Ecc) :
    Keeps r0 (State.checkLines s f c j ks es) := by
  unfold State.checkLines
  try dsimp only
  repeat' first
    | assumption
    | with_reducible apply Keeps.checkLine
    | with_reducible refine Keeps.foldl _ _ (fun _ _ _ => ?_) ?_
    | split
    | fail_if_no_progress with_reducible apply Keeps.update

theorem Keeps.served_ {r0 s : State} (h0 : Keeps r0 s) (c : ℕ) (level : ℕ) (q : Request) (es : List Ecc) :
    Keeps r0 (State.served_ s c level q es) := by
  unfold State.served_
  try dsimp only
  repeat' first
    | assumption
    | with_reducible apply Keeps.takeTokens
    | with_reducible apply Keeps.countField
    | with_reducible apply Keeps.count
    | with_reducible apply Keeps.landNarrow
    | with_reducible apply Keeps.checkLines
    | with_reducible apply Keeps.landRead
    | with_reducible refine Keeps.foldl _ _ (fun _ _ _ => ?_) ?_
    | split

theorem Keeps.readLine {r0 s : State} (h0 : Keeps r0 s) (f : ℕ) (cls : ℕ) (unit : ℕ) (narrow : Bool) (cj : ℕ × ℕ) :
    Keeps r0 (State.readLine s f cls unit narrow cj) := by
  unfold State.readLine
  try dsimp only
  repeat' first
    | assumption
    | with_reducible apply Keeps.lookupLine
    | with_reducible apply Keeps.served_
    | with_reducible refine Keeps.foldl _ _ (fun _ _ _ => ?_) ?_
    | split
    | fail_if_no_progress with_reducible apply Keeps.update

theorem Keeps.readLines {r0 s : State} (h0 : Keeps r0 s) (f : ℕ) (cls : ℕ) (unit : ℕ) (narrow : Bool) (ls : List (ℕ ×
    ℕ)) :
    Keeps r0 (State.readLines s f cls unit narrow ls) := by
  unfold State.readLines
  try dsimp only
  repeat' first
    | assumption
    | with_reducible apply Keeps.readLine
    | with_reducible refine Keeps.foldl _ _ (fun _ _ _ => ?_) ?_

theorem Keeps.readSpans {r0 s : State} (h0 : Keeps r0 s) (f : ℕ) (cls : ℕ) (unit : ℕ) (narrow : Bool) (xs : List
    Span) :
    Keeps r0 (State.readSpans s f cls unit narrow xs) := by
  unfold State.readSpans
  try dsimp only
  repeat' first
    | assumption
    | with_reducible apply Keeps.touch
    | with_reducible apply Keeps.readLines

theorem Keeps.endReading {r0 s : State} (h0 : Keeps r0 s) (c : Cmd) (r : Reading) (dma : Dma) :
    Keeps r0 (State.endReading s c r dma) := by
  unfold State.endReading
  try dsimp only
  repeat' first
    | assumption
    | with_reducible apply Keeps.dropReader
    | with_reducible apply Keeps.storeSpans
    | with_reducible apply Keeps.readSpans
    | with_reducible apply Keeps.finish
    | with_reducible apply Keeps.undo
    | with_reducible apply Keeps.writeReply
    | with_reducible refine Keeps.foldl _ _ (fun _ _ _ => ?_) ?_
    | split

theorem Keeps.dequeue {r0 s : State} (h0 : Keeps r0 s) (c : ℕ) (q : Request) :
    Keeps r0 (State.dequeue s c q) := by
  unfold State.dequeue
  try dsimp only
  repeat' first
    | assumption
    | with_reducible apply Keeps.setChannel

theorem Keeps.endDrain {r0 s : State} (h0 : Keeps r0 s) (ty : ℕ) (n : ℕ) (aborted : ℕ) (recordOk : Bool) :
    Keeps r0 (State.endDrain s ty n aborted recordOk) := by
  unfold State.endDrain
  try dsimp only
  repeat' first
    | assumption
    | with_reducible apply Keeps.leaveService
    | with_reducible apply Keeps.finish
    | with_reducible refine Keeps.foldl _ _ (fun _ _ _ => ?_) ?_
    | split

theorem Keeps.reportLink {r0 s : State} (h0 : Keeps r0 s) (p : ℕ) :
    Keeps r0 (State.reportLink s p) := by
  unfold State.reportLink
  try dsimp only
  repeat' first
    | assumption
    | with_reducible apply Keeps.sendMessage
    | with_reducible refine Keeps.foldl _ _ (fun _ _ _ => ?_) ?_
    | split

theorem Keeps.clearCause {r0 s : State} (h0 : Keeps r0 s) (fn : ℕ) (v : BitVec 32) :
    Keeps r0 (State.clearCause s fn v) := by
  unfold State.clearCause
  try dsimp only
  repeat' first
    | assumption
    | with_reducible apply Keeps.setFn
    | with_reducible refine Keeps.foldl _ _ (fun _ _ _ => ?_) ?_
    | split

theorem Keeps.testVector {r0 s : State} (h0 : Keeps r0 s) (fn : ℕ) (v : BitVec 32) :
    Keeps r0 (State.testVector s fn v) := by
  unfold State.testVector
  try dsimp only
  repeat' first
    | assumption
    | with_reducible apply Keeps.raiseVector
    | with_reducible refine Keeps.foldl _ _ (fun _ _ _ => ?_) ?_
    | split

theorem Keeps.writeTbCtl {r0 s : State} (h0 : Keeps r0 s) (fn : ℕ) (v : BitVec 32) :
    Keeps r0 (State.writeTbCtl s fn v) := by
  unfold State.writeTbCtl
  try dsimp only
  repeat' first
    | assumption
    | with_reducible refine Keeps.foldl _ _ (fun _ _ _ => ?_) ?_
    | split
    | fail_if_no_progress with_reducible apply Keeps.update

theorem Keeps.captureTime {r0 s : State} (h0 : Keeps r0 s) (fn : ℕ) :
    Keeps r0 (State.captureTime s fn) := by
  unfold State.captureTime
  try dsimp only
  repeat' first
    | assumption
    | with_reducible apply Keeps.setFn
    | with_reducible refine Keeps.foldl _ _ (fun _ _ _ => ?_) ?_
    | split

theorem Keeps.startRestart {r0 s : State} (h0 : Keeps r0 s) (byError : Bool) :
    Keeps r0 (State.startRestart s byError) := by
  unfold State.startRestart
  repeat' first
    | assumption
    | ((with_reducible refine Keeps.setGlob ?_ _ ?_); on_goal 2 => first | exact id | exact fun _ => rfl)
    | with_reducible apply Keeps.setCmds
    | with_reducible apply Keeps.count
    | with_reducible apply Keeps.logEvent

theorem Keeps.writeGlobalCtl {r0 s : State} (h0 : Keeps r0 s) (v : BitVec 32) :
    Keeps r0 (State.writeGlobalCtl s v) := by
  unfold State.writeGlobalCtl
  try dsimp only
  repeat' first
    | assumption
    | with_reducible apply Keeps.startRestart
    | with_reducible refine Keeps.foldl _ _ (fun _ _ _ => ?_) ?_
    | split

theorem Keeps.writeTail {r0 s : State} (h0 : Keeps r0 s) (r : ℕ) (v : BitVec 16) :
    Keeps r0 (State.writeTail s r v) := by
  unfold State.writeTail
  try dsimp only
  repeat' first
    | assumption
    | with_reducible apply Keeps.setRing
    | with_reducible apply Keeps.ringError
    | with_reducible refine Keeps.foldl _ _ (fun _ _ _ => ?_) ?_
    | split

theorem Keeps.writeRingCtl {r0 s : State} (h0 : Keeps r0 s) (r : ℕ) (v : BitVec 32) :
    Keeps r0 (State.writeRingCtl s r v) := by
  unfold State.writeRingCtl
  try dsimp only
  repeat' first
    | assumption
    | with_reducible apply Keeps.resetRing
    | with_reducible apply Keeps.setRing
    | with_reducible apply Keeps.ringError
    | with_reducible refine Keeps.foldl _ _ (fun _ _ _ => ?_) ?_
    | split

theorem Keeps.writeRingReg {r0 s : State} (h0 : Keeps r0 s) (r : ℕ) (off : ℕ) (v : BitVec 32) :
    Keeps r0 (State.writeRingReg s r off v) := by
  unfold State.writeRingReg
  try dsimp only
  repeat' first
    | assumption
    | with_reducible apply Keeps.writeTail
    | with_reducible apply Keeps.writeHead
    | with_reducible apply Keeps.writeRingCtl
    | with_reducible apply Keeps.setRing
    | with_reducible refine Keeps.foldl _ _ (fun _ _ _ => ?_) ?_
    | split

theorem Keeps.writePert {r0 s : State} (h0 : Keeps r0 s) (off : ℕ) (v : BitVec 32) :
    Keeps r0 (State.writePert s off v) := by
  unfold State.writePert
  try dsimp only
  repeat' first
    | assumption
    | with_reducible apply Keeps.takePert
    | with_reducible refine Keeps.foldl _ _ (fun _ _ _ => ?_) ?_
    | split
    | fail_if_no_progress with_reducible apply Keeps.update

theorem Keeps.writeBar0 {r0 s : State} (h0 : Keeps r0 s) (fn : ℕ) (off : ℕ) (v : BitVec 32) :
    Keeps r0 (State.writeBar0 s fn off v) := by
  unfold State.writeBar0
  have kG := Keeps.setGlob h0 { s.glob with scratch := v } id
  exact .ite h0 (.ite (.ite (Keeps.clearCause h0 _ _) (.ite (Keeps.writeEnable h0 _ _) (.ite (Keeps.testVector h0 _ _)
    (.ite (Keeps.writeMsix h0 _ _ _) h0)))) (.ite (.ite (Keeps.writeTbCtl h0 _ _) (.ite (.ite (Keeps.captureTime h0 _)
    h0) h0)) (.ite h0 (.ite (Keeps.writeGlobalCtl h0 _) (.ite kG (.ite (Keeps.writeRingReg h0 _ _ _)
    (.ite (Keeps.writePert h0 _ _) h0)))))))

theorem Keeps.settleConfig {r0 s : State} (h0 : Keeps r0 s) (t : State) (memberStatus : ℕ) (info : ℕ) (h_t : Keeps r0
    t) :
    VKeeps r0 (State.settleConfig s t memberStatus info) := by
  unfold State.settleConfig
  try dsimp only
  repeat' first
    | assumption
    | with_reducible apply Keeps.no
    | with_reducible apply Keeps.yes
    | with_reducible refine Keeps.foldl _ _ (fun _ _ _ => ?_) ?_
    | with_reducible apply Keeps.checks
    | with_reducible apply Keeps.no
    | split

theorem Keeps.faultUnit {r0 s : State} (h0 : Keeps r0 s) (ty : ℕ) (n : ℕ) :
    Keeps r0 (State.faultUnit s ty n) := by
  unfold State.faultUnit
  try dsimp only
  repeat' first
    | assumption
    | with_reducible apply Keeps.stopCmd
    | with_reducible refine Keeps.foldl _ _ (fun _ _ _ => ?_) ?_

theorem Keeps.readsAhead {r0 s : State} (h0 : Keeps r0 s) (f : ℕ) (cls : ℕ) (unit : ℕ) (xs : List Span) :
    Keeps r0 (State.readsAhead s f cls unit xs) := by
  unfold State.readsAhead
  try dsimp only
  repeat' first
    | assumption
    | with_reducible apply Keeps.readSpans

theorem Keeps.prefetch {r0 s : State} (h0 : Keeps r0 s) (h : Query) :
    Keeps r0 (State.prefetch s h) := by
  unfold State.prefetch
  try dsimp only
  repeat' first
    | assumption
    | with_reducible apply Keeps.readsAhead
    | with_reducible refine Keeps.foldl _ _ (fun _ _ _ => ?_) ?_
    | split

theorem Keeps.grant {r0 s : State} (h0 : Keeps r0 s) (c : ℕ) (level : ℕ) (q : Request) (es : List Ecc) :
    Keeps r0 (State.grant s c level q es) := by
  unfold State.grant
  try dsimp only
  repeat' first
    | assumption
    | with_reducible apply Keeps.served_
    | with_reducible apply Keeps.dequeue

theorem Keeps.endCompact {r0 s : State} (h0 : Keeps r0 s) (c : Cmd) (recordOk : Bool) :
    Keeps r0 (State.endCompact s c recordOk) := by
  unfold State.endCompact
  try dsimp only
  repeat' first
    | assumption
    | with_reducible apply Keeps.finish
    | with_reducible refine Keeps.foldl _ _ (fun _ _ _ => ?_) ?_
    | split

theorem Keeps.formed {r0 s : State} (h0 : Keeps r0 s) (found : List MemberRecord) :
    Keeps r0 (State.formed s found) := by
  unfold State.formed
  try dsimp only
  repeat' first
    | assumption
    | with_reducible apply Keeps.census

theorem Keeps.shareSlices {r0 s : State} (h0 : Keeps r0 s) (owned0 : BitVec 32) {o : State} (e0 : (State.shareSlices s
    owned0) = some o) :
    Keeps r0 o := by
  unfold State.shareSlices at e0
  simp only [Option.map_eq_some_iff] at e0
  obtain ⟨w, e, rfl⟩ := e0
  have k : ∀ (l : FMap Field) (p : Option (State × BitVec 32)), (∀ t, p = some t → Keeps r0 t.1) →
      ∀ w, l.foldl (fun t x => match t with
        | none => none
        | some (t, used) =>
          if x.1 = 0 then some (t, used)
          else match takeSlices used (s.slicesEach owned0) with
            | none => none
            | some m => some (t.modField x.1 (fun y => { y with slices := m }), used ||| m)) p = some w → Keeps r0 w.1 := by
    intro l
    induction l with
    | nil => exact fun p hp w hw => hp w hw
    | cons a l ih =>
      intro p hp w hw
      refine ih _ ?_ w hw
      intro t ht
      try dsimp only at ht
      split at ht
      · cases ht
      · split at ht
        · cases ht; exact hp _ rfl
        · split at ht
          · cases ht
          · cases ht; exact Keeps.modField (hp _ rfl) _ _
  exact k _ _ (fun t ht => by cases ht; exact h0) _ e

theorem Keeps.resumeStream {r0 s : State} (h0 : Keeps r0 s) (n : ℕ) (x : Machine.Stream) (page : ℕ) :
    Keeps r0 (State.resumeStream s n x page) := by
  unfold State.resumeStream
  try dsimp only
  repeat' first
    | assumption
    | with_reducible apply Keeps.setStream
    | with_reducible apply Keeps.traceRec
    | with_reducible refine Keeps.foldl _ _ (fun _ _ _ => ?_) ?_
    | split
    | fail_if_no_progress with_reducible apply Keeps.update

theorem Keeps.sendFlit {r0 s : State} (h0 : Keeps r0 s) (p : ℕ) (ftype : ℕ) (f : TxFlit) (x : Port) :
    Keeps r0 (State.sendFlit s p ftype f x) := by
  unfold State.sendFlit
  repeat' first
    | assumption
    | (with_reducible apply Keeps.emit (ho := fun _ => rfl))
    | with_reducible apply Keeps.setPort

theorem Keeps.greet {r0 s : State} (h0 : Keeps r0 s) (p : ℕ) :
    Keeps r0 (State.greet s p) := by
  unfold State.greet
  try dsimp only
  repeat' first
    | assumption
    | with_reducible apply Keeps.sendFlit
    | with_reducible refine Keeps.foldl _ _ (fun _ _ _ => ?_) ?_
    | split

theorem Keeps.moveHalf {r0 s : State} (h0 : Keeps r0 s) (half : ℕ) {o : State} (e0 : (State.moveHalf s half) = some o) :
    Keeps r0 o := by
  unfold State.moveHalf at e0
  refine Keeps.foldl_option _ _ ?_ ?_ _ e0
  · intro p a hp t ht
    try dsimp only at ht
    split at ht
    · cases ht
    · exact Keeps.moveFrame (hp _ rfl) _ _ ht
  · intro t ht; cases ht; exact h0

theorem Keeps.awaitPage {r0 s : State} (h0 : Keeps r0 s) (x : Slot3) (page : ℕ) :
    Keeps r0 (State.awaitPage s x page) := by
  unfold State.awaitPage
  try dsimp only
  repeat' first
    | assumption
    | with_reducible apply Keeps.traceRec
    | with_reducible apply Keeps.setRun
    | with_reducible refine Keeps.foldl _ _ (fun _ _ _ => ?_) ?_
    | split
    | fail_if_no_progress with_reducible apply Keeps.update

theorem Keeps.readSlot {r0 s : State} (h0 : Keeps r0 s) (slot : ℕ) :
    Keeps r0 (State.readSlot s slot) := by
  unfold State.readSlot
  exact Keeps.emit h0 _ (fun _ => rfl)

theorem Keeps.endUnitCmd {r0 s : State} (h0 : Keeps r0 s) (ty : ℕ) (n : ℕ) :
    Keeps r0 (State.endUnitCmd s ty n) := by
  unfold State.endUnitCmd
  try dsimp only
  repeat' first
    | assumption
    | with_reducible apply Keeps.finish
    | with_reducible apply Keeps.takeFree
    | with_reducible refine Keeps.foldl _ _ (fun _ _ _ => ?_) ?_
    | split

theorem Keeps.noteRead {r0 s : State} (h0 : Keeps r0 s) (n : ℕ) (p : ListPass) (pages : List ℕ) :
    Keeps r0 (State.noteRead s n p pages) := by
  unfold State.noteRead
  try dsimp only
  repeat' first
    | assumption
    | with_reducible apply Keeps.setWindow
    | with_reducible refine Keeps.foldl _ _ (fun _ _ _ => ?_) ?_
    | split

theorem Keeps.heldBack {r0 s : State} (h0 : Keeps r0 s) (p : Query → Bool) :
    Keeps r0 (State.heldBack s p) := by
  unfold State.heldBack
  try dsimp only
  repeat' first
    | assumption
    | with_reducible apply Keeps.faultQueries

theorem Keeps.readPass {r0 s : State} (h0 : Keeps r0 s) (f : ℕ) (cls : ℕ) (unit : ℕ) (r : PassReads) :
    Keeps r0 (State.readPass s f cls unit r) := by
  unfold State.readPass
  try dsimp only
  repeat' first
    | assumption
    | with_reducible apply Keeps.countField
    | with_reducible apply Keeps.readLines
    | with_reducible apply Keeps.readSpans

theorem Keeps.queryReplays {r0 s : State} (h0 : Keeps r0 s) (q : QRef) (f : ℕ) (a : Acc) :
    Keeps r0 (State.queryReplays s q f a) := by
  unfold State.queryReplays
  try dsimp only
  repeat' first
    | assumption
    | with_reducible apply Keeps.noteReplays
    | with_reducible apply Keeps.faultQueries
    | with_reducible apply Keeps.logMismatch
    | with_reducible refine Keeps.foldl _ _ (fun _ _ _ => ?_) ?_
    | split

theorem Keeps.gatherAhead {r0 s : State} (h0 : Keeps r0 s) (x : Index) (q : Query) (new : List Cand) :
    Keeps r0 (State.gatherAhead s x q new) := by
  unfold State.gatherAhead
  try dsimp only
  repeat' first
    | assumption
    | with_reducible apply Keeps.countField
    | with_reducible apply Keeps.readSpans
    | with_reducible refine Keeps.foldl _ _ (fun _ _ _ => ?_) ?_
    | split
    | fail_if_no_progress with_reducible apply Keeps.update

theorem Keeps.listDone {r0 s : State} (h0 : Keeps r0 s) (q : Query) (l : ℕ) :
    Keeps r0 (State.listDone s q l) := by
  unfold State.listDone
  try dsimp only
  repeat' first
    | assumption
    | with_reducible apply Keeps.putQuery
    | with_reducible apply Keeps.dropTable
    | with_reducible refine Keeps.foldl _ _ (fun _ _ _ => ?_) ?_
    | split

theorem Keeps.visit {r0 s : State} (h0 : Keeps r0 s) (x : Index) (l : ℕ) (q : Query) :
    Keeps r0 (State.visit s x l q) := by
  unfold State.visit
  try dsimp only
  repeat' first
    | assumption
    | with_reducible apply Keeps.carry
    | with_reducible apply Keeps.queryReplays
    | with_reducible apply Keeps.gatherAhead
    | with_reducible apply Keeps.listDone
    | with_reducible apply Keeps.countField
    | with_reducible refine Keeps.foldl _ _ (fun _ _ _ => ?_) ?_
    | split
    | fail_if_no_progress with_reducible apply Keeps.update

theorem Keeps.endPass {r0 s : State} (h0 : Keeps r0 s) (n : ℕ) (w : Window) (p : ListPass) (x : Index) (vs : List
    Query) (blocks : ℕ) :
    Keeps r0 (State.endPass s n w p x vs blocks) := by
  unfold State.endPass
  try dsimp only
  repeat' first
    | assumption
    | with_reducible apply Keeps.visit
    | with_reducible apply Keeps.startPass
    | with_reducible apply Keeps.setWindow
    | with_reducible apply Keeps.traceRec
    | with_reducible apply Keeps.countField
    | with_reducible refine Keeps.foldl _ _ (fun _ _ _ => ?_) ?_
    | split

theorem Keeps.runPass {r0 s : State} (h0 : Keeps r0 s) (n : ℕ) (w : Window) (p : ListPass) (x : Index) :
    Keeps r0 (State.runPass s n w p x) := by
  unfold State.runPass
  try dsimp only
  repeat' first
    | assumption
    | with_reducible apply Keeps.dropReader
    | with_reducible apply Keeps.haltReader
    | with_reducible apply Keeps.startPass
    | with_reducible apply Keeps.faultQueries
    | with_reducible apply Keeps.countField
    | with_reducible apply Keeps.disarm
    | with_reducible apply Keeps.logEvent
    | with_reducible apply Keeps.noteRead
    | with_reducible apply Keeps.heldBack
    | with_reducible apply Keeps.readPass
    | with_reducible apply Keeps.endPass
    | with_reducible refine Keeps.foldl _ _ (fun _ _ _ => ?_) ?_
    | split

theorem Keeps.discardCascade {r0 s : State} (h0 : Keeps r0 s) :
    Keeps r0 (State.discardCascade s) := by
  unfold State.discardCascade
  try dsimp only
  repeat' first
    | assumption
    | with_reducible apply Keeps.dropIndexes
    | with_reducible apply Keeps.releasePages
    | with_reducible refine Keeps.foldl _ _ (fun _ _ _ => ?_) ?_
    | split
    | fail_if_no_progress with_reducible apply Keeps.update

theorem Keeps.setWork {r0 s : State} (h0 : Keeps r0 s) (c : Cmd) (w : Work) :
    Keeps r0 (State.setWork s c w) := by
  unfold State.setWork
  try dsimp only
  repeat' first
    | assumption
    | with_reducible apply Keeps.setCmds

theorem Keeps.continueReading {r0 s : State} (h0 : Keeps r0 s) (c : Cmd) (r : Reading) (dma : Dma) :
    Keeps r0 (State.continueReading s c r dma) := by
  unfold State.continueReading
  try dsimp only
  repeat' first
    | assumption
    | with_reducible apply Keeps.finish
    | with_reducible apply Keeps.undo
    | with_reducible apply Keeps.dropReader
    | with_reducible apply Keeps.setWork
    | with_reducible apply Keeps.haltReader
    | with_reducible apply Keeps.endReading
    | with_reducible refine Keeps.foldl _ _ (fun _ _ _ => ?_) ?_
    | split

theorem Keeps.permitsCleared {r0 s : State} (h0 : Keeps r0 s) (old : ℕ) (new : ℕ) :
    Keeps r0 (State.permitsCleared s old new) := by
  unfold State.permitsCleared
  try dsimp only
  repeat' first
    | assumption
    | with_reducible apply Keeps.switchOff
    | with_reducible refine Keeps.foldl _ _ (fun _ _ _ => ?_) ?_
    | split
    | fail_if_no_progress with_reducible apply Keeps.update

theorem Keeps.swapList {r0 s : State} (h0 : Keeps r0 s) (n : ℕ) (e : Compaction) (x : Index) (recordOk : Bool) :
    Keeps r0 (State.swapList s n e x recordOk) := by
  unfold State.swapList
  try dsimp only
  repeat' first
    | assumption
    | with_reducible apply Keeps.setIndex
    | with_reducible apply Keeps.countField
    | with_reducible apply Keeps.setCmds
    | with_reducible apply Keeps.endCompact
    | with_reducible refine Keeps.foldl _ _ (fun _ _ _ => ?_) ?_
    | split
    | fail_if_no_progress with_reducible apply Keeps.update

theorem Keeps.finishImage {r0 s : State} (h0 : Keeps r0 s) (n : ℕ) (e : Compaction) (x : Index) (copiesOk : Bool)
    (recordOk : Bool) :
    Keeps r0 (State.finishImage s n e x copiesOk recordOk) := by
  unfold State.finishImage
  try dsimp only
  repeat' first
    | assumption
    | with_reducible apply Keeps.swapList
    | with_reducible apply Keeps.sendMessage
    | with_reducible apply Keeps.advance
    | with_reducible apply Keeps.tellMembers
    | with_reducible refine Keeps.foldl _ _ (fun _ _ _ => ?_) ?_
    | split

theorem Keeps.swapAsTold {r0 s : State} (h0 : Keeps r0 s) (field : ℕ) (b : Bytes) :
    Keeps r0 (State.swapAsTold s field b).1 := by
  unfold State.swapAsTold
  try dsimp only
  repeat' first
    | assumption
    | with_reducible apply Keeps.swapList
    | with_reducible apply Keeps.advance
    | with_reducible refine Keeps.foldl _ _ (fun _ _ _ => ?_) ?_
    | split

theorem Keeps.splitQuery {r0 s : State} (h0 : Keeps r0 s) (key : ℕ) (x : Index) (q : Query) :
    Keeps r0 (State.splitQuery s key x q) := by
  unfold State.splitQuery
  try dsimp only
  repeat' first
    | assumption
    | with_reducible apply Keeps.putQuery
    | with_reducible apply Keeps.askRuns
    | with_reducible apply Keeps.sendMessage
    | with_reducible refine Keeps.foldl _ _ (fun _ _ _ => ?_) ?_
    | split

theorem Keeps.coarseSelect {r0 s : State} (h0 : Keeps r0 s) (q : Query) :
    Keeps r0 (State.coarseSelect s q) := by
  unfold State.coarseSelect
  try dsimp only
  repeat' first
    | assumption
    | with_reducible apply Keeps.askRuns
    | with_reducible apply Keeps.queryReplays
    | with_reducible apply Keeps.splitQuery
    | with_reducible refine Keeps.foldl _ _ (fun _ _ _ => ?_) ?_
    | split
    | fail_if_no_progress with_reducible apply Keeps.update

theorem Keeps.withBlock {r0 s : State} (h0 : Keeps r0 s) (f : ℕ) (b : Bytes) :
    Keeps r0 (State.withBlock s f b) := by
  unfold State.withBlock
  try dsimp only
  repeat' first
    | assumption
    | with_reducible apply Keeps.setField
    | with_reducible refine Keeps.foldl _ _ (fun _ _ _ => ?_) ?_
    | split

theorem Keeps.withSlices {r0 s : State} (h0 : Keeps r0 s) (f : ℕ) (b : Bytes) (creates : Bool) {o : State} (e0 :
    (State.withSlices s f b creates) = some o) :
    Keeps r0 o := by
  unfold State.withSlices at e0
  try dsimp only at e0
  repeat' first
    | assumption
    | with_reducible apply Keeps.withBlock
    | with_reducible refine Keeps.shareSlices (e0 := by assumption) ?_
    | with_reducible apply Keeps.modField
    | with_reducible refine Keeps.foldl _ _ (fun _ _ _ => ?_) ?_
    | (split at e0)
    | (cases e0)

theorem Keeps.retrainPort {r0 s : State} (h0 : Keeps r0 s) (p : ℕ) :
    Keeps r0 (State.retrainPort s p) := by
  unfold State.retrainPort
  try dsimp only
  repeat' first
    | assumption
    | with_reducible apply Keeps.count
    | with_reducible apply Keeps.setPort

theorem Keeps.contributeRecord {r0 s : State} (h0 : Keeps r0 s) (x : Index) (tag : BitVec 32) (v : List (BitVec 32)) :
    Keeps r0 (State.contributeRecord s x tag v) := by
  unfold State.contributeRecord
  try dsimp only
  repeat' first
    | assumption
    | with_reducible apply Keeps.contribute
    | with_reducible refine Keeps.foldl _ _ (fun _ _ _ => ?_) ?_

theorem Keeps.shareRecord {r0 s : State} (h0 : Keeps r0 s) (x : Index) (seq : BitVec 48) (opcode : ℕ) (vf : ℕ)
    (record : Bytes) :
    Keeps r0 (State.shareRecord s x seq opcode vf record) := by
  unfold State.shareRecord
  try dsimp only
  repeat' first
    | assumption
    | with_reducible apply Keeps.contributeRecord
    | with_reducible refine Keeps.foldl _ _ (fun _ _ _ => ?_) ?_
    | split

theorem Keeps.applyBlock {r0 s : State} (h0 : Keeps r0 s) (f : ℕ) (b : Bytes) {o : State} (e0 : (State.applyBlock s f
    b) = .inr o) :
    Keeps r0 o := by
  unfold State.applyBlock at e0
  try dsimp only at e0
  repeat' first
    | assumption
    | with_reducible refine Keeps.withSlices (e0 := by assumption) ?_
    | with_reducible refine Keeps.foldl _ _ (fun _ _ _ => ?_) ?_
    | (split at e0)
    | (cases e0)

theorem Keeps.landTile {r0 s : State} (h0 : Keeps r0 s) (x : Machine.Stream) (r : Run) (tile : ℕ) :
    Keeps r0 (State.landTile s x r tile) := by
  unfold State.landTile
  try dsimp only
  repeat' first
    | assumption
    | with_reducible apply Keeps.setCore

theorem Keeps.promoteBody {r0 s : State} (h0 : Keeps r0 s) (a1 : Ctx) :
    VKeeps r0 (State.promoteBody s a1) := by
  unfold State.promoteBody
  try dsimp only
  repeat' first
    | assumption
    | with_reducible apply Keeps.checks
    | with_reducible apply Keeps.stays
    | with_reducible apply Keeps.extend
    | with_reducible apply Keeps.setCasc

theorem Keeps.romPassed {r0 s : State} (h0 : Keeps r0 s) (slot : ℕ) :
    Keeps r0 (State.romPassed s slot) := by
  unfold State.romPassed
  repeat' first
    | assumption
    | with_reducible apply Keeps.extend
    | ((with_reducible refine Keeps.setTrust ?_ _ ?_ ?_); (on_goal 2 => exact fun _ _ => rfl); (on_goal 2 => exact id))

theorem Keeps.writeReg32 {r0 s : State} (h0 : Keeps r0 s) (fn : ℕ) (bar : ℕ) (off : ℕ) (v : BitVec 32) :
    Keeps r0 (State.writeReg32 s fn bar off v) := by
  unfold State.writeReg32
  try dsimp only
  repeat' first
    | assumption
    | with_reducible apply Keeps.writeBar0
    | with_reducible apply Keeps.writeRingReg
    | with_reducible refine Keeps.foldl _ _ (fun _ _ _ => ?_) ?_
    | split

theorem Keeps.hostAccess {r0 s : State} (h0 : Keeps r0 s) (fn : ℕ) (bar : ℕ) (off : ℕ) (size : ℕ) (v : BitVec 64) :
    Keeps r0 (State.hostAccess s fn bar off size v) := by
  unfold State.hostAccess
  try dsimp only
  repeat' first
    | assumption
    | with_reducible apply Keeps.writeReg32
    | with_reducible refine Keeps.foldl _ _ (fun _ _ _ => ?_) ?_
    | split

theorem Keeps.dropCascPending {r0 s : State} (h0 : Keeps r0 s) :
    Keeps r0 (State.dropCascPending s) := by
  unfold State.dropCascPending
  try dsimp only
  repeat' first
    | assumption
    | with_reducible refine Keeps.foldl _ _ (fun _ _ _ => ?_) ?_
    | split
    | fail_if_no_progress with_reducible apply Keeps.update

theorem Keeps.doUpkeep {r0 s : State} (h0 : Keeps r0 s) (c : ℕ) :
    Keeps r0 (State.doUpkeep s c) := by
  unfold State.doUpkeep
  try dsimp only
  repeat' first
    | assumption
    | with_reducible apply Keeps.setChannel

theorem Keeps.reads {r0 s : State} (h0 : Keeps r0 s) (spans : List Span) (holds : Option (ℕ × ℕ × ℕ)) (info : ℕ) (fl
    : Flags) (writes : List (ℕ × Bytes)) :
    VKeeps r0 (Machine.reads s spans holds info fl writes) := by
  unfold Machine.reads
  try dsimp only
  repeat' assumption

theorem Keeps.resumeIndexes {r0 s : State} (h0 : Keeps r0 s) :
    Keeps r0 (State.resumeIndexes s) := by
  unfold State.resumeIndexes
  try dsimp only
  repeat' first
    | assumption
    | with_reducible apply Keeps.releasePages
    | with_reducible refine Keeps.foldl _ _ (fun _ _ _ => ?_) ?_
    | split
    | fail_if_no_progress with_reducible apply Keeps.update

theorem Keeps.promoted {r0 s : State} (h0 : Keeps r0 s) (found : List MemberRecord) :
    Keeps r0 (State.promoted s found) := by
  unfold State.promoted
  try dsimp only
  repeat' first
    | assumption
    | with_reducible apply Keeps.setCasc
    | with_reducible apply Keeps.census
    | with_reducible apply Keeps.resumeIndexes
    | with_reducible apply Keeps.takeOver
    | with_reducible refine Keeps.foldl _ _ (fun _ _ _ => ?_) ?_

theorem Keeps.syncMutation {r0 s : State} (h0 : Keeps r0 s) (f : ℕ) {o : State} (e0 : (State.syncMutation s f) = some
    o) :
    Keeps r0 o := by
  unfold State.syncMutation at e0
  try dsimp only at e0
  repeat' first
    | assumption
    | with_reducible apply Keeps.pinLines
    | with_reducible apply Keeps.loosen
    | with_reducible refine Keeps.syncCapacity (e0 := by assumption) ?_
    | with_reducible refine Keeps.foldl _ _ (fun _ _ _ => ?_) ?_
    | (split at e0)
    | (cases e0)
    | (simp only [Option.map_eq_some_iff, Option.bind_eq_some_iff] at e0; obtain ⟨_, e0, rfl⟩ := e0)

theorem Keeps.flrEvery {r0 s : State} (h0 : Keeps r0 s) :
    Keeps r0 (State.flrEvery s) := by
  unfold State.flrEvery
  exact Keeps.foldl _ _ (fun _ _ h => Keeps.flr h _) (Keeps.dropCmds h0 _)

theorem Keeps.scoreRows {r0 s : State} (h0 : Keeps r0 s) (h : Query) (x : Index) (tile : List Query) :
    Keeps r0 (State.scoreRows s h x tile) := by
  unfold State.scoreRows
  try dsimp only
  repeat' first
    | assumption
    | with_reducible apply Keeps.holdTile
    | with_reducible apply Keeps.readSpans
    | with_reducible refine Keeps.foldl _ _ (fun _ _ _ => ?_) ?_

theorem Keeps.afterPlacing {r0 s : State} (h0 : Keeps r0 s) (q : Query) :
    Keeps r0 (State.afterPlacing s q) := by
  unfold State.afterPlacing
  try dsimp only
  repeat' first
    | assumption
    | with_reducible apply Keeps.mustWait
    | with_reducible apply Keeps.closeWindow
    | with_reducible refine Keeps.foldl _ _ (fun _ _ _ => ?_) ?_
    | split

theorem Keeps.rerankQuery {r0 s : State} (h0 : Keeps r0 s) (q : Query) (x : Index) :
    Keeps r0 (State.rerankQuery s q x) := by
  unfold State.rerankQuery
  try dsimp only
  repeat' first
    | assumption
    | with_reducible apply Keeps.faultQueries
    | with_reducible apply Keeps.logEvent
    | with_reducible apply Keeps.haltReader
    | with_reducible apply Keeps.putQuery
    | with_reducible apply Keeps.dropReader
    | with_reducible apply Keeps.heldBack
    | with_reducible apply Keeps.readSpans
    | with_reducible apply Keeps.askRuns
    | with_reducible apply Keeps.queryReplays
    | with_reducible refine Keeps.foldl _ _ (fun _ _ _ => ?_) ?_
    | split
    | fail_if_no_progress with_reducible apply Keeps.update

theorem Keeps.streamTrap {r0 s : State} (h0 : Keeps r0 s) (n : ℕ) (x : Machine.Stream) :
    Keeps r0 (State.streamTrap s n x) := by
  unfold State.streamTrap
  try dsimp only
  repeat' first
    | assumption
    | with_reducible apply Keeps.setStream
    | with_reducible apply Keeps.trapThread

theorem Keeps.changedAt {r0 s : State} (h0 : Keeps r0 s) (field : ℕ) (action : ℕ) (block : Bytes) (leadEpoch : BitVec
    64) :
    Keeps r0 (State.changedAt s field action block leadEpoch) := by
  unfold State.changedAt
  try dsimp only
  repeat' first
    | assumption
    | with_reducible apply Keeps.extend
    | with_reducible apply Keeps.turnField
    | with_reducible apply Keeps.advance

theorem Keeps.memberApply {r0 s : State} (h0 : Keeps r0 s) (field : ℕ) (action : ℕ) (block : Bytes) (leadEpoch : BitVec 64) :
    Keeps r0 (State.memberApply s field action block leadEpoch).1 := by
  unfold State.memberApply
  split
  · split
    · exact h0
    · rename_i e
      exact Keeps.changedAt (Keeps.applyBlock h0 _ _ e) _ _ _ _
  · exact Keeps.changedAt (Keeps.releasePages (Keeps.fieldReset h0 _) _) _ _ _ _
  · exact Keeps.changedAt (Keeps.modField h0 _ _) _ _ _ _
  · have k := Keeps.definition h0 (defCtx field (fit 64 block) (block.drop 64))
    split <;> rename_i e <;> simp only [e] at k
    · exact h0
    · exact k
    · exact k
  · exact Keeps.compactAsTold h0 _ _
  · have k := Keeps.swapAsTold h0 field block
    split <;> rename_i e <;> simp only [e] at k <;> exact k
  · exact Keeps.discardCascade h0
  · exact h0

theorem Keeps.writeTile {r0 s : State} (h0 : Keeps r0 s) (x : Machine.Stream) (r : Run) (ws : List (ℕ × Bytes)) :
    Keeps r0 (State.writeTile s x r ws) := by
  unfold State.writeTile
  try dsimp only
  repeat' first
    | assumption
    | with_reducible apply Keeps.writeLine
    | with_reducible apply Keeps.coverChunks
    | with_reducible apply Keeps.usePages
    | with_reducible refine Keeps.foldl _ _ (fun _ _ _ => ?_) ?_
    | split

theorem Keeps.poolReclaim {r0 s : State} (h0 : Keeps r0 s) (ctx : Ctx) (f : Machine.Field) :
    VKeeps r0 (State.poolReclaim s ctx f) := by
  unfold State.poolReclaim
  try dsimp only
  repeat' first
    | assumption
    | with_reducible apply Keeps.checks
    | with_reducible apply Keeps.yesReply
    | with_reducible apply Keeps.setField

theorem Keeps.haltCommit {r0 s : State} (h0 : Keeps r0 s) (c : Cmd) (key : ℕ) (upTo : ℕ) (done : List ℕ) (r : Prepared)
    (g : Segment) (hr : Keeps r0 r.s) : Keeps r0 (State.haltCommit s c key upTo done r g) := by
  unfold State.haltCommit
  dsimp only
  refine Keeps.haltReader (Keeps.setWork ?_ _ _) _ _ _ _ _ _ _ _
  split
  · exact h0
  · fail_if_no_progress with_reducible apply Keeps.update
    exact Keeps.setIndex hr _ _

theorem Keeps.holdRecord {r0 s : State} (h0 : Keeps r0 s) (field : ℕ) (index : ℕ) (x : Index) (y : Index) :
    Keeps r0 (State.holdRecord s field index x y) := by
  unfold State.holdRecord
  dsimp only
  refine Keeps.storeSpans ?_ _ _
  have k := Keeps.setIndex h0 (indexKey field index) y
  cases e : (s.setIndex (indexKey field index) y).syncMutation field with
  | none => exact k
  | some t => exact Keeps.syncMutation k _ e

theorem Keeps.requestTile {r0 s : State} (h0 : Keeps r0 s) (n : ℕ) (r : Run) (tile : ℕ) :
    Keeps r0 (State.requestTile s n r tile) := by
  unfold State.requestTile
  try dsimp only
  repeat' first
    | assumption
    | with_reducible apply Keeps.streamTrap
    | with_reducible apply Keeps.failRun
    | with_reducible apply Keeps.setStream
    | with_reducible apply Keeps.usePages
    | with_reducible apply Keeps.askTile
    | with_reducible refine Keeps.foldl _ _ (fun _ _ _ => ?_) ?_
    | split

theorem Keeps.startDrain {r0 s : State} (h0 : Keeps r0 s) (ty : ℕ) (n : ℕ) (force : Bool) (byDevice : Bool) :
    Keeps r0 (State.startDrain s ty n force byDevice) := by
  unfold State.startDrain
  try dsimp only
  repeat' first
    | assumption
    | with_reducible apply Keeps.unitTo
    | with_reducible apply Keeps.setUnit

theorem Keeps.addMutation {r0 s : State} (h0 : Keeps r0 s) (ctx : Ctx) (x : Index) (m : Mutation) {o} (e0 :
    (State.addMutation s ctx x m) = some o) :
    Keeps r0 o.1 := by
  unfold State.addMutation at e0
  try dsimp only at e0
  repeat' first
    | assumption
    | with_reducible refine Keeps.syncMutation (e0 := by assumption) ?_
    | with_reducible apply Keeps.setIndex
    | with_reducible refine Keeps.foldl _ _ (fun _ _ _ => ?_) ?_
    | (split at e0)
    | (cases e0)
    | (simp only [Option.map_eq_some_iff, Option.bind_eq_some_iff] at e0; obtain ⟨_, e0, rfl⟩ := e0)

theorem Keeps.putRecords {r0 s : State} (h0 : Keeps r0 s) (ctx : Ctx) (coded : Bool) (upsert : Bool) :
    VKeeps r0 (State.putRecords s ctx coded upsert) := by
  unfold State.putRecords
  try dsimp only
  repeat' first
    | assumption
    | with_reducible apply Keeps.no
    | with_reducible apply Keeps.checks
    | with_reducible refine Keeps.addMutation (e0 := by assumption) ?_
    | with_reducible apply Keeps.failed
    | with_reducible apply Keeps.logMismatch
    | with_reducible apply Keeps.sendRecord
    | with_reducible apply Keeps.noteReplays
    | with_reducible apply Keeps.stores
    | with_reducible refine Keeps.foldl _ _ (fun _ _ _ => ?_) ?_
    | with_reducible apply Keeps.checks
    | with_reducible apply Keeps.no
    | split
    | (fail_if_no_progress change Keeps r0 _)
    | fail_if_no_progress with_reducible apply Keeps.update

theorem Keeps.settleLine {r0 s : State} (h0 : Keeps r0 s) (l : Line) :
    Keeps r0 (State.settleLine s l) := by
  unfold State.settleLine
  try dsimp only
  repeat' first
    | assumption
    | with_reducible apply Keeps.retire
    | with_reducible apply Keeps.applyPend
    | with_reducible apply Keeps.rewriteLine
    | with_reducible refine Keeps.foldl _ _ (fun _ _ _ => ?_) ?_
    | split

theorem Keeps.notePageIn {r0 s : State} (h0 : Keeps r0 s) (f : ℕ) (x : Option (ℕ × List ℕ)) :
    Keeps r0 (State.notePageIn s f x) := by
  unfold State.notePageIn
  try dsimp only
  repeat' first
    | assumption
    | with_reducible apply Keeps.modField

theorem Keeps.startRun {r0 s : State} (h0 : Keeps r0 s) (run : ℕ) (x : Run) (p : Program) :
    Keeps r0 (State.startRun s run x p) := by
  unfold State.startRun
  try dsimp only
  repeat' first
    | assumption
    | with_reducible apply Keeps.setCore
    | with_reducible apply Keeps.setRun
    | with_reducible refine Keeps.foldl _ _ (fun _ _ _ => ?_) ?_

theorem Keeps.failUnit {r0 s : State} (h0 : Keeps r0 s) (ty : ℕ) (n : ℕ) :
    Keeps r0 (State.failUnit s ty n) := by
  unfold State.failUnit
  try dsimp only
  repeat' first
    | assumption
    | with_reducible apply Keeps.setUnit
    | with_reducible apply Keeps.unitTo
    | with_reducible apply Keeps.abortCompaction
    | with_reducible apply Keeps.retire
    | with_reducible apply Keeps.failPair
    | with_reducible apply Keeps.setPort
    | with_reducible apply Keeps.recensus
    | with_reducible refine Keeps.foldl _ _ (fun _ _ _ => ?_) ?_
    | split

theorem Keeps.evict {r0 s : State} (h0 : Keeps r0 s) (f : ℕ) (p : Page) :
    Keeps r0 (State.evict s f p) := by
  unfold State.evict
  try dsimp only
  repeat' first
    | assumption
    | with_reducible apply Keeps.dropLines
    | with_reducible apply Keeps.charge
    | with_reducible apply Keeps.countField
    | with_reducible apply Keeps.setPage
    | with_reducible refine Keeps.foldl _ _ (fun _ _ _ => ?_) ?_
    | split

theorem Keeps.tapAct {r0 s : State} (h0 : Keeps r0 s) (tdi : Bool) :
    Keeps r0 (State.tapAct s tdi) := by
  unfold State.tapAct
  try dsimp only
  repeat' first
    | assumption
    | with_reducible apply Keeps.setBoard
    | with_reducible refine Keeps.foldl _ _ (fun _ _ _ => ?_) ?_
    | split
    | fail_if_no_progress with_reducible apply Keeps.update

theorem Keeps.scoreTile {r0 s : State} (h0 : Keeps r0 s) (h : Query) (tile : List Query) :
    Keeps r0 (State.scoreTile s h tile) := by
  unfold State.scoreTile
  try dsimp only
  repeat' first
    | assumption
    | with_reducible apply Keeps.heldBack
    | with_reducible apply Keeps.scoreRows
    | with_reducible apply Keeps.faultQueries
    | with_reducible apply Keeps.prefetch
    | with_reducible apply Keeps.coarseSelect
    | with_reducible refine Keeps.foldl _ _ (fun _ _ _ => ?_) ?_
    | split

theorem Keeps.continuePart {r0 s : State} (h0 : Keeps r0 s) (n : ℕ) (j : PartJob) (x : Index) (first : Bool) :
    Keeps r0 (State.continuePart s n j x first) := by
  unfold State.continuePart
  try dsimp only
  repeat' first
    | assumption
    | with_reducible apply Keeps.dropReader
    | with_reducible apply Keeps.haltReader
    | with_reducible apply Keeps.failPart
    | with_reducible apply Keeps.countField
    | with_reducible apply Keeps.disarm
    | with_reducible apply Keeps.logEvent
    | with_reducible apply Keeps.readSpans
    | with_reducible apply Keeps.endPart
    | with_reducible refine Keeps.foldl _ _ (fun _ _ _ => ?_) ?_
    | split
    | fail_if_no_progress with_reducible apply Keeps.update

theorem Keeps.withdrawFailed {r0 s : State} (h0 : Keeps r0 s) (ty : ℕ) (n : ℕ) :
    Keeps r0 (State.withdrawFailed s ty n) := by
  unfold State.withdrawFailed
  try dsimp only
  repeat' first
    | assumption
    | with_reducible apply Keeps.count
    | with_reducible apply Keeps.endUnitCmd
    | with_reducible apply Keeps.failUnit
    | with_reducible apply Keeps.faultUnit

theorem Keeps.afterFlr {r0 s : State} (h0 : Keeps r0 s) :
    Keeps r0 (State.afterFlr s) := by
  unfold State.afterFlr
  exact ⟨h0.pending, h0.time, h0.stakes, h0.flash, h0.crossed, h0.fatal⟩

theorem Keeps.tracePlanner {r0 s : State} (h0 : Keeps r0 s) (due : Bool) :
    Keeps r0 (State.tracePlanner s due) := by
  unfold State.tracePlanner
  try dsimp only
  repeat' first
    | assumption
    | with_reducible apply Keeps.traceRec
    | with_reducible refine Keeps.foldl _ _ (fun _ _ _ => ?_) ?_
    | split

theorem Keeps.setThread {r0 s : State} (h0 : Keeps r0 s) (c : ℕ) (t : ℕ) (x : Thread) :
    Keeps r0 (State.setThread s c t x) := by
  unfold State.setThread
  try dsimp only
  repeat' first
    | assumption
    | with_reducible apply Keeps.setCore

theorem Keeps.testUnit {r0 s : State} (h0 : Keeps r0 s) (u : ℕ × ℕ) (pass : Bool) :
    Keeps r0 (State.testUnit s u pass) := by
  unfold State.testUnit
  try dsimp only
  repeat' first
    | assumption
    | with_reducible apply Keeps.unitTo
    | with_reducible apply Keeps.logTest

/-- Checks before an effect: what the effect keeps where every check passes. -/
theorem Keeps.checks_of {r0 : State} {k : Unit → Verdict} (l : List (Bool × ℕ))
    (hk : (∀ c ∈ l, c.1 = false) → VKeeps r0 (k ())) : VKeeps r0 (Machine.checks l k) := by
  induction l with
  | nil => exact hk (by simp)
  | cons a l ih =>
    unfold Machine.checks
    split
    · trivial
    · rename_i h
      refine ih (fun hl => hk (fun c hc => ?_))
      rcases List.mem_cons.1 hc with rfl | hc
      · simpa using h
      · exact hl c hc

theorem le_maxBy {α : Type} (key : α → Nat) (l : List α) {a : α} (h : a ∈ l) : key a ≤ maxBy key l := by
  have mono : ∀ (l : List α) (m : Nat), m ≤ l.foldl (fun m a => max m (key a)) m := by
    intro l
    induction l with
    | nil => exact fun m => le_rfl
    | cons b l ih => exact fun m => le_trans (le_max_left _ _) (ih _)
  have go : ∀ (l : List α) (m : Nat), a ∈ l → key a ≤ l.foldl (fun m a => max m (key a)) m := by
    intro l
    induction l with
    | nil => exact fun _ h => by cases h
    | cons b l ih =>
      intro m h
      rcases List.mem_cons.1 h with rfl | h
      · exact le_trans (le_max_right _ _) (mono l _)
      · exact ih _ h
  exact go l 0 h

/-- R645: the slots of a stake above the highest used one are blank. -/
theorem Trust.blank_above (t : Trust) (k n : Nat) (hn : n < stakeSlots k) (h : t.used k ≤ n) : t.blank k n = true := by
  have := le_maxBy (fun n => if t.blank k n then 0 else n + 1) (List.range (stakeSlots k)) (List.mem_range.2 hn)
  by_contra hb
  simp only [hb, Bool.false_eq_true, if_false] at this
  unfold Trust.used at h
  omega

/-- R643: a copy is programmed only where it was blank, so no copy once written changes. -/
theorem programStake_keeps (s : State) (k v d : Nat) (a b : Bool) (hk : s.trust.used k < stakeSlots k) (n : Nat)
    (h : FMap.getD s.trust.stakes n (zeros 32) ≠ zeros 32) :
    FMap.getD (s.programStake k v d a b).stakes n (zeros 32) = FMap.getD s.trust.stakes n (zeros 32) := by
  have e := Trust.blank_above s.trust k _ hk le_rfl
  unfold Trust.blank Trust.copy at e
  simp only [Bool.and_eq_true, beq_iff_eq] at e
  have h0 : k * 256 + s.trust.used k * 2 + 0 ≠ n := fun x => h (x ▸ e.1)
  have h1 : k * 256 + s.trust.used k * 2 + 1 ≠ n := fun x => h (x ▸ e.2)
  unfold State.programStake Trust.program
  dsimp only
  split
  · exact FMap.getD_set_ne _ _ _ h0
  · rw [FMap.getD_set_ne _ _ _ h1, FMap.getD_set_ne _ _ _ h0]

@[simp] theorem programStake_flash (s : State) (k v d : Nat) (a b : Bool) :
    (s.programStake k v d a b).flash = s.trust.flash := by
  unfold State.programStake
  dsimp only
  split <;> rfl

/-- R643, R764: a reset that cuts a STAKE_WRITE short changes no copy once written. -/
theorem cutStake_keeps (s : State) (pkt : Bytes) (copies : Nat) (hk : s.trust.used (num pkt 16 1) < stakeSlots (num pkt 16 1)) (n : Nat)
    (h : FMap.getD s.trust.stakes n (zeros 32) ≠ zeros 32) :
    FMap.getD (s.cutStake pkt copies).stakes n (zeros 32) = FMap.getD s.trust.stakes n (zeros 32) := by
  have e := Trust.blank_above s.trust (num pkt 16 1) _ hk le_rfl
  unfold Trust.blank Trust.copy at e
  simp only [Bool.and_eq_true, beq_iff_eq] at e
  have h0 : num pkt 16 1 * 256 + s.trust.used (num pkt 16 1) * 2 + 0 ≠ n := fun x => h (x ▸ e.1)
  have h1 : num pkt 16 1 * 256 + s.trust.used (num pkt 16 1) * 2 + 1 ≠ n := fun x => h (x ▸ e.2)
  unfold State.cutStake Trust.program
  dsimp only
  split
  · exact FMap.getD_set_ne _ _ _ h0
  · rw [FMap.getD_set_ne _ _ _ h1, FMap.getD_set_ne _ _ _ h0]

theorem cutStake_flash (s : State) (pkt : Bytes) (copies : Nat) : (s.cutStake pkt copies).flash = s.trust.flash := by
  unfold State.cutStake
  dsimp only
  split <;> rfl

theorem wf_cutSector (s : State) (slot : Nat) (h : Mem.wf 0xFF s.trust.flash) : Mem.wf 0xFF (s.cutSector slot) := Mem.wf_write h _ _

theorem wf_cutStaging (s : State) (slot off : Nat) (b : Bytes) (erase : Bool) (sectors pages : Nat)
    (h : Mem.wf 0xFF s.trust.flash) : Mem.wf 0xFF (s.cutStaging slot off b erase sectors pages) := by
  unfold State.cutStaging
  dsimp only
  split
  · exact Mem.wf_write (Mem.wf_clear h _ _) _ _
  · split
    · exact Mem.wf_write (Mem.wf_clear h _ _) _ _
    · exact Mem.wf_write h _ _

/-- R764, R766: what a reset cuts short. -/
theorem Keeps.cutShort {r0 s : State} (h0 : Keeps r0 s) (cut : CutShort) : Keeps r0 (s.cutShort cut) := by
  unfold State.cutShort
  split
  · exact h0
  · split
    · exact h0
    · split
      · rename_i x _ hp
        have hk : s.trust.used (num x.pkt 16 1) < stakeSlots (num x.pkt 16 1) := by
          unfold passAll State.stakeChecks at hp
          simp at hp
          omega
        exact Keeps.setTrust h0 _ (cutStake_keeps s x.pkt _ hk) (fun h => by rw [cutStake_flash]; exact h)
      · exact h0
  · split
    · exact h0
    · split
      · exact Keeps.setTrust (Keeps.takeFree h0) _ (fun _ _ => rfl) (fun h => wf_cutStaging s _ _ _ _ _ _ h)
      · exact h0
  · split
    · split
      · exact Keeps.setTrust (Keeps.takeFree h0) _
          (fun n h => ((Keeps.stageBlock (Keeps.refl s) _ _ _ _).stakes n h))
          (fun h => wf_cutSector _ _ ((Keeps.stageBlock (Keeps.refl s) _ _ _ _).flash h))
      · exact h0
    · split
      · exact Keeps.setTrust (Keeps.takeFree h0) _ (fun _ _ => rfl) (fun h => wf_cutSector s _ h)
      · exact h0
    · exact h0

/-- R614, R616: the ROM's checks of the slots leave the stakes and the flash. -/
theorem Trust.tryAll_keeps (t : Trust) (a b : Bool) (l : List Candidate) :
    (t.tryAll a b l).1.stakes = t.stakes ∧ (t.tryAll a b l).1.flash = t.flash := by
  have note : ∀ (t : Trust) (m n : Nat), (t.noteOutcome m n).stakes = t.stakes ∧ (t.noteOutcome m n).flash = t.flash :=
    fun t m n => by unfold Trust.noteOutcome; split <;> exact ⟨rfl, rfl⟩
  induction l generalizing t with
  | nil => exact ⟨rfl, rfl⟩
  | cons c l ih =>
    unfold Trust.tryAll
    dsimp only
    generalize t.outcome c (if c.slot = 0 then a else b) = n
    split
    · exact note _ _ _
    · exact ⟨(ih _).1.trans (note _ _ _).1, (ih _).2.trans (note _ _ _).2⟩

/-- A device held in reset keeps its stakes, its flash, its queue and what it sent. -/
theorem State.heldInReset_keeps (s : State) (b : Board) :
    (s.heldInReset b).pending = s.pending ∧ (s.heldInReset b).out = s.out ∧
      (s.heldInReset b).trust.stakes = s.trust.stakes ∧ (s.heldInReset b).trust.flash = s.trust.flash :=
  ⟨rfl, rfl, rfl, rfl⟩

/-- R477: the search for a frame to free. -/
theorem Keeps.freeVictim {r0 : State} (f : ℕ) (ps : List Page) :
    ∀ {s : State}, Keeps r0 s → ∀ (n : ℕ) (passed : List ℕ), Keeps r0 (State.freeVictim s f ps n passed).s := by
  induction ps with
  | nil => exact fun h _ _ => h
  | cons p ps ih =>
    intro s h0 n passed
    unfold State.freeVictim
    split
    · exact ih (Keeps.logEvent h0 _ _ _ _ _) _ _
    · exact Keeps.evict h0 _ _

/-- R477, R481: the state that a page-in leaves, however it ends. -/
def PageIn.state : PageIn → State
  | .done s => s
  | .waits s => s
  | .failed s => s

theorem Keeps.bringIn {r0 s : State} (h0 : Keeps r0 s) (f : ℕ) (p : Page) (passed : List ℕ) (fails : ℕ) (readOk : Bool) :
    Keeps r0 (PageIn.state (State.bringIn s f p passed fails readOk)) := by
  have kv := Keeps.freeVictim f (s.victims f passed) h0 fails passed
  unfold State.bringIn
  dsimp only
  split
  · rename_i e
    split
    · exact Keeps.notePageIn (Keeps.placePage h0 _ _ _ (fun e => Keeps.frameFor h0 _ _ _ e) e) _ _
    · exact Keeps.notePageIn h0 _ _
  · split
    · exact Keeps.notePageIn kv _ _
    · split
      · exact Keeps.notePageIn (Keeps.trimChecks kv _) _ _
      · split
        · exact Keeps.notePageIn (Keeps.trimChecks kv _) _ _
        · rename_i e
          exact Keeps.notePageIn (Keeps.placePage kv _ _ _ (fun e => Keeps.reuseFrame kv _ _ e) e) _ _

theorem Keeps.sentMessage {r0 s : State} (h0 : Keeps r0 s) (core thread : ℕ) {o} (e0 : s.sentMessage core thread = some o) :
    Keeps r0 o.2 := by
  unfold State.sentMessage at e0
  repeat' first
    | assumption
    | (split at e0)
    | (cases e0)
    | with_reducible apply Keeps.setCore

theorem Keeps.nextMessage {r0 s : State} (h0 : Keeps r0 s) (core thread : ℕ) {o} (e0 : s.nextMessage core thread = some o) :
    Keeps r0 o.2 := by
  unfold State.nextMessage at e0
  split at e0
  · cases e0
    fail_if_no_progress with_reducible apply Keeps.update
    exact h0
  · exact Keeps.sentMessage h0 _ _ e0

/-- R247 to R249: the state that a COMMIT tried leaves, where it leaves one. -/
def CommitEnd.keeps (r : State) : CommitEnd → Prop
  | .noCapacity => True
  | .fault => True
  | .halted t => Keeps r t
  | .done t => Keeps r t

theorem Keeps.tryCommit {r0 s : State} (h0 : Keeps r0 s) (c : Cmd) (key upTo : ℕ) (done : List ℕ) :
    CommitEnd.keeps r0 (s.tryCommit c key upTo done) := by
  have k := Keeps.dropReader h0 (.cmd c.ring c.seq)
  unfold State.tryCommit
  dsimp only
  split
  · trivial
  · rename_i r e
    have kr := Keeps.prepareCommit k _ _ e
    split
    · trivial
    · split
      · exact Keeps.haltCommit k _ _ _ _ _ _ kr
      · split
        · exact k
        · exact Keeps.committed _ _ _ kr

/-- A packet of an opcode: what its body keeps, the command keeps. -/
theorem Keeps.runPacket {r0 s : State} (h0 : Keeps r0 s) (code ring : Nat) (dma : Dma) (body : Ctx → State → Verdict)
    (hb : ∀ x t, Keeps r0 t → VKeeps r0 (body x t)) {o : State} (e0 : s.runPacket code ring dma body = .next o) : Keeps r0 o := by
  unfold State.runPacket at e0
  split at e0
  · cases e0
  · split at e0
    · rename_i c _ _ _
      split at e0
      · cases e0; exact h0
      · split at e0
        · cases e0; exact Keeps.settle (Keeps.readBlock h0 _ _) _ _ trivial
        · dsimp only at e0
          split at e0
          · cases e0; exact Keeps.settle (Keeps.readBlock h0 _ _) _ _ trivial
          · cases e0; exact Keeps.settle (Keeps.readBlock h0 _ _) _ _ (hb _ _ (Keeps.readBlock h0 _ _))
    · cases e0; exact h0

/-- An instruction keeps what its own effect keeps. -/
theorem Keeps.issue {r0 s : State} (h0 : Keeps r0 s) (cls op core thread : Nat) (body : Slot3 → Issue)
    (hb : ∀ x, IKeeps r0 (body x)) {o : State} (e0 : s.issue cls op core thread body = .next o) : Keeps r0 o := by
  unfold State.issue at e0
  split at e0
  · cases e0
  · split at e0
    · cases e0; exact h0
    · rename_i x _
      have k := hb x
      split at e0
      · cases e0; exact h0
      · cases e : body x <;> rw [e] at k e0 <;> cases e0
        · exact Keeps.setThread k _ _ _
        · exact Keeps.setThread k _ _ _
        · exact Keeps.trapThread h0 _ _ _
        · exact k

theorem Keeps.issueReg {r0 s : State} (h0 : Keeps r0 s) (cls op core thread : Nat) (body : Slot3 → Thread) {o : State}
    (e0 : s.issueReg cls op core thread body = .next o) : Keeps r0 o :=
  Keeps.issue h0 _ _ _ _ (fun x => .next s (body x)) (fun _ => h0) e0

end Sys2Proof.Machine
end

