-- ==== Sys2Proof/Laws/PerInstr.lean ====
section
/-! SUPPORT. Per command: what its operands may name. -/

/-- A command names at most three parts of the device, and it is well formed exactly when each of them exists. -/
def Sys2Proof.Laws.WellFormedOperands.Statement (i : Sys2Proof.Instr) : Prop :=
  i.parts.length ≤ 3 ∧ (i.wellFormed = true ↔ ∀ p ∈ i.parts, p.exists_ = true)

theorem Sys2Proof.Laws.WellFormedOperands.of_length {i : Sys2Proof.Instr} (h : i.parts.length ≤ 3) :
    Sys2Proof.Laws.WellFormedOperands.Statement i := ⟨h, List.all_eq_true⟩

theorem Sys2Proof.Laws.WellFormedOperands.sqTailWrite : ∀ a b, Statement (.sqTailWrite a b) :=
  fun _ _ => of_length (Nat.le_of_ble_eq_true rfl)
theorem Sys2Proof.Laws.WellFormedOperands.cqHeadWrite : ∀ a b, Statement (.cqHeadWrite a b) :=
  fun _ _ => of_length (Nat.le_of_ble_eq_true rfl)
theorem Sys2Proof.Laws.WellFormedOperands.ringEnable : ∀ a b, Statement (.ringEnable a b) :=
  fun _ _ => of_length (Nat.le_of_ble_eq_true rfl)
theorem Sys2Proof.Laws.WellFormedOperands.ringReset : ∀ a, Statement (.ringReset a) :=
  fun _ => of_length (Nat.le_of_ble_eq_true rfl)
theorem Sys2Proof.Laws.WellFormedOperands.registerWrite : ∀ a b c d e, Statement (.registerWrite a b c d e) :=
  fun _ _ _ _ _ => of_length (Nat.le_of_ble_eq_true rfl)
theorem Sys2Proof.Laws.WellFormedOperands.packetFetch : ∀ a, Statement (.packetFetch a) :=
  fun _ => of_length (Nat.le_of_ble_eq_true rfl)
theorem Sys2Proof.Laws.WellFormedOperands.ringErrorRecord : ∀ a b, Statement (.ringErrorRecord a b) :=
  fun _ _ => of_length (Nat.le_of_ble_eq_true rfl)
theorem Sys2Proof.Laws.WellFormedOperands.irqCoalesceTimer : ∀ a, Statement (.irqCoalesceTimer a) :=
  fun _ => of_length (Nat.le_of_ble_eq_true rfl)
theorem Sys2Proof.Laws.WellFormedOperands.reservedOpcode : ∀ a b, Statement (.reservedOpcode a b) :=
  fun _ _ => of_length (Nat.le_of_ble_eq_true rfl)
theorem Sys2Proof.Laws.WellFormedOperands.nop : ∀ a b, Statement (.nop a b) :=
  fun _ _ => of_length (Nat.le_of_ble_eq_true rfl)
theorem Sys2Proof.Laws.WellFormedOperands.identify : ∀ a b, Statement (.identify a b) :=
  fun _ _ => of_length (Nat.le_of_ble_eq_true rfl)
theorem Sys2Proof.Laws.WellFormedOperands.fieldConfigure : ∀ a b c, Statement (.fieldConfigure a b c) :=
  fun _ _ _ => of_length (Nat.le_of_ble_eq_true rfl)
theorem Sys2Proof.Laws.WellFormedOperands.fieldQuery : ∀ a b, Statement (.fieldQuery a b) :=
  fun _ _ => of_length (Nat.le_of_ble_eq_true rfl)
theorem Sys2Proof.Laws.WellFormedOperands.indexCreate : ∀ a b, Statement (.indexCreate a b) :=
  fun _ _ => of_length (Nat.le_of_ble_eq_true rfl)
theorem Sys2Proof.Laws.WellFormedOperands.indexDrop : ∀ a b, Statement (.indexDrop a b) :=
  fun _ _ => of_length (Nat.le_of_ble_eq_true rfl)
theorem Sys2Proof.Laws.WellFormedOperands.indexLoadCentroids : ∀ a b, Statement (.indexLoadCentroids a b) :=
  fun _ _ => of_length (Nat.le_of_ble_eq_true rfl)
theorem Sys2Proof.Laws.WellFormedOperands.indexLoadCodebook : ∀ a b, Statement (.indexLoadCodebook a b) :=
  fun _ _ => of_length (Nat.le_of_ble_eq_true rfl)
theorem Sys2Proof.Laws.WellFormedOperands.indexActivate : ∀ a b, Statement (.indexActivate a b) :=
  fun _ _ => of_length (Nat.le_of_ble_eq_true rfl)
theorem Sys2Proof.Laws.WellFormedOperands.indexInfo : ∀ a b, Statement (.indexInfo a b) :=
  fun _ _ => of_length (Nat.le_of_ble_eq_true rfl)
theorem Sys2Proof.Laws.WellFormedOperands.insert : ∀ a b, Statement (.insert a b) :=
  fun _ _ => of_length (Nat.le_of_ble_eq_true rfl)
theorem Sys2Proof.Laws.WellFormedOperands.delete : ∀ a b, Statement (.delete a b) :=
  fun _ _ => of_length (Nat.le_of_ble_eq_true rfl)
theorem Sys2Proof.Laws.WellFormedOperands.upsert : ∀ a b, Statement (.upsert a b) :=
  fun _ _ => of_length (Nat.le_of_ble_eq_true rfl)
theorem Sys2Proof.Laws.WellFormedOperands.insertCoded : ∀ a b, Statement (.insertCoded a b) :=
  fun _ _ => of_length (Nat.le_of_ble_eq_true rfl)
theorem Sys2Proof.Laws.WellFormedOperands.commit : ∀ a b, Statement (.commit a b) :=
  fun _ _ => of_length (Nat.le_of_ble_eq_true rfl)
theorem Sys2Proof.Laws.WellFormedOperands.commitApply : ∀ a b c d, Statement (.commitApply a b c d) :=
  fun _ _ _ _ => of_length (Nat.le_of_ble_eq_true rfl)
theorem Sys2Proof.Laws.WellFormedOperands.snapshotHold : ∀ a b, Statement (.snapshotHold a b) :=
  fun _ _ => of_length (Nat.le_of_ble_eq_true rfl)
theorem Sys2Proof.Laws.WellFormedOperands.snapshotRelease : ∀ a b, Statement (.snapshotRelease a b) :=
  fun _ _ => of_length (Nat.le_of_ble_eq_true rfl)
theorem Sys2Proof.Laws.WellFormedOperands.compact : ∀ a b, Statement (.compact a b) :=
  fun _ _ => of_length (Nat.le_of_ble_eq_true rfl)
theorem Sys2Proof.Laws.WellFormedOperands.compactionStart : ∀ a, Statement (.compactionStart a) :=
  fun _ => of_length (Nat.le_of_ble_eq_true rfl)
theorem Sys2Proof.Laws.WellFormedOperands.compactionSwap : ∀ a b c, Statement (.compactionSwap a b c) :=
  fun _ _ _ => of_length (Nat.le_of_ble_eq_true rfl)
theorem Sys2Proof.Laws.WellFormedOperands.oldImageFree : ∀ a b c, Statement (.oldImageFree a b c) :=
  fun _ _ _ => of_length (Nat.le_of_ble_eq_true rfl)
theorem Sys2Proof.Laws.WellFormedOperands.versionFree : ∀ a b, Statement (.versionFree a b) :=
  fun _ _ => of_length (Nat.le_of_ble_eq_true rfl)
theorem Sys2Proof.Laws.WellFormedOperands.search : ∀ a b, Statement (.search a b) :=
  fun _ _ => of_length (Nat.le_of_ble_eq_true rfl)
theorem Sys2Proof.Laws.WellFormedOperands.searchBatch : ∀ a b, Statement (.searchBatch a b) :=
  fun _ _ => of_length (Nat.le_of_ble_eq_true rfl)
theorem Sys2Proof.Laws.WellFormedOperands.searchRadius : ∀ a b, Statement (.searchRadius a b) :=
  fun _ _ => of_length (Nat.le_of_ble_eq_true rfl)
theorem Sys2Proof.Laws.WellFormedOperands.tableAreaPlacement : Statement .tableAreaPlacement :=
  of_length (Nat.le_of_ble_eq_true rfl)
theorem Sys2Proof.Laws.WellFormedOperands.coulterTile : Statement .coulterTile :=
  of_length (Nat.le_of_ble_eq_true rfl)
theorem Sys2Proof.Laws.WellFormedOperands.distanceTableBuild : ∀ a, Statement (.distanceTableBuild a) :=
  fun _ => of_length (Nat.le_of_ble_eq_true rfl)
theorem Sys2Proof.Laws.WellFormedOperands.sowingWindowClose : ∀ a b c, Statement (.sowingWindowClose a b c) :=
  fun _ _ _ => of_length (Nat.le_of_ble_eq_true rfl)
theorem Sys2Proof.Laws.WellFormedOperands.listPass : ∀ a, Statement (.listPass a) :=
  fun _ => of_length (Nat.le_of_ble_eq_true rfl)
theorem Sys2Proof.Laws.WellFormedOperands.rerank : ∀ a, Statement (.rerank a) :=
  fun _ => of_length (Nat.le_of_ble_eq_true rfl)
theorem Sys2Proof.Laws.WellFormedOperands.finalMerge : ∀ a, Statement (.finalMerge a) :=
  fun _ => of_length (Nat.le_of_ble_eq_true rfl)
theorem Sys2Proof.Laws.WellFormedOperands.resultOutput : ∀ a b, Statement (.resultOutput a b) :=
  fun _ _ => of_length (Nat.le_of_ble_eq_true rfl)
theorem Sys2Proof.Laws.WellFormedOperands.gleanerTestStart : ∀ a b c, Statement (.gleanerTestStart a b c) :=
  fun _ _ _ => of_length (Nat.le_of_ble_eq_true rfl)
theorem Sys2Proof.Laws.WellFormedOperands.fetchVector : ∀ a b, Statement (.fetchVector a b) :=
  fun _ _ => of_length (Nat.le_of_ble_eq_true rfl)
theorem Sys2Proof.Laws.WellFormedOperands.filterDefine : ∀ a b, Statement (.filterDefine a b) :=
  fun _ _ => of_length (Nat.le_of_ble_eq_true rfl)
theorem Sys2Proof.Laws.WellFormedOperands.filterDrop : ∀ a b, Statement (.filterDrop a b) :=
  fun _ _ => of_length (Nat.le_of_ble_eq_true rfl)
theorem Sys2Proof.Laws.WellFormedOperands.bitmapLoad : ∀ a b, Statement (.bitmapLoad a b) :=
  fun _ _ => of_length (Nat.le_of_ble_eq_true rfl)
theorem Sys2Proof.Laws.WellFormedOperands.pagePoolGrant : ∀ a b, Statement (.pagePoolGrant a b) :=
  fun _ _ => of_length (Nat.le_of_ble_eq_true rfl)
theorem Sys2Proof.Laws.WellFormedOperands.pagePin : ∀ a b, Statement (.pagePin a b) :=
  fun _ _ => of_length (Nat.le_of_ble_eq_true rfl)
theorem Sys2Proof.Laws.WellFormedOperands.pageUnpin : ∀ a b, Statement (.pageUnpin a b) :=
  fun _ _ => of_length (Nat.le_of_ble_eq_true rfl)
theorem Sys2Proof.Laws.WellFormedOperands.programLoad : ∀ a b, Statement (.programLoad a b) :=
  fun _ _ => of_length (Nat.le_of_ble_eq_true rfl)
theorem Sys2Proof.Laws.WellFormedOperands.programRun : ∀ a b, Statement (.programRun a b) :=
  fun _ _ => of_length (Nat.le_of_ble_eq_true rfl)
theorem Sys2Proof.Laws.WellFormedOperands.programRunStart : ∀ a, Statement (.programRunStart a) :=
  fun _ => of_length (Nat.le_of_ble_eq_true rfl)
theorem Sys2Proof.Laws.WellFormedOperands.programSliceExpire : ∀ a, Statement (.programSliceExpire a) :=
  fun _ => of_length (Nat.le_of_ble_eq_true rfl)
theorem Sys2Proof.Laws.WellFormedOperands.programRunEnd : ∀ a b c d, Statement (.programRunEnd a b c d) :=
  fun _ _ _ _ => of_length (Nat.le_of_ble_eq_true rfl)
theorem Sys2Proof.Laws.WellFormedOperands.tileRead : ∀ a b, Statement (.tileRead a b) :=
  fun _ _ => of_length (Nat.le_of_ble_eq_true rfl)
theorem Sys2Proof.Laws.WellFormedOperands.tileWrite : ∀ a b, Statement (.tileWrite a b) :=
  fun _ _ => of_length (Nat.le_of_ble_eq_true rfl)
theorem Sys2Proof.Laws.WellFormedOperands.unitFallow : ∀ a b, Statement (.unitFallow a b) :=
  fun _ _ => of_length (Nat.le_of_ble_eq_true rfl)
theorem Sys2Proof.Laws.WellFormedOperands.fallowDrainEnd : ∀ a b c, Statement (.fallowDrainEnd a b c) :=
  fun _ _ _ => of_length (Nat.le_of_ble_eq_true rfl)
theorem Sys2Proof.Laws.WellFormedOperands.frameMove : ∀ a b, Statement (.frameMove a b) :=
  fun _ _ => of_length (Nat.le_of_ble_eq_true rfl)
theorem Sys2Proof.Laws.WellFormedOperands.unitTill : ∀ a b, Statement (.unitTill a b) :=
  fun _ _ => of_length (Nat.le_of_ble_eq_true rfl)
theorem Sys2Proof.Laws.WellFormedOperands.unitSelfTestEnd : ∀ a b c d, Statement (.unitSelfTestEnd a b c d) :=
  fun _ _ _ _ => of_length (Nat.le_of_ble_eq_true rfl)
theorem Sys2Proof.Laws.WellFormedOperands.unitStatus : ∀ a b, Statement (.unitStatus a b) :=
  fun _ _ => of_length (Nat.le_of_ble_eq_true rfl)
theorem Sys2Proof.Laws.WellFormedOperands.cascadeForm : ∀ a b, Statement (.cascadeForm a b) :=
  fun _ _ => of_length (Nat.le_of_ble_eq_true rfl)
theorem Sys2Proof.Laws.WellFormedOperands.cascadeStatus : ∀ a b, Statement (.cascadeStatus a b) :=
  fun _ _ => of_length (Nat.le_of_ble_eq_true rfl)
theorem Sys2Proof.Laws.WellFormedOperands.cascadePromote : ∀ a b, Statement (.cascadePromote a b) :=
  fun _ _ => of_length (Nat.le_of_ble_eq_true rfl)
theorem Sys2Proof.Laws.WellFormedOperands.attest : ∀ a b, Statement (.attest a b) :=
  fun _ _ => of_length (Nat.le_of_ble_eq_true rfl)
theorem Sys2Proof.Laws.WellFormedOperands.measureRead : ∀ a b, Statement (.measureRead a b) :=
  fun _ _ => of_length (Nat.le_of_ble_eq_true rfl)
theorem Sys2Proof.Laws.WellFormedOperands.stakeRead : ∀ a b, Statement (.stakeRead a b) :=
  fun _ _ => of_length (Nat.le_of_ble_eq_true rfl)
theorem Sys2Proof.Laws.WellFormedOperands.stakeWrite : ∀ a b c d, Statement (.stakeWrite a b c d) :=
  fun _ _ _ _ => of_length (Nat.le_of_ble_eq_true rfl)
theorem Sys2Proof.Laws.WellFormedOperands.countersRead : ∀ a b, Statement (.countersRead a b) :=
  fun _ _ => of_length (Nat.le_of_ble_eq_true rfl)
theorem Sys2Proof.Laws.WellFormedOperands.logRead : ∀ a b, Statement (.logRead a b) :=
  fun _ _ => of_length (Nat.le_of_ble_eq_true rfl)
theorem Sys2Proof.Laws.WellFormedOperands.traceCtl : ∀ a b, Statement (.traceCtl a b) :=
  fun _ _ => of_length (Nat.le_of_ble_eq_true rfl)
theorem Sys2Proof.Laws.WellFormedOperands.testPerturb : ∀ a b, Statement (.testPerturb a b) :=
  fun _ _ => of_length (Nat.le_of_ble_eq_true rfl)
theorem Sys2Proof.Laws.WellFormedOperands.selfTest : ∀ a b c, Statement (.selfTest a b c) :=
  fun _ _ _ => of_length (Nat.le_of_ble_eq_true rfl)
theorem Sys2Proof.Laws.WellFormedOperands.firmwareStage : ∀ a b c, Statement (.firmwareStage a b c) :=
  fun _ _ _ => of_length (Nat.le_of_ble_eq_true rfl)
theorem Sys2Proof.Laws.WellFormedOperands.firmwareActivate : ∀ a b, Statement (.firmwareActivate a b) :=
  fun _ _ => of_length (Nat.le_of_ble_eq_true rfl)
theorem Sys2Proof.Laws.WellFormedOperands.plannerEpoch : Statement .plannerEpoch :=
  of_length (Nat.le_of_ble_eq_true rfl)
theorem Sys2Proof.Laws.WellFormedOperands.channelGrant : ∀ a b c, Statement (.channelGrant a b c) :=
  fun _ _ _ => of_length (Nat.le_of_ble_eq_true rfl)
theorem Sys2Proof.Laws.WellFormedOperands.gddrRetrain : ∀ a, Statement (.gddrRetrain a) :=
  fun _ => of_length (Nat.le_of_ble_eq_true rfl)
theorem Sys2Proof.Laws.WellFormedOperands.gddrRetrainEnd : ∀ a b, Statement (.gddrRetrainEnd a b) :=
  fun _ _ => of_length (Nat.le_of_ble_eq_true rfl)
theorem Sys2Proof.Laws.WellFormedOperands.gddrTemperatureRead : ∀ a, Statement (.gddrTemperatureRead a) :=
  fun _ => of_length (Nat.le_of_ble_eq_true rfl)
theorem Sys2Proof.Laws.WellFormedOperands.patrolScrub : ∀ a b c d, Statement (.patrolScrub a b c d) :=
  fun _ _ _ _ => of_length (Nat.le_of_ble_eq_true rfl)
theorem Sys2Proof.Laws.WellFormedOperands.gddrTraining : ∀ a, Statement (.gddrTraining a) :=
  fun _ => of_length (Nat.le_of_ble_eq_true rfl)
theorem Sys2Proof.Laws.WellFormedOperands.streamTileRequest : ∀ a, Statement (.streamTileRequest a) :=
  fun _ => of_length (Nat.le_of_ble_eq_true rfl)
theorem Sys2Proof.Laws.WellFormedOperands.streamTileDeliver : ∀ a b, Statement (.streamTileDeliver a b) :=
  fun _ _ => of_length (Nat.le_of_ble_eq_true rfl)
theorem Sys2Proof.Laws.WellFormedOperands.streamHalt : ∀ a, Statement (.streamHalt a) :=
  fun _ => of_length (Nat.le_of_ble_eq_true rfl)
theorem Sys2Proof.Laws.WellFormedOperands.pageIn : ∀ a b c, Statement (.pageIn a b c) :=
  fun _ _ _ => of_length (Nat.le_of_ble_eq_true rfl)
theorem Sys2Proof.Laws.WellFormedOperands.streamResume : ∀ a b, Statement (.streamResume a b) :=
  fun _ _ => of_length (Nat.le_of_ble_eq_true rfl)
theorem Sys2Proof.Laws.WellFormedOperands.modeAAdd : ∀ a b c, Statement (.modeAAdd a b c) :=
  fun _ _ _ => of_length (Nat.le_of_ble_eq_true rfl)
theorem Sys2Proof.Laws.WellFormedOperands.modeDPartial : ∀ a b c d e, Statement (.modeDPartial a b c d e) :=
  fun _ _ _ _ _ => of_length (Nat.le_of_ble_eq_true rfl)
theorem Sys2Proof.Laws.WellFormedOperands.invalidationAck : ∀ a b c d, Statement (.invalidationAck a b c d) :=
  fun _ _ _ _ => of_length (Nat.le_of_ble_eq_true rfl)
theorem Sys2Proof.Laws.WellFormedOperands.messageDeliver : ∀ a b, Statement (.messageDeliver a b) :=
  fun _ _ => of_length (Nat.le_of_ble_eq_true rfl)
theorem Sys2Proof.Laws.WellFormedOperands.halt : ∀ a b, Statement (.halt a b) :=
  fun _ _ => of_length (Nat.le_of_ble_eq_true rfl)
theorem Sys2Proof.Laws.WellFormedOperands.coreNop : ∀ a b, Statement (.coreNop a b) :=
  fun _ _ => of_length (Nat.le_of_ble_eq_true rfl)
theorem Sys2Proof.Laws.WellFormedOperands.br : ∀ a b, Statement (.br a b) :=
  fun _ _ => of_length (Nat.le_of_ble_eq_true rfl)
theorem Sys2Proof.Laws.WellFormedOperands.brc : ∀ a b, Statement (.brc a b) :=
  fun _ _ => of_length (Nat.le_of_ble_eq_true rfl)
theorem Sys2Proof.Laws.WellFormedOperands.call : ∀ a b, Statement (.call a b) :=
  fun _ _ => of_length (Nat.le_of_ble_eq_true rfl)
theorem Sys2Proof.Laws.WellFormedOperands.ret : ∀ a b, Statement (.ret a b) :=
  fun _ _ => of_length (Nat.le_of_ble_eq_true rfl)
theorem Sys2Proof.Laws.WellFormedOperands.repI : ∀ a b, Statement (.repI a b) :=
  fun _ _ => of_length (Nat.le_of_ble_eq_true rfl)
theorem Sys2Proof.Laws.WellFormedOperands.repD : ∀ a b, Statement (.repD a b) :=
  fun _ _ => of_length (Nat.le_of_ble_eq_true rfl)
theorem Sys2Proof.Laws.WellFormedOperands.breakLevel : ∀ a b, Statement (.breakLevel a b) :=
  fun _ _ => of_length (Nat.le_of_ble_eq_true rfl)
theorem Sys2Proof.Laws.WellFormedOperands.time : ∀ a b, Statement (.time a b) :=
  fun _ _ => of_length (Nat.le_of_ble_eq_true rfl)
theorem Sys2Proof.Laws.WellFormedOperands.selfId : ∀ a b, Statement (.selfId a b) :=
  fun _ _ => of_length (Nat.le_of_ble_eq_true rfl)
theorem Sys2Proof.Laws.WellFormedOperands.flagsRd : ∀ a b, Statement (.flagsRd a b) :=
  fun _ _ => of_length (Nat.le_of_ble_eq_true rfl)
theorem Sys2Proof.Laws.WellFormedOperands.flagsClr : ∀ a b, Statement (.flagsClr a b) :=
  fun _ _ => of_length (Nat.le_of_ble_eq_true rfl)
theorem Sys2Proof.Laws.WellFormedOperands.add : ∀ a b, Statement (.add a b) :=
  fun _ _ => of_length (Nat.le_of_ble_eq_true rfl)
theorem Sys2Proof.Laws.WellFormedOperands.sub : ∀ a b, Statement (.sub a b) :=
  fun _ _ => of_length (Nat.le_of_ble_eq_true rfl)
theorem Sys2Proof.Laws.WellFormedOperands.and : ∀ a b, Statement (.and a b) :=
  fun _ _ => of_length (Nat.le_of_ble_eq_true rfl)
theorem Sys2Proof.Laws.WellFormedOperands.or : ∀ a b, Statement (.or a b) :=
  fun _ _ => of_length (Nat.le_of_ble_eq_true rfl)
theorem Sys2Proof.Laws.WellFormedOperands.xor : ∀ a b, Statement (.xor a b) :=
  fun _ _ => of_length (Nat.le_of_ble_eq_true rfl)
theorem Sys2Proof.Laws.WellFormedOperands.shl : ∀ a b, Statement (.shl a b) :=
  fun _ _ => of_length (Nat.le_of_ble_eq_true rfl)
theorem Sys2Proof.Laws.WellFormedOperands.shr : ∀ a b, Statement (.shr a b) :=
  fun _ _ => of_length (Nat.le_of_ble_eq_true rfl)
theorem Sys2Proof.Laws.WellFormedOperands.sar : ∀ a b, Statement (.sar a b) :=
  fun _ _ => of_length (Nat.le_of_ble_eq_true rfl)
theorem Sys2Proof.Laws.WellFormedOperands.mul : ∀ a b, Statement (.mul a b) :=
  fun _ _ => of_length (Nat.le_of_ble_eq_true rfl)
theorem Sys2Proof.Laws.WellFormedOperands.cmp : ∀ a b, Statement (.cmp a b) :=
  fun _ _ => of_length (Nat.le_of_ble_eq_true rfl)
theorem Sys2Proof.Laws.WellFormedOperands.mov : ∀ a b, Statement (.mov a b) :=
  fun _ _ => of_length (Nat.le_of_ble_eq_true rfl)
theorem Sys2Proof.Laws.WellFormedOperands.movi : ∀ a b, Statement (.movi a b) :=
  fun _ _ => of_length (Nat.le_of_ble_eq_true rfl)
theorem Sys2Proof.Laws.WellFormedOperands.addi : ∀ a b, Statement (.addi a b) :=
  fun _ _ => of_length (Nat.le_of_ble_eq_true rfl)
theorem Sys2Proof.Laws.WellFormedOperands.vadd : ∀ a b, Statement (.vadd a b) :=
  fun _ _ => of_length (Nat.le_of_ble_eq_true rfl)
theorem Sys2Proof.Laws.WellFormedOperands.vsub : ∀ a b, Statement (.vsub a b) :=
  fun _ _ => of_length (Nat.le_of_ble_eq_true rfl)
theorem Sys2Proof.Laws.WellFormedOperands.vmul : ∀ a b, Statement (.vmul a b) :=
  fun _ _ => of_length (Nat.le_of_ble_eq_true rfl)
theorem Sys2Proof.Laws.WellFormedOperands.vmax : ∀ a b, Statement (.vmax a b) :=
  fun _ _ => of_length (Nat.le_of_ble_eq_true rfl)
theorem Sys2Proof.Laws.WellFormedOperands.vmin : ∀ a b, Statement (.vmin a b) :=
  fun _ _ => of_length (Nat.le_of_ble_eq_true rfl)
theorem Sys2Proof.Laws.WellFormedOperands.vsel : ∀ a b, Statement (.vsel a b) :=
  fun _ _ => of_length (Nat.le_of_ble_eq_true rfl)
theorem Sys2Proof.Laws.WellFormedOperands.vred : ∀ a b, Statement (.vred a b) :=
  fun _ _ => of_length (Nat.le_of_ble_eq_true rfl)
theorem Sys2Proof.Laws.WellFormedOperands.vcvt : ∀ a b, Statement (.vcvt a b) :=
  fun _ _ => of_length (Nat.le_of_ble_eq_true rfl)
theorem Sys2Proof.Laws.WellFormedOperands.vsbac : ∀ a b, Statement (.vsbac a b) :=
  fun _ _ => of_length (Nat.le_of_ble_eq_true rfl)
theorem Sys2Proof.Laws.WellFormedOperands.mac16 : ∀ a b, Statement (.mac16 a b) :=
  fun _ _ => of_length (Nat.le_of_ble_eq_true rfl)
theorem Sys2Proof.Laws.WellFormedOperands.mac8 : ∀ a b, Statement (.mac8 a b) :=
  fun _ _ => of_length (Nat.le_of_ble_eq_true rfl)
theorem Sys2Proof.Laws.WellFormedOperands.aclr : ∀ a b, Statement (.aclr a b) :=
  fun _ _ => of_length (Nat.le_of_ble_eq_true rfl)
theorem Sys2Proof.Laws.WellFormedOperands.sta32 : ∀ a b, Statement (.sta32 a b) :=
  fun _ _ => of_length (Nat.le_of_ble_eq_true rfl)
theorem Sys2Proof.Laws.WellFormedOperands.sta16 : ∀ a b, Statement (.sta16 a b) :=
  fun _ _ => of_length (Nat.le_of_ble_eq_true rfl)
theorem Sys2Proof.Laws.WellFormedOperands.ld : ∀ a b, Statement (.ld a b) :=
  fun _ _ => of_length (Nat.le_of_ble_eq_true rfl)
theorem Sys2Proof.Laws.WellFormedOperands.st : ∀ a b, Statement (.st a b) :=
  fun _ _ => of_length (Nat.le_of_ble_eq_true rfl)
theorem Sys2Proof.Laws.WellFormedOperands.ldv : ∀ a b, Statement (.ldv a b) :=
  fun _ _ => of_length (Nat.le_of_ble_eq_true rfl)
theorem Sys2Proof.Laws.WellFormedOperands.stv : ∀ a b, Statement (.stv a b) :=
  fun _ _ => of_length (Nat.le_of_ble_eq_true rfl)
theorem Sys2Proof.Laws.WellFormedOperands.ld2 : ∀ a b, Statement (.ld2 a b) :=
  fun _ _ => of_length (Nat.le_of_ble_eq_true rfl)
theorem Sys2Proof.Laws.WellFormedOperands.ldst : ∀ a b, Statement (.ldst a b) :=
  fun _ _ => of_length (Nat.le_of_ble_eq_true rfl)
theorem Sys2Proof.Laws.WellFormedOperands.ldc : ∀ a b, Statement (.ldc a b) :=
  fun _ _ => of_length (Nat.le_of_ble_eq_true rfl)
theorem Sys2Proof.Laws.WellFormedOperands.tld : ∀ a b, Statement (.tld a b) :=
  fun _ _ => of_length (Nat.le_of_ble_eq_true rfl)
theorem Sys2Proof.Laws.WellFormedOperands.tst : ∀ a b, Statement (.tst a b) :=
  fun _ _ => of_length (Nat.le_of_ble_eq_true rfl)
theorem Sys2Proof.Laws.WellFormedOperands.tacc : ∀ a b, Statement (.tacc a b) :=
  fun _ _ => of_length (Nat.le_of_ble_eq_true rfl)
theorem Sys2Proof.Laws.WellFormedOperands.tfold : ∀ a b, Statement (.tfold a b) :=
  fun _ _ => of_length (Nat.le_of_ble_eq_true rfl)
theorem Sys2Proof.Laws.WellFormedOperands.tsts : ∀ a b, Statement (.tsts a b) :=
  fun _ _ => of_length (Nat.le_of_ble_eq_true rfl)
theorem Sys2Proof.Laws.WellFormedOperands.tclr : ∀ a b, Statement (.tclr a b) :=
  fun _ _ => of_length (Nat.le_of_ble_eq_true rfl)
theorem Sys2Proof.Laws.WellFormedOperands.lkp8 : ∀ a b, Statement (.lkp8 a b) :=
  fun _ _ => of_length (Nat.le_of_ble_eq_true rfl)
theorem Sys2Proof.Laws.WellFormedOperands.lkp4 : ∀ a b, Statement (.lkp4 a b) :=
  fun _ _ => of_length (Nat.le_of_ble_eq_true rfl)
theorem Sys2Proof.Laws.WellFormedOperands.dstep : ∀ a b, Statement (.dstep a b) :=
  fun _ _ => of_length (Nat.le_of_ble_eq_true rfl)
theorem Sys2Proof.Laws.WellFormedOperands.sqstep : ∀ a b, Statement (.sqstep a b) :=
  fun _ _ => of_length (Nat.le_of_ble_eq_true rfl)
theorem Sys2Proof.Laws.WellFormedOperands.div : ∀ a b, Statement (.div a b) :=
  fun _ _ => of_length (Nat.le_of_ble_eq_true rfl)
theorem Sys2Proof.Laws.WellFormedOperands.rsq : ∀ a b, Statement (.rsq a b) :=
  fun _ _ => of_length (Nat.le_of_ble_eq_true rfl)
theorem Sys2Proof.Laws.WellFormedOperands.send : ∀ a b, Statement (.send a b) :=
  fun _ _ => of_length (Nat.le_of_ble_eq_true rfl)
theorem Sys2Proof.Laws.WellFormedOperands.recv : ∀ a b, Statement (.recv a b) :=
  fun _ _ => of_length (Nat.le_of_ble_eq_true rfl)
theorem Sys2Proof.Laws.WellFormedOperands.probe : ∀ a b, Statement (.probe a b) :=
  fun _ _ => of_length (Nat.le_of_ble_eq_true rfl)
theorem Sys2Proof.Laws.WellFormedOperands.sstart : ∀ a b, Statement (.sstart a b) :=
  fun _ _ => of_length (Nat.le_of_ble_eq_true rfl)
theorem Sys2Proof.Laws.WellFormedOperands.swait : ∀ a b, Statement (.swait a b) :=
  fun _ _ => of_length (Nat.le_of_ble_eq_true rfl)
theorem Sys2Proof.Laws.WellFormedOperands.spoll : ∀ a b, Statement (.spoll a b) :=
  fun _ _ => of_length (Nat.le_of_ble_eq_true rfl)
theorem Sys2Proof.Laws.WellFormedOperands.apEnd : ∀ a, Statement (.apEnd a) :=
  fun _ => of_length (Nat.le_of_ble_eq_true rfl)
theorem Sys2Proof.Laws.WellFormedOperands.apSetb : ∀ a, Statement (.apSetb a) :=
  fun _ => of_length (Nat.le_of_ble_eq_true rfl)
theorem Sys2Proof.Laws.WellFormedOperands.apAdds : ∀ a, Statement (.apAdds a) :=
  fun _ => of_length (Nat.le_of_ble_eq_true rfl)
theorem Sys2Proof.Laws.WellFormedOperands.apEmit : ∀ a, Statement (.apEmit a) :=
  fun _ => of_length (Nat.le_of_ble_eq_true rfl)
theorem Sys2Proof.Laws.WellFormedOperands.apDo : ∀ a, Statement (.apDo a) :=
  fun _ => of_length (Nat.le_of_ble_eq_true rfl)
theorem Sys2Proof.Laws.WellFormedOperands.apLoop : ∀ a, Statement (.apLoop a) :=
  fun _ => of_length (Nat.le_of_ble_eq_true rfl)
theorem Sys2Proof.Laws.WellFormedOperands.beacon : ∀ a, Statement (.beacon a) :=
  fun _ => of_length (Nat.le_of_ble_eq_true rfl)
theorem Sys2Proof.Laws.WellFormedOperands.linkTrainingAdvance : ∀ a b, Statement (.linkTrainingAdvance a b) :=
  fun _ _ => of_length (Nat.le_of_ble_eq_true rfl)
theorem Sys2Proof.Laws.WellFormedOperands.trainingTimeout : ∀ a, Statement (.trainingTimeout a) :=
  fun _ => of_length (Nat.le_of_ble_eq_true rfl)
theorem Sys2Proof.Laws.WellFormedOperands.flitTransmit : ∀ a, Statement (.flitTransmit a) :=
  fun _ => of_length (Nat.le_of_ble_eq_true rfl)
theorem Sys2Proof.Laws.WellFormedOperands.flitReceive : ∀ a b, Statement (.flitReceive a b) :=
  fun _ _ => of_length (Nat.le_of_ble_eq_true rfl)
theorem Sys2Proof.Laws.WellFormedOperands.replayTimeout : ∀ a, Statement (.replayTimeout a) :=
  fun _ => of_length (Nat.le_of_ble_eq_true rfl)
theorem Sys2Proof.Laws.WellFormedOperands.linkRetrain : ∀ a, Statement (.linkRetrain a) :=
  fun _ => of_length (Nat.le_of_ble_eq_true rfl)
theorem Sys2Proof.Laws.WellFormedOperands.linkDown : ∀ a, Statement (.linkDown a) :=
  fun _ => of_length (Nat.le_of_ble_eq_true rfl)
theorem Sys2Proof.Laws.WellFormedOperands.censusProbe : ∀ a b, Statement (.censusProbe a b) :=
  fun _ _ => of_length (Nat.le_of_ble_eq_true rfl)
theorem Sys2Proof.Laws.WellFormedOperands.censusQuietTimer : ∀ a b c, Statement (.censusQuietTimer a b c) :=
  fun _ _ _ => of_length (Nat.le_of_ble_eq_true rfl)
theorem Sys2Proof.Laws.WellFormedOperands.heartbeat : Statement .heartbeat :=
  of_length (Nat.le_of_ble_eq_true rfl)
theorem Sys2Proof.Laws.WellFormedOperands.memberLost : ∀ a b, Statement (.memberLost a b) :=
  fun _ _ => of_length (Nat.le_of_ble_eq_true rfl)
theorem Sys2Proof.Laws.WellFormedOperands.censusRerun : ∀ a, Statement (.censusRerun a) :=
  fun _ => of_length (Nat.le_of_ble_eq_true rfl)
theorem Sys2Proof.Laws.WellFormedOperands.leadLost : Statement .leadLost :=
  of_length (Nat.le_of_ble_eq_true rfl)
theorem Sys2Proof.Laws.WellFormedOperands.configMessage : ∀ a b c d e, Statement (.configMessage a b c d e) :=
  fun _ _ _ _ _ => of_length (Nat.le_of_ble_eq_true rfl)
theorem Sys2Proof.Laws.WellFormedOperands.mutationRecord : ∀ a b c d e f g, Statement (.mutationRecord a b c d e f g) :=
  fun _ _ _ _ _ _ _ => of_length (Nat.le_of_ble_eq_true rfl)
theorem Sys2Proof.Laws.WellFormedOperands.searchPart : ∀ a, Statement (.searchPart a) :=
  fun _ => of_length (Nat.le_of_ble_eq_true rfl)
theorem Sys2Proof.Laws.WellFormedOperands.standbySync : ∀ a, Statement (.standbySync a) :=
  fun _ => of_length (Nat.le_of_ble_eq_true rfl)
theorem Sys2Proof.Laws.WellFormedOperands.slotCopy : ∀ a b c d, Statement (.slotCopy a b c d) :=
  fun _ _ _ _ => of_length (Nat.le_of_ble_eq_true rfl)
theorem Sys2Proof.Laws.WellFormedOperands.scrubListCompare : ∀ a b c d e, Statement (.scrubListCompare a b c d e) :=
  fun _ _ _ _ _ => of_length (Nat.le_of_ble_eq_true rfl)
theorem Sys2Proof.Laws.WellFormedOperands.bootRom : ∀ a b c, Statement (.bootRom a b c) :=
  fun _ _ _ => of_length (Nat.le_of_ble_eq_true rfl)
theorem Sys2Proof.Laws.WellFormedOperands.firmwareBoot : Statement .firmwareBoot :=
  of_length (Nat.le_of_ble_eq_true rfl)
theorem Sys2Proof.Laws.WellFormedOperands.getVersion : ∀ a, Statement (.getVersion a) :=
  fun _ => of_length (Nat.le_of_ble_eq_true rfl)
theorem Sys2Proof.Laws.WellFormedOperands.getCapabilities : ∀ a b, Statement (.getCapabilities a b) :=
  fun _ _ => of_length (Nat.le_of_ble_eq_true rfl)
theorem Sys2Proof.Laws.WellFormedOperands.negotiateAlgorithms : ∀ a b c, Statement (.negotiateAlgorithms a b c) :=
  fun _ _ _ => of_length (Nat.le_of_ble_eq_true rfl)
theorem Sys2Proof.Laws.WellFormedOperands.getDigests : ∀ a b, Statement (.getDigests a b) :=
  fun _ _ => of_length (Nat.le_of_ble_eq_true rfl)
theorem Sys2Proof.Laws.WellFormedOperands.getCertificate : ∀ a b c d e, Statement (.getCertificate a b c d e) :=
  fun _ _ _ _ _ => of_length (Nat.le_of_ble_eq_true rfl)
theorem Sys2Proof.Laws.WellFormedOperands.challenge : ∀ a b c d e f, Statement (.challenge a b c d e f) :=
  fun _ _ _ _ _ _ => of_length (Nat.le_of_ble_eq_true rfl)
theorem Sys2Proof.Laws.WellFormedOperands.getMeasurements : ∀ a b c d e f, Statement (.getMeasurements a b c d e f) :=
  fun _ _ _ _ _ _ => of_length (Nat.le_of_ble_eq_true rfl)
theorem Sys2Proof.Laws.WellFormedOperands.spdmUnsupportedRequest : ∀ a b c, Statement (.spdmUnsupportedRequest a b c) :=
  fun _ _ _ => of_length (Nat.le_of_ble_eq_true rfl)
theorem Sys2Proof.Laws.WellFormedOperands.smbusArp : ∀ a b, Statement (.smbusArp a b) :=
  fun _ _ => of_length (Nat.le_of_ble_eq_true rfl)
theorem Sys2Proof.Laws.WellFormedOperands.i3cAddressAssign : ∀ a b c, Statement (.i3cAddressAssign a b c) :=
  fun _ _ _ => of_length (Nat.le_of_ble_eq_true rfl)
theorem Sys2Proof.Laws.WellFormedOperands.smbusSclTimeout : ∀ a, Statement (.smbusSclTimeout a) :=
  fun _ => of_length (Nat.le_of_ble_eq_true rfl)
theorem Sys2Proof.Laws.WellFormedOperands.eventCauseClear : ∀ a b, Statement (.eventCauseClear a b) :=
  fun _ _ => of_length (Nat.le_of_ble_eq_true rfl)
theorem Sys2Proof.Laws.WellFormedOperands.eventEnableWrite : ∀ a b, Statement (.eventEnableWrite a b) :=
  fun _ _ => of_length (Nat.le_of_ble_eq_true rfl)
theorem Sys2Proof.Laws.WellFormedOperands.irqTest : ∀ a b, Statement (.irqTest a b) :=
  fun _ _ => of_length (Nat.le_of_ble_eq_true rfl)
theorem Sys2Proof.Laws.WellFormedOperands.stewardRestartRequest : ∀ a, Statement (.stewardRestartRequest a) :=
  fun _ => of_length (Nat.le_of_ble_eq_true rfl)
theorem Sys2Proof.Laws.WellFormedOperands.pertGo : ∀ a b, Statement (.pertGo a b) :=
  fun _ _ => of_length (Nat.le_of_ble_eq_true rfl)
theorem Sys2Proof.Laws.WellFormedOperands.tbNowRead : ∀ a, Statement (.tbNowRead a) :=
  fun _ => of_length (Nat.le_of_ble_eq_true rfl)
theorem Sys2Proof.Laws.WellFormedOperands.tbCapture : ∀ a, Statement (.tbCapture a) :=
  fun _ => of_length (Nat.le_of_ble_eq_true rfl)
theorem Sys2Proof.Laws.WellFormedOperands.tbCtlWrite : ∀ a b, Statement (.tbCtlWrite a b) :=
  fun _ _ => of_length (Nat.le_of_ble_eq_true rfl)
theorem Sys2Proof.Laws.WellFormedOperands.timerefLockChange : ∀ a, Statement (.timerefLockChange a) :=
  fun _ => of_length (Nat.le_of_ble_eq_true rfl)
theorem Sys2Proof.Laws.WellFormedOperands.tjSample : ∀ a, Statement (.tjSample a) :=
  fun _ => of_length (Nat.le_of_ble_eq_true rfl)
theorem Sys2Proof.Laws.WellFormedOperands.vidStep : Statement .vidStep :=
  of_length (Nat.le_of_ble_eq_true rfl)
theorem Sys2Proof.Laws.WellFormedOperands.thermtrip : ∀ a, Statement (.thermtrip a) :=
  fun _ => of_length (Nat.le_of_ble_eq_true rfl)
theorem Sys2Proof.Laws.WellFormedOperands.unitError : ∀ a b c, Statement (.unitError a b c) :=
  fun _ _ _ => of_length (Nat.le_of_ble_eq_true rfl)
theorem Sys2Proof.Laws.WellFormedOperands.pageDamaged : ∀ a b, Statement (.pageDamaged a b) :=
  fun _ _ => of_length (Nat.le_of_ble_eq_true rfl)
theorem Sys2Proof.Laws.WellFormedOperands.deviceFatal : ∀ a, Statement (.deviceFatal a) :=
  fun _ => of_length (Nat.le_of_ble_eq_true rfl)
theorem Sys2Proof.Laws.WellFormedOperands.stewardRestart : Statement .stewardRestart :=
  of_length (Nat.le_of_ble_eq_true rfl)
theorem Sys2Proof.Laws.WellFormedOperands.stewardRestartEnd : Statement .stewardRestartEnd :=
  of_length (Nat.le_of_ble_eq_true rfl)
theorem Sys2Proof.Laws.WellFormedOperands.coldReset : ∀ a b, Statement (.coldReset a b) :=
  fun _ _ => of_length (Nat.le_of_ble_eq_true rfl)
theorem Sys2Proof.Laws.WellFormedOperands.perstN : ∀ a, Statement (.perstN a) :=
  fun _ => of_length (Nat.le_of_ble_eq_true rfl)
theorem Sys2Proof.Laws.WellFormedOperands.resetRelease : ∀ a, Statement (.resetRelease a) :=
  fun _ => of_length (Nat.le_of_ble_eq_true rfl)
theorem Sys2Proof.Laws.WellFormedOperands.flrPhysicalFunction : Statement .flrPhysicalFunction :=
  of_length (Nat.le_of_ble_eq_true rfl)
theorem Sys2Proof.Laws.WellFormedOperands.flrVirtualFunction : ∀ a, Statement (.flrVirtualFunction a) :=
  fun _ => of_length (Nat.le_of_ble_eq_true rfl)
theorem Sys2Proof.Laws.WellFormedOperands.d3hotEntry : ∀ a, Statement (.d3hotEntry a) :=
  fun _ => of_length (Nat.le_of_ble_eq_true rfl)
theorem Sys2Proof.Laws.WellFormedOperands.lossOfLock : ∀ a, Statement (.lossOfLock a) :=
  fun _ => of_length (Nat.le_of_ble_eq_true rfl)
theorem Sys2Proof.Laws.WellFormedOperands.refresh : ∀ a, Statement (.refresh a) :=
  fun _ => of_length (Nat.le_of_ble_eq_true rfl)
theorem Sys2Proof.Laws.WellFormedOperands.trainingUpkeep : ∀ a, Statement (.trainingUpkeep a) :=
  fun _ => of_length (Nat.le_of_ble_eq_true rfl)
theorem Sys2Proof.Laws.WellFormedOperands.powerUp : ∀ a b, Statement (.powerUp a b) :=
  fun _ _ => of_length (Nat.le_of_ble_eq_true rfl)
theorem Sys2Proof.Laws.WellFormedOperands.heartbeatAnswer : ∀ a b, Statement (.heartbeatAnswer a b) :=
  fun _ _ => of_length (Nat.le_of_ble_eq_true rfl)
theorem Sys2Proof.Laws.WellFormedOperands.searchPartReply : ∀ a b c d e f g h, Statement (.searchPartReply a b c d e f g h) :=
  fun _ _ _ _ _ _ _ _ => of_length (Nat.le_of_ble_eq_true rfl)
theorem Sys2Proof.Laws.WellFormedOperands.commitMessage : ∀ a b c d e, Statement (.commitMessage a b c d e) :=
  fun _ _ _ _ _ => of_length (Nat.le_of_ble_eq_true rfl)
theorem Sys2Proof.Laws.WellFormedOperands.d3hotExit : ∀ a, Statement (.d3hotExit a) :=
  fun _ => of_length (Nat.le_of_ble_eq_true rfl)
theorem Sys2Proof.Laws.WellFormedOperands.tapStep : ∀ a b, Statement (.tapStep a b) :=
  fun _ _ => of_length (Nat.le_of_ble_eq_true rfl)
end

