-- ==== Sys2Proof/Laws/State.lean ====
section
/-! SUPPORT. What every update of State gives in every field, and what the accessors read after it. -/

namespace Sys2Proof.Machine

variable (s : State)

/-! ### setRing -/

@[simp] theorem State.setRing_pending (r : Nat) (x : Ring) : (s.setRing r x).pending = s.pending := rfl
@[simp] theorem State.setRing_out (r : Nat) (x : Ring) : (s.setRing r x).out = s.out := rfl
@[simp] theorem State.setRing_fresh (r : Nat) (x : Ring) : (s.setRing r x).fresh = s.fresh := rfl
@[simp] theorem State.setRing_tbk (r : Nat) (x : Ring) : (s.setRing r x).tbk = s.tbk := rfl
@[simp] theorem State.setRing_rings (r : Nat) (x : Ring) : (s.setRing r x).rings = FMap.set s.rings r x := rfl
@[simp] theorem State.setRing_skip (r : Nat) (x : Ring) : (s.setRing r x).skip = s.skip := rfl
@[simp] theorem State.setRing_lastServed (r : Nat) (x : Ring) : (s.setRing r x).lastServed = s.lastServed := rfl
@[simp] theorem State.setRing_cmds (r : Nat) (x : Ring) : (s.setRing r x).cmds = s.cmds := rfl
@[simp] theorem State.setRing_fields (r : Nat) (x : Ring) : (s.setRing r x).fields = s.fields := rfl
@[simp] theorem State.setRing_indexes (r : Nat) (x : Ring) : (s.setRing r x).indexes = s.indexes := rfl
@[simp] theorem State.setRing_compactQueue (r : Nat) (x : Ring) : (s.setRing r x).compactQueue = s.compactQueue := rfl
@[simp] theorem State.setRing_evaporators (r : Nat) (x : Ring) : (s.setRing r x).evaporators = s.evaporators := rfl
@[simp] theorem State.setRing_queries (r : Nat) (x : Ring) : (s.setRing r x).queries = s.queries := rfl
@[simp] theorem State.setRing_windows (r : Nat) (x : Ring) : (s.setRing r x).windows = s.windows := rfl
@[simp] theorem State.setRing_nextWindow (r : Nat) (x : Ring) : (s.setRing r x).nextWindow = s.nextWindow := rfl
@[simp] theorem State.setRing_order (r : Nat) (x : Ring) : (s.setRing r x).order = s.order := rfl
@[simp] theorem State.setRing_ledger (r : Nat) (x : Ring) : (s.setRing r x).ledger = s.ledger := rfl
@[simp] theorem State.setRing_cores (r : Nat) (x : Ring) : (s.setRing r x).cores = s.cores := rfl
@[simp] theorem State.setRing_messages (r : Nat) (x : Ring) : (s.setRing r x).messages = s.messages := rfl
@[simp] theorem State.setRing_runs (r : Nat) (x : Ring) : (s.setRing r x).runs = s.runs := rfl
@[simp] theorem State.setRing_nextRun (r : Nat) (x : Ring) : (s.setRing r x).nextRun = s.nextRun := rfl
@[simp] theorem State.setRing_streams (r : Nat) (x : Ring) : (s.setRing r x).streams = s.streams := rfl
@[simp] theorem State.setRing_nextStream (r : Nat) (x : Ring) : (s.setRing r x).nextStream = s.nextStream := rfl
@[simp] theorem State.setRing_channels (r : Nat) (x : Ring) : (s.setRing r x).channels = s.channels := rfl
@[simp] theorem State.setRing_memRate (r : Nat) (x : Ring) : (s.setRing r x).memRate = s.memRate := rfl
@[simp] theorem State.setRing_channelMib (r : Nat) (x : Ring) : (s.setRing r x).channelMib = s.channelMib := rfl
@[simp] theorem State.setRing_granary (r : Nat) (x : Ring) : (s.setRing r x).granary = s.granary := rfl
@[simp] theorem State.setRing_ownership (r : Nat) (x : Ring) : (s.setRing r x).ownership = s.ownership := rfl
@[simp] theorem State.setRing_badChunks (r : Nat) (x : Ring) : (s.setRing r x).badChunks = s.badChunks := rfl
@[simp] theorem State.setRing_modeA (r : Nat) (x : Ring) : (s.setRing r x).modeA = s.modeA := rfl
@[simp] theorem State.setRing_modeD (r : Nat) (x : Ring) : (s.setRing r x).modeD = s.modeD := rfl
@[simp] theorem State.setRing_served (r : Nat) (x : Ring) : (s.setRing r x).served = s.served := rfl
@[simp] theorem State.setRing_handleQueues (r : Nat) (x : Ring) : (s.setRing r x).handleQueues = s.handleQueues := rfl
@[simp] theorem State.setRing_crossings (r : Nat) (x : Ring) : (s.setRing r x).crossings = s.crossings := rfl
@[simp] theorem State.setRing_coulters (r : Nat) (x : Ring) : (s.setRing r x).coulters = s.coulters := rfl
@[simp] theorem State.setRing_units (r : Nat) (x : Ring) : (s.setRing r x).units = s.units := rfl
@[simp] theorem State.setRing_ports (r : Nat) (x : Ring) : (s.setRing r x).ports = s.ports := rfl
@[simp] theorem State.setRing_casc (r : Nat) (x : Ring) : (s.setRing r x).casc = s.casc := rfl
@[simp] theorem State.setRing_trust (r : Nat) (x : Ring) : (s.setRing r x).trust = s.trust := rfl
@[simp] theorem State.setRing_log (r : Nat) (x : Ring) : (s.setRing r x).log = s.log := rfl
@[simp] theorem State.setRing_trace (r : Nat) (x : Ring) : (s.setRing r x).trace = s.trace := rfl
@[simp] theorem State.setRing_counters (r : Nat) (x : Ring) : (s.setRing r x).counters = s.counters := rfl
@[simp] theorem State.setRing_pert (r : Nat) (x : Ring) : (s.setRing r x).pert = s.pert := rfl
@[simp] theorem State.setRing_glob (r : Nat) (x : Ring) : (s.setRing r x).glob = s.glob := rfl
@[simp] theorem State.setRing_fns (r : Nat) (x : Ring) : (s.setRing r x).fns = s.fns := rfl
@[simp] theorem State.setRing_time (r : Nat) (x : Ring) : (s.setRing r x).time = s.time := rfl
@[simp] theorem State.setRing_board (r : Nat) (x : Ring) : (s.setRing r x).board = s.board := rfl

/-! ### setField -/

@[simp] theorem State.setField_pending (f : Nat) (x : Field) : (s.setField f x).pending = s.pending := rfl
@[simp] theorem State.setField_out (f : Nat) (x : Field) : (s.setField f x).out = s.out := rfl
@[simp] theorem State.setField_fresh (f : Nat) (x : Field) : (s.setField f x).fresh = s.fresh := rfl
@[simp] theorem State.setField_tbk (f : Nat) (x : Field) : (s.setField f x).tbk = s.tbk := rfl
@[simp] theorem State.setField_rings (f : Nat) (x : Field) : (s.setField f x).rings = s.rings := rfl
@[simp] theorem State.setField_skip (f : Nat) (x : Field) : (s.setField f x).skip = s.skip := rfl
@[simp] theorem State.setField_lastServed (f : Nat) (x : Field) : (s.setField f x).lastServed = s.lastServed := rfl
@[simp] theorem State.setField_cmds (f : Nat) (x : Field) : (s.setField f x).cmds = s.cmds := rfl
@[simp] theorem State.setField_fields (f : Nat) (x : Field) : (s.setField f x).fields = FMap.set s.fields f x := rfl
@[simp] theorem State.setField_indexes (f : Nat) (x : Field) : (s.setField f x).indexes = s.indexes := rfl
@[simp] theorem State.setField_compactQueue (f : Nat) (x : Field) :
    (s.setField f x).compactQueue = s.compactQueue := rfl
@[simp] theorem State.setField_evaporators (f : Nat) (x : Field) : (s.setField f x).evaporators = s.evaporators := rfl
@[simp] theorem State.setField_queries (f : Nat) (x : Field) : (s.setField f x).queries = s.queries := rfl
@[simp] theorem State.setField_windows (f : Nat) (x : Field) : (s.setField f x).windows = s.windows := rfl
@[simp] theorem State.setField_nextWindow (f : Nat) (x : Field) : (s.setField f x).nextWindow = s.nextWindow := rfl
@[simp] theorem State.setField_order (f : Nat) (x : Field) : (s.setField f x).order = s.order := rfl
@[simp] theorem State.setField_ledger (f : Nat) (x : Field) : (s.setField f x).ledger = s.ledger := rfl
@[simp] theorem State.setField_cores (f : Nat) (x : Field) : (s.setField f x).cores = s.cores := rfl
@[simp] theorem State.setField_messages (f : Nat) (x : Field) : (s.setField f x).messages = s.messages := rfl
@[simp] theorem State.setField_runs (f : Nat) (x : Field) : (s.setField f x).runs = s.runs := rfl
@[simp] theorem State.setField_nextRun (f : Nat) (x : Field) : (s.setField f x).nextRun = s.nextRun := rfl
@[simp] theorem State.setField_streams (f : Nat) (x : Field) : (s.setField f x).streams = s.streams := rfl
@[simp] theorem State.setField_nextStream (f : Nat) (x : Field) : (s.setField f x).nextStream = s.nextStream := rfl
@[simp] theorem State.setField_channels (f : Nat) (x : Field) : (s.setField f x).channels = s.channels := rfl
@[simp] theorem State.setField_memRate (f : Nat) (x : Field) : (s.setField f x).memRate = s.memRate := rfl
@[simp] theorem State.setField_channelMib (f : Nat) (x : Field) : (s.setField f x).channelMib = s.channelMib := rfl
@[simp] theorem State.setField_granary (f : Nat) (x : Field) : (s.setField f x).granary = s.granary := rfl
@[simp] theorem State.setField_ownership (f : Nat) (x : Field) : (s.setField f x).ownership = s.ownership := rfl
@[simp] theorem State.setField_badChunks (f : Nat) (x : Field) : (s.setField f x).badChunks = s.badChunks := rfl
@[simp] theorem State.setField_modeA (f : Nat) (x : Field) : (s.setField f x).modeA = s.modeA := rfl
@[simp] theorem State.setField_modeD (f : Nat) (x : Field) : (s.setField f x).modeD = s.modeD := rfl
@[simp] theorem State.setField_served (f : Nat) (x : Field) : (s.setField f x).served = s.served := rfl
@[simp] theorem State.setField_handleQueues (f : Nat) (x : Field) : (s.setField f x).handleQueues = s.handleQueues := rfl
@[simp] theorem State.setField_crossings (f : Nat) (x : Field) : (s.setField f x).crossings = s.crossings := rfl
@[simp] theorem State.setField_coulters (f : Nat) (x : Field) : (s.setField f x).coulters = s.coulters := rfl
@[simp] theorem State.setField_units (f : Nat) (x : Field) : (s.setField f x).units = s.units := rfl
@[simp] theorem State.setField_ports (f : Nat) (x : Field) : (s.setField f x).ports = s.ports := rfl
@[simp] theorem State.setField_casc (f : Nat) (x : Field) : (s.setField f x).casc = s.casc := rfl
@[simp] theorem State.setField_trust (f : Nat) (x : Field) : (s.setField f x).trust = s.trust := rfl
@[simp] theorem State.setField_log (f : Nat) (x : Field) : (s.setField f x).log = s.log := rfl
@[simp] theorem State.setField_trace (f : Nat) (x : Field) : (s.setField f x).trace = s.trace := rfl
@[simp] theorem State.setField_counters (f : Nat) (x : Field) : (s.setField f x).counters = s.counters := rfl
@[simp] theorem State.setField_pert (f : Nat) (x : Field) : (s.setField f x).pert = s.pert := rfl
@[simp] theorem State.setField_glob (f : Nat) (x : Field) : (s.setField f x).glob = s.glob := rfl
@[simp] theorem State.setField_fns (f : Nat) (x : Field) : (s.setField f x).fns = s.fns := rfl
@[simp] theorem State.setField_time (f : Nat) (x : Field) : (s.setField f x).time = s.time := rfl
@[simp] theorem State.setField_board (f : Nat) (x : Field) : (s.setField f x).board = s.board := rfl

/-! ### setIndex -/

@[simp] theorem State.setIndex_pending (k : Nat) (x : Index) : (s.setIndex k x).pending = s.pending := rfl
@[simp] theorem State.setIndex_out (k : Nat) (x : Index) : (s.setIndex k x).out = s.out := rfl
@[simp] theorem State.setIndex_fresh (k : Nat) (x : Index) : (s.setIndex k x).fresh = s.fresh := rfl
@[simp] theorem State.setIndex_tbk (k : Nat) (x : Index) : (s.setIndex k x).tbk = s.tbk := rfl
@[simp] theorem State.setIndex_rings (k : Nat) (x : Index) : (s.setIndex k x).rings = s.rings := rfl
@[simp] theorem State.setIndex_skip (k : Nat) (x : Index) : (s.setIndex k x).skip = s.skip := rfl
@[simp] theorem State.setIndex_lastServed (k : Nat) (x : Index) : (s.setIndex k x).lastServed = s.lastServed := rfl
@[simp] theorem State.setIndex_cmds (k : Nat) (x : Index) : (s.setIndex k x).cmds = s.cmds := rfl
@[simp] theorem State.setIndex_fields (k : Nat) (x : Index) : (s.setIndex k x).fields = s.fields := rfl
@[simp] theorem State.setIndex_indexes (k : Nat) (x : Index) : (s.setIndex k x).indexes = FMap.set s.indexes k x := rfl
@[simp] theorem State.setIndex_compactQueue (k : Nat) (x : Index) :
    (s.setIndex k x).compactQueue = s.compactQueue := rfl
@[simp] theorem State.setIndex_evaporators (k : Nat) (x : Index) : (s.setIndex k x).evaporators = s.evaporators := rfl
@[simp] theorem State.setIndex_queries (k : Nat) (x : Index) : (s.setIndex k x).queries = s.queries := rfl
@[simp] theorem State.setIndex_windows (k : Nat) (x : Index) : (s.setIndex k x).windows = s.windows := rfl
@[simp] theorem State.setIndex_nextWindow (k : Nat) (x : Index) : (s.setIndex k x).nextWindow = s.nextWindow := rfl
@[simp] theorem State.setIndex_order (k : Nat) (x : Index) : (s.setIndex k x).order = s.order := rfl
@[simp] theorem State.setIndex_ledger (k : Nat) (x : Index) : (s.setIndex k x).ledger = s.ledger := rfl
@[simp] theorem State.setIndex_cores (k : Nat) (x : Index) : (s.setIndex k x).cores = s.cores := rfl
@[simp] theorem State.setIndex_messages (k : Nat) (x : Index) : (s.setIndex k x).messages = s.messages := rfl
@[simp] theorem State.setIndex_runs (k : Nat) (x : Index) : (s.setIndex k x).runs = s.runs := rfl
@[simp] theorem State.setIndex_nextRun (k : Nat) (x : Index) : (s.setIndex k x).nextRun = s.nextRun := rfl
@[simp] theorem State.setIndex_streams (k : Nat) (x : Index) : (s.setIndex k x).streams = s.streams := rfl
@[simp] theorem State.setIndex_nextStream (k : Nat) (x : Index) : (s.setIndex k x).nextStream = s.nextStream := rfl
@[simp] theorem State.setIndex_channels (k : Nat) (x : Index) : (s.setIndex k x).channels = s.channels := rfl
@[simp] theorem State.setIndex_memRate (k : Nat) (x : Index) : (s.setIndex k x).memRate = s.memRate := rfl
@[simp] theorem State.setIndex_channelMib (k : Nat) (x : Index) : (s.setIndex k x).channelMib = s.channelMib := rfl
@[simp] theorem State.setIndex_granary (k : Nat) (x : Index) : (s.setIndex k x).granary = s.granary := rfl
@[simp] theorem State.setIndex_ownership (k : Nat) (x : Index) : (s.setIndex k x).ownership = s.ownership := rfl
@[simp] theorem State.setIndex_badChunks (k : Nat) (x : Index) : (s.setIndex k x).badChunks = s.badChunks := rfl
@[simp] theorem State.setIndex_modeA (k : Nat) (x : Index) : (s.setIndex k x).modeA = s.modeA := rfl
@[simp] theorem State.setIndex_modeD (k : Nat) (x : Index) : (s.setIndex k x).modeD = s.modeD := rfl
@[simp] theorem State.setIndex_served (k : Nat) (x : Index) : (s.setIndex k x).served = s.served := rfl
@[simp] theorem State.setIndex_handleQueues (k : Nat) (x : Index) : (s.setIndex k x).handleQueues = s.handleQueues := rfl
@[simp] theorem State.setIndex_crossings (k : Nat) (x : Index) : (s.setIndex k x).crossings = s.crossings := rfl
@[simp] theorem State.setIndex_coulters (k : Nat) (x : Index) : (s.setIndex k x).coulters = s.coulters := rfl
@[simp] theorem State.setIndex_units (k : Nat) (x : Index) : (s.setIndex k x).units = s.units := rfl
@[simp] theorem State.setIndex_ports (k : Nat) (x : Index) : (s.setIndex k x).ports = s.ports := rfl
@[simp] theorem State.setIndex_casc (k : Nat) (x : Index) : (s.setIndex k x).casc = s.casc := rfl
@[simp] theorem State.setIndex_trust (k : Nat) (x : Index) : (s.setIndex k x).trust = s.trust := rfl
@[simp] theorem State.setIndex_log (k : Nat) (x : Index) : (s.setIndex k x).log = s.log := rfl
@[simp] theorem State.setIndex_trace (k : Nat) (x : Index) : (s.setIndex k x).trace = s.trace := rfl
@[simp] theorem State.setIndex_counters (k : Nat) (x : Index) : (s.setIndex k x).counters = s.counters := rfl
@[simp] theorem State.setIndex_pert (k : Nat) (x : Index) : (s.setIndex k x).pert = s.pert := rfl
@[simp] theorem State.setIndex_glob (k : Nat) (x : Index) : (s.setIndex k x).glob = s.glob := rfl
@[simp] theorem State.setIndex_fns (k : Nat) (x : Index) : (s.setIndex k x).fns = s.fns := rfl
@[simp] theorem State.setIndex_time (k : Nat) (x : Index) : (s.setIndex k x).time = s.time := rfl
@[simp] theorem State.setIndex_board (k : Nat) (x : Index) : (s.setIndex k x).board = s.board := rfl

/-! ### setCore -/

@[simp] theorem State.setCore_pending (c : Nat) (x : Core) : (s.setCore c x).pending = s.pending := rfl
@[simp] theorem State.setCore_out (c : Nat) (x : Core) : (s.setCore c x).out = s.out := rfl
@[simp] theorem State.setCore_fresh (c : Nat) (x : Core) : (s.setCore c x).fresh = s.fresh := rfl
@[simp] theorem State.setCore_tbk (c : Nat) (x : Core) : (s.setCore c x).tbk = s.tbk := rfl
@[simp] theorem State.setCore_rings (c : Nat) (x : Core) : (s.setCore c x).rings = s.rings := rfl
@[simp] theorem State.setCore_skip (c : Nat) (x : Core) : (s.setCore c x).skip = s.skip := rfl
@[simp] theorem State.setCore_lastServed (c : Nat) (x : Core) : (s.setCore c x).lastServed = s.lastServed := rfl
@[simp] theorem State.setCore_cmds (c : Nat) (x : Core) : (s.setCore c x).cmds = s.cmds := rfl
@[simp] theorem State.setCore_fields (c : Nat) (x : Core) : (s.setCore c x).fields = s.fields := rfl
@[simp] theorem State.setCore_indexes (c : Nat) (x : Core) : (s.setCore c x).indexes = s.indexes := rfl
@[simp] theorem State.setCore_compactQueue (c : Nat) (x : Core) : (s.setCore c x).compactQueue = s.compactQueue := rfl
@[simp] theorem State.setCore_evaporators (c : Nat) (x : Core) : (s.setCore c x).evaporators = s.evaporators := rfl
@[simp] theorem State.setCore_queries (c : Nat) (x : Core) : (s.setCore c x).queries = s.queries := rfl
@[simp] theorem State.setCore_windows (c : Nat) (x : Core) : (s.setCore c x).windows = s.windows := rfl
@[simp] theorem State.setCore_nextWindow (c : Nat) (x : Core) : (s.setCore c x).nextWindow = s.nextWindow := rfl
@[simp] theorem State.setCore_order (c : Nat) (x : Core) : (s.setCore c x).order = s.order := rfl
@[simp] theorem State.setCore_ledger (c : Nat) (x : Core) : (s.setCore c x).ledger = s.ledger := rfl
@[simp] theorem State.setCore_cores (c : Nat) (x : Core) : (s.setCore c x).cores = FMap.set s.cores c x := rfl
@[simp] theorem State.setCore_messages (c : Nat) (x : Core) : (s.setCore c x).messages = s.messages := rfl
@[simp] theorem State.setCore_runs (c : Nat) (x : Core) : (s.setCore c x).runs = s.runs := rfl
@[simp] theorem State.setCore_nextRun (c : Nat) (x : Core) : (s.setCore c x).nextRun = s.nextRun := rfl
@[simp] theorem State.setCore_streams (c : Nat) (x : Core) : (s.setCore c x).streams = s.streams := rfl
@[simp] theorem State.setCore_nextStream (c : Nat) (x : Core) : (s.setCore c x).nextStream = s.nextStream := rfl
@[simp] theorem State.setCore_channels (c : Nat) (x : Core) : (s.setCore c x).channels = s.channels := rfl
@[simp] theorem State.setCore_memRate (c : Nat) (x : Core) : (s.setCore c x).memRate = s.memRate := rfl
@[simp] theorem State.setCore_channelMib (c : Nat) (x : Core) : (s.setCore c x).channelMib = s.channelMib := rfl
@[simp] theorem State.setCore_granary (c : Nat) (x : Core) : (s.setCore c x).granary = s.granary := rfl
@[simp] theorem State.setCore_ownership (c : Nat) (x : Core) : (s.setCore c x).ownership = s.ownership := rfl
@[simp] theorem State.setCore_badChunks (c : Nat) (x : Core) : (s.setCore c x).badChunks = s.badChunks := rfl
@[simp] theorem State.setCore_modeA (c : Nat) (x : Core) : (s.setCore c x).modeA = s.modeA := rfl
@[simp] theorem State.setCore_modeD (c : Nat) (x : Core) : (s.setCore c x).modeD = s.modeD := rfl
@[simp] theorem State.setCore_served (c : Nat) (x : Core) : (s.setCore c x).served = s.served := rfl
@[simp] theorem State.setCore_handleQueues (c : Nat) (x : Core) : (s.setCore c x).handleQueues = s.handleQueues := rfl
@[simp] theorem State.setCore_crossings (c : Nat) (x : Core) : (s.setCore c x).crossings = s.crossings := rfl
@[simp] theorem State.setCore_coulters (c : Nat) (x : Core) : (s.setCore c x).coulters = s.coulters := rfl
@[simp] theorem State.setCore_units (c : Nat) (x : Core) : (s.setCore c x).units = s.units := rfl
@[simp] theorem State.setCore_ports (c : Nat) (x : Core) : (s.setCore c x).ports = s.ports := rfl
@[simp] theorem State.setCore_casc (c : Nat) (x : Core) : (s.setCore c x).casc = s.casc := rfl
@[simp] theorem State.setCore_trust (c : Nat) (x : Core) : (s.setCore c x).trust = s.trust := rfl
@[simp] theorem State.setCore_log (c : Nat) (x : Core) : (s.setCore c x).log = s.log := rfl
@[simp] theorem State.setCore_trace (c : Nat) (x : Core) : (s.setCore c x).trace = s.trace := rfl
@[simp] theorem State.setCore_counters (c : Nat) (x : Core) : (s.setCore c x).counters = s.counters := rfl
@[simp] theorem State.setCore_pert (c : Nat) (x : Core) : (s.setCore c x).pert = s.pert := rfl
@[simp] theorem State.setCore_glob (c : Nat) (x : Core) : (s.setCore c x).glob = s.glob := rfl
@[simp] theorem State.setCore_fns (c : Nat) (x : Core) : (s.setCore c x).fns = s.fns := rfl
@[simp] theorem State.setCore_time (c : Nat) (x : Core) : (s.setCore c x).time = s.time := rfl
@[simp] theorem State.setCore_board (c : Nat) (x : Core) : (s.setCore c x).board = s.board := rfl

/-! ### setThread -/

@[simp] theorem State.setThread_pending (c t : Nat) (x : Thread) : (s.setThread c t x).pending = s.pending := rfl
@[simp] theorem State.setThread_out (c t : Nat) (x : Thread) : (s.setThread c t x).out = s.out := rfl
@[simp] theorem State.setThread_fresh (c t : Nat) (x : Thread) : (s.setThread c t x).fresh = s.fresh := rfl
@[simp] theorem State.setThread_tbk (c t : Nat) (x : Thread) : (s.setThread c t x).tbk = s.tbk := rfl
@[simp] theorem State.setThread_rings (c t : Nat) (x : Thread) : (s.setThread c t x).rings = s.rings := rfl
@[simp] theorem State.setThread_skip (c t : Nat) (x : Thread) : (s.setThread c t x).skip = s.skip := rfl
@[simp] theorem State.setThread_lastServed (c t : Nat) (x : Thread) :
    (s.setThread c t x).lastServed = s.lastServed := rfl
@[simp] theorem State.setThread_cmds (c t : Nat) (x : Thread) : (s.setThread c t x).cmds = s.cmds := rfl
@[simp] theorem State.setThread_fields (c t : Nat) (x : Thread) : (s.setThread c t x).fields = s.fields := rfl
@[simp] theorem State.setThread_indexes (c t : Nat) (x : Thread) : (s.setThread c t x).indexes = s.indexes := rfl
@[simp] theorem State.setThread_compactQueue (c t : Nat) (x : Thread) :
    (s.setThread c t x).compactQueue = s.compactQueue := rfl
@[simp] theorem State.setThread_evaporators (c t : Nat) (x : Thread) :
    (s.setThread c t x).evaporators = s.evaporators := rfl
@[simp] theorem State.setThread_queries (c t : Nat) (x : Thread) : (s.setThread c t x).queries = s.queries := rfl
@[simp] theorem State.setThread_windows (c t : Nat) (x : Thread) : (s.setThread c t x).windows = s.windows := rfl
@[simp] theorem State.setThread_nextWindow (c t : Nat) (x : Thread) :
    (s.setThread c t x).nextWindow = s.nextWindow := rfl
@[simp] theorem State.setThread_order (c t : Nat) (x : Thread) : (s.setThread c t x).order = s.order := rfl
@[simp] theorem State.setThread_ledger (c t : Nat) (x : Thread) : (s.setThread c t x).ledger = s.ledger := rfl
@[simp] theorem State.setThread_cores (c t : Nat) (x : Thread) :
    (s.setThread c t x).cores = FMap.set s.cores c ((s.core c).setThread t x) := rfl
@[simp] theorem State.setThread_messages (c t : Nat) (x : Thread) : (s.setThread c t x).messages = s.messages := rfl
@[simp] theorem State.setThread_runs (c t : Nat) (x : Thread) : (s.setThread c t x).runs = s.runs := rfl
@[simp] theorem State.setThread_nextRun (c t : Nat) (x : Thread) : (s.setThread c t x).nextRun = s.nextRun := rfl
@[simp] theorem State.setThread_streams (c t : Nat) (x : Thread) : (s.setThread c t x).streams = s.streams := rfl
@[simp] theorem State.setThread_nextStream (c t : Nat) (x : Thread) :
    (s.setThread c t x).nextStream = s.nextStream := rfl
@[simp] theorem State.setThread_channels (c t : Nat) (x : Thread) : (s.setThread c t x).channels = s.channels := rfl
@[simp] theorem State.setThread_memRate (c t : Nat) (x : Thread) : (s.setThread c t x).memRate = s.memRate := rfl
@[simp] theorem State.setThread_channelMib (c t : Nat) (x : Thread) :
    (s.setThread c t x).channelMib = s.channelMib := rfl
@[simp] theorem State.setThread_granary (c t : Nat) (x : Thread) : (s.setThread c t x).granary = s.granary := rfl
@[simp] theorem State.setThread_ownership (c t : Nat) (x : Thread) : (s.setThread c t x).ownership = s.ownership := rfl
@[simp] theorem State.setThread_badChunks (c t : Nat) (x : Thread) : (s.setThread c t x).badChunks = s.badChunks := rfl
@[simp] theorem State.setThread_modeA (c t : Nat) (x : Thread) : (s.setThread c t x).modeA = s.modeA := rfl
@[simp] theorem State.setThread_modeD (c t : Nat) (x : Thread) : (s.setThread c t x).modeD = s.modeD := rfl
@[simp] theorem State.setThread_served (c t : Nat) (x : Thread) : (s.setThread c t x).served = s.served := rfl
@[simp] theorem State.setThread_handleQueues (c t : Nat) (x : Thread) : (s.setThread c t x).handleQueues = s.handleQueues := rfl
@[simp] theorem State.setThread_crossings (c t : Nat) (x : Thread) : (s.setThread c t x).crossings = s.crossings := rfl
@[simp] theorem State.setThread_coulters (c t : Nat) (x : Thread) : (s.setThread c t x).coulters = s.coulters := rfl
@[simp] theorem State.setThread_units (c t : Nat) (x : Thread) : (s.setThread c t x).units = s.units := rfl
@[simp] theorem State.setThread_ports (c t : Nat) (x : Thread) : (s.setThread c t x).ports = s.ports := rfl
@[simp] theorem State.setThread_casc (c t : Nat) (x : Thread) : (s.setThread c t x).casc = s.casc := rfl
@[simp] theorem State.setThread_trust (c t : Nat) (x : Thread) : (s.setThread c t x).trust = s.trust := rfl
@[simp] theorem State.setThread_log (c t : Nat) (x : Thread) : (s.setThread c t x).log = s.log := rfl
@[simp] theorem State.setThread_trace (c t : Nat) (x : Thread) : (s.setThread c t x).trace = s.trace := rfl
@[simp] theorem State.setThread_counters (c t : Nat) (x : Thread) : (s.setThread c t x).counters = s.counters := rfl
@[simp] theorem State.setThread_pert (c t : Nat) (x : Thread) : (s.setThread c t x).pert = s.pert := rfl
@[simp] theorem State.setThread_glob (c t : Nat) (x : Thread) : (s.setThread c t x).glob = s.glob := rfl
@[simp] theorem State.setThread_fns (c t : Nat) (x : Thread) : (s.setThread c t x).fns = s.fns := rfl
@[simp] theorem State.setThread_time (c t : Nat) (x : Thread) : (s.setThread c t x).time = s.time := rfl
@[simp] theorem State.setThread_board (c t : Nat) (x : Thread) : (s.setThread c t x).board = s.board := rfl

/-! ### setChannel -/

@[simp] theorem State.setChannel_pending (c : Nat) (x : Channel) : (s.setChannel c x).pending = s.pending := rfl
@[simp] theorem State.setChannel_out (c : Nat) (x : Channel) : (s.setChannel c x).out = s.out := rfl
@[simp] theorem State.setChannel_fresh (c : Nat) (x : Channel) : (s.setChannel c x).fresh = s.fresh := rfl
@[simp] theorem State.setChannel_tbk (c : Nat) (x : Channel) : (s.setChannel c x).tbk = s.tbk := rfl
@[simp] theorem State.setChannel_rings (c : Nat) (x : Channel) : (s.setChannel c x).rings = s.rings := rfl
@[simp] theorem State.setChannel_skip (c : Nat) (x : Channel) : (s.setChannel c x).skip = s.skip := rfl
@[simp] theorem State.setChannel_lastServed (c : Nat) (x : Channel) :
    (s.setChannel c x).lastServed = s.lastServed := rfl
@[simp] theorem State.setChannel_cmds (c : Nat) (x : Channel) : (s.setChannel c x).cmds = s.cmds := rfl
@[simp] theorem State.setChannel_fields (c : Nat) (x : Channel) : (s.setChannel c x).fields = s.fields := rfl
@[simp] theorem State.setChannel_indexes (c : Nat) (x : Channel) : (s.setChannel c x).indexes = s.indexes := rfl
@[simp] theorem State.setChannel_compactQueue (c : Nat) (x : Channel) :
    (s.setChannel c x).compactQueue = s.compactQueue := rfl
@[simp] theorem State.setChannel_evaporators (c : Nat) (x : Channel) :
    (s.setChannel c x).evaporators = s.evaporators := rfl
@[simp] theorem State.setChannel_queries (c : Nat) (x : Channel) : (s.setChannel c x).queries = s.queries := rfl
@[simp] theorem State.setChannel_windows (c : Nat) (x : Channel) : (s.setChannel c x).windows = s.windows := rfl
@[simp] theorem State.setChannel_nextWindow (c : Nat) (x : Channel) :
    (s.setChannel c x).nextWindow = s.nextWindow := rfl
@[simp] theorem State.setChannel_order (c : Nat) (x : Channel) : (s.setChannel c x).order = s.order := rfl
@[simp] theorem State.setChannel_ledger (c : Nat) (x : Channel) : (s.setChannel c x).ledger = s.ledger := rfl
@[simp] theorem State.setChannel_cores (c : Nat) (x : Channel) : (s.setChannel c x).cores = s.cores := rfl
@[simp] theorem State.setChannel_messages (c : Nat) (x : Channel) : (s.setChannel c x).messages = s.messages := rfl
@[simp] theorem State.setChannel_runs (c : Nat) (x : Channel) : (s.setChannel c x).runs = s.runs := rfl
@[simp] theorem State.setChannel_nextRun (c : Nat) (x : Channel) : (s.setChannel c x).nextRun = s.nextRun := rfl
@[simp] theorem State.setChannel_streams (c : Nat) (x : Channel) : (s.setChannel c x).streams = s.streams := rfl
@[simp] theorem State.setChannel_nextStream (c : Nat) (x : Channel) :
    (s.setChannel c x).nextStream = s.nextStream := rfl
@[simp] theorem State.setChannel_channels (c : Nat) (x : Channel) :
    (s.setChannel c x).channels = FMap.set s.channels c x := rfl
@[simp] theorem State.setChannel_memRate (c : Nat) (x : Channel) : (s.setChannel c x).memRate = s.memRate := rfl
@[simp] theorem State.setChannel_channelMib (c : Nat) (x : Channel) :
    (s.setChannel c x).channelMib = s.channelMib := rfl
@[simp] theorem State.setChannel_granary (c : Nat) (x : Channel) : (s.setChannel c x).granary = s.granary := rfl
@[simp] theorem State.setChannel_ownership (c : Nat) (x : Channel) : (s.setChannel c x).ownership = s.ownership := rfl
@[simp] theorem State.setChannel_badChunks (c : Nat) (x : Channel) : (s.setChannel c x).badChunks = s.badChunks := rfl
@[simp] theorem State.setChannel_modeA (c : Nat) (x : Channel) : (s.setChannel c x).modeA = s.modeA := rfl
@[simp] theorem State.setChannel_modeD (c : Nat) (x : Channel) : (s.setChannel c x).modeD = s.modeD := rfl
@[simp] theorem State.setChannel_served (c : Nat) (x : Channel) : (s.setChannel c x).served = s.served := rfl
@[simp] theorem State.setChannel_handleQueues (c : Nat) (x : Channel) : (s.setChannel c x).handleQueues = s.handleQueues := rfl
@[simp] theorem State.setChannel_crossings (c : Nat) (x : Channel) : (s.setChannel c x).crossings = s.crossings := rfl
@[simp] theorem State.setChannel_coulters (c : Nat) (x : Channel) : (s.setChannel c x).coulters = s.coulters := rfl
@[simp] theorem State.setChannel_units (c : Nat) (x : Channel) : (s.setChannel c x).units = s.units := rfl
@[simp] theorem State.setChannel_ports (c : Nat) (x : Channel) : (s.setChannel c x).ports = s.ports := rfl
@[simp] theorem State.setChannel_casc (c : Nat) (x : Channel) : (s.setChannel c x).casc = s.casc := rfl
@[simp] theorem State.setChannel_trust (c : Nat) (x : Channel) : (s.setChannel c x).trust = s.trust := rfl
@[simp] theorem State.setChannel_log (c : Nat) (x : Channel) : (s.setChannel c x).log = s.log := rfl
@[simp] theorem State.setChannel_trace (c : Nat) (x : Channel) : (s.setChannel c x).trace = s.trace := rfl
@[simp] theorem State.setChannel_counters (c : Nat) (x : Channel) : (s.setChannel c x).counters = s.counters := rfl
@[simp] theorem State.setChannel_pert (c : Nat) (x : Channel) : (s.setChannel c x).pert = s.pert := rfl
@[simp] theorem State.setChannel_glob (c : Nat) (x : Channel) : (s.setChannel c x).glob = s.glob := rfl
@[simp] theorem State.setChannel_fns (c : Nat) (x : Channel) : (s.setChannel c x).fns = s.fns := rfl
@[simp] theorem State.setChannel_time (c : Nat) (x : Channel) : (s.setChannel c x).time = s.time := rfl
@[simp] theorem State.setChannel_board (c : Nat) (x : Channel) : (s.setChannel c x).board = s.board := rfl

/-! ### setPort -/

@[simp] theorem State.setPort_pending (p : Nat) (x : Port) : (s.setPort p x).pending = s.pending := rfl
@[simp] theorem State.setPort_out (p : Nat) (x : Port) : (s.setPort p x).out = s.out := rfl
@[simp] theorem State.setPort_fresh (p : Nat) (x : Port) : (s.setPort p x).fresh = s.fresh := rfl
@[simp] theorem State.setPort_tbk (p : Nat) (x : Port) : (s.setPort p x).tbk = s.tbk := rfl
@[simp] theorem State.setPort_rings (p : Nat) (x : Port) : (s.setPort p x).rings = s.rings := rfl
@[simp] theorem State.setPort_skip (p : Nat) (x : Port) : (s.setPort p x).skip = s.skip := rfl
@[simp] theorem State.setPort_lastServed (p : Nat) (x : Port) : (s.setPort p x).lastServed = s.lastServed := rfl
@[simp] theorem State.setPort_cmds (p : Nat) (x : Port) : (s.setPort p x).cmds = s.cmds := rfl
@[simp] theorem State.setPort_fields (p : Nat) (x : Port) : (s.setPort p x).fields = s.fields := rfl
@[simp] theorem State.setPort_indexes (p : Nat) (x : Port) : (s.setPort p x).indexes = s.indexes := rfl
@[simp] theorem State.setPort_compactQueue (p : Nat) (x : Port) : (s.setPort p x).compactQueue = s.compactQueue := rfl
@[simp] theorem State.setPort_evaporators (p : Nat) (x : Port) : (s.setPort p x).evaporators = s.evaporators := rfl
@[simp] theorem State.setPort_queries (p : Nat) (x : Port) : (s.setPort p x).queries = s.queries := rfl
@[simp] theorem State.setPort_windows (p : Nat) (x : Port) : (s.setPort p x).windows = s.windows := rfl
@[simp] theorem State.setPort_nextWindow (p : Nat) (x : Port) : (s.setPort p x).nextWindow = s.nextWindow := rfl
@[simp] theorem State.setPort_order (p : Nat) (x : Port) : (s.setPort p x).order = s.order := rfl
@[simp] theorem State.setPort_ledger (p : Nat) (x : Port) : (s.setPort p x).ledger = s.ledger := rfl
@[simp] theorem State.setPort_cores (p : Nat) (x : Port) : (s.setPort p x).cores = s.cores := rfl
@[simp] theorem State.setPort_messages (p : Nat) (x : Port) : (s.setPort p x).messages = s.messages := rfl
@[simp] theorem State.setPort_runs (p : Nat) (x : Port) : (s.setPort p x).runs = s.runs := rfl
@[simp] theorem State.setPort_nextRun (p : Nat) (x : Port) : (s.setPort p x).nextRun = s.nextRun := rfl
@[simp] theorem State.setPort_streams (p : Nat) (x : Port) : (s.setPort p x).streams = s.streams := rfl
@[simp] theorem State.setPort_nextStream (p : Nat) (x : Port) : (s.setPort p x).nextStream = s.nextStream := rfl
@[simp] theorem State.setPort_channels (p : Nat) (x : Port) : (s.setPort p x).channels = s.channels := rfl
@[simp] theorem State.setPort_memRate (p : Nat) (x : Port) : (s.setPort p x).memRate = s.memRate := rfl
@[simp] theorem State.setPort_channelMib (p : Nat) (x : Port) : (s.setPort p x).channelMib = s.channelMib := rfl
@[simp] theorem State.setPort_granary (p : Nat) (x : Port) : (s.setPort p x).granary = s.granary := rfl
@[simp] theorem State.setPort_ownership (p : Nat) (x : Port) : (s.setPort p x).ownership = s.ownership := rfl
@[simp] theorem State.setPort_badChunks (p : Nat) (x : Port) : (s.setPort p x).badChunks = s.badChunks := rfl
@[simp] theorem State.setPort_modeA (p : Nat) (x : Port) : (s.setPort p x).modeA = s.modeA := rfl
@[simp] theorem State.setPort_modeD (p : Nat) (x : Port) : (s.setPort p x).modeD = s.modeD := rfl
@[simp] theorem State.setPort_served (p : Nat) (x : Port) : (s.setPort p x).served = s.served := rfl
@[simp] theorem State.setPort_handleQueues (p : Nat) (x : Port) : (s.setPort p x).handleQueues = s.handleQueues := rfl
@[simp] theorem State.setPort_crossings (p : Nat) (x : Port) : (s.setPort p x).crossings = s.crossings := rfl
@[simp] theorem State.setPort_coulters (p : Nat) (x : Port) : (s.setPort p x).coulters = s.coulters := rfl
@[simp] theorem State.setPort_units (p : Nat) (x : Port) : (s.setPort p x).units = s.units := rfl
@[simp] theorem State.setPort_ports (p : Nat) (x : Port) : (s.setPort p x).ports = FMap.set s.ports p x := rfl
@[simp] theorem State.setPort_casc (p : Nat) (x : Port) : (s.setPort p x).casc = s.casc := rfl
@[simp] theorem State.setPort_trust (p : Nat) (x : Port) : (s.setPort p x).trust = s.trust := rfl
@[simp] theorem State.setPort_log (p : Nat) (x : Port) : (s.setPort p x).log = s.log := rfl
@[simp] theorem State.setPort_trace (p : Nat) (x : Port) : (s.setPort p x).trace = s.trace := rfl
@[simp] theorem State.setPort_counters (p : Nat) (x : Port) : (s.setPort p x).counters = s.counters := rfl
@[simp] theorem State.setPort_pert (p : Nat) (x : Port) : (s.setPort p x).pert = s.pert := rfl
@[simp] theorem State.setPort_glob (p : Nat) (x : Port) : (s.setPort p x).glob = s.glob := rfl
@[simp] theorem State.setPort_fns (p : Nat) (x : Port) : (s.setPort p x).fns = s.fns := rfl
@[simp] theorem State.setPort_time (p : Nat) (x : Port) : (s.setPort p x).time = s.time := rfl
@[simp] theorem State.setPort_board (p : Nat) (x : Port) : (s.setPort p x).board = s.board := rfl

/-! ### setFn -/

@[simp] theorem State.setFn_pending (n : Nat) (x : FnRegs) : (s.setFn n x).pending = s.pending := rfl
@[simp] theorem State.setFn_out (n : Nat) (x : FnRegs) : (s.setFn n x).out = s.out := rfl
@[simp] theorem State.setFn_fresh (n : Nat) (x : FnRegs) : (s.setFn n x).fresh = s.fresh := rfl
@[simp] theorem State.setFn_tbk (n : Nat) (x : FnRegs) : (s.setFn n x).tbk = s.tbk := rfl
@[simp] theorem State.setFn_rings (n : Nat) (x : FnRegs) : (s.setFn n x).rings = s.rings := rfl
@[simp] theorem State.setFn_skip (n : Nat) (x : FnRegs) : (s.setFn n x).skip = s.skip := rfl
@[simp] theorem State.setFn_lastServed (n : Nat) (x : FnRegs) : (s.setFn n x).lastServed = s.lastServed := rfl
@[simp] theorem State.setFn_cmds (n : Nat) (x : FnRegs) : (s.setFn n x).cmds = s.cmds := rfl
@[simp] theorem State.setFn_fields (n : Nat) (x : FnRegs) : (s.setFn n x).fields = s.fields := rfl
@[simp] theorem State.setFn_indexes (n : Nat) (x : FnRegs) : (s.setFn n x).indexes = s.indexes := rfl
@[simp] theorem State.setFn_compactQueue (n : Nat) (x : FnRegs) : (s.setFn n x).compactQueue = s.compactQueue := rfl
@[simp] theorem State.setFn_evaporators (n : Nat) (x : FnRegs) : (s.setFn n x).evaporators = s.evaporators := rfl
@[simp] theorem State.setFn_queries (n : Nat) (x : FnRegs) : (s.setFn n x).queries = s.queries := rfl
@[simp] theorem State.setFn_windows (n : Nat) (x : FnRegs) : (s.setFn n x).windows = s.windows := rfl
@[simp] theorem State.setFn_nextWindow (n : Nat) (x : FnRegs) : (s.setFn n x).nextWindow = s.nextWindow := rfl
@[simp] theorem State.setFn_order (n : Nat) (x : FnRegs) : (s.setFn n x).order = s.order := rfl
@[simp] theorem State.setFn_ledger (n : Nat) (x : FnRegs) : (s.setFn n x).ledger = s.ledger := rfl
@[simp] theorem State.setFn_cores (n : Nat) (x : FnRegs) : (s.setFn n x).cores = s.cores := rfl
@[simp] theorem State.setFn_messages (n : Nat) (x : FnRegs) : (s.setFn n x).messages = s.messages := rfl
@[simp] theorem State.setFn_runs (n : Nat) (x : FnRegs) : (s.setFn n x).runs = s.runs := rfl
@[simp] theorem State.setFn_nextRun (n : Nat) (x : FnRegs) : (s.setFn n x).nextRun = s.nextRun := rfl
@[simp] theorem State.setFn_streams (n : Nat) (x : FnRegs) : (s.setFn n x).streams = s.streams := rfl
@[simp] theorem State.setFn_nextStream (n : Nat) (x : FnRegs) : (s.setFn n x).nextStream = s.nextStream := rfl
@[simp] theorem State.setFn_channels (n : Nat) (x : FnRegs) : (s.setFn n x).channels = s.channels := rfl
@[simp] theorem State.setFn_memRate (n : Nat) (x : FnRegs) : (s.setFn n x).memRate = s.memRate := rfl
@[simp] theorem State.setFn_channelMib (n : Nat) (x : FnRegs) : (s.setFn n x).channelMib = s.channelMib := rfl
@[simp] theorem State.setFn_granary (n : Nat) (x : FnRegs) : (s.setFn n x).granary = s.granary := rfl
@[simp] theorem State.setFn_ownership (n : Nat) (x : FnRegs) : (s.setFn n x).ownership = s.ownership := rfl
@[simp] theorem State.setFn_badChunks (n : Nat) (x : FnRegs) : (s.setFn n x).badChunks = s.badChunks := rfl
@[simp] theorem State.setFn_modeA (n : Nat) (x : FnRegs) : (s.setFn n x).modeA = s.modeA := rfl
@[simp] theorem State.setFn_modeD (n : Nat) (x : FnRegs) : (s.setFn n x).modeD = s.modeD := rfl
@[simp] theorem State.setFn_served (n : Nat) (x : FnRegs) : (s.setFn n x).served = s.served := rfl
@[simp] theorem State.setFn_handleQueues (n : Nat) (x : FnRegs) : (s.setFn n x).handleQueues = s.handleQueues := rfl
@[simp] theorem State.setFn_crossings (n : Nat) (x : FnRegs) : (s.setFn n x).crossings = s.crossings := rfl
@[simp] theorem State.setFn_coulters (n : Nat) (x : FnRegs) : (s.setFn n x).coulters = s.coulters := rfl
@[simp] theorem State.setFn_units (n : Nat) (x : FnRegs) : (s.setFn n x).units = s.units := rfl
@[simp] theorem State.setFn_ports (n : Nat) (x : FnRegs) : (s.setFn n x).ports = s.ports := rfl
@[simp] theorem State.setFn_casc (n : Nat) (x : FnRegs) : (s.setFn n x).casc = s.casc := rfl
@[simp] theorem State.setFn_trust (n : Nat) (x : FnRegs) : (s.setFn n x).trust = s.trust := rfl
@[simp] theorem State.setFn_log (n : Nat) (x : FnRegs) : (s.setFn n x).log = s.log := rfl
@[simp] theorem State.setFn_trace (n : Nat) (x : FnRegs) : (s.setFn n x).trace = s.trace := rfl
@[simp] theorem State.setFn_counters (n : Nat) (x : FnRegs) : (s.setFn n x).counters = s.counters := rfl
@[simp] theorem State.setFn_pert (n : Nat) (x : FnRegs) : (s.setFn n x).pert = s.pert := rfl
@[simp] theorem State.setFn_glob (n : Nat) (x : FnRegs) : (s.setFn n x).glob = s.glob := rfl
@[simp] theorem State.setFn_fns (n : Nat) (x : FnRegs) : (s.setFn n x).fns = FMap.set s.fns n x := rfl
@[simp] theorem State.setFn_time (n : Nat) (x : FnRegs) : (s.setFn n x).time = s.time := rfl
@[simp] theorem State.setFn_board (n : Nat) (x : FnRegs) : (s.setFn n x).board = s.board := rfl

/-! ### setStream -/

@[simp] theorem State.setStream_pending (n : Nat) (x : Stream) : (s.setStream n x).pending = s.pending := rfl
@[simp] theorem State.setStream_out (n : Nat) (x : Stream) : (s.setStream n x).out = s.out := rfl
@[simp] theorem State.setStream_fresh (n : Nat) (x : Stream) : (s.setStream n x).fresh = s.fresh := rfl
@[simp] theorem State.setStream_tbk (n : Nat) (x : Stream) : (s.setStream n x).tbk = s.tbk := rfl
@[simp] theorem State.setStream_rings (n : Nat) (x : Stream) : (s.setStream n x).rings = s.rings := rfl
@[simp] theorem State.setStream_skip (n : Nat) (x : Stream) : (s.setStream n x).skip = s.skip := rfl
@[simp] theorem State.setStream_lastServed (n : Nat) (x : Stream) : (s.setStream n x).lastServed = s.lastServed := rfl
@[simp] theorem State.setStream_cmds (n : Nat) (x : Stream) : (s.setStream n x).cmds = s.cmds := rfl
@[simp] theorem State.setStream_fields (n : Nat) (x : Stream) : (s.setStream n x).fields = s.fields := rfl
@[simp] theorem State.setStream_indexes (n : Nat) (x : Stream) : (s.setStream n x).indexes = s.indexes := rfl
@[simp] theorem State.setStream_compactQueue (n : Nat) (x : Stream) :
    (s.setStream n x).compactQueue = s.compactQueue := rfl
@[simp] theorem State.setStream_evaporators (n : Nat) (x : Stream) :
    (s.setStream n x).evaporators = s.evaporators := rfl
@[simp] theorem State.setStream_queries (n : Nat) (x : Stream) : (s.setStream n x).queries = s.queries := rfl
@[simp] theorem State.setStream_windows (n : Nat) (x : Stream) : (s.setStream n x).windows = s.windows := rfl
@[simp] theorem State.setStream_nextWindow (n : Nat) (x : Stream) : (s.setStream n x).nextWindow = s.nextWindow := rfl
@[simp] theorem State.setStream_order (n : Nat) (x : Stream) : (s.setStream n x).order = s.order := rfl
@[simp] theorem State.setStream_ledger (n : Nat) (x : Stream) : (s.setStream n x).ledger = s.ledger := rfl
@[simp] theorem State.setStream_cores (n : Nat) (x : Stream) : (s.setStream n x).cores = s.cores := rfl
@[simp] theorem State.setStream_messages (n : Nat) (x : Stream) : (s.setStream n x).messages = s.messages := rfl
@[simp] theorem State.setStream_runs (n : Nat) (x : Stream) : (s.setStream n x).runs = s.runs := rfl
@[simp] theorem State.setStream_nextRun (n : Nat) (x : Stream) : (s.setStream n x).nextRun = s.nextRun := rfl
@[simp] theorem State.setStream_streams (n : Nat) (x : Stream) :
    (s.setStream n x).streams = FMap.set s.streams n x := rfl
@[simp] theorem State.setStream_nextStream (n : Nat) (x : Stream) : (s.setStream n x).nextStream = s.nextStream := rfl
@[simp] theorem State.setStream_channels (n : Nat) (x : Stream) : (s.setStream n x).channels = s.channels := rfl
@[simp] theorem State.setStream_memRate (n : Nat) (x : Stream) : (s.setStream n x).memRate = s.memRate := rfl
@[simp] theorem State.setStream_channelMib (n : Nat) (x : Stream) : (s.setStream n x).channelMib = s.channelMib := rfl
@[simp] theorem State.setStream_granary (n : Nat) (x : Stream) : (s.setStream n x).granary = s.granary := rfl
@[simp] theorem State.setStream_ownership (n : Nat) (x : Stream) : (s.setStream n x).ownership = s.ownership := rfl
@[simp] theorem State.setStream_badChunks (n : Nat) (x : Stream) : (s.setStream n x).badChunks = s.badChunks := rfl
@[simp] theorem State.setStream_modeA (n : Nat) (x : Stream) : (s.setStream n x).modeA = s.modeA := rfl
@[simp] theorem State.setStream_modeD (n : Nat) (x : Stream) : (s.setStream n x).modeD = s.modeD := rfl
@[simp] theorem State.setStream_served (n : Nat) (x : Stream) : (s.setStream n x).served = s.served := rfl
@[simp] theorem State.setStream_handleQueues (n : Nat) (x : Stream) : (s.setStream n x).handleQueues = s.handleQueues := rfl
@[simp] theorem State.setStream_crossings (n : Nat) (x : Stream) : (s.setStream n x).crossings = s.crossings := rfl
@[simp] theorem State.setStream_coulters (n : Nat) (x : Stream) : (s.setStream n x).coulters = s.coulters := rfl
@[simp] theorem State.setStream_units (n : Nat) (x : Stream) : (s.setStream n x).units = s.units := rfl
@[simp] theorem State.setStream_ports (n : Nat) (x : Stream) : (s.setStream n x).ports = s.ports := rfl
@[simp] theorem State.setStream_casc (n : Nat) (x : Stream) : (s.setStream n x).casc = s.casc := rfl
@[simp] theorem State.setStream_trust (n : Nat) (x : Stream) : (s.setStream n x).trust = s.trust := rfl
@[simp] theorem State.setStream_log (n : Nat) (x : Stream) : (s.setStream n x).log = s.log := rfl
@[simp] theorem State.setStream_trace (n : Nat) (x : Stream) : (s.setStream n x).trace = s.trace := rfl
@[simp] theorem State.setStream_counters (n : Nat) (x : Stream) : (s.setStream n x).counters = s.counters := rfl
@[simp] theorem State.setStream_pert (n : Nat) (x : Stream) : (s.setStream n x).pert = s.pert := rfl
@[simp] theorem State.setStream_glob (n : Nat) (x : Stream) : (s.setStream n x).glob = s.glob := rfl
@[simp] theorem State.setStream_fns (n : Nat) (x : Stream) : (s.setStream n x).fns = s.fns := rfl
@[simp] theorem State.setStream_time (n : Nat) (x : Stream) : (s.setStream n x).time = s.time := rfl
@[simp] theorem State.setStream_board (n : Nat) (x : Stream) : (s.setStream n x).board = s.board := rfl

/-! ### setRun -/

@[simp] theorem State.setRun_pending (n : Nat) (x : Run) : (s.setRun n x).pending = s.pending := rfl
@[simp] theorem State.setRun_out (n : Nat) (x : Run) : (s.setRun n x).out = s.out := rfl
@[simp] theorem State.setRun_fresh (n : Nat) (x : Run) : (s.setRun n x).fresh = s.fresh := rfl
@[simp] theorem State.setRun_tbk (n : Nat) (x : Run) : (s.setRun n x).tbk = s.tbk := rfl
@[simp] theorem State.setRun_rings (n : Nat) (x : Run) : (s.setRun n x).rings = s.rings := rfl
@[simp] theorem State.setRun_skip (n : Nat) (x : Run) : (s.setRun n x).skip = s.skip := rfl
@[simp] theorem State.setRun_lastServed (n : Nat) (x : Run) : (s.setRun n x).lastServed = s.lastServed := rfl
@[simp] theorem State.setRun_cmds (n : Nat) (x : Run) : (s.setRun n x).cmds = s.cmds := rfl
@[simp] theorem State.setRun_fields (n : Nat) (x : Run) : (s.setRun n x).fields = s.fields := rfl
@[simp] theorem State.setRun_indexes (n : Nat) (x : Run) : (s.setRun n x).indexes = s.indexes := rfl
@[simp] theorem State.setRun_compactQueue (n : Nat) (x : Run) : (s.setRun n x).compactQueue = s.compactQueue := rfl
@[simp] theorem State.setRun_evaporators (n : Nat) (x : Run) : (s.setRun n x).evaporators = s.evaporators := rfl
@[simp] theorem State.setRun_queries (n : Nat) (x : Run) : (s.setRun n x).queries = s.queries := rfl
@[simp] theorem State.setRun_windows (n : Nat) (x : Run) : (s.setRun n x).windows = s.windows := rfl
@[simp] theorem State.setRun_nextWindow (n : Nat) (x : Run) : (s.setRun n x).nextWindow = s.nextWindow := rfl
@[simp] theorem State.setRun_order (n : Nat) (x : Run) : (s.setRun n x).order = s.order := rfl
@[simp] theorem State.setRun_ledger (n : Nat) (x : Run) : (s.setRun n x).ledger = s.ledger := rfl
@[simp] theorem State.setRun_cores (n : Nat) (x : Run) : (s.setRun n x).cores = s.cores := rfl
@[simp] theorem State.setRun_messages (n : Nat) (x : Run) : (s.setRun n x).messages = s.messages := rfl
@[simp] theorem State.setRun_runs (n : Nat) (x : Run) : (s.setRun n x).runs = FMap.set s.runs n x := rfl
@[simp] theorem State.setRun_nextRun (n : Nat) (x : Run) : (s.setRun n x).nextRun = s.nextRun := rfl
@[simp] theorem State.setRun_streams (n : Nat) (x : Run) : (s.setRun n x).streams = s.streams := rfl
@[simp] theorem State.setRun_nextStream (n : Nat) (x : Run) : (s.setRun n x).nextStream = s.nextStream := rfl
@[simp] theorem State.setRun_channels (n : Nat) (x : Run) : (s.setRun n x).channels = s.channels := rfl
@[simp] theorem State.setRun_memRate (n : Nat) (x : Run) : (s.setRun n x).memRate = s.memRate := rfl
@[simp] theorem State.setRun_channelMib (n : Nat) (x : Run) : (s.setRun n x).channelMib = s.channelMib := rfl
@[simp] theorem State.setRun_granary (n : Nat) (x : Run) : (s.setRun n x).granary = s.granary := rfl
@[simp] theorem State.setRun_ownership (n : Nat) (x : Run) : (s.setRun n x).ownership = s.ownership := rfl
@[simp] theorem State.setRun_badChunks (n : Nat) (x : Run) : (s.setRun n x).badChunks = s.badChunks := rfl
@[simp] theorem State.setRun_modeA (n : Nat) (x : Run) : (s.setRun n x).modeA = s.modeA := rfl
@[simp] theorem State.setRun_modeD (n : Nat) (x : Run) : (s.setRun n x).modeD = s.modeD := rfl
@[simp] theorem State.setRun_served (n : Nat) (x : Run) : (s.setRun n x).served = s.served := rfl
@[simp] theorem State.setRun_handleQueues (n : Nat) (x : Run) : (s.setRun n x).handleQueues = s.handleQueues := rfl
@[simp] theorem State.setRun_crossings (n : Nat) (x : Run) : (s.setRun n x).crossings = s.crossings := rfl
@[simp] theorem State.setRun_coulters (n : Nat) (x : Run) : (s.setRun n x).coulters = s.coulters := rfl
@[simp] theorem State.setRun_units (n : Nat) (x : Run) : (s.setRun n x).units = s.units := rfl
@[simp] theorem State.setRun_ports (n : Nat) (x : Run) : (s.setRun n x).ports = s.ports := rfl
@[simp] theorem State.setRun_casc (n : Nat) (x : Run) : (s.setRun n x).casc = s.casc := rfl
@[simp] theorem State.setRun_trust (n : Nat) (x : Run) : (s.setRun n x).trust = s.trust := rfl
@[simp] theorem State.setRun_log (n : Nat) (x : Run) : (s.setRun n x).log = s.log := rfl
@[simp] theorem State.setRun_trace (n : Nat) (x : Run) : (s.setRun n x).trace = s.trace := rfl
@[simp] theorem State.setRun_counters (n : Nat) (x : Run) : (s.setRun n x).counters = s.counters := rfl
@[simp] theorem State.setRun_pert (n : Nat) (x : Run) : (s.setRun n x).pert = s.pert := rfl
@[simp] theorem State.setRun_glob (n : Nat) (x : Run) : (s.setRun n x).glob = s.glob := rfl
@[simp] theorem State.setRun_fns (n : Nat) (x : Run) : (s.setRun n x).fns = s.fns := rfl
@[simp] theorem State.setRun_time (n : Nat) (x : Run) : (s.setRun n x).time = s.time := rfl
@[simp] theorem State.setRun_board (n : Nat) (x : Run) : (s.setRun n x).board = s.board := rfl

/-! ### setWindow -/

@[simp] theorem State.setWindow_pending (n : Nat) (x : Window) : (s.setWindow n x).pending = s.pending := rfl
@[simp] theorem State.setWindow_out (n : Nat) (x : Window) : (s.setWindow n x).out = s.out := rfl
@[simp] theorem State.setWindow_fresh (n : Nat) (x : Window) : (s.setWindow n x).fresh = s.fresh := rfl
@[simp] theorem State.setWindow_tbk (n : Nat) (x : Window) : (s.setWindow n x).tbk = s.tbk := rfl
@[simp] theorem State.setWindow_rings (n : Nat) (x : Window) : (s.setWindow n x).rings = s.rings := rfl
@[simp] theorem State.setWindow_skip (n : Nat) (x : Window) : (s.setWindow n x).skip = s.skip := rfl
@[simp] theorem State.setWindow_lastServed (n : Nat) (x : Window) : (s.setWindow n x).lastServed = s.lastServed := rfl
@[simp] theorem State.setWindow_cmds (n : Nat) (x : Window) : (s.setWindow n x).cmds = s.cmds := rfl
@[simp] theorem State.setWindow_fields (n : Nat) (x : Window) : (s.setWindow n x).fields = s.fields := rfl
@[simp] theorem State.setWindow_indexes (n : Nat) (x : Window) : (s.setWindow n x).indexes = s.indexes := rfl
@[simp] theorem State.setWindow_compactQueue (n : Nat) (x : Window) :
    (s.setWindow n x).compactQueue = s.compactQueue := rfl
@[simp] theorem State.setWindow_evaporators (n : Nat) (x : Window) :
    (s.setWindow n x).evaporators = s.evaporators := rfl
@[simp] theorem State.setWindow_queries (n : Nat) (x : Window) : (s.setWindow n x).queries = s.queries := rfl
@[simp] theorem State.setWindow_windows (n : Nat) (x : Window) :
    (s.setWindow n x).windows = FMap.set s.windows n x := rfl
@[simp] theorem State.setWindow_nextWindow (n : Nat) (x : Window) : (s.setWindow n x).nextWindow = s.nextWindow := rfl
@[simp] theorem State.setWindow_order (n : Nat) (x : Window) : (s.setWindow n x).order = s.order := rfl
@[simp] theorem State.setWindow_ledger (n : Nat) (x : Window) : (s.setWindow n x).ledger = s.ledger := rfl
@[simp] theorem State.setWindow_cores (n : Nat) (x : Window) : (s.setWindow n x).cores = s.cores := rfl
@[simp] theorem State.setWindow_messages (n : Nat) (x : Window) : (s.setWindow n x).messages = s.messages := rfl
@[simp] theorem State.setWindow_runs (n : Nat) (x : Window) : (s.setWindow n x).runs = s.runs := rfl
@[simp] theorem State.setWindow_nextRun (n : Nat) (x : Window) : (s.setWindow n x).nextRun = s.nextRun := rfl
@[simp] theorem State.setWindow_streams (n : Nat) (x : Window) : (s.setWindow n x).streams = s.streams := rfl
@[simp] theorem State.setWindow_nextStream (n : Nat) (x : Window) : (s.setWindow n x).nextStream = s.nextStream := rfl
@[simp] theorem State.setWindow_channels (n : Nat) (x : Window) : (s.setWindow n x).channels = s.channels := rfl
@[simp] theorem State.setWindow_memRate (n : Nat) (x : Window) : (s.setWindow n x).memRate = s.memRate := rfl
@[simp] theorem State.setWindow_channelMib (n : Nat) (x : Window) : (s.setWindow n x).channelMib = s.channelMib := rfl
@[simp] theorem State.setWindow_granary (n : Nat) (x : Window) : (s.setWindow n x).granary = s.granary := rfl
@[simp] theorem State.setWindow_ownership (n : Nat) (x : Window) : (s.setWindow n x).ownership = s.ownership := rfl
@[simp] theorem State.setWindow_badChunks (n : Nat) (x : Window) : (s.setWindow n x).badChunks = s.badChunks := rfl
@[simp] theorem State.setWindow_modeA (n : Nat) (x : Window) : (s.setWindow n x).modeA = s.modeA := rfl
@[simp] theorem State.setWindow_modeD (n : Nat) (x : Window) : (s.setWindow n x).modeD = s.modeD := rfl
@[simp] theorem State.setWindow_served (n : Nat) (x : Window) : (s.setWindow n x).served = s.served := rfl
@[simp] theorem State.setWindow_handleQueues (n : Nat) (x : Window) : (s.setWindow n x).handleQueues = s.handleQueues := rfl
@[simp] theorem State.setWindow_crossings (n : Nat) (x : Window) : (s.setWindow n x).crossings = s.crossings := rfl
@[simp] theorem State.setWindow_coulters (n : Nat) (x : Window) : (s.setWindow n x).coulters = s.coulters := rfl
@[simp] theorem State.setWindow_units (n : Nat) (x : Window) : (s.setWindow n x).units = s.units := rfl
@[simp] theorem State.setWindow_ports (n : Nat) (x : Window) : (s.setWindow n x).ports = s.ports := rfl
@[simp] theorem State.setWindow_casc (n : Nat) (x : Window) : (s.setWindow n x).casc = s.casc := rfl
@[simp] theorem State.setWindow_trust (n : Nat) (x : Window) : (s.setWindow n x).trust = s.trust := rfl
@[simp] theorem State.setWindow_log (n : Nat) (x : Window) : (s.setWindow n x).log = s.log := rfl
@[simp] theorem State.setWindow_trace (n : Nat) (x : Window) : (s.setWindow n x).trace = s.trace := rfl
@[simp] theorem State.setWindow_counters (n : Nat) (x : Window) : (s.setWindow n x).counters = s.counters := rfl
@[simp] theorem State.setWindow_pert (n : Nat) (x : Window) : (s.setWindow n x).pert = s.pert := rfl
@[simp] theorem State.setWindow_glob (n : Nat) (x : Window) : (s.setWindow n x).glob = s.glob := rfl
@[simp] theorem State.setWindow_fns (n : Nat) (x : Window) : (s.setWindow n x).fns = s.fns := rfl
@[simp] theorem State.setWindow_time (n : Nat) (x : Window) : (s.setWindow n x).time = s.time := rfl
@[simp] theorem State.setWindow_board (n : Nat) (x : Window) : (s.setWindow n x).board = s.board := rfl

/-! ### setUnit -/

@[simp] theorem State.setUnit_pending (t n : Nat) (u : UnitRec) : (s.setUnit t n u).pending = s.pending := rfl
@[simp] theorem State.setUnit_out (t n : Nat) (u : UnitRec) : (s.setUnit t n u).out = s.out := rfl
@[simp] theorem State.setUnit_fresh (t n : Nat) (u : UnitRec) : (s.setUnit t n u).fresh = s.fresh := rfl
@[simp] theorem State.setUnit_tbk (t n : Nat) (u : UnitRec) : (s.setUnit t n u).tbk = s.tbk := rfl
@[simp] theorem State.setUnit_rings (t n : Nat) (u : UnitRec) : (s.setUnit t n u).rings = s.rings := rfl
@[simp] theorem State.setUnit_skip (t n : Nat) (u : UnitRec) : (s.setUnit t n u).skip = s.skip := rfl
@[simp] theorem State.setUnit_lastServed (t n : Nat) (u : UnitRec) : (s.setUnit t n u).lastServed = s.lastServed := rfl
@[simp] theorem State.setUnit_cmds (t n : Nat) (u : UnitRec) : (s.setUnit t n u).cmds = s.cmds := rfl
@[simp] theorem State.setUnit_fields (t n : Nat) (u : UnitRec) : (s.setUnit t n u).fields = s.fields := rfl
@[simp] theorem State.setUnit_indexes (t n : Nat) (u : UnitRec) : (s.setUnit t n u).indexes = s.indexes := rfl
@[simp] theorem State.setUnit_compactQueue (t n : Nat) (u : UnitRec) :
    (s.setUnit t n u).compactQueue = s.compactQueue := rfl
@[simp] theorem State.setUnit_evaporators (t n : Nat) (u : UnitRec) :
    (s.setUnit t n u).evaporators = s.evaporators := rfl
@[simp] theorem State.setUnit_queries (t n : Nat) (u : UnitRec) : (s.setUnit t n u).queries = s.queries := rfl
@[simp] theorem State.setUnit_windows (t n : Nat) (u : UnitRec) : (s.setUnit t n u).windows = s.windows := rfl
@[simp] theorem State.setUnit_nextWindow (t n : Nat) (u : UnitRec) : (s.setUnit t n u).nextWindow = s.nextWindow := rfl
@[simp] theorem State.setUnit_order (t n : Nat) (u : UnitRec) : (s.setUnit t n u).order = s.order := rfl
@[simp] theorem State.setUnit_ledger (t n : Nat) (u : UnitRec) : (s.setUnit t n u).ledger = s.ledger := rfl
@[simp] theorem State.setUnit_cores (t n : Nat) (u : UnitRec) : (s.setUnit t n u).cores = s.cores := rfl
@[simp] theorem State.setUnit_messages (t n : Nat) (u : UnitRec) : (s.setUnit t n u).messages = s.messages := rfl
@[simp] theorem State.setUnit_runs (t n : Nat) (u : UnitRec) : (s.setUnit t n u).runs = s.runs := rfl
@[simp] theorem State.setUnit_nextRun (t n : Nat) (u : UnitRec) : (s.setUnit t n u).nextRun = s.nextRun := rfl
@[simp] theorem State.setUnit_streams (t n : Nat) (u : UnitRec) : (s.setUnit t n u).streams = s.streams := rfl
@[simp] theorem State.setUnit_nextStream (t n : Nat) (u : UnitRec) : (s.setUnit t n u).nextStream = s.nextStream := rfl
@[simp] theorem State.setUnit_channels (t n : Nat) (u : UnitRec) : (s.setUnit t n u).channels = s.channels := rfl
@[simp] theorem State.setUnit_memRate (t n : Nat) (u : UnitRec) : (s.setUnit t n u).memRate = s.memRate := rfl
@[simp] theorem State.setUnit_channelMib (t n : Nat) (u : UnitRec) : (s.setUnit t n u).channelMib = s.channelMib := rfl
@[simp] theorem State.setUnit_granary (t n : Nat) (u : UnitRec) : (s.setUnit t n u).granary = s.granary := rfl
@[simp] theorem State.setUnit_ownership (t n : Nat) (u : UnitRec) : (s.setUnit t n u).ownership = s.ownership := rfl
@[simp] theorem State.setUnit_badChunks (t n : Nat) (u : UnitRec) : (s.setUnit t n u).badChunks = s.badChunks := rfl
@[simp] theorem State.setUnit_modeA (t n : Nat) (u : UnitRec) : (s.setUnit t n u).modeA = s.modeA := rfl
@[simp] theorem State.setUnit_modeD (t n : Nat) (u : UnitRec) : (s.setUnit t n u).modeD = s.modeD := rfl
@[simp] theorem State.setUnit_served (t n : Nat) (u : UnitRec) : (s.setUnit t n u).served = s.served := rfl
@[simp] theorem State.setUnit_handleQueues (t n : Nat) (u : UnitRec) : (s.setUnit t n u).handleQueues = s.handleQueues := rfl
@[simp] theorem State.setUnit_crossings (t n : Nat) (u : UnitRec) : (s.setUnit t n u).crossings = s.crossings := rfl
@[simp] theorem State.setUnit_coulters (t n : Nat) (u : UnitRec) : (s.setUnit t n u).coulters = s.coulters := rfl
@[simp] theorem State.setUnit_units (t n : Nat) (u : UnitRec) :
    (s.setUnit t n u).units = FMap.set s.units (unitKey t n) u := rfl
@[simp] theorem State.setUnit_ports (t n : Nat) (u : UnitRec) : (s.setUnit t n u).ports = s.ports := rfl
@[simp] theorem State.setUnit_casc (t n : Nat) (u : UnitRec) : (s.setUnit t n u).casc = s.casc := rfl
@[simp] theorem State.setUnit_trust (t n : Nat) (u : UnitRec) : (s.setUnit t n u).trust = s.trust := rfl
@[simp] theorem State.setUnit_log (t n : Nat) (u : UnitRec) : (s.setUnit t n u).log = s.log := rfl
@[simp] theorem State.setUnit_trace (t n : Nat) (u : UnitRec) : (s.setUnit t n u).trace = s.trace := rfl
@[simp] theorem State.setUnit_counters (t n : Nat) (u : UnitRec) : (s.setUnit t n u).counters = s.counters := rfl
@[simp] theorem State.setUnit_pert (t n : Nat) (u : UnitRec) : (s.setUnit t n u).pert = s.pert := rfl
@[simp] theorem State.setUnit_glob (t n : Nat) (u : UnitRec) : (s.setUnit t n u).glob = s.glob := rfl
@[simp] theorem State.setUnit_fns (t n : Nat) (u : UnitRec) : (s.setUnit t n u).fns = s.fns := rfl
@[simp] theorem State.setUnit_time (t n : Nat) (u : UnitRec) : (s.setUnit t n u).time = s.time := rfl
@[simp] theorem State.setUnit_board (t n : Nat) (u : UnitRec) : (s.setUnit t n u).board = s.board := rfl

/-! ### setCasc -/

@[simp] theorem State.setCasc_pending (x : Cascade) : (s.setCasc x).pending = s.pending := rfl
@[simp] theorem State.setCasc_out (x : Cascade) : (s.setCasc x).out = s.out := rfl
@[simp] theorem State.setCasc_fresh (x : Cascade) : (s.setCasc x).fresh = s.fresh := rfl
@[simp] theorem State.setCasc_tbk (x : Cascade) : (s.setCasc x).tbk = s.tbk := rfl
@[simp] theorem State.setCasc_rings (x : Cascade) : (s.setCasc x).rings = s.rings := rfl
@[simp] theorem State.setCasc_skip (x : Cascade) : (s.setCasc x).skip = s.skip := rfl
@[simp] theorem State.setCasc_lastServed (x : Cascade) : (s.setCasc x).lastServed = s.lastServed := rfl
@[simp] theorem State.setCasc_cmds (x : Cascade) : (s.setCasc x).cmds = s.cmds := rfl
@[simp] theorem State.setCasc_fields (x : Cascade) : (s.setCasc x).fields = s.fields := rfl
@[simp] theorem State.setCasc_indexes (x : Cascade) : (s.setCasc x).indexes = s.indexes := rfl
@[simp] theorem State.setCasc_compactQueue (x : Cascade) : (s.setCasc x).compactQueue = s.compactQueue := rfl
@[simp] theorem State.setCasc_evaporators (x : Cascade) : (s.setCasc x).evaporators = s.evaporators := rfl
@[simp] theorem State.setCasc_queries (x : Cascade) : (s.setCasc x).queries = s.queries := rfl
@[simp] theorem State.setCasc_windows (x : Cascade) : (s.setCasc x).windows = s.windows := rfl
@[simp] theorem State.setCasc_nextWindow (x : Cascade) : (s.setCasc x).nextWindow = s.nextWindow := rfl
@[simp] theorem State.setCasc_order (x : Cascade) : (s.setCasc x).order = s.order := rfl
@[simp] theorem State.setCasc_ledger (x : Cascade) : (s.setCasc x).ledger = s.ledger := rfl
@[simp] theorem State.setCasc_cores (x : Cascade) : (s.setCasc x).cores = s.cores := rfl
@[simp] theorem State.setCasc_messages (x : Cascade) : (s.setCasc x).messages = s.messages := rfl
@[simp] theorem State.setCasc_runs (x : Cascade) : (s.setCasc x).runs = s.runs := rfl
@[simp] theorem State.setCasc_nextRun (x : Cascade) : (s.setCasc x).nextRun = s.nextRun := rfl
@[simp] theorem State.setCasc_streams (x : Cascade) : (s.setCasc x).streams = s.streams := rfl
@[simp] theorem State.setCasc_nextStream (x : Cascade) : (s.setCasc x).nextStream = s.nextStream := rfl
@[simp] theorem State.setCasc_channels (x : Cascade) : (s.setCasc x).channels = s.channels := rfl
@[simp] theorem State.setCasc_memRate (x : Cascade) : (s.setCasc x).memRate = s.memRate := rfl
@[simp] theorem State.setCasc_channelMib (x : Cascade) : (s.setCasc x).channelMib = s.channelMib := rfl
@[simp] theorem State.setCasc_granary (x : Cascade) : (s.setCasc x).granary = s.granary := rfl
@[simp] theorem State.setCasc_ownership (x : Cascade) : (s.setCasc x).ownership = s.ownership := rfl
@[simp] theorem State.setCasc_badChunks (x : Cascade) : (s.setCasc x).badChunks = s.badChunks := rfl
@[simp] theorem State.setCasc_modeA (x : Cascade) : (s.setCasc x).modeA = s.modeA := rfl
@[simp] theorem State.setCasc_modeD (x : Cascade) : (s.setCasc x).modeD = s.modeD := rfl
@[simp] theorem State.setCasc_served (x : Cascade) : (s.setCasc x).served = s.served := rfl
@[simp] theorem State.setCasc_handleQueues (x : Cascade) : (s.setCasc x).handleQueues = s.handleQueues := rfl
@[simp] theorem State.setCasc_crossings (x : Cascade) : (s.setCasc x).crossings = s.crossings := rfl
@[simp] theorem State.setCasc_coulters (x : Cascade) : (s.setCasc x).coulters = s.coulters := rfl
@[simp] theorem State.setCasc_units (x : Cascade) : (s.setCasc x).units = s.units := rfl
@[simp] theorem State.setCasc_ports (x : Cascade) : (s.setCasc x).ports = s.ports := rfl
@[simp] theorem State.setCasc_casc (x : Cascade) : (s.setCasc x).casc = x := rfl
@[simp] theorem State.setCasc_trust (x : Cascade) : (s.setCasc x).trust = s.trust := rfl
@[simp] theorem State.setCasc_log (x : Cascade) : (s.setCasc x).log = s.log := rfl
@[simp] theorem State.setCasc_trace (x : Cascade) : (s.setCasc x).trace = s.trace := rfl
@[simp] theorem State.setCasc_counters (x : Cascade) : (s.setCasc x).counters = s.counters := rfl
@[simp] theorem State.setCasc_pert (x : Cascade) : (s.setCasc x).pert = s.pert := rfl
@[simp] theorem State.setCasc_glob (x : Cascade) : (s.setCasc x).glob = s.glob := rfl
@[simp] theorem State.setCasc_fns (x : Cascade) : (s.setCasc x).fns = s.fns := rfl
@[simp] theorem State.setCasc_time (x : Cascade) : (s.setCasc x).time = s.time := rfl
@[simp] theorem State.setCasc_board (x : Cascade) : (s.setCasc x).board = s.board := rfl

/-! ### setTrust -/

@[simp] theorem State.setTrust_pending (x : Trust) : (s.setTrust x).pending = s.pending := rfl
@[simp] theorem State.setTrust_out (x : Trust) : (s.setTrust x).out = s.out := rfl
@[simp] theorem State.setTrust_fresh (x : Trust) : (s.setTrust x).fresh = s.fresh := rfl
@[simp] theorem State.setTrust_tbk (x : Trust) : (s.setTrust x).tbk = s.tbk := rfl
@[simp] theorem State.setTrust_rings (x : Trust) : (s.setTrust x).rings = s.rings := rfl
@[simp] theorem State.setTrust_skip (x : Trust) : (s.setTrust x).skip = s.skip := rfl
@[simp] theorem State.setTrust_lastServed (x : Trust) : (s.setTrust x).lastServed = s.lastServed := rfl
@[simp] theorem State.setTrust_cmds (x : Trust) : (s.setTrust x).cmds = s.cmds := rfl
@[simp] theorem State.setTrust_fields (x : Trust) : (s.setTrust x).fields = s.fields := rfl
@[simp] theorem State.setTrust_indexes (x : Trust) : (s.setTrust x).indexes = s.indexes := rfl
@[simp] theorem State.setTrust_compactQueue (x : Trust) : (s.setTrust x).compactQueue = s.compactQueue := rfl
@[simp] theorem State.setTrust_evaporators (x : Trust) : (s.setTrust x).evaporators = s.evaporators := rfl
@[simp] theorem State.setTrust_queries (x : Trust) : (s.setTrust x).queries = s.queries := rfl
@[simp] theorem State.setTrust_windows (x : Trust) : (s.setTrust x).windows = s.windows := rfl
@[simp] theorem State.setTrust_nextWindow (x : Trust) : (s.setTrust x).nextWindow = s.nextWindow := rfl
@[simp] theorem State.setTrust_order (x : Trust) : (s.setTrust x).order = s.order := rfl
@[simp] theorem State.setTrust_ledger (x : Trust) : (s.setTrust x).ledger = s.ledger := rfl
@[simp] theorem State.setTrust_cores (x : Trust) : (s.setTrust x).cores = s.cores := rfl
@[simp] theorem State.setTrust_messages (x : Trust) : (s.setTrust x).messages = s.messages := rfl
@[simp] theorem State.setTrust_runs (x : Trust) : (s.setTrust x).runs = s.runs := rfl
@[simp] theorem State.setTrust_nextRun (x : Trust) : (s.setTrust x).nextRun = s.nextRun := rfl
@[simp] theorem State.setTrust_streams (x : Trust) : (s.setTrust x).streams = s.streams := rfl
@[simp] theorem State.setTrust_nextStream (x : Trust) : (s.setTrust x).nextStream = s.nextStream := rfl
@[simp] theorem State.setTrust_channels (x : Trust) : (s.setTrust x).channels = s.channels := rfl
@[simp] theorem State.setTrust_memRate (x : Trust) : (s.setTrust x).memRate = s.memRate := rfl
@[simp] theorem State.setTrust_channelMib (x : Trust) : (s.setTrust x).channelMib = s.channelMib := rfl
@[simp] theorem State.setTrust_granary (x : Trust) : (s.setTrust x).granary = s.granary := rfl
@[simp] theorem State.setTrust_ownership (x : Trust) : (s.setTrust x).ownership = s.ownership := rfl
@[simp] theorem State.setTrust_badChunks (x : Trust) : (s.setTrust x).badChunks = s.badChunks := rfl
@[simp] theorem State.setTrust_modeA (x : Trust) : (s.setTrust x).modeA = s.modeA := rfl
@[simp] theorem State.setTrust_modeD (x : Trust) : (s.setTrust x).modeD = s.modeD := rfl
@[simp] theorem State.setTrust_served (x : Trust) : (s.setTrust x).served = s.served := rfl
@[simp] theorem State.setTrust_handleQueues (x : Trust) : (s.setTrust x).handleQueues = s.handleQueues := rfl
@[simp] theorem State.setTrust_crossings (x : Trust) : (s.setTrust x).crossings = s.crossings := rfl
@[simp] theorem State.setTrust_coulters (x : Trust) : (s.setTrust x).coulters = s.coulters := rfl
@[simp] theorem State.setTrust_units (x : Trust) : (s.setTrust x).units = s.units := rfl
@[simp] theorem State.setTrust_ports (x : Trust) : (s.setTrust x).ports = s.ports := rfl
@[simp] theorem State.setTrust_casc (x : Trust) : (s.setTrust x).casc = s.casc := rfl
@[simp] theorem State.setTrust_trust (x : Trust) : (s.setTrust x).trust = x := rfl
@[simp] theorem State.setTrust_log (x : Trust) : (s.setTrust x).log = s.log := rfl
@[simp] theorem State.setTrust_trace (x : Trust) : (s.setTrust x).trace = s.trace := rfl
@[simp] theorem State.setTrust_counters (x : Trust) : (s.setTrust x).counters = s.counters := rfl
@[simp] theorem State.setTrust_pert (x : Trust) : (s.setTrust x).pert = s.pert := rfl
@[simp] theorem State.setTrust_glob (x : Trust) : (s.setTrust x).glob = s.glob := rfl
@[simp] theorem State.setTrust_fns (x : Trust) : (s.setTrust x).fns = s.fns := rfl
@[simp] theorem State.setTrust_time (x : Trust) : (s.setTrust x).time = s.time := rfl
@[simp] theorem State.setTrust_board (x : Trust) : (s.setTrust x).board = s.board := rfl

/-! ### setGlob -/

@[simp] theorem State.setGlob_pending (x : Glob) : (s.setGlob x).pending = s.pending := rfl
@[simp] theorem State.setGlob_out (x : Glob) : (s.setGlob x).out = s.out := rfl
@[simp] theorem State.setGlob_fresh (x : Glob) : (s.setGlob x).fresh = s.fresh := rfl
@[simp] theorem State.setGlob_tbk (x : Glob) : (s.setGlob x).tbk = s.tbk := rfl
@[simp] theorem State.setGlob_rings (x : Glob) : (s.setGlob x).rings = s.rings := rfl
@[simp] theorem State.setGlob_skip (x : Glob) : (s.setGlob x).skip = s.skip := rfl
@[simp] theorem State.setGlob_lastServed (x : Glob) : (s.setGlob x).lastServed = s.lastServed := rfl
@[simp] theorem State.setGlob_cmds (x : Glob) : (s.setGlob x).cmds = s.cmds := rfl
@[simp] theorem State.setGlob_fields (x : Glob) : (s.setGlob x).fields = s.fields := rfl
@[simp] theorem State.setGlob_indexes (x : Glob) : (s.setGlob x).indexes = s.indexes := rfl
@[simp] theorem State.setGlob_compactQueue (x : Glob) : (s.setGlob x).compactQueue = s.compactQueue := rfl
@[simp] theorem State.setGlob_evaporators (x : Glob) : (s.setGlob x).evaporators = s.evaporators := rfl
@[simp] theorem State.setGlob_queries (x : Glob) : (s.setGlob x).queries = s.queries := rfl
@[simp] theorem State.setGlob_windows (x : Glob) : (s.setGlob x).windows = s.windows := rfl
@[simp] theorem State.setGlob_nextWindow (x : Glob) : (s.setGlob x).nextWindow = s.nextWindow := rfl
@[simp] theorem State.setGlob_order (x : Glob) : (s.setGlob x).order = s.order := rfl
@[simp] theorem State.setGlob_ledger (x : Glob) : (s.setGlob x).ledger = s.ledger := rfl
@[simp] theorem State.setGlob_cores (x : Glob) : (s.setGlob x).cores = s.cores := rfl
@[simp] theorem State.setGlob_messages (x : Glob) : (s.setGlob x).messages = s.messages := rfl
@[simp] theorem State.setGlob_runs (x : Glob) : (s.setGlob x).runs = s.runs := rfl
@[simp] theorem State.setGlob_nextRun (x : Glob) : (s.setGlob x).nextRun = s.nextRun := rfl
@[simp] theorem State.setGlob_streams (x : Glob) : (s.setGlob x).streams = s.streams := rfl
@[simp] theorem State.setGlob_nextStream (x : Glob) : (s.setGlob x).nextStream = s.nextStream := rfl
@[simp] theorem State.setGlob_channels (x : Glob) : (s.setGlob x).channels = s.channels := rfl
@[simp] theorem State.setGlob_memRate (x : Glob) : (s.setGlob x).memRate = s.memRate := rfl
@[simp] theorem State.setGlob_channelMib (x : Glob) : (s.setGlob x).channelMib = s.channelMib := rfl
@[simp] theorem State.setGlob_granary (x : Glob) : (s.setGlob x).granary = s.granary := rfl
@[simp] theorem State.setGlob_ownership (x : Glob) : (s.setGlob x).ownership = s.ownership := rfl
@[simp] theorem State.setGlob_badChunks (x : Glob) : (s.setGlob x).badChunks = s.badChunks := rfl
@[simp] theorem State.setGlob_modeA (x : Glob) : (s.setGlob x).modeA = s.modeA := rfl
@[simp] theorem State.setGlob_modeD (x : Glob) : (s.setGlob x).modeD = s.modeD := rfl
@[simp] theorem State.setGlob_served (x : Glob) : (s.setGlob x).served = s.served := rfl
@[simp] theorem State.setGlob_handleQueues (x : Glob) : (s.setGlob x).handleQueues = s.handleQueues := rfl
@[simp] theorem State.setGlob_crossings (x : Glob) : (s.setGlob x).crossings = s.crossings := rfl
@[simp] theorem State.setGlob_coulters (x : Glob) : (s.setGlob x).coulters = s.coulters := rfl
@[simp] theorem State.setGlob_units (x : Glob) : (s.setGlob x).units = s.units := rfl
@[simp] theorem State.setGlob_ports (x : Glob) : (s.setGlob x).ports = s.ports := rfl
@[simp] theorem State.setGlob_casc (x : Glob) : (s.setGlob x).casc = s.casc := rfl
@[simp] theorem State.setGlob_trust (x : Glob) : (s.setGlob x).trust = s.trust := rfl
@[simp] theorem State.setGlob_log (x : Glob) : (s.setGlob x).log = s.log := rfl
@[simp] theorem State.setGlob_trace (x : Glob) : (s.setGlob x).trace = s.trace := rfl
@[simp] theorem State.setGlob_counters (x : Glob) : (s.setGlob x).counters = s.counters := rfl
@[simp] theorem State.setGlob_pert (x : Glob) : (s.setGlob x).pert = s.pert := rfl
@[simp] theorem State.setGlob_glob (x : Glob) : (s.setGlob x).glob = x := rfl
@[simp] theorem State.setGlob_fns (x : Glob) : (s.setGlob x).fns = s.fns := rfl
@[simp] theorem State.setGlob_time (x : Glob) : (s.setGlob x).time = s.time := rfl
@[simp] theorem State.setGlob_board (x : Glob) : (s.setGlob x).board = s.board := rfl

/-! ### setBoard -/

@[simp] theorem State.setBoard_pending (x : Board) : (s.setBoard x).pending = s.pending := rfl
@[simp] theorem State.setBoard_out (x : Board) : (s.setBoard x).out = s.out := rfl
@[simp] theorem State.setBoard_fresh (x : Board) : (s.setBoard x).fresh = s.fresh := rfl
@[simp] theorem State.setBoard_tbk (x : Board) : (s.setBoard x).tbk = s.tbk := rfl
@[simp] theorem State.setBoard_rings (x : Board) : (s.setBoard x).rings = s.rings := rfl
@[simp] theorem State.setBoard_skip (x : Board) : (s.setBoard x).skip = s.skip := rfl
@[simp] theorem State.setBoard_lastServed (x : Board) : (s.setBoard x).lastServed = s.lastServed := rfl
@[simp] theorem State.setBoard_cmds (x : Board) : (s.setBoard x).cmds = s.cmds := rfl
@[simp] theorem State.setBoard_fields (x : Board) : (s.setBoard x).fields = s.fields := rfl
@[simp] theorem State.setBoard_indexes (x : Board) : (s.setBoard x).indexes = s.indexes := rfl
@[simp] theorem State.setBoard_compactQueue (x : Board) : (s.setBoard x).compactQueue = s.compactQueue := rfl
@[simp] theorem State.setBoard_evaporators (x : Board) : (s.setBoard x).evaporators = s.evaporators := rfl
@[simp] theorem State.setBoard_queries (x : Board) : (s.setBoard x).queries = s.queries := rfl
@[simp] theorem State.setBoard_windows (x : Board) : (s.setBoard x).windows = s.windows := rfl
@[simp] theorem State.setBoard_nextWindow (x : Board) : (s.setBoard x).nextWindow = s.nextWindow := rfl
@[simp] theorem State.setBoard_order (x : Board) : (s.setBoard x).order = s.order := rfl
@[simp] theorem State.setBoard_ledger (x : Board) : (s.setBoard x).ledger = s.ledger := rfl
@[simp] theorem State.setBoard_cores (x : Board) : (s.setBoard x).cores = s.cores := rfl
@[simp] theorem State.setBoard_messages (x : Board) : (s.setBoard x).messages = s.messages := rfl
@[simp] theorem State.setBoard_runs (x : Board) : (s.setBoard x).runs = s.runs := rfl
@[simp] theorem State.setBoard_nextRun (x : Board) : (s.setBoard x).nextRun = s.nextRun := rfl
@[simp] theorem State.setBoard_streams (x : Board) : (s.setBoard x).streams = s.streams := rfl
@[simp] theorem State.setBoard_nextStream (x : Board) : (s.setBoard x).nextStream = s.nextStream := rfl
@[simp] theorem State.setBoard_channels (x : Board) : (s.setBoard x).channels = s.channels := rfl
@[simp] theorem State.setBoard_memRate (x : Board) : (s.setBoard x).memRate = s.memRate := rfl
@[simp] theorem State.setBoard_channelMib (x : Board) : (s.setBoard x).channelMib = s.channelMib := rfl
@[simp] theorem State.setBoard_granary (x : Board) : (s.setBoard x).granary = s.granary := rfl
@[simp] theorem State.setBoard_ownership (x : Board) : (s.setBoard x).ownership = s.ownership := rfl
@[simp] theorem State.setBoard_badChunks (x : Board) : (s.setBoard x).badChunks = s.badChunks := rfl
@[simp] theorem State.setBoard_modeA (x : Board) : (s.setBoard x).modeA = s.modeA := rfl
@[simp] theorem State.setBoard_modeD (x : Board) : (s.setBoard x).modeD = s.modeD := rfl
@[simp] theorem State.setBoard_served (x : Board) : (s.setBoard x).served = s.served := rfl
@[simp] theorem State.setBoard_handleQueues (x : Board) : (s.setBoard x).handleQueues = s.handleQueues := rfl
@[simp] theorem State.setBoard_crossings (x : Board) : (s.setBoard x).crossings = s.crossings := rfl
@[simp] theorem State.setBoard_coulters (x : Board) : (s.setBoard x).coulters = s.coulters := rfl
@[simp] theorem State.setBoard_units (x : Board) : (s.setBoard x).units = s.units := rfl
@[simp] theorem State.setBoard_ports (x : Board) : (s.setBoard x).ports = s.ports := rfl
@[simp] theorem State.setBoard_casc (x : Board) : (s.setBoard x).casc = s.casc := rfl
@[simp] theorem State.setBoard_trust (x : Board) : (s.setBoard x).trust = s.trust := rfl
@[simp] theorem State.setBoard_log (x : Board) : (s.setBoard x).log = s.log := rfl
@[simp] theorem State.setBoard_trace (x : Board) : (s.setBoard x).trace = s.trace := rfl
@[simp] theorem State.setBoard_counters (x : Board) : (s.setBoard x).counters = s.counters := rfl
@[simp] theorem State.setBoard_pert (x : Board) : (s.setBoard x).pert = s.pert := rfl
@[simp] theorem State.setBoard_glob (x : Board) : (s.setBoard x).glob = s.glob := rfl
@[simp] theorem State.setBoard_fns (x : Board) : (s.setBoard x).fns = s.fns := rfl
@[simp] theorem State.setBoard_time (x : Board) : (s.setBoard x).time = s.time := rfl
@[simp] theorem State.setBoard_board (x : Board) : (s.setBoard x).board = x := rfl

/-! ### setCmds -/

@[simp] theorem State.setCmds_pending (x : List Cmd) : (s.setCmds x).pending = s.pending := rfl
@[simp] theorem State.setCmds_out (x : List Cmd) : (s.setCmds x).out = s.out := rfl
@[simp] theorem State.setCmds_fresh (x : List Cmd) : (s.setCmds x).fresh = s.fresh := rfl
@[simp] theorem State.setCmds_tbk (x : List Cmd) : (s.setCmds x).tbk = s.tbk := rfl
@[simp] theorem State.setCmds_rings (x : List Cmd) : (s.setCmds x).rings = s.rings := rfl
@[simp] theorem State.setCmds_skip (x : List Cmd) : (s.setCmds x).skip = s.skip := rfl
@[simp] theorem State.setCmds_lastServed (x : List Cmd) : (s.setCmds x).lastServed = s.lastServed := rfl
@[simp] theorem State.setCmds_cmds (x : List Cmd) : (s.setCmds x).cmds = x := rfl
@[simp] theorem State.setCmds_fields (x : List Cmd) : (s.setCmds x).fields = s.fields := rfl
@[simp] theorem State.setCmds_indexes (x : List Cmd) : (s.setCmds x).indexes = s.indexes := rfl
@[simp] theorem State.setCmds_compactQueue (x : List Cmd) : (s.setCmds x).compactQueue = s.compactQueue := rfl
@[simp] theorem State.setCmds_evaporators (x : List Cmd) : (s.setCmds x).evaporators = s.evaporators := rfl
@[simp] theorem State.setCmds_queries (x : List Cmd) : (s.setCmds x).queries = s.queries := rfl
@[simp] theorem State.setCmds_windows (x : List Cmd) : (s.setCmds x).windows = s.windows := rfl
@[simp] theorem State.setCmds_nextWindow (x : List Cmd) : (s.setCmds x).nextWindow = s.nextWindow := rfl
@[simp] theorem State.setCmds_order (x : List Cmd) : (s.setCmds x).order = s.order := rfl
@[simp] theorem State.setCmds_ledger (x : List Cmd) : (s.setCmds x).ledger = s.ledger := rfl
@[simp] theorem State.setCmds_cores (x : List Cmd) : (s.setCmds x).cores = s.cores := rfl
@[simp] theorem State.setCmds_messages (x : List Cmd) : (s.setCmds x).messages = s.messages := rfl
@[simp] theorem State.setCmds_runs (x : List Cmd) : (s.setCmds x).runs = s.runs := rfl
@[simp] theorem State.setCmds_nextRun (x : List Cmd) : (s.setCmds x).nextRun = s.nextRun := rfl
@[simp] theorem State.setCmds_streams (x : List Cmd) : (s.setCmds x).streams = s.streams := rfl
@[simp] theorem State.setCmds_nextStream (x : List Cmd) : (s.setCmds x).nextStream = s.nextStream := rfl
@[simp] theorem State.setCmds_channels (x : List Cmd) : (s.setCmds x).channels = s.channels := rfl
@[simp] theorem State.setCmds_memRate (x : List Cmd) : (s.setCmds x).memRate = s.memRate := rfl
@[simp] theorem State.setCmds_channelMib (x : List Cmd) : (s.setCmds x).channelMib = s.channelMib := rfl
@[simp] theorem State.setCmds_granary (x : List Cmd) : (s.setCmds x).granary = s.granary := rfl
@[simp] theorem State.setCmds_ownership (x : List Cmd) : (s.setCmds x).ownership = s.ownership := rfl
@[simp] theorem State.setCmds_badChunks (x : List Cmd) : (s.setCmds x).badChunks = s.badChunks := rfl
@[simp] theorem State.setCmds_modeA (x : List Cmd) : (s.setCmds x).modeA = s.modeA := rfl
@[simp] theorem State.setCmds_modeD (x : List Cmd) : (s.setCmds x).modeD = s.modeD := rfl
@[simp] theorem State.setCmds_served (x : List Cmd) : (s.setCmds x).served = s.served := rfl
@[simp] theorem State.setCmds_handleQueues (x : List Cmd) : (s.setCmds x).handleQueues = s.handleQueues := rfl
@[simp] theorem State.setCmds_crossings (x : List Cmd) : (s.setCmds x).crossings = s.crossings := rfl
@[simp] theorem State.setCmds_coulters (x : List Cmd) : (s.setCmds x).coulters = s.coulters := rfl
@[simp] theorem State.setCmds_units (x : List Cmd) : (s.setCmds x).units = s.units := rfl
@[simp] theorem State.setCmds_ports (x : List Cmd) : (s.setCmds x).ports = s.ports := rfl
@[simp] theorem State.setCmds_casc (x : List Cmd) : (s.setCmds x).casc = s.casc := rfl
@[simp] theorem State.setCmds_trust (x : List Cmd) : (s.setCmds x).trust = s.trust := rfl
@[simp] theorem State.setCmds_log (x : List Cmd) : (s.setCmds x).log = s.log := rfl
@[simp] theorem State.setCmds_trace (x : List Cmd) : (s.setCmds x).trace = s.trace := rfl
@[simp] theorem State.setCmds_counters (x : List Cmd) : (s.setCmds x).counters = s.counters := rfl
@[simp] theorem State.setCmds_pert (x : List Cmd) : (s.setCmds x).pert = s.pert := rfl
@[simp] theorem State.setCmds_glob (x : List Cmd) : (s.setCmds x).glob = s.glob := rfl
@[simp] theorem State.setCmds_fns (x : List Cmd) : (s.setCmds x).fns = s.fns := rfl
@[simp] theorem State.setCmds_time (x : List Cmd) : (s.setCmds x).time = s.time := rfl
@[simp] theorem State.setCmds_board (x : List Cmd) : (s.setCmds x).board = s.board := rfl

/-! ### setQueries -/

@[simp] theorem State.setQueries_pending (x : List Query) : (s.setQueries x).pending = s.pending := rfl
@[simp] theorem State.setQueries_out (x : List Query) : (s.setQueries x).out = s.out := rfl
@[simp] theorem State.setQueries_fresh (x : List Query) : (s.setQueries x).fresh = s.fresh := rfl
@[simp] theorem State.setQueries_tbk (x : List Query) : (s.setQueries x).tbk = s.tbk := rfl
@[simp] theorem State.setQueries_rings (x : List Query) : (s.setQueries x).rings = s.rings := rfl
@[simp] theorem State.setQueries_skip (x : List Query) : (s.setQueries x).skip = s.skip := rfl
@[simp] theorem State.setQueries_lastServed (x : List Query) : (s.setQueries x).lastServed = s.lastServed := rfl
@[simp] theorem State.setQueries_cmds (x : List Query) : (s.setQueries x).cmds = s.cmds := rfl
@[simp] theorem State.setQueries_fields (x : List Query) : (s.setQueries x).fields = s.fields := rfl
@[simp] theorem State.setQueries_indexes (x : List Query) : (s.setQueries x).indexes = s.indexes := rfl
@[simp] theorem State.setQueries_compactQueue (x : List Query) : (s.setQueries x).compactQueue = s.compactQueue := rfl
@[simp] theorem State.setQueries_evaporators (x : List Query) : (s.setQueries x).evaporators = s.evaporators := rfl
@[simp] theorem State.setQueries_queries (x : List Query) : (s.setQueries x).queries = x := rfl
@[simp] theorem State.setQueries_windows (x : List Query) : (s.setQueries x).windows = s.windows := rfl
@[simp] theorem State.setQueries_nextWindow (x : List Query) : (s.setQueries x).nextWindow = s.nextWindow := rfl
@[simp] theorem State.setQueries_order (x : List Query) : (s.setQueries x).order = s.order := rfl
@[simp] theorem State.setQueries_ledger (x : List Query) : (s.setQueries x).ledger = s.ledger := rfl
@[simp] theorem State.setQueries_cores (x : List Query) : (s.setQueries x).cores = s.cores := rfl
@[simp] theorem State.setQueries_messages (x : List Query) : (s.setQueries x).messages = s.messages := rfl
@[simp] theorem State.setQueries_runs (x : List Query) : (s.setQueries x).runs = s.runs := rfl
@[simp] theorem State.setQueries_nextRun (x : List Query) : (s.setQueries x).nextRun = s.nextRun := rfl
@[simp] theorem State.setQueries_streams (x : List Query) : (s.setQueries x).streams = s.streams := rfl
@[simp] theorem State.setQueries_nextStream (x : List Query) : (s.setQueries x).nextStream = s.nextStream := rfl
@[simp] theorem State.setQueries_channels (x : List Query) : (s.setQueries x).channels = s.channels := rfl
@[simp] theorem State.setQueries_memRate (x : List Query) : (s.setQueries x).memRate = s.memRate := rfl
@[simp] theorem State.setQueries_channelMib (x : List Query) : (s.setQueries x).channelMib = s.channelMib := rfl
@[simp] theorem State.setQueries_granary (x : List Query) : (s.setQueries x).granary = s.granary := rfl
@[simp] theorem State.setQueries_ownership (x : List Query) : (s.setQueries x).ownership = s.ownership := rfl
@[simp] theorem State.setQueries_badChunks (x : List Query) : (s.setQueries x).badChunks = s.badChunks := rfl
@[simp] theorem State.setQueries_modeA (x : List Query) : (s.setQueries x).modeA = s.modeA := rfl
@[simp] theorem State.setQueries_modeD (x : List Query) : (s.setQueries x).modeD = s.modeD := rfl
@[simp] theorem State.setQueries_served (x : List Query) : (s.setQueries x).served = s.served := rfl
@[simp] theorem State.setQueries_handleQueues (x : List Query) : (s.setQueries x).handleQueues = s.handleQueues := rfl
@[simp] theorem State.setQueries_crossings (x : List Query) : (s.setQueries x).crossings = s.crossings := rfl
@[simp] theorem State.setQueries_coulters (x : List Query) : (s.setQueries x).coulters = s.coulters := rfl
@[simp] theorem State.setQueries_units (x : List Query) : (s.setQueries x).units = s.units := rfl
@[simp] theorem State.setQueries_ports (x : List Query) : (s.setQueries x).ports = s.ports := rfl
@[simp] theorem State.setQueries_casc (x : List Query) : (s.setQueries x).casc = s.casc := rfl
@[simp] theorem State.setQueries_trust (x : List Query) : (s.setQueries x).trust = s.trust := rfl
@[simp] theorem State.setQueries_log (x : List Query) : (s.setQueries x).log = s.log := rfl
@[simp] theorem State.setQueries_trace (x : List Query) : (s.setQueries x).trace = s.trace := rfl
@[simp] theorem State.setQueries_counters (x : List Query) : (s.setQueries x).counters = s.counters := rfl
@[simp] theorem State.setQueries_pert (x : List Query) : (s.setQueries x).pert = s.pert := rfl
@[simp] theorem State.setQueries_glob (x : List Query) : (s.setQueries x).glob = s.glob := rfl
@[simp] theorem State.setQueries_fns (x : List Query) : (s.setQueries x).fns = s.fns := rfl
@[simp] theorem State.setQueries_time (x : List Query) : (s.setQueries x).time = s.time := rfl
@[simp] theorem State.setQueries_board (x : List Query) : (s.setQueries x).board = s.board := rfl

/-! ### takeFree -/

@[simp] theorem State.takeFree_pending : (s.takeFree).pending = s.pending := rfl
@[simp] theorem State.takeFree_out : (s.takeFree).out = s.out := rfl
@[simp] theorem State.takeFree_fresh : (s.takeFree).fresh = s.fresh + 1 := rfl
@[simp] theorem State.takeFree_tbk : (s.takeFree).tbk = s.tbk := rfl
@[simp] theorem State.takeFree_rings : (s.takeFree).rings = s.rings := rfl
@[simp] theorem State.takeFree_skip : (s.takeFree).skip = s.skip := rfl
@[simp] theorem State.takeFree_lastServed : (s.takeFree).lastServed = s.lastServed := rfl
@[simp] theorem State.takeFree_cmds : (s.takeFree).cmds = s.cmds := rfl
@[simp] theorem State.takeFree_fields : (s.takeFree).fields = s.fields := rfl
@[simp] theorem State.takeFree_indexes : (s.takeFree).indexes = s.indexes := rfl
@[simp] theorem State.takeFree_compactQueue : (s.takeFree).compactQueue = s.compactQueue := rfl
@[simp] theorem State.takeFree_evaporators : (s.takeFree).evaporators = s.evaporators := rfl
@[simp] theorem State.takeFree_queries : (s.takeFree).queries = s.queries := rfl
@[simp] theorem State.takeFree_windows : (s.takeFree).windows = s.windows := rfl
@[simp] theorem State.takeFree_nextWindow : (s.takeFree).nextWindow = s.nextWindow := rfl
@[simp] theorem State.takeFree_order : (s.takeFree).order = s.order := rfl
@[simp] theorem State.takeFree_ledger : (s.takeFree).ledger = s.ledger := rfl
@[simp] theorem State.takeFree_cores : (s.takeFree).cores = s.cores := rfl
@[simp] theorem State.takeFree_messages : (s.takeFree).messages = s.messages := rfl
@[simp] theorem State.takeFree_runs : (s.takeFree).runs = s.runs := rfl
@[simp] theorem State.takeFree_nextRun : (s.takeFree).nextRun = s.nextRun := rfl
@[simp] theorem State.takeFree_streams : (s.takeFree).streams = s.streams := rfl
@[simp] theorem State.takeFree_nextStream : (s.takeFree).nextStream = s.nextStream := rfl
@[simp] theorem State.takeFree_channels : (s.takeFree).channels = s.channels := rfl
@[simp] theorem State.takeFree_memRate : (s.takeFree).memRate = s.memRate := rfl
@[simp] theorem State.takeFree_channelMib : (s.takeFree).channelMib = s.channelMib := rfl
@[simp] theorem State.takeFree_granary : (s.takeFree).granary = s.granary := rfl
@[simp] theorem State.takeFree_ownership : (s.takeFree).ownership = s.ownership := rfl
@[simp] theorem State.takeFree_badChunks : (s.takeFree).badChunks = s.badChunks := rfl
@[simp] theorem State.takeFree_modeA : (s.takeFree).modeA = s.modeA := rfl
@[simp] theorem State.takeFree_modeD : (s.takeFree).modeD = s.modeD := rfl
@[simp] theorem State.takeFree_served : (s.takeFree).served = s.served := rfl
@[simp] theorem State.takeFree_handleQueues : (s.takeFree).handleQueues = s.handleQueues := rfl
@[simp] theorem State.takeFree_crossings : (s.takeFree).crossings = s.crossings := rfl
@[simp] theorem State.takeFree_coulters : (s.takeFree).coulters = s.coulters := rfl
@[simp] theorem State.takeFree_units : (s.takeFree).units = s.units := rfl
@[simp] theorem State.takeFree_ports : (s.takeFree).ports = s.ports := rfl
@[simp] theorem State.takeFree_casc : (s.takeFree).casc = s.casc := rfl
@[simp] theorem State.takeFree_trust : (s.takeFree).trust = s.trust := rfl
@[simp] theorem State.takeFree_log : (s.takeFree).log = s.log := rfl
@[simp] theorem State.takeFree_trace : (s.takeFree).trace = s.trace := rfl
@[simp] theorem State.takeFree_counters : (s.takeFree).counters = s.counters := rfl
@[simp] theorem State.takeFree_pert : (s.takeFree).pert = s.pert := rfl
@[simp] theorem State.takeFree_glob : (s.takeFree).glob = s.glob := rfl
@[simp] theorem State.takeFree_fns : (s.takeFree).fns = s.fns := rfl
@[simp] theorem State.takeFree_time : (s.takeFree).time = s.time := rfl
@[simp] theorem State.takeFree_board : (s.takeFree).board = s.board := rfl

/-! ### advance -/

@[simp] theorem State.advance_pending (t : Nat) : (s.advance t).pending = s.pending := rfl
@[simp] theorem State.advance_out (t : Nat) : (s.advance t).out = s.out := rfl
@[simp] theorem State.advance_fresh (t : Nat) : (s.advance t).fresh = s.fresh := rfl
@[simp] theorem State.advance_tbk (t : Nat) : (s.advance t).tbk = max s.tbk t := rfl
@[simp] theorem State.advance_rings (t : Nat) : (s.advance t).rings = s.rings := rfl
@[simp] theorem State.advance_skip (t : Nat) : (s.advance t).skip = s.skip := rfl
@[simp] theorem State.advance_lastServed (t : Nat) : (s.advance t).lastServed = s.lastServed := rfl
@[simp] theorem State.advance_cmds (t : Nat) : (s.advance t).cmds = s.cmds := rfl
@[simp] theorem State.advance_fields (t : Nat) : (s.advance t).fields = s.fields := rfl
@[simp] theorem State.advance_indexes (t : Nat) : (s.advance t).indexes = s.indexes := rfl
@[simp] theorem State.advance_compactQueue (t : Nat) : (s.advance t).compactQueue = s.compactQueue := rfl
@[simp] theorem State.advance_evaporators (t : Nat) : (s.advance t).evaporators = s.evaporators := rfl
@[simp] theorem State.advance_queries (t : Nat) : (s.advance t).queries = s.queries := rfl
@[simp] theorem State.advance_windows (t : Nat) : (s.advance t).windows = s.windows := rfl
@[simp] theorem State.advance_nextWindow (t : Nat) : (s.advance t).nextWindow = s.nextWindow := rfl
@[simp] theorem State.advance_order (t : Nat) : (s.advance t).order = s.order := rfl
@[simp] theorem State.advance_ledger (t : Nat) : (s.advance t).ledger = s.ledger := rfl
@[simp] theorem State.advance_cores (t : Nat) : (s.advance t).cores = s.cores := rfl
@[simp] theorem State.advance_messages (t : Nat) : (s.advance t).messages = s.messages := rfl
@[simp] theorem State.advance_runs (t : Nat) : (s.advance t).runs = s.runs := rfl
@[simp] theorem State.advance_nextRun (t : Nat) : (s.advance t).nextRun = s.nextRun := rfl
@[simp] theorem State.advance_streams (t : Nat) : (s.advance t).streams = s.streams := rfl
@[simp] theorem State.advance_nextStream (t : Nat) : (s.advance t).nextStream = s.nextStream := rfl
@[simp] theorem State.advance_channels (t : Nat) : (s.advance t).channels = s.channels := rfl
@[simp] theorem State.advance_memRate (t : Nat) : (s.advance t).memRate = s.memRate := rfl
@[simp] theorem State.advance_channelMib (t : Nat) : (s.advance t).channelMib = s.channelMib := rfl
@[simp] theorem State.advance_granary (t : Nat) : (s.advance t).granary = s.granary := rfl
@[simp] theorem State.advance_ownership (t : Nat) : (s.advance t).ownership = s.ownership := rfl
@[simp] theorem State.advance_badChunks (t : Nat) : (s.advance t).badChunks = s.badChunks := rfl
@[simp] theorem State.advance_modeA (t : Nat) : (s.advance t).modeA = s.modeA := rfl
@[simp] theorem State.advance_modeD (t : Nat) : (s.advance t).modeD = s.modeD := rfl
@[simp] theorem State.advance_served (t : Nat) : (s.advance t).served = s.served := rfl
@[simp] theorem State.advance_handleQueues (t : Nat) : (s.advance t).handleQueues = s.handleQueues := rfl
@[simp] theorem State.advance_crossings (t : Nat) : (s.advance t).crossings = s.crossings := rfl
@[simp] theorem State.advance_coulters (t : Nat) : (s.advance t).coulters = s.coulters := rfl
@[simp] theorem State.advance_units (t : Nat) : (s.advance t).units = s.units := rfl
@[simp] theorem State.advance_ports (t : Nat) : (s.advance t).ports = s.ports := rfl
@[simp] theorem State.advance_casc (t : Nat) : (s.advance t).casc = s.casc := rfl
@[simp] theorem State.advance_trust (t : Nat) : (s.advance t).trust = s.trust := rfl
@[simp] theorem State.advance_log (t : Nat) : (s.advance t).log = s.log := rfl
@[simp] theorem State.advance_trace (t : Nat) : (s.advance t).trace = s.trace := rfl
@[simp] theorem State.advance_counters (t : Nat) : (s.advance t).counters = s.counters := rfl
@[simp] theorem State.advance_pert (t : Nat) : (s.advance t).pert = s.pert := rfl
@[simp] theorem State.advance_glob (t : Nat) : (s.advance t).glob = s.glob := rfl
@[simp] theorem State.advance_fns (t : Nat) : (s.advance t).fns = s.fns := rfl
@[simp] theorem State.advance_time (t : Nat) : (s.advance t).time = s.time := rfl
@[simp] theorem State.advance_board (t : Nat) : (s.advance t).board = s.board := rfl

/-! ### emit -/

@[simp] theorem State.emit_pending (o : Out) : (s.emit o).pending = s.pending := rfl
@[simp] theorem State.emit_out (o : Out) : (s.emit o).out = o :: s.out := rfl
@[simp] theorem State.emit_fresh (o : Out) : (s.emit o).fresh = s.fresh := rfl
@[simp] theorem State.emit_tbk (o : Out) : (s.emit o).tbk = s.tbk := rfl
@[simp] theorem State.emit_rings (o : Out) : (s.emit o).rings = s.rings := rfl
@[simp] theorem State.emit_skip (o : Out) : (s.emit o).skip = s.skip := rfl
@[simp] theorem State.emit_lastServed (o : Out) : (s.emit o).lastServed = s.lastServed := rfl
@[simp] theorem State.emit_cmds (o : Out) : (s.emit o).cmds = s.cmds := rfl
@[simp] theorem State.emit_fields (o : Out) : (s.emit o).fields = s.fields := rfl
@[simp] theorem State.emit_indexes (o : Out) : (s.emit o).indexes = s.indexes := rfl
@[simp] theorem State.emit_compactQueue (o : Out) : (s.emit o).compactQueue = s.compactQueue := rfl
@[simp] theorem State.emit_evaporators (o : Out) : (s.emit o).evaporators = s.evaporators := rfl
@[simp] theorem State.emit_queries (o : Out) : (s.emit o).queries = s.queries := rfl
@[simp] theorem State.emit_windows (o : Out) : (s.emit o).windows = s.windows := rfl
@[simp] theorem State.emit_nextWindow (o : Out) : (s.emit o).nextWindow = s.nextWindow := rfl
@[simp] theorem State.emit_order (o : Out) : (s.emit o).order = s.order := rfl
@[simp] theorem State.emit_ledger (o : Out) : (s.emit o).ledger = s.ledger := rfl
@[simp] theorem State.emit_cores (o : Out) : (s.emit o).cores = s.cores := rfl
@[simp] theorem State.emit_messages (o : Out) : (s.emit o).messages = s.messages := rfl
@[simp] theorem State.emit_runs (o : Out) : (s.emit o).runs = s.runs := rfl
@[simp] theorem State.emit_nextRun (o : Out) : (s.emit o).nextRun = s.nextRun := rfl
@[simp] theorem State.emit_streams (o : Out) : (s.emit o).streams = s.streams := rfl
@[simp] theorem State.emit_nextStream (o : Out) : (s.emit o).nextStream = s.nextStream := rfl
@[simp] theorem State.emit_channels (o : Out) : (s.emit o).channels = s.channels := rfl
@[simp] theorem State.emit_memRate (o : Out) : (s.emit o).memRate = s.memRate := rfl
@[simp] theorem State.emit_channelMib (o : Out) : (s.emit o).channelMib = s.channelMib := rfl
@[simp] theorem State.emit_granary (o : Out) : (s.emit o).granary = s.granary := rfl
@[simp] theorem State.emit_ownership (o : Out) : (s.emit o).ownership = s.ownership := rfl
@[simp] theorem State.emit_badChunks (o : Out) : (s.emit o).badChunks = s.badChunks := rfl
@[simp] theorem State.emit_modeA (o : Out) : (s.emit o).modeA = s.modeA := rfl
@[simp] theorem State.emit_modeD (o : Out) : (s.emit o).modeD = s.modeD := rfl
@[simp] theorem State.emit_served (o : Out) : (s.emit o).served = s.served := rfl
@[simp] theorem State.emit_handleQueues (o : Out) : (s.emit o).handleQueues = s.handleQueues := rfl
@[simp] theorem State.emit_crossings (o : Out) : (s.emit o).crossings = s.crossings := rfl
@[simp] theorem State.emit_coulters (o : Out) : (s.emit o).coulters = s.coulters := rfl
@[simp] theorem State.emit_units (o : Out) : (s.emit o).units = s.units := rfl
@[simp] theorem State.emit_ports (o : Out) : (s.emit o).ports = s.ports := rfl
@[simp] theorem State.emit_casc (o : Out) : (s.emit o).casc = s.casc := rfl
@[simp] theorem State.emit_trust (o : Out) : (s.emit o).trust = s.trust := rfl
@[simp] theorem State.emit_log (o : Out) : (s.emit o).log = s.log := rfl
@[simp] theorem State.emit_trace (o : Out) : (s.emit o).trace = s.trace := rfl
@[simp] theorem State.emit_counters (o : Out) : (s.emit o).counters = s.counters := rfl
@[simp] theorem State.emit_pert (o : Out) : (s.emit o).pert = s.pert := rfl
@[simp] theorem State.emit_glob (o : Out) : (s.emit o).glob = s.glob := rfl
@[simp] theorem State.emit_fns (o : Out) : (s.emit o).fns = s.fns := rfl
@[simp] theorem State.emit_time (o : Out) : (s.emit o).time = s.time := rfl
@[simp] theorem State.emit_board (o : Out) : (s.emit o).board = s.board := rfl

/-! ### count -/

@[simp] theorem State.count_pending (g p n : Nat) : (s.count g p n).pending = s.pending := rfl
@[simp] theorem State.count_out (g p n : Nat) : (s.count g p n).out = s.out := rfl
@[simp] theorem State.count_fresh (g p n : Nat) : (s.count g p n).fresh = s.fresh := rfl
@[simp] theorem State.count_tbk (g p n : Nat) : (s.count g p n).tbk = s.tbk := rfl
@[simp] theorem State.count_rings (g p n : Nat) : (s.count g p n).rings = s.rings := rfl
@[simp] theorem State.count_skip (g p n : Nat) : (s.count g p n).skip = s.skip := rfl
@[simp] theorem State.count_lastServed (g p n : Nat) : (s.count g p n).lastServed = s.lastServed := rfl
@[simp] theorem State.count_cmds (g p n : Nat) : (s.count g p n).cmds = s.cmds := rfl
@[simp] theorem State.count_fields (g p n : Nat) : (s.count g p n).fields = s.fields := rfl
@[simp] theorem State.count_indexes (g p n : Nat) : (s.count g p n).indexes = s.indexes := rfl
@[simp] theorem State.count_compactQueue (g p n : Nat) : (s.count g p n).compactQueue = s.compactQueue := rfl
@[simp] theorem State.count_evaporators (g p n : Nat) : (s.count g p n).evaporators = s.evaporators := rfl
@[simp] theorem State.count_queries (g p n : Nat) : (s.count g p n).queries = s.queries := rfl
@[simp] theorem State.count_windows (g p n : Nat) : (s.count g p n).windows = s.windows := rfl
@[simp] theorem State.count_nextWindow (g p n : Nat) : (s.count g p n).nextWindow = s.nextWindow := rfl
@[simp] theorem State.count_order (g p n : Nat) : (s.count g p n).order = s.order := rfl
@[simp] theorem State.count_ledger (g p n : Nat) : (s.count g p n).ledger = s.ledger := rfl
@[simp] theorem State.count_cores (g p n : Nat) : (s.count g p n).cores = s.cores := rfl
@[simp] theorem State.count_messages (g p n : Nat) : (s.count g p n).messages = s.messages := rfl
@[simp] theorem State.count_runs (g p n : Nat) : (s.count g p n).runs = s.runs := rfl
@[simp] theorem State.count_nextRun (g p n : Nat) : (s.count g p n).nextRun = s.nextRun := rfl
@[simp] theorem State.count_streams (g p n : Nat) : (s.count g p n).streams = s.streams := rfl
@[simp] theorem State.count_nextStream (g p n : Nat) : (s.count g p n).nextStream = s.nextStream := rfl
@[simp] theorem State.count_channels (g p n : Nat) : (s.count g p n).channels = s.channels := rfl
@[simp] theorem State.count_memRate (g p n : Nat) : (s.count g p n).memRate = s.memRate := rfl
@[simp] theorem State.count_channelMib (g p n : Nat) : (s.count g p n).channelMib = s.channelMib := rfl
@[simp] theorem State.count_granary (g p n : Nat) : (s.count g p n).granary = s.granary := rfl
@[simp] theorem State.count_ownership (g p n : Nat) : (s.count g p n).ownership = s.ownership := rfl
@[simp] theorem State.count_badChunks (g p n : Nat) : (s.count g p n).badChunks = s.badChunks := rfl
@[simp] theorem State.count_modeA (g p n : Nat) : (s.count g p n).modeA = s.modeA := rfl
@[simp] theorem State.count_modeD (g p n : Nat) : (s.count g p n).modeD = s.modeD := rfl
@[simp] theorem State.count_served (g p n : Nat) : (s.count g p n).served = s.served := rfl
@[simp] theorem State.count_handleQueues (g p n : Nat) : (s.count g p n).handleQueues = s.handleQueues := rfl
@[simp] theorem State.count_crossings (g p n : Nat) : (s.count g p n).crossings = s.crossings := rfl
@[simp] theorem State.count_coulters (g p n : Nat) : (s.count g p n).coulters = s.coulters := rfl
@[simp] theorem State.count_units (g p n : Nat) : (s.count g p n).units = s.units := rfl
@[simp] theorem State.count_ports (g p n : Nat) : (s.count g p n).ports = s.ports := rfl
@[simp] theorem State.count_casc (g p n : Nat) : (s.count g p n).casc = s.casc := rfl
@[simp] theorem State.count_trust (g p n : Nat) : (s.count g p n).trust = s.trust := rfl
@[simp] theorem State.count_log (g p n : Nat) : (s.count g p n).log = s.log := rfl
@[simp] theorem State.count_trace (g p n : Nat) : (s.count g p n).trace = s.trace := rfl
@[simp] theorem State.count_counters (g p n : Nat) :
    (s.count g p n).counters = FMap.set s.counters (g * 1024 + p) (countUp g p (FMap.getD s.counters (g * 1024 + p) 0) n) := rfl
@[simp] theorem State.count_pert (g p n : Nat) : (s.count g p n).pert = s.pert := rfl
@[simp] theorem State.count_glob (g p n : Nat) : (s.count g p n).glob = s.glob := rfl
@[simp] theorem State.count_fns (g p n : Nat) : (s.count g p n).fns = s.fns := rfl
@[simp] theorem State.count_time (g p n : Nat) : (s.count g p n).time = s.time := rfl
@[simp] theorem State.count_board (g p n : Nat) : (s.count g p n).board = s.board := rfl

/-! ### withFront -/

@[simp] theorem State.withFront_pending (c : Instr) : (s.withFront c).pending = c :: s.pending := rfl
@[simp] theorem State.withFront_out (c : Instr) : (s.withFront c).out = s.out := rfl
@[simp] theorem State.withFront_fresh (c : Instr) : (s.withFront c).fresh = s.fresh := rfl
@[simp] theorem State.withFront_tbk (c : Instr) : (s.withFront c).tbk = s.tbk := rfl
@[simp] theorem State.withFront_rings (c : Instr) : (s.withFront c).rings = s.rings := rfl
@[simp] theorem State.withFront_skip (c : Instr) : (s.withFront c).skip = s.skip := rfl
@[simp] theorem State.withFront_lastServed (c : Instr) : (s.withFront c).lastServed = s.lastServed := rfl
@[simp] theorem State.withFront_cmds (c : Instr) : (s.withFront c).cmds = s.cmds := rfl
@[simp] theorem State.withFront_fields (c : Instr) : (s.withFront c).fields = s.fields := rfl
@[simp] theorem State.withFront_indexes (c : Instr) : (s.withFront c).indexes = s.indexes := rfl
@[simp] theorem State.withFront_compactQueue (c : Instr) : (s.withFront c).compactQueue = s.compactQueue := rfl
@[simp] theorem State.withFront_evaporators (c : Instr) : (s.withFront c).evaporators = s.evaporators := rfl
@[simp] theorem State.withFront_queries (c : Instr) : (s.withFront c).queries = s.queries := rfl
@[simp] theorem State.withFront_windows (c : Instr) : (s.withFront c).windows = s.windows := rfl
@[simp] theorem State.withFront_nextWindow (c : Instr) : (s.withFront c).nextWindow = s.nextWindow := rfl
@[simp] theorem State.withFront_order (c : Instr) : (s.withFront c).order = s.order := rfl
@[simp] theorem State.withFront_ledger (c : Instr) : (s.withFront c).ledger = s.ledger := rfl
@[simp] theorem State.withFront_cores (c : Instr) : (s.withFront c).cores = s.cores := rfl
@[simp] theorem State.withFront_messages (c : Instr) : (s.withFront c).messages = s.messages := rfl
@[simp] theorem State.withFront_runs (c : Instr) : (s.withFront c).runs = s.runs := rfl
@[simp] theorem State.withFront_nextRun (c : Instr) : (s.withFront c).nextRun = s.nextRun := rfl
@[simp] theorem State.withFront_streams (c : Instr) : (s.withFront c).streams = s.streams := rfl
@[simp] theorem State.withFront_nextStream (c : Instr) : (s.withFront c).nextStream = s.nextStream := rfl
@[simp] theorem State.withFront_channels (c : Instr) : (s.withFront c).channels = s.channels := rfl
@[simp] theorem State.withFront_memRate (c : Instr) : (s.withFront c).memRate = s.memRate := rfl
@[simp] theorem State.withFront_channelMib (c : Instr) : (s.withFront c).channelMib = s.channelMib := rfl
@[simp] theorem State.withFront_granary (c : Instr) : (s.withFront c).granary = s.granary := rfl
@[simp] theorem State.withFront_ownership (c : Instr) : (s.withFront c).ownership = s.ownership := rfl
@[simp] theorem State.withFront_badChunks (c : Instr) : (s.withFront c).badChunks = s.badChunks := rfl
@[simp] theorem State.withFront_modeA (c : Instr) : (s.withFront c).modeA = s.modeA := rfl
@[simp] theorem State.withFront_modeD (c : Instr) : (s.withFront c).modeD = s.modeD := rfl
@[simp] theorem State.withFront_served (c : Instr) : (s.withFront c).served = s.served := rfl
@[simp] theorem State.withFront_handleQueues (c : Instr) : (s.withFront c).handleQueues = s.handleQueues := rfl
@[simp] theorem State.withFront_crossings (c : Instr) : (s.withFront c).crossings = s.crossings := rfl
@[simp] theorem State.withFront_coulters (c : Instr) : (s.withFront c).coulters = s.coulters := rfl
@[simp] theorem State.withFront_units (c : Instr) : (s.withFront c).units = s.units := rfl
@[simp] theorem State.withFront_ports (c : Instr) : (s.withFront c).ports = s.ports := rfl
@[simp] theorem State.withFront_casc (c : Instr) : (s.withFront c).casc = s.casc := rfl
@[simp] theorem State.withFront_trust (c : Instr) : (s.withFront c).trust = s.trust := rfl
@[simp] theorem State.withFront_log (c : Instr) : (s.withFront c).log = s.log := rfl
@[simp] theorem State.withFront_trace (c : Instr) : (s.withFront c).trace = s.trace := rfl
@[simp] theorem State.withFront_counters (c : Instr) : (s.withFront c).counters = s.counters := rfl
@[simp] theorem State.withFront_pert (c : Instr) : (s.withFront c).pert = s.pert := rfl
@[simp] theorem State.withFront_glob (c : Instr) : (s.withFront c).glob = s.glob := rfl
@[simp] theorem State.withFront_fns (c : Instr) : (s.withFront c).fns = s.fns := rfl
@[simp] theorem State.withFront_time (c : Instr) : (s.withFront c).time = s.time := rfl
@[simp] theorem State.withFront_board (c : Instr) : (s.withFront c).board = s.board := rfl

/-! ### setQueue -/

@[simp] theorem State.setQueue_pending (n : Nat) (x : HandleQueue) : (s.setQueue n x).pending = s.pending := rfl
@[simp] theorem State.setQueue_out (n : Nat) (x : HandleQueue) : (s.setQueue n x).out = s.out := rfl
@[simp] theorem State.setQueue_fresh (n : Nat) (x : HandleQueue) : (s.setQueue n x).fresh = s.fresh := rfl
@[simp] theorem State.setQueue_tbk (n : Nat) (x : HandleQueue) : (s.setQueue n x).tbk = s.tbk := rfl
@[simp] theorem State.setQueue_rings (n : Nat) (x : HandleQueue) : (s.setQueue n x).rings = s.rings := rfl
@[simp] theorem State.setQueue_skip (n : Nat) (x : HandleQueue) : (s.setQueue n x).skip = s.skip := rfl
@[simp] theorem State.setQueue_lastServed (n : Nat) (x : HandleQueue) : (s.setQueue n x).lastServed = s.lastServed := rfl
@[simp] theorem State.setQueue_cmds (n : Nat) (x : HandleQueue) : (s.setQueue n x).cmds = s.cmds := rfl
@[simp] theorem State.setQueue_fields (n : Nat) (x : HandleQueue) : (s.setQueue n x).fields = s.fields := rfl
@[simp] theorem State.setQueue_indexes (n : Nat) (x : HandleQueue) : (s.setQueue n x).indexes = s.indexes := rfl
@[simp] theorem State.setQueue_compactQueue (n : Nat) (x : HandleQueue) : (s.setQueue n x).compactQueue = s.compactQueue := rfl
@[simp] theorem State.setQueue_evaporators (n : Nat) (x : HandleQueue) : (s.setQueue n x).evaporators = s.evaporators := rfl
@[simp] theorem State.setQueue_queries (n : Nat) (x : HandleQueue) : (s.setQueue n x).queries = s.queries := rfl
@[simp] theorem State.setQueue_windows (n : Nat) (x : HandleQueue) : (s.setQueue n x).windows = s.windows := rfl
@[simp] theorem State.setQueue_nextWindow (n : Nat) (x : HandleQueue) : (s.setQueue n x).nextWindow = s.nextWindow := rfl
@[simp] theorem State.setQueue_order (n : Nat) (x : HandleQueue) : (s.setQueue n x).order = s.order := rfl
@[simp] theorem State.setQueue_ledger (n : Nat) (x : HandleQueue) : (s.setQueue n x).ledger = s.ledger := rfl
@[simp] theorem State.setQueue_cores (n : Nat) (x : HandleQueue) : (s.setQueue n x).cores = s.cores := rfl
@[simp] theorem State.setQueue_messages (n : Nat) (x : HandleQueue) : (s.setQueue n x).messages = s.messages := rfl
@[simp] theorem State.setQueue_runs (n : Nat) (x : HandleQueue) : (s.setQueue n x).runs = s.runs := rfl
@[simp] theorem State.setQueue_nextRun (n : Nat) (x : HandleQueue) : (s.setQueue n x).nextRun = s.nextRun := rfl
@[simp] theorem State.setQueue_streams (n : Nat) (x : HandleQueue) : (s.setQueue n x).streams = s.streams := rfl
@[simp] theorem State.setQueue_nextStream (n : Nat) (x : HandleQueue) : (s.setQueue n x).nextStream = s.nextStream := rfl
@[simp] theorem State.setQueue_channels (n : Nat) (x : HandleQueue) : (s.setQueue n x).channels = s.channels := rfl
@[simp] theorem State.setQueue_memRate (n : Nat) (x : HandleQueue) : (s.setQueue n x).memRate = s.memRate := rfl
@[simp] theorem State.setQueue_channelMib (n : Nat) (x : HandleQueue) : (s.setQueue n x).channelMib = s.channelMib := rfl
@[simp] theorem State.setQueue_granary (n : Nat) (x : HandleQueue) : (s.setQueue n x).granary = s.granary := rfl
@[simp] theorem State.setQueue_ownership (n : Nat) (x : HandleQueue) : (s.setQueue n x).ownership = s.ownership := rfl
@[simp] theorem State.setQueue_badChunks (n : Nat) (x : HandleQueue) : (s.setQueue n x).badChunks = s.badChunks := rfl
@[simp] theorem State.setQueue_modeA (n : Nat) (x : HandleQueue) : (s.setQueue n x).modeA = s.modeA := rfl
@[simp] theorem State.setQueue_modeD (n : Nat) (x : HandleQueue) : (s.setQueue n x).modeD = s.modeD := rfl
@[simp] theorem State.setQueue_served (n : Nat) (x : HandleQueue) : (s.setQueue n x).served = s.served := rfl
@[simp] theorem State.setQueue_handleQueues (n : Nat) (x : HandleQueue) : (s.setQueue n x).handleQueues = FMap.set s.handleQueues n x := rfl
@[simp] theorem State.setQueue_crossings (n : Nat) (x : HandleQueue) : (s.setQueue n x).crossings = s.crossings := rfl
@[simp] theorem State.setQueue_coulters (n : Nat) (x : HandleQueue) : (s.setQueue n x).coulters = s.coulters := rfl
@[simp] theorem State.setQueue_units (n : Nat) (x : HandleQueue) : (s.setQueue n x).units = s.units := rfl
@[simp] theorem State.setQueue_ports (n : Nat) (x : HandleQueue) : (s.setQueue n x).ports = s.ports := rfl
@[simp] theorem State.setQueue_casc (n : Nat) (x : HandleQueue) : (s.setQueue n x).casc = s.casc := rfl
@[simp] theorem State.setQueue_trust (n : Nat) (x : HandleQueue) : (s.setQueue n x).trust = s.trust := rfl
@[simp] theorem State.setQueue_log (n : Nat) (x : HandleQueue) : (s.setQueue n x).log = s.log := rfl
@[simp] theorem State.setQueue_trace (n : Nat) (x : HandleQueue) : (s.setQueue n x).trace = s.trace := rfl
@[simp] theorem State.setQueue_counters (n : Nat) (x : HandleQueue) : (s.setQueue n x).counters = s.counters := rfl
@[simp] theorem State.setQueue_pert (n : Nat) (x : HandleQueue) : (s.setQueue n x).pert = s.pert := rfl
@[simp] theorem State.setQueue_glob (n : Nat) (x : HandleQueue) : (s.setQueue n x).glob = s.glob := rfl
@[simp] theorem State.setQueue_fns (n : Nat) (x : HandleQueue) : (s.setQueue n x).fns = s.fns := rfl
@[simp] theorem State.setQueue_time (n : Nat) (x : HandleQueue) : (s.setQueue n x).time = s.time := rfl
@[simp] theorem State.setQueue_board (n : Nat) (x : HandleQueue) : (s.setQueue n x).board = s.board := rfl

/-! ### setCrossing -/

@[simp] theorem State.setCrossing_pending (n : Nat) (x : Crossing) : (s.setCrossing n x).pending = s.pending := rfl
@[simp] theorem State.setCrossing_out (n : Nat) (x : Crossing) : (s.setCrossing n x).out = s.out := rfl
@[simp] theorem State.setCrossing_fresh (n : Nat) (x : Crossing) : (s.setCrossing n x).fresh = s.fresh := rfl
@[simp] theorem State.setCrossing_tbk (n : Nat) (x : Crossing) : (s.setCrossing n x).tbk = s.tbk := rfl
@[simp] theorem State.setCrossing_rings (n : Nat) (x : Crossing) : (s.setCrossing n x).rings = s.rings := rfl
@[simp] theorem State.setCrossing_skip (n : Nat) (x : Crossing) : (s.setCrossing n x).skip = s.skip := rfl
@[simp] theorem State.setCrossing_lastServed (n : Nat) (x : Crossing) : (s.setCrossing n x).lastServed = s.lastServed := rfl
@[simp] theorem State.setCrossing_cmds (n : Nat) (x : Crossing) : (s.setCrossing n x).cmds = s.cmds := rfl
@[simp] theorem State.setCrossing_fields (n : Nat) (x : Crossing) : (s.setCrossing n x).fields = s.fields := rfl
@[simp] theorem State.setCrossing_indexes (n : Nat) (x : Crossing) : (s.setCrossing n x).indexes = s.indexes := rfl
@[simp] theorem State.setCrossing_compactQueue (n : Nat) (x : Crossing) : (s.setCrossing n x).compactQueue = s.compactQueue := rfl
@[simp] theorem State.setCrossing_evaporators (n : Nat) (x : Crossing) : (s.setCrossing n x).evaporators = s.evaporators := rfl
@[simp] theorem State.setCrossing_queries (n : Nat) (x : Crossing) : (s.setCrossing n x).queries = s.queries := rfl
@[simp] theorem State.setCrossing_windows (n : Nat) (x : Crossing) : (s.setCrossing n x).windows = s.windows := rfl
@[simp] theorem State.setCrossing_nextWindow (n : Nat) (x : Crossing) : (s.setCrossing n x).nextWindow = s.nextWindow := rfl
@[simp] theorem State.setCrossing_order (n : Nat) (x : Crossing) : (s.setCrossing n x).order = s.order := rfl
@[simp] theorem State.setCrossing_ledger (n : Nat) (x : Crossing) : (s.setCrossing n x).ledger = s.ledger := rfl
@[simp] theorem State.setCrossing_cores (n : Nat) (x : Crossing) : (s.setCrossing n x).cores = s.cores := rfl
@[simp] theorem State.setCrossing_messages (n : Nat) (x : Crossing) : (s.setCrossing n x).messages = s.messages := rfl
@[simp] theorem State.setCrossing_runs (n : Nat) (x : Crossing) : (s.setCrossing n x).runs = s.runs := rfl
@[simp] theorem State.setCrossing_nextRun (n : Nat) (x : Crossing) : (s.setCrossing n x).nextRun = s.nextRun := rfl
@[simp] theorem State.setCrossing_streams (n : Nat) (x : Crossing) : (s.setCrossing n x).streams = s.streams := rfl
@[simp] theorem State.setCrossing_nextStream (n : Nat) (x : Crossing) : (s.setCrossing n x).nextStream = s.nextStream := rfl
@[simp] theorem State.setCrossing_channels (n : Nat) (x : Crossing) : (s.setCrossing n x).channels = s.channels := rfl
@[simp] theorem State.setCrossing_memRate (n : Nat) (x : Crossing) : (s.setCrossing n x).memRate = s.memRate := rfl
@[simp] theorem State.setCrossing_channelMib (n : Nat) (x : Crossing) : (s.setCrossing n x).channelMib = s.channelMib := rfl
@[simp] theorem State.setCrossing_granary (n : Nat) (x : Crossing) : (s.setCrossing n x).granary = s.granary := rfl
@[simp] theorem State.setCrossing_ownership (n : Nat) (x : Crossing) : (s.setCrossing n x).ownership = s.ownership := rfl
@[simp] theorem State.setCrossing_badChunks (n : Nat) (x : Crossing) : (s.setCrossing n x).badChunks = s.badChunks := rfl
@[simp] theorem State.setCrossing_modeA (n : Nat) (x : Crossing) : (s.setCrossing n x).modeA = s.modeA := rfl
@[simp] theorem State.setCrossing_modeD (n : Nat) (x : Crossing) : (s.setCrossing n x).modeD = s.modeD := rfl
@[simp] theorem State.setCrossing_served (n : Nat) (x : Crossing) : (s.setCrossing n x).served = s.served := rfl
@[simp] theorem State.setCrossing_handleQueues (n : Nat) (x : Crossing) : (s.setCrossing n x).handleQueues = s.handleQueues := rfl
@[simp] theorem State.setCrossing_crossings (n : Nat) (x : Crossing) : (s.setCrossing n x).crossings = FMap.set s.crossings n x := rfl
@[simp] theorem State.setCrossing_coulters (n : Nat) (x : Crossing) : (s.setCrossing n x).coulters = s.coulters := rfl
@[simp] theorem State.setCrossing_units (n : Nat) (x : Crossing) : (s.setCrossing n x).units = s.units := rfl
@[simp] theorem State.setCrossing_ports (n : Nat) (x : Crossing) : (s.setCrossing n x).ports = s.ports := rfl
@[simp] theorem State.setCrossing_casc (n : Nat) (x : Crossing) : (s.setCrossing n x).casc = s.casc := rfl
@[simp] theorem State.setCrossing_trust (n : Nat) (x : Crossing) : (s.setCrossing n x).trust = s.trust := rfl
@[simp] theorem State.setCrossing_log (n : Nat) (x : Crossing) : (s.setCrossing n x).log = s.log := rfl
@[simp] theorem State.setCrossing_trace (n : Nat) (x : Crossing) : (s.setCrossing n x).trace = s.trace := rfl
@[simp] theorem State.setCrossing_counters (n : Nat) (x : Crossing) : (s.setCrossing n x).counters = s.counters := rfl
@[simp] theorem State.setCrossing_pert (n : Nat) (x : Crossing) : (s.setCrossing n x).pert = s.pert := rfl
@[simp] theorem State.setCrossing_glob (n : Nat) (x : Crossing) : (s.setCrossing n x).glob = s.glob := rfl
@[simp] theorem State.setCrossing_fns (n : Nat) (x : Crossing) : (s.setCrossing n x).fns = s.fns := rfl
@[simp] theorem State.setCrossing_time (n : Nat) (x : Crossing) : (s.setCrossing n x).time = s.time := rfl
@[simp] theorem State.setCrossing_board (n : Nat) (x : Crossing) : (s.setCrossing n x).board = s.board := rfl

/-! ### Accessors after an update -/

theorem State.ring_setRing (r r' : Nat) (x : Ring) : (s.setRing r x).ring r' = if r = r' then x else s.ring r' :=
  FMap.getD_set _ _ _ _ _
theorem State.core_setCore (c c' : Nat) (x : Core) : (s.setCore c x).core c' = if c = c' then x else s.core c' :=
  FMap.getD_set _ _ _ _ _
theorem State.channel_setChannel (c c' : Nat) (x : Channel) :
    (s.setChannel c x).channel c' = if c = c' then x else s.channel c' := FMap.getD_set _ _ _ _ _
theorem State.port_setPort (p p' : Nat) (x : Port) : (s.setPort p x).port p' = if p = p' then x else s.port p' :=
  FMap.getD_set _ _ _ _ _
theorem Core.thread_setThread (c : Core) (t t' : Nat) (x : Thread) :
    (c.setThread t x).thread t' = if t = t' then x else c.thread t' := FMap.getD_set _ _ _ _ _
theorem State.field?_setField (f f' : Nat) (x : Field) :
    (s.setField f x).field? f' = if f = f' then some x else s.field? f' := FMap.get?_set _ _ _ _
theorem State.fn_setFn (n n' : Nat) (x : FnRegs) : (s.setFn n x).fn n' = if n = n' then x else s.fn n' := by
  unfold State.fn State.setFn
  rw [FMap.getD_set]
theorem State.unit_setUnit (t n t' n' : Nat) (u : UnitRec) :
    (s.setUnit t n u).unit t' n' = if unitKey t n = unitKey t' n' then u else s.unit t' n' := by
  unfold State.unit State.setUnit
  rw [FMap.getD_set]

/-- A change of a field that exists is seen in that field only; of one that does not exist, nowhere. -/
theorem State.field?_modField (f f' : Nat) (g : Field → Field) :
    (s.modField f g).field? f' = if f = f' then (s.field? f).map g else s.field? f' := by
  unfold State.modField
  cases h : s.field? f with
  | none =>
    by_cases e : f = f'
    · subst e; simp [h]
    · simp [e]
  | some x =>
    simp only [State.field?_setField, Option.map_some]

/-! ### modField -/

@[simp] theorem State.modField_pending (f : Nat) (g : Field → Field) : (s.modField f g).pending = s.pending := by
  unfold State.modField; split <;> rfl
@[simp] theorem State.modField_out (f : Nat) (g : Field → Field) : (s.modField f g).out = s.out := by
  unfold State.modField; split <;> rfl
@[simp] theorem State.modField_fresh (f : Nat) (g : Field → Field) : (s.modField f g).fresh = s.fresh := by
  unfold State.modField; split <;> rfl
@[simp] theorem State.modField_tbk (f : Nat) (g : Field → Field) : (s.modField f g).tbk = s.tbk := by
  unfold State.modField; split <;> rfl
@[simp] theorem State.modField_rings (f : Nat) (g : Field → Field) : (s.modField f g).rings = s.rings := by
  unfold State.modField; split <;> rfl
@[simp] theorem State.modField_skip (f : Nat) (g : Field → Field) : (s.modField f g).skip = s.skip := by
  unfold State.modField; split <;> rfl
@[simp] theorem State.modField_lastServed (f : Nat) (g : Field → Field) : (s.modField f g).lastServed = s.lastServed := by
  unfold State.modField; split <;> rfl
@[simp] theorem State.modField_cmds (f : Nat) (g : Field → Field) : (s.modField f g).cmds = s.cmds := by
  unfold State.modField; split <;> rfl
@[simp] theorem State.modField_indexes (f : Nat) (g : Field → Field) : (s.modField f g).indexes = s.indexes := by
  unfold State.modField; split <;> rfl
@[simp] theorem State.modField_compactQueue (f : Nat) (g : Field → Field) : (s.modField f g).compactQueue = s.compactQueue := by
  unfold State.modField; split <;> rfl
@[simp] theorem State.modField_evaporators (f : Nat) (g : Field → Field) : (s.modField f g).evaporators = s.evaporators := by
  unfold State.modField; split <;> rfl
@[simp] theorem State.modField_queries (f : Nat) (g : Field → Field) : (s.modField f g).queries = s.queries := by
  unfold State.modField; split <;> rfl
@[simp] theorem State.modField_windows (f : Nat) (g : Field → Field) : (s.modField f g).windows = s.windows := by
  unfold State.modField; split <;> rfl
@[simp] theorem State.modField_nextWindow (f : Nat) (g : Field → Field) : (s.modField f g).nextWindow = s.nextWindow := by
  unfold State.modField; split <;> rfl
@[simp] theorem State.modField_order (f : Nat) (g : Field → Field) : (s.modField f g).order = s.order := by
  unfold State.modField; split <;> rfl
@[simp] theorem State.modField_ledger (f : Nat) (g : Field → Field) : (s.modField f g).ledger = s.ledger := by
  unfold State.modField; split <;> rfl
@[simp] theorem State.modField_cores (f : Nat) (g : Field → Field) : (s.modField f g).cores = s.cores := by
  unfold State.modField; split <;> rfl
@[simp] theorem State.modField_messages (f : Nat) (g : Field → Field) : (s.modField f g).messages = s.messages := by
  unfold State.modField; split <;> rfl
@[simp] theorem State.modField_runs (f : Nat) (g : Field → Field) : (s.modField f g).runs = s.runs := by
  unfold State.modField; split <;> rfl
@[simp] theorem State.modField_nextRun (f : Nat) (g : Field → Field) : (s.modField f g).nextRun = s.nextRun := by
  unfold State.modField; split <;> rfl
@[simp] theorem State.modField_streams (f : Nat) (g : Field → Field) : (s.modField f g).streams = s.streams := by
  unfold State.modField; split <;> rfl
@[simp] theorem State.modField_nextStream (f : Nat) (g : Field → Field) : (s.modField f g).nextStream = s.nextStream := by
  unfold State.modField; split <;> rfl
@[simp] theorem State.modField_channels (f : Nat) (g : Field → Field) : (s.modField f g).channels = s.channels := by
  unfold State.modField; split <;> rfl
@[simp] theorem State.modField_memRate (f : Nat) (g : Field → Field) : (s.modField f g).memRate = s.memRate := by
  unfold State.modField; split <;> rfl
@[simp] theorem State.modField_channelMib (f : Nat) (g : Field → Field) : (s.modField f g).channelMib = s.channelMib := by
  unfold State.modField; split <;> rfl
@[simp] theorem State.modField_granary (f : Nat) (g : Field → Field) : (s.modField f g).granary = s.granary := by
  unfold State.modField; split <;> rfl
@[simp] theorem State.modField_ownership (f : Nat) (g : Field → Field) : (s.modField f g).ownership = s.ownership := by
  unfold State.modField; split <;> rfl
@[simp] theorem State.modField_badChunks (f : Nat) (g : Field → Field) : (s.modField f g).badChunks = s.badChunks := by
  unfold State.modField; split <;> rfl
@[simp] theorem State.modField_modeA (f : Nat) (g : Field → Field) : (s.modField f g).modeA = s.modeA := by
  unfold State.modField; split <;> rfl
@[simp] theorem State.modField_modeD (f : Nat) (g : Field → Field) : (s.modField f g).modeD = s.modeD := by
  unfold State.modField; split <;> rfl
@[simp] theorem State.modField_served (f : Nat) (g : Field → Field) : (s.modField f g).served = s.served := by
  unfold State.modField; split <;> rfl
@[simp] theorem State.modField_handleQueues (f : Nat) (g : Field → Field) : (s.modField f g).handleQueues = s.handleQueues := by
  unfold State.modField; split <;> rfl
@[simp] theorem State.modField_crossings (f : Nat) (g : Field → Field) : (s.modField f g).crossings = s.crossings := by
  unfold State.modField; split <;> rfl
@[simp] theorem State.modField_coulters (f : Nat) (g : Field → Field) : (s.modField f g).coulters = s.coulters := by
  unfold State.modField; split <;> rfl
@[simp] theorem State.modField_units (f : Nat) (g : Field → Field) : (s.modField f g).units = s.units := by
  unfold State.modField; split <;> rfl
@[simp] theorem State.modField_ports (f : Nat) (g : Field → Field) : (s.modField f g).ports = s.ports := by
  unfold State.modField; split <;> rfl
@[simp] theorem State.modField_casc (f : Nat) (g : Field → Field) : (s.modField f g).casc = s.casc := by
  unfold State.modField; split <;> rfl
@[simp] theorem State.modField_trust (f : Nat) (g : Field → Field) : (s.modField f g).trust = s.trust := by
  unfold State.modField; split <;> rfl
@[simp] theorem State.modField_log (f : Nat) (g : Field → Field) : (s.modField f g).log = s.log := by
  unfold State.modField; split <;> rfl
@[simp] theorem State.modField_trace (f : Nat) (g : Field → Field) : (s.modField f g).trace = s.trace := by
  unfold State.modField; split <;> rfl
@[simp] theorem State.modField_counters (f : Nat) (g : Field → Field) : (s.modField f g).counters = s.counters := by
  unfold State.modField; split <;> rfl
@[simp] theorem State.modField_pert (f : Nat) (g : Field → Field) : (s.modField f g).pert = s.pert := by
  unfold State.modField; split <;> rfl
@[simp] theorem State.modField_glob (f : Nat) (g : Field → Field) : (s.modField f g).glob = s.glob := by
  unfold State.modField; split <;> rfl
@[simp] theorem State.modField_fns (f : Nat) (g : Field → Field) : (s.modField f g).fns = s.fns := by
  unfold State.modField; split <;> rfl
@[simp] theorem State.modField_time (f : Nat) (g : Field → Field) : (s.modField f g).time = s.time := by
  unfold State.modField; split <;> rfl
@[simp] theorem State.modField_board (f : Nat) (g : Field → Field) : (s.modField f g).board = s.board := by
  unfold State.modField; split <;> rfl

/-! ### modIndex -/

@[simp] theorem State.modIndex_pending (k : Nat) (g : Index → Index) : (s.modIndex k g).pending = s.pending := by
  unfold State.modIndex; split <;> rfl
@[simp] theorem State.modIndex_out (k : Nat) (g : Index → Index) : (s.modIndex k g).out = s.out := by
  unfold State.modIndex; split <;> rfl
@[simp] theorem State.modIndex_fresh (k : Nat) (g : Index → Index) : (s.modIndex k g).fresh = s.fresh := by
  unfold State.modIndex; split <;> rfl
@[simp] theorem State.modIndex_tbk (k : Nat) (g : Index → Index) : (s.modIndex k g).tbk = s.tbk := by
  unfold State.modIndex; split <;> rfl
@[simp] theorem State.modIndex_rings (k : Nat) (g : Index → Index) : (s.modIndex k g).rings = s.rings := by
  unfold State.modIndex; split <;> rfl
@[simp] theorem State.modIndex_skip (k : Nat) (g : Index → Index) : (s.modIndex k g).skip = s.skip := by
  unfold State.modIndex; split <;> rfl
@[simp] theorem State.modIndex_lastServed (k : Nat) (g : Index → Index) : (s.modIndex k g).lastServed = s.lastServed := by
  unfold State.modIndex; split <;> rfl
@[simp] theorem State.modIndex_cmds (k : Nat) (g : Index → Index) : (s.modIndex k g).cmds = s.cmds := by
  unfold State.modIndex; split <;> rfl
@[simp] theorem State.modIndex_fields (k : Nat) (g : Index → Index) : (s.modIndex k g).fields = s.fields := by
  unfold State.modIndex; split <;> rfl
@[simp] theorem State.modIndex_compactQueue (k : Nat) (g : Index → Index) : (s.modIndex k g).compactQueue = s.compactQueue := by
  unfold State.modIndex; split <;> rfl
@[simp] theorem State.modIndex_evaporators (k : Nat) (g : Index → Index) : (s.modIndex k g).evaporators = s.evaporators := by
  unfold State.modIndex; split <;> rfl
@[simp] theorem State.modIndex_queries (k : Nat) (g : Index → Index) : (s.modIndex k g).queries = s.queries := by
  unfold State.modIndex; split <;> rfl
@[simp] theorem State.modIndex_windows (k : Nat) (g : Index → Index) : (s.modIndex k g).windows = s.windows := by
  unfold State.modIndex; split <;> rfl
@[simp] theorem State.modIndex_nextWindow (k : Nat) (g : Index → Index) : (s.modIndex k g).nextWindow = s.nextWindow := by
  unfold State.modIndex; split <;> rfl
@[simp] theorem State.modIndex_order (k : Nat) (g : Index → Index) : (s.modIndex k g).order = s.order := by
  unfold State.modIndex; split <;> rfl
@[simp] theorem State.modIndex_ledger (k : Nat) (g : Index → Index) : (s.modIndex k g).ledger = s.ledger := by
  unfold State.modIndex; split <;> rfl
@[simp] theorem State.modIndex_cores (k : Nat) (g : Index → Index) : (s.modIndex k g).cores = s.cores := by
  unfold State.modIndex; split <;> rfl
@[simp] theorem State.modIndex_messages (k : Nat) (g : Index → Index) : (s.modIndex k g).messages = s.messages := by
  unfold State.modIndex; split <;> rfl
@[simp] theorem State.modIndex_runs (k : Nat) (g : Index → Index) : (s.modIndex k g).runs = s.runs := by
  unfold State.modIndex; split <;> rfl
@[simp] theorem State.modIndex_nextRun (k : Nat) (g : Index → Index) : (s.modIndex k g).nextRun = s.nextRun := by
  unfold State.modIndex; split <;> rfl
@[simp] theorem State.modIndex_streams (k : Nat) (g : Index → Index) : (s.modIndex k g).streams = s.streams := by
  unfold State.modIndex; split <;> rfl
@[simp] theorem State.modIndex_nextStream (k : Nat) (g : Index → Index) : (s.modIndex k g).nextStream = s.nextStream := by
  unfold State.modIndex; split <;> rfl
@[simp] theorem State.modIndex_channels (k : Nat) (g : Index → Index) : (s.modIndex k g).channels = s.channels := by
  unfold State.modIndex; split <;> rfl
@[simp] theorem State.modIndex_memRate (k : Nat) (g : Index → Index) : (s.modIndex k g).memRate = s.memRate := by
  unfold State.modIndex; split <;> rfl
@[simp] theorem State.modIndex_channelMib (k : Nat) (g : Index → Index) : (s.modIndex k g).channelMib = s.channelMib := by
  unfold State.modIndex; split <;> rfl
@[simp] theorem State.modIndex_granary (k : Nat) (g : Index → Index) : (s.modIndex k g).granary = s.granary := by
  unfold State.modIndex; split <;> rfl
@[simp] theorem State.modIndex_ownership (k : Nat) (g : Index → Index) : (s.modIndex k g).ownership = s.ownership := by
  unfold State.modIndex; split <;> rfl
@[simp] theorem State.modIndex_badChunks (k : Nat) (g : Index → Index) : (s.modIndex k g).badChunks = s.badChunks := by
  unfold State.modIndex; split <;> rfl
@[simp] theorem State.modIndex_modeA (k : Nat) (g : Index → Index) : (s.modIndex k g).modeA = s.modeA := by
  unfold State.modIndex; split <;> rfl
@[simp] theorem State.modIndex_modeD (k : Nat) (g : Index → Index) : (s.modIndex k g).modeD = s.modeD := by
  unfold State.modIndex; split <;> rfl
@[simp] theorem State.modIndex_served (k : Nat) (g : Index → Index) : (s.modIndex k g).served = s.served := by
  unfold State.modIndex; split <;> rfl
@[simp] theorem State.modIndex_handleQueues (k : Nat) (g : Index → Index) : (s.modIndex k g).handleQueues = s.handleQueues := by
  unfold State.modIndex; split <;> rfl
@[simp] theorem State.modIndex_crossings (k : Nat) (g : Index → Index) : (s.modIndex k g).crossings = s.crossings := by
  unfold State.modIndex; split <;> rfl
@[simp] theorem State.modIndex_coulters (k : Nat) (g : Index → Index) : (s.modIndex k g).coulters = s.coulters := by
  unfold State.modIndex; split <;> rfl
@[simp] theorem State.modIndex_units (k : Nat) (g : Index → Index) : (s.modIndex k g).units = s.units := by
  unfold State.modIndex; split <;> rfl
@[simp] theorem State.modIndex_ports (k : Nat) (g : Index → Index) : (s.modIndex k g).ports = s.ports := by
  unfold State.modIndex; split <;> rfl
@[simp] theorem State.modIndex_casc (k : Nat) (g : Index → Index) : (s.modIndex k g).casc = s.casc := by
  unfold State.modIndex; split <;> rfl
@[simp] theorem State.modIndex_trust (k : Nat) (g : Index → Index) : (s.modIndex k g).trust = s.trust := by
  unfold State.modIndex; split <;> rfl
@[simp] theorem State.modIndex_log (k : Nat) (g : Index → Index) : (s.modIndex k g).log = s.log := by
  unfold State.modIndex; split <;> rfl
@[simp] theorem State.modIndex_trace (k : Nat) (g : Index → Index) : (s.modIndex k g).trace = s.trace := by
  unfold State.modIndex; split <;> rfl
@[simp] theorem State.modIndex_counters (k : Nat) (g : Index → Index) : (s.modIndex k g).counters = s.counters := by
  unfold State.modIndex; split <;> rfl
@[simp] theorem State.modIndex_pert (k : Nat) (g : Index → Index) : (s.modIndex k g).pert = s.pert := by
  unfold State.modIndex; split <;> rfl
@[simp] theorem State.modIndex_glob (k : Nat) (g : Index → Index) : (s.modIndex k g).glob = s.glob := by
  unfold State.modIndex; split <;> rfl
@[simp] theorem State.modIndex_fns (k : Nat) (g : Index → Index) : (s.modIndex k g).fns = s.fns := by
  unfold State.modIndex; split <;> rfl
@[simp] theorem State.modIndex_time (k : Nat) (g : Index → Index) : (s.modIndex k g).time = s.time := by
  unfold State.modIndex; split <;> rfl
@[simp] theorem State.modIndex_board (k : Nat) (g : Index → Index) : (s.modIndex k g).board = s.board := by
  unfold State.modIndex; split <;> rfl

/-! ### countField -/

@[simp] theorem State.countField_pending (f p n : Nat) : (s.countField f p n).pending = s.pending := by
  unfold State.countField; simp
@[simp] theorem State.countField_out (f p n : Nat) : (s.countField f p n).out = s.out := by
  unfold State.countField; simp
@[simp] theorem State.countField_fresh (f p n : Nat) : (s.countField f p n).fresh = s.fresh := by
  unfold State.countField; simp
@[simp] theorem State.countField_tbk (f p n : Nat) : (s.countField f p n).tbk = s.tbk := by
  unfold State.countField; simp
@[simp] theorem State.countField_rings (f p n : Nat) : (s.countField f p n).rings = s.rings := by
  unfold State.countField; simp
@[simp] theorem State.countField_skip (f p n : Nat) : (s.countField f p n).skip = s.skip := by
  unfold State.countField; simp
@[simp] theorem State.countField_lastServed (f p n : Nat) : (s.countField f p n).lastServed = s.lastServed := by
  unfold State.countField; simp
@[simp] theorem State.countField_cmds (f p n : Nat) : (s.countField f p n).cmds = s.cmds := by
  unfold State.countField; simp
@[simp] theorem State.countField_indexes (f p n : Nat) : (s.countField f p n).indexes = s.indexes := by
  unfold State.countField; simp
@[simp] theorem State.countField_compactQueue (f p n : Nat) : (s.countField f p n).compactQueue = s.compactQueue := by
  unfold State.countField; simp
@[simp] theorem State.countField_evaporators (f p n : Nat) : (s.countField f p n).evaporators = s.evaporators := by
  unfold State.countField; simp
@[simp] theorem State.countField_queries (f p n : Nat) : (s.countField f p n).queries = s.queries := by
  unfold State.countField; simp
@[simp] theorem State.countField_windows (f p n : Nat) : (s.countField f p n).windows = s.windows := by
  unfold State.countField; simp
@[simp] theorem State.countField_nextWindow (f p n : Nat) : (s.countField f p n).nextWindow = s.nextWindow := by
  unfold State.countField; simp
@[simp] theorem State.countField_order (f p n : Nat) : (s.countField f p n).order = s.order := by
  unfold State.countField; simp
@[simp] theorem State.countField_ledger (f p n : Nat) : (s.countField f p n).ledger = s.ledger := by
  unfold State.countField; simp
@[simp] theorem State.countField_cores (f p n : Nat) : (s.countField f p n).cores = s.cores := by
  unfold State.countField; simp
@[simp] theorem State.countField_messages (f p n : Nat) : (s.countField f p n).messages = s.messages := by
  unfold State.countField; simp
@[simp] theorem State.countField_runs (f p n : Nat) : (s.countField f p n).runs = s.runs := by
  unfold State.countField; simp
@[simp] theorem State.countField_nextRun (f p n : Nat) : (s.countField f p n).nextRun = s.nextRun := by
  unfold State.countField; simp
@[simp] theorem State.countField_streams (f p n : Nat) : (s.countField f p n).streams = s.streams := by
  unfold State.countField; simp
@[simp] theorem State.countField_nextStream (f p n : Nat) : (s.countField f p n).nextStream = s.nextStream := by
  unfold State.countField; simp
@[simp] theorem State.countField_channels (f p n : Nat) : (s.countField f p n).channels = s.channels := by
  unfold State.countField; simp
@[simp] theorem State.countField_memRate (f p n : Nat) : (s.countField f p n).memRate = s.memRate := by
  unfold State.countField; simp
@[simp] theorem State.countField_channelMib (f p n : Nat) : (s.countField f p n).channelMib = s.channelMib := by
  unfold State.countField; simp
@[simp] theorem State.countField_granary (f p n : Nat) : (s.countField f p n).granary = s.granary := by
  unfold State.countField; simp
@[simp] theorem State.countField_ownership (f p n : Nat) : (s.countField f p n).ownership = s.ownership := by
  unfold State.countField; simp
@[simp] theorem State.countField_badChunks (f p n : Nat) : (s.countField f p n).badChunks = s.badChunks := by
  unfold State.countField; simp
@[simp] theorem State.countField_modeA (f p n : Nat) : (s.countField f p n).modeA = s.modeA := by
  unfold State.countField; simp
@[simp] theorem State.countField_modeD (f p n : Nat) : (s.countField f p n).modeD = s.modeD := by
  unfold State.countField; simp
@[simp] theorem State.countField_served (f p n : Nat) : (s.countField f p n).served = s.served := by
  unfold State.countField; simp
@[simp] theorem State.countField_handleQueues (f p n : Nat) : (s.countField f p n).handleQueues = s.handleQueues := by
  unfold State.countField; simp
@[simp] theorem State.countField_crossings (f p n : Nat) : (s.countField f p n).crossings = s.crossings := by
  unfold State.countField; simp
@[simp] theorem State.countField_coulters (f p n : Nat) : (s.countField f p n).coulters = s.coulters := by
  unfold State.countField; simp
@[simp] theorem State.countField_units (f p n : Nat) : (s.countField f p n).units = s.units := by
  unfold State.countField; simp
@[simp] theorem State.countField_ports (f p n : Nat) : (s.countField f p n).ports = s.ports := by
  unfold State.countField; simp
@[simp] theorem State.countField_casc (f p n : Nat) : (s.countField f p n).casc = s.casc := by
  unfold State.countField; simp
@[simp] theorem State.countField_trust (f p n : Nat) : (s.countField f p n).trust = s.trust := by
  unfold State.countField; simp
@[simp] theorem State.countField_log (f p n : Nat) : (s.countField f p n).log = s.log := by
  unfold State.countField; simp
@[simp] theorem State.countField_trace (f p n : Nat) : (s.countField f p n).trace = s.trace := by
  unfold State.countField; simp
@[simp] theorem State.countField_counters (f p n : Nat) : (s.countField f p n).counters = s.counters := by
  unfold State.countField; simp
@[simp] theorem State.countField_pert (f p n : Nat) : (s.countField f p n).pert = s.pert := by
  unfold State.countField; simp
@[simp] theorem State.countField_glob (f p n : Nat) : (s.countField f p n).glob = s.glob := by
  unfold State.countField; simp
@[simp] theorem State.countField_fns (f p n : Nat) : (s.countField f p n).fns = s.fns := by
  unfold State.countField; simp
@[simp] theorem State.countField_time (f p n : Nat) : (s.countField f p n).time = s.time := by
  unfold State.countField; simp
@[simp] theorem State.countField_board (f p n : Nat) : (s.countField f p n).board = s.board := by
  unfold State.countField; simp

end Sys2Proof.Machine
end

