-- ==== Sys2Proof/Tests/Slice0.lean ====
section
/-! SUPPORT. Own tests: commands that the check of Part refuses, and for every statement with hypotheses a concrete state
and operands that meet them. -/

namespace Sys2Proof.Tests

open Sys2Proof.Machine

-- One thread: the witnesses' kernel evaluations would otherwise each hold a stack of their own.
set_option Elab.async false

/-- A value that meets p, from an evaluation. -/
theorem some_of_any {α : Type} {o : Option α} {p : α → Bool} (h : o.any p = true) : ∃ u, o = some u ∧ p u = true :=
  (Option.any_eq_true _ _).1 h

/-! ### Ill-formed commands -/

theorem test_illformed_ring : Instr.wellFormed (.sqTailWrite 129 0) = false := by decide
theorem test_illformed_fn : Instr.wellFormed (.tbNowRead 16) = false := by decide
theorem test_illformed_vfn : Instr.wellFormed (.flrVirtualFunction 0) = false := by decide
theorem test_illformed_unit : Instr.wellFormed (.unitError 12 0 0) = false := by decide
theorem test_illformed_any_unit : Instr.wellFormed (.unitSelfTestEnd 12 128 true true) = false := by decide
theorem test_illformed_thread : Instr.wellFormed (.add 0 8) = false := by decide
theorem test_illformed_channel : Instr.wellFormed (.refresh 16) = false := by decide

/-! ### States to start from -/

/-- A device whose firmware runs, at 1 ms of TBK. -/
def live : State :=
  { State.reset with
    tbk := 1000000, memRate := 28, channelMib := 16
    board := { Board.inReset with sysResetN := true, perstN := true, qspiOn := true, gddrOn := true, vidDriven := true }
    trust := { Trust.reset [] [] with bootCode := 0, fw := some ⟨0, 1, 0⟩, resolved := true }
    glob := { State.reset.glob with ready := true } }
/-- A configuration with room. -/
def cfg1 : FieldCfg := { FieldCfg.reset with maxIndexes := 4, gddrPages := 64, poolPages := 16 }
/-- A live device with field 1. -/
def live1 : State := live.setField 1 (Field.fresh cfg1)
/-- An enabled ring with room for 64 packets. -/
def ring1 : Ring := { Ring.reset with enable := true, sqBase := 0x10000, cqBase := 0x20000 }
/-- Transfers that succeed, with a block. -/
def dma (b : Bytes) : Dma := ⟨some b, true, true⟩
/-- A packet with values at offsets: (offset, bytes, value). -/
def pkt (op : Nat) (l : List (Nat × Nat × Nat)) : Bytes :=
  l.foldl (fun b e => overlay b e.1 (leBytes e.2.1 e.2.2)) (overlay (zeros 64) 0 (leBytes 1 op))
/-- A fetched packet. -/
def cmd (ring : Nat) (p : Bytes) : Cmd := ⟨ring, 0, p, 0, .fetched, 0, 0, false, none⟩
/-- The admin ring and ring 0 of field 1 enabled, with one fetched packet. -/
def ready (s : State) (c : Cmd) : State := { s with rings := [(8, ring1), (128, ring1)], cmds := s.cmds ++ [c] }

/-! ### Rings -/

theorem witness_DoorbellWrites :
    (8 ≤ adminRing ∧ (ready live1 (cmd 8 (pkt 0 []))).ringServed 8 = true ∧
      ((ready live1 (cmd 8 (pkt 0 []))).ring 8).listening = true) ∧
    (∃ k, k ≤ ahead ring1.tail.toNat (ring1.sqHead.toNat + ring1.n - 1) ring1.n ∧ 63 = (ring1.tail.toNat + k) % ring1.n) ∧
    (∀ k, k ≤ ahead ring1.head.toNat ring1.cqTail.toNat ring1.n → 1 ≠ (ring1.head.toNat + k) % ring1.n) ∧
    (live1.ring 8).listening = false ∧ live1.ringServed 8 = true ∧ live1.ringServed 16 = false ∧ adminRing < 129 := by
  refine ⟨by decide +kernel, ⟨63, by decide +kernel⟩, ?_, by decide +kernel⟩
  decide +kernel

/-- A ring that is off, at valid bases. -/
def offRing : State := live1.setRing 8 { ring1 with enable := false }
/-- A disabled ring with an outstanding command. -/
def offBusy : State := { offRing with cmds := [cmd 8 (pkt 0 [])] }

theorem witness_RingEnableAndReset :
    (offRing.ringServed 8 = true ∧ (0x61#32).getLsbD 1 = false ∧ (offRing.ring 8).enable = false ∧ offRing.cmdsOf 8 = [] ∧
      offRing.ringIdle 8 = true ∧
      (6 ≤ ((0x61#32 >>> 4).truncate 5 : BitVec 5).toNat ∧ (offRing.ring 8).sqBase.toNat % 4096 = 0)) ∧
    ¬ 6 ≤ ((0x51#32 >>> 4).truncate 5 : BitVec 5).toNat ∧
    (offBusy.ringServed 8 = true ∧ offBusy.cmdsOf 8 ≠ [] ∧ offBusy.ringIdle 8 = false ∧ (offBusy.ring 8).configValid = true) ∧
    (ready live1 (cmd 8 (pkt 0 []))).ringServed 8 = true ∧ ((ready live1 (cmd 8 (pkt 0 []))).ring 8).enable = true ∧
    ((offBusy.setRing 8 { ring1 with resetting := true }).ring 8).resetting = true ∧
    (offBusy.setRing 8 { ring1 with resetting := true }).cmdsOf 8 = [cmd 8 (pkt 0 [])] := by
  decide +kernel

/-- Ring 8 in error, its own record still due. -/
def failedRing : State := live1.setRing 8 { ring1 with error := true, errorCause := 2, errRecordDue := true }
/-- Packets wait on ring 8 and, with `adm`, on the admin ring. -/
def waiting (adm : Bool) : State :=
  (live1.setRing 8 { ring1 with tail := 1 }).setRing 128 (if adm then { ring1 with tail := 1 } else ring1)

theorem witness_RingErrorsAndFetching :
    ((failedRing.ring 8).error = true ∧ (live1.ring 8).error = false) ∧
    (failedRing.errorRecordDue 8 = true ∧ (failedRing.ring 8).cqWritable = true) ∧
    (((live1.setRing 8 { ring1 with unsignalledSince := some 5, irqTime := 7 }).ring 8).unsignalledSince = some 5) ∧
    (waiting true).ringReady adminRing = true ∧ (waiting false).nextRing = some 8 ∧ (waiting false).serving = true ∧
    (waiting false).crossingsEmpty :=
  ⟨by decide +kernel, by decide +kernel, by decide +kernel, by decide +kernel, by decide +kernel, by decide +kernel, fun _ => rfl⟩

/-! ### Registers, resets and start-up -/

/-- Function 1 with a cause that is not enabled. -/
def caused : State := live1.setFn 1 { live1.fn 1 with cause := 0x10 }
/-- Function 1 with vector 2 masked. -/
def masked : State := live1.setFn 1 { live1.fn 1 with msix := [(2, 1 <<< 96)] }

theorem witness_EventAndTimeRegisters :
    (caused.eventsServed = true ∧ (caused.fn 1).cause.getLsbD 4 = true ∧ (caused.fn 1).enable.getLsbD 4 = false ∧
      (0x10#32 &&& 0x013#32 ||| 0x001#32).getLsbD 4 = true) ∧
    (∀ b, b < 32 → (2#32 &&& 0x013#32 ||| 0x001#32).getLsbD b = true → (caused.fn 1).enable.getLsbD b = false →
      (caused.fn 1).cause.getLsbD b = false) ∧
    (masked.eventsServed = true ∧ ((masked.fn 1).vector 2).getLsbD 96 = true) ∧
    ((live1.setFn 1 { live1.fn 1 with msix := [(2, 0)] }).fn 1).vector 2 = 0 ∧ 8 < (9#32).toNat % 16 ∧
    live1.windowServed = true ∧ live1.up = true := by
  decide +kernel

theorem witness_WindowWrites :
    live1.windowServed = true ∧ live1.ringServed 8 = true ∧ offRing.basesWritable 8 = true ∧
    (failedRing.ringServed 8 = true ∧ failedRing.basesWritable 8 = false) ∧ ¬ (2 = 4 ∧ 0 % 4 = 0) ∧
    (live1.up = true ∧ live1.trust.bootCode = 0 ∧ live1.glob.fatal = false ∧ live1.glob.restarting = false ∧
      (1#32).getLsbD 0 = true) ∧ (0#32).getLsbD 0 = false := by
  decide +kernel

/-- A device without power. -/
def unpowered : State := { State.reset with board := { Board.inReset with powered := false } }
/-- The order of Table 14.9. -/
def rails : List Rail :=
  [.vddAon, .vddio18, .vddio33, .vddSram, .vddCore, .vddPcie, .vddHxl, .vddqG]

/-- One stake record stored. -/
def stakedDevice : State := { live with trust := { live.trust with stakes := [(768, stakeRecord 3 0 9 0 0)] } }

theorem witness_DeviceResets :
    (State.reset.board.powered = true ∧ (State.reset.board.sysResetN && State.reset.board.perstN) = false) ∧
    (unpowered.board.powered = false ∧ powerOrderOk rails = true) ∧ stakedDevice.trust.copy 3 0 0 ≠ zeros 32 ∧ live.flashOk ∧
    live1.up = true ∧ ((live1.setFn 1 { live1.fn 1 with d3hot := true }).fn (ringFn 8)).d3hot = true := by
  decide +kernel

theorem witness_FunctionResets : live1.up = true ∧ live1.trust.bootCode = 0 ∧ live1.trust.mr.length = 8 := by
  decide +kernel

/-- Released from reset, nothing booted. -/
def released : State := { live with trust := Trust.reset [] [], glob := State.reset.glob }

/-- A slot that passes every check of Table 11.3 rests on the fused key digests, free values of Config (log 21): no such image can be
evaluated. -/
theorem witness_BootSequence :
    (released.up = true ∧ released.trust.bootCode = 1 ∧ released.trust.fw = none ∧
      (released.romStart.trust.tryAll false false (released.romStart.trust.candidates 0)).2 = none) ∧
    (({ released with trust := { released.trust with fw := some ⟨0, 1, 0⟩ } } : State).trust.fw = some ⟨0, 1, 0⟩ ∧
      released.board.gddrOn = true ∧ released.trust.mr.length = 8) := by
  decide +kernel

/-! ### Packets -/

/-- A live device with one packet on ring 8 of field 1. -/
def on8 (p : Bytes) : State := ready live1 (cmd 8 p)
/-- A live device with one packet on the admin ring. -/
def onAdmin (p : Bytes) : State := ready live1 (cmd 128 p)
/-- A packet with `pb_valid`, a block of n · 64 bytes and more values. -/
def pktB (op n : Nat) (l : List (Nat × Nat × Nat)) : Bytes := pkt op ([(1, 1, 2), (6, 2, n), (8, 8, 0x4000)] ++ l)

/-- Member 1 of a formed cascade of two. -/
def follower (s : State) : State :=
  { s with
    glob := { s.glob with straps := { Straps.low with hxlEn := true } }
    casc := { Cascade.reset with state := 2, expected := 2, ordinal := 1, leadOrdinal := 0 } }
/-- The lead, member 0 of a formed cascade of two; member 1 answers. -/
def leader (s : State) : State :=
  { s with
    glob := { s.glob with straps := { Straps.low with hxlEn := true, cascLead := true } }
    trust := { s.trust with effective := [(2, 1)] }
    casc := { Cascade.reset with
      state := 2, expected := 2, records := [(0, ⟨0, 0, 0, 1, 0, 0, 0, 1, 0⟩), (1, ⟨7, 0, 0, 2, 0, 0, 0, 1, 1⟩)] } }

theorem witness_PacketOutcome :
    ((on8 (pkt 0x01 [(2, 2, 0xFFFF)])).nextPacket 8 = some (cmd 8 (pkt 0x01 [(2, 2, 0xFFFF)])) ∧
      (cmd 8 (pkt 0x01 [(2, 2, 0xFFFF)])).opcode = 0x01 ∧
      (0x01, Instr.identify 8 (dma [])) ∈ packetRows 8 (dma []) true true 0 [] ∧
      (on8 (pkt 0x01 [(2, 2, 0xFFFF)])).packetFault (cmd 8 (pkt 0x01 [(2, 2, 0xFFFF)])) (opAF 0x01) (dma []) = some 2) ∧
    (on8 (pkt 0x01 [])).nextPacket 0 = none ∧
    ((follower (on8 (pkt 0x10 []))).followerForbids 0x10 = true ∧ (0x10, Instr.insert 8 (dma [])) ∈ packetRows 8 (dma []) true true 0 [] ∧
      (follower (on8 (pktB 0x10 1 []))).nextReading 0x10 8 = none ∧
      (follower (on8 (pktB 0x10 1 []))).nextPacket 8 = some (cmd 8 (pktB 0x10 1 [])) ∧
      (follower ((on8 (pktB 0x10 1 [])).setIndex 64 (Index.create ⟨0, 4, 8, 0, 8, 4, 64, 8, 0, 0, true, 10, 2, 0, 0, 16⟩ [[0]]))).packetFault
        (cmd 8 (pktB 0x10 1 [])) (opFX 0x10 .required true) (dma []) = none) ∧
    (cmd 8 (pktB 0x10 1 [])).pbValid = true ∧ (cmd 8 (pkt 0x10 [])).pbValid = false := by
  decide +kernel

theorem witness_ReservedOpcode :
    (on8 (pkt 0x04 [])).nextPacket 8 = some (cmd 8 (pkt 0x04 [])) ∧ opSpec (cmd 8 (pkt 0x04 [])).opcode = none ∧
      (on8 (pkt 0x04 [])).unfenced (cmd 8 (pkt 0x04 [])) = true ∧ (on8 (pkt 0x04 [])).serving = true := by
  decide +kernel

theorem witness_CompletionRecords :
    ((on8 []).ring 8).resetting = false ∧ ((on8 []).ring 8).cqWritable = true ∧ (on8 []).glob.fatal = false ∧
    (cmd 8 (pkt 0 [(1, 1, 4)])).irq = true ∧ (cmd 8 (pkt 0 [])).irq = false ∧ ring1.irqCount = 0 ∧
    (dma []).replyOk = true ∧ (∀ w ∈ [(64, [1#8])], w.2 ≠ []) ∧ (⟨none, false, true⟩ : Dma).replyOk = false := by
  decide +kernel

theorem witness_ReadingCommands :
    ((on8 (pkt 0x00 [])).admits 0x00 8 (dma []) (cmd 8 (pkt 0x00 [])) = true) ∧
    ((on8 (pkt 0x01 [(24, 4, 512)])).admits 0x01 8 (dma []) (cmd 8 (pkt 0x01 [(24, 4, 512)])) = true) ∧
    ((on8 (pkt 0x03 [(16, 1, 1), (32, 4, 512)])).admits 0x03 8 (dma []) (cmd 8 (pkt 0x03 [(16, 1, 1), (32, 4, 512)])) = true) ∧
    ((onAdmin (pkt 0x60 [(32, 4, 64)])).admits 0x60 128 (dma []) (cmd 128 (pkt 0x60 [(32, 4, 64)])) = true) ∧
    ((on8 (pkt 0x60 [(16, 2, 0x101), (32, 4, 64)])).admits 0x60 8 (dma []) (cmd 8 (pkt 0x60 [(16, 2, 0x101), (32, 4, 64)])) = true ∧
      live1.fieldExists 1 = true) ∧
    ((on8 (pkt 0x61 [(32, 4, 64)])).admits 0x61 8 (dma []) (cmd 8 (pkt 0x61 [(32, 4, 64)])) = true) ∧
    ((onAdmin (pkt 0x62 [(16, 2, 0x101)])).admits 0x62 128 (dma []) (cmd 128 (pkt 0x62 [(16, 2, 0x101)])) = true) ∧
    ((onAdmin (pkt 0x62 [])).admits 0x62 128 (dma []) (cmd 128 (pkt 0x62 [])) = true) ∧
    ((onAdmin (pkt 0x62 [(16, 1, 2)])).admits 0x62 128 (dma []) (cmd 128 (pkt 0x62 [(16, 1, 2)])) = true) := by
  decide +kernel

/-- SECURITY_POLICY permits perturbation and field 1 takes part. -/
def perturbing : State :=
  { (live1.setField 1 (Field.fresh { cfg1 with perturb := true })) with
    trust := { live1.trust with stakes := [(0, stakeRecord 0 0 2 0 0)] } }
/-- The bytes 16 to 27 of a request to set control 6 of field 1. -/
def setReq : Bytes := [0, 6, 1, 0, 0, 0, 0, 0, 1, 0, 0, 0]

/-- The window names control 6 of field 1 with count 1. -/
def asking : State := { perturbing with pert := { perturbing.pert with req := 0x10600#32, value := 1 } }

theorem witness_Perturbation :
    ((ready perturbing (cmd 128 (overlay (pkt 0x68 []) 16 setReq))).admits 0x68 128 (dma [])
        (cmd 128 (overlay (pkt 0x68 []) 16 setReq)) = true ∧
      (ready perturbing (cmd 128 (overlay (pkt 0x68 []) 16 setReq))).pertFault (pertReq setReq 0) = none) ∧
    live1.pertFault (pertReq setReq 0) = some stNOT_PERMITTED ∧
    (perturbing.pertServed = true ∧ (1#32).getLsbD 0 = true ∧ live1.pertFault live1.pert.request = some stNOT_PERMITTED ∧
      live1.pertServed = true) ∧
    (asking.pertServed = true ∧ asking.pertFault asking.pert.request = none) ∧
    (({ live1 with pert := { live1.pert with busy := true } } : State).pert.busy = true ∧ live1.up = true ∧ live1.serving = true) ∧
    (perturbing.pertFault (pertReq setReq 0) = none ∧ (pertReq setReq 0).action = 0 ∧ (pertReq setReq 0).target < 2 ^ 32) ∧
    ((perturbing.pertApply (pertReq setReq 0)).pertFault (pertReq (1 :: setReq.drop 1) 0) = none ∧
      (pertReq (1 :: setReq.drop 1) 0).action = 1) ∧
    perturbing.pertFault (pertReq (2 :: setReq.drop 1) 0) = none ∧ perturbing.trust.mr.length = 8 := by
  decide +kernel

/-! ### Trust and fields -/

/-- A STAKE_WRITE of FIELD_LIMIT, value 9, slot 0. -/
def stakeW : Bytes := pkt 0x59 [(16, 1, 3), (24, 8, 9)]
/-- ROLLBACK_FLOOR raised to 1, with firmware of version 1. -/
def floorW : Bytes := pkt 0x59 [(16, 1, 1), (24, 8, 1)]
/-- Running firmware of security version 1. -/
def svn1 (s : State) : State := { s with trust := { s.trust with fw := some ⟨0, 1, 1⟩ } }

theorem witness_ReadingCommands_trust :
    ((onAdmin (pkt 0x51 [(24, 4, 512)])).admits 0x51 128 (dma []) (cmd 128 (pkt 0x51 [(24, 4, 512)])) = true) ∧
    ((on8 (pkt 0x50 [(56, 4, 720)])).admits 0x50 8 (dma []) (cmd 8 (pkt 0x50 [(56, 4, 720)])) = true) ∧
    ((onAdmin (pkt 0x58 [(16, 1, 4), (32, 4, 4096)])).admits 0x58 128 (dma []) (cmd 128 (pkt 0x58 [(16, 1, 4), (32, 4, 4096)])) =
      true ∧ 64 + 64 * stakeSlots 4 ≤ 4096) := by
  decide +kernel

theorem witness_StakeWrite :
    ((onAdmin stakeW).admits 0x59 128 (dma []) (cmd 128 stakeW) = true ∧ stakeValueOk 3 9 = true ∧
      num stakeW 17 1 = (onAdmin stakeW).trust.used 3 ∧ 9 ≠ (onAdmin stakeW).trust.current 3 ∧
      (onAdmin stakeW).fieldCount ≤ 9 ∧ 0 < stakeSlots 3) ∧
    ((svn1 (onAdmin floorW)).admits 0x59 128 (dma []) (cmd 128 floorW) = true ∧ stakeValueOk 1 1 = true ∧
      1 ≠ (svn1 (onAdmin floorW)).trust.current 1 ∧ (svn1 (onAdmin floorW)).trust.current 1 ≤ 1 ∧
      1 ≤ (svn1 (onAdmin floorW)).fwSvn ∧ (svn1 (onAdmin floorW)).trust.used 1 < stakeSlots 1) := by
  decide +kernel

/-- A FIRMWARE_STAGE into slot 1, `opts` o. -/
def stageW (o : Nat) : Bytes := pktB 0x70 1 [(16, 1, 1), (17, 1, o)]
/-- Slot 1 says STAGED. -/
def stagedSlot (p : Bytes) : State :=
  (onAdmin p).setTrust ((onAdmin p).trust.writeSector 1 ⟨1, 0, zeros 48⟩)

theorem witness_FirmwareSlots :
    ((onAdmin (stageW 1)).admits 0x70 128 (dma (zeros 64)) (cmd 128 (stageW 1)) = true ∧
      (∀ f, (onAdmin (stageW 1)).trust.fw = some f → f.slot ≠ 1)) ∧
    (flag (stageW 2) 17 1 = true ∧ imageFault (((onAdmin (stageW 2)).trust.stage 1 0 (zeros 64) false).image 1) 0 ≠ 0) ∧
    ((stagedSlot (pkt 0x71 [(16, 1, 1)])).admits 0x71 128 (dma []) (cmd 128 (pkt 0x71 [(16, 1, 1)])) = true ∧
      ((stagedSlot (pkt 0x71 [(16, 1, 1)])).trust.sector 1).state = 1 ∧
      (stagedSlot (pkt 0x71 [(16, 1, 1)])).trust.current 1 ≤
        num ((stagedSlot (pkt 0x71 [(16, 1, 1)])).trust.flashRead (1 * 0x100_0000) 512) 16 4) := by
  refine ⟨⟨by decide +kernel, ?_⟩, by decide +kernel, by decide +kernel⟩
  intro f h; cases h; decide

/-- A block that sets the rate and the frame quota of a field. -/
def newBlock : Bytes :=
  overlay (overlay (overlay (overlay (zeros 256) 0 (leBytes 8 (2 ^ 6 + 2 ^ 12))) 20 (leBytes 4 2000)) 24 (leBytes 4 4)) 44 (leBytes 4 8)
/-- FIELD_LIMIT written as 9. -/
def limit9 (s : State) : State := { s with trust := { s.trust with stakes := [(768, stakeRecord 3 0 9 0 0)] } }
/-- FIELD_CONFIGURE of field f. -/
def confW (act f : Nat) : Bytes := if act = 0 then pktB 0x02 4 [(16, 1, f)] else pkt 0x02 [(16, 1, f), (17, 1, act)]

/-- A packet on the admin ring, the only ring that is enabled. -/
def quiet (p : Bytes) : State := { onAdmin p with rings := [(128, ring1)] }

theorem witness_FieldConfiguration :
    ((ready (limit9 live) (cmd 128 (confW 0 1))).admits 0x02 128 (dma newBlock) (cmd 128 (confW 0 1)) = true ∧
      live.leads = false ∧ live.applyPermitted 1 newBlock = true ∧
      (∃ t, (ready (limit9 live) (cmd 128 (confW 0 1))).applyBlock 1 newBlock = .inr t) ∧ live.field? 1 = none) ∧
    (∃ t, live1.applyBlock 1 newBlock = .inr t) ∧ live1.field? 1 = some (Field.fresh cfg1) ∧
    ((onAdmin (confW 1 1)).admits 0x02 128 (dma []) (cmd 128 (confW 1 1)) = true ∧
      (onAdmin (confW 1 1)).field? 1 = some (Field.fresh cfg1)) ∧
    ((quiet (confW 2 1)).admits 0x02 128 (dma []) (cmd 128 (confW 2 1)) = true ∧
      (quiet (confW 2 1)).removable 1 = true) := by
  refine ⟨⟨by decide +kernel, by decide +kernel, by decide +kernel, Sum.isRight_iff.1 ?_, by decide +kernel⟩,
    Sum.isRight_iff.1 ?_, by decide +kernel⟩ <;> decide +kernel

/-! ### Units and errors -/

/-- A packet that names unit n of a type. -/
def unitPkt (op ty n o : Nat) : Bytes := pkt op [(16, 1, ty), (17, 1, o), (18, 2, n)]
/-- A UNIT_FALLOW of Evaporator 1 that waits. -/
def drainCmd : Cmd := { cmd 128 (unitPkt 0x40 7 1 0) with work := .fallow (unitKey 7 1) 3 4 }
/-- Its unit drains since the present planner epoch. -/
def draining : State := { (live1.setUnit 7 1 ⟨1, false, false, 0, false, false⟩) with cmds := [drainCmd] }

theorem witness_UnitsFallow :
    ((on8 (pkt 0x42 [(32, 4, 512)])).admits 0x42 8 (dma []) (cmd 8 (pkt 0x42 [(32, 4, 512)])) = true) ∧
    (∀ o, o ∈ [0, 1] → (onAdmin (unitPkt 0x40 1 0 o)).admits 0x40 128 (dma []) (cmd 128 (unitPkt 0x40 1 0 o)) = true ∧
      (onAdmin (unitPkt 0x40 1 0 o)).unitState 1 0 = 0 ∧ (onAdmin (unitPkt 0x40 1 0 o)).fallowRoom 1 0 = true) ∧
    ((onAdmin (unitPkt 0x40 7 1 1)).admits 0x40 128 (dma []) (cmd 128 (unitPkt 0x40 7 1 1)) = true ∧
      (onAdmin (unitPkt 0x40 7 1 1)).fallowRoom 7 1 = true) ∧
    (draining.completing = true ∧ draining.unitState 7 1 = 1 ∧ (draining.unit 7 1).leaving = false ∧
      (draining.unit 7 1).force = false ∧ draining.drained 7 1 = true ∧ draining.drainedC 7 1 = true ∧
      draining.fallowCmd 7 1 = some (drainCmd, 3, 4)) := by
  decide +kernel

/-- Unit 2 of type 4 fallow. -/
def oneFallow (p : Bytes) : State := (onAdmin p).setUnit 4 2 ⟨2, false, false, 0, false, false⟩
/-- A UNIT_TILL of unit 2 of type 4 whose test runs. -/
def tillWaits : Cmd := { cmd 128 (unitPkt 0x41 4 2 0) with work := .till (unitKey 4 2) }
/-- Its unit in self-test. -/
def testing : State := { (live1.setUnit 4 2 ⟨3, false, false, 2, false, false⟩) with cmds := [tillWaits] }
/-- A SELF_TEST of the Gleaner that is due. -/
def gleanerCmd : Cmd := { cmd 128 (pkt 0x69 [(16, 2, 0x801), (32, 4, 512)]) with work := .gleanerTest 3 }

theorem witness_UnitTests :
    ((oneFallow (unitPkt 0x41 4 2 0)).admits 0x41 128 (dma []) (cmd 128 (unitPkt 0x41 4 2 0)) = true ∧
      (oneFallow (unitPkt 0x41 4 2 0)).unitState 4 2 = 2) ∧
    (testing.completing = true ∧ testing.unitState 4 2 = 3 ∧ testing.tillCmd 4 2 = some tillWaits) ∧
    ((onAdmin gleanerCmd.pkt).admits 0x69 128 (dma []) (cmd 128 gleanerCmd.pkt) = true ∧ 0 < unitCount 8) ∧
    ((oneFallow (pkt 0x69 [(32, 4, 512)])).admits 0x69 128 (dma []) (cmd 128 (pkt 0x69 [(32, 4, 512)])) = true) ∧
    ({ live1 with cmds := [gleanerCmd] } : State).gleanerDue = some gleanerCmd := by
  decide +kernel

/-- Field 1 with two pages in GDDR, page 5 not damaged. -/
def paged : State :=
  live1.setField 1 { Field.fresh cfg1 with
    pages := [⟨5, none, .scratch 0, 0, 0, .near 0 7, none, false, false, false, 0, false, false⟩,
      ⟨6, none, .scratch 0, 1, 1, .near 1 2, none, false, false, false, 0, false, false⟩] }

theorem witness_DeviceErrors :
    (live1.completing = true ∧ live1.unitState 2 3 ≠ 4 ∧ live1.lastEngine 2 3 = false ∧ 3 < unitCount 2) ∧
    (live1.unitState 11 0 ≠ 4 ∧ live1.lastEngine 11 0 = false) ∧ live1.lastEngine 8 0 = true ∧
    ((live1.setUnit 2 3 ⟨4, false, false, 0, false, false⟩).unitState 2 3 = 4) ∧
    (live1.up = true ∧ live1.glob.fatal = false ∧ ({ live1.glob with fatal := true } : Glob).fatal = true) ∧
    ((paged.field? 1).bind (fun x => x.pages.find? (fun q => q.num == 5))).isSome = true ∧
    (∀ u, live1.glob.lastRestart = some u → u + 1000000000 < live1.tbk) ∧
    (({ live1.glob with lastRestart := some 5 } : Glob).lastRestart = some 5 ∧ live1.tbk ≤ 5 + 1000000000) ∧
    ({ live1.glob with restarting := true } : Glob).restarting = true ∧ live1.trust.mr.length = 8 := by
  refine ⟨by decide +kernel, by decide +kernel, by decide +kernel, by decide +kernel, by decide +kernel,
    by decide +kernel, fun u h => (by cases h), by decide +kernel⟩

/-! ### Memory channels -/

/-- Channel 3 with level 1 work and a write of field 1. -/
def chanBusy : State := paged.setChannel 3 ⟨[⟨2048, 1, 0, 0, 2, false, true, 9, none⟩], [.refresh], false, false, false⟩
/-- Channel 3 with a narrow class C read and a write. -/
def chanNarrow : State :=
  paged.setChannel 3 ⟨[⟨2048, 1, 0, 0, 2, false, true, 9, none⟩, ⟨1024, 1, 4, 0, 0, true, false, 8, some 5⟩], [], false, false, false⟩
/-- Channel 3 with a write of field 1 alone; its bucket is full, or empty with work-conserving borrowing. -/
def chanWrite (full : Bool) : State :=
  (live1.setField 1 { Field.fresh { cfg1 with workConserving := !full } with
    tokens := if full then 4096000 else 0, tokensAt := 1000000 }).setChannel 3
      ⟨[⟨2048, 1, 0, 0, 2, false, true, 9, none⟩], [], false, false, false⟩

theorem witness_ChannelGrant :
    (chanBusy.channelServes 3 = true ∧ chanBusy.upkeepFirst 3 = true) ∧
    (chanNarrow.channelServes 3 = true ∧ chanNarrow.upkeepFirst 3 = false ∧
      chanNarrow.nextGrant 3 = some (2, ⟨1024, 1, 4, 0, 0, true, false, 8, some 5⟩)) ∧
    ((chanWrite true).channelServes 3 = true ∧ (chanWrite true).upkeepFirst 3 = false ∧ (chanWrite true).nextGrant 3 = some (3, ⟨2048, 1, 0, 0, 2, false, true, 9, none⟩) ∧ ((chanWrite true).field? 1).isSome = true) ∧
    (chanWrite false).nextGrant 3 = some (4, ⟨2048, 1, 0, 0, 2, false, true, 9, none⟩) := by
  decide +kernel

/-- Channel 1 retrains. -/
def retraining : State := paged.setChannel 1 ⟨[], [], false, true, false⟩
/-- Firmware started, GDDR not trained. -/
def untrained : State :=
  { live with
    board := { live.board with gddrOn := false }, memRate := 0
    trust := { Trust.reset [] [] with fw := some ⟨0, 1, 0⟩ } }
/-- Fifteen channels that answer alike at three rates, and one that does not answer. -/
def probes16 : List ChannelProbe :=
  List.replicate 15 ⟨true, false, 8, false, [14, 16, 18]⟩ ++ [⟨false, false, 0, false, []⟩]

theorem witness_GddrTrainingAndRetraining :
    (paged.channelServes 1 = true ∧ paged.completing = true) ∧
    (retraining.up = true ∧ (retraining.channel 1).retraining = true) ∧
    (untrained.up = true ∧ untrained.trust.fw ≠ none ∧ untrained.trust.bootCode = 1 ∧ untrained.board.gddrOn = false ∧
      18 ∈ ratesOf untrained.glob.straps.gddrType) ∧
    (∀ ch, ch < 16 → passesStep2 untrained.glob.straps (referenceDensity probes16)
        (probes16.getD ch ⟨false, false, 0, false, []⟩) = decide (ch < 15)) ∧
    (∀ ch, ch < 15 → 18 ∈ (probes16.getD ch ⟨false, false, 0, false, []⟩).rates) ∧
    (∀ r ∈ ratesOf untrained.glob.straps.gddrType, r ∈ (probes16.getD 0 ⟨false, false, 0, false, []⟩).rates → r ≤ 18) := by
  decide +kernel

/-- Field 1 with inline ECC and a page in GDDR. -/
def eccField : State :=
  live1.setField 1 { Field.fresh { cfg1 with ecc := true } with
    pages := [⟨5, none, .scratch 0, 0, 0, .near 0 7, none, false, false, false, 0, false, false⟩] }
/-- Pair 1, of half 0, drains. -/
def pairDrains : State := paged.setUnit 10 1 ⟨1, false, false, 0, false, false⟩

theorem witness_EpochAndUpkeep :
    (live1.completing = true ∧ live1.memoryOn = true ∧ live1.pert.busy = false ∧
      ({ live1.pert with clearDue := true } : Pert).clearDue = true ∧ eccField.badChunks = []) ∧
    (∃ x p y, eccField.field? 1 = some x ∧ x.cfg.ecc = true ∧ x.pages.find? (fun q => q.num == 5 && q.inGddr) = some p ∧
      p.placeOf (64 * 3) = some y ∧ eccField.channelServes y.1 = true ∧ 3 < pageSize / 64) ∧
    (∃ x p l, pairDrains.completing = true ∧ pairDrains.field? 1 = some x ∧ x.pages.find? (fun q => q.num == 5) = some p ∧
      p.loc = .near 0 7 ∧ pairDrains.unitState 10 (4 * 0 + 1) = 1 ∧ pairDrains.freeNear (1 - 0) = some l) := by
  refine ⟨by decide +kernel, ⟨_, _, _, rfl, by decide +kernel, rfl, rfl, by decide +kernel, by decide +kernel⟩,
    ⟨_, _, (pairDrains.freeNear 1).getD (.near 0 0), by decide +kernel, rfl, rfl, rfl, by decide +kernel, ?_⟩⟩
  decide +kernel

/-! ### Indexes -/

/-- Parameters of a small index. -/
def ip : IParams := ⟨0, 4, 8, 0, 8, 4, 64, 8, 0, 0, true, 10, 2, 0, 0, 16⟩
/-- INDEX_CREATE with those parameters. -/
def createW : Bytes :=
  pkt 0x08 [(17, 1, 4), (18, 1, 8), (20, 2, 8), (22, 2, 4), (24, 2, 64), (26, 2, 8), (30, 1, 1), (31, 1, 10), (32, 4, 2),
    (40, 8, 16)]
/-- Rows and sub-quantisers of zeros. -/
def loadedIndex : Index :=
  { Index.create ip [[0]] with
    centroids := [(0, List.replicate 8 0), (1, List.replicate 8 0x3F800000)]
    codebook := (List.range 4).map (fun n => (n, List.replicate 16 (List.replicate 2 0))) }
/-- The index active, with one live entry in list 0. -/
def activeIndex : Index :=
  { loadedIndex with
    active := true, epoch := 3, stamp := 5
    lists := [(0, ⟨⟨[⟨77, [0, 0], [], [], 1, none⟩], [0], 0, 0⟩, []⟩)] }
/-- A live device with index 0 of field 1, and a packet on ring 8. -/
def withIndex (x : Index) (p : Bytes) : State := (on8 p).setIndex 64 x

/-- The index behind a load of both rows, and behind a load of sub-quantiser 0. -/
def loadedA : Index := { loadedIndex with centroids := storeRows loadedIndex.centroids 0 (rowsOf (coarseFmt 0) 8 2 (zeros 64)) }
def loadedB : Index := { loadedIndex with codebook := storeRows loadedIndex.codebook 0 [subQuantiser ip (zeros 128)] }

/-- The rows that a load writes are at hand. -/
theorem witness_IndexLife_loads :
    (∃ u, (((withIndex loadedIndex (pktB 0x0A 1 [(20, 4, 2)])).readBlock (cmd 8 (pktB 0x0A 1 [(20, 4, 2)])) none).setIndex 64
        loadedA).syncPages 1 = some u ∧ decide (u.atHand 1 true (rowSpans 0 ip false 0 2)) = true) ∧
    (∃ u, (((withIndex loadedIndex (pktB 0x0B 2 [(18, 2, 1)])).readBlock (cmd 8 (pktB 0x0B 2 [(18, 2, 1)])) none).setIndex 64
        loadedB).syncPages 1 = some u ∧ decide (u.atHand 1 true [⟨some 0, .codebook, 0, 0, 128⟩]) = true) ∧
    (withIndex loadedIndex (pktB 0x0A 1 [(20, 4, 2)])).takesNext 0x0A 8 (cmd 8 (pktB 0x0A 1 [(20, 4, 2)])) ∧
    (withIndex loadedIndex (pktB 0x0B 2 [(18, 2, 1)])).takesNext 0x0B 8 (cmd 8 (pktB 0x0B 2 [(18, 2, 1)])) :=
  ⟨some_of_any (by decide +kernel), some_of_any (by decide +kernel), by decide +kernel, by decide +kernel⟩

theorem witness_IndexLife :
    ((on8 createW).admits 0x08 8 (dma []) (cmd 8 createW) = true ∧ (paramsOf createW).ok = true ∧
      (paramsOf createW).cascMode = 0 ∧ ((on8 createW).indexesOf 1).length < ((on8 createW).cfg 1).maxIndexes ∧
      placementOf 0 0 (on8 createW).casc.present = some [[0]]) ∧
    ((withIndex activeIndex (pkt 0x09 [])).admits 0x09 8 (dma []) (cmd 8 (pkt 0x09 [])) = true ∧
      (withIndex activeIndex (pkt 0x09 [])).indexBusy 64 = false ∧ activeIndex.holds = []) ∧
    ((withIndex loadedIndex (pktB 0x0A 1 [(20, 4, 2)])).admits 0x0A 8 (dma (zeros 64)) (cmd 8 (pktB 0x0A 1 [(20, 4, 2)])) = true ∧
      64 = roundUp (2 * 8 * (coarseFmt 0).bytes) 64 ∧
      (∀ r ∈ rowsOf (coarseFmt 0) 8 2 (zeros 64), ∀ v ∈ r, isSpecial (coarseFmt 0) v = false) ∧
      ((withIndex loadedIndex []).syncPages 1).isSome = true) ∧
    ((withIndex loadedIndex (pktB 0x0B 2 [(18, 2, 1)])).admits 0x0B 8 (dma (zeros 128)) (cmd 8 (pktB 0x0B 2 [(18, 2, 1)])) = true ∧
      128 = roundUp (1 * (ip.entries * ip.subDim * 4)) 64 ∧
      (subQuantiser ip (zeros 128)).all (fun e => e.all (fun v => !isSpecial fFP32 v.toNat)) = true) ∧
    ((withIndex loadedIndex (pkt 0x0C [])).admits 0x0C 8 (dma []) (cmd 8 (pkt 0x0C [])) = true ∧
      loadedIndex.centroids.length = 2 ∧ loadedIndex.codebook.length = 4 ∧
      ((withIndex { loadedIndex with active := true } []).syncPages 1).isSome = true) ∧
    ((withIndex loadedIndex (pkt 0x0D [(24, 4, 256)])).admits 0x0D 8 (dma []) (cmd 8 (pkt 0x0D [(24, 4, 256)])) = true) := by
  decide +kernel

/-- A block with one record of ID 9: eight elements of 1.0. -/
def insertBlock : Bytes :=
  fit 128 (overlay (zeros 64) 4 (leBytes 4 1) |> fun b => overlay b 8 (leBytes 4 (ip.recordBytes 0))) |> fun b =>
    overlay b 64 (leBytes 8 9 ++ (List.replicate 8 (leBytes 4 0x3F800000)).flatten)
/-- A block with one coded record of ID 9 in list 1. -/
def codedBlock : Bytes :=
  overlay (overlay (overlay (zeros 128) 4 (leBytes 4 1)) 8 (leBytes 4 (ip.codedBytes 0))) 64 (leBytes 8 9 ++ leBytes 4 1)
/-- The state in which a mutation packet of an opcode meets the active index. -/
def mutS (op : Nat) : State := withIndex activeIndex (pktB op 2 [])
/-- The records of a block as the three commands read them. -/
def rawsOf (coded : Bool) (b : Bytes) : List RawRec :=
  let size := if coded then ip.codedBytes 0 else ip.recordBytes 0
  (List.range (num b 4 4)).map (fun n => if coded then codedRec ip 0 (recordAt b size n) else plainRec ip 0 (recordAt b size n))

/-- A mutation that finds its page, and the page that it writes is at hand. -/
def entersAt (s : State) (c : Cmd) (b : Bytes) (m : Mutation) : Bool :=
  ((s.readBlock c none).addMutation (ctxOf c (dma b)) activeIndex m).any (fun r => decide (r.1.atHand 1 true r.2))
/-- What the statement about INSERT, UPSERT and INSERT_CODED asks of a packet with a block. -/
def putsOk (op : Nat) (coded upsert : Bool) (b : Bytes) : Bool :=
  let s := mutS op
  let c := cmd 8 (pktB op 2 [])
  let recs := (rawsOf coded b).filterMap (activeIndex.prepareRec coded 0)
  let m := activeIndex.mutation (ctxOf c (dma b)) (recs.map (fun r => r.1)) []
  s.admits op 8 (dma b) c && decide (s.takesNext op 8 c) && num b 0 1 ≤ 2 && num b 4 4 != 0 &&
    num b 8 4 == (if coded then ip.codedBytes 0 else ip.recordBytes 0) && 64 + num b 4 4 * num b 8 4 ≤ b.length &&
    decide ((rawsOf coded b).map (fun r => r.id)).Nodup &&
    (rawsOf coded b).all (fun r => r.list < 2 && r.pats.all (fun p => !isSpecial (vecFmt 0) p) &&
      (activeIndex.prepareRec coded 0 r).isSome && (upsert || !activeIndex.liveIn (s.viewOrder 64 activeIndex) r.id) &&
      s.idCovered activeIndex r.id) &&
    activeIndex.sizeIn (resolveOrder (s.commitStamps 64) (activeIndex.pending ++ [m])) ≤ 16 && entersAt s c b m &&
    !s.replayDiffers 1 (joinAll recs)
/-- What the statement about DELETE asks of a packet that deletes ID 77. -/
def deletesOk : Bool :=
  let p := pkt 0x11 [(24, 8, 77)]
  let s := withIndex activeIndex p
  let c := cmd 8 p
  s.admits 0x11 8 (dma []) c && decide (s.takesNext 0x11 8 c) && deleteIds (ctxOf c (dma [])) == [77] &&
    activeIndex.liveIn (s.viewOrder 64 activeIndex) 77 && s.idCovered activeIndex 77 &&
    entersAt s c [] (activeIndex.mutation (ctxOf c (dma [])) [] [77])

theorem witness_PreparedMutations :
    putsOk 0x10 false false insertBlock = true ∧ putsOk 0x12 false true insertBlock = true ∧
    putsOk 0x13 true false codedBlock = true ∧ deletesOk = true := by
  decide +kernel

/-- A record of ID 9 in list 1 and a deletion of ID 77, both pending before stamp 7. -/
def pendIndex : Index :=
  { activeIndex with
    stamp := 7, pending := [⟨8, 4, 5, [⟨9, 1, [1, 2], [], []⟩], []⟩, ⟨8, 5, 6, [], [77]⟩] }
/-- A COMMIT that takes both. -/
def commitCmd : Cmd := { cmd 8 (pkt 0x14 []) with work := .commit 64 7 [] [] }
/-- It waits. -/
def committing : State := { (live1.setIndex 64 pendIndex) with rings := [(8, ring1)], cmds := [commitCmd] }

/-- A COMMIT that goes through, from an evaluation. -/
theorem done_of {r : CommitEnd} (h : (match r with
    | .done _ => true
    | _ => false) = true) : ∃ u, r = .done u := by
  cases r with
  | done s => exact ⟨s, rfl⟩
  | _ => cases h

theorem witness_CommitEffects :
    ((withIndex pendIndex (pkt 0x14 [])).admits 0x14 8 (dma []) (cmd 8 (pkt 0x14 [])) = true ∧ pendIndex.active = true) ∧
    (committing.completing = true ∧ committing.firstCommit (indexKey 1 0) = some (commitCmd, 7, []) ∧
      committing.readerHalted (.cmd 8 0) = false ∧ pendIndex.p.cascMode = 0) ∧
    (∃ u, committing.tryCommit commitCmd 64 7 [] = .done u) ∧ (committing.prepareCommit 64 7).isSome = true ∧
    (lastTouch (inCommitOrder pendIndex.pending) 9 = some true ∧ lastTouch (inCommitOrder pendIndex.pending) 77 = some false) := by
  exact ⟨by decide +kernel, by decide +kernel, done_of (by decide +kernel), by decide +kernel, by decide +kernel⟩

/-- An index with two holds of epoch 2. -/
def heldIndex : Index := { activeIndex with holds := [2, 2], versions := [⟨0, 1, 2⟩, ⟨0, 2, 3⟩] }
/-- One list with an old image that a hold still reads and one that nothing reads. -/
def oldIndex : Index :=
  { heldIndex with lists := [(0, ⟨⟨[], [0], 3, 9⟩, [⟨[⟨77, [0, 0], [], [], 1, some 3⟩], [1], 1, 4⟩, ⟨[], [2], 0, 0⟩]⟩)] }
/-- A COMPACT of list 0, and one by tombstones. -/
def compactW (mode : Nat) : Bytes := pkt 0x17 [(16, 1, mode), (24, 4, 1)]
/-- List 0 waits for Evaporator 1. -/
def queued : State := { (live1.setIndex 64 activeIndex) with compactQueue := [⟨64, 0, 3, false⟩] }
/-- Evaporator 1 rewrites list 0 for a COMPACT. -/
def rewriting : State :=
  { (live1.setIndex 64 activeIndex) with
    evaporators := [(1, ⟨64, 0, 3, [1], []⟩)], cmds := [{ cmd 8 (compactW 1) with work := .compact 64 [0] 0 0 }] }

theorem witness_SnapshotsAndCompaction :
    ((withIndex heldIndex (pkt 0x15 [(16, 1, 1), (24, 8, 2)])).admits 0x15 8 (dma []) (cmd 8 (pkt 0x15 [(16, 1, 1), (24, 8, 2)])) = true ∧
      2 ∈ heldIndex.holds ∧ heldIndex.holds.length < 8 ∧ (withIndex heldIndex []).fieldHolds 1 < 64) ∧
    ((withIndex heldIndex (pkt 0x16 [(16, 1, 1), (24, 8, 2)])).admits 0x16 8 (dma []) (cmd 8 (pkt 0x16 [(16, 1, 1), (24, 8, 2)])) = true) ∧
    (¬ (1 = heldIndex.epoch ∨ 1 ∈ heldIndex.holds)) ∧ 8 ≤ ({ heldIndex with holds := List.replicate 8 2 } : Index).holds.length ∧
    (live1.up = true ∧ keptImages [] [3, 2, 2] (oldIndex.list 0).image (oldIndex.list 0).olds ≠ (oldIndex.list 0).olds ∧
      keptImages [] [3, 2, 2] (heldIndex.list 0).image (heldIndex.list 0).olds = (heldIndex.list 0).olds) ∧
    ((withIndex activeIndex (compactW 1)).admits 0x17 8 (dma []) (cmd 8 (compactW 1)) = true ∧
      (withIndex activeIndex (compactW 0)).admits 0x17 8 (dma []) (cmd 8 (compactW 0)) = true ∧
      overRatio 10 (activeIndex.list 0).image.slots = false) ∧
    (queued.unitFree 7 1 = true ∧ FMap.get? queued.evaporators 1 = none ∧
      (queued.beginCompaction 1 ⟨64, 0, 3, false⟩).isSome = true) ∧
    (rewriting.unitFree 7 1 = true ∧ FMap.get? rewriting.evaporators 1 = some ⟨64, 0, 3, [1], []⟩ ∧
      rewriting.readerHalted (.evaporator 1) = false ∧ rewriting.commitBegun 64 = false ∧ activeIndex.p.cascMode ≠ 2 ∧
      (let spans := rewriting.compactionSpans ⟨64, 0, 3, [1], []⟩ activeIndex
       (∀ a ∈ spans.1, rewriting.spanFault 1 a = false ∧
          ((rewriting.dropReader (.evaporator 1)).readSpans 1 2 (unitKey 7 1) false spans.1).spanFault 1 a = false) ∧
        (∀ a ∈ spans.2, rewriting.spanLost 1 a = false) ∧ rewriting.firstAway 1 [] (spans.1 ++ spans.2) = none ∧
        rewriting.retrains 1 (spans.1 ++ spans.2) = false)) := by
  decide +kernel

/-! ### Filters, bitmaps, pages, searches -/

/-- A filter block of one rule: allow where attribute word 0 is 5. -/
def filterBlock : Bytes := overlay (overlay (zeros 128) 0 (leBytes 2 1)) 64 (leBytes 2 9 ++ [1, 1])
/-- Field 1 with filter program 4 and bitmap 2, and a packet. -/
def filtered (p : Bytes) : State :=
  (on8 p).setField 1 { Field.fresh cfg1 with
    filters := [(4, ⟨true, []⟩)], bitmaps := [(2, ⟨none, ⟨0, 1024, 0⟩⟩)]
    pages := [⟨0, none, .bitmap 2, 0, 0, .near 0 0, none, false, false, false, 0, false, false⟩] }
/-- FILTER_DEFINE and FILTER_DROP. -/
def filterW (op id o : Nat) : Bytes := if op = 0x28 then pktB op 2 [(16, 1, id), (17, 1, o)] else pkt op [(16, 1, id)]
/-- BITMAP_LOAD: creation and publication of bitmap 3, a part of bitmap 2, and the deletion of bitmap 2. -/
def bitmapW (k : Nat) : Bytes :=
  if k = 0 then pktB 0x2A 1 [(16, 1, 3), (17, 1, 3), (18, 1, 1), (20, 4, 1024), (24, 4, 512)]
  else if k = 1 then pktB 0x2A 1 [(16, 1, 2), (24, 4, 512)]
  else pkt 0x2A [(16, 1, 2), (17, 1, 1)]

/-- What the statement about BITMAP_LOAD asks of the three packets: the bitmap's pages find room and are at hand. -/
def bitmapOk (k id sel nbits off : Nat) (b : Bytes) : Bool :=
  let s := filtered (bitmapW k)
  let c := cmd 8 (bitmapW k)
  match s.field? 1 with
  | none => false
  | some f =>
    let new := bitmapAfter (FMap.get? f.bitmaps id) (flag (bitmapW k) 17 0) (flag (bitmapW k) 17 1) c.pbValid sel nbits off b
    s.admits 0x2A 8 (dma b) c && decide (s.takesNext 0x2A 8 c) &&
      (((s.readBlock c none).setField 1 (f.putBitmap id new)).syncPages 1).any (fun u =>
        decide (u.atHand 1 true (bitmapWrites id new (flag (bitmapW k) 17 1) c.pbValid (off / 8) b.length)))

theorem witness_FiltersAndBitmaps :
    (([0, 1].all fun o => (filtered (filterW 0x28 (5 - o) o)).admits 0x28 8 (dma filterBlock) (cmd 8 (filterW 0x28 (5 - o) o)))
      = true ∧ (parseFilter filterBlock).isSome = true) ∧
    ((filtered (filterW 0x29 4 0)).admits 0x29 8 (dma []) (cmd 8 (filterW 0x29 4 0)) = true) ∧
    ((⟨9, true, [⟨0, 0, 5, 0⟩]⟩ : FilterRule).matches_ [5] = true ∧ (⟨9, true, [⟨0, 0, 5, 0⟩]⟩ : FilterRule).matches_ [6] = false) ∧
    (bitmapOk 0 3 1 1024 512 (zeros 64) && bitmapOk 1 2 0 0 512 (zeros 64) && bitmapOk 2 2 0 0 0 []) = true := by
  decide +kernel

/-- Field 1 with two pool pages, and a packet. -/
def pooled (p : Bytes) : State :=
  (on8 p).setField 1 { Field.fresh cfg1 with pool := [0x200000, 0x400000] }
/-- One more pool page, as a block. -/
def grantBlock : Bytes := overlay (zeros 64) 0 (leBytes 8 0x600000)

/-- PAGE_PIN of list 1, which has no page yet, in GDDR and in the Granary. -/
def pinW : Bytes := pkt 0x31 [(16, 1, 3), (17, 1, 1), (20, 4, 1), (24, 4, 1)]

theorem witness_PagePoolAndPins :
    ((pooled (pktB 0x30 1 [(20, 4, 1)])).admits 0x30 8 (dma grantBlock) (cmd 8 (pktB 0x30 1 [(20, 4, 1)])) = true) ∧
    ((pooled (pkt 0x30 [(16, 1, 1), (20, 4, 5), (32, 4, 8)])).admits 0x30 8 (dma [])
      (cmd 8 (pkt 0x30 [(16, 1, 1), (20, 4, 5), (32, 4, 8)])) = true) ∧
    ((withIndex activeIndex pinW).admits 0x31 8 (dma []) (cmd 8 pinW) = true ∧
      pinBad (pinIn (ctxOf (cmd 8 pinW) (dma [])) true) ip = false ∧
      (let q := pinIn (ctxOf (cmd 8 pinW) (dma [])) true
       ((((withIndex activeIndex pinW).setIndex 64 (activeIndex.addPin q)).tighten 1 q).syncCapacity 1).any (fun u =>
        u.pinsFit 1 (fun p => p.index == some 0 && u.inScope 1 (u.cfg 1).mapHash p.need q)) = true)) ∧
    ((withIndex activeIndex (pkt 0x32 [(16, 1, 3)])).admits 0x32 8 (dma []) (cmd 8 (pkt 0x32 [(16, 1, 3)])) = true) := by
  decide +kernel

/-- A search of class cls with `deadline_us` of d: k 1, nprobe 2, no filter, no bitmap. -/
def searchW (op cls d : Nat) : Bytes :=
  pktB op 2 [(1, 1, 2 + 16 * cls), (24, 4, 192), (28, 4, d), (32, 2, 1), (34, 2, 2), (36, 2, 1), (39, 1, 1), (41, 1, 255), (42, 1, 255)]
/-- Its block: one query vector of FP32 zeros. -/
def queryBlock : Bytes := overlay (zeros 128) 2 (leBytes 2 1)
/-- A device with the active index, all its pages resident, and a search. -/
def searching (op cls d : Nat) : State :=
  (({ (on8 (searchW op cls d)) with fields := [(1, Field.fresh { cfg1 with certified := true })] } : State).setIndex 64
    activeIndex)
/-- What the statements about searches ask of a packet. -/
def searchOk (s : State) (op cls d : Nat) (radius : Bool) : Bool :=
  let c := cmd 8 (searchW op cls d);
  let ctx := ctxOf c (dma queryBlock)
  let q := searchIn ctx
  s.admits op 8 (dma queryBlock) c && ctx.key == 64 && ctx.fn == 1 && q.cls == cls && !q.inlineBad ip radius &&
    !q.countBad (op == 0x21) && q.n * blockBytes q.k q.outFmt ≤ q.len && 64 + q.n * queryBytes ip q.vecFmt ≤ ctx.block.length &&
    (List.range q.n).all (fun n => (queryPats ctx ip q.vecFmt n).all (fun p => !isSpecial (vecFmt q.vecFmt) p) &&
      (prepare ip (vecFmt q.vecFmt) (queryPats ctx ip q.vecFmt n)).any (fun v => !s.replayDiffers 1 v.2)) &&
    !q.sbacBad && q.filterId == 0xFF && q.bitmapId == 0xFF && activeIndex.active && q.rerank == 0 &&
    activeIndex.tableBytes false ≤ tableArea && q.snapshot activeIndex == 3 && s.queries.isEmpty && s.ledger.isEmpty

/-- What a certified search binds. -/
def boundAt (op d : Nat) : Bound :=
  let ctx := ctxOf (cmd 8 (searchW op 0 d)) (dma queryBlock)
  let q := searchIn ctx
  ⟨q, ctx, ctx.key, activeIndex, 3, if op = 0x22 then some q.radius else none, none, none,
    ((List.range q.n).map (queryPats ctx ip q.vecFmt)).filterMap (prepare ip (vecFmt q.vecFmt))⟩

theorem witness_SearchBestEffort :
    ([0x20, 0x21, 0x22].all (fun op => [1, 2].all (fun cls => searchOk (searching op cls 0) op cls 0 (op == 0x22)))) = true := by
  decide +kernel

/-- A certified search's state once its block has been read. -/
def certified (d : Nat) : State := (searching 0x20 0 d).readBlock (cmd 8 (searchW 0x20 0 d)) none

theorem witness_SearchCertified :
    ([0x20, 0x21, 0x22].all (fun op => searchOk (searching op 0 2000) op 0 2000 (op == 0x22))) = true ∧
    (∃ r u, (certified 2000).tryAt (boundAt 0x20 2000) 2 = some r ∧
      (searching 0x20 0 2000).searchPinned 64 activeIndex false 3 = true ∧
      (certified 2000).firstMeeting (boundAt 0x20 2000) = some 2 ∧
      (certified 2000).tryAt (boundAt 0x20 2000) 2 = some (u, r.2) ∧ u.othersHold 8 0 = true) ∧
    ((certified 9).firstMeeting (boundAt 0x20 9) = none ∧ ((certified 9).tryAt (boundAt 0x20 9) 2).isSome = true) := by
  refine ⟨by decide +kernel, ?_, by decide +kernel⟩
  obtain ⟨r, hr, hu⟩ := some_of_any (p := fun (r : State × Nat) => r.1.othersHold 8 0)
    (show ((certified 2000).tryAt (boundAt 0x20 2000) 2).any _ = true by decide +kernel)
  exact ⟨r, r.1, hr, by decide +kernel, by decide +kernel, hr, hu⟩

/-! ### Queries on their way -/

/-- A class B query of the active index, changed by f. -/
def oneQuery (f : Query → Query) : List Query :=
  ((boundAt 0x20 0).queries 2 1000000 9).map (fun q => f { q with cls := 1 })
/-- A window with the query of `oneQuery`. -/
def window1 (closed formed : Bool) (ps : List ListPass) : Window := ⟨1, 0, false, 1000000, 20, [⟨8, 0, 0⟩], closed, formed, ps, 0⟩
/-- A live device with the active index, a search in the query path, its query and its window. -/
def inPath (f : Query → Query) (w : Window) : State :=
  { ((live1.setIndex 64 activeIndex).setField 1 { Field.fresh cfg1 with pages := [] }) with
    cmds := [{ cmd 8 (searchW 0x20 1 0) with work := .search }], queries := oneQuery f, windows := [(0, w)], rings := [(8, ring1)] }
/-- The query with its core, its lists and its table. -/
def scanning (q : Query) : Query :=
  { q with core := some 0, window := some 0, coulterDone := true, lists := [0, 1], todo := [0]
           table := some (activeIndex.buildTable q.vec false).1 }
/-- The query with its lists behind it and one candidate. -/
def scannedQ (q : Query) : Query := { scanning q with todo := [], cands := [⟨0x3F800000, 77, none⟩] }

/-- The one pass of list 0. -/
def pass0 : ListPass := ⟨0, 0, [⟨8, 0, 0⟩], none, false, []⟩
/-- What the statement about LIST_PASS asks of a window with that pass. -/
def passOk (s : State) (w : Window) : Bool :=
  let vs := pass0.visitors.filterMap s.query?
  let r := s.passReads 1 0 activeIndex 0 vs
  let u := (s.dropReader (.pass 0 0 0)).readPass 1 1 (unitKey 0 0) r
  !w.ready (w.queries.filterMap s.query?) && !s.readerHalted (.pass 0 0 0) && vs.length == 1 && !s.passHeld pass0 &&
    !s.passBehind 0 pass0 && !s.yields w && s.forcedFault 1 0 0 == none && (s.passAway 1 [] r).isNone &&
    !s.retrains 1 (r.side ++ r.need) && vs.all (fun q => q.cls != 0 && q.table.isSome && s.forcedReplays 1 == 0 &&
      (s.visitSpans activeIndex 0 q).all (fun a => !s.spanFault 1 a && !u.spanFault 1 a))
/-- What it asks for a tile of one query. -/
def tileOk (s : State) : Bool :=
  s.unitWorks 1 0 && !s.unitHeld 1 0 && !s.unitHeld 1 1 && s.nextTile.length == 1 &&
    decide (s.queries.map (fun r => r.ref)).Nodup && s.nextTile.all (fun h => !s.coarseFault h &&
      !(s.scoreRows h activeIndex s.nextTile).coarseFault h) && s.forcedReplays 1 == 0 &&
    !s.retrains 1 (centroidSpans 0 ip false) && !activeIndex.modeA
/-- What it asks for a distance table. -/
def tableOk (s : State) : Bool :=
  s.unitWorks 2 7 && (firstBuilt s.tableDue).any (fun q => !(s.readSpans 1 q.cls (unitKey 2 7) false
    [codebookSpan 0 ip]).spanFault 1 (codebookSpan 0 ip)) && !s.spanFault 1 (codebookSpan 0 ip) &&
    !s.retrains 1 [codebookSpan 0 ip] && s.forcedReplays 1 == 0

theorem witness_QueryScanning :
    ((inPath id (window1 false false [])).completing = true ∧ (inPath id (window1 false false [])).waiter.any (fun q =>
      ((inPath id (window1 false false [])).place q ((inPath id (window1 false false [])).queryTable q)).isSome) = true) ∧
    tileOk (inPath (fun q => { q with core := some 0 }) (window1 false false [])) = true ∧
    tableOk (inPath (fun q => { scanning q with table := none }) (window1 false false [])) = true ∧
    ((inPath id (window1 false false [])).openWindow 1 0 false = some (0, window1 false false [])) ∧
    (window1 true false []).ready ((window1 true false []).queries.filterMap (inPath scanning (window1 true false [])).query?) = true ∧
    passOk (inPath scanning (window1 true true [pass0])) (window1 true true [pass0]) = true := by
  decide +kernel

/-- A FETCH_VECTOR of one decoded vector by ID 77. -/
def fetchW : Bytes := pktB 0x23 2 [(24, 4, 128), (28, 1, 1)]
/-- Its block. -/
def idBlock : Bytes := overlay (overlay (zeros 128) 0 (leBytes 4 1)) 64 (leBytes 8 77)

/-- What the statement about RERANK asks of Assayer 3. -/
def rerankOk (s : State) : Bool :=
  s.unitWorks 4 3 && !s.narrowStalls (unitKey 4 3) && s.forcedReplays 1 == 0 &&
    (firstServed (s.queries.filter (fun q => q.rerank != 0 && !q.reranked && q.assayer == 3 && s.scanned q &&
      !s.readerHalted (.rerank q.ref)))).any (fun q =>
        let u := (s.dropReader (.rerank q.ref)).readSpans 1 q.cls (unitKey 4 q.assayer) true (s.rerankSpans activeIndex q)
        (s.rerankSpans activeIndex q).all (fun a => !s.spanFault 1 a && !u.spanFault 1 a) &&
        (s.firstAway 1 q.read (s.rerankSpans activeIndex q)).isNone && !s.retrains 1 (s.rerankSpans activeIndex q) &&
        (activeIndex.entryOf q 77).isSome)
/-- What it asks of a FETCH_VECTOR. -/
def fetchOk (s : State) : Bool :=
  let c := cmd 8 fetchW
  let t := s.readBlock c none
  let e := activeIndex.entryAt 3 s.order 77
  let spans := fetchTables 0 ip 1 ++ e.toList.flatMap (s.fetchSpans 1 0 activeIndex 1)
  s.admits 0x23 8 (dma idBlock) c && decide (s.takesNext 0x23 8 c) && 64 + roundUp (4 * 8) 64 == 128 && e.isSome &&
    decide (t.atHand 1 false spans) && spans.all (fun a => !(t.readSpans 1 c.runClass replyUnit false spans).spanFault 1 a)

theorem witness_QueryResults :
    rerankOk (inPath (fun q => { scannedQ q with rerank := 1, assayer := 3 }) (window1 true true [])) = true ∧
    (let s := inPath scannedQ (window1 true true []);
      (s.unitWorks 5 0 && (firstServed (s.queries.filter (fun q => q.merged.isNone && q.core.isSome && q.cryst == 0 && s.scanned q &&
        (q.rerank == 0 || q.reranked)))).isSome) = true) ∧
    (let s := inPath (fun q => (scannedQ q).merge) (window1 true true []);
      (s.unitWorks 8 0 && s.nextOutput.isSome && s.forcedReplays 1 == 0) = true) ∧
    fetchOk (withIndex activeIndex fetchW) = true := by
  decide +kernel

/-- A class C search of field 1 whose query waits for centroid rows on channel 7. -/
def certWaits : State :=
  { (inPath (fun q => { q with core := some 0, cls := 0 }) (window1 false false [])).setField 1 { Field.fresh cfg1 with
      pages := [⟨0, some 0, .centroids, 0, 0, .near 0 7, none, false, false, false, 0, false, false⟩] } with
    cmds := [{ cmd 8 (searchW 0x20 0 2000) with work := .search }] }

theorem witness_GddrRetraining_searches :
    certWaits.channelServes 7 = true ∧ certWaits.completing = true ∧
    (∃ c ∈ certWaits.cmds, c.stopped = none ∧ certWaits.searchesOnChannel 7 c = true) := by
  decide +kernel

/-- A class C query of the index while a PAGE_UNPIN comes. -/
def unpinning : State :=
  { withIndex activeIndex (pkt 0x32 [(16, 1, 3)]) with queries := (oneQuery id).map (fun q => { q with cls := 0 }) }

theorem witness_PagePoolAndPins_kept :
    unpinning.admits 0x32 8 (dma []) (cmd 8 (pkt 0x32 [(16, 1, 3)])) = true ∧
    (∃ r ∈ unpinning.queries, indexKey r.field r.index = 64 ∧ r.cls = 0) := by
  decide +kernel

/-! ### Field programs and streams -/

/-- An image for n cores with one empty data segment and a check value: thread 0 starts at 0, 64 bytes of results, arguments at
256. -/
def imageFor (n crc : Nat) : Bytes :=
  [(0, 4, 0x4B514650), (4, 2, 1), (6, 2, n), (9, 1, 4), (10, 2, 1), (12, 4, crc), (18, 6, 2 ^ 48 - 1), (24, 8, 2 ^ 64 - 1), (36, 4, 64),
    (40, 4, 64), (44, 4, 256), (48, 4, 7), (256, 1, 1), (268, 4, 320), (272, 2, 1)].foldl
      (fun b (e : Nat × Nat × Nat) => overlay b e.1 (leBytes e.2.1 e.2.2)) (zeros 320)
/-- The image for two cores, with its CRC-32C. -/
def image2 : Bytes := imageFor 2 0x602366A4
/-- The CRC register over bytes n to n + 63 of the image without its check value. -/
def crcOver (c : BitVec 32) (n : Nat) : BitVec 32 := (((imageFor 2 0).drop n).take 64).foldl crc32cByte c
/-- Programs are permitted, and field 1 may run them on two cores. -/
def allowing (s : State) : State :=
  (s.setTrust { s.trust with stakes := [(0, stakeRecord 0 0 4 0 0)] }).setField 1
    (Field.fresh { cfg1 with programs := true, programCores := 2, programSliceUs := 50 })
/-- Field 1 holds program 3, and meets a packet. -/
def withProgram (p : Bytes) : State :=
  let s := allowing (on8 p)
  s.modField 1 (fun f => { f with programs := [(3, ⟨imageFor 1 0, [], [(0, [(5, 9)])], []⟩)] })
/-- PROGRAM_LOAD of program 2 from a block. -/
def loadW : Bytes := pktB 0x38 5 [(16, 1, 2)]
/-- PROGRAM_RUN of program 3 for 20 µs with arguments. -/
def runW : Bytes := pktB 0x39 1 [(16, 1, 3), (20, 4, 20), (32, 4, 144)]
/-- TILE_READ of tile 1 of shape 0 of core 0, and TILE_WRITE of tile 1 of shape 7. -/
def tileW (op : Nat) : Bytes := if op = 0x3A then pkt op [(16, 1, 3), (18, 1, 1), (32, 4, 1088)] else pktB op 8 [(16, 1, 3), (18, 1, 1), (19, 1, 7)]
/-- A run of program 3 on core 5. -/
def run5 (ph : RunPhase) : Run := ⟨8, 0, 1, 3, 1, [5], ph, [1, 2, 3, 4], 20, 1000000, false⟩
/-- Field 1 with the run on core 5, whose thread 0 has trapped or still runs. -/
def atRun (ph : RunPhase) (th : ThreadStatus) : State :=
  { (({ (withProgram []) with runs := [(2, run5 ph)], nextRun := 3 } : State).setCore 5
      { Core.reset with run := some 2, tile := [(1, 8)], threads := [(0, { Thread.reset with status := th })] }) with
    cmds := [{ cmd 8 runW with work := .run 2 }] }

theorem crc_image2 : crc32c (overlay image2 12 (zeros 4)) = 0x602366A4#32 := by
  have e : overlay image2 12 (zeros 4) = imageFor 2 0 := by decide +kernel
  have h0 : crcOver 0xFFFFFFFF#32 0 = 0x41493B88#32 := by decide +kernel
  have h1 : crcOver 0x41493B88#32 64 = 0x3AE34578#32 := by decide +kernel
  have h2 : crcOver 0x3AE34578#32 128 = 0xF4B35831#32 := by decide +kernel
  have h3 : crcOver 0xF4B35831#32 192 = 0xFBC0A7E2#32 := by decide +kernel
  have h4 : crcOver 0xFBC0A7E2#32 256 = 0x9FDC995B#32 := by decide +kernel
  have s : imageFor 2 0 = ((((imageFor 2 0).drop 0).take 64 ++ ((imageFor 2 0).drop 64).take 64) ++
      (((imageFor 2 0).drop 128).take 64 ++ ((imageFor 2 0).drop 192).take 64)) ++ ((imageFor 2 0).drop 256).take 64 := by
    decide +kernel
  simp only [crcOver] at h0 h1 h2 h3 h4
  rw [e, s, crc32c]
  simp only [List.foldl_append]
  rw [h0, h1, h2, h3, h4]
  rfl
theorem image2_ok : imageOk image2 = true := by
  unfold imageOk
  rw [crc_image2]
  decide +kernel

theorem witness_StoredPrograms :
    ((withProgram loadW).admits 0x38 8 (dma image2) (cmd 8 loadW) = true ∧ (withProgram []).programsIn 1 = true ∧
      segmentsFit image2 = true ∧ num image2 6 2 ≤ 2) := by
  decide +kernel
theorem witness_StoredPrograms_pages :
    ((withProgram loadW).takesNext 0x38 8 (cmd 8 loadW)) ∧ (withProgram loadW).programBusy 1 2 = false ∧
    (∃ u, (((withProgram loadW).readBlock (cmd 8 loadW) none).modField 1 (fun f =>
        { f with programs := FMap.set f.programs 2 ⟨image2, [], [], []⟩ }) |>.syncPages 1) = some u ∧
      decide (u.atHand 1 true (programSpans 2 image2)) = true) :=
  ⟨by decide +kernel, by decide +kernel, some_of_any (by decide +kernel)⟩

/-- What the statement about TILE_READ and TILE_WRITE asks of tile 1 of core 0 in a shape. -/
def tilesOk (op code : Nat) (x : Shape) (b : Bytes) : Bool :=
  let s := withProgram (tileW op)
  let c := cmd 8 (tileW op)
  let spans := tileSpans 3 0 code x 1
  s.admits op 8 (dma b) c && decide (s.takesNext op 8 c) && shapeOf code == some x && 1 < x.count && !s.programRuns 1 3 &&
    (if op = 0x3A then decide (s.atHand 1 false spans) && x.wire code ≤ 1088 &&
      spans.all (fun a => !(s.readSpans 1 c.runClass replyUnit false spans).spanFault 1 a)
    else decide ((s.readBlock c none).atHand 1 true spans) && x.wire code ≤ b.length &&
      (List.range (x.rows * x.cols)).all (fun k => scaleAt (b.drop x.bytes) k != 3))

theorem witness_StoredPrograms_tiles :
    tilesOk 0x3A 0 ⟨16, 16, 4⟩ [] = true ∧ tilesOk 0x3B 7 ⟨16, 16, 2⟩ (zeros 512) = true ∧ (⟨16, 16, 4⟩ : Shape).wire 0 = 1088 := by
  decide +kernel

theorem witness_ProgramRuns :
    ((withProgram runW).admits 0x39 8 (dma (zeros 64)) (cmd 8 runW) = true ∧ 64 + 16 * 1 + 1 * num (imageFor 1 0) 40 4 ≤ 144 ∧
      1 ≤ ((withProgram runW).inService 0).length) ∧
    (let s := atRun .reserved .idle
     let spans := startSpans 3 (imageFor 1 0)
     s.completing = true ∧ (s.core 5).tables = [] ∧ (s.runCmd (run5 .reserved)).any (fun c =>
        spans.all (fun a => !s.spanFault 1 a && !(s.readSpans 1 c.runClass replyUnit false spans).spanFault 1 a)) = true ∧
      s.retrains 1 spans = false) ∧
    ((atRun .running .running).runCmd (run5 .running)).isSome = true ∧
    (let s := atRun .running (.trapped 3 0)
     s.runOver 2 (run5 .running) = true ∧ (s.runCmd (run5 .running)).isSome = true ∧
      s.spanLost 1 ⟨none, .tileFile 3, 0, 0, 8704⟩ = false ∧ s.retrains 1 [⟨none, .tileFile 3, 0, 0, 8704⟩] = false) := by
  decide +kernel

/-- A descriptor of form 0 over the scratch pages, elements of 2^e bytes, with one base, one stride, one count and the words of its
address program. -/
def descOf (dir e base : Nat) (ws : List Nat) : Bytes :=
  overlay ((([(1, 1, dir), (2, 1, 1), (3, 1, e), (4, 4, 4096), (8, 1, 12), (16, 8, base), (48, 4, 256), (80, 2, 3)] : List (Nat × Nat × Nat)).foldl
    (fun b e => overlay b e.1 (leBytes e.2.1 e.2.2)) (zeros 128))) 88 (ws.flatMap (leBytes 2))
/-- A stream of the run on core 5. -/
def streamOf (d : Bytes) (p : AddrProg) : Stream :=
  ⟨d, 1, some 2, 5, 0, 0, .program, p, 0, [], [], 0, [], .running, [], 0⟩
/-- Scratch page 0 of program 3, in GDDR or in the pool. -/
def scratchPage (away : Bool) : Page :=
  ⟨9, none, .scratch 3, 0, 0, if away then .pool 0x200000 else .near 0 4, none, false, false, false, 0, false, false⟩
/-- The run on core 5 with stream 6. -/
def streaming (away : Bool) (x : Stream) : State :=
  let s := { (atRun .running .running) with streams := [(6, x)], nextStream := 7 }
  s.modField 1 (fun f => { f with pages := [scratchPage away] })
/-- A stream at word w of its program. -/
def atWord (base e w : Nat) (p : AddrProg) : State := streaming false (streamOf (descOf 0 e base [w]) p)
/-- Address programs as they start, in a loop of level 1, and with 4096 bytes emitted from 256 on. -/
def inLoop (c : BitVec 16) : AddrProg := { AddrProg.reset with loops := [0, c, 0, 0], openLevels := [(1, 0)] }
def emitted1 : AddrProg := { AddrProg.reset with emitted := [(256, 64)], done := true }
/-- A stream whose sequence is known. -/
def known (dir : Nat) (away : Bool) (req : List Nat) : State :=
  streaming away { streamOf (descOf dir 6 0 [0]) emitted1 with requested := req }

/-- What the statement about address programs asks of a stream at word w. -/
def wordOk (p : AddrProg) (w : Nat) : Bool :=
  let s := atWord 0 6 w p
  s.completing && (s.streamRun 6).any (fun (y : Stream × Run) => y.1.phase == .running && descForm y.1.desc == 0 && y.1.desc != [] &&
    !y.1.prog.done && y.1.prog.x.length == 4 && y.1.prog.loops.length == 4 && (y.1.prog.word y.1.desc).toNat == w)

theorem witness_AddressPrograms :
    ([0x0000, 0x1000, 0x2480, 0x3001, 0x4000, 0x4100, 0x5400].all (wordOk AddrProg.reset)) = true ∧
    ({ AddrProg.reset with x := [3, 0, 0, 0] } : AddrProg).reg 0 = 3 ∧ wordOk { AddrProg.reset with x := [3, 0, 0, 0] } 0x3001 = true ∧
    (wordOk { emitted1 with done := false } 0x3001 = true ∧ descBufSize (descOf 0 6 0 [0x3001]) < emitted1.bytes 64 + 64) ∧
    descCount (descOf 0 6 0 [0x4000]) 0 = 3 ∧ descCount (descOf 0 6 0 [0x4100]) 1 = 0 ∧
    ((inLoop 1).openLevels.head? = some (1, 0) ∧ wordOk (inLoop 1) 0x5400 = true) := by
  decide +kernel

/-- What the statement about tile requests asks of the stream. -/
def requestOk (dir : Nat) : Bool :=
  let s := known dir false []
  (s.streamRun 6).any (fun (y : Stream × Run) => s.completing && y.1.ready && y.1.window == [0] && y.1.roomFor 0 &&
    !s.pieceLost y.1 (s.tilePieces y.1 y.2 0) && (s.tilePieces y.1 y.2 0).all (fun p => p.permitted y.2) &&
    (awayPage (s.tilePieces y.1 y.2 0)).isNone)
/-- What the one about deliveries asks of a tile with issued bytes ws. -/
def deliverOk (dir : Nat) (held : Bool) : Bool :=
  let ws : List (Nat × Bytes) := [(0, [1, 2])]
  let s := known dir false [0]
  let s := if held then { s with granary := [⟨3, (((scratchPage false).placeOf 0).getD (0, 0)).1,
    (((scratchPage false).placeOf 0).getD (0, 0)).2, 1, .W, [6], none, false, false, 0, false⟩] } else s
  (s.streamRun 6).any (fun (y : Stream × Run) => s.completing && y.1.ready && y.1.requested.contains 0 && !y.1.delivered.contains 0 &&
    !s.tileWaits 6 0 && !s.pieceLost y.1 (s.tilePieces y.1 y.2 0) && descDir y.1.desc == dir && s.writeHeld y.2 ws == held)
/-- A stream that emits past the scratch area: its oldest tile is not permitted. -/
def beyondScratch : Bool :=
  let s := streaming false (streamOf (descOf 0 6 0 [0]) { AddrProg.reset with emitted := [(0x200000, 64)], done := true })
  (s.streamRun 6).any (fun (y : Stream × Run) => y.1.ready && y.1.window == [0] && y.1.roomFor 0 &&
    !s.pieceLost y.1 (s.tilePieces y.1 y.2 0) && !(s.tilePieces y.1 y.2 0).all (fun p => p.permitted y.2))

theorem witness_StreamTiles :
    requestOk 0 = true ∧ requestOk 1 = true ∧ beyondScratch = true ∧ deliverOk 0 false = true ∧ deliverOk 1 false = true ∧
    deliverOk 1 true = true := by
  decide +kernel

/-- The device's stream of a list pass, halted on page 9. -/
def passHalt : Stream := { streamOf [] emitted1 with run := none, reader := .pass 0 0 0, phase := .halted 9 }

theorem witness_HaltedStreams :
    (let s := known 0 true [];
      (s.streamRun 6).any (fun (y : Stream × Run) => s.completing && y.1.ready && y.1.tile < y.1.tiles && y.1.run == some 2 &&
        ((s.tilePieces y.1 y.2 0).find? (fun p => p.permitted y.2 && p.page.any (fun q => !q.inGddr))).any (fun p => p.page.isSome)) = true) ∧
    (((known 0 false []).field? 1).any (fun g => g.pages.any (fun q => q.num == 9 && q.inGddr)) = true ∧
      ((known 0 false []).streams.filter (fun e => e.1 == 6)).length = 1 ∧
      (streamOf (descOf 0 6 0 [0]) emitted1).waitsFor 1 9 = false ∧
      ({ streamOf (descOf 0 6 0 [0]) emitted1 with phase := .halted 9 } : Stream).waitsFor 1 9 = true ∧
      ({ streamOf [] emitted1 with phase := .halted 9 } : Stream).waitsFor 1 9 = true ∧ passHalt.waitsFor 1 9 = true) ∧
    (let s := streaming true { streamOf (descOf 0 6 0 [0]) emitted1 with phase := .halted 9 };
      s.completing = true ∧ s.hashBlocked 1 = false ∧ (s.pageInDue 1).any (fun r => match s.bringIn 1 r.1 r.2 0 true with
        | .done _ => true
        | _ => false) = true ∧
      s.cmds.any (fun c => c.stopped.isNone && s.waitsForPage 1 9 c) = true) := by
  decide +kernel

/-- A line in state W with its sharers and what it waits to write. -/
def waitingLine (sh : List Nat) (w : Option (Nat × Nat × Bytes)) : Line :=
  ⟨3, 2, 40, 1, .W, sh, w, false, false, 0, false⟩
/-- The line in the Granary. -/
def invalidating (sh : List Nat) (w : Option (Nat × Nat × Bytes)) : State := { (withProgram []) with granary := [waitingLine sh w] }

theorem witness_GranaryLines :
    (∀ sh ∈ ([[5], [5, 6]] : List (List Nat)), ∀ w ∈ ([none, some (3, 256, [1, 2])] : List (Option (Nat × Nat × Bytes))),
      (invalidating sh w).up = true ∧ (invalidating sh w).lineOf 2 40 = some (waitingLine sh w) ∧ 5 ∈ (waitingLine sh w).sharers ∧
      ((invalidating sh w).field? 1).any (fun f => (FMap.get? f.programs 3).isSome) = true) ∧
    live1.up = true ∧
    (let shape : SplitShape := ⟨4, 4, 12, 2⟩
     let x := live1.sumOf 0 shape
     shape.ok = true ∧ x.shape = shape ∧ x.runs + 1 < shape.runs ∧ x.inOrder 0 x.runs = true ∧ x.inOrder 1 (x.runs + 1) = true ∧
      ∀ k, k < 3 → FMap.get? x.waiting (x.runs + k) = none) := by
  decide +kernel

/-- A message to core 5, thread 2. -/
def msg52 : Message := ⟨4, 0, 5, 2, 9, [1]⟩
/-- It waits in the network, or in the send buffer of core 4. -/
def network (buffered : Bool) : State :=
  if buffered then live1.setCore 4 { Core.reset with sendBuf := [msg52] } else { live1 with messages := [msg52] }

theorem witness_CoreMessages_delivery :
    ((network false).completing = true ∧ (network false).messages.find? (fun m => m.for_ 5 2) = some msg52 ∧
      (((network false).core 5).thread 2).recvQ.length < 4) ∧
    ((network true).messages.find? (fun m => m.for_ 5 2) = none ∧
      ((network true).cores.find? (fun c => (c.2.sendBuf.head?).any (fun m => m.for_ 5 2))).any (fun c => c.1 == 4) = true) := by
  decide +kernel

/-! ### Furrow cores -/

/-- An instruction word of a class and code with lower bits. -/
def word (cls op low : Nat) : BitVec 32 := BitVec.ofNat 32 (cls * 2 ^ 28 + op * 2 ^ 22 + low)
/-- Registers: D0 is 0, D1 64, A0 512, A1 66048, N0 32. -/
def regs5 : List (BitVec 64) := (((List.replicate 32 0).set 1 64).set 16 512 |>.set 17 66048).set 24 32
/-- A thread at word 0 that runs. -/
def thread5 : Thread := { Thread.reset with r := regs5, status := .running }
/-- What thread 0 of core 5 issues: a word, its thread and its core changed by f and g. -/
def slotOf (w : BitVec 32) (f : Thread → Thread) (g : Core → Core) : Slot3 :=
  let c := g { Core.reset with run := some 2, imem := [(0, w)], threads := [(0, f thread5)] }
  ⟨5, 0, c, f thread5, w, 2, run5 .running⟩
/-- The machine that issues it. -/
def issuing5 (x : Slot3) : State := (atRun .running .running).setCore 5 x.c
/-- The machine issues it. -/
def issuesOk (cls op : Nat) (x : Slot3) : Bool :=
  (issuing5 x).completing && (match (issuing5 x).issuing 5 0 with
    | none => false
    | some y => y.w == x.w && y.t == x.t && y.c == x.c) && isWord cls op x.w && x.t.r.length == 32 && x.t.v.length == 16 &&
    x.t.vacc.length == 4 && x.t.vacc.all (fun a => a.length == 16)
/-- The machine issues every code of a class, whatever the bits below say. -/
def classOk (cls : Nat) (lows : List Nat) (f : Thread → Thread) : Bool :=
  (opsOf cls).all (fun op => lows.all (fun l => issuesOk cls op (slotOf (word cls op l) f id)))

/-- The codes of classes 1, 2 and 7. -/
theorem witness_ScalarInstructions : classOk 1 [0x1FFFF, 0] id = true := by decide +kernel
theorem witness_VectorInstructions :
    classOk 2 [8] id = true ∧ cvtOk 8 = true ∧ (∀ n, n < 16 → special32 (lane (thread5.vreg 0) n) = false) := by decide +kernel
theorem witness_DivisionInstructions :
    classOk 7 [0x1000, 0x80] id = true ∧ special32 0 = false ∧ (fp32 64).m ≠ 0 ∧ (fp32 0).m = 0 ∧ (fp32 0x80000040).neg = true := by
  decide +kernel

/-- A level of a repeat that ends at word 0. -/
def level0 (n : Nat) : Level := ⟨BitVec.ofNat 16 n, 0, 0, 0⟩
theorem witness_ControlInstructions :
    ([id, (fun t => { t with levels := [level0 1, level0 2, level0 1, level0 1] }),
      (fun t => { t with rs := List.replicate 8 ⟨3, 0⟩ })] : List (Thread → Thread)).all
      (fun f => classOk 0 [0, 0x1FFFF] f) = true ∧
    condition 0 0 = true ∧ condition 1 0 = false ∧ ((thread5.reg 0).truncate 16 : BitVec 16) = 0 ∧
    ((thread5.reg 1).truncate 16 : BitVec 16) ≠ 0 ∧ ({ thread5 with levels := [level0 1] } : Thread).active = [level0 1] := by
  decide +kernel

theorem witness_LocalMemory :
    ([0, 1, 2, 3].all (fun op => [0x0C0, 0x180].all (fun l => issuesOk 4 op (slotOf (word 4 op l) id id)))) = true ∧
    ([8, 9].all (fun op => [0, 1].all (fun l => issuesOk 3 op (slotOf (word 3 op l) id id)))) = true ∧
    (localAddr (thread5.reg 16) % 2 ^ 6 = 0 ∧ localAddr (({ thread5 with r := regs5.set 16 3 } : Thread).reg 16) % 2 ^ 6 ≠ 0) := by
  decide +kernel

theorem witness_DualOperands :
    ([(3, 1), (3, 2), (4, 4), (4, 5), (3, 4)].all (fun (e : Nat × Nat) =>
      issuesOk e.1 e.2 (slotOf (word e.1 e.2 0x200) id id) && issuesOk e.1 e.2 (slotOf (word e.1 e.2 0x208) id (fun c => { c with twin := true })))) = true ∧
    (slotOf (word 3 1 0x200) id id).dualTrap = none ∧ (slotOf (word 3 1 0) id id).dualTrap = some 2 ∧
    (slotOf (word 3 1 0x208) id (fun c => { c with twin := true })).dualTrap = some 6 := by
  decide +kernel

/-- LDC of scratch page 0, in GDDR or away, and the line it reads: not cached, or in state W. -/
def ldcState (away held : Bool) : State :=
  let s := issuing5 (slotOf (word 4 8 0x0C0) (fun t => { t with r := regs5.set 16 (BitVec.ofNat 64 (9 * 2097152)) }) id)
  let s := s.modField 1 (fun f => { f with pages := [scratchPage away] })
  if held then { s with granary := [⟨3, (((scratchPage false).placeOf 0).getD (0, 0)).1, (((scratchPage false).placeOf 0).getD (0, 0)).2,
    1, .W, [6], none, false, false, 0, false⟩] } else s

/-- The channel line that the LDC of `ldcState` reads. -/
def ldcPlace : Nat × Nat := ((scratchPage false).placeOf 0).getD (0, 0)
/-- What the thread of `ldcState` issues there, and the page and the line that it reads. -/
def ldcMeets (s : State) (p : Slot3 → Page → Bool) : Bool :=
  (s.issuing 5 0).any (fun x => isWord 4 8 x.w && (s.pageAt 1 x.ldcAddr).any (p x))
/-- The line stands in the Granary, shared by core 6. -/
def ldcShared : State :=
  { ldcState false false with granary := [⟨3, ldcPlace.1, ldcPlace.2, 1, .S, [6], none, false, false, 0, false⟩] }
/-- The read cache of core 5 holds the line. -/
def ldcCached : State :=
  (ldcState false false).setCore 5 { (ldcState false false).core 5 with cache := [(lineKey ldcPlace.1 ldcPlace.2, zeros 256)] }
/-- As many requests as n of core 5, that of the line first, wait at the line's channel. -/
def ldcAsked (n : Nat) : State :=
  (ldcState false false).setChannel ldcPlace.1 { Channel.reset with
    queue := (List.range n).map (fun k => ⟨5, 1, 2 ^ 32 + 5, 0, 1, true, false, ldcPlace.2 + k, none⟩) }
/-- Six streams of core 5, one of them ended or all running. -/
def sixStreams (ended : Bool) : State :=
  { (issuing5 (slotOf (word 9 0 0) id (fun c => { c with slots := (List.range 6).map (fun k => (k, k)) }))) with
    streams := (List.range 6).map (fun k => (k, { streamOf (descOf 0 6 0 [0]) emitted1 with
      slot := k, phase := if ended && k == 4 then .ended 0 else .running })) }
/-- The machine of `withSlots` where slot 0 holds a stream in a phase. -/
def slotHeld (ph : StreamPhase) : State :=
  { (issuing5 (slotOf (word 9 1 0) id (fun c => { c with slots := [(0, 6)] }))) with
    streams := [(6, { streamOf (descOf 0 6 0 [0]) emitted1 with phase := ph })] }

theorem witness_FieldLoadsAndStreams_ldc :
    ldcMeets (ldcState true false) (fun _ p => p.readableBy 3 && !p.inGddr) = true ∧
    ldcMeets ((ldcState false false).modField 1 (fun f => { f with pages := [{ scratchPage false with part := .scratch 4 }] }))
      (fun _ p => !p.readableBy 3) = true ∧
    (issuing5 (slotOf (word 4 8 0x0C0) id id)).pageAt 1 512 = none ∧
    ([ldcState false false, ldcShared, ldcCached, ldcState false true, ldcAsked 1, ldcAsked 33].all (fun s =>
      ldcMeets s (fun x p => p.readableBy 3 && p.inGddr && p.placeOf x.ldcAddr == some ldcPlace && !s.lineLost 1 p x.ldcAddr))) = true ∧
    ldcMeets { ldcState false false with badChunks := [(1, 9, 2)] } (fun x p =>
      ({ ldcState false false with badChunks := [(1, 9, 2)] } : State).lineLost 1 p x.ldcAddr) = true ∧
    ldcMeets ldcCached (fun x _ => (x.c.cache.find? (fun e => e.1 == lineKey ldcPlace.1 ldcPlace.2)).isSome) = true ∧
    (ldcShared.lineOf ldcPlace.1 ldcPlace.2).any (fun l => l.dir == .S) = true ∧
    ldcShared.forcedMiss 1 (ldcShared.home 1 ldcPlace.1 ldcPlace.2) = false ∧
    ((ldcState false true).lineOf ldcPlace.1 ldcPlace.2).any (fun l => l.dir == .W) = true := by
  decide +kernel

theorem witness_FieldLoadsAndStreams_requests :
    ldcMeets (ldcState false false) (fun x _ =>
      !((ldcState false false).channel ldcPlace.1).queue.contains (x.ldcRequest ldcPlace.2) &&
      !(ldcState false false).laneFull ldcPlace.1 (x.ldcRequest ldcPlace.2)) = true ∧
    (ldcState false false).lineOf ldcPlace.1 ldcPlace.2 = none ∧ (ldcState false false).narrowStalls (unitKey 0 5) = false ∧
    ldcMeets (ldcAsked 1) (fun x _ => ((ldcAsked 1).channel ldcPlace.1).queue.contains (x.ldcRequest ldcPlace.2)) = true ∧
    (ldcAsked 33).narrowStalls (unitKey 0 5) = true := by
  decide +kernel

theorem witness_FieldLoadsAndStreams_streams :
    classOk 9 [0] id = true ∧
    ((sixStreams false).issuing 5 0).any (fun x => isWord 9 0 x.w &&
      (List.range 6).all (fun k => !(sixStreams false).slotEnded x.c k)) = true ∧
    ((sixStreams true).issuing 5 0).any (fun x => isWord 9 0 x.w && (sixStreams true).slotEnded x.c 4 &&
      (List.range 6).all (fun m => (FMap.get? x.c.slots m).isSome)) = true ∧
    (sixStreams false).slotEnded Core.reset 0 = true ∧
    (descOk (descOf 1 6 0 [0]) = true ∧ descDir (descOf 1 6 0 [0]) = 1) ∧
    ([.running, .ended 0].all (fun ph => ((slotHeld ph).slotStream (slotOf (word 9 1 0) id (fun c =>
      { c with slots := [(0, 6)] }))).any (fun y => y.2.slot == 0 && y.2.phase == ph))) = true := by
  decide +kernel

theorem witness_TilesAndLookups :
    classOk 5 [0, 0x04000, 0x3F] id = true ∧ (shapeOf 0).isSome = true ∧ shapeOf 0x3F = none ∧
    (classOk 6 [0x1080, 0x1083] (fun t => { t with r := regs5.set 1 (BitVec.ofNat 64 (3 * 2 ^ 32)) }) = true ∧
      classOk 6 [0x1080] (fun t => { t with r := regs5.set 1 3 }) = true) := by
  decide +kernel

theorem witness_CoreMessages :
    classOk 8 [5 * 1024 + 2 * 128, 64] id = true ∧
    ((issuing5 (slotOf (word 8 0 0) id id)).targetOf (run5 .running) 5 0 = none ∧
      (issuing5 (slotOf (word 8 0 0) id id)).targetOf (run5 .running) 0 0 = some 5) ∧
    ([msg52].find? (fun m => true || (m.fromCore == 4 && m.fromThread == 0))).isSome = true := by
  decide +kernel

/-! ### Links and the cascade -/

/-- A live device with HXL and port 1 as given. -/
def portAt (x : Port) : State :=
  ({ live1 with board := { live1.board with hxlRail := true }, glob := { live1.glob with straps := { Straps.low with hxlEn := true } } } : State).setPort 1 x
/-- A port in a state since 0.5 ms. -/
def inState (st : PortState) : Port := { Port.reset with state := st, since := 500000, lanes := 0xFF }

/-- What the receive lanes show of straight or reversed wiring, on all lanes or on the lower half, lane 2 inverted. -/
def seenOf (reversed half : Bool) : List (Option (Nat × Bool)) :=
  (List.range 8).map (fun k => let n := wiredTo reversed k; if half && 4 ≤ n then none else some (n, k == 2))

theorem witness_LinkTraining :
    (([.detect, .lock, .equalise, .align, .negotiate] : List PortState).all (fun st => (portAt (inState st)).portOn 1)) = true ∧
    (portAt (inState .lock)).board.hxlRail = true ∧
    ({ portAt (inState .lock) with board := { live1.board with hxlRail := false } } : State).portOn 1 = true ∧
    4 ≤ lanesIn 0x0F ∧ (([true, false].all fun r => [true, false].all fun h => ((inState .lock).lock (seenOf r h)).isSome) = true) ∧
    (usableLanes (0xFF &&& 0x3F)).isSome = true ∧
    (portAt (inState .detect)).port 1 = inState .detect ∧ (inState .detect).since ≤ live1.tbk ∧
    ((inState .lock).state.limit = some 10000000) ∧
    ({ inState .active with replay := [⟨3, 1, 0, [], true, 8⟩], retraining := true } : Port).replay.any (fun f => 8 ≤ f.resends)
      = true ∧ (follower (portAt { inState .detect with retraining := true })).follows = true ∧
    (portAt { inState .detect with retraining := true }).follows = false := by
  decide +kernel

/-- The wiring that a port in LOCK can meet: straight without inversion, and reversed on the lower half with lane 2, 5 or neither
inverted. -/
theorem witness_LinkTraining_lock :
    ((seenOf false false).length = 8 ∧ (∀ n, n < 8 → (seenOf false false).getD (wiredTo false n) none =
      some (n, (0x04#8).getLsbD (wiredTo false n))) ∧ ∀ n, n < 8 → (seenOf false false).getD n none = none → (0x04#8).getLsbD n = false) ∧
    ((seenOf true true).length = 8 ∧ (∀ n, n < 8 → n < 4 → (seenOf true true).getD (wiredTo true n) none =
      some (n, (0x00#8).getLsbD (wiredTo true n))) ∧ ∀ n, n < 8 → 4 ≤ n → (seenOf true true).getD (wiredTo true n) none = none) := by
  decide +kernel

/-- An ACTIVE port with what waits and what is unacknowledged. -/
def busyPort (waiting replay : List TxFlit) : Port :=
  { inState .active with waiting := waiting, replay := replay, txSeq := 5, rxNext := 9 }
/-- A flit with its check: type, number and acknowledgement. -/
def flitOf (ty seq ack : Nat) : Bytes :=
  let b := leBytes 1 ty ++ leBytes 2 seq ++ leBytes 2 ack ++ zeros 243
  b ++ leBytes 8 (crc64 b).toNat

theorem witness_Flits :
    ((busyPort [] [⟨3, 1, 0, [], false, 0⟩]).replay.find? (fun f => !f.sent)).isSome = true ∧
    ((busyPort [⟨0, 1, 0, [], false, 0⟩] []).nextNew ((portAt (busyPort [] [])).control 5 0xFF 1)).isSome = true ∧
    (busyPort [] [⟨3, 1, 0, [], true, 0⟩]).nextNew 0 = none ∧ (portAt (busyPort [] [])).portOn 1 = true ∧
    ((portAt (busyPort [] [])).port 1).state = .active ∧ ((portAt (busyPort [] [])).crossing 353).entries = [] ∧
    num (zeros 256) 248 8 = 0 ∧ num (overlay (zeros 256) 0 [1]) 0 1 % 16 = 1 ∧ num (overlay (zeros 256) 3 [3]) 3 2 = (3 : BitVec 12).toNat := by
  decide +kernel

/-- A lead outside any cascade. -/
def loneLead (p : Bytes) : State :=
  let s := leader (onAdmin p)
  { s with casc := Cascade.reset }
/-- A standby lead whose lead is silent. -/
def standby (p : Bytes) : State :=
  let s := follower (onAdmin p)
  { s with trust := { s.trust with effective := [(2, 3)] }, casc := { s.casc with state := 0, records := [(0, absentRec)] } }
/-- CASCADE_FORM of a ring of two. -/
def formW : Bytes := pkt 0x48 [(16, 1, 1), (20, 2, 2), (32, 4, 4160)]

theorem witness_CascadeFormation_commands :
    ((loneLead formW).admits 0x48 128 (dma []) (cmd 128 formW) = true ∧ (loneLead formW).mayForm = true ∧
      (loneLead formW).cascadeExists = false) ∧
    ((standby (pkt 0x4A [])).admits 0x4A 128 (dma []) (cmd 128 (pkt 0x4A [])) = true ∧ (standby (pkt 0x4A [])).standbyByStake = true ∧
      (standby (pkt 0x4A [])).leadAnswers = false) ∧
    ((onAdmin (pkt 0x49 [(32, 4, 4160)])).admits 0x49 128 (dma []) (cmd 128 (pkt 0x49 [(32, 4, 4160)])) = true) := by
  decide +kernel

/-- A census runs for a CASCADE_FORM or a CASCADE_PROMOTE. -/
def censusOf (promote : Bool) : State :=
  let s := if promote then standby [] else loneLead []
  { s with cmds := [{ cmd 128 formW with work := .census promote }], casc := { s.casc with state := 1, expected := 2, topology := 1 } }
/-- A device one hop away by port 0. -/
def foundOne : MemberRecord := ⟨7, 2, 0, 2, false, 0, 1, 0, 1, some 1, none, 0, 0, true⟩

theorem witness_CascadeFormation_census :
    ((portAt (inState .active)).answersProbe 1 5 = true) ∧
    (∀ b ∈ [false, true], (censusOf b).completing = true ∧ (censusOf b).censusCmd.any (fun c => c.2 == b) = true) ∧
    (censusOf false).casc.positionOf foundOne = some 1 ∧ (censusOf true).casc.leadOrdinal ≠ (censusOf true).casc.ordinal := by
  decide +kernel

/-- Member 2 of the cascade is lost. -/
def lossyLead : State :=
  let s := leader live1
  { s with casc := { s.casc with expected := 3, records := s.casc.records ++ [(2, ⟨9, 4, 0, 2, 0, 0, 0, 1, 1⟩)] } }
/-- A class C search that uses member 1. -/
def usingOne : State :=
  { leader live1 with
    queries := (oneQuery (fun q => { q with cls := 0, parts := [(0, 1)] })), cmds := [{ cmd 8 (searchW 0x20 0 9) with work := .search }] }

theorem witness_CascadeMembers :
    ((leader live1).completing = true ∧ (leader live1).leads = true ∧ (follower live1).up = true ∧ (follower live1).follows = true) ∧
    (FMap.get? lossyLead.casc.records 2).any (fun r => r.status == 4) = true ∧ lossyLead.leads = true ∧
    ((leader live1).casc.isMember 1 = true ∧ (leader live1).casc.ordinal = 0) ∧
    usingOne.queries.all (fun q => usingOne.usesMember q 1 && q.ref.of 8 0) = true := by
  decide +kernel

/-- An active index sharded over members 0 and 1 in mode 1, 3 or 4. -/
def shared (mode : Nat) : Index := { activeIndex with p := { ip with cascMode := mode }, placement := [[0, 1]] }
/-- A member with the index. -/
def memberWith : State := (follower live1).setIndex 64 (shared 1)
/-- A record of ID 9: eight FP32 elements. -/
def recordOf9 : Bytes := leBytes 8 9 ++ (List.replicate 8 (leBytes 4 0x3F800000)).flatten
/-- A part of a search over lists 0 and 1. -/
def partOf : SearchPartMsg := ⟨1, 0, 0x55, 0, 1, 3, 1, 0, false, none, 0xFF, none, none, 0, zeros 32, [0, 1], [], []⟩
/-- A census in which this device is member 1. -/
def censusMsg : CensusMsg := ⟨1, 0, 1, 0, 0, 2, false, [(0, 5, 0, 1), (1, 6, 0, 1)]⟩

/-- The member with field 1 removable, and with Evaporator 1 on list 0. -/
def memberBusy : State := { memberWith with evaporators := [(1, ⟨64, 0, 3, [1], []⟩)] }
/-- A COMMIT as the statement prepares it on the member, in field 1 as configured. -/
def commitAt (c : FieldCfg) : Option Prepared :=
  (((memberWith.modField 1 (fun f => { f with cfg := c })).dropReader (.copy 64)).setIndex 64
    ((shared 1).setApart [])).prepareCommit 64 1
/-- Mutations of the lead, and a COMMIT that can be prepared, that cannot, and that meets what is lost. -/
def copyOk : Bool :=
  memberWith.follows && memberWith.index? 1 0 == some (shared 1) && (shared 1).active &&
    ((shared 1).memberRecord 0x10 0 recordOf9).isSome && ((shared 1).memberRecord 0x11 0 (leBytes 8 77)).isSome &&
    !memberWith.readerHalted (.copy 64) &&
    (commitAt cfg1).any (fun r => r.spans.all (fun a => !r.s.spanLost 1 a) && (r.s.firstAway 1 [] r.spans).isNone &&
      !r.s.retrains 1 r.spans) && (commitAt { cfg1 with gddrPages := 0 }).isNone
/-- The member's index with two pending mutations. -/
def sharedPend : Index := { shared 1 with pending := pendIndex.pending, stamp := 7 }
/-- Pair 0, on which the member's tombstones lie, has failed. -/
def memberLossy : State := ((memberWith.setIndex 64 sharedPend).modField 1 (fun f => { f with pages := [⟨0, some 0, .tombstones, 0, 0, .near 0 3, none, false,
  false, false, 0, false, false⟩] })).setUnit 10 0 ⟨4, false, false, 0, false, false⟩
/-- A part of a search whose pages are at hand. -/
def partOk : Bool :=
  (prepare ip (vecFmt 0) (patterns (vecFmt 0) ip.v partOf.query)).any (fun v =>
    let q := memberWith.partQuery partOf v.1 v.2.fl
    let u := ({ memberWith with served := [(0, ⟨partOf, q, []⟩)], order := memberWith.order + 1 } : State).dropReader (.part 0)
    let spans := u.partSpans (shared 1) ⟨partOf, q, []⟩
    let w := u.readSpans 1 1 (unitKey 0 ((u.inService 0).headD 0)) false spans
    [0, 1].all (fun l => u.forcedFault 1 0 l == none) && decide (u.atHand 1 false spans) && spans.all (fun b => !w.spanFault 1 b) &&
      memberWith.forcedReplays 1 == 0 && memberWith.served.isEmpty)

theorem witness_CascadeData :
    ((follower live1).completing = true ∧ (follower live1).role = 2 ∧ (follower live1).cascFormed = true) ∧
    ((∃ st, (follower live1).applyBlock 1 (fit 256 [255, 255, 255, 255]) = .inl st) ∧ (∃ u, (follower live1).applyBlock 1 (fit 256 newBlock) = .inr u ∧
      (u.field? 1).any (fun f => !f.removing) = true)) ∧
    copyOk = true ∧ partOk = true ∧
    usingOne.completing = true ∧ (usingOne.query? ⟨8, 0, 0⟩).any (fun q => q.parts.any (fun p => p.1 == 0)) = true ∧
    usingOne.cmds.all (fun c => c.ring == 8 && c.seq == 0 && c.work == .search) = true := by
  refine ⟨by decide +kernel, ⟨Sum.isLeft_iff.1 (by decide +kernel), ?_⟩, by decide +kernel, by decide +kernel, by decide +kernel,
    by decide +kernel, by decide +kernel⟩
  have h : (match (follower live1).applyBlock 1 (fit 256 newBlock) with
    | .inr u => (u.field? 1).any (fun f => !f.removing)
    | .inl _ => false) = true := by decide +kernel
  cases e : (follower live1).applyBlock 1 (fit 256 newBlock) with
  | inl st => rw [e] at h; cases h
  | inr u => rw [e] at h; exact ⟨u, rfl, h⟩

/-- What a definition that the lead sends leads to. -/
def definesOk (p b : Bytes) : Bool :=
  match (follower (filtered [])).definition (defCtx 1 (fit 64 (p ++ b)) ((p ++ b).drop 64)) with
  | .accept _ => true
  | _ => false

theorem witness_CascadeData_definitions :
    definesOk (filterW 0x28 5 0) filterBlock = true ∧
    (match (follower (filtered [])).definition (defCtx 1 (fit 64 (filterW 0x29 9 0)) ((filterW 0x29 9 0).drop 64)) with
      | .refuse _ _ => true
      | _ => false) = true ∧
    (memberBusy.evaporators.find? (fun c => c.2.key == 64 && c.2.list == num ([0] : Bytes) 1 4)).isSome = true ∧
    (memberWith.evaporators.find? (fun c => c.2.key == 64 && c.2.list == num ([0] : Bytes) 1 4)).isNone = true ∧
    (((memberLossy.dropReader (.copy 64)).setIndex 64 (sharedPend.setApart [(8, 4), (8, 5)])).prepareCommit 64 1).any (fun r =>
      r.spans.any (r.s.spanLost 1)) = true := by
  decide +kernel

/-- The lead with an index in mode 3 or 4 whose copy on member 1 is fenced or not. -/
def leadWith (mode : Nat) (fence : Bool) : State :=
  (leader live1).setIndex 64 { shared mode with fenced := if fence then [(0, 1)] else [] }

theorem witness_CopiesAndScrub :
    (({ standby [] with casc := { (standby []).casc with state := 2 } } : State).cascFormed = true ∧
      ({ standby [] with casc := { (standby []).casc with state := 2 } } : State).role = 3) ∧
    ((leadWith 4 true).leads = true ∧ (leadWith 4 true).index? 1 0 = some { shared 4 with fenced := [(0, 1)] } ∧
      argMin (fun m => m) ((leadWith 4 true).slotCopies { shared 4 with fenced := [(0, 1)] } 0) = some 0) ∧
    ((leadWith 3 false).compacting 64 0 = false ∧ (leadWith 3 false).slotCopies (shared 3) 0 = [0, 1]) ∧
    (([⟨0, [], [1], 1⟩, ⟨1, [], [2], 1⟩] : List CopyReport).map (fun r => r.ordinal)).Nodup := by
  decide +kernel

/-- This device's own report of list 0, and member 1's, which shows the same entries or another slot count. -/
def ownReport0 : CopyReport := (leadWith 3 false).ownReport 1 0 0 (shared 3)
def otherReport (same : Bool) : CopyReport := { ownReport0 with ordinal := 1, slots := if same then ownReport0.slots else 9 }
/-- The reports that the lead compares, its own and those given. -/
def compared (copies : List CopyReport) : List CopyReport :=
  (ownReport0 :: copies.filter (fun r => r.ordinal != (leadWith 3 false).casc.ordinal)).filter (fun r =>
    ((leadWith 3 false).slotCopies (shared 3) 0).contains r.ordinal)

theorem compared_other (same : Bool) : compared [otherReport same] = [ownReport0, otherReport same] := rfl
theorem compared_none : compared [] = [ownReport0] := rfl
theorem witness_CopiesAndScrub_reports :
    ((follower live1).setIndex 64 (shared 3)).follows = true ∧
    (∃ m ∈ (leadWith 3 false).slotCopies (shared 3) 0, ∀ r ∈ compared [], r.ordinal ≠ m) ∧
    (∀ m ∈ (leadWith 3 false).slotCopies (shared 3) 0, ∃ r ∈ compared [otherReport true], r.ordinal = m) ∧
    (∀ r ∈ compared [otherReport true], ∀ q ∈ compared [otherReport true], r.data = q.data) ∧
    (∃ r ∈ compared [otherReport false], ∃ q ∈ compared [otherReport false], r.data ≠ q.data) := by
  have h : (leadWith 3 false).slotCopies (shared 3) 0 = [0, 1] := by decide +kernel
  refine ⟨by decide +kernel, ⟨1, by simp [h], fun r m => ?_⟩, ?_, ?_, ?_⟩
  · rw [compared_none] at m
    rw [List.mem_singleton.1 m]
    decide +kernel
  · rw [h, compared_other]
    intro m hm
    simp only [List.mem_cons, List.not_mem_nil, or_false] at hm
    rcases hm with rfl | rfl
    · exact ⟨ownReport0, by simp, by decide +kernel⟩
    · exact ⟨otherReport true, by simp, rfl⟩
  · rw [compared_other]
    have e : (otherReport true).data = ownReport0.data := by simp [otherReport, CopyReport.data]
    simp [e]
  · rw [compared_other]
    refine ⟨ownReport0, by simp, otherReport false, by simp, fun e => ?_⟩
    have n : ownReport0.slots = 9 := congrArg (fun d => d.2.2) e
    exact absurd n (by decide +kernel)

/-! ### SPDM, pins and the sideband -/

theorem witness_Spdm :
    live1.spdmServed .mctp = true ∧ live1.spdmServed .doe = true ∧ (0x11#8 ≠ 0x12#8) ∧ (summaryBlocks 0).isSome = true ∧ (measIndex 3).isSome = true ∧
    (∀ n, n < 8 → (live1.trust.reg n).length = 48) := by
  decide +kernel
theorem witness_Spdm_chain : 0 < live1.chain.length := by
  simp [State.chain, zeros]

/-- The VID code at its target, or beyond every code. -/
def vidAt (target : Bool) : State :=
  { live1 with board := { live1.board with vid := if target then live1.vidTarget else 21 } }
/-- The TAP in Shift-DR under a debug instruction, with `debug_unlock` effective. -/
def debugging : State :=
  { live1 with
    trust := { live1.trust with effective := [(0, 1)] }, board := { live1.board with tap := .shiftDr, tapInstr := 6 } }

theorem witness_PinsAndSideband :
    live1.sidebandServed = true ∧ (0x4B#7 ≠ 0x4A#7) ∧ live1.up = true ∧ live1.board.powered = true ∧ live1.tapDebug = false ∧
    debugging.tapDebug = true ∧ live1.debugUnlock = false ∧ live1.board.vidDriven = true ∧ unpowered.board.powered = false ∧
    live1.tapInstruction ≤ 2 := by
  decide +kernel
theorem witness_PinsAndSideband_udid : smbusUdid + 1 ≠ smbusUdid := by
  intro h
  bv_omega
theorem witness_PinsAndSideband_sensors :
    (junctionLimit < (1000 : BitVec 16).toInt ∧ (0 : BitVec 16).toInt ≤ junctionLimit - 40) ∧
    (vidAt true).board.vid = (vidAt true).vidTarget ∧ (vidAt false).board.vid ≠ (vidAt false).vidTarget := by
  refine ⟨by unfold junctionLimit; split <;> decide, rfl, ?_⟩
  have : (vidAt false).vidTarget ≤ 20 := Nat.min_le_left _ _
  intro h
  rw [← h] at this
  exact absurd this (by decide)

/-! ### What every step keeps -/

/-- A command at the front of the queue, with a written stake copy, or after a device-fatal error. -/
def queuedUp (fatal : Bool) : State :=
  { live1 with
    pending := [.i3cAddressAssign false 5 6, .heartbeat], trust := { live1.trust with stakes := [(0, stakeRecord 0 0 4 0 0)] }
    glob := { live1.glob with fatal := fatal } }

theorem witness_invariants :
    (∃ t, step (queuedUp false) = .next t) ∧ (queuedUp false).trust.copy 0 0 0 ≠ zeros 32 ∧ (queuedUp false).flashOk ∧
    (∃ t, step (queuedUp true) = .next t) ∧ (queuedUp true).glob.fatal = true ∧
    (queuedUp false).crossingsEmpty ∧
    (∀ c ∈ (queuedUp true).pending.head?, (∀ a k, c ≠ .coldReset a k) ∧ (∀ k, c ≠ .perstN k) ∧ ∀ o r, c ≠ .powerUp o r) := by
  refine ⟨⟨_, rfl⟩, by decide +kernel, by decide +kernel, ⟨_, rfl⟩, rfl, fun _ => rfl, ?_⟩
  rintro c h
  cases h
  exact ⟨(fun _ _ h => nomatch h), (fun _ h => nomatch h), fun _ _ h => nomatch h⟩

/-- Step executes the command at the front of the queue on the rest. -/
theorem witness_StepRunsFront : (queuedUp false).pending.head? = some (.i3cAddressAssign false 5 6) := rfl

/-! ### The spec's worked examples -/

/-- Table 2.10: the completion record of tag 0x0A17. -/
theorem test_record_table_2_10 :
    recordBytes { Ring.reset with phase := true, sqHead := 5 } 0x0A17 0 0x48 4 2430910 0 0 =
      [0x17, 0x0A, 0, 0, 0x48, 0, 0, 0x80, 4, 0, 0, 0, 0, 0, 5, 0, 0xBE, 0x17, 0x25, 0, 0, 0, 0, 0, 0, 0, 0, 0, 0, 0, 0, 0] := by
  decide

/-- Table 5.8: filter 3. -/
def filter3 : FilterProg :=
  ⟨false, [⟨10, true, [⟨0, 7, 6, 0⟩]⟩, ⟨10, false, [⟨1, 2, 1000, 0⟩]⟩, ⟨20, true, [⟨0, 0, 0x40, 0⟩]⟩]⟩
/-- Table 5.9: its verdicts. -/
theorem test_filter_table_5_9 :
    ([[2, 5000], [4, 200], [0x40, 200], [1, 5000]] : List (List (BitVec 32))).map filter3.allows = [true, false, true, false] := by
  decide

/-- Chapter 6, worked example: three adds in mode A in two orders. -/
theorem test_mode_a_order :
    [modeAStep (modeAStep (modeAStep (0, 0) 0x7F7FFFFF) 0xFF7FFFFF) 0x43000000,
      modeAStep (modeAStep (modeAStep (0, 0) 0x43000000) 0x7F7FFFFF) 0xFF7FFFFF] = [(0x43000000, 0), (0, flIX)] := by
  decide +kernel

/-- Table 6.9: run 0 overflows at level 0 and completes at level 1 as 2^67, with OF. -/
theorem test_run_table_6_9 :
    let r := runReplay 8 (List.replicate 128 ⟨⟨false, 1, 124⟩, false⟩)
    toFp32 r.v = 0x61000000 ∧ r.level = 1 ∧ r.fl = flOF ∧ r.replays = 1 := by
  decide +kernel

/-- Table 7.9: MOVI A1 and MOVI A2. -/
theorem test_movi_table_7_9 :
    isWord 1 0x20 0x18230000 ∧ wD 0x18230000 = aReg 1 ∧ wImm17 0x18230000 = 0x10000 ∧
      isWord 1 0x20 0x18248000 ∧ wD 0x18248000 = aReg 2 ∧ wImm17 0x18248000 = 0x8000 := by
  decide
/-- Table 7.9: REP_I of one word, 64 times. -/
theorem test_rep_table_7_9 : wCls 0x04000040 = 0 ∧ wOp 0x04000040 = 0x10 ∧ wA6 0x04000040 = 0 ∧ wImm16 0x04000040 = 64 := by
  decide
/-- Table 7.9: MAC16 over A0 and A1. -/
theorem test_mac16_table_7_9 :
    isWord 3 1 0x30403230 ∧ wT 0x30403230 = 0 ∧ wAx 0x30403230 = 0 ∧ wPmx 0x30403230 = 3 ∧ wAy 0x30403230 = 1 ∧
      wPmy 0x30403230 = 3 ∧ wP 0x30403230 = false := by
  decide
/-- Table 7.9: STA32 with h 8. -/
theorem test_sta32_table_7_9 :
    isWord 3 8 0x32008788 ∧ wD 0x32008788 = 0 ∧ wA 0x32008788 = 2 ∧ wN 0x32008788 = 0 ∧ wPm 0x32008788 = 3 ∧
      wSize 0x32008788 = 6 ∧ wX6 0x32008788 = 8 := by
  decide
/-- Chapter 7, worked example: what STA32 stores of three lanes. -/
theorem test_fix_store_chapter_7 :
    [fixStore 32 8 19200000, fixStore 32 8 68715282496, fixStore 32 0 68715282496] =
      [(75000, false), (268419072, false), (2147483647, true)] := by
  decide +kernel

/-- Table 8.9: T_tile and T_tab in ns, with every unit in service. -/
theorem test_figures_table_8_9 : cyclesNs 1200 (3 * 2048 * 32) + 1000 = 164840 ∧ cyclesNs 1600 1184080 = 740050 := by decide
/-- Table 8.9: a search of the worked example as it enters the ledger, with the finishes recorded for it. -/
def entry89 (field key cpuWork memWork start tail coreEnd memEnd : Nat) : LedgerEntry :=
  { ref := ⟨1, 1, 0⟩, field := field, key := key, tFetch := 0, bound := 0, core := 17, cpuWork := cpuWork, memWork := memWork
    sieve := 0, sieveWork := 0, assayer := none, assayWork := 0, start := start, tail := tail, coreEnd := coreEnd
    memEnd := memEnd, sieveEnd := 0, assayEnd := 0, finish := 0 }
/-- Table 8.9: P's chain, then Q's. -/
theorem test_chain_table_8_9 :
    ((entry89 0 1500000 740050 22540 506000 12084 0 0).chained [entry89 1 0 0 0 0 0 745050 1064380]).finish = 1499184 := by
  decide +kernel

/-- Table 9.6: channel and line, parity, set. -/
theorem test_place_table_9_6 :
    (Loc.hash 709).place 0x1345 = some (7, 363316) ∧ (Loc.hash 709).place 0x1355 = some (7, 363317) ∧
      parity (363316 / 4) = 1 ∧ setOf 363316 = 13 ∧ setOf 363317 = 13 := by
  decide
/-- Chapter 9, worked example: a line of IDs in D16W64. -/
theorem test_line_format_chapter_9 :
    lineFormat ((List.range 32).flatMap (fun n => leBytes 8 (7340032 + 3 * n))) = 3 := by
  decide +kernel

/-- Chapter 10, worked example: the route from 0 to 7 of a 4 × 2 torus. -/
theorem test_route_chapter_10 :
    let x := { Cascade.reset with topology := 3, torusX := 4, torusY := 2, expected := 8 }
    x.orderPort 0 7 0 = 1 ∧ x.isWrap 0 1 ∧ x.orderPort 3 7 0 = 2 := by
  decide
/-- Table 10.12: the slots of three IDs, and the copies of a slot. -/
theorem test_slots_table_10_12 :
    [1, 2, 3].map (fun n => slotOfId n 4) = [2, 0, 3] ∧
      placementOf 4 2 [0, 1, 2, 3, 4, 5, 6, 7] = some [[0, 1], [2, 3], [4, 5], [6, 7]] := by
  decide

/-- Chapter 11, worked example: the first 28 bytes of slot 5 of ROLLBACK_FLOOR. -/
theorem test_stake_chapter_11 :
    (stakeRecord 1 5 7 0x6A1B2C00 7).take 28 =
      [7, 0, 0, 0, 0, 0, 0, 0, 0, 0x2C, 0x1B, 0x6A, 7, 0, 0, 0, 5, 1, 0, 0, 0, 0, 0, 0, 0, 0, 0, 0] := by
  decide

/-- Table 13.11: the value that INT_ENABLE reads after 0x3C is written. -/
theorem test_enable_table_13_11 : ((live.writeEnable 0 0x3C).fn 0).enable = 0x13D := by decide
end Sys2Proof.Tests
end

/-! ### Packets with a reserved opcode (R12) -/

namespace Sys2Proof.Machine

theorem exec_reservedOpcode (ring : Nat) (dma : Dma) (s : State) :
    exec (.reservedOpcode ring dma) s = execReservedOpcode ring dma s := rfl

/-- A refusal by status alone ends the command with a record that carries no `info`, no bound and no flags. -/
@[simp] theorem State.settle_no (s : State) (c : Cmd) (dma : Dma) (status : Nat) :
    s.settle c dma (no status) = s.finish c status 0 0 0 dma.recordOk := rfl

/-- What RESERVED_OPCODE does to the oldest unadmitted packet of a ring: it is ended with ST_BAD_OPCODE exactly when its
opcode is reserved, no fence holds it and the Steward serves; else the state stays. -/
theorem execReservedOpcode_of_nextPacket {s : State} {ring : Nat} {c : Cmd} (dma : Dma)
    (hring : ring ≤ adminRing) (hc : s.nextPacket ring = some c) :
    execReservedOpcode ring dma s =
      if opSpec c.opcode = none ∧ s.unfenced c = true ∧ s.serving = true then
        .next (s.finish c stBAD_OPCODE 0 0 0 dma.recordOk)
      else .next s := by
  have hunit : ¬ adminRing < ring := Nat.not_lt.mpr hring
  have hguard : ((opSpec c.opcode).isSome || !s.unfenced c || !s.serving) = true ↔
      ¬ (opSpec c.opcode = none ∧ s.unfenced c = true ∧ s.serving = true) := by
    simp [imp_iff_not_or, or_assoc, Option.isSome_iff_ne_none]
  simp only [execReservedOpcode, if_neg hunit, hc, hguard, State.settle_no, ite_not]

/-- Settles O12: the guard of RESERVED_OPCODE holds, so the packet is ended with ST_BAD_OPCODE. -/
theorem reservedOpcode : Obligations.ReservedOpcode := by
  intro s ring dma c hring hc hop hunfenced hserving
  rw [exec_reservedOpcode, execReservedOpcode_of_nextPacket dma hring hc, if_pos ⟨hop, hunfenced, hserving⟩]
  rfl

end Sys2Proof.Machine

/-! ### Ring registers: reads after writes, RING_CTL and the end of a command (R73, R74, R77) -/

namespace Sys2Proof.Machine

@[simp] theorem State.ring_setRing_self (s : State) (r : Nat) (x : Ring) : (s.setRing r x).ring r = x := by
  rw [State.ring_setRing, if_pos rfl]

@[simp] theorem State.setRing_setRing (s : State) (r : Nat) (x y : Ring) :
    (s.setRing r x).setRing r y = s.setRing r y := by
  unfold State.setRing
  rw [FMap.set_set]

@[simp] theorem State.cmdsOf_setRing (s : State) (r q : Nat) (x : Ring) : (s.setRing r x).cmdsOf q = s.cmdsOf q := rfl

/-! #### A write to RING_CTL -/

/-- Ring r with the configuration that a RING_CTL write of v leaves it (R73). -/
def State.ringWritten (s : State) (r : Nat) (v : BitVec 32) : Ring :=
  if s.ringWritable r then { s.ring r with log2 := (v >>> 4).truncate 5, prio := (v >>> 2).truncate 2 } else s.ring r

theorem State.ringWritten_of_disabled {s : State} {r : Nat} (v : BitVec 32) (hoff : (s.ring r).enable = false) :
    s.ringWritten r v = if s.ringIdle r = true then
      { s.ring r with log2 := (v >>> 4).truncate 5, prio := (v >>> 2).truncate 2 } else s.ring r := by
  simp only [State.ringWritten, State.ringWritable, hoff, Bool.not_false, Bool.true_and]

theorem State.ringWritten_of_enabled {s : State} {r : Nat} (v : BitVec 32) (hon : (s.ring r).enable = true) :
    s.ringWritten r v = s.ring r := by
  simp only [State.ringWritten, State.ringWritable, hon, Bool.not_true, Bool.false_and, Bool.false_eq_true, if_false]

@[simp] theorem State.ringWritten_enable (s : State) (r : Nat) (v : BitVec 32) :
    (s.ringWritten r v).enable = (s.ring r).enable := by
  unfold State.ringWritten
  split <;> rfl

/-- Bits below `prio` and `log2_entries` say nothing about the configuration. -/
theorem State.ringWritten_or (s : State) (r : Nat) (v : BitVec 32) {m : BitVec 32} (h4 : m >>> 4 = 0#32) (h2 : m >>> 2 = 0#32) :
    s.ringWritten r (v ||| m) = s.ringWritten r v := by
  simp only [State.ringWritten, BitVec.ushiftRight_or_distrib, h4, h2, BitVec.or_zero]

theorem Ring.toNat_ctl (x : Ring) :
    x.ctl.toNat = 16 * x.log2.toNat + 4 * x.prio.toNat + if x.enable then 1 else 0 := by
  have hlog := x.log2.isLt
  have hprio := x.prio.isLt
  unfold Ring.ctl
  rw [BitVec.toNat_ofNat]
  split <;> omega

theorem Ring.log2_ctl (x : Ring) : (x.ctl >>> 4).truncate 5 = x.log2 := by
  have hlog := x.log2.isLt
  have hprio := x.prio.isLt
  apply BitVec.eq_of_toNat_eq
  simp only [BitVec.truncate_eq_setWidth, BitVec.toNat_setWidth, BitVec.toNat_ushiftRight, Ring.toNat_ctl,
    Nat.shiftRight_eq_div_pow]
  split <;> omega

theorem Ring.prio_ctl (x : Ring) : (x.ctl >>> 2).truncate 2 = x.prio := by
  have hprio := x.prio.isLt
  apply BitVec.eq_of_toNat_eq
  simp only [BitVec.truncate_eq_setWidth, BitVec.toNat_setWidth, BitVec.toNat_ushiftRight, Ring.toNat_ctl,
    Nat.shiftRight_eq_div_pow]
  split <;> omega

/-- RING_CTL written as it reads leaves the configuration. -/
@[simp] theorem State.ringWritten_ctl (s : State) (r : Nat) : s.ringWritten r (s.ring r).ctl = s.ring r := by
  simp only [State.ringWritten, Ring.log2_ctl, Ring.prio_ctl, ite_self]

/-- What a RING_CTL write does where the ring's registers are served. -/
theorem State.writeRingCtl_of_served {s : State} {r : Nat} (v : BitVec 32) (hserved : s.ringServed r = true) :
    s.writeRingCtl r v =
      if v.getLsbD 1 then (s.setRing r (s.ringWritten r v)).resetRing r
      else if v.getLsbD 0 && !(s.ring r).enable then
        if (s.ringWritten r v).configValid then s.setRing r (s.ringWritten r v).started
        else (s.setRing r { s.ringWritten r v with enable := true }).ringError r 4
      else s.setRing r { s.ringWritten r v with enable := v.getLsbD 0 } := by
  rw [← s.ringWritten_enable r v]
  simp only [State.writeRingCtl, hserved, Bool.not_true, Bool.false_eq_true, if_false]
  rfl

theorem Ring.configValid_iff (x : Ring) : x.configValid = true ↔
    6 ≤ x.log2.toNat ∧ x.log2.toNat ≤ 16 ∧ x.sqBase.toNat % 4096 = 0 ∧ x.cqBase.toNat % 4096 = 0 := by
  simp [Ring.configValid, and_assoc]

theorem State.ringIdle_iff (s : State) (r : Nat) : s.ringIdle r = true ↔
    s.cmdsOf r = [] ∧ ((s.ring r).errRecordDue = false ∨ (s.ring r).cqWritable = false) := by
  simp [State.ringIdle]

theorem exec_ringEnable {ring : Nat} (v : BitVec 32) (s : State) (hring : ring ≤ adminRing) :
    exec (.ringEnable ring v) s = .next (s.writeRingCtl ring (v ||| 1#32)) :=
  if_neg (Nat.not_lt.mpr hring)

theorem exec_ringReset {ring : Nat} (s : State) (hring : ring ≤ adminRing) :
    exec (.ringReset ring) s = .next (s.writeRingCtl ring ((s.ring ring).ctl ||| 2#32)) :=
  if_neg (Nat.not_lt.mpr hring)

theorem getLsbD_zero_or_one (v : BitVec 32) : (v ||| 1#32).getLsbD 0 = true := by simp

theorem getLsbD_one_or_one (v : BitVec 32) : (v ||| 1#32).getLsbD 1 = v.getLsbD 1 := by simp

/-- RING_ENABLE on a disabled ring: in service with a valid configuration, in error with cause 4 without one. -/
theorem exec_ringEnable_of_disabled {s : State} {ring : Nat} {v : BitVec 32} (hring : ring ≤ adminRing)
    (hserved : s.ringServed ring = true) (hreset : v.getLsbD 1 = false) (hoff : (s.ring ring).enable = false) :
    exec (.ringEnable ring v) s = .next (
      if (s.ringWritten ring v).configValid then s.setRing ring (s.ringWritten ring v).started
      else (s.setRing ring { s.ringWritten ring v with enable := true }).ringError ring 4) := by
  rw [exec_ringEnable v s hring, State.writeRingCtl_of_served _ hserved, State.ringWritten_or _ _ _ rfl rfl,
    getLsbD_one_or_one, getLsbD_zero_or_one, hreset, hoff]
  rfl

theorem exec_ringEnable_of_enabled {s : State} {ring : Nat} {v : BitVec 32} (hring : ring ≤ adminRing)
    (hserved : s.ringServed ring = true) (hreset : v.getLsbD 1 = false) (hon : (s.ring ring).enable = true) :
    exec (.ringEnable ring v) s = .next (s.setRing ring (s.ring ring)) := by
  have hsame : { s.ring ring with enable := true } = s.ring ring := by rw [← hon]
  rw [exec_ringEnable v s hring, State.writeRingCtl_of_served _ hserved, State.ringWritten_of_enabled _ hon,
    getLsbD_one_or_one, getLsbD_zero_or_one, hreset, hon, hsame]
  rfl

/-! #### A ring reset (R77) -/

theorem State.resetRing_of_quiet {s : State} {r : Nat} (h : s.cmdsOf r = []) :
    s.resetRing r = s.setRing r (s.ring r).cleared := by
  simp [State.resetRing, State.settleRing, h, Ring.cleared]

theorem State.resetRing_of_busy {s : State} {r : Nat} (h : s.cmdsOf r ≠ []) :
    s.resetRing r = s.setRing r { s.ring r with resetting := true } := by
  simp [State.resetRing, State.settleRing, h]

/-- R77: RING_RESET resets the ring with its configuration as it stands. -/
theorem exec_ringReset_of_served {s : State} {ring : Nat} (hring : ring ≤ adminRing) (hserved : s.ringServed ring = true) :
    exec (.ringReset ring) s = .next ((s.setRing ring (s.ring ring)).resetRing ring) := by
  have hbit : ((s.ring ring).ctl ||| 2#32).getLsbD 1 = true := by simp
  rw [exec_ringReset s hring, State.writeRingCtl_of_served _ hserved, if_pos hbit, State.ringWritten_or _ _ _ rfl rfl,
    State.ringWritten_ctl]

/-! #### A command that ends on a ring under reset -/

@[simp] theorem State.countFlags_rings (s : State) (f : Nat) (fl : Flags) : (s.countFlags f fl).rings = s.rings := by
  simp only [State.countFlags, apply_ite State.rings, State.countField_rings, ite_self]

@[simp] theorem State.countFlags_out (s : State) (f : Nat) (fl : Flags) : (s.countFlags f fl).out = s.out := by
  simp only [State.countFlags, apply_ite State.out, State.countField_out, ite_self]

@[simp] theorem State.countFlags_cmds (s : State) (f : Nat) (fl : Flags) : (s.countFlags f fl).cmds = s.cmds := by
  simp only [State.countFlags, apply_ite State.cmds, State.countField_cmds, ite_self]

theorem State.writeRecord_of_resetting {s : State} {r : Nat} (h : (s.ring r).resetting = true) (tag status : Nat) (fl : Flags)
    (seq : BitVec 48) (lat bound info : Nat) (irq ok : Bool) :
    s.writeRecord r tag status fl seq lat bound info irq ok = s := by
  simp [State.writeRecord, h]

/-- The flags that the record of an ending command carries: none where it was refused. -/
def Cmd.endFlags (c : Cmd) (status : Nat) (fl : Flags) : Flags :=
  if 0 < status && status < 0x100 then 0 else fl ||| flIf c.perturbed flPERTURBED

/-- The device before the record of an ending command: the command and its halted reads gone, its end counted. -/
def State.retired (s : State) (c : Cmd) (status : Nat) (fl : Flags) : State :=
  let s := { s.setCmds (s.cmds.filter (fun d => !d.is c.ring c.seq)) with
    streams := s.streams.filter (fun x => x.2.reader != Reader.cmd c.ring c.seq) }
  let s := if 0 < status && status < 0x100 then s.count 0 1 1
    else if 0x100 ≤ status && status < 0x200 then s.count 0 2 1 else s
  if c.ring = adminRing then s else s.countFlags (ringFn c.ring) (c.endFlags status fl)

section Retired
variable (s : State) (c : Cmd) (status : Nat) (fl : Flags)

@[simp] theorem State.retired_rings : (s.retired c status fl).rings = s.rings := by
  simp only [State.retired, apply_ite State.rings, State.count_rings, State.countFlags_rings, State.setCmds_rings, ite_self]

@[simp] theorem State.retired_out : (s.retired c status fl).out = s.out := by
  simp only [State.retired, apply_ite State.out, State.count_out, State.countFlags_out, State.setCmds_out, ite_self]

@[simp] theorem State.retired_cmds : (s.retired c status fl).cmds = s.cmds.filter (fun d => !d.is c.ring c.seq) := by
  simp only [State.retired, apply_ite State.cmds, State.count_cmds, State.countFlags_cmds, State.setCmds_cmds, ite_self]

@[simp] theorem State.retired_ring (r : Nat) : (s.retired c status fl).ring r = s.ring r := by
  simp only [State.ring, State.retired_rings]

theorem State.finish_eq (info bound : Nat) (ok : Bool) :
    s.finish c status info bound fl ok =
      let t := s.retired c status fl
      let u := t.writeRecord c.ring c.tag status (c.endFlags status fl) c.seq (min (t.tbk - c.tFetch) 0xFFFF_FFFF) bound
        (if status = 0 then info else 0) c.irq ok
      (if (u.ring c.ring).resetting then u else
        u.traceRec 2 (ringField c.ring) noUnit (traceWord 2 0 c.ring c.seq.toNat)
          (traceWord 2 1 status (c.endFlags status fl).toNat)).settleRing c.ring := rfl

end Retired

/-- R77: on a ring under reset a command ends without a record and without a trace. -/
theorem State.finish_of_resetting {s : State} {c : Cmd} (h : (s.ring c.ring).resetting = true) (status info bound : Nat)
    (fl : Flags) (ok : Bool) :
    s.finish c status info bound fl ok = (s.retired c status fl).settleRing c.ring := by
  have hret : ((s.retired c status fl).ring c.ring).resetting = true := by rw [State.retired_ring, h]
  simp only [State.finish_eq, State.writeRecord_of_resetting hret, hret, if_true]

@[simp] theorem State.settleRing_out (s : State) (r : Nat) : (s.settleRing r).out = s.out := by
  unfold State.settleRing
  split <;> rfl

theorem State.settleRing_of_resetting {s : State} {r : Nat} (h : (s.ring r).resetting = true) (hnone : s.cmdsOf r = []) :
    s.settleRing r = s.setRing r (s.ring r).cleared := by
  simp only [State.settleRing, h, hnone, List.isEmpty_nil, Bool.and_self, if_true]

/-- The last outstanding command of a ring leaves none behind. -/
theorem State.cmdsOf_retired_of_last {s : State} {c : Cmd} (h : s.cmdsOf c.ring = [c]) (status : Nat) (fl : Flags) :
    (s.retired c status fl).cmdsOf c.ring = [] := by
  have hself : c.is c.ring c.seq = true := by simp [Cmd.is]
  calc (s.retired c status fl).cmdsOf c.ring
      = (s.cmdsOf c.ring).filter (fun d => !d.is c.ring c.seq) := by
        simp only [State.cmdsOf, State.retired_cmds, List.filter_filter, Bool.and_comm]
    _ = [] := by simp [h, hself]

/-! #### RING_CTL settled -/

/-- Settles O4: RING_ENABLE and RING_RESET write RING_CTL with one bit more, which leaves the configuration as the value
gives it; a command that ends on a ring under reset only leaves the outstanding commands and lets the reset end. -/
theorem ringEnableAndReset : Obligations.RingEnableAndReset := by
  refine ⟨fun s ring v hring hserved hreset => ?_, fun s ring hring hserved => ⟨fun hquiet => ?_, fun hbusy => ?_, ?_⟩⟩
  · intro x y valid
    refine ⟨fun hoff hvalid => ?_, fun hoff hinvalid => ?_, exec_ringEnable_of_enabled hring hserved hreset,
      s.ringIdle_iff ring⟩
    all_goals
      have hy : s.ringWritten ring v = y := State.ringWritten_of_disabled v hoff
      rw [exec_ringEnable_of_disabled hring hserved hreset hoff, hy]
    · rw [if_pos (y.configValid_iff.mpr hvalid)]
      rfl
    · rw [if_neg (mt y.configValid_iff.mp hinvalid)]
  · rw [exec_ringReset_of_served hring hserved, State.resetRing_of_quiet (by simpa using hquiet),
      State.setRing_setRing, State.ring_setRing_self]
    rfl
  · rw [exec_ringReset_of_served hring hserved, State.resetRing_of_busy (by simpa using hbusy),
      State.setRing_setRing, State.ring_setRing_self]
  · intro c status info bound fl ok hresetting
    rw [State.finish_of_resetting hresetting]
    refine ⟨by simp, fun hlast => ?_⟩
    rw [State.settleRing_of_resetting (by simpa using hresetting) (State.cmdsOf_retired_of_last hlast status fl),
      State.ring_setRing_self, State.retired_ring]

end Sys2Proof.Machine

/-! ### A ring error on a full event log (R80, R114, R668, R712) -/

namespace Sys2Proof.Machine

theorem State.raiseVector_rings (s : State) (fn v : Nat) :
    (s.raiseVector fn v).rings = (s.signalled (vectorRing fn v)).rings := by
  simp only [State.raiseVector, apply_ite State.rings, State.setFn_rings, State.emit_rings, ite_self]

/-- R80: an enabled event of the physical function raises vector 0, so the records of the admin ring count as signalled. -/
theorem State.setEvent_ring_adminRing {s : State} {bit : Nat} (hen : (s.fn 0).enable.getLsbD bit = true) :
    (s.setEvent 0 bit).ring adminRing = { s.ring adminRing with unsignalled := 0, unsignalledSince := none } := by
  have hrings : (s.setEvent 0 bit).rings =
      FMap.set s.rings adminRing { s.ring adminRing with unsignalled := 0, unsignalledSince := none } := by
    simp only [State.setEvent, State.fn_setFn, if_true, hen, State.raiseVector_rings]
    rfl
  rw [State.ring, hrings, FMap.getD_set_self]

/-- R668: an entry that a full log takes sets the physical function's event bit 9. -/
theorem State.appendLog_of_full {s : State} {e : LogEntry} {rest : List LogEntry} (hlog : s.log.entries = e :: rest)
    (hfull : 4096 ≤ s.log.entries.length) {code : Nat} (hcode : e.code ≠ code) (field sev unit : Nat) (detail : Bytes) :
    ∃ t : State, t.rings = s.rings ∧ t.fns = s.fns ∧ s.appendLog code field sev unit detail = t.setEvent 0 9 := by
  rw [hlog] at hfull
  simp only [State.appendLog, hlog, hcode, false_and, if_false, if_neg (Nat.not_lt.mpr hfull)]
  exact ⟨_, by rw [State.count_rings, State.count_rings], by rw [State.count_fns, State.count_fns], rfl⟩

/-- With the lost-entry event enabled, the error of another ring signals the admin ring's records where the log is full. -/
theorem State.ringError_ring_adminRing_of_full {s : State} {ring cause : Nat} (hring : ring ≠ adminRing)
    (hok : (s.ring ring).error = false) {e : LogEntry} {rest : List LogEntry} (hlog : s.log.entries = e :: rest)
    (hfull : 4096 ≤ s.log.entries.length) (hcode : e.code ≠ evRING_ERROR) (hen : (s.fn 0).enable.getLsbD 9 = true) :
    (s.ringError ring cause).ring adminRing =
      { s.ring adminRing with unsignalled := 0, unsignalledSince := none } := by
  set x : Ring := { s.ring ring with
    error := true, errorCause := BitVec.ofNat 4 cause, errRecordDue := true,
    cqWritable := cause ≠ 3 && cause ≠ 4 && (s.ring ring).cqWritable }
  have hlogged : s.ringError ring cause = (s.setRing ring x).appendLog evRING_ERROR (ringField ring)
      (Config.severity evRING_ERROR) noUnit [BitVec.ofNat 8 ring, BitVec.ofNat 8 cause] := by
    simp only [State.ringError, hok, Bool.false_eq_true, if_false]
    rfl
  obtain ⟨t, hrings, hfns, hevent⟩ := State.appendLog_of_full (s := s.setRing ring x) hlog hfull hcode (ringField ring)
    (Config.severity evRING_ERROR) noUnit [BitVec.ofNat 8 ring, BitVec.ofNat 8 cause]
  have hadmin : t.ring adminRing = s.ring adminRing := by
    rw [State.ring, hrings]
    exact (State.ring_setRing s ring adminRing x).trans (if_neg hring)
  have hbit : (t.fn 0).enable.getLsbD 9 = true := by
    rw [State.fn, hfns]
    exact hen
  rw [hlogged, hevent, State.setEvent_ring_adminRing hbit, hadmin]

/-- A self-test result, as one of the entries of a full log. -/
def oldEntry : LogEntry := ⟨0, 0, evSELF_TEST_RESULT, 0xFF, 0, 0, 0, zeros 8⟩

/-- A full log, the lost-entry event enabled, and one record of the admin ring not yet signalled. -/
def fullLogState : State :=
  { (State.reset.setRing adminRing { Ring.reset with unsignalled := 1, unsignalledSince := some 0 }).setFn 0
      (FnRegs.reset 0x301#32) with log := ⟨List.replicate 4096 oldEntry, 4096, 0⟩ }

/-- Refutes O5: in `fullLogState` an error of ring 8 does change another ring. Its RING_ERROR entry overwrites the oldest one, the
lost-entry event raises vector 0, and the admin ring's record counts as signalled (R80). -/
theorem not_ringErrorsAndFetching : ¬ Obligations.RingErrorsAndFetching := by
  rintro ⟨herror, -⟩
  obtain ⟨-, hfirst⟩ := herror fullLogState 8 1
  obtain ⟨-, hothers, -⟩ := hfirst rfl
  have hkept : (fullLogState.ringError 8 1).ring adminRing = fullLogState.ring adminRing := hothers adminRing (by decide)
  have hsignalled : (fullLogState.ringError 8 1).ring adminRing =
      { fullLogState.ring adminRing with unsignalled := 0, unsignalledSince := none } :=
    State.ringError_ring_adminRing_of_full (by decide) rfl (List.replicate_succ (n := 4095) (a := oldEntry))
      (List.length_replicate (n := 4096) (a := oldEntry)).ge (by decide) rfl
  have hcount : 0 = 1 := congrArg Ring.unsignalled (hsignalled.symm.trans hkept)
  exact absurd hcount (by decide)

end Sys2Proof.Machine

/-! ### What memory traffic, page upkeep and completion records leave standing -/

namespace Sys2Proof.Machine

/-- What reads and writes of pages, page upkeep, counters, logs, messages and interrupts never touch: the indexes, the
compactions and the lists that wait for one, the outstanding commands, the trust state, the time, and what says whether
the device follows a lead. -/
structure Standing where
  indexes : FMap Index
  evaporators : FMap Compaction
  /-- Key and number of each list that waits for compaction. -/
  waiting : List (Nat × Nat)
  cmds : List Cmd
  trust : Trust
  tbk : Nat
  casc : Cascade
  glob : Glob

def State.standing (s : State) : Standing :=
  ⟨s.indexes, s.evaporators, s.compactQueue.map (fun w => (w.key, w.list)), s.cmds, s.trust, s.tbk, s.casc, s.glob⟩

theorem State.follows_of_standing {s t : State} (h : t.standing = s.standing) : t.follows = s.follows := by
  have hcasc : t.casc = s.casc := congrArg Standing.casc h
  have htrust : t.trust = s.trust := congrArg Standing.trust h
  have hglob : t.glob = s.glob := congrArg Standing.glob h
  simp only [State.follows, State.cascFormed, State.role, hcasc, htrust, hglob]

theorem State.standing_foldl {α : Type} {g : State → α → State} (h : ∀ s a, (g s a).standing = s.standing) (l : List α)
    (s : State) : (l.foldl g s).standing = s.standing := by
  induction l generalizing s with
  | nil => rfl
  | cons a l ih => rw [List.foldl_cons, ih, h]

/-- Steps that can fail, one for each element of a list, leave it standing where none fails. -/
theorem State.standing_of_foldl_eq_some {α : Type} {g : Option State → α → Option State} (hnone : ∀ a, g none a = none)
    (h : ∀ s a t, g (some s) a = some t → t.standing = s.standing) (l : List α) {s t : State}
    (ht : l.foldl g (some s) = some t) : t.standing = s.standing := by
  have hstuck : ∀ m : List α, m.foldl g none = none := fun m => by
    induction m with
    | nil => rfl
    | cons a m ih => rw [List.foldl_cons, hnone, ih]
  induction l generalizing s with
  | nil => rw [Option.some.inj ht]
  | cons a l ih =>
    rw [List.foldl_cons] at ht
    cases hg : g (some s) a with
    | none => rw [hg, hstuck] at ht; cases ht
    | some u => rw [hg] at ht; rw [ih ht, h s a u hg]

/-! #### Updates of one part -/

section Updates
variable (s : State)

@[simp] theorem State.standing_setRing (r : Nat) (x : Ring) : (s.setRing r x).standing = s.standing := rfl
@[simp] theorem State.standing_setFn (n : Nat) (x : FnRegs) : (s.setFn n x).standing = s.standing := rfl
@[simp] theorem State.standing_emit (o : Out) : (s.emit o).standing = s.standing := rfl
@[simp] theorem State.standing_count (g p n : Nat) : (s.count g p n).standing = s.standing := rfl
@[simp] theorem State.standing_withLines (ls : List Line) : (s.withLines ls).standing = s.standing := rfl
@[simp] theorem State.standing_setLine (l : Line) : (s.setLine l).standing = s.standing := rfl
@[simp] theorem State.standing_useLine (l : Line) : (s.useLine l).standing = s.standing := rfl
@[simp] theorem State.standing_dropReader (r : Reader) : (s.dropReader r).standing = s.standing := rfl
@[simp] theorem State.standing_coverChunks (f page a n : Nat) : (s.coverChunks f page a n).standing = s.standing := rfl

@[simp] theorem State.standing_modField (f : Nat) (g : Field → Field) : (s.modField f g).standing = s.standing := by
  unfold State.modField
  split <;> rfl

@[simp] theorem State.standing_countField (f p n : Nat) : (s.countField f p n).standing = s.standing :=
  s.standing_modField f _

@[simp] theorem State.standing_usePages (f : Nat) (p : Page → Bool) : (s.usePages f p).standing = s.standing :=
  s.standing_modField f _

@[simp] theorem State.standing_touch (f : Nat) (xs : List Span) : (s.touch f xs).standing = s.standing :=
  s.standing_usePages f _

@[simp] theorem State.standing_markChanged (f : Nat) (p : Page → Bool) : (s.markChanged f p).standing = s.standing :=
  s.standing_modField f _

@[simp] theorem State.standing_takeTokens (f n : Nat) : (s.takeTokens f n).standing = s.standing :=
  s.standing_modField f _

/-! #### Interrupts, log and trace -/

@[simp] theorem State.standing_signalled (r : Option Nat) : (s.signalled r).standing = s.standing := by
  cases r <;> rfl

@[simp] theorem State.standing_raiseVector (fn v : Nat) : (s.raiseVector fn v).standing = s.standing := by
  simp only [State.raiseVector, apply_ite State.standing, State.standing_setFn, State.standing_emit,
    State.standing_signalled, ite_self]

@[simp] theorem State.standing_setEvent (fn bit : Nat) : (s.setEvent fn bit).standing = s.standing := by
  simp only [State.setEvent, apply_ite State.standing, State.standing_raiseVector, State.standing_setFn, ite_self]

@[simp] theorem State.standing_appendLog (code field sev unit : Nat) (detail : Bytes) :
    (s.appendLog code field sev unit detail).standing = s.standing := by
  unfold State.appendLog
  split
  · split
    · rfl
    · split
      · rfl
      · simp only [State.standing_setEvent]; rfl
  · rfl

@[simp] theorem State.standing_logEvent (code field sev unit : Nat) (detail : Bytes) :
    (s.logEvent code field sev unit detail).standing = s.standing := by
  unfold State.logEvent
  split
  · exact s.standing_appendLog ..
  · simp only [apply_ite State.standing, State.standing_setEvent, State.standing_appendLog, ite_self]

@[simp] theorem State.standing_traceRec (src field unit : Nat) (a b : BitVec 64) :
    (s.traceRec src field unit a b).standing = s.standing := by
  unfold State.traceRec
  dsimp only
  split
  · rfl
  · split <;> split <;> rfl

/-! #### Granary lines -/

@[simp] theorem State.standing_writeBack (l : Line) : (s.writeBack l).standing = s.standing := by
  unfold State.writeBack
  split <;> rfl

@[simp] theorem State.standing_applyPend (l : Line) : (s.applyPend l).standing = s.standing := by
  unfold State.applyPend
  split
  · rfl
  · exact s.standing_modField ..

@[simp] theorem State.standing_overfetch (l : Line) : (s.overfetch l).standing = s.standing := by
  simp only [State.overfetch, apply_ite State.standing, State.standing_modField, ite_self]

@[simp] theorem State.standing_retire (back : Bool) (p : Line → Bool) : (s.retire back p).standing = s.standing := by
  simp only [State.retire, State.standing_withLines]
  exact State.standing_foldl (fun t l => by
    simp only [State.standing_overfetch, State.standing_applyPend, apply_ite State.standing, State.standing_writeBack,
      ite_self]) _ s

@[simp] theorem State.standing_evictLine (l : Line) : (s.evictLine l).standing = s.standing := by
  simp only [State.evictLine, apply_ite State.standing, State.standing_setLine, State.standing_retire, ite_self]

theorem State.standing_of_makeWay {s t : State} {l : Line} (h : s.makeWay l = some t) : t.standing = s.standing := by
  unfold State.makeWay at h
  dsimp only at h
  split at h
  · cases h; rfl
  · split at h
    · cases h
    · cases h; exact State.standing_foldl State.standing_evictLine _ s

@[simp] theorem State.standing_install (l : Line) : (s.install l).standing = s.standing := by
  unfold State.install
  split
  · rfl
  · next hway => rw [State.standing_useLine, State.standing_of_makeWay hway]

@[simp] theorem State.standing_rewriteLine (l : Line) (b : Bytes) : (s.rewriteLine l b).standing = s.standing := by
  unfold State.rewriteLine
  dsimp only
  split
  · rfl
  · next hway => rw [State.standing_useLine, State.standing_of_makeWay hway]

@[simp] theorem State.standing_countLookup (f slice : Nat) (hit : Bool) :
    (s.countLookup f slice hit).standing = s.standing := by
  simp only [State.countLookup, apply_ite State.standing, State.standing_countField, State.standing_count,
    State.standing_modField, ite_self]

@[simp] theorem State.standing_lookupLine (f c j : Nat) : (s.lookupLine f c j).1.standing = s.standing := by
  unfold State.lookupLine
  dsimp only
  split
  · exact s.standing_countLookup ..
  · split <;> simp

@[simp] theorem State.standing_fill (f c j k : Nat) (b : Bytes) : (s.fill f c j k b).standing = s.standing := by
  unfold State.fill
  split
  · rfl
  · exact s.standing_install _

@[simp] theorem State.standing_dirtyLine (f : Nat) (cj : Nat × Nat) : (s.dirtyLine f cj).standing = s.standing := by
  unfold State.dirtyLine
  dsimp only
  split
  · exact State.standing_install _ _
  · exact State.standing_rewriteLine _ _ _

/-! #### Reads and writes of the device's own work -/

@[simp] theorem State.standing_eccCorrected (f page chunk : Nat) : (s.eccCorrected f page chunk).standing = s.standing := by
  simp [State.eccCorrected]

@[simp] theorem State.standing_eccFailed (f page chunk : Nat) : (s.eccFailed f page chunk).standing = s.standing := by
  simp only [State.eccFailed, State.standing_countField, State.standing_logEvent]
  split <;> rfl

@[simp] theorem State.standing_checkChunk (f page chunk : Nat) (e : Ecc) :
    (s.checkChunk f page chunk e).standing = s.standing := by
  cases e with
  | clean => rfl
  | corrected => simp only [State.checkChunk, apply_ite State.standing, State.standing_eccCorrected, ite_self]
  | uncorrectable => exact s.standing_eccFailed ..

@[simp] theorem State.standing_checkLine (f c j : Nat) (es : List Ecc) : (s.checkLine f c j es).standing = s.standing := by
  unfold State.checkLine
  split
  · rfl
  · exact State.standing_foldl (fun t n => by
      split
      · rfl
      · exact t.standing_checkChunk ..) _ s

@[simp] theorem State.standing_checkLines (f c j : Nat) (ks : List Nat) (es : List Ecc) :
    (s.checkLines f c j ks es).standing = s.standing :=
  State.standing_foldl (fun t k => by
    split
    · exact t.standing_checkLine ..
    · exact State.standing_checkLine _ ..) ks s

@[simp] theorem State.standing_fetched (n bytes : Nat) : (s.fetched n bytes).standing = s.standing := by
  unfold State.fetched
  split <;> rfl

@[simp] theorem State.standing_serveWaiting (c f : Nat) (ks : List Nat) : (s.serveWaiting c f ks).standing = s.standing := by
  unfold State.serveWaiting
  exact State.standing_foldl (fun t (q : Request) => t.standing_fetched q.stream 256) _ _

@[simp] theorem State.standing_landNarrow (c : Nat) (q : Request) : (s.landNarrow c q).standing = s.standing := by
  unfold State.landNarrow
  split
  · rfl
  · dsimp only
    split <;> rfl

@[simp] theorem State.standing_landRead (c : Nat) (q : Request) : (s.landRead c q).standing = s.standing := by
  simp only [State.landRead, State.standing_serveWaiting, State.standing_fetched]
  exact State.standing_foldl (fun t n => by
    simp only [apply_ite State.standing, State.standing_fill, ite_self]) _ s

@[simp] theorem State.standing_served_ (c level : Nat) (q : Request) (es : List Ecc) :
    (s.served_ c level q es).standing = s.standing := by
  simp only [State.served_, apply_ite State.standing, State.standing_landNarrow, State.standing_checkLines,
    State.standing_landRead, State.standing_count, State.standing_countField, State.standing_takeTokens, ite_self]

@[simp] theorem State.standing_readLine (f cls unit : Nat) (narrow : Bool) (cj : Nat × Nat) :
    (s.readLine f cls unit narrow cj).standing = s.standing := by
  unfold State.readLine
  dsimp only
  split
  · exact s.standing_lookupLine ..
  · rw [State.standing_served_]
    exact s.standing_lookupLine ..

@[simp] theorem State.standing_readSpans (f cls unit : Nat) (narrow : Bool) (xs : List Span) :
    (s.readSpans f cls unit narrow xs).standing = s.standing := by
  simp only [State.readSpans, State.standing_touch]
  exact State.standing_foldl (fun t cj => t.standing_readLine ..) _ s

@[simp] theorem State.standing_writeSpans (f : Nat) (xs : List Span) : (s.writeSpans f xs).standing = s.standing := by
  simp only [State.writeSpans, State.standing_usePages]
  rw [State.standing_foldl (fun t g => t.standing_coverChunks ..),
    State.standing_foldl (fun t cj => t.standing_dirtyLine f cj)]

@[simp] theorem State.standing_storeSpans (f : Nat) (xs : List Span) : (s.storeSpans f xs).standing = s.standing := by
  simp only [State.storeSpans, State.standing_markChanged, State.standing_writeSpans]

/-! #### Pages freed, pinned and brought in step -/

@[simp] theorem State.standing_memoryFreed (f : Nat) : (s.memoryFreed f).standing = s.standing := by
  have hwaiting : (s.memoryFreed f).compactQueue.map (fun w => (w.key, w.list)) =
      s.compactQueue.map (fun w => (w.key, w.list)) := by
    rw [State.memoryFreed, List.map_map]
    refine List.map_congr_left (fun w _ => ?_)
    simp only [Function.comp_apply, apply_ite Waiting.key, apply_ite Waiting.list, ite_self]
  simp only [State.standing, hwaiting]
  rfl

@[simp] theorem State.standing_freePages (f : Nat) (p : Page → Bool) : (s.freePages f p).standing = s.standing := by
  unfold State.freePages
  split
  · rfl
  · dsimp only
    split
    · rfl
    · rw [State.standing_memoryFreed]; rfl

@[simp] theorem State.standing_pinLines (f : Nat) : (s.pinLines f).standing = s.standing := by
  unfold State.pinLines
  split
  · rfl
  · dsimp only
    split <;> rfl

@[simp] theorem State.standing_markPins (f : Nat) : (s.markPins f).standing = s.standing := s.standing_modField f _

@[simp] theorem State.standing_releasePages (f : Nat) : (s.releasePages f).standing = s.standing := by
  simp only [State.releasePages, State.freeUnneeded, State.standing_pinLines, State.standing_markPins,
    State.standing_freePages]

end Updates

theorem State.standing_of_frameFor {s : State} {f half : Nat} {part : Part} {r : State × Loc}
    (h : s.frameFor f part half = some r) : r.1.standing = s.standing := by
  unfold State.frameFor at h
  split at h
  · cases h
  · dsimp only at h
    split at h
    · cases h
    · split at h
      · cases h
      · next t hcheck =>
        have ht : t.standing = s.standing := by
          split at hcheck
          · split at hcheck
            · cases hcheck
            · cases hcheck; rfl
          · cases hcheck; rfl
        split at h
        · cases h
        · split at h
          · cases h
          · cases h; exact ht

theorem State.standing_of_allocPage {s t : State} {f : Nat} {k : Need4} (h : s.allocPage f k = some t) :
    t.standing = s.standing := by
  unfold State.allocPage at h
  split at h
  · cases h
  · split at h
    · next hframe =>
      cases h
      rw [State.standing_modField]
      exact State.standing_of_frameFor hframe
    · dsimp only at h
      split at h
      · cases h
      · split at h
        · cases h
        · cases h; rfl

theorem State.standing_of_allocNeeded {s t : State} {f : Nat} (h : s.allocNeeded f = some t) : t.standing = s.standing :=
  State.standing_of_foldl_eq_some (fun _ => rfl) (fun _ _ _ => State.standing_of_allocPage) _ h

theorem State.standing_of_liftPage {s t : State} {f : Nat} {p : Page} (h : s.liftPage f p = some t) :
    t.standing = s.standing := by
  unfold State.liftPage at h
  split at h
  · split at h
    · cases h
    · next hframe =>
      cases h
      rw [State.standing_modField]
      exact State.standing_of_frameFor hframe
  · cases h; rfl

theorem State.standing_of_liftPinned {s t : State} {f : Nat} (h : s.liftPinned f = some t) : t.standing = s.standing := by
  unfold State.liftPinned at h
  split at h
  · cases h; rfl
  · exact State.standing_of_foldl_eq_some (fun _ => rfl) (fun _ _ _ => State.standing_of_liftPage) _ h

theorem State.standing_of_syncCapacity {s t : State} {f : Nat} (h : s.syncCapacity f = some t) :
    t.standing = s.standing := by
  unfold State.syncCapacity at h
  split at h
  · cases h
  · next hneeded =>
    rw [State.standing_of_liftPinned h, State.standing_markPins, State.standing_of_allocNeeded hneeded]
    exact s.standing_freePages ..

theorem State.standing_of_syncPages {s t : State} {f : Nat} (h : s.syncPages f = some t) : t.standing = s.standing := by
  unfold State.syncPages at h
  split at h
  · cases h
  · next hcap =>
    split at h
    · cases h
      rw [State.standing_pinLines, State.standing_of_syncCapacity hcap]
    · cases h

/-! #### Messages to other members -/

/-- A message to a member is recorded and queued on ports; nothing else changes. -/
theorem State.sendMessage_eq (s : State) (dst kind vc : Nat) (content : Bytes) :
    ∃ out ports, s.sendMessage dst kind vc content = { s with out := out, ports := ports } := by
  have hflood : ∀ (l : List Nat) (t : State) (fs : List TxFlit),
      ∃ ports, l.foldl (fun t p => t.queueFlits p fs) t = { t with ports := ports } := by
    intro l
    induction l with
    | nil => exact fun t _ => ⟨t.ports, rfl⟩
    | cons p l ih => exact fun t fs => (ih (t.queueFlits p fs) fs).imp fun _ h => h
  unfold State.sendMessage
  dsimp only
  split
  · exact ⟨_, s.ports, rfl⟩
  · split
    · obtain ⟨ports, h⟩ := hflood s.activePorts (s.emit (.message dst kind content)) _
      exact ⟨_, ports, h⟩
    · split
      · exact ⟨_, s.ports, rfl⟩
      · exact ⟨_, _, rfl⟩

theorem State.tellMembers_eq (s : State) (kind vc : Nat) (content : Bytes) :
    ∃ out ports, s.tellMembers kind vc content = { s with out := out, ports := ports } := by
  have hall : ∀ (l : List Nat) (t : State),
      ∃ out ports, l.foldl (fun t m => t.sendMessage m kind vc content) t = { t with out := out, ports := ports } := by
    intro l
    induction l with
    | nil => exact fun t => ⟨t.out, t.ports, rfl⟩
    | cons m l ih =>
      intro t
      obtain ⟨out, ports, hsent⟩ := t.sendMessage_eq m kind vc content
      obtain ⟨out', ports', hrest⟩ := ih (t.sendMessage m kind vc content)
      exact ⟨out', ports', by rw [List.foldl_cons, hrest, hsent]⟩
  unfold State.tellMembers
  split
  · exact hall _ s
  · exact ⟨s.out, s.ports, rfl⟩

/-! #### Completion records -/

section Records
variable (s : State)

@[simp] theorem State.standing_countFlags (f : Nat) (fl : Flags) : (s.countFlags f fl).standing = s.standing := by
  simp only [State.countFlags, apply_ite State.standing, State.standing_countField, ite_self]

@[simp] theorem State.standing_ringError (r cause : Nat) : (s.ringError r cause).standing = s.standing := by
  simp only [State.ringError, apply_ite State.standing, State.standing_logEvent, State.standing_setRing, ite_self]

@[simp] theorem State.standing_writeRecord (r tag status : Nat) (fl : Flags) (seq : BitVec 48) (lat bound info : Nat)
    (irq ok : Bool) : (s.writeRecord r tag status fl seq lat bound info irq ok).standing = s.standing := by
  simp only [State.writeRecord, State.recordFailed, State.signalRing, apply_ite State.standing, State.standing_setRing,
    State.standing_ringError, State.standing_raiseVector, State.standing_emit, ite_self]

@[simp] theorem State.standing_settleRing (r : Nat) : (s.settleRing r).standing = s.standing := by
  simp only [State.settleRing, apply_ite State.standing, State.standing_setRing, ite_self]

theorem State.standing_retired (c : Cmd) (status : Nat) (fl : Flags) :
    (s.retired c status fl).standing = { s.standing with cmds := s.cmds.filter (fun d => !d.is c.ring c.seq) } := by
  simp only [State.retired, apply_ite State.standing, State.standing_countFlags, State.standing_count, ite_self]
  rfl

/-- R47: a command that ends leaves the outstanding commands; nothing else that stands changes. -/
theorem State.standing_finish (c : Cmd) (status info bound : Nat) (fl : Flags) (ok : Bool) :
    (s.finish c status info bound fl ok).standing =
      { s.standing with cmds := s.cmds.filter (fun d => !d.is c.ring c.seq) } := by
  simp only [State.finish_eq, State.standing_settleRing, apply_ite State.standing, State.standing_traceRec,
    State.standing_writeRecord, State.standing_retired, ite_self]

end Records

end Sys2Proof.Machine

/-! ### A packet that passes every check of Table 2.6 -/

namespace Sys2Proof.Machine

theorem State.readBlock_eq (s : State) (c : Cmd) (st : Option Nat) : ∃ out, s.readBlock c st = { s with out := out } := by
  unfold State.readBlock
  split
  · exact ⟨_, rfl⟩
  · exact ⟨s.out, rfl⟩

/-- An opcode without a parameter block admits only packets without one. -/
theorem State.pbValid_of_packetFault_eq_none {s : State} {c : Cmd} {o : OpSpec} {dma : Dma} (hneed : o.need = .none)
    (h : s.packetFault c o dma = none) : c.pbValid = false := by
  cases hpb : c.pbValid with
  | false => rfl
  | true => simp [State.packetFault, hneed, hpb, ite_eq_iff] at h

theorem State.readBlock_of_pbValid_eq_false {c : Cmd} (h : c.pbValid = false) (s : State) (st : Option Nat) :
    s.readBlock c st = s := by
  simp [State.readBlock, h]

/-- An admitted packet: the outcome of its opcode's own checks is settled, once its block is read. -/
theorem State.runPacket_of_admits {s : State} {code ring : Nat} {dma : Dma} {c : Cmd} (h : s.admits code ring dma c = true)
    (body : Ctx → State → Verdict) :
    s.runPacket code ring dma body =
      .next ((s.readBlock c none).settle c dma (body (ctxOf c dma) (s.readBlock c none))) := by
  simp only [State.admits, Bool.and_eq_true, decide_eq_true_eq, beq_iff_eq, Bool.not_eq_true'] at h
  obtain ⟨⟨⟨⟨⟨⟨hring, hnext⟩, hcode⟩, hunfenced⟩, hserving⟩, hspec⟩, hleads⟩ := h
  cases hop : opSpec code with
  | none => simp [hop] at hspec
  | some o =>
    have hfault : s.packetFault c o dma = none := by simpa [hop] using hspec
    have hreads : (s.readBlock c none).followerForbids code = false := by
      obtain ⟨out, hout⟩ := s.readBlock_eq c none
      rw [hout]
      exact hleads
    simp [State.runPacket, Nat.not_lt.mpr hring, hnext, hop, hcode, hunfenced, hserving, hfault, hreads]

/-- An admitted packet of an opcode without a parameter block. -/
theorem State.runPacket_of_admits_blockless {s : State} {code ring : Nat} {dma : Dma} {c : Cmd} {o : OpSpec}
    (hop : opSpec code = some o) (hneed : o.need = .none) (h : s.admits code ring dma c = true)
    (body : Ctx → State → Verdict) :
    s.runPacket code ring dma body = .next (s.settle c dma (body (ctxOf c dma) s)) := by
  have hfault : s.packetFault c o dma = none := by
    simp only [State.admits, hop, Bool.and_eq_true, beq_iff_eq] at h
    exact h.1.2
  rw [State.runPacket_of_admits h,
    State.readBlock_of_pbValid_eq_false (State.pbValid_of_packetFault_eq_none hneed hfault)]

theorem State.followerForbids_of_admits {s : State} {code ring : Nat} {dma : Dma} {c : Cmd}
    (h : s.admits code ring dma c = true) : s.followerForbids code = false := by
  simp only [State.admits, Bool.and_eq_true, Bool.not_eq_true'] at h
  exact h.2

@[simp] theorem checks_nil (k : Unit → Verdict) : checks [] k = k () := rfl

theorem checks_cons_of_bad {bad : Bool} (h : bad = true) (st : Nat) (l : List (Bool × Nat)) (k : Unit → Verdict) :
    checks ((bad, st) :: l) k = no st := if_pos h

theorem checks_cons_of_good {bad : Bool} (h : bad = false) (st : Nat) (l : List (Bool × Nat)) (k : Unit → Verdict) :
    checks ((bad, st) :: l) k = checks l k := if_neg (by simp [h])

end Sys2Proof.Machine

/-! ### Snapshot holds (R166 to R168) -/

namespace Sys2Proof.Machine

theorem exec_snapshotHold (ring : Nat) (dma : Dma) (s : State) :
    exec (.snapshotHold ring dma) s = execSnapshotHold ring dma s := rfl

theorem exec_snapshotRelease (ring : Nat) (dma : Dma) (s : State) :
    exec (.snapshotRelease ring dma) s = execSnapshotRelease ring dma s := rfl

/-- R166, R167: an admitted SNAPSHOT_HOLD of an index that exists. -/
theorem execSnapshotHold_of_admits {s : State} {ring : Nat} {dma : Dma} {c : Cmd} {x : Index}
    (h : s.admits 0x15 ring dma c = true) (hx : FMap.get? s.indexes (indexKey (ringFn c.ring) c.idx) = some x) :
    execSnapshotHold ring dma s = .next (s.settle c dma
      (checks [(heldEpoch (ctxOf c dma) x != x.epoch && !x.holds.contains (heldEpoch (ctxOf c dma) x), stEPOCH_UNAVAILABLE),
        (8 ≤ x.holds.length || 64 ≤ s.fieldHolds (ringFn c.ring), stLIMIT)] (fun _ =>
          yes (s.setIndex (indexKey (ringFn c.ring) c.idx)
            { x with holds := x.holds ++ [heldEpoch (ctxOf c dma) x] }) (heldEpoch (ctxOf c dma) x)))) := by
  have hkey : (ctxOf c dma).key = indexKey (ringFn c.ring) c.idx := rfl
  rw [execSnapshotHold, State.runPacket_of_admits_blockless (o := opF 0x15 .none true) rfl rfl h]
  simp only [hkey, hx]
  rfl

/-- R168: an admitted SNAPSHOT_RELEASE of an index that exists. -/
theorem execSnapshotRelease_of_admits {s : State} {ring : Nat} {dma : Dma} {c : Cmd} {x : Index}
    (h : s.admits 0x16 ring dma c = true) (hx : FMap.get? s.indexes (indexKey (ringFn c.ring) c.idx) = some x) :
    execSnapshotRelease ring dma s = .next (s.settle c dma
      (checks [(!x.holds.contains (heldEpoch (ctxOf c dma) x), stNOT_FOUND)] (fun _ =>
        yes (s.setIndex (indexKey (ringFn c.ring) c.idx)
            { x with holds := x.holds.erase (heldEpoch (ctxOf c dma) x) })
          (x.holds.count (heldEpoch (ctxOf c dma) x) - 1)))) := by
  have hkey : (ctxOf c dma).key = indexKey (ringFn c.ring) c.idx := rfl
  have hleft : ∀ e : Nat, ((x.holds.erase e).filter (fun h => h == e)).length = x.holds.count e - 1 := fun e => by
    rw [← List.countP_eq_length_filter, ← List.count_erase_self]
    rfl
  rw [execSnapshotRelease, State.runPacket_of_admits_blockless (o := opF 0x16 .none true) rfl rfl h]
  simp only [hkey, hx, hleft]

section Holds
variable {s : State} {ring : Nat} {dma : Dma} {c : Cmd} {x : Index}

theorem hold_names_known_epoch {e : Nat} (h : e = x.epoch ∨ e ∈ x.holds) :
    (e != x.epoch && !x.holds.contains e) = false := by
  rcases h with h | h <;> simp [h]

theorem exec_snapshotHold_of_room (h : s.admits 0x15 ring dma c = true)
    (hx : FMap.get? s.indexes (indexKey (ringFn c.ring) c.idx) = some x)
    (hknown : heldEpoch (ctxOf c dma) x = x.epoch ∨ heldEpoch (ctxOf c dma) x ∈ x.holds) (hindex : x.holds.length < 8)
    (hfield : s.fieldHolds (ringFn c.ring) < 64) :
    exec (.snapshotHold ring dma) s = ended s (s.setIndex (indexKey (ringFn c.ring) c.idx)
      { x with holds := x.holds ++ [heldEpoch (ctxOf c dma) x] }) c dma (heldEpoch (ctxOf c dma) x) [] := by
  have hroom : (decide (8 ≤ x.holds.length) || decide (64 ≤ s.fieldHolds (ringFn c.ring))) = false := by
    simp [hindex, hfield]
  rw [exec_snapshotHold, execSnapshotHold_of_admits h hx, checks_cons_of_good (hold_names_known_epoch hknown),
    checks_cons_of_good hroom, checks_nil]
  rfl

theorem exec_snapshotHold_of_unknown_epoch (h : s.admits 0x15 ring dma c = true)
    (hx : FMap.get? s.indexes (indexKey (ringFn c.ring) c.idx) = some x)
    (hunknown : ¬ (heldEpoch (ctxOf c dma) x = x.epoch ∨ heldEpoch (ctxOf c dma) x ∈ x.holds)) :
    exec (.snapshotHold ring dma) s = .next (s.settle c dma (no stEPOCH_UNAVAILABLE)) := by
  have hbad : (heldEpoch (ctxOf c dma) x != x.epoch && !x.holds.contains (heldEpoch (ctxOf c dma) x)) = true := by
    simpa using hunknown
  rw [exec_snapshotHold, execSnapshotHold_of_admits h hx, checks_cons_of_bad hbad]

theorem exec_snapshotHold_of_full (h : s.admits 0x15 ring dma c = true)
    (hx : FMap.get? s.indexes (indexKey (ringFn c.ring) c.idx) = some x)
    (hknown : heldEpoch (ctxOf c dma) x = x.epoch ∨ heldEpoch (ctxOf c dma) x ∈ x.holds)
    (hfull : 8 ≤ x.holds.length ∨ 64 ≤ s.fieldHolds (ringFn c.ring)) :
    exec (.snapshotHold ring dma) s = .next (s.settle c dma (no stLIMIT)) := by
  have hbad : (decide (8 ≤ x.holds.length) || decide (64 ≤ s.fieldHolds (ringFn c.ring))) = true := by
    simpa using hfull
  rw [exec_snapshotHold, execSnapshotHold_of_admits h hx, checks_cons_of_good (hold_names_known_epoch hknown),
    checks_cons_of_bad hbad]

theorem exec_snapshotRelease_of_held (h : s.admits 0x16 ring dma c = true)
    (hx : FMap.get? s.indexes (indexKey (ringFn c.ring) c.idx) = some x)
    (hheld : heldEpoch (ctxOf c dma) x ∈ x.holds) :
    exec (.snapshotRelease ring dma) s = ended s (s.setIndex (indexKey (ringFn c.ring) c.idx)
      { x with holds := x.holds.erase (heldEpoch (ctxOf c dma) x) }) c dma
        (x.holds.count (heldEpoch (ctxOf c dma) x) - 1) [] := by
  have hhas : (!x.holds.contains (heldEpoch (ctxOf c dma) x)) = false := by simp [hheld]
  rw [exec_snapshotRelease, execSnapshotRelease_of_admits h hx, checks_cons_of_good hhas, checks_nil]
  rfl

theorem exec_snapshotRelease_of_not_held (h : s.admits 0x16 ring dma c = true)
    (hx : FMap.get? s.indexes (indexKey (ringFn c.ring) c.idx) = some x)
    (hnone : heldEpoch (ctxOf c dma) x ∉ x.holds) :
    exec (.snapshotRelease ring dma) s = .next (s.settle c dma (no stNOT_FOUND)) := by
  have hbad : (!x.holds.contains (heldEpoch (ctxOf c dma) x)) = true := by simpa using hnone
  rw [exec_snapshotRelease, execSnapshotRelease_of_admits h hx, checks_cons_of_bad hbad]

end Holds

end Sys2Proof.Machine

/-! ### Versions and old images let go (R251, R262) -/

namespace Sys2Proof.Machine

theorem exec_versionFree_of_up {s : State} {f i : Nat} {x : Index} (hup : s.up = true) (hx : s.index? f i = some x) :
    exec (.versionFree f i) s = .next ((s.setIndex (indexKey f i) { x with
      versions := x.versions.filter (fun v =>
        (s.readable (indexKey f i) x).any (fun e => v.since ≤ e && e < v.until_)) }).releasePages f) := by
  show execVersionFree f i s = _
  simp [execVersionFree, hx, hup]

theorem exec_oldImageFree_of_up {s : State} {f i : Nat} (l : Nat) {x : Index} (hup : s.up = true)
    (hx : s.index? f i = some x) :
    let kept := keptImages (s.readOrders (indexKey f i)) (s.readable (indexKey f i) x) (x.list l).image (x.list l).olds
    exec (.oldImageFree f i l) s = .next (if kept = (x.list l).olds then s else
      ((s.setIndex (indexKey f i) { x with
        lists := FMap.set x.lists l { x.list l with olds := kept } }).releasePages f).memoryFreed f) := by
  show execOldImageFree f i l s = _
  simp only [execOldImageFree, hx, hup, Bool.not_true, Bool.false_eq_true, if_false]
  split <;> rfl

theorem mem_of_mem_keptImages {orders epochs : List Nat} {newer o : Image} {olds : List Image}
    (h : o ∈ keptImages orders epochs newer olds) : o ∈ olds := by
  induction olds generalizing newer with
  | nil => exact h
  | cons i is ih =>
    unfold keptImages at h
    dsimp only at h
    split at h
    · rcases List.mem_cons.mp h with rfl | h
      · exact List.mem_cons_self
      · exact List.mem_cons_of_mem i (ih h)
    · exact List.mem_cons_of_mem i (ih h)

/-- What a state holds that stands as s does with index `key` replaced. -/
theorem State.standing_setIndex {s t : State} {key : Nat} {x : Index} (h : t.standing = (s.setIndex key x).standing) :
    FMap.get? t.indexes key = some x ∧ (∀ k, k ≠ key → FMap.get? t.indexes k = FMap.get? s.indexes k) ∧
      t.cmds = s.cmds ∧ t.tbk = s.tbk := by
  have hidx : t.indexes = FMap.set s.indexes key x := congrArg Standing.indexes h
  refine ⟨?_, fun k hk => ?_, congrArg Standing.cmds h, congrArg Standing.tbk h⟩
  · rw [hidx, FMap.get?_set_self]
  · rw [hidx, FMap.get?_set_ne _ _ hk.symm]

end Sys2Proof.Machine

/-! ### Lists selected for compaction (R169, R255, R257, R590) -/

namespace Sys2Proof.Machine

/-- R255, R257: an admitted COMPACT of an index that exists. -/
theorem exec_compact_of_admits {s : State} {ring : Nat} {dma : Dma} {c : Cmd} {x : Index}
    (h : s.admits 0x17 ring dma c = true) (hx : FMap.get? s.indexes (indexKey (ringFn c.ring) c.idx) = some x)
    (hmode : num c.pkt 16 1 ≤ 1)
    (hlists : num c.pkt 16 1 = 1 → num c.pkt 24 4 ≠ 0 ∧ num c.pkt 20 4 + num c.pkt 24 4 ≤ x.p.nlist) :
    let key := indexKey (ringFn c.ring) c.idx
    let ls := compactLists (ctxOf c dma) x
    exec (.compact ring dma) s = if ls = [] then ended s s c dma 0 []
      else outstanding s (s.enqueue key x.epoch ls) c dma (.compact key ls 0 0) := by
  intro key ls
  have hkey : (ctxOf c dma).key = indexKey (ringFn c.ring) c.idx := rfl
  have hpkt : (ctxOf c dma).pkt = c.pkt := rfl
  have hmode' : (decide (1 < num c.pkt 16 1)) = false := by simpa using hmode
  have hrange : (num c.pkt 16 1 == 1 && (num c.pkt 24 4 == 0 ||
      decide (x.p.nlist < num c.pkt 20 4 + num c.pkt 24 4))) = false := by
    simpa using hlists
  show execCompact ring dma s = _
  rw [execCompact, State.runPacket_of_admits_blockless (o := opFX 0x17 .none true) rfl rfl h]
  simp only [hkey, hx, hpkt, checks_cons_of_good hmode', checks_cons_of_good hrange, checks_nil, List.isEmpty_iff]
  by_cases hnone : compactLists (ctxOf c dma) x = []
  · rw [if_pos hnone, if_pos hnone]
    rfl
  · rw [if_neg hnone, if_neg hnone]
    rfl

theorem compactLists_eq (c : Cmd) (dma : Dma) (x : Index) :
    compactLists (ctxOf c dma) x = (x.lists.filter (fun l => !l.2.image.slots.isEmpty &&
      (if num c.pkt 16 1 = 0 then overRatio x.p.tombPct l.2.image.slots
        else decide (num c.pkt 20 4 ≤ l.1) && decide (l.1 < num c.pkt 20 4 + num c.pkt 24 4)))).map (fun l => l.1) := by
  have hpkt : (ctxOf c dma).pkt = c.pkt := rfl
  by_cases hmode : num c.pkt 16 1 = 0 <;>
    simp [compactLists, hpkt, hmode, List.filter_filter, Bool.and_comm]

theorem mem_insertLt {α : Type} {lt : α → α → Bool} {a b : α} {l : List α} : b ∈ insertLt lt a l ↔ b = a ∨ b ∈ l := by
  induction l with
  | nil => simp [insertLt]
  | cons c l ih =>
    unfold insertLt
    split
    · rw [List.mem_cons, ih, List.mem_cons, or_left_comm]
    · exact List.mem_cons

theorem mem_foldl_insertLt {α β : Type} {lt : α → α → Bool} {g : β → α} {b : α} {l : List β} {q : List α} :
    b ∈ l.foldl (fun q a => insertLt lt (g a) q) q ↔ b ∈ q ∨ ∃ a ∈ l, b = g a := by
  induction l generalizing q with
  | nil => simp
  | cons a l ih =>
    rw [List.foldl_cons, ih, mem_insertLt, or_assoc, or_left_comm]
    simp only [List.mem_cons, exists_eq_or_imp]

/-- R257: the waiting lists are those that waited and, of the selected ones, those that are not under compaction. -/
theorem State.mem_compactQueue_enqueueLists {s : State} {key e0 : Nat} {ls : List Nat} {w : Waiting} :
    w ∈ (s.enqueueLists key e0 ls).compactQueue ↔
      w ∈ s.compactQueue ∨ ∃ l ∈ ls, s.compacting key l = false ∧ w = ⟨key, l, e0, false⟩ := by
  simp only [State.enqueueLists]
  rw [mem_foldl_insertLt (g := fun l => (⟨key, l, e0, false⟩ : Waiting))]
  simp [and_assoc]

theorem State.enqueueLists_eq (s : State) (key e0 : Nat) (ls : List Nat) :
    s.enqueueLists key e0 ls = { s with compactQueue := (s.enqueueLists key e0 ls).compactQueue } := rfl

/-- R254, R590: on a device that follows no lead, lists selected for compaction join the waiting ones; a SPLIT-DIM
cascade's members are told. -/
theorem State.enqueue_eq {s : State} (key e0 : Nat) (ls : List Nat) (hleads : s.follows = false) :
    ∃ q out ports, s.enqueue key e0 ls = { s with compactQueue := q, out := out, ports := ports } ∧
      (∀ w, w ∈ q ↔ w ∈ s.compactQueue ∨ ∃ l ∈ ls, s.compacting key l = false ∧ w = ⟨key, l, e0, false⟩) ∧
      (s.splitDim key = false → out = s.out ∧ ports = s.ports) := by
  cases hsplit : s.splitDim key with
  | false =>
    refine ⟨_, s.out, s.ports, ?_, fun w => State.mem_compactQueue_enqueueLists, fun _ => ⟨rfl, rfl⟩⟩
    simp only [State.enqueue, hsplit, Bool.not_false, if_true]
    exact State.enqueueLists_eq ..
  | true =>
    have hmem : ∀ w, w ∈ (s.enqueueLists key e0 (ls.filter (fun l => !s.compacting key l))).compactQueue ↔
        w ∈ s.compactQueue ∨ ∃ l ∈ ls, s.compacting key l = false ∧ w = ⟨key, l, e0, false⟩ := fun w => by
      rw [State.mem_compactQueue_enqueueLists]
      simp [and_assoc]
    simp only [State.enqueue, hsplit, hleads, Bool.not_true, Bool.false_eq_true, if_false]
    split
    · exact ⟨_, s.out, s.ports, State.enqueueLists_eq .., hmem, fun h => by cases h⟩
    · obtain ⟨out, ports, htold⟩ := State.tellMembers_eq
        (s.enqueueLists key e0 (ls.filter (fun l => !s.compacting key l))) msgCOMPACT 0 _
      exact ⟨_, out, ports, htold, hmem, fun h => by cases h⟩

/-- R573: a device that follows a lead admits no COMPACT. -/
theorem State.follows_of_admits_compact {s : State} {ring : Nat} {dma : Dma} {c : Cmd}
    (h : s.admits 0x17 ring dma c = true) : s.follows = false := by
  have hforbids : s.followerForbids 0x17 = s.follows := by
    simp [State.followerForbids, State.follows, followerOps]
  rw [← hforbids, State.followerForbids_of_admits h]

end Sys2Proof.Machine

/-! ### A compaction begun and swapped in (R257 to R260, R169, R590) -/

namespace Sys2Proof.Machine

theorem exec_compactionStart_of_free {s t : State} {n : Nat} {w : Waiting} {rest : List Waiting} (hn : n < 2)
    (hfree : s.unitFree 7 n = true) (hidle : FMap.get? s.evaporators n = none) (hqueue : s.compactQueue = w :: rest)
    (hturn : w.passedOver = false) (hbegin : s.beginCompaction n w = some t) :
    exec (.compactionStart n) s = .next t := by
  show execCompactionStart n s = _
  simp [execCompactionStart, Nat.not_le.mpr hn, hfree, hidle, hqueue, State.takeWaiting, hturn, hbegin]

/-- R257: a compaction begun has its own entry at the Evaporator and its list waits no more. -/
theorem State.standing_of_beginCompaction {s t : State} {n : Nat} {w : Waiting} (h : s.beginCompaction n w = some t) :
    ∃ new, t.standing = { s.standing with
      evaporators := FMap.set s.evaporators n ⟨w.key, w.list, w.e0, new, []⟩
      waiting := (s.compactQueue.filter (fun v => v != w)).map (fun v => (v.key, v.list)) } := by
  unfold State.beginCompaction at h
  split at h
  · cases h
  · dsimp only at h
    split at h
    · cases h
    · exact ⟨_, State.standing_of_syncPages h⟩

/-- The list of a compaction begun waits no more, where it waited once. -/
theorem State.not_waiting_of_beginCompaction {s t : State} {n : Nat} {w : Waiting} (h : s.beginCompaction n w = some t)
    (honce : ∀ v ∈ s.compactQueue, v ≠ w → ¬ (v.key = w.key ∧ v.list = w.list)) :
    ∀ v ∈ t.compactQueue, ¬ (v.key = w.key ∧ v.list = w.list) := by
  obtain ⟨new, hstands⟩ := State.standing_of_beginCompaction h
  have hwaiting : t.compactQueue.map (fun v => (v.key, v.list)) =
      (s.compactQueue.filter (fun v => v != w)).map (fun v => (v.key, v.list)) := congrArg Standing.waiting hstands
  rintro v hv ⟨hkey, hlist⟩
  have hname : (w.key, w.list) ∈ (s.compactQueue.filter (fun v => v != w)).map (fun v => (v.key, v.list)) := by
    rw [← hwaiting, ← hkey, ← hlist]
    exact List.mem_map_of_mem hv
  obtain ⟨u, hu, hsame⟩ := List.mem_map.mp hname
  obtain ⟨hmem, hne⟩ := List.mem_filter.mp hu
  exact honce u hmem (by simpa using hne) (Prod.mk.inj hsame)

/-- R169: a COMPACT that no list keeps outstanding. -/
def Cmd.compacted (c : Cmd) : Bool :=
  match c.work with
  | .compact _ [] _ _ => c.stopped.isNone
  | _ => false

theorem Cmd.compacted_of_work {c : Cmd} {key n p : Nat} (hgoes : c.stopped = none) (hwork : c.work = .compact key [] n p) :
    c.compacted = true := by
  simp [Cmd.compacted, hwork, hgoes]

theorem State.endCompact_of_compacted (s : State) {c : Cmd} (h : c.compacted = true) (ok : Bool) :
    ∃ n p, s.endCompact c ok = s.finish c 0 (info2 n p) 0 c.flags ok := by
  unfold Cmd.compacted at h
  split at h
  · next n p hwork =>
    have hgoes : c.stopped.isSome = false := by simpa using h
    exact ⟨n, p, by simp [State.endCompact, hwork, hgoes]⟩
  · cases h

theorem State.endCompact_of_not_compacted (s : State) {c : Cmd} (h : c.compacted = false) (ok : Bool) :
    s.endCompact c ok = s := by
  unfold State.endCompact
  split
  · next hwork =>
    have hstops : c.stopped.isSome = true := by simpa [Cmd.compacted, hwork, Option.isSome_iff_ne_none] using h
    rw [if_pos hstops]
  · rfl

theorem State.standing_endCompact (s : State) (c : Cmd) (ok : Bool) :
    (s.endCompact c ok).standing =
      { s.standing with cmds := s.cmds.filter (fun d => !(c.compacted && d.is c.ring c.seq)) } := by
  cases hdone : c.compacted with
  | true =>
    obtain ⟨n, p, hends⟩ := s.endCompact_of_compacted hdone ok
    simpa only [hends, Bool.true_and] using s.standing_finish ..
  | false => simp [s.endCompact_of_not_compacted hdone ok, State.standing]

/-- R169: once every COMPACT of a list has been looked at, those that no list keeps are gone. -/
theorem State.standing_foldl_endCompact (ok : Bool) (cs : List Cmd) (s : State) :
    (cs.foldl (fun u c => u.endCompact c ok) s).standing =
      { s.standing with cmds := s.cmds.filter (fun d => !cs.any (fun c => c.compacted && d.is c.ring c.seq)) } := by
  induction cs generalizing s with
  | nil => simp [State.standing]
  | cons c cs ih =>
    have hcmds : (s.endCompact c ok).cmds = s.cmds.filter (fun d => !(c.compacted && d.is c.ring c.seq)) :=
      congrArg Standing.cmds (s.standing_endCompact c ok)
    rw [List.foldl_cons, ih, hcmds, s.standing_endCompact c ok, List.filter_filter]
    simp only [List.any_cons, Bool.not_or, Bool.and_comm]

/-- The commands of a list but for the COMPACTs that no list keeps. -/
def compactsSettled (cs : List Cmd) : List Cmd := cs.filter (fun d => !cs.any (fun c => c.compacted && d.is c.ring c.seq))

theorem compacted_eq_false_of_mem_compactsSettled {cs : List Cmd} {c : Cmd} (h : c ∈ compactsSettled cs) :
    c.compacted = false := by
  obtain ⟨hmem, hkept⟩ := List.mem_filter.mp h
  have hself : c.is c.ring c.seq = true := by simp [Cmd.is]
  simp only [Bool.not_eq_true', List.any_eq_false] at hkept
  simpa [hself] using hkept c hmem

/-- The index with a list's new image, its old one kept (R258, R260). -/
def Index.swapped (x : Index) (e : Compaction) (order : Nat) : Index :=
  { x with lists := FMap.set x.lists e.list ((x.list e.list).swap e.e0 e.blocks order) }

theorem Index.list_swapped_self (x : Index) (e : Compaction) (order : Nat) :
    (x.swapped e order).list e.list = (x.list e.list).swap e.e0 e.blocks order := FMap.getD_set_self ..

theorem Index.list_swapped_of_ne (x : Index) (e : Compaction) (order : Nat) {l : Nat} (h : l ≠ e.list) :
    (x.swapped e order).list l = x.list l := FMap.getD_set_ne _ _ _ h.symm

/-- R258: the new image keeps the entries that are live, or died after E0, in their order. -/
theorem ListRec.slots_swap (l : ListRec) (e0 : Nat) (blocks : List Nat) (order : Nat) :
    (l.swap e0 blocks order).image.slots = l.image.slots.filter (fun a => match a.died with
      | none => true
      | some d => decide (e0 < a.born) || decide (e0 < d)) := rfl

/-- R258 to R260, R169: what stands after the swap of a list's new image. -/
theorem State.standing_swapList (s : State) (n : Nat) (e : Compaction) (x : Index) (ok : Bool) :
    ∃ cs, (s.swapList n e x ok).standing = { s.standing with
      indexes := FMap.set s.indexes e.key (x.swapped e s.order)
      evaporators := FMap.erase s.evaporators n
      cmds := compactsSettled cs } := by
  have hcount : ∀ (t : State) (f : Nat) (l : List Cmd),
      ((t.countField f 26 1).setCmds l).standing = { t.standing with cmds := l } :=
    fun t f l => congrArg (fun st => { st with cmds := l }) (t.standing_countField f 26 1)
  unfold State.swapList
  dsimp only
  rw [State.standing_foldl_endCompact, hcount]
  exact ⟨_, rfl⟩

/-- R590: an image that may be swapped in at once: SPLIT-DIM asks for the lead and for every member's readiness. -/
theorem State.finishImage_of_ready {s : State} {x : Index} {copies : Bool}
    (h : x.p.cascMode = 2 → s.follows = false ∧ copies = true) (n : Nat) (e : Compaction) (ok : Bool) :
    ∃ u : State, s.finishImage n e x copies ok = u.swapList n e x ok ∧
      u.indexes = s.indexes ∧ u.evaporators = s.evaporators ∧ u.trust = s.trust ∧ (x.p.cascMode ≠ 2 → u = s) := by
  unfold State.finishImage
  dsimp only
  by_cases hmode : x.p.cascMode = 2
  · obtain ⟨hleads, hcopies⟩ := h hmode
    obtain ⟨out, ports, htold⟩ := s.tellMembers_eq msgSWAP 0 (leBytes 1 (e.key / 64) ++ leBytes 1 (e.key % 64) ++
      leBytes 4 e.list ++ leBytes 8 (nextMultiple 10000 s.tbk / 10000))
    rw [if_neg (not_not.mpr hmode), if_neg (by simp [hleads]), if_neg (by simp [hcopies]), htold]
    exact ⟨_, rfl, rfl, rfl, rfl, fun hne => absurd hmode hne⟩
  · exact ⟨s, if_pos hmode, rfl, rfl, rfl, fun _ => rfl⟩

theorem State.segments_dropReader (s : State) (r : Reader) (f off : Nat) (xs : List Span) :
    (s.dropReader r).segments f off xs = s.segments f off xs := by
  induction xs generalizing off with
  | nil => rfl
  | cons a xs ih => simp only [State.segments, ih]; rfl

theorem State.firstAway_dropReader (s : State) (r : Reader) (f : Nat) (done : List Nat) (xs : List Span) :
    (s.dropReader r).firstAway f done xs = s.firstAway f done xs := by
  rw [State.firstAway, State.segments_dropReader, State.firstAway]

theorem State.retrains_dropReader (s : State) (r : Reader) (f : Nat) (xs : List Span) :
    (s.dropReader r).retrains f xs = s.retrains f xs := by
  simp only [State.retrains, State.linesOfSpans, State.segments_dropReader]
  rfl

/-- A compaction of a list on an Evaporator whose image can be finished: the unit works, no COMMIT of the index is under
way, and the spans of both images are resident, whole and behind channels that serve (R258 to R260, R476, R493, R494). -/
structure State.ImageReady (s : State) (n : Nat) (e : Compaction) (x : Index) : Prop where
  evaporator : n < 2
  held : FMap.get? s.evaporators n = some e
  index : FMap.get? s.indexes e.key = some x
  works : s.unitFree 7 n = true ∨ s.unitDrains 7 n = true
  reads : s.readerHalted (.evaporator n) = false
  settled : s.commitBegun e.key = false
  sound : ∀ a ∈ (s.compactionSpans e x).1, s.spanFault (e.key / 64) a = false ∧
    ((s.dropReader (.evaporator n)).readSpans (e.key / 64) 2 (unitKey 7 n) false (s.compactionSpans e x).1).spanFault
      (e.key / 64) a = false
  writable : ∀ a ∈ (s.compactionSpans e x).2, s.spanLost (e.key / 64) a = false
  resident : s.firstAway (e.key / 64) e.read ((s.compactionSpans e x).1 ++ (s.compactionSpans e x).2) = none
  serves : s.retrains (e.key / 64) ((s.compactionSpans e x).1 ++ (s.compactionSpans e x).2) = false

/-- The device once the old image is read and the new one written. -/
def State.imageWritten (s : State) (n : Nat) (e : Compaction) (x : Index) : State :=
  ((s.dropReader (.evaporator n)).readSpans (e.key / 64) 2 (unitKey 7 n) false (s.compactionSpans e x).1).storeSpans
    (e.key / 64) (s.compactionSpans e x).2

theorem State.standing_imageWritten (s : State) (n : Nat) (e : Compaction) (x : Index) :
    (s.imageWritten n e x).standing = s.standing := by
  rw [State.imageWritten, State.standing_storeSpans, State.standing_readSpans, State.standing_dropReader]

theorem exec_compactionSwap_of_imageReady {s : State} {n : Nat} {e : Compaction} {x : Index} (h : s.ImageReady n e x)
    (copies ok : Bool) :
    exec (.compactionSwap n copies ok) s = .next ((s.imageWritten n e x).finishImage n e x copies ok) := by
  have hgo : ((!s.unitFree 7 n && !s.unitDrains 7 n) || s.readerHalted (.evaporator n) || s.commitBegun e.key) = false := by
    rcases h.works with hworks | hworks <;> simp [h.reads, h.settled, hworks]
  have hsound : ((s.compactionSpans e x).1.any ((s.dropReader (.evaporator n)).spanFault (e.key / 64)) ||
      (s.compactionSpans e x).2.any ((s.dropReader (.evaporator n)).spanLost (e.key / 64))) = false := by
    rw [Bool.or_eq_false_iff, List.any_eq_false, List.any_eq_false]
    exact ⟨fun a ha => Bool.eq_false_iff.mp (h.sound a ha).1, fun a ha => Bool.eq_false_iff.mp (h.writable a ha)⟩
  have hread : (s.compactionSpans e x).1.any (((s.dropReader (.evaporator n)).readSpans (e.key / 64) 2 (unitKey 7 n)
      false (s.compactionSpans e x).1).spanFault (e.key / 64)) = false := by
    rw [List.any_eq_false]
    exact fun a ha => Bool.eq_false_iff.mp (h.sound a ha).2
  show execCompactionSwap n copies ok s = _
  simp only [execCompactionSwap, if_neg (Nat.not_le.mpr h.evaporator), h.held, h.index, hgo, hsound,
    State.firstAway_dropReader, h.resident, State.retrains_dropReader, h.serves, hread, Bool.false_eq_true, if_false]
  rfl

/-- R258 to R260, R590: a ready image is swapped in on a state that holds the indexes, the compactions and the trust
state as they stood; only SPLIT-DIM, which waits for a planner epoch, moves time. -/
theorem exec_compactionSwap_eq_swapList {s : State} {n : Nat} {e : Compaction} {x : Index} (h : s.ImageReady n e x)
    {copies : Bool} (hcopies : x.p.cascMode = 2 → s.follows = false ∧ copies = true) (ok : Bool) :
    ∃ v : State, exec (.compactionSwap n copies ok) s = .next (v.swapList n e x ok) ∧ v.indexes = s.indexes ∧
      v.evaporators = s.evaporators ∧ v.trust = s.trust ∧ (x.p.cascMode ≠ 2 → v.tbk = s.tbk) := by
  have hstands := s.standing_imageWritten n e x
  have hleads : x.p.cascMode = 2 → (s.imageWritten n e x).follows = false ∧ copies = true := by
    rw [State.follows_of_standing hstands]
    exact hcopies
  obtain ⟨v, hswaps, hindexes, hevaporators, htrust, hsame⟩ := State.finishImage_of_ready hleads n e ok
  refine ⟨v, ?_, hindexes.trans (congrArg Standing.indexes hstands),
    hevaporators.trans (congrArg Standing.evaporators hstands), htrust.trans (congrArg Standing.trust hstands),
    fun hmode => ?_⟩
  · rw [exec_compactionSwap_of_imageReady h, hswaps]
  · rw [hsame hmode]
    exact congrArg Standing.tbk hstands

end Sys2Proof.Machine

/-! ### Snapshots and compaction settled -/

namespace Sys2Proof.Machine

/-- Settles O28. A hold and a release change the index alone and are refused by the first failing check; freeing versions,
old images and pages leaves every index but for what it frees; COMPACT and the start of a compaction go through the
waiting queue; and what the swap reads, writes and counts leaves the indexes standing but for the swapped list. -/
theorem snapshotsAndCompaction : Obligations.SnapshotsAndCompaction := by
  refine ⟨fun s ring dma c x => ?holds, fun s f i x hup hx => ⟨?versions, fun l => ?oldImages⟩,
    fun s ring dma c x hadmits => ?compact, fun s t n w rest hn hfree hidle hqueue hturn hbegin => ?start,
    fun s n copies ok e x hn he hx hunit hreader hcommit hready => ?swap⟩
  case holds =>
    intro key e hx
    exact ⟨fun hadmits => exec_snapshotHold_of_room hadmits hx, fun hadmits => exec_snapshotRelease_of_held hadmits hx,
      fun hadmits => exec_snapshotHold_of_unknown_epoch hadmits hx, fun hadmits => exec_snapshotHold_of_full hadmits hx,
      fun hadmits => exec_snapshotRelease_of_not_held hadmits hx⟩
  case versions =>
    exact ⟨_, exec_versionFree_of_up hup hx, State.standing_setIndex (State.standing_releasePages _ f)⟩
  case oldImages =>
    intro kept
    have hstep := exec_oldImageFree_of_up l hup hx
    refine ⟨fun o => mem_of_mem_keptImages, fun hfreed => ⟨_, hstep.trans (congrArg _ (if_neg hfreed)), ?_⟩,
      fun hsame => hstep.trans (congrArg _ (if_pos hsame))⟩
    obtain ⟨hset, -, hcmds, htbk⟩ := State.standing_setIndex (s := s) (key := indexKey f i)
      (x := { x with lists := FMap.set x.lists l { x.list l with olds := kept } })
      ((State.standing_memoryFreed _ f).trans (State.standing_releasePages _ f))
    exact ⟨hset, hcmds, htbk⟩
  case compact =>
    intro key mode first count hx hmode hlists ls
    have hstep := exec_compact_of_admits hadmits hx hmode hlists
    have hls : compactLists (ctxOf c dma) x = ls := compactLists_eq c dma x
    rw [hls] at hstep
    refine ⟨fun hnone => hstep.trans (if_pos hnone), fun hsome => ⟨_, hstep.trans (if_neg hsome), ?_⟩⟩
    obtain ⟨q, out, ports, ht, hqueue, hsplit⟩ :=
      State.enqueue_eq key x.epoch ls (State.follows_of_admits_compact hadmits)
    rw [ht]
    refine ⟨fun l hl => ?_, fun w hw => (hqueue w).mpr (.inl hw), rfl, rfl, ⟨fun _ _ => rfl, .inl rfl⟩, fun hone => ?_⟩
    · cases hbusy : s.compacting key l with
      | true => exact .inl rfl
      | false => exact .inr ((hqueue _).mpr (.inr ⟨l, hl, hbusy, rfl⟩))
    · have hwhole : s.splitDim key = false := by
        simpa [State.splitDim, hx, key] using hone
      obtain ⟨rfl, rfl⟩ := hsplit hwhole
      rfl
  case start =>
    obtain ⟨new, hstands⟩ := State.standing_of_beginCompaction hbegin
    have hevaporators : t.evaporators = _ := congrArg Standing.evaporators hstands
    exact ⟨exec_compactionStart_of_free hn hfree hidle hqueue hturn hbegin,
      ⟨_, by rw [hevaporators, FMap.get?_set_self], rfl, rfl, rfl⟩, State.not_waiting_of_beginCompaction hbegin,
      congrArg Standing.indexes hstands, congrArg Standing.cmds hstands⟩
  case swap =>
    intro f spans u hsound hwritable hresident hserves
    obtain ⟨v, hstep, hindexes, hevaporators, htrust, htbk⟩ := exec_compactionSwap_eq_swapList
      ⟨hn, he, hx, hunit, hreader, hcommit, hsound, hwritable, hresident, hserves⟩ hready ok
    obtain ⟨cs, hswapped⟩ := v.standing_swapList n e x ok
    have hafter : (v.swapList n e x ok).indexes = FMap.set s.indexes e.key (x.swapped e v.order) :=
      (congrArg Standing.indexes hswapped).trans (congrArg (FMap.set · _ _) hindexes)
    have hidle : (v.swapList n e x ok).evaporators = FMap.erase s.evaporators n :=
      (congrArg Standing.evaporators hswapped).trans (congrArg (FMap.erase · n) hevaporators)
    have hcmds : (v.swapList n e x ok).cmds = compactsSettled cs := congrArg Standing.cmds hswapped
    refine ⟨_, x.swapped e v.order, hstep, ?_, ?_, ?_, fun l => x.list_swapped_of_ne e v.order, rfl, rfl, fun k hk => ?_,
      ?_, fun c hc ns p hgoes hwork => ?_, (congrArg Standing.trust hswapped).trans htrust,
      fun hmode => (congrArg Standing.tbk hswapped).trans (htbk hmode)⟩
    · rw [hafter, FMap.get?_set_self]
    · rw [Index.list_swapped_self]
      exact ListRec.slots_swap ..
    · rw [Index.list_swapped_self]
      rfl
    · rw [hafter, FMap.get?_set_ne _ _ hk.symm]
    · rw [hidle, FMap.get?_erase, if_pos rfl]
    · rw [hcmds] at hc
      exact Bool.false_ne_true
        ((compacted_eq_false_of_mem_compactsSettled hc).symm.trans (Cmd.compacted_of_work hgoes hwork))

end Sys2Proof.Machine

/-! ### Bytes: lengths, and a number read back from where it was written -/

namespace Sys2Proof.Machine

@[simp] theorem length_leBytes (n v : Nat) : (leBytes n v).length = n := by
  induction n generalizing v with
  | zero => rfl
  | succ n ih => rw [leBytes, List.length_cons, ih]

@[simp] theorem length_beBytes (n v : Nat) : (beBytes n v).length = n := by
  rw [beBytes, List.length_reverse, length_leBytes]

theorem le_leBytes (n v : Nat) : le (leBytes n v) = v % 256 ^ n := by
  induction n generalizing v with
  | zero => rw [pow_zero, Nat.mod_one]; rfl
  | succ n ih =>
    calc le (leBytes (n + 1) v) = (BitVec.ofNat 8 v).toNat + 256 * le (leBytes n (v / 256)) := rfl
      _ = v % 256 + 256 * (v / 256 % 256 ^ n) := by rw [ih, BitVec.toNat_ofNat]
      _ = v % 256 ^ (n + 1) := by rw [pow_succ', Nat.mod_mul]

theorem fit_of_le_length {n : Nat} {bs : Bytes} (h : n ≤ bs.length) : fit n bs = bs.take n := by
  rw [fit, Nat.sub_eq_zero_of_le h]
  exact List.append_nil _

theorem slice_of_le_length {bs : Bytes} {o n : Nat} (h : n ≤ bs.length - o) : slice bs o n = (bs.drop o).take n :=
  fit_of_le_length (h.trans_eq List.length_drop.symm)

/-- The number that stands behind a head of `o` bytes. -/
theorem num_append_leBytes {a : Bytes} {o : Nat} (ha : a.length = o) (n v : Nat) (c : Bytes) :
    num (a ++ (leBytes n v ++ c)) o n = v % 256 ^ n := by
  have hslice : slice (a ++ (leBytes n v ++ c)) o n = leBytes n v := by
    rw [slice_of_le_length (by simp [← ha]), List.drop_left' ha, List.take_left' (length_leBytes n v)]
  rw [num, hslice, le_leBytes]

end Sys2Proof.Machine

/-! ### Certificates: the digest has 48 bytes, so the serial number has 16 (R627) -/

namespace Sys2Proof.Machine

theorem length_shaBlock {h : List (BitVec 64)} (hh : h.length = 8) (blk : Bytes) : (shaBlock h blk).length = 8 := by
  simp only [shaBlock, List.length_zipWith, hh]
  rfl

theorem length_foldl_shaBlock (blks : List Bytes) {h : List (BitVec 64)} (hh : h.length = 8) :
    (blks.foldl shaBlock h).length = 8 := by
  induction blks generalizing h with
  | nil => exact hh
  | cons blk blks ih => exact ih (length_shaBlock hh blk)

theorem length_sha384 (m : Bytes) : (sha384 m).length = 48 := by
  simp [sha384, List.length_flatMap, length_foldl_shaBlock _ (h := sha384Init) rfl]

/-- R627: the serial number is the cut digest of the key, but for the top bit of its first byte. -/
theorem keySerial_eq_cons (key : Bytes) :
    ∃ b rest, (sha384 key).take 16 = b :: rest ∧ rest.length = 15 ∧ keySerial key = (b &&& 0x7F#8) :: rest := by
  have hcut : ((sha384 key).take 16).length = 15 + 1 := by rw [List.length_take, length_sha384]; rfl
  obtain ⟨b, rest, hdigest⟩ := List.exists_cons_of_length_eq_add_one hcut
  rw [hdigest, List.length_cons] at hcut
  exact ⟨b, rest, hdigest, Nat.succ.inj hcut, by rw [keySerial, hdigest]⟩

theorem length_keySerial (key : Bytes) : (keySerial key).length = 16 := by
  obtain ⟨b, rest, -, hrest, hserial⟩ := keySerial_eq_cons key
  rw [hserial, List.length_cons, hrest]

theorem msb_headD_keySerial (key : Bytes) : ((keySerial key).headD 0).msb = false := by
  obtain ⟨b, rest, -, -, hserial⟩ := keySerial_eq_cons key
  rw [hserial, List.headD_cons, BitVec.msb_and]
  exact Bool.and_false _

theorem tail_keySerial (key : Bytes) : (keySerial key).tail = ((sha384 key).take 16).tail := by
  obtain ⟨b, rest, hdigest, -, hserial⟩ := keySerial_eq_cons key
  rw [hserial, hdigest, List.tail_cons, List.tail_cons]

end Sys2Proof.Machine

/-! ### Measurement blocks (R634) -/

namespace Sys2Proof.Machine

theorem State.measBlock_of_digest (s : State) {n : Nat} (hn : n ≤ 8) (hreg : (s.trust.reg (n - 1)).length = 48) :
    s.measBlock n = [BitVec.ofNat 8 n, 1, 51, 0, if n = 1 then 1 else if n = 2 then 2 else 3, 48, 0] ++
      s.trust.reg (n - 1) := by
  have h9 : n ≠ 9 := by omega
  simp only [State.measBlock, if_neg h9, hreg, apply_ite (BitVec.ofNat 8)]
  rfl

theorem State.measBlock_nine (s : State) :
    s.measBlock 9 = [9, 1, 35, 0, 0x84#8, 32, 0] ++ (List.range 8).flatMap (fun i => leBytes 4 (s.trust.regCount i)) := by
  have hcounts : ((List.range 8).flatMap (fun i => leBytes 4 (s.trust.regCount i))).length = 32 := by
    simp [List.length_flatMap]
  simp only [State.measBlock, if_true, hcounts]
  rfl

end Sys2Proof.Machine

/-! ### SPDM requests and their responses (R625, R628, R632 to R635, Table 11.9) -/

namespace Sys2Proof.Machine

/-! #### The parts of the signed responses -/

/-- CHALLENGE_AUTH before its signature, over a summary of the blocks l. -/
def State.challengeAuth (s : State) (l : List Nat) : Bytes :=
  [spdm12, 0x03#8, 0, 1] ++ sha384 s.chain ++ fit 32 (Config.spdmNonce s.fresh) ++
    (if l.isEmpty then [] else sha384 (s.measBlocks l)) ++ zeros 2

/-- MEASUREMENTS up to its record: the header, the number of blocks l and their length in bytes. -/
def State.measurementsHead (s : State) (index : Nat) (l : List Nat) : Bytes :=
  [spdm12, 0x60#8, if index = 0 then 9 else 0, 0, BitVec.ofNat 8 l.length] ++ leBytes 3 (s.measBlocks l).length

/-- MEASUREMENTS before its signature. -/
def State.measurements (s : State) (index : Nat) (l : List Nat) : Bytes :=
  s.measurementsHead index l ++ s.measBlocks l ++ fit 32 (Config.spdmNonce s.fresh) ++ zeros 2

theorem State.take_measurements (s : State) (index : Nat) (l : List Nat) :
    (s.measurements index l).take (8 + (s.measBlocks l).length) = s.measurementsHead index l ++ s.measBlocks l := by
  rw [State.measurements, List.append_assoc _ (fit _ _)]
  exact List.take_left' (by simp only [State.measurementsHead, List.length_append, length_leBytes]; rfl)

/-! #### Requests as the functions that execute them -/

section Requests
variable (tr : Transport) (version : Byte) (s : State)

theorem exec_getVersion : exec (.getVersion tr) s = execGetVersion tr s := rfl
theorem exec_getCapabilities : exec (.getCapabilities tr version) s = execGetCapabilities tr version s := rfl
theorem exec_negotiateAlgorithms (offered : Bool) :
    exec (.negotiateAlgorithms tr version offered) s = execNegotiateAlgorithms tr version offered s := rfl
theorem exec_getDigests : exec (.getDigests tr version) s = execGetDigests tr version s := rfl
theorem exec_getCertificate (slot offset len : Nat) :
    exec (.getCertificate tr version slot offset len) s = execGetCertificate tr version slot offset len s := rfl
theorem exec_challenge (slot summary : Nat) (nonce transcript : Bytes) :
    exec (.challenge tr version slot summary nonce transcript) s =
      execChallenge tr version slot summary nonce transcript s := rfl
theorem exec_getMeasurements (index : Nat) (signed : Bool) (nonce transcript : Bytes) :
    exec (.getMeasurements tr version index signed nonce transcript) s =
      execGetMeasurements tr version index signed nonce transcript s := rfl
theorem exec_spdmUnsupportedRequest (code : Byte) :
    exec (.spdmUnsupportedRequest tr version code) s = execSpdmUnsupportedRequest tr version code s := rfl

end Requests

/-! #### What a response changes -/

/-- The device after a response: the connection of its transport is x, the free values used so far are n, and nothing
else changed but the outputs. -/
def State.responded (s : State) (n : Nat) (tr : Transport) (x : Spdm) (b : Bytes) : State :=
  (State.setSpdm { s with fresh := n } tr x).emit (.spdm tr b)

/-- The connection of a transport after one more signed response. -/
def Spdm.oneSigned (x : Spdm) : Spdm := { x with signed := x.signed + 1 }

section Responded
variable (s : State) (n : Nat) (tr : Transport) (x : Spdm) (b : Bytes)

theorem State.responded_out : (s.responded n tr x b).out = .spdm tr b :: s.out := by
  cases tr <;> rfl

theorem State.responded_frame :
    s = { s.responded n tr x b with trust := s.trust, out := s.out, fresh := s.fresh } := by
  cases tr <;> rfl

theorem State.responded_mctp_trust : (s.responded n .mctp x b).trust = { s.trust with spdmMctp := x } := rfl
theorem State.responded_doe_trust : (s.responded n .doe x b).trust = { s.trust with spdmDoe := x } := rfl

end Responded

@[simp] theorem State.setSpdm_spdm (s : State) (tr : Transport) : s.setSpdm tr (s.spdm tr) = s := by
  cases tr <;> rfl

theorem State.emit_eq_responded (s : State) (tr : Transport) (b : Bytes) :
    s.emit (.spdm tr b) = s.responded s.fresh tr (s.spdm tr) b :=
  congrArg (State.emit · _) (s.setSpdm_spdm tr).symm

theorem State.emit_takeFree_eq_responded (s : State) (tr : Transport) (b : Bytes) :
    s.takeFree.emit (.spdm tr b) = s.responded (s.fresh + 1) tr (s.spdm tr) b :=
  s.takeFree.emit_eq_responded tr b

/-! #### The response to each request -/

section Served
variable {s : State} {tr : Transport} (hserved : s.spdmServed tr = true)
include hserved

theorem State.answer_of_other_version {version : Byte} (hversion : version ≠ spdm12) (f : Unit → State × Bytes) :
    s.answer tr version f = .next (s.responded s.fresh tr (s.spdm tr) (spdmError errVersionMismatch 0)) := by
  rw [← State.emit_eq_responded]
  simp only [State.answer, hserved, Bool.not_true, Bool.false_eq_true, if_false, if_pos hversion]

theorem State.answer_of_served (f : Unit → State × Bytes) :
    s.answer tr spdm12 f = .next ((f ()).1.emit (.spdm tr (f ()).2)) := by
  simp only [State.answer, hserved, Bool.not_true, Bool.false_eq_true, if_false, ne_eq, not_true_eq_false]

/-- A request answered without a change of the connection. -/
theorem State.answer_of_eq {f : Unit → State × Bytes} {b : Bytes} (hf : f () = (s, b)) :
    s.answer tr spdm12 f = .next (s.responded s.fresh tr (s.spdm tr) b) := by
  rw [State.answer_of_served hserved, hf, State.emit_eq_responded]

/-- R633: every request but GET_VERSION answers another version than 1.2 with VersionMismatch. -/
theorem exec_of_other_version {version : Byte} (hversion : version ≠ spdm12) {i : Instr}
    (hi : ∃ a b c d e f g h, i ∈ ([.getCapabilities tr version, .negotiateAlgorithms tr version a, .getDigests tr version,
      .getCertificate tr version b c d, .challenge tr version b c e f, .getMeasurements tr version b a g h,
      .spdmUnsupportedRequest tr version 0#8] : List Instr)) :
    exec i s = .next (s.responded s.fresh tr (s.spdm tr) (spdmError errVersionMismatch 0)) := by
  have hanswer : ∃ f, exec i s = s.answer tr version f := by
    obtain ⟨a, b, c, d, e, f, g, h, hi⟩ := hi
    simp only [List.mem_cons, List.not_mem_nil, or_false] at hi
    rcases hi with rfl | rfl | rfl | rfl | rfl | rfl | rfl
    exacts [⟨_, exec_getCapabilities ..⟩, ⟨_, exec_negotiateAlgorithms ..⟩, ⟨_, exec_getDigests ..⟩,
      ⟨_, exec_getCertificate ..⟩, ⟨_, exec_challenge ..⟩, ⟨_, exec_getMeasurements ..⟩,
      ⟨_, exec_spdmUnsupportedRequest ..⟩]
  obtain ⟨f, hf⟩ := hanswer
  exact hf.trans (State.answer_of_other_version hserved hversion f)

theorem exec_getVersion_of_served : exec (.getVersion tr) s = .next (s.responded s.fresh tr
    { Spdm.reset with versioned := true, signed := (s.spdm tr).signed } [0x10#8, 0x04#8, 0, 0, 0, 1, 0x00#8, 0x12#8]) :=
  (exec_getVersion tr s).trans (if_neg (by simp [hserved]))

theorem exec_getCapabilities_of_served : exec (.getCapabilities tr spdm12) s = .next (s.responded s.fresh tr
    { s.spdm tr with capable := true }
    ([spdm12, 0x61#8, 0, 0, 0, 16#8, 0, 0] ++ leBytes 4 0x16 ++ fit 8 Config.spdmSizes)) :=
  (exec_getCapabilities tr spdm12 s).trans (State.answer_of_served hserved _)

theorem exec_negotiateAlgorithms_of_offered : exec (.negotiateAlgorithms tr spdm12 true) s = .next (s.responded s.fresh tr
    { s.spdm tr with negotiated := true }
    ([spdm12, 0x63#8, 0, 0] ++ leBytes 2 36 ++ [1, 0] ++ leBytes 4 4 ++ leBytes 4 0x80 ++ leBytes 4 2 ++ zeros 16)) :=
  (exec_negotiateAlgorithms tr spdm12 s _).trans (State.answer_of_served hserved _)

theorem exec_negotiateAlgorithms_of_not_offered : exec (.negotiateAlgorithms tr spdm12 false) s =
    .next (s.responded s.fresh tr (s.spdm tr) (spdmError errInvalidRequest 0)) :=
  (exec_negotiateAlgorithms tr spdm12 s _).trans (State.answer_of_eq hserved rfl)

theorem exec_getDigests_of_served : exec (.getDigests tr spdm12) s =
    .next (s.responded s.fresh tr (s.spdm tr) ([spdm12, 0x01#8, 0, 1] ++ sha384 s.chain)) :=
  (exec_getDigests tr spdm12 s).trans (State.answer_of_eq hserved rfl)

theorem exec_spdmUnsupportedRequest_of_served (code : Byte) : exec (.spdmUnsupportedRequest tr spdm12 code) s =
    .next (s.responded s.fresh tr (s.spdm tr) (spdmError errUnsupportedRequest code)) :=
  (exec_spdmUnsupportedRequest tr spdm12 s _).trans (State.answer_of_eq hserved rfl)

theorem exec_getCertificate_of_invalid {slot offset : Nat} (len : Nat) (h : slot ≠ 0 ∨ s.chain.length ≤ offset) :
    exec (.getCertificate tr spdm12 slot offset len) s =
      .next (s.responded s.fresh tr (s.spdm tr) (spdmError errInvalidRequest 0)) :=
  (exec_getCertificate tr spdm12 s _ _ _).trans (State.answer_of_eq hserved (if_pos (by simpa using h)))

theorem exec_getCertificate_of_valid {offset : Nat} (len : Nat) (h : offset < s.chain.length) :
    let n := min (min len 1024) (s.chain.length - offset)
    exec (.getCertificate tr spdm12 0 offset len) s = .next (s.responded s.fresh tr (s.spdm tr)
      ([spdm12, 0x02#8, 0, 0] ++ leBytes 2 n ++ leBytes 2 (s.chain.length - offset - n) ++ slice s.chain offset n)) :=
  (exec_getCertificate tr spdm12 s _ _ _).trans (State.answer_of_eq hserved (if_neg (by simpa using h)))

theorem exec_challenge_of_summary {summary : Nat} {l : List Nat} (hl : summaryBlocks summary = some l)
    (nonce transcript : Bytes) :
    exec (.challenge tr spdm12 0 summary nonce transcript) s = .next (s.responded (s.fresh + 1) tr (s.spdm tr).oneSigned
      (s.challengeAuth l ++ s.spdmSign "responder-challenge_auth signing"
        (transcript ++ [spdm12, 0x83#8, 0, BitVec.ofNat 8 summary] ++ fit 32 nonce) (s.challengeAuth l))) := by
  rw [exec_challenge, execChallenge, State.answer_of_served hserved]
  simp only [hl]
  rfl

theorem exec_getMeasurements_of_unsigned {index : Nat} {l : List Nat} (hl : measIndex index = some l)
    (nonce transcript : Bytes) :
    exec (.getMeasurements tr spdm12 index false nonce transcript) s =
      .next (s.responded (s.fresh + 1) tr (s.spdm tr) (s.measurements index l)) := by
  rw [← State.emit_takeFree_eq_responded, exec_getMeasurements, execGetMeasurements, State.answer_of_served hserved]
  simp only [hl]
  rfl

theorem exec_getMeasurements_of_signed {index : Nat} {l : List Nat} (hl : measIndex index = some l)
    (nonce transcript : Bytes) :
    exec (.getMeasurements tr spdm12 index true nonce transcript) s = .next (s.responded (s.fresh + 1) tr (s.spdm tr).oneSigned
      (s.measurements index l ++ s.spdmSign "responder-measurements signing"
        (transcript ++ [spdm12, 0xE0#8, 1, BitVec.ofNat 8 index] ++ fit 32 nonce ++ [0]) (s.measurements index l))) := by
  rw [exec_getMeasurements, execGetMeasurements, State.answer_of_served hserved]
  simp only [hl]
  rfl

end Served

/-! #### What the responses say -/

/-- Table 11.9: the capabilities carry the time exponent 16 and the flags 0x16. -/
theorem num_capabilities (sizes : Bytes) :
    let b := [spdm12, 0x61#8, 0, 0, 0, 16#8, 0, 0] ++ leBytes 4 0x16 ++ sizes
    num b 5 1 = 16 ∧ num b 8 4 = 0x16 := by
  intro b
  have hexponent : b = [spdm12, 0x61#8, 0, 0, 0] ++ (leBytes 1 16 ++ ([0, 0] ++ leBytes 4 0x16 ++ sizes)) := rfl
  have hflags : b = [spdm12, 0x61#8, 0, 0, 0, 16#8, 0, 0] ++ (leBytes 4 0x16 ++ sizes) := rfl
  constructor
  · rw [hexponent, num_append_leBytes] <;> rfl
  · rw [hflags, num_append_leBytes] <;> rfl

/-- Table 11.9: a certificate portion says how many bytes it carries, and carries at most 1,024. -/
theorem num_certificatePortion (left len : Nat) (c : Bytes) :
    num ([spdm12, 0x02#8, 0, 0] ++ (leBytes 2 (min (min len 1024) left) ++ c)) 4 2 = min (min len 1024) left := by
  rw [num_append_leBytes, Nat.mod_eq_of_lt (by omega)]
  rfl

theorem slice_certificatePortion (chain : Bytes) (offset len : Nat) :
    slice chain offset (min len (chain.length - offset)) = (chain.drop offset).take len := by
  rw [slice_of_le_length (Nat.min_le_right _ _), ← List.length_drop, ← List.take_eq_take_min]

/-! #### SPDM settled -/

/-- Settles O56: each request leaves `State.responded`, which says what a response changes; the bytes of the response are
those of the request's lemma. -/
theorem spdm : Obligations.Spdm := by
  refine ⟨fun s tr version hserved => ?_, fun s n _ hn hreg => ⟨s.measBlock_of_digest hn hreg, s.measBlock_nine⟩,
    fun _ _ key _ => ⟨rfl, rfl, rfl, length_keySerial key, msb_headD_keySerial key, tail_keySerial key⟩⟩
  intro other tells v12
  have htells {i n x b} {p : Bytes → Prop} (hexec : exec i s = .next (s.responded n tr x b)) (hp : p b) : tells i p := by
    refine ⟨_, b, hexec, s.responded_out n tr x b, ?_, s.responded_frame n tr x b, hp⟩
    cases tr with
    | mctp => exact ⟨rfl, s.responded_mctp_trust n x b⟩
    | doe => exact ⟨rfl, s.responded_doe_trust n x b⟩
  refine ⟨htells (exec_getVersion_of_served hserved) rfl,
    fun i hversion hi => htells (exec_of_other_version hserved hversion hi) rfl, fun hversion => ?_⟩
  obtain rfl : version = spdm12 := hversion
  refine ⟨htells (exec_getCapabilities_of_served hserved) ⟨rfl, num_capabilities _⟩,
    htells (exec_negotiateAlgorithms_of_offered hserved) ⟨rfl, rfl, rfl, rfl⟩,
    htells (exec_negotiateAlgorithms_of_not_offered hserved) rfl,
    htells (exec_getDigests_of_served hserved) rfl,
    fun slot offset len h => htells (exec_getCertificate_of_invalid hserved len h) rfl,
    fun offset len h => htells (exec_getCertificate_of_valid hserved len h) ⟨rfl, ?size, ?portion⟩,
    fun summary l nonce transcript hl => htells (exec_challenge_of_summary hserved hl nonce transcript) ⟨_, rfl, ?head⟩,
    fun index l nonce transcript hl => ⟨htells (exec_getMeasurements_of_unsigned hserved hl nonce transcript)
        (s.take_measurements index l),
      htells (exec_getMeasurements_of_signed hserved hl nonce transcript) ⟨_, rfl, s.take_measurements index l⟩⟩,
    fun code => htells (exec_spdmUnsupportedRequest_of_served hserved code) rfl⟩
  case size => simpa only [List.append_assoc] using num_certificatePortion _ _ _
  case portion => exact slice_certificatePortion s.chain offset (min len 1024)
  case head => exact ⟨_, by simp only [State.challengeAuth, List.append_assoc]; rfl⟩

end Sys2Proof.Machine

/-! ### The sideband (R776, R777) -/

namespace Sys2Proof.Machine

section Sideband
variable {s : State} (hserved : s.sidebandServed = true)
include hserved

theorem exec_smbusArp_of_served (udid : BitVec 64) (a : BitVec 7) :
    exec (.smbusArp udid a) s =
      if udid = smbusUdid then .next (s.setBoard { s.board with smbusAddr := a }) else .next s := by
  change execSmbusArp udid a s = _
  simp only [execSmbusArp, hserved, Bool.true_and, beq_iff_eq]

theorem exec_i3cAddressAssign_of_served (byStatic : Bool) (a b : BitVec 7) :
    exec (.i3cAddressAssign byStatic a b) s =
      if byStatic = false ∨ a = 0x4A#7 then .next (s.setBoard { s.board with i3cAddr := some b }) else .next s := by
  change execI3cAddressAssign byStatic a b s = _
  simp only [execI3cAddressAssign, hserved, Bool.true_and, Bool.or_eq_true, Bool.not_eq_true', beq_iff_eq]

theorem exec_smbusSclTimeout_of_served (lowMs : Nat) :
    exec (.smbusSclTimeout lowMs) s =
      if 35 < lowMs then .next (s.setBoard { s.board with sbResets := s.board.sbResets + 1 }) else .next s := by
  change execSmbusSclTimeout lowMs s = _
  simp only [execSmbusSclTimeout, hserved, Bool.true_and, decide_eq_true_eq]

end Sideband

end Sys2Proof.Machine

/-! ### Temperature and core voltage (R740, R742, R748, R750, Table 13.4) -/

namespace Sys2Proof.Machine

/-! #### A sample of the junction temperature -/

theorem alertHotAfter_of_above {tj : Int} (hot : Bool) (h : junctionLimit < tj) : alertHotAfter hot tj = true :=
  if_pos h

theorem alertHotAfter_of_cool {tj : Int} (hot : Bool) (h : tj ≤ junctionLimit - 40) : alertHotAfter hot tj = false := by
  rw [alertHotAfter, if_neg (by omega), if_pos h]

/-- R742: between release and limit the thermal alarm stays as it is. -/
theorem alertHotAfter_of_between {tj : Int} (hot : Bool) (hlow : junctionLimit - 40 < tj) (hhigh : tj ≤ junctionLimit) :
    alertHotAfter hot tj = hot := by
  rw [alertHotAfter, if_neg (by omega), if_neg (by omega)]

/-- The board after a sample of the junction temperature. -/
def State.boardSampled (s : State) (tj : Int) : Board :=
  let hot := alertHotAfter s.board.alertHot tj
  { s.board with alertHot := hot, alertN := !(hot || s.glob.fatal) }

theorem State.boardSampled_alertN_of_fatal {s : State} (tj : Int) (h : s.glob.fatal = true) :
    (s.boardSampled tj).alertN = false := by
  simp [State.boardSampled, h]

theorem State.boardSampled_alertN_of_above (s : State) {tj : Int} (h : junctionLimit < tj) :
    (s.boardSampled tj).alertN = false := by
  simp [State.boardSampled, alertHotAfter_of_above _ h]

theorem State.boardSampled_alertN_of_cool {s : State} {tj : Int} (h : tj ≤ junctionLimit - 40)
    (hfatal : s.glob.fatal = false) : (s.boardSampled tj).alertN = true := by
  simp [State.boardSampled, alertHotAfter_of_cool _ h, hfatal]

/-- The next multiple lies ahead, so time does advance to it. -/
theorem advance_nextMultiple_tbk (s : State) {n : Nat} (hn : 0 < n) :
    (s.advance (nextMultiple n s.tbk)).tbk = (s.tbk / n + 1) * n := by
  have hahead : s.tbk < (s.tbk / n + 1) * n := Nat.lt_mul_of_div_lt (Nat.lt_succ_self _) hn
  exact max_eq_right hahead.le

theorem exec_tjSample_of_up {s : State} (hup : s.up = true) (tj : BitVec 16) :
    exec (.tjSample tj) s = .next (((s.advance (nextMultiple 1000000 s.tbk)).setGlob { s.glob with tj := tj }).setBoard
      (s.boardSampled tj.toInt)) := by
  change execTjSample tj s = _
  simp only [execTjSample, hup, Bool.not_true, Bool.false_eq_true, if_false]
  rfl

/-! #### A step of the VID code -/

theorem State.vidTarget_le (s : State) : s.vidTarget ≤ 20 := Nat.min_le_left _ _

/-- R750: the code after one step from v towards a target. -/
def vidToward (target v : Nat) : Nat := if v < target then v + 1 else v - 1

theorem vidToward_of_lt {target v : Nat} (h : v < target) : vidToward target v = v + 1 := if_pos h

theorem vidToward_of_gt {target v : Nat} (h : target < v) : vidToward target v + 1 = v := by
  rw [vidToward, if_neg h.not_gt, Nat.sub_add_cancel (Nat.zero_lt_of_lt h)]

theorem vidToward_le {target v n : Nat} (htarget : target ≤ n) (hv : v ≤ n) : vidToward target v ≤ n := by
  unfold vidToward
  split <;> omega

theorem exec_vidStep_of_driven {s : State} (hup : s.up = true) (hdriven : s.board.vidDriven = true) :
    exec .vidStep s =
      if s.board.vid = s.vidTarget then .next s
      else .next ((s.advance (s.board.vidLast + 200000)).setBoard
        { s.board with vid := vidToward s.vidTarget s.board.vid, vidLast := max s.tbk (s.board.vidLast + 200000) }) := by
  change execVidStep s = _
  have hguard : (!s.up || !s.board.vidDriven || s.board.vid == s.vidTarget) = true ↔ s.board.vid = s.vidTarget := by
    simp [hup, hdriven]
  simp only [execVidStep, hguard]
  rfl

/-! #### THERMTRIP_N -/

/-- R740: the board after THERMTRIP_N asserts. -/
def Board.tripped (b : Board) : Board :=
  { b with
    thermtripN := false, clocksStopped := true, vidDriven := false, vid := 10, qspiOn := false, gddrOn := false
    alertN := true }

theorem exec_thermtrip_of_powered {s : State} (hpowered : s.board.powered = true) (sensor : Int) :
    exec (.thermtrip sensor) s = if 960 < sensor then .next (s.setBoard s.board.tripped) else .next s := by
  change execThermtrip sensor s = _
  have hguard : (s.board.powered && 960 < sensor) = true ↔ 960 < sensor := by simp [hpowered]
  simp only [execThermtrip, hguard]
  rfl

theorem State.up_of_clocksStopped {s : State} (h : s.board.clocksStopped = true) : s.up = false := by
  simp [State.up, h]

end Sys2Proof.Machine

/-! ### The TAP (R629, R778, R779) -/

namespace Sys2Proof.Machine

/-! #### The state diagram and what it scans -/

/-- IEEE 1149.1: five edges with TMS high lead from every state to Test-Logic-Reset. -/
theorem TapState.step_five_true (t : TapState) :
    ((((t.step true).step true).step true).step true).step true = .testLogicReset := by
  cases t <;> rfl

theorem isSome_tdoOf (t : TapState) (l : List Bool) : (tdoOf t l).isSome = true ↔ t = .shiftDr ∨ t = .shiftIr := by
  unfold tdoOf
  split <;> simp_all

theorem length_shiftIn (l : List Bool) (tdi : Bool) : (shiftIn l tdi).length = max l.length 1 := by
  simp only [shiftIn, List.length_append, List.length_drop, List.length_singleton]
  omega

theorem getLast?_shiftIn (l : List Bool) (tdi : Bool) : (shiftIn l tdi).getLast? = some tdi :=
  List.getLast?_concat

/-- R779: the IDCODE of a silicon revision. With the fused revision in its place the number is a closed term, in which the
kernel would count to 2^28. -/
def idcodeOf (rev : BitVec 8) : Nat := 1 + 0x3D5 * 2 + 0x4816 * 2 ^ 12 + rev.toNat % 16 * 2 ^ 28

theorem idcode_eq_idcodeOf : idcode = idcodeOf Config.deviceRev := rfl

theorem idcodeOf_fields (rev : BitVec 8) :
    let n := idcodeOf rev
    n % 2 = 1 ∧ n / 2 % 2 ^ 11 = 0x3D5 ∧ n / 2 ^ 12 % 2 ^ 16 = 0x4816 ∧ n / 2 ^ 28 = rev.toNat % 16 := by
  simp only [idcodeOf]
  omega

theorem idcode_fields : idcode % 2 = 1 ∧ idcode / 2 % 2 ^ 11 = 0x3D5 ∧ idcode / 2 ^ 12 % 2 ^ 16 = 0x4816 ∧
    idcode / 2 ^ 28 = Config.deviceRev.toNat % 16 := by
  rw [idcode_eq_idcodeOf]
  exact idcodeOf_fields _

/-! #### The instruction in force -/

theorem State.tapInstruction_of_le {s : State} (h : s.board.tapInstr ≤ 5) : s.tapInstruction = s.board.tapInstr := by
  simp [State.tapInstruction, h]

/-- R629: without `debug_unlock` only the boundary-scan instructions of R778 are in force. -/
theorem State.tapInstruction_le_of_locked {s : State} (h : s.debugUnlock = false) : s.tapInstruction ≤ 5 := by
  simp only [State.tapInstruction, h, Bool.or_false, decide_eq_true_eq]
  split <;> omega

theorem State.tapDebug_of_locked {s : State} (h : s.debugUnlock = false) : s.tapDebug = false := by
  simp [State.tapDebug, State.tapInstruction_le_of_locked h]

theorem State.captureDr_of_idcode {s : State} (h : s.board.tapInstr = tapIDCODE) : s.captureDr = bitsOf 32 idcode := by
  have hinstr : s.tapInstruction = 1 := (State.tapInstruction_of_le (by rw [h]; decide)).trans h
  simp only [State.captureDr, hinstr, if_true]

/-! #### The work of an edge -/

section Work
variable {s : State} (tdi : Bool)

theorem State.tapAct_of_testLogicReset (h : s.board.tap = .testLogicReset) :
    s.tapAct tdi = s.setBoard { s.board with tapInstr := tapIDCODE } := by
  simp only [State.tapAct, h]

theorem State.tapAct_of_captureDr (h : s.board.tap = .captureDr) :
    s.tapAct tdi = ({ s with fresh := s.fresh + Config.tapBoundaryLength }).setBoard
      { s.board with tapShift := s.captureDr } := by
  simp only [State.tapAct, h]

theorem State.tapAct_of_shiftDr (h : s.board.tap = .shiftDr) :
    s.tapAct tdi = s.setBoard { s.board with tapShift := shiftIn s.board.tapShift tdi } := by
  simp only [State.tapAct, h]

variable (s)

/-- The registers of the TAP, and the free values that a capture takes, are all that an edge's work touches. -/
theorem State.tapAct_eq_setBoard : ∃ (n ir : Nat) (shift : List Bool) (instr : Nat) (boundary : List Bool),
    s.tapAct tdi = ({ s with fresh := n }).setBoard
      { s.board with tapIr := ir, tapShift := shift, tapInstr := instr, tapBoundary := boundary } := by
  fun_cases State.tapAct s tdi
  all_goals exact ⟨_, _, _, _, _, rfl⟩

/-- The device after an edge of TCK: the work of the state left, the state entered and the TDO level there. -/
def State.tapStepped (tms : Bool) : State :=
  let t := s.tapAct tdi
  let n := s.board.tap.step tms
  t.setBoard { t.board with tap := n, tdo := tdoOf n t.board.tapShift }

theorem State.tapStepped_frame (tms : Bool) :
    s = { s.tapStepped tdi tms with board := s.board, fresh := s.fresh } := by
  obtain ⟨_, _, _, _, _, hact⟩ := s.tapAct_eq_setBoard tdi
  simp only [State.tapStepped, hact]
  rfl

theorem State.tapStepped_board_frame (tms : Bool) :
    let b := (s.tapStepped tdi tms).board
    b = { s.board with
      tap := b.tap, tapIr := b.tapIr, tapShift := b.tapShift, tapInstr := b.tapInstr, tapBoundary := b.tapBoundary
      tdo := b.tdo } := by
  obtain ⟨_, _, _, _, _, hact⟩ := s.tapAct_eq_setBoard tdi
  simp only [State.tapStepped, hact]
  rfl

end Work

theorem exec_tapStep_of_powered {s : State} (hpowered : s.board.powered = true) (tms tdi : Bool) :
    exec (.tapStep tms tdi) s = if s.tapDebug = true then .refused .debugAccess else .next (s.tapStepped tdi tms) := by
  change execTapStep tms tdi s = _
  simp only [execTapStep, hpowered, Bool.not_true, Bool.false_eq_true, if_false]
  rfl

end Sys2Proof.Machine

/-! ### The pins (Table 14.3, R737) -/

namespace Sys2Proof.Machine

/-- Table 14.3: what a neighbour sees of an interface whose outputs are enabled; an alarm only ever pulls low. -/
def Interface.driven (i : Interface) : PinState :=
  match i with
  | .thermtrip | .alert => .low
  | _ => .enabled

/-- Table 14.3: the interfaces whose outputs are released, and not at high impedance, without power. -/
def releasedUnpowered : List Interface := [.sideband, .thermtrip, .alert]

theorem State.pins_eq (s : State) (i : Interface) : s.pins i =
    if s.board.powered && i.inBoundary && s.tapInstruction = 4 then .highImpedance
    else if s.board.powered && i.inBoundary && (s.tapInstruction = 3 || s.tapInstruction = 5) then .boundary
    else if !s.board.powered then (if i ∈ releasedUnpowered then .released else .highImpedance)
    else if s.pinsOn i then i.driven else i.inReset := by
  cases i <;> rfl

/-- Without power no instruction of the TAP drives a ball. -/
theorem State.pins_of_unpowered {s : State} (h : s.board.powered = false) (i : Interface) :
    s.pins i = if i ∈ releasedUnpowered then .released else .highImpedance := by
  simp [State.pins_eq, h]

/-- BYPASS, IDCODE and SAMPLE/PRELOAD leave the balls to the interfaces. -/
theorem State.pins_of_tapInstruction_le {s : State} (hpowered : s.board.powered = true) (hinstr : s.tapInstruction ≤ 2)
    (i : Interface) : s.pins i = if s.pinsOn i then i.driven else i.inReset := by
  have h3 : s.tapInstruction ≠ 3 := by omega
  have h4 : s.tapInstruction ≠ 4 := by omega
  have h5 : s.tapInstruction ≠ 5 := by omega
  simp [State.pins_eq, hpowered, h3, h4, h5]

end Sys2Proof.Machine

/-! ### Pins and sideband settled -/

namespace Sys2Proof.Machine

/-- Settles O57: each command leaves the state that its lemma gives, and the pins follow from the enables. -/
theorem pinsAndSideband : Obligations.PinsAndSideband := by
  refine ⟨fun s hserved => ⟨fun u a => ?arp, fun a b => ?i3c, fun n => ?scl⟩,
    ⟨fun s tj hup => ?sample, fun s hup hdriven => ?vid, fun s sensor hpowered => ?trip⟩,
    fun s tms tdi hpowered => ?tap, fun s => ⟨fun hoff => ?unpowered, fun hpowered hinstr => ?powered⟩,
    TapState.step_five_true, idcode_fields⟩
  case arp =>
    rw [exec_smbusArp_of_served hserved]
    exact ⟨fun h => if_pos h, fun h => if_neg h⟩
  case i3c =>
    have hassign := fun byStatic a => exec_i3cAddressAssign_of_served hserved byStatic a b
    exact ⟨(hassign false a).trans (if_pos (.inl rfl)), (hassign true _).trans (if_pos (.inr rfl)),
      fun h => (hassign true a).trans (if_neg (by simp [h]))⟩
  case scl =>
    rw [exec_smbusSclTimeout_of_served hserved]
    exact ⟨fun h => if_pos h, fun h => if_neg h.not_gt⟩
  case sample =>
    exact ⟨_, exec_tjSample_of_up hup tj, rfl, advance_nextMultiple_tbk s (by decide),
      State.boardSampled_alertN_of_fatal _, s.boardSampled_alertN_of_above, State.boardSampled_alertN_of_cool,
      alertHotAfter_of_between _, rfl, rfl⟩
  case vid =>
    rw [exec_vidStep_of_driven hup hdriven]
    exact ⟨fun h => if_pos h, fun h => ⟨_, if_neg h, rfl, rfl, vidToward_of_lt, vidToward_of_gt,
      vidToward_le s.vidTarget_le, rfl⟩⟩
  case trip =>
    rw [exec_thermtrip_of_powered hpowered]
    exact ⟨fun h => if_neg h.not_gt, fun h => ⟨_, if_pos h, rfl, rfl, rfl, rfl, rfl, rfl, rfl,
      State.up_of_clocksStopped rfl, rfl⟩⟩
  case tap =>
    rw [exec_tapStep_of_powered hpowered]
    refine ⟨fun hscan => ⟨_, if_neg (by simp [hscan]), rfl, s.tapStepped_frame tdi tms, s.tapStepped_board_frame tdi tms,
      isSome_tdoOf _ _, fun hreset => ?_, fun hcapture hid => ?_, fun hshift => ?_⟩,
      fun hdebug => if_pos hdebug, State.tapDebug_of_locked⟩
    · simp only [State.tapStepped, State.tapAct_of_testLogicReset tdi hreset, State.setBoard_board]
    · simp only [State.tapStepped, State.tapAct_of_captureDr tdi hcapture, State.setBoard_board,
        State.captureDr_of_idcode hid, bitsOf]
    · simp only [State.tapStepped, State.tapAct_of_shiftDr tdi hshift, State.setBoard_board]
      exact ⟨length_shiftIn _ tdi, getLast?_shiftIn _ tdi⟩
  case unpowered =>
    exact ⟨fun i hi => (State.pins_of_unpowered hoff i).trans (if_pos hi),
      fun i hi => (State.pins_of_unpowered hoff i).trans (if_neg hi)⟩
  case powered =>
    have hpins := State.pins_of_tapInstruction_le hpowered hinstr
    have hidle {i : Interface} (hoff : s.pinsOn i = false) : s.pins i = i.inReset :=
      (hpins i).trans (if_neg (by simp [hoff]))
    exact ⟨fun h => hidle (by simp [State.pinsOn, h]), fun h => hidle (by simp [State.pinsOn, h]),
      fun h => hidle (by simp [State.pinsOn, h]), fun h => hidle (by simp [State.pinsOn, h]),
      fun p h => hidle (by simp [State.pinsOn, h]), fun h => (hpins .thermtrip).trans (if_pos (by simp [State.pinsOn, h]))⟩

end Sys2Proof.Machine

/-! ### What a command that is no reset keeps -/

namespace Sys2Proof.Machine

/-- An outcome keeps what its next state keeps; a fault and a refusal leave none. -/
def RKeeps (r : State) : Result → Prop
  | .next t => Keeps r t
  | _ => True

theorem RKeeps.next {r t : State} (h : Keeps r t) : RKeeps r (.next t) := h
theorem RKeeps.fault {r : State} {f : Fault} : RKeeps r (.fault f) := trivial
theorem RKeeps.refused {r : State} {f : Refusal} : RKeeps r (.refused f) := trivial

theorem VKeeps.turnAway {r t : State} {status bound : Nat} (h : Keeps r t) : VKeeps r (.turnAway t status bound) := h
theorem VKeeps.accept {r : State} {a : Admit} (h : Keeps r a.s) : VKeeps r (.accept a) := h
theorem VKeeps.refuse {r : State} {status bound : Nat} : VKeeps r (.refuse status bound) := trivial

theorem IKeeps.next {r t : State} {y : Thread} (h : Keeps r t) : IKeeps r (.next t y) := h
theorem IKeeps.placed {r t : State} {y : Thread} (h : Keeps r t) : IKeeps r (.placed t y) := h
theorem IKeeps.wait {r t : State} (h : Keeps r t) : IKeeps r (.wait t) := h
theorem IKeeps.trap {r : State} {cause : Nat} : IKeeps r (.trap cause) := trivial
theorem IKeeps.reserved {r : State} : IKeeps r .reserved := trivial

/-- What the device tells anyone but host memory. -/
theorem Keeps.tell {r s : State} {o : Out} (h : Keeps r s) (ho : hostWrites [o] = []) : Keeps r (s.emit o) :=
  h.emit o (fun _ => ho)

section
variable {r0 s : State} (h0 : Keeps r0 s) {code ring cls op core thread : Nat} {dma : Dma}
include h0

theorem RKeeps.runPacket {body : Ctx → State → Verdict} (hb : ∀ x t, Keeps r0 t → VKeeps r0 (body x t)) :
    RKeeps r0 (s.runPacket code ring dma body) := by
  cases e : s.runPacket code ring dma body with
  | next t => exact Keeps.runPacket h0 code ring dma body hb e
  | fault => exact .fault
  | refused => exact .refused

theorem RKeeps.runReading {body : Ctx → State → Verdict} (hb : ∀ x t, Keeps r0 t → VKeeps r0 (body x t)) :
    RKeeps r0 (s.runReading code ring dma body) := by
  have hpacket : RKeeps r0 (s.runPacket code ring dma body) := RKeeps.runPacket h0 hb
  unfold State.runReading
  split
  · exact .fault
  · split
    · split
      · exact Keeps.continueReading h0 _ _ _
      · exact h0
    · split
      next t e =>
        rw [e] at hpacket
        split
        · exact Keeps.continueReading hpacket _ _ _
        · exact hpacket
      next => exact hpacket

theorem RKeeps.issue {body : Slot3 → Issue} (hb : ∀ x, IKeeps r0 (body x)) : RKeeps r0 (s.issue cls op core thread body) := by
  cases e : s.issue cls op core thread body with
  | next t => exact Keeps.issue h0 cls op core thread body hb e
  | fault => exact .fault
  | refused => exact .refused

theorem RKeeps.issueReg {body : Slot3 → Thread} : RKeeps r0 (s.issueReg cls op core thread body) :=
  RKeeps.issue h0 (fun _ => h0)

theorem RKeeps.scalar {f : BitVec 64 → BitVec 64 → BitVec 64} : RKeeps r0 (s.scalar op core thread f) :=
  RKeeps.issueReg h0

theorem RKeeps.vector {f : BitVec 32 → BitVec 32 → BitVec 32 × Flags} : RKeeps r0 (s.vector op core thread f) :=
  RKeeps.issueReg h0

theorem RKeeps.dual {f : Slot3 → State × Thread} (hf : ∀ x, Keeps r0 (f x).1) : RKeeps r0 (s.dual cls op core thread f) := by
  refine RKeeps.issue h0 (fun x => ?_)
  split
  · exact .trap
  · exact .next (hf x)

theorem RKeeps.storeFix {n : Nat} : RKeeps r0 (s.storeFix op n core thread) := by
  refine RKeeps.issue h0 (fun x => ?_)
  split
  · exact .trap
  · exact .next (h0.setCore _ _)

theorem RKeeps.tileOp {f : Slot3 → Shape → Issue} (hf : ∀ x y, IKeeps r0 (f x y)) : RKeeps r0 (s.tileOp op core thread f) := by
  refine RKeeps.issue h0 (fun x => ?_)
  split
  · exact .reserved
  · exact hf _ _

theorem RKeeps.lookupOp {bits count : Nat} : RKeeps r0 (s.lookupOp op bits count core thread) := by
  refine RKeeps.issue h0 (fun x => ?_)
  dsimp only
  split
  · exact .trap
  · split
    · exact .trap
    · exact .next h0

theorem RKeeps.addressOp {n : Nat} {f : Stream → Run → State} (hf : ∀ x r, Keeps r0 (f x r)) :
    RKeeps r0 (s.addressOp n op f) := by
  unfold State.addressOp
  split
  · exact h0
  · split
    · exact h0
    · exact hf _ _

theorem RKeeps.answer {t : Transport} {version : Byte} {f : Unit → State × Bytes} (hf : Keeps r0 (f ()).1) :
    RKeeps r0 (s.answer t version f) := by
  unfold State.answer
  split
  · exact h0
  · split
    · exact h0.tell rfl
    · exact hf.tell rfl
end

/-- Table 14.5: a port's receive queue is read on NCK. -/
theorem State.visibleAt_of_port (s : State) {port : Nat} (hport : ¬ 4 ≤ port) : (s.visibleAt (352 + port)).isSome = true := by
  have hport : port = 0 ∨ port = 1 ∨ port = 2 ∨ port = 3 := by omega
  rcases hport with rfl | rfl | rfl | rfl <;> rfl

/-! #### Command by command -/

section
variable {r0 s : State} (h0 : Keeps r0 s)
include h0

theorem RKeeps.sqTailWrite (ring : Nat) (value : BitVec 32) : RKeeps r0 (execSqTailWrite ring value s) := by
  unfold execSqTailWrite
  with_reducible repeat' first
    | assumption | exact RKeeps.fault | apply RKeeps.next | apply Keeps.writeTail | split

theorem RKeeps.cqHeadWrite (ring : Nat) (value : BitVec 32) : RKeeps r0 (execCqHeadWrite ring value s) := by
  unfold execCqHeadWrite
  with_reducible repeat' first
    | assumption | exact RKeeps.fault | apply RKeeps.next | apply Keeps.writeHead | split

theorem RKeeps.ringEnable (ring : Nat) (value : BitVec 32) : RKeeps r0 (execRingEnable ring value s) := by
  unfold execRingEnable
  with_reducible repeat' first
    | assumption | exact RKeeps.fault | apply RKeeps.next | apply Keeps.writeRingCtl | split

theorem RKeeps.ringReset (ring : Nat) : RKeeps r0 (execRingReset ring s) := by
  unfold execRingReset
  with_reducible repeat' first
    | assumption | exact RKeeps.fault | apply RKeeps.next | apply Keeps.writeRingCtl | split

theorem RKeeps.registerWrite (fn bar offset size : Nat) (value : BitVec 64) :
    RKeeps r0 (execRegisterWrite fn bar offset size value s) := by
  unfold execRegisterWrite
  with_reducible repeat' first
    | assumption | exact RKeeps.fault | apply RKeeps.next | apply Keeps.hostAccess | split

theorem RKeeps.packetFetch (data : Option Bytes) : RKeeps r0 (execPacketFetch data s) := by
  unfold execPacketFetch
  with_reducible repeat' first
    | assumption | exact RKeeps.fault | apply RKeeps.next | refine Keeps.tell ?_ rfl | apply Keeps.ringError
    | apply Keeps.fetchFrom | split

theorem RKeeps.ringErrorRecord (ring : Nat) (recordOk : Bool) : RKeeps r0 (execRingErrorRecord ring recordOk s) := by
  unfold execRingErrorRecord
  with_reducible repeat' first
    | assumption | exact RKeeps.fault | apply RKeeps.next | apply Keeps.writeRecord | apply Keeps.count
    | apply Keeps.setRing | apply Keeps.setEvent | split

theorem RKeeps.irqCoalesceTimer (ring : Nat) : RKeeps r0 (execIrqCoalesceTimer ring s) := by
  unfold execIrqCoalesceTimer
  with_reducible repeat' first
    | assumption | exact RKeeps.fault | apply RKeeps.next | apply Keeps.advance | apply Keeps.signalRing | split
    | dsimp only

theorem RKeeps.reservedOpcode (ring : Nat) (dma : Dma) : RKeeps r0 (execReservedOpcode ring dma s) := by
  unfold execReservedOpcode
  with_reducible repeat' first
    | assumption | exact RKeeps.fault | apply RKeeps.next | apply Keeps.settle | apply Keeps.no | split

theorem RKeeps.nop (ring : Nat) (dma : Dma) : RKeeps r0 (execNop ring dma s) := by
  unfold execNop
  with_reducible repeat' first
    | assumption | exact RKeeps.fault | apply RKeeps.next | refine RKeeps.runPacket h0 (fun _ _ _ => ?_)
    | apply Keeps.yes

theorem RKeeps.identify (ring : Nat) (dma : Dma) : RKeeps r0 (execIdentify ring dma s) := by
  unfold execIdentify
  with_reducible repeat' first
    | assumption | exact RKeeps.fault | apply RKeeps.next | refine RKeeps.runPacket h0 (fun _ _ _ => ?_)
    | apply Keeps.checks | apply Keeps.yesReply

theorem RKeeps.fieldConfigure (ring : Nat) (dma : Dma) (memberStatus : Nat) :
    RKeeps r0 (execFieldConfigure ring dma memberStatus s) := by
  unfold execFieldConfigure
  with_reducible repeat' first
    | assumption | exact RKeeps.fault | apply RKeeps.next | refine RKeeps.runPacket h0 (fun _ _ _ => ?_)
    | apply Keeps.checks | refine Keeps.applyBlock (e0 := by assumption) ?_ | apply Keeps.no
    | apply Keeps.settleConfig | apply Keeps.configured | apply Keeps.fieldReset | apply Keeps.releasePages
    | apply Keeps.modField | split

theorem RKeeps.fieldQuery (ring : Nat) (dma : Dma) : RKeeps r0 (execFieldQuery ring dma s) := by
  unfold execFieldQuery
  with_reducible repeat' first
    | assumption | exact RKeeps.fault | apply RKeeps.next | refine RKeeps.runPacket h0 (fun _ _ _ => ?_)
    | apply Keeps.checks | apply Keeps.yesReply | split

theorem RKeeps.indexCreate (ring : Nat) (dma : Dma) : RKeeps r0 (execIndexCreate ring dma s) := by
  unfold execIndexCreate
  with_reducible repeat' first
    | assumption | exact RKeeps.fault | apply RKeeps.next | refine RKeeps.runPacket h0 (fun _ _ _ => ?_)
    | refine Keeps.place (e0 := by assumption) ?_ | apply Keeps.checks | apply Keeps.setIndex
    | apply Keeps.tellMembers | apply Keeps.tellStandby | apply Keeps.yes | split

theorem RKeeps.indexDrop (ring : Nat) (dma : Dma) : RKeeps r0 (execIndexDrop ring dma s) := by
  unfold execIndexDrop
  with_reducible repeat' first
    | assumption | exact RKeeps.fault | apply RKeeps.next | refine RKeeps.runPacket h0 (fun _ _ _ => ?_)
    | apply Keeps.dropBody

theorem RKeeps.indexLoadCentroids (ring : Nat) (dma : Dma) : RKeeps r0 (execIndexLoadCentroids ring dma s) := by
  unfold execIndexLoadCentroids
  with_reducible repeat' first
    | assumption | exact RKeeps.fault | apply RKeeps.next | refine RKeeps.runReading h0 (fun _ _ _ => ?_)
    | apply Keeps.centroidsBody

theorem RKeeps.indexLoadCodebook (ring : Nat) (dma : Dma) : RKeeps r0 (execIndexLoadCodebook ring dma s) := by
  unfold execIndexLoadCodebook
  with_reducible repeat' first
    | assumption | exact RKeeps.fault | apply RKeeps.next | refine RKeeps.runReading h0 (fun _ _ _ => ?_)
    | apply Keeps.codebookBody

theorem RKeeps.indexActivate (ring : Nat) (dma : Dma) : RKeeps r0 (execIndexActivate ring dma s) := by
  unfold execIndexActivate
  with_reducible repeat' first
    | assumption | exact RKeeps.fault | apply RKeeps.next | refine RKeeps.runPacket h0 (fun _ _ _ => ?_)
    | apply Keeps.activateBody

theorem RKeeps.indexInfo (ring : Nat) (dma : Dma) : RKeeps r0 (execIndexInfo ring dma s) := by
  unfold execIndexInfo
  with_reducible repeat' first
    | assumption | exact RKeeps.fault | apply RKeeps.next | refine RKeeps.runPacket h0 (fun _ _ _ => ?_)
    | apply Keeps.no | apply Keeps.checks | apply Keeps.yesReply | split

theorem RKeeps.insert (ring : Nat) (dma : Dma) : RKeeps r0 (execInsert ring dma s) := by
  unfold execInsert
  with_reducible repeat' first
    | assumption | exact RKeeps.fault | apply RKeeps.next | refine RKeeps.runReading h0 (fun _ _ _ => ?_)
    | apply Keeps.putRecords

theorem RKeeps.delete (ring : Nat) (dma : Dma) : RKeeps r0 (execDelete ring dma s) := by
  unfold execDelete
  with_reducible repeat' first
    | assumption | exact RKeeps.fault | apply RKeeps.next | refine RKeeps.runReading h0 (fun _ _ _ => ?_)
    | apply Keeps.no | apply Keeps.checks | refine Keeps.addMutation (e0 := by assumption) ?_ | apply Keeps.stores
    | apply Keeps.sendRecord | refine Keeps.foldl _ _ (fun _ _ _ => ?_) ?_ | split

theorem RKeeps.upsert (ring : Nat) (dma : Dma) : RKeeps r0 (execUpsert ring dma s) := by
  unfold execUpsert
  with_reducible repeat' first
    | assumption | exact RKeeps.fault | apply RKeeps.next | refine RKeeps.runReading h0 (fun _ _ _ => ?_)
    | apply Keeps.putRecords

theorem RKeeps.insertCoded (ring : Nat) (dma : Dma) : RKeeps r0 (execInsertCoded ring dma s) := by
  unfold execInsertCoded
  with_reducible repeat' first
    | assumption | exact RKeeps.fault | apply RKeeps.next | refine RKeeps.runReading h0 (fun _ _ _ => ?_)
    | apply Keeps.putRecords

theorem RKeeps.commit (ring : Nat) (dma : Dma) : RKeeps r0 (execCommit ring dma s) := by
  unfold execCommit
  with_reducible repeat' first
    | assumption | exact RKeeps.fault | apply RKeeps.next | refine RKeeps.runPacket h0 (fun _ _ _ => ?_)
    | apply Keeps.no | apply Keeps.checks | apply Keeps.setIndex | apply Keeps.tellMembers | apply Keeps.stays | split

theorem RKeeps.commitApply (field index : Nat) (copiesOk recordOk : Bool) :
    RKeeps r0 (execCommitApply field index copiesOk recordOk s) := by
  have htry := fun c key upTo done => Keeps.tryCommit h0 c key upTo done
  unfold execCommitApply
  dsimp only
  split
  · exact h0
  · split
    next c upTo done x _ _ =>
      specialize htry c (indexKey field index) upTo done
      split
      · exact h0
      · split
        · exact (h0.undo c).finish c stNO_CAPACITY 0 0 c.flags recordOk
        · split
          next => exact (h0.undo c).finish c stNO_CAPACITY 0 0 c.flags recordOk
          next => exact (h0.undo c).finish c stHW_FAULT 0 0 c.flags recordOk
          next t e => rw [e] at htry; exact htry
          next t e =>
            have ht : Keeps r0 t := by rw [e] at htry; exact htry
            exact Keeps.finish (ht.ite (ht.tellStandby _)) c 0 (x.epoch + 1) 0 c.flags recordOk
    next => exact h0

theorem RKeeps.snapshotHold (ring : Nat) (dma : Dma) : RKeeps r0 (execSnapshotHold ring dma s) := by
  unfold execSnapshotHold
  with_reducible repeat' first
    | assumption | exact RKeeps.fault | apply RKeeps.next | refine RKeeps.runPacket h0 (fun _ _ _ => ?_)
    | apply Keeps.no | apply Keeps.checks | apply Keeps.yes | apply Keeps.setIndex | split

theorem RKeeps.snapshotRelease (ring : Nat) (dma : Dma) : RKeeps r0 (execSnapshotRelease ring dma s) := by
  unfold execSnapshotRelease
  with_reducible repeat' first
    | assumption | exact RKeeps.fault | apply RKeeps.next | refine RKeeps.runPacket h0 (fun _ _ _ => ?_)
    | apply Keeps.no | apply Keeps.checks | apply Keeps.yes | apply Keeps.setIndex | split

theorem RKeeps.compact (ring : Nat) (dma : Dma) : RKeeps r0 (execCompact ring dma s) := by
  unfold execCompact
  with_reducible repeat' first
    | assumption
    | refine RKeeps.runPacket h0 (fun _ _ _ => ?_)
    | apply Keeps.no
    | apply Keeps.checks
    | apply Keeps.yes
    | apply Keeps.stays
    | apply Keeps.enqueue
    | split
    | dsimp only

theorem RKeeps.compactionStart (evaporator : Nat) : RKeeps r0 (execCompactionStart evaporator s) := by
  unfold execCompactionStart
  with_reducible repeat' first
    | assumption | exact RKeeps.fault | apply RKeeps.next | apply Keeps.takeWaiting | split

theorem RKeeps.compactionSwap (evaporator : Nat) (copiesOk recordOk : Bool) :
    RKeeps r0 (execCompactionSwap evaporator copiesOk recordOk s) := by
  unfold execCompactionSwap
  with_reducible repeat' first
    | assumption | exact RKeeps.fault | apply RKeeps.next | apply Keeps.dropReader | apply Keeps.abandonCompaction
    | apply Keeps.haltReader | apply Keeps.readSpans | apply Keeps.storeSpans | apply Keeps.finishImage | split
    | dsimp only | fail_if_no_progress apply Keeps.update

theorem RKeeps.oldImageFree (field index list : Nat) : RKeeps r0 (execOldImageFree field index list s) := by
  unfold execOldImageFree
  with_reducible repeat' first
    | assumption | exact RKeeps.fault | apply RKeeps.next | apply Keeps.setIndex | apply Keeps.releasePages
    | apply Keeps.memoryFreed | split | dsimp only

theorem RKeeps.versionFree (field index : Nat) : RKeeps r0 (execVersionFree field index s) := by
  unfold execVersionFree
  with_reducible repeat' first
    | assumption | exact RKeeps.fault | apply RKeeps.next | apply Keeps.setIndex | apply Keeps.releasePages | split

theorem RKeeps.search (ring : Nat) (dma : Dma) : RKeeps r0 (execSearch ring dma s) := by
  unfold execSearch
  with_reducible repeat' first
    | assumption | exact RKeeps.fault | apply RKeeps.next | refine RKeeps.runPacket h0 (fun _ _ _ => ?_)
    | apply Keeps.searchBody

theorem RKeeps.searchBatch (ring : Nat) (dma : Dma) : RKeeps r0 (execSearchBatch ring dma s) := by
  unfold execSearchBatch
  with_reducible repeat' first
    | assumption | exact RKeeps.fault | apply RKeeps.next | refine RKeeps.runPacket h0 (fun _ _ _ => ?_)
    | apply Keeps.searchBody

theorem RKeeps.searchRadius (ring : Nat) (dma : Dma) : RKeeps r0 (execSearchRadius ring dma s) := by
  unfold execSearchRadius
  with_reducible repeat' first
    | assumption | exact RKeeps.fault | apply RKeeps.next | refine RKeeps.runPacket h0 (fun _ _ _ => ?_)
    | apply Keeps.searchBody

theorem RKeeps.tableAreaPlacement : RKeeps r0 (execTableAreaPlacement s) := by
  unfold execTableAreaPlacement
  with_reducible repeat' first
    | assumption | exact RKeeps.fault | apply RKeeps.next | refine Keeps.place (e0 := by assumption) ?_
    | apply Keeps.setQueries | apply Keeps.afterPlacing | split

theorem RKeeps.coulterTile : RKeeps r0 (execCoulterTile s) := by
  unfold execCoulterTile
  with_reducible repeat' first
    | assumption | exact RKeeps.fault | apply RKeeps.next | apply Keeps.scoreTile | split

theorem RKeeps.distanceTableBuild (harrow : Nat) : RKeeps r0 (execDistanceTableBuild harrow s) := by
  unfold execDistanceTableBuild
  with_reducible repeat' first
    | assumption | exact RKeeps.fault | apply RKeeps.next | apply Keeps.heldBack | apply Keeps.readSpans
    | apply Keeps.faultQueries | apply Keeps.putQuery | apply Keeps.queryReplays | split | dsimp only

theorem RKeeps.sowingWindowClose (field index : Nat) (classX : Bool) :
    RKeeps r0 (execSowingWindowClose field index classX s) := by
  unfold execSowingWindowClose
  with_reducible repeat' first
    | assumption | exact RKeeps.fault | apply RKeeps.next | apply Keeps.advance | apply Keeps.closeWindow | split

theorem RKeeps.listPass (window : Nat) : RKeeps r0 (execListPass window s) := by
  unfold execListPass
  with_reducible repeat' first
    | assumption | exact RKeeps.fault | apply RKeeps.next | apply Keeps.formPasses | apply Keeps.runPass | split
    | dsimp only

theorem RKeeps.rerank (assayer : Nat) : RKeeps r0 (execRerank assayer s) := by
  unfold execRerank
  with_reducible repeat' first
    | assumption | exact RKeeps.fault | apply RKeeps.next | apply Keeps.rerankQuery | split

theorem RKeeps.finalMerge (crystalliser : Nat) : RKeeps r0 (execFinalMerge crystalliser s) := by
  unfold execFinalMerge
  with_reducible repeat' first
    | assumption | exact RKeeps.fault | apply RKeeps.next | apply Keeps.putQuery | split

theorem RKeeps.resultOutput (dataOk recordOk : Bool) : RKeeps r0 (execResultOutput dataOk recordOk s) := by
  unfold execResultOutput
  with_reducible repeat' first
    | assumption | exact RKeeps.fault | apply RKeeps.next | apply Keeps.outputSearch | split

theorem RKeeps.gleanerTestStart (pass replyOk recordOk : Bool) :
    RKeeps r0 (execGleanerTestStart pass replyOk recordOk s) := by
  unfold execGleanerTestStart
  with_reducible repeat' first
    | assumption | exact RKeeps.fault | apply RKeeps.next | apply Keeps.logTest | apply Keeps.writeReply
    | apply Keeps.finish | split

theorem RKeeps.fetchVector (ring : Nat) (dma : Dma) : RKeeps r0 (execFetchVector ring dma s) := by
  unfold execFetchVector
  with_reducible repeat' first
    | assumption | exact RKeeps.fault | apply RKeeps.next | refine RKeeps.runReading h0 (fun _ _ _ => ?_)
    | apply Keeps.no | apply Keeps.count | apply Keeps.checks | apply Keeps.reads | split | dsimp only
    | fail_if_no_progress apply Keeps.update

theorem RKeeps.filterDefine (ring : Nat) (dma : Dma) : RKeeps r0 (execFilterDefine ring dma s) := by
  unfold execFilterDefine
  with_reducible repeat' first
    | assumption | exact RKeeps.fault | apply RKeeps.next | refine RKeeps.runPacket h0 (fun _ _ _ => ?_)
    | apply Keeps.filterBody

theorem RKeeps.filterDrop (ring : Nat) (dma : Dma) : RKeeps r0 (execFilterDrop ring dma s) := by
  unfold execFilterDrop
  with_reducible repeat' first
    | assumption | exact RKeeps.fault | apply RKeeps.next | refine RKeeps.runPacket h0 (fun _ _ _ => ?_)
    | apply Keeps.filterDropBody

theorem RKeeps.bitmapLoad (ring : Nat) (dma : Dma) : RKeeps r0 (execBitmapLoad ring dma s) := by
  unfold execBitmapLoad
  with_reducible repeat' first
    | assumption | exact RKeeps.fault | apply RKeeps.next | refine RKeeps.runReading h0 (fun _ _ _ => ?_)
    | apply Keeps.bitmapBody

theorem RKeeps.pagePoolGrant (ring : Nat) (dma : Dma) : RKeeps r0 (execPagePoolGrant ring dma s) := by
  unfold execPagePoolGrant
  with_reducible repeat' first
    | assumption | exact RKeeps.fault | apply RKeeps.next | refine RKeeps.runPacket h0 (fun _ _ _ => ?_)
    | apply Keeps.no | apply Keeps.poolGrant | apply Keeps.poolReclaim | split

theorem RKeeps.pagePin (ring : Nat) (dma : Dma) : RKeeps r0 (execPagePin ring dma s) := by
  unfold execPagePin
  with_reducible repeat' first
    | assumption | exact RKeeps.fault | apply RKeeps.next | refine RKeeps.runPacket h0 (fun _ _ _ => ?_)
    | apply Keeps.no | apply Keeps.checks | apply Keeps.setIndex | apply Keeps.tighten
    | refine Keeps.syncCapacity (e0 := by assumption) ?_ | apply Keeps.pinLines | apply Keeps.yes | split

theorem RKeeps.pageUnpin (ring : Nat) (dma : Dma) : RKeeps r0 (execPageUnpin ring dma s) := by
  unfold execPageUnpin
  with_reducible repeat' first
    | assumption | exact RKeeps.fault | apply RKeeps.next | refine RKeeps.runPacket h0 (fun _ _ _ => ?_)
    | apply Keeps.no | apply Keeps.checks | apply Keeps.setIndex | apply Keeps.yes | apply Keeps.releasePages | split

theorem RKeeps.programLoad (ring : Nat) (dma : Dma) : RKeeps r0 (execProgramLoad ring dma s) := by
  unfold execProgramLoad
  with_reducible repeat' first
    | assumption | exact RKeeps.fault | apply RKeeps.next | refine RKeeps.runReading h0 (fun _ _ _ => ?_)
    | apply Keeps.no | apply Keeps.checks | apply Keeps.setField | refine Keeps.syncPages (e0 := by assumption) ?_
    | apply Keeps.stores | apply Keeps.extend | split

theorem RKeeps.programRun (ring : Nat) (dma : Dma) : RKeeps r0 (execProgramRun ring dma s) := by
  unfold execProgramRun
  with_reducible repeat' first
    | assumption | exact RKeeps.fault | apply RKeeps.next | refine RKeeps.runPacket h0 (fun _ _ _ => ?_)
    | apply Keeps.no | apply Keeps.checks | apply Keeps.stays | split | dsimp only
    | fail_if_no_progress apply Keeps.update

theorem RKeeps.programRunStart (run : Nat) : RKeeps r0 (execProgramRunStart run s) := by
  unfold execProgramRunStart
  with_reducible repeat' first
    | assumption | exact RKeeps.fault | apply RKeeps.next | apply Keeps.stopCmd | apply Keeps.readSpans
    | apply Keeps.startRun | split | dsimp only

theorem RKeeps.programSliceExpire (run : Nat) : RKeeps r0 (execProgramSliceExpire run s) := by
  unfold execProgramSliceExpire
  with_reducible repeat' first
    | assumption | exact RKeeps.fault | apply RKeeps.next | apply Keeps.advance | apply Keeps.stopCmd | split

theorem RKeeps.programRunEnd (run : Nat) (cycles : List Nat) (replyOk recordOk : Bool) :
    RKeeps r0 (execProgramRunEnd run cycles replyOk recordOk s) := by
  unfold execProgramRunEnd
  with_reducible repeat' first
    | assumption | exact RKeeps.fault | apply RKeeps.next | apply Keeps.endRun | apply Keeps.storeSpans | split
    | dsimp only

theorem RKeeps.tileRead (ring : Nat) (dma : Dma) : RKeeps r0 (execTileRead ring dma s) := by
  unfold execTileRead
  with_reducible repeat' first
    | assumption | exact RKeeps.fault | apply RKeeps.next | refine RKeeps.runReading h0 (fun _ _ _ => ?_)
    | apply Keeps.no | apply Keeps.checks | apply Keeps.reads | split

theorem RKeeps.tileWrite (ring : Nat) (dma : Dma) : RKeeps r0 (execTileWrite ring dma s) := by
  unfold execTileWrite
  with_reducible repeat' first
    | assumption | exact RKeeps.fault | apply RKeeps.next | refine RKeeps.runReading h0 (fun _ _ _ => ?_)
    | apply Keeps.no | apply Keeps.checks | apply Keeps.stores | apply Keeps.setField | split

theorem RKeeps.unitFallow (ring : Nat) (dma : Dma) : RKeeps r0 (execUnitFallow ring dma s) := by
  unfold execUnitFallow
  with_reducible repeat' first
    | assumption | exact RKeeps.fault | apply RKeeps.next | refine RKeeps.runPacket h0 (fun _ _ _ => ?_)
    | apply Keeps.checks | apply Keeps.startDrain | apply Keeps.forceOut | apply Keeps.stays | split

theorem RKeeps.fallowDrainEnd (unitType instNo : Nat) (recordOk : Bool) :
    RKeeps r0 (execFallowDrainEnd unitType instNo recordOk s) := by
  unfold execFallowDrainEnd
  with_reducible repeat' first
    | assumption | exact RKeeps.fault | apply RKeeps.next | apply Keeps.forceOut | apply Keeps.endDrain | split
    | dsimp only

theorem RKeeps.frameMove (field page : Nat) : RKeeps r0 (execFrameMove field page s) := by
  unfold execFrameMove
  with_reducible repeat' first
    | assumption | exact RKeeps.fault | apply RKeeps.next | refine Keeps.moveFrame (e0 := by assumption) ?_
    | apply Keeps.setCmds | apply Keeps.pinLines | split

theorem RKeeps.unitTill (ring : Nat) (dma : Dma) : RKeeps r0 (execUnitTill ring dma s) := by
  unfold execUnitTill
  with_reducible repeat' first
    | assumption | exact RKeeps.fault | apply RKeeps.next | refine RKeeps.runPacket h0 (fun _ _ _ => ?_)
    | apply Keeps.checks | apply Keeps.setUnit | apply Keeps.stays | apply Keeps.unitTo

theorem RKeeps.unitSelfTestEnd (unitType instNo : Nat) (pass recordOk : Bool) :
    RKeeps r0 (execUnitSelfTestEnd unitType instNo pass recordOk s) := by
  unfold execUnitSelfTestEnd
  with_reducible repeat' first
    | assumption | exact RKeeps.fault | apply RKeeps.next | apply Keeps.logTest | apply Keeps.setUnit
    | apply Keeps.finish | apply Keeps.unitTo | split | dsimp only | fail_if_no_progress apply Keeps.update

theorem RKeeps.unitStatus (ring : Nat) (dma : Dma) : RKeeps r0 (execUnitStatus ring dma s) := by
  unfold execUnitStatus
  with_reducible repeat' first
    | assumption | exact RKeeps.fault | apply RKeeps.next | refine RKeeps.runPacket h0 (fun _ _ _ => ?_)
    | apply Keeps.checks | apply Keeps.yesReply

theorem RKeeps.cascadeForm (ring : Nat) (dma : Dma) : RKeeps r0 (execCascadeForm ring dma s) := by
  unfold execCascadeForm
  with_reducible repeat' first
    | assumption | exact RKeeps.fault | apply RKeeps.next | refine RKeeps.runPacket h0 (fun _ _ _ => ?_)
    | apply Keeps.formBody

theorem RKeeps.cascadeStatus (ring : Nat) (dma : Dma) : RKeeps r0 (execCascadeStatus ring dma s) := by
  unfold execCascadeStatus
  with_reducible repeat' first
    | assumption | exact RKeeps.fault | apply RKeeps.next | refine RKeeps.runPacket h0 (fun _ _ _ => ?_)
    | apply Keeps.checks | apply Keeps.yesReply

theorem RKeeps.cascadePromote (ring : Nat) (dma : Dma) : RKeeps r0 (execCascadePromote ring dma s) := by
  unfold execCascadePromote
  with_reducible repeat' first
    | assumption | exact RKeeps.fault | apply RKeeps.next | refine RKeeps.runPacket h0 (fun _ _ _ => ?_)
    | apply Keeps.promoteBody

theorem RKeeps.attest (ring : Nat) (dma : Dma) : RKeeps r0 (execAttest ring dma s) := by
  unfold execAttest
  with_reducible repeat' first
    | assumption | exact RKeeps.fault | apply RKeeps.next | refine RKeeps.runPacket h0 (fun _ _ _ => ?_)
    | apply Keeps.checks | apply Keeps.yesReply

theorem RKeeps.measureRead (ring : Nat) (dma : Dma) : RKeeps r0 (execMeasureRead ring dma s) := by
  unfold execMeasureRead
  with_reducible repeat' first
    | assumption | exact RKeeps.fault | apply RKeeps.next | refine RKeeps.runPacket h0 (fun _ _ _ => ?_)
    | apply Keeps.checks | apply Keeps.yesReply

theorem RKeeps.stakeRead (ring : Nat) (dma : Dma) : RKeeps r0 (execStakeRead ring dma s) := by
  unfold execStakeRead
  with_reducible repeat' first
    | assumption | exact RKeeps.fault | apply RKeeps.next | refine RKeeps.runPacket h0 (fun _ _ _ => ?_)
    | apply Keeps.checks | apply Keeps.yesReply

theorem RKeeps.stakeWrite (ring : Nat) (dma : Dma) (verify0 verify1 : Bool) :
    RKeeps r0 (execStakeWrite ring dma verify0 verify1 s) := by
  refine RKeeps.runPacket h0 (fun x t ht => Keeps.checks_of _ (fun hpass => ?_))
  have hk : t.trust.used (num x.pkt 16 1) < stakeSlots (num x.pkt 16 1) := by
    unfold State.stakeChecks at hpass
    simp at hpass
    omega
  have hset : Keeps r0 ((t.setTrust (t.programStake (num x.pkt 16 1) (num x.pkt 24 8) (num x.pkt 20 4) verify0 verify1)).resolveStakes) :=
    (ht.setTrust _ (programStake_keeps t _ _ _ _ _ hk) (fun h => by rwa [programStake_flash])).resolveStakes
  dsimp only
  split
  · exact Keeps.yes (((hset.permitsCleared _ _).ite hset).logEvent _ _ _ _ _ |>.extend _ _) _
  · exact Keeps.failed ((hset.permitsCleared _ _).ite hset) _

theorem RKeeps.countersRead (ring : Nat) (dma : Dma) : RKeeps r0 (execCountersRead ring dma s) := by
  unfold execCountersRead
  with_reducible repeat' first
    | assumption | exact RKeeps.fault | apply RKeeps.next | refine RKeeps.runPacket h0 (fun _ _ _ => ?_)
    | apply Keeps.checks | apply Keeps.yesReply

theorem RKeeps.logRead (ring : Nat) (dma : Dma) : RKeeps r0 (execLogRead ring dma s) := by
  unfold execLogRead
  with_reducible repeat' first
    | assumption | exact RKeeps.fault | apply RKeeps.next | refine RKeeps.runPacket h0 (fun _ _ _ => ?_)
    | apply Keeps.checks | apply Keeps.yesReply

theorem RKeeps.traceCtl (ring : Nat) (dma : Dma) : RKeeps r0 (execTraceCtl ring dma s) := by
  unfold execTraceCtl
  with_reducible repeat' first
    | assumption | exact RKeeps.fault | apply RKeeps.next | refine RKeeps.runPacket h0 (fun _ _ _ => ?_)
    | apply Keeps.checks | apply Keeps.yes | apply Keeps.yesReply | split | dsimp only
    | fail_if_no_progress apply Keeps.update

theorem RKeeps.testPerturb (ring : Nat) (dma : Dma) : RKeeps r0 (execTestPerturb ring dma s) := by
  unfold execTestPerturb
  with_reducible repeat' first
    | assumption | exact RKeeps.fault | apply RKeeps.next | refine RKeeps.runPacket h0 (fun _ _ _ => ?_)
    | apply Keeps.no | apply Keeps.pertApply | apply Keeps.yes | split | dsimp only

theorem RKeeps.selfTest (ring : Nat) (dma : Dma) (failing : List (Nat × Nat)) :
    RKeeps r0 (execSelfTest ring dma failing s) := by
  unfold execSelfTest
  with_reducible repeat' first
    | assumption | exact RKeeps.fault | apply RKeeps.next | refine RKeeps.runPacket h0 (fun _ _ _ => ?_)
    | apply Keeps.checks | apply Keeps.stays | apply Keeps.testUnit | apply Keeps.yesReply
    | refine Keeps.foldl _ _ (fun _ _ _ => ?_) ?_ | split

theorem RKeeps.firmwareStage (ring : Nat) (dma : Dma) (flashOk : Bool) :
    RKeeps r0 (execFirmwareStage ring dma flashOk s) := by
  unfold execFirmwareStage
  with_reducible repeat' first
    | assumption | exact RKeeps.fault | apply RKeeps.next | refine RKeeps.runPacket h0 (fun _ _ _ => ?_)
    | apply Keeps.checks | apply Keeps.stageBlock | apply Keeps.yes | apply Keeps.flashReadBack
    | apply Keeps.rewriteSector | apply Keeps.extend | apply Keeps.failed | split | dsimp only

theorem RKeeps.firmwareActivate (ring : Nat) (dma : Dma) : RKeeps r0 (execFirmwareActivate ring dma s) := by
  unfold execFirmwareActivate
  with_reducible repeat' first
    | assumption | exact RKeeps.fault | apply RKeeps.next | refine RKeeps.runPacket h0 (fun _ _ _ => ?_)
    | apply Keeps.checks | apply Keeps.rewriteSector | apply Keeps.yes | apply Keeps.extend

theorem RKeeps.plannerEpoch : RKeeps r0 (execPlannerEpoch s) := by
  unfold execPlannerEpoch
  with_reducible repeat' first
    | assumption | exact RKeeps.fault | apply RKeeps.next | apply Keeps.advance | apply Keeps.turnAll
    | apply Keeps.tracePlanner | apply Keeps.takeBusy | split

theorem RKeeps.channelGrant (channel edcFails : Nat) (ecc : List Ecc) :
    RKeeps r0 (execChannelGrant channel edcFails ecc s) := by
  unfold execChannelGrant
  with_reducible repeat' first
    | assumption | exact RKeeps.fault | apply RKeeps.next | apply Keeps.doUpkeep | apply Keeps.count
    | apply Keeps.grant | split

theorem RKeeps.gddrRetrain (channel : Nat) : RKeeps r0 (execGddrRetrain channel s) := by
  unfold execGddrRetrain
  with_reducible repeat' first
    | assumption | exact RKeeps.fault | apply RKeeps.next | apply Keeps.setChannel | apply Keeps.count
    | apply Keeps.stopCmds | split

theorem RKeeps.gddrRetrainEnd (channel : Nat) (pass : Bool) : RKeeps r0 (execGddrRetrainEnd channel pass s) := by
  unfold execGddrRetrainEnd
  with_reducible repeat' first
    | assumption | exact RKeeps.fault | apply RKeeps.next | apply Keeps.setChannel | apply Keeps.logEvent
    | apply Keeps.failPair | apply Keeps.count | split

theorem RKeeps.gddrTemperatureRead (temps : List Int) : RKeeps r0 (execGddrTemperatureRead temps s) := by
  unfold execGddrTemperatureRead
  with_reducible repeat' first
    | assumption | exact RKeeps.fault | apply RKeeps.next | apply Keeps.advance | apply Keeps.setChannel
    | refine Keeps.foldl _ _ (fun _ _ _ => ?_) ?_ | split

theorem RKeeps.patrolScrub (field page chunk : Nat) (ecc : Ecc) :
    RKeeps r0 (execPatrolScrub field page chunk ecc s) := by
  unfold execPatrolScrub
  with_reducible repeat' first
    | assumption | exact RKeeps.fault | apply RKeeps.next | apply Keeps.checkChunk | split

theorem RKeeps.gddrTraining (probes : List ChannelProbe) : RKeeps r0 (execGddrTraining probes s) := by
  unfold execGddrTraining
  with_reducible repeat' first
    | assumption | exact RKeeps.fault | apply RKeeps.next | apply Keeps.setBoard | apply Keeps.unitTo
    | refine Keeps.foldl _ _ (fun _ _ _ => ?_) ?_ | split | dsimp only | fail_if_no_progress apply Keeps.update

theorem RKeeps.streamTileRequest (stream : Nat) : RKeeps r0 (execStreamTileRequest stream s) := by
  unfold execStreamTileRequest
  with_reducible repeat' first
    | assumption | exact RKeeps.fault | apply RKeeps.next | apply Keeps.requestTile
    | refine Keeps.foldl _ _ (fun _ _ _ => ?_) ?_ | split

theorem RKeeps.streamTileDeliver (stream tile : Nat) : RKeeps r0 (execStreamTileDeliver stream tile s) := by
  unfold execStreamTileDeliver
  with_reducible repeat' first
    | assumption | exact RKeeps.fault | apply RKeeps.next | apply IKeeps.next | exact IKeeps.trap
    | exact IKeeps.reserved | apply Keeps.failRun | apply Keeps.setStream | apply Keeps.landTile
    | apply Keeps.writeTile | split | dsimp only

theorem RKeeps.streamHalt (stream : Nat) : RKeeps r0 (execStreamHalt stream s) := by
  unfold execStreamHalt
  with_reducible repeat' first
    | assumption | exact RKeeps.fault | apply RKeeps.next | apply Keeps.setStream | apply Keeps.setRun
    | apply Keeps.traceRec | split | dsimp only

theorem RKeeps.pageIn (field : Nat) (readOk : Bool) (failedWriteBacks : Nat) :
    RKeeps r0 (execPageIn field readOk failedWriteBacks s) := by
  unfold execPageIn
  split
  · exact h0
  · split
    next => exact h0
    next p passed _ =>
      have hin := Keeps.bringIn h0 field p passed failedWriteBacks readOk
      split
      · exact (h0.notePageIn _ _).failWaiting _ _
      · split
        next t e => rw [e] at hin; exact hin
        next t e => rw [e] at hin; exact hin
        next t e =>
          have ht : Keeps r0 t := by rw [e] at hin; exact hin
          exact (ht.logEvent _ _ _ _ _).failWaiting _ _

theorem RKeeps.streamResume (field page : Nat) : RKeeps r0 (execStreamResume field page s) := by
  unfold execStreamResume
  with_reducible repeat' first
    | assumption | exact RKeeps.fault | apply RKeeps.next | apply Keeps.resumeStream
    | refine Keeps.foldl _ _ (fun _ _ _ => ?_) ?_ | split

theorem RKeeps.modeAAdd (slice location : Nat) (adds : List (Nat × BitVec 32)) :
    RKeeps r0 (execModeAAdd slice location adds s) := by
  unfold execModeAAdd
  with_reducible repeat' first
    | assumption | exact RKeeps.fault | apply RKeeps.next | split | dsimp only
    | fail_if_no_progress apply Keeps.update

theorem RKeeps.modeDPartial (total : Nat) (shape : SplitShape) (contributor run : Nat) (part : SplitPart) :
    RKeeps r0 (execModeDPartial total shape contributor run part s) := by
  unfold execModeDPartial
  with_reducible repeat' first
    | assumption | exact RKeeps.fault | apply RKeeps.next | apply Keeps.settle | apply Keeps.askAgain | split
    | dsimp only | fail_if_no_progress apply Keeps.update

theorem RKeeps.invalidationAck (slice channel line core : Nat) :
    RKeeps r0 (execInvalidationAck slice channel line core s) := by
  unfold execInvalidationAck
  with_reducible repeat' first
    | assumption | exact RKeeps.fault | apply RKeeps.next | apply Keeps.setCore | apply Keeps.settleLine
    | apply Keeps.setLine | split | dsimp only

theorem RKeeps.messageDeliver (core thread : Nat) : RKeeps r0 (execMessageDeliver core thread s) := by
  unfold execMessageDeliver
  with_reducible repeat' first
    | assumption | exact RKeeps.fault | apply RKeeps.next | refine Keeps.sentMessage (e0 := by assumption) ?_
    | refine Keeps.nextMessage (e0 := by assumption) ?_ | apply Keeps.setThread | split | dsimp only
    | fail_if_no_progress apply Keeps.update

theorem RKeeps.halt (core thread : Nat) : RKeeps r0 (execHalt core thread s) := by
  unfold execHalt
  with_reducible repeat' first
    | assumption | exact RKeeps.fault | apply RKeeps.next | apply IKeeps.placed | exact IKeeps.trap
    | exact IKeeps.reserved | refine RKeeps.issue h0 (fun _ => ?_)

theorem RKeeps.coreNop (core thread : Nat) : RKeeps r0 (execCoreNop core thread s) := by
  unfold execCoreNop
  with_reducible repeat' first
    | assumption | exact RKeeps.fault | apply RKeeps.next | exact IKeeps.trap | exact IKeeps.reserved
    | exact RKeeps.issueReg h0

theorem RKeeps.br (core thread : Nat) : RKeeps r0 (execBr core thread s) := by
  unfold execBr
  with_reducible repeat' first
    | assumption | exact RKeeps.fault | apply RKeeps.next | apply IKeeps.placed | exact IKeeps.trap
    | exact IKeeps.reserved | refine RKeeps.issue h0 (fun _ => ?_)

theorem RKeeps.brc (core thread : Nat) : RKeeps r0 (execBrc core thread s) := by
  unfold execBrc
  with_reducible repeat' first
    | assumption | exact RKeeps.fault | apply RKeeps.next | apply IKeeps.next | apply IKeeps.placed
    | exact IKeeps.trap | exact IKeeps.reserved | refine RKeeps.issue h0 (fun _ => ?_) | split

theorem RKeeps.call (core thread : Nat) : RKeeps r0 (execCall core thread s) := by
  unfold execCall
  with_reducible repeat' first
    | assumption | exact RKeeps.fault | apply RKeeps.next | apply IKeeps.placed | exact IKeeps.trap
    | exact IKeeps.reserved | refine RKeeps.issue h0 (fun _ => ?_) | split

theorem RKeeps.ret (core thread : Nat) : RKeeps r0 (execRet core thread s) := by
  unfold execRet
  with_reducible repeat' first
    | assumption | exact RKeeps.fault | apply RKeeps.next | apply IKeeps.placed | exact IKeeps.trap
    | exact IKeeps.reserved | refine RKeeps.issue h0 (fun _ => ?_) | split

theorem RKeeps.repI (core thread : Nat) : RKeeps r0 (execRepI core thread s) := by
  unfold execRepI
  with_reducible repeat' first
    | assumption | exact RKeeps.fault | apply RKeeps.next | apply IKeeps.placed | exact IKeeps.trap
    | exact IKeeps.reserved | refine RKeeps.issue h0 (fun _ => ?_) | split

theorem RKeeps.repD (core thread : Nat) : RKeeps r0 (execRepD core thread s) := by
  unfold execRepD
  with_reducible repeat' first
    | assumption | exact RKeeps.fault | apply RKeeps.next | apply IKeeps.placed | exact IKeeps.trap
    | exact IKeeps.reserved | refine RKeeps.issue h0 (fun _ => ?_) | split

theorem RKeeps.breakLevel (core thread : Nat) : RKeeps r0 (execBreakLevel core thread s) := by
  unfold execBreakLevel
  with_reducible repeat' first
    | assumption | exact RKeeps.fault | apply RKeeps.next | apply IKeeps.next | apply IKeeps.placed
    | exact IKeeps.trap | exact IKeeps.reserved | refine RKeeps.issue h0 (fun _ => ?_) | split

theorem RKeeps.time (core thread : Nat) : RKeeps r0 (execTime core thread s) := by
  unfold execTime
  with_reducible repeat' first
    | assumption | exact RKeeps.fault | apply RKeeps.next | exact IKeeps.trap | exact IKeeps.reserved
    | exact RKeeps.issueReg h0

theorem RKeeps.selfId (core thread : Nat) : RKeeps r0 (execSelfId core thread s) := by
  unfold execSelfId
  with_reducible repeat' first
    | assumption | exact RKeeps.fault | apply RKeeps.next | exact IKeeps.trap | exact IKeeps.reserved
    | exact RKeeps.issueReg h0

theorem RKeeps.flagsRd (core thread : Nat) : RKeeps r0 (execFlagsRd core thread s) := by
  unfold execFlagsRd
  with_reducible repeat' first
    | assumption | exact RKeeps.fault | apply RKeeps.next | exact IKeeps.trap | exact IKeeps.reserved
    | exact RKeeps.issueReg h0

theorem RKeeps.flagsClr (core thread : Nat) : RKeeps r0 (execFlagsClr core thread s) := by
  unfold execFlagsClr
  with_reducible repeat' first
    | assumption | exact RKeeps.fault | apply RKeeps.next | exact IKeeps.trap | exact IKeeps.reserved
    | exact RKeeps.issueReg h0

theorem RKeeps.cmp (core thread : Nat) : RKeeps r0 (execCmp core thread s) := by
  unfold execCmp
  with_reducible repeat' first
    | assumption | exact RKeeps.fault | apply RKeeps.next | exact IKeeps.trap | exact IKeeps.reserved
    | exact RKeeps.issueReg h0

theorem RKeeps.movi (core thread : Nat) : RKeeps r0 (execMovi core thread s) := by
  unfold execMovi
  with_reducible repeat' first
    | assumption | exact RKeeps.fault | apply RKeeps.next | exact IKeeps.trap | exact IKeeps.reserved
    | exact RKeeps.issueReg h0

theorem RKeeps.addi (core thread : Nat) : RKeeps r0 (execAddi core thread s) := by
  unfold execAddi
  with_reducible repeat' first
    | assumption | exact RKeeps.fault | apply RKeeps.next | exact IKeeps.trap | exact IKeeps.reserved
    | exact RKeeps.issueReg h0

theorem RKeeps.vsel (core thread : Nat) : RKeeps r0 (execVsel core thread s) := by
  unfold execVsel
  with_reducible repeat' first
    | assumption | exact RKeeps.fault | apply RKeeps.next | exact IKeeps.trap | exact IKeeps.reserved
    | exact RKeeps.issueReg h0

theorem RKeeps.vred (core thread : Nat) : RKeeps r0 (execVred core thread s) := by
  unfold execVred
  with_reducible repeat' first
    | assumption | exact RKeeps.fault | apply RKeeps.next | exact IKeeps.trap | exact IKeeps.reserved
    | exact RKeeps.issueReg h0

theorem RKeeps.vcvt (core thread : Nat) : RKeeps r0 (execVcvt core thread s) := by
  unfold execVcvt
  with_reducible repeat' first
    | assumption | exact RKeeps.fault | apply RKeeps.next | exact IKeeps.trap | exact IKeeps.reserved
    | exact RKeeps.issueReg h0

theorem RKeeps.vsbac (core thread : Nat) : RKeeps r0 (execVsbac core thread s) := by
  unfold execVsbac
  with_reducible repeat' first
    | assumption | exact RKeeps.fault | apply RKeeps.next | exact IKeeps.trap | exact IKeeps.reserved
    | exact RKeeps.issueReg h0

theorem RKeeps.mac16 (core thread : Nat) : RKeeps r0 (execMac16 core thread s) := by
  unfold execMac16
  with_reducible repeat' first
    | assumption | exact RKeeps.fault | apply RKeeps.next | refine RKeeps.dual h0 (fun _ => ?_)

theorem RKeeps.mac8 (core thread : Nat) : RKeeps r0 (execMac8 core thread s) := by
  unfold execMac8
  with_reducible repeat' first
    | assumption | exact RKeeps.fault | apply RKeeps.next | refine RKeeps.dual h0 (fun _ => ?_)

theorem RKeeps.aclr (core thread : Nat) : RKeeps r0 (execAclr core thread s) := by
  unfold execAclr
  with_reducible repeat' first
    | assumption | exact RKeeps.fault | apply RKeeps.next | exact IKeeps.trap | exact IKeeps.reserved
    | exact RKeeps.issueReg h0

theorem RKeeps.ld (core thread : Nat) : RKeeps r0 (execLd core thread s) := by
  unfold execLd
  with_reducible repeat' first
    | assumption | exact RKeeps.fault | apply RKeeps.next | apply IKeeps.next | exact IKeeps.trap
    | exact IKeeps.reserved | refine RKeeps.issue h0 (fun _ => ?_) | split

theorem RKeeps.st (core thread : Nat) : RKeeps r0 (execSt core thread s) := by
  unfold execSt
  with_reducible repeat' first
    | assumption | exact RKeeps.fault | apply RKeeps.next | apply IKeeps.next | exact IKeeps.trap
    | exact IKeeps.reserved | refine RKeeps.issue h0 (fun _ => ?_) | apply Keeps.setCore | split

theorem RKeeps.ldv (core thread : Nat) : RKeeps r0 (execLdv core thread s) := by
  unfold execLdv
  with_reducible repeat' first
    | assumption | exact RKeeps.fault | apply RKeeps.next | apply IKeeps.next | exact IKeeps.trap
    | exact IKeeps.reserved | refine RKeeps.issue h0 (fun _ => ?_) | split

theorem RKeeps.stv (core thread : Nat) : RKeeps r0 (execStv core thread s) := by
  unfold execStv
  with_reducible repeat' first
    | assumption | exact RKeeps.fault | apply RKeeps.next | apply IKeeps.next | exact IKeeps.trap
    | exact IKeeps.reserved | refine RKeeps.issue h0 (fun _ => ?_) | apply Keeps.setCore | split

theorem RKeeps.ld2 (core thread : Nat) : RKeeps r0 (execLd2 core thread s) := by
  unfold execLd2
  with_reducible repeat' first
    | assumption | exact RKeeps.fault | apply RKeeps.next | refine RKeeps.dual h0 (fun _ => ?_)

theorem RKeeps.ldst (core thread : Nat) : RKeeps r0 (execLdst core thread s) := by
  unfold execLdst
  with_reducible repeat' first
    | assumption | exact RKeeps.fault | apply RKeeps.next | refine RKeeps.dual h0 (fun _ => ?_) | apply Keeps.setCore

theorem RKeeps.ldc (core thread : Nat) : RKeeps r0 (execLdc core thread s) := by
  unfold execLdc
  with_reducible repeat' first
    | assumption | exact RKeeps.fault | apply RKeeps.next | apply IKeeps.wait | exact IKeeps.trap
    | exact IKeeps.reserved | refine RKeeps.issue h0 (fun _ => ?_) | apply Keeps.awaitPage | apply Keeps.ldcResident
    | split

theorem RKeeps.tld (core thread : Nat) : RKeeps r0 (execTld core thread s) := by
  unfold execTld
  with_reducible repeat' first
    | assumption | exact RKeeps.fault | apply RKeeps.next | apply IKeeps.next | exact IKeeps.trap
    | exact IKeeps.reserved | refine RKeeps.tileOp h0 (fun _ _ => ?_)

theorem RKeeps.tst (core thread : Nat) : RKeeps r0 (execTst core thread s) := by
  unfold execTst
  with_reducible repeat' first
    | assumption | exact RKeeps.fault | apply RKeeps.next | apply IKeeps.next | exact IKeeps.trap
    | exact IKeeps.reserved | refine RKeeps.tileOp h0 (fun _ _ => ?_) | apply Keeps.setCore

theorem RKeeps.tacc (core thread : Nat) : RKeeps r0 (execTacc core thread s) := by
  unfold execTacc
  with_reducible repeat' first
    | assumption | exact RKeeps.fault | apply RKeeps.next | apply IKeeps.next | exact IKeeps.trap
    | exact IKeeps.reserved | refine RKeeps.tileOp h0 (fun _ _ => ?_) | apply Keeps.setCore
    | refine Keeps.foldl _ _ (fun _ _ _ => ?_) ?_ | split

theorem RKeeps.tfold (core thread : Nat) : RKeeps r0 (execTfold core thread s) := by
  unfold execTfold
  with_reducible repeat' first
    | assumption | exact RKeeps.fault | apply RKeeps.next | apply IKeeps.next | exact IKeeps.trap
    | exact IKeeps.reserved | refine RKeeps.tileOp h0 (fun _ _ => ?_) | apply Keeps.setCore
    | refine Keeps.foldl _ _ (fun _ _ _ => ?_) ?_ | split

theorem RKeeps.tsts (core thread : Nat) : RKeeps r0 (execTsts core thread s) := by
  unfold execTsts
  with_reducible repeat' first
    | assumption | exact RKeeps.fault | apply RKeeps.next | apply IKeeps.next | exact IKeeps.trap
    | exact IKeeps.reserved | refine RKeeps.tileOp h0 (fun _ _ => ?_) | apply Keeps.setCore

theorem RKeeps.tclr (core thread : Nat) : RKeeps r0 (execTclr core thread s) := by
  unfold execTclr
  with_reducible repeat' first
    | assumption | exact RKeeps.fault | apply RKeeps.next | apply IKeeps.next | exact IKeeps.trap
    | exact IKeeps.reserved | refine RKeeps.tileOp h0 (fun _ _ => ?_) | apply Keeps.setCore

theorem RKeeps.dstep (core thread : Nat) : RKeeps r0 (execDstep core thread s) := by
  unfold execDstep
  with_reducible repeat' first
    | assumption | exact RKeeps.fault | apply RKeeps.next | exact IKeeps.trap | exact IKeeps.reserved
    | exact RKeeps.issueReg h0

theorem RKeeps.sqstep (core thread : Nat) : RKeeps r0 (execSqstep core thread s) := by
  unfold execSqstep
  with_reducible repeat' first
    | assumption | exact RKeeps.fault | apply RKeeps.next | exact IKeeps.trap | exact IKeeps.reserved
    | exact RKeeps.issueReg h0

theorem RKeeps.div (core thread : Nat) : RKeeps r0 (execDiv core thread s) := by
  unfold execDiv
  with_reducible repeat' first
    | assumption | exact RKeeps.fault | apply RKeeps.next | exact IKeeps.trap | exact IKeeps.reserved
    | exact RKeeps.issueReg h0

theorem RKeeps.rsq (core thread : Nat) : RKeeps r0 (execRsq core thread s) := by
  unfold execRsq
  with_reducible repeat' first
    | assumption | exact RKeeps.fault | apply RKeeps.next | exact IKeeps.trap | exact IKeeps.reserved
    | exact RKeeps.issueReg h0

theorem RKeeps.send (core thread : Nat) : RKeeps r0 (execSend core thread s) := by
  unfold execSend
  with_reducible repeat' first
    | assumption | exact RKeeps.fault | apply RKeeps.next | apply IKeeps.next | apply IKeeps.wait | exact IKeeps.trap
    | exact IKeeps.reserved | refine RKeeps.issue h0 (fun _ => ?_) | apply Keeps.setCore | split

theorem RKeeps.recv (core thread : Nat) : RKeeps r0 (execRecv core thread s) := by
  unfold execRecv
  with_reducible repeat' first
    | assumption | exact RKeeps.fault | apply RKeeps.next | apply IKeeps.next | apply IKeeps.wait | exact IKeeps.trap
    | exact IKeeps.reserved | refine RKeeps.issue h0 (fun _ => ?_) | split

theorem RKeeps.probe (core thread : Nat) : RKeeps r0 (execProbe core thread s) := by
  unfold execProbe
  with_reducible repeat' first
    | assumption | exact RKeeps.fault | apply RKeeps.next | exact IKeeps.trap | exact IKeeps.reserved
    | exact RKeeps.issueReg h0

theorem RKeeps.sstart (core thread : Nat) : RKeeps r0 (execSstart core thread s) := by
  unfold execSstart
  with_reducible repeat' first
    | assumption | exact RKeeps.fault | apply RKeeps.next | apply IKeeps.next | apply IKeeps.wait | exact IKeeps.trap
    | exact IKeeps.reserved | refine RKeeps.issue h0 (fun _ => ?_) | apply Keeps.clearSlot | apply Keeps.setCore
    | split | dsimp only | fail_if_no_progress apply Keeps.update

theorem RKeeps.swait (core thread : Nat) : RKeeps r0 (execSwait core thread s) := by
  unfold execSwait
  with_reducible repeat' first
    | assumption | exact RKeeps.fault | apply RKeeps.next | apply IKeeps.next | apply IKeeps.wait | exact IKeeps.trap
    | exact IKeeps.reserved | refine RKeeps.issue h0 (fun _ => ?_) | apply Keeps.clearSlot | split

theorem RKeeps.spoll (core thread : Nat) : RKeeps r0 (execSpoll core thread s) := by
  unfold execSpoll
  with_reducible repeat' first
    | assumption | exact RKeeps.fault | apply RKeeps.next | exact IKeeps.trap | exact IKeeps.reserved
    | exact RKeeps.issueReg h0

theorem RKeeps.apEnd (stream : Nat) : RKeeps r0 (execApEnd stream s) := by
  unfold execApEnd
  with_reducible repeat' first
    | assumption | exact RKeeps.fault | apply RKeeps.next | refine RKeeps.addressOp h0 (fun _ _ => ?_)
    | apply Keeps.withProg

theorem RKeeps.apSetb (stream : Nat) : RKeeps r0 (execApSetb stream s) := by
  unfold execApSetb
  with_reducible repeat' first
    | assumption | exact RKeeps.fault | apply RKeeps.next | refine RKeeps.addressOp h0 (fun _ _ => ?_)
    | apply Keeps.withProg

theorem RKeeps.apAdds (stream : Nat) : RKeeps r0 (execApAdds stream s) := by
  unfold execApAdds
  with_reducible repeat' first
    | assumption | exact RKeeps.fault | apply RKeeps.next | refine RKeeps.addressOp h0 (fun _ _ => ?_)
    | apply Keeps.withProg

theorem RKeeps.apEmit (stream : Nat) : RKeeps r0 (execApEmit stream s) := by
  unfold execApEmit
  with_reducible repeat' first
    | assumption | exact RKeeps.fault | apply RKeeps.next | refine RKeeps.addressOp h0 (fun _ _ => ?_)
    | apply Keeps.withProg | apply Keeps.setStream | refine Keeps.tell ?_ rfl | split | dsimp only

theorem RKeeps.apDo (stream : Nat) : RKeeps r0 (execApDo stream s) := by
  unfold execApDo
  with_reducible repeat' first
    | assumption | exact RKeeps.fault | apply RKeeps.next | refine RKeeps.addressOp h0 (fun _ _ => ?_)
    | apply Keeps.withProg

theorem RKeeps.apLoop (stream : Nat) : RKeeps r0 (execApLoop stream s) := by
  unfold execApLoop
  with_reducible repeat' first
    | assumption | exact RKeeps.fault | apply RKeeps.next | refine RKeeps.addressOp h0 (fun _ _ => ?_)
    | apply Keeps.withProg

theorem RKeeps.beacon (port : Nat) : RKeeps r0 (execBeacon port s) := by
  unfold execBeacon
  with_reducible repeat' first
    | assumption | exact RKeeps.fault | apply RKeeps.next | apply Keeps.advance | refine Keeps.tell ?_ rfl | split

theorem RKeeps.linkTrainingAdvance (port : Nat) (exit : TrainExit) :
    RKeeps r0 (execLinkTrainingAdvance port exit s) := by
  unfold execLinkTrainingAdvance
  with_reducible repeat' first
    | assumption | exact RKeeps.fault | apply RKeeps.next | apply Keeps.setPort | apply Keeps.logEvent
    | apply Keeps.traceRec | apply Keeps.greet | split

theorem RKeeps.trainingTimeout (port : Nat) : RKeeps r0 (execTrainingTimeout port s) := by
  unfold execTrainingTimeout
  with_reducible repeat' first
    | assumption | exact RKeeps.fault | apply RKeeps.next | apply Keeps.advance | apply Keeps.setPort
    | apply Keeps.count | split

theorem RKeeps.flitTransmit (port : Nat) : RKeeps r0 (execFlitTransmit port s) := by
  unfold execFlitTransmit
  with_reducible repeat' first
    | assumption | exact RKeeps.fault | apply RKeeps.next | apply Keeps.sendFlit | apply Keeps.count | split
    | dsimp only

theorem RKeeps.flitReceive (port : Nat) (lanes : List Bytes) : RKeeps r0 (execFlitReceive port lanes s) := by
  unfold execFlitReceive
  with_reducible repeat' first
    | assumption | exact RKeeps.fault | apply RKeeps.next | exact VKeeps.refuse
    | refine Keeps.cross ?_ _ _ (State.visibleAt_of_port _ ‹¬4 ≤ _›) | apply Keeps.count | apply Keeps.setPort
    | apply Keeps.takeFlit | split | dsimp only

theorem RKeeps.replayTimeout (port : Nat) : RKeeps r0 (execReplayTimeout port s) := by
  unfold execReplayTimeout
  with_reducible repeat' first
    | assumption | exact RKeeps.fault | apply RKeeps.next | apply Keeps.advance | apply Keeps.setPort | split

theorem RKeeps.linkRetrain (port : Nat) : RKeeps r0 (execLinkRetrain port s) := by
  unfold execLinkRetrain
  with_reducible repeat' first
    | assumption | exact RKeeps.fault | apply RKeeps.next | apply Keeps.retrainPort | split

theorem RKeeps.linkDown (port : Nat) : RKeeps r0 (execLinkDown port s) := by
  unfold execLinkDown
  with_reducible repeat' first
    | assumption | exact RKeeps.fault | apply RKeeps.next | apply Keeps.advance | apply Keeps.setPort
    | apply Keeps.count | apply Keeps.logEvent | apply Keeps.traceRec | apply Keeps.reportLink | split

theorem RKeeps.censusProbe (port : Nat) (leadSerial : BitVec 64) : RKeeps r0 (execCensusProbe port leadSerial s) := by
  unfold execCensusProbe
  with_reducible repeat' first
    | assumption | exact RKeeps.fault | apply RKeeps.next | apply Keeps.setCasc | apply Keeps.sendOn
    | refine Keeps.tell ?_ rfl | refine Keeps.foldl _ _ (fun _ _ _ => ?_) ?_ | split

theorem RKeeps.censusQuietTimer (found : List MemberRecord) (replyOk recordOk : Bool) :
    RKeeps r0 (execCensusQuietTimer found replyOk recordOk s) := by
  unfold execCensusQuietTimer
  with_reducible repeat' first
    | assumption | exact RKeeps.fault | apply RKeeps.next | apply Keeps.advance | apply Keeps.promoted
    | apply Keeps.finish | apply Keeps.formed | apply Keeps.writeReply | split

theorem RKeeps.heartbeat : RKeeps r0 (execHeartbeat s) := by
  unfold execHeartbeat
  with_reducible repeat' first
    | assumption | exact RKeeps.fault | apply RKeeps.next | apply Keeps.advance | apply Keeps.tellMembers | split

theorem RKeeps.memberLost (ordinal : Nat) (recordOk : Bool) : RKeeps r0 (execMemberLost ordinal recordOk s) := by
  unfold execMemberLost
  with_reducible repeat' first
    | assumption | exact RKeeps.fault | apply RKeeps.next | apply Keeps.setCasc | apply Keeps.syncMembers
    | apply Keeps.logEvent | apply Keeps.endLostC | apply Keeps.reroute | apply Keeps.refreshCasc
    | refine Keeps.foldl _ _ (fun _ _ _ => ?_) ?_ | split

theorem RKeeps.censusRerun (found : List MemberRecord) : RKeeps r0 (execCensusRerun found s) := by
  unfold execCensusRerun
  with_reducible repeat' first
    | assumption | exact RKeeps.fault | apply RKeeps.next | apply Keeps.census | split

theorem RKeeps.leadLost : RKeeps r0 (execLeadLost s) := by
  unfold execLeadLost
  with_reducible repeat' first
    | assumption | exact RKeeps.fault | apply RKeeps.next | apply Keeps.advance | apply Keeps.logEvent
    | apply Keeps.setCasc | apply Keeps.dropCascPending | apply Keeps.dropParts | split

theorem RKeeps.configMessage (field action : Nat) (block : Bytes) (leadEpoch : BitVec 64) (census : Option CensusMsg)
    :
    RKeeps r0 (execConfigMessage field action block leadEpoch census s) := by
  unfold execConfigMessage
  with_reducible repeat' first
    | assumption | exact RKeeps.fault | apply RKeeps.next | apply Keeps.census | apply Keeps.joinCascade
    | apply Keeps.memberApply | apply Keeps.sendMessage | split | dsimp only

theorem RKeeps.mutationRecord (field index ring : Nat) (seq : BitVec 48) (opcode vecFmt : Nat) (record : Bytes) :
    RKeeps r0 (execMutationRecord field index ring seq opcode vecFmt record s) := by
  unfold execMutationRecord
  with_reducible repeat' first
    | assumption | exact RKeeps.fault | apply RKeeps.next | apply Keeps.holdRecord | apply Keeps.shareRecord
    | apply Keeps.noteReplays | apply Keeps.logMismatch | split | dsimp only

theorem RKeeps.searchPart (part : SearchPartMsg) : RKeeps r0 (execSearchPart part s) := by
  unfold execSearchPart
  with_reducible repeat' first
    | assumption | exact RKeeps.fault | apply RKeeps.next | apply Keeps.continuePart | apply Keeps.replyPart | split
    | dsimp only | fail_if_no_progress apply Keeps.update

theorem RKeeps.standbySync (item : StandbyItem) : RKeeps r0 (execStandbySync item s) := by
  unfold execStandbySync
  with_reducible repeat' first
    | assumption | exact RKeeps.fault | apply RKeeps.next | apply Keeps.setCasc | split

theorem RKeeps.slotCopy (field index slot ordinal : Nat) : RKeeps r0 (execSlotCopy field index slot ordinal s) := by
  unfold execSlotCopy
  with_reducible repeat' first
    | assumption | exact RKeeps.fault | apply RKeeps.next | apply Keeps.setIndex | apply Keeps.sendMessage | split

theorem RKeeps.scrubListCompare (field index slot list : Nat) (copies : List CopyReport) :
    RKeeps r0 (execScrubListCompare field index slot list copies s) := by
  unfold execScrubListCompare
  with_reducible repeat' first
    | assumption | exact RKeeps.fault | apply RKeeps.next | apply Keeps.charge | apply Keeps.sendMessage
    | apply Keeps.scrubCompare | split | dsimp only

theorem RKeeps.bootRom (readOkA readOkB : Bool) (busy : Nat) : RKeeps r0 (execBootRom readOkA readOkB busy s) := by
  unfold execBootRom
  have hstart : Keeps r0 (s.romStart.resetFlash busy) := h0.romStart.resetFlash busy
  generalize s.romStart.resetFlash busy = u at hstart ⊢
  split
  · exact h0
  · obtain ⟨hstakes, hflash⟩ := u.trust.tryAll_keeps readOkA readOkB (u.trust.candidates u.glob.straps.bootSel.toNat)
    dsimp only
    have htried := hstart.setTrust (u.trust.tryAll readOkA readOkB (u.trust.candidates u.glob.straps.bootSel.toNat)).1
      (fun _ _ => by rw [hstakes]) (fun h => by rwa [hflash])
    have hread := Keeps.foldl State.readSlot ((u.trust.tryAll readOkA readOkB (u.trust.candidates u.glob.straps.bootSel.toNat)).1.tried
      (u.trust.candidates u.glob.straps.bootSel.toNat)) (fun _ n h => Keeps.readSlot h n) htried
    split
    · exact hread.setTrust _ (fun _ _ => rfl) id
    · exact hread.romPassed _

theorem RKeeps.firmwareBoot : RKeeps r0 (execFirmwareBoot s) := by
  unfold execFirmwareBoot
  with_reducible repeat' first
    | assumption | exact RKeeps.fault | apply RKeeps.next | apply Keeps.extend | apply Keeps.setBoard
    | apply Keeps.enablePorts | apply Keeps.logEvent | refine Keeps.setTrust ?_ _ (fun _ _ => rfl) id
    | refine Keeps.setGlob ?_ _ id | split

theorem RKeeps.getVersion (transport : Transport) : RKeeps r0 (execGetVersion transport s) := by
  unfold execGetVersion
  with_reducible repeat' first
    | assumption | exact RKeeps.fault | apply RKeeps.next | apply Keeps.setSpdm | refine Keeps.tell ?_ rfl | split

theorem RKeeps.getCapabilities (transport : Transport) (version : Byte) :
    RKeeps r0 (execGetCapabilities transport version s) := by
  unfold execGetCapabilities
  with_reducible repeat' first
    | assumption | exact RKeeps.fault | apply RKeeps.next | refine RKeeps.answer h0 ?_ | apply Keeps.setSpdm

theorem RKeeps.negotiateAlgorithms (transport : Transport) (version : Byte) (offered : Bool) :
    RKeeps r0 (execNegotiateAlgorithms transport version offered s) := by
  unfold execNegotiateAlgorithms
  with_reducible repeat' first
    | assumption | exact RKeeps.fault | apply RKeeps.next | refine RKeeps.answer h0 ?_ | apply Keeps.setSpdm | split

theorem RKeeps.getDigests (transport : Transport) (version : Byte) :
    RKeeps r0 (execGetDigests transport version s) := by
  unfold execGetDigests
  with_reducible repeat' first
    | assumption | exact RKeeps.fault | apply RKeeps.next | refine RKeeps.answer h0 ?_

theorem RKeeps.getCertificate (transport : Transport) (version : Byte) (slot offset length : Nat) :
    RKeeps r0 (execGetCertificate transport version slot offset length s) := by
  unfold execGetCertificate
  with_reducible repeat' first
    | assumption | exact RKeeps.fault | apply RKeeps.next | refine RKeeps.answer h0 ?_ | split

theorem RKeeps.challenge (transport : Transport) (version : Byte) (slot summary : Nat) (nonce transcript : Bytes) :
    RKeeps r0 (execChallenge transport version slot summary nonce transcript s) := by
  unfold execChallenge
  with_reducible repeat' first
    | assumption | exact RKeeps.fault | apply RKeeps.next | refine RKeeps.answer h0 ?_ | apply Keeps.takeFree
    | apply Keeps.setSpdm | split

theorem RKeeps.getMeasurements (transport : Transport) (version : Byte) (index : Nat) (signed : Bool) (nonce
    transcript : Bytes) :
    RKeeps r0 (execGetMeasurements transport version index signed nonce transcript s) := by
  unfold execGetMeasurements
  with_reducible repeat' first
    | assumption | exact RKeeps.fault | apply RKeeps.next | refine RKeeps.answer h0 ?_ | apply Keeps.takeFree
    | apply Keeps.setSpdm | split

theorem RKeeps.spdmUnsupportedRequest (transport : Transport) (version : Byte) (code : Byte) :
    RKeeps r0 (execSpdmUnsupportedRequest transport version code s) := by
  unfold execSpdmUnsupportedRequest
  with_reducible repeat' first
    | assumption | exact RKeeps.fault | apply RKeeps.next | refine RKeeps.answer h0 ?_

theorem RKeeps.smbusArp (udid : BitVec 64) (address : BitVec 7) : RKeeps r0 (execSmbusArp udid address s) := by
  unfold execSmbusArp
  with_reducible repeat' first
    | assumption | exact RKeeps.fault | apply RKeeps.next | apply Keeps.setBoard | split

theorem RKeeps.i3cAddressAssign (byStatic : Bool) (staticAddr dynamicAddr : BitVec 7) :
    RKeeps r0 (execI3cAddressAssign byStatic staticAddr dynamicAddr s) := by
  unfold execI3cAddressAssign
  with_reducible repeat' first
    | assumption | exact RKeeps.fault | apply RKeeps.next | apply Keeps.setBoard | split

theorem RKeeps.smbusSclTimeout (lowMs : Nat) : RKeeps r0 (execSmbusSclTimeout lowMs s) := by
  unfold execSmbusSclTimeout
  with_reducible repeat' first
    | assumption | exact RKeeps.fault | apply RKeeps.next | apply Keeps.setBoard | split

theorem RKeeps.eventCauseClear (fn : Nat) (value : BitVec 32) : RKeeps r0 (execEventCauseClear fn value s) := by
  unfold execEventCauseClear
  with_reducible repeat' first
    | assumption | exact RKeeps.fault | apply RKeeps.next | apply Keeps.clearCause | split

theorem RKeeps.eventEnableWrite (fn : Nat) (value : BitVec 32) : RKeeps r0 (execEventEnableWrite fn value s) := by
  unfold execEventEnableWrite
  with_reducible repeat' first
    | assumption | exact RKeeps.fault | apply RKeeps.next | apply Keeps.writeEnable | split

theorem RKeeps.irqTest (fn : Nat) (value : BitVec 32) : RKeeps r0 (execIrqTest fn value s) := by
  unfold execIrqTest
  with_reducible repeat' first
    | assumption | exact RKeeps.fault | apply RKeeps.next | apply Keeps.testVector | split

theorem RKeeps.stewardRestartRequest (value : BitVec 32) : RKeeps r0 (execStewardRestartRequest value s) := by
  unfold execStewardRestartRequest
  with_reducible repeat' first
    | assumption | exact RKeeps.fault | apply RKeeps.next | apply Keeps.writeGlobalCtl

theorem RKeeps.pertGo (value : BitVec 32) (taken : Bool) : RKeeps r0 (execPertGo value taken s) := by
  unfold execPertGo
  with_reducible repeat' first
    | assumption | exact RKeeps.fault | apply RKeeps.next | apply Keeps.takePert | split | dsimp only
    | fail_if_no_progress apply Keeps.update

theorem RKeeps.tbNowRead (fn : Nat) : RKeeps r0 (execTbNowRead fn s) := by
  unfold execTbNowRead
  with_reducible repeat' first
    | assumption | exact RKeeps.fault | apply RKeeps.next | refine Keeps.tell ?_ rfl | apply Keeps.setFn | split

theorem RKeeps.tbCapture (fn : Nat) : RKeeps r0 (execTbCapture fn s) := by
  unfold execTbCapture
  with_reducible repeat' first
    | assumption | exact RKeeps.fault | apply RKeeps.next | apply Keeps.captureTime | split

theorem RKeeps.tbCtlWrite (fn : Nat) (value : BitVec 32) : RKeeps r0 (execTbCtlWrite fn value s) := by
  unfold execTbCtlWrite
  with_reducible repeat' first
    | assumption | exact RKeeps.fault | apply RKeeps.next | apply Keeps.writeTbCtl | split

theorem RKeeps.timerefLockChange (present : Bool) : RKeeps r0 (execTimerefLockChange present s) := by
  unfold execTimerefLockChange
  with_reducible repeat' first
    | assumption | exact RKeeps.fault | apply RKeeps.next | split | dsimp only
    | fail_if_no_progress apply Keeps.update

theorem RKeeps.tjSample (sample : BitVec 16) : RKeeps r0 (execTjSample sample s) := by
  unfold execTjSample
  with_reducible repeat' first
    | assumption | exact RKeeps.fault | apply RKeeps.next | apply Keeps.advance | refine Keeps.setGlob ?_ _ id
    | apply Keeps.setBoard | split

theorem RKeeps.vidStep : RKeeps r0 (execVidStep s) := by
  unfold execVidStep
  with_reducible repeat' first
    | assumption | exact RKeeps.fault | apply RKeeps.next | apply Keeps.advance | apply Keeps.setBoard | split

theorem RKeeps.thermtrip (sensor : Int) : RKeeps r0 (execThermtrip sensor s) := by
  unfold execThermtrip
  with_reducible repeat' first
    | assumption | exact RKeeps.fault | apply RKeeps.next | apply Keeps.setBoard | split

theorem RKeeps.unitError (unitType instNo : Nat) (address : BitVec 64) :
    RKeeps r0 (execUnitError unitType instNo address s) := by
  unfold execUnitError
  with_reducible repeat' first
    | assumption | exact RKeeps.fault | apply RKeeps.next | apply Keeps.logEvent | apply Keeps.count
    | apply Keeps.fatalError | apply Keeps.withdrawFailed | split

theorem RKeeps.pageDamaged (field page : Nat) : RKeeps r0 (execPageDamaged field page s) := by
  unfold execPageDamaged
  with_reducible repeat' first
    | assumption | exact RKeeps.fault | apply RKeeps.next | apply Keeps.setField | apply Keeps.logEvent
    | apply Keeps.count | split

theorem RKeeps.deviceFatal (cause : Nat) : RKeeps r0 (execDeviceFatal cause s) := by
  unfold execDeviceFatal
  with_reducible repeat' first
    | assumption | exact RKeeps.fault | apply RKeeps.next | apply Keeps.countSteward | apply Keeps.count
    | apply Keeps.fatalError | split

theorem RKeeps.stewardRestart : RKeeps r0 (execStewardRestart s) := by
  unfold execStewardRestart
  with_reducible repeat' first
    | assumption | exact RKeeps.fault | apply RKeeps.next | apply Keeps.countSteward | apply Keeps.fatalError
    | apply Keeps.startRestart | split

theorem RKeeps.stewardRestartEnd : RKeeps r0 (execStewardRestartEnd s) := by
  unfold execStewardRestartEnd
  with_reducible repeat' first
    | assumption | exact RKeeps.fault | apply RKeeps.next | apply Keeps.endStopped | apply Keeps.leaveCascade
    | apply Keeps.extend | refine Keeps.setGlob ?_ _ id | apply Keeps.setEvent | apply Keeps.takeBusy | split

theorem RKeeps.resetRelease (straps : Straps) : RKeeps r0 (execResetRelease straps s) := by
  unfold execResetRelease
  with_reducible repeat' first
    | assumption | exact RKeeps.fault | apply RKeeps.next | apply Keeps.setBoard | refine Keeps.setGlob ?_ _ id
    | split

theorem RKeeps.flrPhysicalFunction : RKeeps r0 (execFlrPhysicalFunction s) := by
  unfold execFlrPhysicalFunction
  with_reducible repeat' first
    | assumption | exact RKeeps.fault | apply RKeeps.next | apply Keeps.flrEvery | apply Keeps.afterFlr
    | apply Keeps.extend | split

theorem RKeeps.flrVirtualFunction (fn : Nat) : RKeeps r0 (execFlrVirtualFunction fn s) := by
  unfold execFlrVirtualFunction
  with_reducible repeat' first
    | assumption | exact RKeeps.fault | apply RKeeps.next | apply Keeps.flr | split

theorem RKeeps.d3hotEntry (fn : Nat) : RKeeps r0 (execD3hotEntry fn s) := by
  unfold execD3hotEntry
  with_reducible repeat' first
    | assumption | exact RKeeps.fault | apply RKeeps.next | apply Keeps.setFn | split

theorem RKeeps.lossOfLock (port : Nat) : RKeeps r0 (execLossOfLock port s) := by
  unfold execLossOfLock
  with_reducible repeat' first
    | assumption | exact RKeeps.fault | apply RKeeps.next | apply Keeps.retrainPort | split

theorem RKeeps.refresh (channel : Nat) : RKeeps r0 (execRefresh channel s) := by
  unfold execRefresh
  with_reducible repeat' first
    | assumption | exact RKeeps.fault | apply RKeeps.next | apply Keeps.setChannel | split

theorem RKeeps.trainingUpkeep (channel : Nat) : RKeeps r0 (execTrainingUpkeep channel s) := by
  unfold execTrainingUpkeep
  with_reducible repeat' first
    | assumption | exact RKeeps.fault | apply RKeeps.next | apply Keeps.setChannel | split

theorem RKeeps.heartbeatAnswer (leadTbk : BitVec 64) (roundTrip : Nat) :
    RKeeps r0 (execHeartbeatAnswer leadTbk roundTrip s) := by
  unfold execHeartbeatAnswer
  with_reducible repeat' first
    | assumption | exact RKeeps.fault | apply RKeeps.next | apply Keeps.setCasc | apply Keeps.sendMessage | split

theorem RKeeps.searchPartReply (ring : Nat) (seq : BitVec 48) (query slot status : Nat) (cands : List (BitVec 32 ×
    BitVec 64 × Option (BitVec 32))) (qualified : Nat) (flags : BitVec 11) :
    RKeeps r0 (execSearchPartReply ring seq query slot status cands qualified flags s) := by
  unfold execSearchPartReply
  with_reducible repeat' first
    | assumption | exact RKeeps.fault | apply RKeeps.next | apply Keeps.putQuery | apply Keeps.faultQueries | split

theorem RKeeps.commitMessage (field index : Nat) (taken : List (Nat × BitVec 48)) (readable : List Nat) (leadEpoch :
    BitVec 64) :
    RKeeps r0 (execCommitMessage field index taken readable leadEpoch s) := by
  unfold execCommitMessage
  dsimp only
  split
  · exact h0
  · split
    next => exact h0
    next x _ =>
      have hcopy := Keeps.commitCopy h0 (indexKey field index) x taken
      split
      · exact h0
      · split
        next t e => rw [e] at hcopy; exact hcopy
        next t e =>
          have ht : Keeps r0 t := by rw [e] at hcopy; exact hcopy
          exact ((ht.modIndex _ _).advance _).answerCommit _ _
        next t st _ e =>
          have ht : Keeps r0 t := by rw [e] at hcopy; exact hcopy
          exact ht.answerCommit _ _

theorem RKeeps.d3hotExit (fn : Nat) : RKeeps r0 (execD3hotExit fn s) := by
  unfold execD3hotExit
  with_reducible repeat' first
    | assumption | exact RKeeps.fault | apply RKeeps.next | apply Keeps.setFn | split

theorem RKeeps.tapStep (tms tdi : Bool) : RKeeps r0 (execTapStep tms tdi s) := by
  unfold execTapStep
  with_reducible repeat' first
    | assumption | exact RKeeps.fault | apply RKeeps.next | exact RKeeps.refused | apply Keeps.tapAct
    | apply Keeps.setBoard | split

/-- Every command but a cold reset, PERST_N and power-up keeps what `Keeps` names. -/
theorem RKeeps.exec (i : Instr) (hcold : ∀ a k, i ≠ .coldReset a k) (hperst : ∀ k, i ≠ .perstN k)
    (hpower : ∀ o r, i ≠ .powerUp o r) : RKeeps r0 (Machine.exec i s) := by
  cases i with
  | sqTailWrite a b => exact RKeeps.sqTailWrite h0 a b
  | cqHeadWrite a b => exact RKeeps.cqHeadWrite h0 a b
  | ringEnable a b => exact RKeeps.ringEnable h0 a b
  | ringReset a => exact RKeeps.ringReset h0 a
  | registerWrite a b c d e => exact RKeeps.registerWrite h0 a b c d e
  | packetFetch a => exact RKeeps.packetFetch h0 a
  | ringErrorRecord a b => exact RKeeps.ringErrorRecord h0 a b
  | irqCoalesceTimer a => exact RKeeps.irqCoalesceTimer h0 a
  | reservedOpcode a b => exact RKeeps.reservedOpcode h0 a b
  | nop a b => exact RKeeps.nop h0 a b
  | identify a b => exact RKeeps.identify h0 a b
  | fieldConfigure a b c => exact RKeeps.fieldConfigure h0 a b c
  | fieldQuery a b => exact RKeeps.fieldQuery h0 a b
  | indexCreate a b => exact RKeeps.indexCreate h0 a b
  | indexDrop a b => exact RKeeps.indexDrop h0 a b
  | indexLoadCentroids a b => exact RKeeps.indexLoadCentroids h0 a b
  | indexLoadCodebook a b => exact RKeeps.indexLoadCodebook h0 a b
  | indexActivate a b => exact RKeeps.indexActivate h0 a b
  | indexInfo a b => exact RKeeps.indexInfo h0 a b
  | insert a b => exact RKeeps.insert h0 a b
  | delete a b => exact RKeeps.delete h0 a b
  | upsert a b => exact RKeeps.upsert h0 a b
  | insertCoded a b => exact RKeeps.insertCoded h0 a b
  | commit a b => exact RKeeps.commit h0 a b
  | commitApply a b c d => exact RKeeps.commitApply h0 a b c d
  | snapshotHold a b => exact RKeeps.snapshotHold h0 a b
  | snapshotRelease a b => exact RKeeps.snapshotRelease h0 a b
  | compact a b => exact RKeeps.compact h0 a b
  | compactionStart a => exact RKeeps.compactionStart h0 a
  | compactionSwap a b c => exact RKeeps.compactionSwap h0 a b c
  | oldImageFree a b c => exact RKeeps.oldImageFree h0 a b c
  | versionFree a b => exact RKeeps.versionFree h0 a b
  | search a b => exact RKeeps.search h0 a b
  | searchBatch a b => exact RKeeps.searchBatch h0 a b
  | searchRadius a b => exact RKeeps.searchRadius h0 a b
  | tableAreaPlacement => exact RKeeps.tableAreaPlacement h0
  | coulterTile => exact RKeeps.coulterTile h0
  | distanceTableBuild a => exact RKeeps.distanceTableBuild h0 a
  | sowingWindowClose a b c => exact RKeeps.sowingWindowClose h0 a b c
  | listPass a => exact RKeeps.listPass h0 a
  | rerank a => exact RKeeps.rerank h0 a
  | finalMerge a => exact RKeeps.finalMerge h0 a
  | resultOutput a b => exact RKeeps.resultOutput h0 a b
  | gleanerTestStart a b c => exact RKeeps.gleanerTestStart h0 a b c
  | fetchVector a b => exact RKeeps.fetchVector h0 a b
  | filterDefine a b => exact RKeeps.filterDefine h0 a b
  | filterDrop a b => exact RKeeps.filterDrop h0 a b
  | bitmapLoad a b => exact RKeeps.bitmapLoad h0 a b
  | pagePoolGrant a b => exact RKeeps.pagePoolGrant h0 a b
  | pagePin a b => exact RKeeps.pagePin h0 a b
  | pageUnpin a b => exact RKeeps.pageUnpin h0 a b
  | programLoad a b => exact RKeeps.programLoad h0 a b
  | programRun a b => exact RKeeps.programRun h0 a b
  | programRunStart a => exact RKeeps.programRunStart h0 a
  | programSliceExpire a => exact RKeeps.programSliceExpire h0 a
  | programRunEnd a b c d => exact RKeeps.programRunEnd h0 a b c d
  | tileRead a b => exact RKeeps.tileRead h0 a b
  | tileWrite a b => exact RKeeps.tileWrite h0 a b
  | unitFallow a b => exact RKeeps.unitFallow h0 a b
  | fallowDrainEnd a b c => exact RKeeps.fallowDrainEnd h0 a b c
  | frameMove a b => exact RKeeps.frameMove h0 a b
  | unitTill a b => exact RKeeps.unitTill h0 a b
  | unitSelfTestEnd a b c d => exact RKeeps.unitSelfTestEnd h0 a b c d
  | unitStatus a b => exact RKeeps.unitStatus h0 a b
  | cascadeForm a b => exact RKeeps.cascadeForm h0 a b
  | cascadeStatus a b => exact RKeeps.cascadeStatus h0 a b
  | cascadePromote a b => exact RKeeps.cascadePromote h0 a b
  | attest a b => exact RKeeps.attest h0 a b
  | measureRead a b => exact RKeeps.measureRead h0 a b
  | stakeRead a b => exact RKeeps.stakeRead h0 a b
  | stakeWrite a b c d => exact RKeeps.stakeWrite h0 a b c d
  | countersRead a b => exact RKeeps.countersRead h0 a b
  | logRead a b => exact RKeeps.logRead h0 a b
  | traceCtl a b => exact RKeeps.traceCtl h0 a b
  | testPerturb a b => exact RKeeps.testPerturb h0 a b
  | selfTest a b c => exact RKeeps.selfTest h0 a b c
  | firmwareStage a b c => exact RKeeps.firmwareStage h0 a b c
  | firmwareActivate a b => exact RKeeps.firmwareActivate h0 a b
  | plannerEpoch => exact RKeeps.plannerEpoch h0
  | channelGrant a b c => exact RKeeps.channelGrant h0 a b c
  | gddrRetrain a => exact RKeeps.gddrRetrain h0 a
  | gddrRetrainEnd a b => exact RKeeps.gddrRetrainEnd h0 a b
  | gddrTemperatureRead a => exact RKeeps.gddrTemperatureRead h0 a
  | patrolScrub a b c d => exact RKeeps.patrolScrub h0 a b c d
  | gddrTraining a => exact RKeeps.gddrTraining h0 a
  | streamTileRequest a => exact RKeeps.streamTileRequest h0 a
  | streamTileDeliver a b => exact RKeeps.streamTileDeliver h0 a b
  | streamHalt a => exact RKeeps.streamHalt h0 a
  | pageIn a b c => exact RKeeps.pageIn h0 a b c
  | streamResume a b => exact RKeeps.streamResume h0 a b
  | modeAAdd a b c => exact RKeeps.modeAAdd h0 a b c
  | modeDPartial a b c d e => exact RKeeps.modeDPartial h0 a b c d e
  | invalidationAck a b c d => exact RKeeps.invalidationAck h0 a b c d
  | messageDeliver a b => exact RKeeps.messageDeliver h0 a b
  | halt a b => exact RKeeps.halt h0 a b
  | coreNop a b => exact RKeeps.coreNop h0 a b
  | br a b => exact RKeeps.br h0 a b
  | brc a b => exact RKeeps.brc h0 a b
  | call a b => exact RKeeps.call h0 a b
  | ret a b => exact RKeeps.ret h0 a b
  | repI a b => exact RKeeps.repI h0 a b
  | repD a b => exact RKeeps.repD h0 a b
  | breakLevel a b => exact RKeeps.breakLevel h0 a b
  | time a b => exact RKeeps.time h0 a b
  | selfId a b => exact RKeeps.selfId h0 a b
  | flagsRd a b => exact RKeeps.flagsRd h0 a b
  | flagsClr a b => exact RKeeps.flagsClr h0 a b
  | add a b => exact (RKeeps.scalar h0 : RKeeps r0 (execAdd a b s))
  | sub a b => exact (RKeeps.scalar h0 : RKeeps r0 (execSub a b s))
  | and a b => exact (RKeeps.scalar h0 : RKeeps r0 (execAnd a b s))
  | or a b => exact (RKeeps.scalar h0 : RKeeps r0 (execOr a b s))
  | xor a b => exact (RKeeps.scalar h0 : RKeeps r0 (execXor a b s))
  | shl a b => exact (RKeeps.scalar h0 : RKeeps r0 (execShl a b s))
  | shr a b => exact (RKeeps.scalar h0 : RKeeps r0 (execShr a b s))
  | sar a b => exact (RKeeps.scalar h0 : RKeeps r0 (execSar a b s))
  | mul a b => exact (RKeeps.scalar h0 : RKeeps r0 (execMul a b s))
  | cmp a b => exact RKeeps.cmp h0 a b
  | mov a b => exact (RKeeps.scalar h0 : RKeeps r0 (execMov a b s))
  | movi a b => exact RKeeps.movi h0 a b
  | addi a b => exact RKeeps.addi h0 a b
  | vadd a b => exact (RKeeps.vector h0 : RKeeps r0 (execVadd a b s))
  | vsub a b => exact (RKeeps.vector h0 : RKeeps r0 (execVsub a b s))
  | vmul a b => exact (RKeeps.vector h0 : RKeeps r0 (execVmul a b s))
  | vmax a b => exact (RKeeps.vector h0 : RKeeps r0 (execVmax a b s))
  | vmin a b => exact (RKeeps.vector h0 : RKeeps r0 (execVmin a b s))
  | vsel a b => exact RKeeps.vsel h0 a b
  | vred a b => exact RKeeps.vred h0 a b
  | vcvt a b => exact RKeeps.vcvt h0 a b
  | vsbac a b => exact RKeeps.vsbac h0 a b
  | mac16 a b => exact RKeeps.mac16 h0 a b
  | mac8 a b => exact RKeeps.mac8 h0 a b
  | aclr a b => exact RKeeps.aclr h0 a b
  | sta32 a b => exact (RKeeps.storeFix h0 : RKeeps r0 (execSta32 a b s))
  | sta16 a b => exact (RKeeps.storeFix h0 : RKeeps r0 (execSta16 a b s))
  | ld a b => exact RKeeps.ld h0 a b
  | st a b => exact RKeeps.st h0 a b
  | ldv a b => exact RKeeps.ldv h0 a b
  | stv a b => exact RKeeps.stv h0 a b
  | ld2 a b => exact RKeeps.ld2 h0 a b
  | ldst a b => exact RKeeps.ldst h0 a b
  | ldc a b => exact RKeeps.ldc h0 a b
  | tld a b => exact RKeeps.tld h0 a b
  | tst a b => exact RKeeps.tst h0 a b
  | tacc a b => exact RKeeps.tacc h0 a b
  | tfold a b => exact RKeeps.tfold h0 a b
  | tsts a b => exact RKeeps.tsts h0 a b
  | tclr a b => exact RKeeps.tclr h0 a b
  | lkp8 a b => exact (RKeeps.lookupOp h0 : RKeeps r0 (execLkp8 a b s))
  | lkp4 a b => exact (RKeeps.lookupOp h0 : RKeeps r0 (execLkp4 a b s))
  | dstep a b => exact RKeeps.dstep h0 a b
  | sqstep a b => exact RKeeps.sqstep h0 a b
  | div a b => exact RKeeps.div h0 a b
  | rsq a b => exact RKeeps.rsq h0 a b
  | send a b => exact RKeeps.send h0 a b
  | recv a b => exact RKeeps.recv h0 a b
  | probe a b => exact RKeeps.probe h0 a b
  | sstart a b => exact RKeeps.sstart h0 a b
  | swait a b => exact RKeeps.swait h0 a b
  | spoll a b => exact RKeeps.spoll h0 a b
  | apEnd a => exact RKeeps.apEnd h0 a
  | apSetb a => exact RKeeps.apSetb h0 a
  | apAdds a => exact RKeeps.apAdds h0 a
  | apEmit a => exact RKeeps.apEmit h0 a
  | apDo a => exact RKeeps.apDo h0 a
  | apLoop a => exact RKeeps.apLoop h0 a
  | beacon a => exact RKeeps.beacon h0 a
  | linkTrainingAdvance a b => exact RKeeps.linkTrainingAdvance h0 a b
  | trainingTimeout a => exact RKeeps.trainingTimeout h0 a
  | flitTransmit a => exact RKeeps.flitTransmit h0 a
  | flitReceive a b => exact RKeeps.flitReceive h0 a b
  | replayTimeout a => exact RKeeps.replayTimeout h0 a
  | linkRetrain a => exact RKeeps.linkRetrain h0 a
  | linkDown a => exact RKeeps.linkDown h0 a
  | censusProbe a b => exact RKeeps.censusProbe h0 a b
  | censusQuietTimer a b c => exact RKeeps.censusQuietTimer h0 a b c
  | heartbeat => exact RKeeps.heartbeat h0
  | memberLost a b => exact RKeeps.memberLost h0 a b
  | censusRerun a => exact RKeeps.censusRerun h0 a
  | leadLost => exact RKeeps.leadLost h0
  | configMessage a b c d e => exact RKeeps.configMessage h0 a b c d e
  | mutationRecord a b c d e f g => exact RKeeps.mutationRecord h0 a b c d e f g
  | searchPart a => exact RKeeps.searchPart h0 a
  | standbySync a => exact RKeeps.standbySync h0 a
  | slotCopy a b c d => exact RKeeps.slotCopy h0 a b c d
  | scrubListCompare a b c d e => exact RKeeps.scrubListCompare h0 a b c d e
  | bootRom a b c => exact RKeeps.bootRom h0 a b c
  | firmwareBoot => exact RKeeps.firmwareBoot h0
  | getVersion a => exact RKeeps.getVersion h0 a
  | getCapabilities a b => exact RKeeps.getCapabilities h0 a b
  | negotiateAlgorithms a b c => exact RKeeps.negotiateAlgorithms h0 a b c
  | getDigests a b => exact RKeeps.getDigests h0 a b
  | getCertificate a b c d e => exact RKeeps.getCertificate h0 a b c d e
  | challenge a b c d e f => exact RKeeps.challenge h0 a b c d e f
  | getMeasurements a b c d e f => exact RKeeps.getMeasurements h0 a b c d e f
  | spdmUnsupportedRequest a b c => exact RKeeps.spdmUnsupportedRequest h0 a b c
  | smbusArp a b => exact RKeeps.smbusArp h0 a b
  | i3cAddressAssign a b c => exact RKeeps.i3cAddressAssign h0 a b c
  | smbusSclTimeout a => exact RKeeps.smbusSclTimeout h0 a
  | eventCauseClear a b => exact RKeeps.eventCauseClear h0 a b
  | eventEnableWrite a b => exact RKeeps.eventEnableWrite h0 a b
  | irqTest a b => exact RKeeps.irqTest h0 a b
  | stewardRestartRequest a => exact RKeeps.stewardRestartRequest h0 a
  | pertGo a b => exact RKeeps.pertGo h0 a b
  | tbNowRead a => exact RKeeps.tbNowRead h0 a
  | tbCapture a => exact RKeeps.tbCapture h0 a
  | tbCtlWrite a b => exact RKeeps.tbCtlWrite h0 a b
  | timerefLockChange a => exact RKeeps.timerefLockChange h0 a
  | tjSample a => exact RKeeps.tjSample h0 a
  | vidStep => exact RKeeps.vidStep h0
  | thermtrip a => exact RKeeps.thermtrip h0 a
  | unitError a b c => exact RKeeps.unitError h0 a b c
  | pageDamaged a b => exact RKeeps.pageDamaged h0 a b
  | deviceFatal a => exact RKeeps.deviceFatal h0 a
  | stewardRestart => exact RKeeps.stewardRestart h0
  | stewardRestartEnd => exact RKeeps.stewardRestartEnd h0
  | coldReset a k => exact absurd rfl (hcold a k)
  | perstN k => exact absurd rfl (hperst k)
  | resetRelease a => exact RKeeps.resetRelease h0 a
  | flrPhysicalFunction => exact RKeeps.flrPhysicalFunction h0
  | flrVirtualFunction a => exact RKeeps.flrVirtualFunction h0 a
  | d3hotEntry a => exact RKeeps.d3hotEntry h0 a
  | lossOfLock a => exact RKeeps.lossOfLock h0 a
  | refresh a => exact RKeeps.refresh h0 a
  | trainingUpkeep a => exact RKeeps.trainingUpkeep h0 a
  | powerUp o r => exact absurd rfl (hpower o r)
  | heartbeatAnswer a b => exact RKeeps.heartbeatAnswer h0 a b
  | searchPartReply a b c d e f g h => exact RKeeps.searchPartReply h0 a b c d e f g h
  | commitMessage a b c d e => exact RKeeps.commitMessage h0 a b c d e
  | d3hotExit a => exact RKeeps.d3hotExit h0 a
  | tapStep a b => exact RKeeps.tapStep h0 a b
end

end Sys2Proof.Machine

/-! ### What every step holds, a reset among them (O58, O59, O60) -/

namespace Sys2Proof.Machine

/-- What every command keeps, a reset too: the queue, every written copy of a stake slot, the canonical form of the flash and
empty crossing queues. -/
structure Survives (r t : State) : Prop where
  pending : t.pending = r.pending
  stakes : ∀ n, FMap.getD r.trust.stakes n (zeros 32) ≠ zeros 32 →
    FMap.getD t.trust.stakes n (zeros 32) = FMap.getD r.trust.stakes n (zeros 32)
  flash : Mem.wf 0xFF r.trust.flash → Mem.wf 0xFF t.trust.flash
  crossed : r.crossingsEmpty → t.crossingsEmpty

theorem Keeps.survives {r t : State} (h : Keeps r t) : Survives r t := ⟨h.pending, h.stakes, h.flash, h.crossed⟩

/-- R727, R757: the reset state takes over the queue, the stake store and the flash, and nothing is on its way. -/
theorem Keeps.heldInReset {r t : State} (h : Keeps r t) (b : Board) : Survives r (t.heldInReset b) :=
  ⟨h.pending, h.stakes, h.flash, fun _ _ => rfl⟩

theorem exec_coldReset_survives {s t : State} {aonLost : Bool} {cut : CutShort}
    (h : exec (.coldReset aonLost cut) s = .next t) : Survives s t := by
  cases h
  exact ((Keeps.refl s).cutShort cut).heldInReset _

theorem exec_perstN_survives {s t : State} {cut : CutShort} (h : exec (.perstN cut) s = .next t) : Survives s t := by
  cases h
  exact ((Keeps.refl s).cutShort cut).heldInReset _

theorem exec_powerUp_survives {s t : State} {order : List Rail} {refclk : Bool}
    (h : exec (.powerUp order refclk) s = .next t) : Survives s t := by
  change execPowerUp order refclk s = .next t at h
  unfold execPowerUp at h
  split at h <;> cases h
  · exact (Keeps.refl s).survives
  · exact ⟨rfl, fun _ _ => rfl, id, fun _ _ => rfl⟩

theorem exec_keeps {i : Instr} {s t : State} (hcold : ∀ a k, i ≠ .coldReset a k) (hperst : ∀ k, i ≠ .perstN k)
    (hpower : ∀ o r, i ≠ .powerUp o r) (h : exec i s = .next t) : Keeps s t := by
  have hkeeps := RKeeps.exec (Keeps.refl s) i hcold hperst hpower
  rwa [h] at hkeeps

theorem exec_survives {i : Instr} {s t : State} (h : exec i s = .next t) : Survives s t := by
  by_cases hcold : ∃ a k, i = .coldReset a k
  · obtain ⟨a, k, rfl⟩ := hcold
    exact exec_coldReset_survives h
  by_cases hperst : ∃ k, i = .perstN k
  · obtain ⟨k, rfl⟩ := hperst
    exact exec_perstN_survives h
  by_cases hpower : ∃ o r, i = .powerUp o r
  · obtain ⟨o, r, rfl⟩ := hpower
    exact exec_powerUp_survives h
  exact (exec_keeps (fun a k e => hcold ⟨a, k, e⟩) (fun k e => hperst ⟨k, e⟩) (fun o r e => hpower ⟨o, r, e⟩) h).survives

theorem step_of_empty {s : State} (h : s.pending = []) : step s = .next s.idle := by simp only [step, h]

theorem step_of_cons {s : State} {c : Instr} {rest : List Instr} (h : s.pending = c :: rest) :
    step s = exec c { s with pending := rest } := by simp only [step, h]

/-- The state in which the command at the front of the queue executes. -/
def State.withoutFront (s : State) : State := { s with pending := s.pending.tail }

theorem step_survives {s t : State} (h : step s = .next t) : Survives s.withoutFront t := by
  rcases hq : s.pending with _ | ⟨c, rest⟩
  · rw [step_of_empty hq] at h
    cases h
    have hidle := (Keeps.refl s).idle.survives
    exact ⟨hidle.pending.trans (hq.trans (congrArg List.tail hq).symm), hidle.stakes, hidle.flash, hidle.crossed⟩
  · rw [step_of_cons hq] at h
    have hsame : s.withoutFront = { s with pending := rest } := by simp only [State.withoutFront, hq, List.tail_cons]
    exact hsame.symm ▸ exec_survives h

/-- Settles O58: every step survives what it executes. -/
theorem stepTakesFront : Obligations.StepTakesFront :=
  fun _ _ h => ⟨(step_survives h).pending, (step_survives h).crossed⟩

/-- Settles O59: a copy of a stake slot is an entry of the stake store. -/
theorem stakesWrittenOnce : Obligations.StakesWrittenOnce :=
  fun _ _ h => ⟨fun _ _ _ hwritten => (step_survives h).stakes _ hwritten, (step_survives h).flash⟩

/-- Settles O60: a step that is no reset keeps. -/
theorem timeAndFatalLatch : Obligations.TimeAndFatalLatch := by
  intro s t hfront h
  rcases hq : s.pending with _ | ⟨c, rest⟩
  · rw [step_of_empty hq] at h
    cases h
    exact ⟨(Keeps.refl s).idle.time, (Keeps.refl s).idle.fatal⟩
  · rw [step_of_cons hq] at h
    obtain ⟨hcold, hperst, hpower⟩ := hfront c (by rw [hq]; exact rfl)
    have hkeeps := exec_keeps hcold hperst hpower h
    exact ⟨hkeeps.time, hkeeps.fatal⟩

/-- Settles O1: the two cases of the queue. -/
theorem stepRunsFront : Obligations.StepRunsFront := by
  refine ⟨fun c rest s hq => step_of_cons hq, fun s hq => ?_⟩
  rw [step_of_empty hq, State.idle]
  split <;> rfl

end Sys2Proof.Machine

/-! ### What reset leaves (O2) -/

namespace Sys2Proof.Machine

/-- The device in reset knows field 0 alone. -/
theorem fieldExists_reset (f : Nat) : State.reset.fieldExists f = decide (f = 0) := by
  by_cases hf : f = 0
  · rw [hf]
    rfl
  · have hnone : State.reset.field? f = none := FMap.get?_cons 0 f _ [] |>.trans (if_neg (Ne.symm hf))
    simp only [State.fieldExists, hnone, hf, decide_false]

/-- Measurement registers of zeros: those that there are, and what a read beyond them gives. -/
theorem getD_replicate_zeros (n : Nat) : (List.replicate 8 (zeros 48)).getD n (zeros 48) = zeros 48 := by
  rw [List.getD_eq_getElem?_getD, List.getElem?_replicate]
  split <;> rfl

theorem alwaysEnabled_of_virtual {fn : Nat} (h : 0 < fn) : alwaysEnabled fn = 1#32 := if_neg (Nat.ne_of_gt h)

/-- Settles O2: the reset state, read field by field. -/
theorem resetLeaves : Obligations.ResetLeaves :=
  ⟨fun _ => rfl, rfl, rfl, fieldExists_reset, rfl, fun _ _ => rfl, rfl, rfl, rfl, fun _ => alwaysEnabled_of_virtual,
    fun _ => rfl, getD_replicate_zeros, rfl, rfl, rfl, rfl, rfl, rfl, fun _ => rfl, fun _ => rfl, rfl, rfl, Mem.wf_nil _,
    fun _ _ _ => rfl⟩

end Sys2Proof.Machine

/-! ### Doorbells (R92, R114, R697) -/

namespace Sys2Proof.Machine

theorem Ring.n_pos (x : Ring) : 0 < x.n := Nat.two_pow_pos _

theorem ahead_lt (a b : Nat) {n : Nat} (hn : 0 < n) : ahead a b n < n := Nat.mod_lt _ hn

/-- Slot k steps ahead of slot a lies k steps ahead. -/
theorem ahead_add_mod (a : Nat) {k n : Nat} (hk : k < n) : ahead a ((a + k) % n) n = k := by
  have hn : 0 < n := Nat.zero_lt_of_lt hk
  have ha : a % n < n := Nat.mod_lt a hn
  have hsum : (a + k) % n = (a % n + k) % n := by rw [Nat.mod_add_mod]
  rw [ahead, hsum]
  rcases Nat.lt_or_ge (a % n + k) n with hlt | hge
  · rw [Nat.mod_eq_of_lt hlt, show a % n + k + n - a % n = k + n by omega, Nat.add_mod_right, Nat.mod_eq_of_lt hk]
  · rw [Nat.mod_eq_sub_mod hge, Nat.mod_eq_of_lt (show a % n + k - n < n by omega),
      show a % n + k - n + n - a % n = k by omega, Nat.mod_eq_of_lt hk]

theorem add_ahead_mod (a : Nat) {v n : Nat} (hv : v < n) : (a + ahead a v n) % n = v := by
  have ha : a % n < n := Nat.mod_lt a (Nat.zero_lt_of_lt hv)
  rw [ahead, Nat.add_mod_mod, ← Nat.mod_add_mod, show a % n + (v + n - a % n) = v + n by omega, Nat.add_mod_right,
    Nat.mod_eq_of_lt hv]

/-- A slot is at most m steps ahead of slot a exactly when it is reached from there in at most m steps. -/
theorem ahead_le_iff (a v : Nat) {m n : Nat} (hm : m < n) :
    (v < n ∧ ahead a v n ≤ m) ↔ ∃ k, k ≤ m ∧ v = (a + k) % n := by
  constructor
  · exact fun ⟨hv, hle⟩ => ⟨ahead a v n, hle, (add_ahead_mod a hv).symm⟩
  · rintro ⟨k, hk, rfl⟩
    exact ⟨Nat.mod_lt _ (Nat.zero_lt_of_lt hm), (ahead_add_mod a (hk.trans_lt hm)).trans_le hk⟩

theorem exec_sqTailWrite {ring : Nat} (v : BitVec 32) (s : State) (hring : ring ≤ adminRing) :
    exec (.sqTailWrite ring v) s = .next (s.writeTail ring (v.truncate 16)) :=
  if_neg (Nat.not_lt.mpr hring)

theorem exec_cqHeadWrite {ring : Nat} (v : BitVec 32) (s : State) (hring : ring ≤ adminRing) :
    exec (.cqHeadWrite ring v) s = .next (s.writeHead ring (v.truncate 16)) :=
  if_neg (Nat.not_lt.mpr hring)

section
variable {s : State} {r : Nat}

theorem State.writeTail_of_deaf (v : BitVec 16) (h : s.ringServed r = false ∨ (s.ring r).listening = false) :
    s.writeTail r v = s := by
  rcases h with h | h <;> simp [State.writeTail, h]

theorem State.writeHead_of_deaf (v : BitVec 16) (h : s.ringServed r = false ∨ (s.ring r).listening = false) :
    s.writeHead r v = s := by
  rcases h with h | h <;> simp [State.writeHead, h]

theorem State.writeRingCtl_of_unserved (v : BitVec 32) (h : s.ringServed r = false) : s.writeRingCtl r v = s := by
  simp [State.writeRingCtl, h]

variable (hserved : s.ringServed r = true) (hon : (s.ring r).listening = true)
include hserved hon

/-- R114: what SQ_TAIL takes, and what it does with anything else. -/
theorem State.writeTail_of_listening (v : BitVec 16) :
    s.writeTail r v =
      if v.toNat < (s.ring r).n ∧ ahead (s.ring r).tail.toNat v.toNat (s.ring r).n ≤
          ahead (s.ring r).tail.toNat ((s.ring r).sqHead.toNat + (s.ring r).n - 1) (s.ring r).n then
        s.setRing r { s.ring r with tail := v }
      else s.ringError r 1 := by
  simp [State.writeTail, hserved, hon]

/-- R92, R114: what CQ_HEAD takes, and what it does with anything else. -/
theorem State.writeHead_of_listening (v : BitVec 16) :
    s.writeHead r v =
      if v.toNat < (s.ring r).n ∧ ahead (s.ring r).head.toNat v.toNat (s.ring r).n ≤
          ahead (s.ring r).head.toNat (s.ring r).cqTail.toNat (s.ring r).n then
        s.setRing r { s.ring r with
          head := v, unconsumed := (s.ring r).unconsumed - ahead (s.ring r).head.toNat v.toNat (s.ring r).n }
      else s.ringError r 1 := by
  simp [State.writeHead, hserved, hon]
end

theorem truncate_eq_ofNat_mod (v : BitVec 32) : v.truncate 16 = BitVec.ofNat 16 (v.toNat % 65536) := by
  apply BitVec.eq_of_toNat_eq
  simp

theorem toNat_truncate_16 (v : BitVec 32) : (v.truncate 16).toNat = v.toNat % 65536 := by simp

/-- Settles O3: a value is in range exactly when the distance that the doorbell checks is. -/
theorem doorbellWrites : Obligations.DoorbellWrites := by
  refine ⟨fun s ring v hring hserved => ?tail, fun s ring v hring hserved => ?head, fun s ring v => ⟨fun hring hoff => ?unserved, fun h => ?noRing⟩⟩
  case tail =>
    intro x new inRange
    have hiff := ahead_le_iff x.tail.toNat new (ahead_lt x.tail.toNat (x.sqHead.toNat + x.n - 1) x.n_pos)
    rw [exec_sqTailWrite v s hring]
    refine ⟨fun hon hin => ?_, fun hon hout => ?_, fun hoff => by rw [State.writeTail_of_deaf _ (.inr hoff)]⟩
    all_goals rw [State.writeTail_of_listening hserved hon, toNat_truncate_16, truncate_eq_ofNat_mod]
    · rw [if_pos (hiff.mpr hin)]
    · rw [if_neg (mt hiff.mp hout)]
  case head =>
    intro x new
    have hlt := ahead_lt x.head.toNat x.cqTail.toNat x.n_pos
    have hiff := ahead_le_iff x.head.toNat new hlt
    rw [exec_cqHeadWrite v s hring]
    refine ⟨fun hon k hk hnew => ?_, fun hon hout => ?_, fun hoff => by rw [State.writeHead_of_deaf _ (.inr hoff)]⟩
    all_goals rw [State.writeHead_of_listening hserved hon, toNat_truncate_16, truncate_eq_ofNat_mod]
    · have hdist : ahead x.head.toNat new x.n = k := by rw [hnew, ahead_add_mod _ (hk.trans_lt hlt)]
      rw [if_pos (hiff.mpr ⟨k, hk, hnew⟩), hdist]
    · rw [if_neg (fun h => let ⟨k, hk, hnew⟩ := hiff.mp h; hout k hk hnew)]
  case unserved =>
    rw [exec_sqTailWrite v s hring, exec_cqHeadWrite v s hring, exec_ringEnable v s hring, exec_ringReset s hring,
      State.writeTail_of_deaf _ (.inl hoff), State.writeHead_of_deaf _ (.inl hoff), State.writeRingCtl_of_unserved _ hoff,
      State.writeRingCtl_of_unserved _ hoff]
    exact ⟨rfl, rfl, rfl, rfl⟩
  case noRing => exact ⟨if_pos h, if_pos h, if_pos h, if_pos h⟩

end Sys2Proof.Machine

/-! ### The event registers, IRQ_TEST and the time base (R694, R709 to R713, R725, R726, R729) -/

namespace Sys2Proof.Machine

/-! #### What a host read returns -/

theorem leBytes_add (m n v : Nat) : leBytes (m + n) v = leBytes m v ++ leBytes n (v / 256 ^ m) := by
  induction m generalizing v with
  | zero => simp [leBytes]
  | succ m ih => rw [Nat.succ_add_eq_add_succ m n, Nat.add_succ, leBytes, leBytes, List.cons_append, ih, Nat.div_div_eq_div_mul, pow_succ']

theorem leBytes_mod (n v : Nat) : leBytes n (v % 256 ^ n) = leBytes n v := by
  induction n generalizing v with
  | zero => rfl
  | succ n ih =>
    have hlow : BitVec.ofNat 8 (v % 256 ^ (n + 1)) = BitVec.ofNat 8 v := by
      apply BitVec.eq_of_toNat_eq
      simp only [BitVec.toNat_ofNat, pow_succ']
      exact Nat.mod_mul_right_mod v 256 _
    rw [leBytes, leBytes, hlow, pow_succ', Nat.mod_mul_right_div_self, ih]

theorem leBytes_toNat_ofNat (n : Nat) : leBytes 8 (BitVec.ofNat 64 n).toNat = leBytes 8 n := by
  rw [BitVec.toNat_ofNat, ← leBytes_mod 8 n]
  rfl

section Reads
variable (s : State) (fn bar off : Nat)

/-- R692: a 4-byte read at an aligned offset gives the word there. -/
theorem State.hostRead_of_word (h : off % 4 = 0) : s.hostRead fn bar off 4 = leBytes 4 (s.readWord fn bar off).toNat := by
  have hoff : off / 4 * 4 = off := Nat.div_mul_cancel (Nat.dvd_of_mod_eq_zero h)
  simp only [State.hostRead, hoff, h, Nat.reduceEqDiff, decide_false, Bool.false_and, Bool.false_eq_true, if_false, List.drop_zero]
  exact List.take_of_length_le (length_leBytes 4 _).le

/-- R693, R694: an 8-byte read of a 64-bit register gives all of it from one instant. -/
theorem State.hostRead_of_halves {x : BitVec 64} (h : off % 8 = 0) (hlow : s.readWord fn bar off = halfAt x off)
    (hhigh : s.readWord fn bar (off + 4) = halfAt x (off + 4)) : s.hostRead fn bar off 8 = leBytes 8 x.toNat := by
  have hhalf0 : halfAt x off = x.truncate 32 := if_pos (by omega)
  have hhalf4 : halfAt x (off + 4) = x.extractLsb' 32 32 := if_neg (by omega)
  have hlowNat : (x.truncate 32).toNat = x.toNat % 256 ^ 4 := by simp
  have hhighNat : (x.extractLsb' 32 32).toNat = x.toNat / 256 ^ 4 % 256 ^ 4 := by simp [Nat.shiftRight_eq_div_pow]
  simp only [State.hostRead, h, decide_true, beq_self_eq_true, Bool.and_self, if_true, hlow, hhigh, hhalf0, hhalf4]
  rw [hlowNat, hhighNat, leBytes_mod, leBytes_mod, leBytes_add 4 4]

theorem State.readWord_of_window {s : State} (h : s.windowServed = true) : s.readWord fn 0 off = s.readBar0 fn off := by
  simp only [State.windowServed, Bool.and_eq_true] at h
  simp [State.readWord, h.1.1, h.1.2]

/-- The time base's registers, once the firmware runs. -/
theorem State.readWord_of_time {s : State} {off : Nat} (h : s.windowServed = true) (hlow : 0x8000 ≤ off) (hhigh : off < 0x9000) :
    s.readWord fn 0 off = s.readTime fn off := by
  have hboot : s.trust.bootCode = 0 := by
    simp only [State.windowServed, Bool.and_eq_true, beq_iff_eq] at h
    exact h.2
  rw [State.readWord_of_window fn off h]
  simp only [State.readBar0, hboot, ne_eq, not_true_eq_false, decide_false, Bool.false_and, Bool.false_eq_true, if_false]
  iterate 9 rw [if_neg (by omega)]
  rw [if_pos hhigh]

end Reads

/-! #### Event registers -/

theorem State.windowServed_of_eventsServed {s : State} (h : s.eventsServed = true) : s.windowServed = true := by
  simp only [State.eventsServed, Bool.and_eq_true] at h
  exact h.1

theorem exec_eventCauseClear_of_served {s : State} {fn : Nat} (v : BitVec 32) (hfn : fn < 16) (h : s.eventsServed = true) :
    exec (.eventCauseClear fn v) s = .next (s.setFn fn { s.fn fn with cause := (s.fn fn).cause &&& ~~~v }) :=
  (if_neg (Nat.not_le.mpr hfn)).trans (congrArg _ (if_pos h))

/-- EVENT_ENABLE as a write of v leaves it. -/
def enableWritten (fn : Nat) (v : BitVec 32) : BitVec 32 := v &&& enableMask fn ||| alwaysEnabled fn

theorem exec_eventEnableWrite_of_served {s : State} {fn : Nat} (v : BitVec 32) (hfn : fn < 16) (h : s.eventsServed = true) :
    exec (.eventEnableWrite fn v) s = .next (
      if enableWritten fn v &&& ~~~(s.fn fn).enable &&& (s.fn fn).cause ≠ 0 then
        (s.setFn fn { s.fn fn with enable := enableWritten fn v }).raiseVector fn (eventVector fn)
      else s.setFn fn { s.fn fn with enable := enableWritten fn v }) :=
  (if_neg (Nat.not_le.mpr hfn)).trans (congrArg _ (if_pos h))

/-- Two words and the complement of a third have no bit in common exactly when no bit of the first two is missing in the third. -/
theorem and_not_and_eq_zero_iff (a b c : BitVec 32) :
    a &&& ~~~b &&& c = 0 ↔ ∀ n, n < 32 → a.getLsbD n = true → b.getLsbD n = false → c.getLsbD n = false := by
  constructor
  · intro h n hn ha hb
    have hbit : (a &&& ~~~b &&& c).getLsbD n = false := by rw [h]; simp
    simpa only [BitVec.getLsbD_and, BitVec.getLsbD_not, ha, hb, hn, decide_true, Bool.not_false, Bool.and_self, Bool.true_and] using hbit
  · intro h
    refine BitVec.eq_of_getLsbD_eq (fun n hn => ?_)
    have hbits := h n hn
    cases ha : a.getLsbD n <;> cases hb : b.getLsbD n <;> simp_all

theorem and_not_and_ne_zero_iff (a b c : BitVec 32) :
    a &&& ~~~b &&& c ≠ 0 ↔ ∃ n, n < 32 ∧ a.getLsbD n = true ∧ b.getLsbD n = false ∧ c.getLsbD n = true := by
  rw [Ne, and_not_and_eq_zero_iff]
  push Not
  simp only [ne_eq, Bool.not_eq_false]

/-! #### IRQ_TEST -/

theorem exec_irqTest_of_served {s : State} {fn : Nat} (v : BitVec 32) (hfn : fn < 16) (h : s.eventsServed = true) :
    exec (.irqTest fn v) s = .next (if v.toNat % 16 ≤ 8 then s.raiseVector fn (v.toNat % 16) else s) := by
  refine (if_neg (Nat.not_le.mpr hfn)).trans (congrArg _ ?_)
  simp only [State.testVector, h, Bool.true_and, decide_eq_true_eq]

@[simp] theorem State.signalled_fn (s : State) (r : Option Nat) (fn : Nat) : (s.signalled r).fn fn = s.fn fn := by
  cases r <;> rfl

@[simp] theorem State.signalled_out (s : State) (r : Option Nat) : (s.signalled r).out = s.out := by
  cases r <;> rfl

theorem State.raiseVector_of_open {s : State} {fn v : Nat} (h : ((s.fn fn).vector v).getLsbD 96 = false) :
    s.raiseVector fn v = { s.signalled (vectorRing fn v) with out := .msix fn v :: s.out } := by
  rw [State.raiseVector, State.signalled_fn, h]
  exact congrArg (fun o => { s.signalled (vectorRing fn v) with out := .msix fn v :: o }) (s.signalled_out _)

theorem State.raiseVector_of_masked {s : State} {fn v : Nat} (h : ((s.fn fn).vector v).getLsbD 96 = true) :
    s.raiseVector fn v = (s.signalled (vectorRing fn v)).setFn fn { s.fn fn with pba := (s.fn fn).pba ||| 1#64 <<< v } := by
  rw [State.raiseVector, State.signalled_fn, h]
  rfl

/-- R79: the vector of a ring serves that ring. -/
theorem vectorRing_ringVector {r : Nat} (h : r ≤ adminRing) : vectorRing (ringFn r) (ringVector r) = some r := by
  unfold vectorRing ringFn ringVector adminRing at *
  by_cases hadmin : r = 128
  · subst hadmin
    rfl
  · by_cases hlow : r < 8
    · have hfn : r / 8 = 0 := Nat.div_eq_of_lt hlow
      have hv : ¬ (1 + r = 0) := by omega
      have hle : 1 + r ≤ 8 := by omega
      simp only [hadmin, hlow, hfn, hv, hle, if_true, if_false, Nat.add_sub_cancel_left]
    · have hfn : ¬ r / 8 = 0 := by omega
      have hv : r % 8 < 8 := Nat.mod_lt _ (by decide)
      have hr : r / 8 * 8 + r % 8 = r := Nat.div_add_mod' r 8
      simp only [hadmin, hlow, hfn, hv, hr, if_true, if_false]

/-! #### The time base -/

theorem extractLsb'_ofNat_high (n : Nat) : (BitVec.ofNat 64 n).extractLsb' 32 32 = BitVec.ofNat 32 (n / 2 ^ 32) := by
  apply BitVec.eq_of_toNat_eq
  simp only [BitVec.extractLsb'_toNat, BitVec.toNat_ofNat, Nat.shiftRight_eq_div_pow]
  omega

theorem truncate_ofNat_64 (n : Nat) : (BitVec.ofNat 64 n).truncate 32 = BitVec.ofNat 32 n := by
  apply BitVec.eq_of_toNat_eq
  simp

theorem exec_tbNowRead_of_served {s : State} {fn : Nat} (hfn : fn < 16) (h : s.windowServed = true) :
    exec (.tbNowRead fn) s = .next { s.setFn fn { s.fn fn with tbHi := BitVec.ofNat 32 (s.tbk / 2 ^ 32) } with
      out := .readData fn (BitVec.ofNat 32 s.tbk) :: s.out } := by
  have hup : s.up = true := by
    simp only [State.windowServed, Bool.and_eq_true] at h
    exact h.1.1
  have hword : s.readWord fn 0 0x8000 = BitVec.ofNat 32 s.tbk :=
    (State.readWord_of_time fn h (by decide) (by decide)).trans (truncate_ofNat_64 s.tbk)
  change execTbNowRead fn s = _
  simp only [execTbNowRead, fnCount, if_neg (Nat.not_le.mpr hfn), hup, h, hword, extractLsb'_ofNat_high, Bool.not_true,
    Bool.false_eq_true, if_false]
  rfl

theorem exec_tbCapture_of_served {s : State} {fn : Nat} (hfn : fn < 16) (h : s.windowServed = true) :
    exec (.tbCapture fn) s = .next (s.setFn fn { s.fn fn with tbCapture := BitVec.ofNat 64 s.tbk }) :=
  (if_neg (Nat.not_le.mpr hfn)).trans (congrArg _ (if_pos h))

theorem exec_tbCtlWrite_of_physical {s : State} (v : BitVec 32) (h : s.windowServed = true) :
    exec (.tbCtlWrite 0 v) s =
      .next { s with time := { s.time with src := v.getLsbD 0, locked := s.time.locked && v.getLsbD 0 } } := by
  refine congrArg Host.Outcome.next (if_pos ?_)
  simp [h]

theorem exec_tbCtlWrite_of_virtual (s : State) {fn : Nat} (v : BitVec 32) (hpos : 0 < fn) (hfn : fn < 16) :
    exec (.tbCtlWrite fn v) s = .next s := by
  refine (if_neg (Nat.not_le.mpr hfn)).trans (congrArg _ (if_neg ?_))
  simp [Nat.ne_of_gt hpos]

theorem exec_timerefLockChange_of_up {s : State} (present : Bool) (h : s.up = true) :
    exec (.timerefLockChange present) s =
      .next { s with time := { s.time with refPresent := present, locked := present && s.time.src } } := by
  change execTimerefLockChange present s = _
  simp only [execTimerefLockChange, h, Bool.not_true, Bool.false_eq_true, if_false]

/-- Settles O6: each register by the equation of its write or read. -/
theorem eventAndTimeRegisters : Obligations.EventAndTimeRegisters := by
  refine ⟨fun s fn v hfn h => ?enable, fun s fn v hfn h => ?test, fun s fn hfn h => ?read,
    fun s v h => exec_tbCtlWrite_of_physical v h, fun s fn v hpos hfn => exec_tbCtlWrite_of_virtual s v hpos hfn,
    fun s present h => exec_timerefLockChange_of_up present h⟩
  case enable =>
    intro x mask always new
    rw [exec_eventEnableWrite_of_served v hfn h]
    refine ⟨exec_eventCauseClear_of_served v hfn h, fun hquiet => ?_, fun hraised => ?_⟩
    · exact congrArg _ (if_neg (not_not.mpr ((and_not_and_eq_zero_iff new x.enable x.cause).mpr hquiet)))
    · exact congrArg _ (if_pos ((and_not_and_ne_zero_iff new x.enable x.cause).mpr hraised))
  case test =>
    intro n
    rw [exec_irqTest_of_served v hfn h]
    refine ⟨fun hn hopen => ?_, fun hn hmasked => ?_, fun r => vectorRing_ringVector, fun r => rfl, rfl, fun hn => ?_⟩
    · rw [if_pos hn, State.raiseVector_of_open hopen]
    · rw [if_pos hn, State.raiseVector_of_masked hmasked]
    · rw [if_neg (Nat.not_le.mpr hn)]
  case read =>
    refine ⟨exec_tbNowRead_of_served hfn h, ?_, ?_, exec_tbCapture_of_served hfn h⟩
    · rw [State.hostRead_of_halves s fn 0 0x8000 (x := BitVec.ofNat 64 s.tbk) rfl
        (State.readWord_of_time fn h (by decide) (by decide)) (State.readWord_of_time fn h (by decide) (by decide)),
        leBytes_toNat_ofNat]
    · rw [State.hostRead_of_word s fn 0 0x8008 rfl, State.readWord_of_time fn h (by decide) (by decide)]
      rfl

end Sys2Proof.Machine

/-! ### What an event that is logged or signalled leaves (R80, R668, R710) -/

namespace Sys2Proof.Machine

@[simp] theorem hostWrites_cons (o : Out) (l : List Out) : hostWrites (o :: l) = hostWrites [o] ++ hostWrites l := by
  rw [hostWrites, hostWrites, hostWrites, ← List.filter_append, List.singleton_append]

/-- From s to t only outputs, vectors, the log and the device's counters change: no host memory is written, and no ring changes but
the admin ring, whose records an event may have signalled. -/
structure Tells (s t : State) : Prop where
  frame : t = { s with out := t.out, rings := t.rings, fns := t.fns, log := t.log, counters := t.counters }
  rings : s.ringsKept t
  writes : hostWrites t.out = hostWrites s.out

theorem State.ringsKept.trans {r s t : State} (h : r.ringsKept s) (g : s.ringsKept t) : r.ringsKept t := by
  refine ⟨fun q hq => (g.1 q hq).trans (h.1 q hq), ?_⟩
  rcases h.2 with hs | hs <;> rcases g.2 with ht | ht <;> rw [ht, hs]
  · exact .inl rfl
  · exact .inr rfl
  · exact .inr rfl
  · exact .inr rfl

theorem State.ringsKept_of_rings_eq {s t : State} (h : t.rings = s.rings) : s.ringsKept t :=
  ⟨fun _ _ => by simp only [State.ring, h], .inl (by simp only [State.ring, h])⟩

theorem Tells.refl (s : State) : Tells s s := ⟨rfl, State.ringsKept_of_rings_eq rfl, rfl⟩

theorem Tells.trans {r s t : State} (h : Tells r s) (g : Tells s t) : Tells r t :=
  ⟨by rw [g.frame, h.frame], State.ringsKept.trans h.rings g.rings, g.writes.trans h.writes⟩

section Tells
variable {s t : State} (h : Tells s t)
include h

theorem Tells.pending : t.pending = s.pending := by rw [h.frame]
theorem Tells.fresh : t.fresh = s.fresh := by rw [h.frame]
theorem Tells.cmds : t.cmds = s.cmds := by rw [h.frame]
theorem Tells.fields : t.fields = s.fields := by rw [h.frame]
theorem Tells.indexes : t.indexes = s.indexes := by rw [h.frame]
theorem Tells.queries : t.queries = s.queries := by rw [h.frame]
theorem Tells.runs : t.runs = s.runs := by rw [h.frame]
theorem Tells.trust : t.trust = s.trust := by rw [h.frame]
theorem Tells.tbk : t.tbk = s.tbk := by rw [h.frame]
theorem Tells.glob : t.glob = s.glob := by rw [h.frame]
theorem Tells.board : t.board = s.board := by rw [h.frame]
theorem Tells.units : t.units = s.units := by rw [h.frame]
theorem Tells.ports : t.ports = s.ports := by rw [h.frame]
theorem Tells.casc : t.casc = s.casc := by rw [h.frame]
theorem Tells.pert : t.pert = s.pert := by rw [h.frame]
theorem Tells.trace : t.trace = s.trace := by rw [h.frame]
theorem Tells.streams : t.streams = s.streams := by rw [h.frame]
theorem Tells.channels : t.channels = s.channels := by rw [h.frame]
theorem Tells.badChunks : t.badChunks = s.badChunks := by rw [h.frame]
theorem Tells.evaporators : t.evaporators = s.evaporators := by rw [h.frame]
theorem Tells.compactQueue : t.compactQueue = s.compactQueue := by rw [h.frame]
end Tells

section Events
variable (s : State)

/-- R80: the vector of a function's events is that of no ring but the admin ring. -/
theorem tells_signalled_eventVector (fn : Nat) : Tells s (s.signalled (vectorRing fn (eventVector fn))) := by
  by_cases hfn : fn = 0
  · subst hfn
    refine ⟨rfl, ⟨fun r hr => ?_, .inr (s.ring_setRing_self _ _)⟩, rfl⟩
    exact (State.ring_setRing s _ r _).trans (if_neg (Ne.symm hr))
  · have hnone : vectorRing fn (eventVector fn) = none := by simp [vectorRing, eventVector, hfn]
    rw [hnone]
    exact .refl s

theorem tells_setFn (fn : Nat) (x : FnRegs) : Tells s (s.setFn fn x) := ⟨rfl, State.ringsKept_of_rings_eq rfl, rfl⟩

theorem tells_emit {o : Out} (ho : hostWrites [o] = []) : Tells s (s.emit o) :=
  ⟨rfl, State.ringsKept_of_rings_eq rfl, (hostWrites_cons o s.out).trans (by rw [ho, List.nil_append])⟩

theorem tells_count (g p n : Nat) : Tells s (s.count g p n) := ⟨rfl, State.ringsKept_of_rings_eq rfl, rfl⟩

theorem tells_raiseVector_eventVector (fn : Nat) : Tells s (s.raiseVector fn (eventVector fn)) := by
  have hsignalled := tells_signalled_eventVector s fn
  unfold State.raiseVector
  dsimp only
  split
  · exact hsignalled.trans (tells_setFn _ _ _)
  · exact hsignalled.trans (tells_emit _ rfl)

theorem tells_setEvent (fn bit : Nat) : Tells s (s.setEvent fn bit) := by
  unfold State.setEvent
  dsimp only
  split
  · exact (tells_setFn s _ _).trans (tells_raiseVector_eventVector _ _)
  · exact tells_setFn s _ _

@[simp] theorem State.setEvent_log (fn bit : Nat) : (s.setEvent fn bit).log = s.log := by
  have hsig : ∀ (t : State) r, (t.signalled r).log = t.log := fun t r => by cases r <;> rfl
  simp only [State.setEvent, State.raiseVector, apply_ite State.log, State.setFn_log, State.emit_log, hsig, ite_self]

theorem tells_log (l : EventLog) : Tells s { s with log := l } := ⟨rfl, State.ringsKept_of_rings_eq rfl, rfl⟩

theorem tells_appendLog (code field sev unit : Nat) (detail : Bytes) : Tells s (s.appendLog code field sev unit detail) := by
  unfold State.appendLog
  split
  · split
    · exact tells_log s _
    · split
      · exact (tells_log s _).trans (tells_count _ _ _ _)
      · exact (((tells_log s _).trans (tells_count _ _ _ _)).trans (tells_count _ _ _ _)).trans (tells_setEvent _ _ _)
  · exact (tells_log s _).trans (tells_count _ _ _ _)

/-- R667, R669: the newest entry of the log is of the event, its own or the one that it is coalesced with. -/
theorem State.appendLog_newest (code field sev unit : Nat) (detail : Bytes) :
    ∃ e rest, (s.appendLog code field sev unit detail).log.entries = e :: rest ∧ e.code = code ∧ e.field = field := by
  unfold State.appendLog
  split
  · split
    next h => exact ⟨_, _, rfl, h.1, h.2.1⟩
    next =>
      split
      · exact ⟨_, _, rfl, rfl, rfl⟩
      · rw [State.setEvent_log]
        exact ⟨_, _, rfl, rfl, rfl⟩
  · exact ⟨_, _, rfl, rfl, rfl⟩

theorem tells_logEvent (code field sev unit : Nat) (detail : Bytes) : Tells s (s.logEvent code field sev unit detail) := by
  have happend := tells_appendLog s code field sev unit detail
  unfold State.logEvent
  dsimp only
  split
  · exact happend
  · split
    · exact (happend.trans (tells_setEvent _ _ _)).trans (tells_setEvent _ _ _)
    · exact happend.trans (tells_setEvent _ _ _)

theorem State.logEvent_log (code field sev unit : Nat) (detail : Bytes) :
    (s.logEvent code field sev unit detail).log = (s.appendLog code field sev unit detail).log := by
  unfold State.logEvent
  dsimp only
  split
  · rfl
  · simp only [apply_ite State.log, State.setEvent_log, ite_self]

theorem State.logEvent_newest (code field sev unit : Nat) (detail : Bytes) :
    ∃ e rest, (s.logEvent code field sev unit detail).log.entries = e :: rest ∧ e.code = code ∧ e.field = field := by
  rw [State.logEvent_log]
  exact s.appendLog_newest code field sev unit detail

end Events

end Sys2Proof.Machine

/-! ### Registers written through the window, and the restart request (R692 to R695, R706) -/

namespace Sys2Proof.Machine

/-! #### Writes -/

section Writes
variable {s : State} {fn : Nat} (bar off : Nat) (v : BitVec 64)

theorem exec_registerWrite (size : Nat) (hfn : fn < 16) :
    exec (.registerWrite fn bar off size v) s = .next (s.hostAccess fn bar off size v) :=
  if_neg (Nat.not_le.mpr hfn)

/-- R693: an aligned write of 4 bytes. -/
theorem State.hostAccess_word (hup : s.up = true) (hoff : off % 4 = 0) :
    s.hostAccess fn bar off 4 v = s.writeReg32 fn bar off (v.truncate 32) := by
  simp [State.hostAccess, hup, hoff]

/-- R693: an aligned write of 8 bytes writes the two words, the low one first. -/
theorem State.hostAccess_double (hup : s.up = true) (hoff : off % 8 = 0) :
    s.hostAccess fn bar off 8 v =
      (s.writeReg32 fn bar off (v.truncate 32)).writeReg32 fn bar (off + 4) (v.extractLsb' 32 32) := by
  simp [State.hostAccess, hup, hoff]

theorem State.hostAccess_of_ignored {size : Nat} (h4 : ¬ (size = 4 ∧ off % 4 = 0)) (h8 : ¬ (size = 8 ∧ off % 8 = 0)) :
    s.hostAccess fn bar off size v = s := by
  simp [State.hostAccess, h4, h8]

end Writes

/-- R693: the two halves of a 64-bit register, written one after the other, make the value. -/
theorem setHalf_high_setHalf_low (x v : BitVec 64) :
    setHalf (setHalf x false (v.truncate 32)) true (v.extractLsb' 32 32) = v := by
  simp only [setHalf, Bool.false_eq_true, if_false, if_true]
  apply BitVec.eq_of_getLsbD_eq
  intro i hi
  simp only [BitVec.getLsbD_append, BitVec.truncate_eq_setWidth, BitVec.getLsbD_setWidth, BitVec.getLsbD_extractLsb']
  by_cases hlow : i < 32
  · simp [hlow]
  · simp [hlow, show i - 32 < 32 by omega, show 32 + (i - 32) = i by omega]

section DoorbellPage
variable {s : State} {fn page : Nat} (hpage : page < 8)
include hpage

/-- R69: where a doorbell page's registers lie in BAR2. -/
theorem State.writeReg32_of_page {off : Nat} (hoff : off < 0x1000) (v : BitVec 32) :
    s.writeReg32 fn 2 (page * 0x1000 + off) v = s.writeRingReg (fn * 8 + page) off v := by
  have hdiv : (page * 0x1000 + off) / 0x1000 = page := by omega
  have hmod : (page * 0x1000 + off) % 0x1000 = off := by omega
  simp only [State.writeReg32, hdiv, hmod, OfNat.ofNat_ne_zero, if_false, if_true]
  rw [if_pos (by omega)]

theorem State.readWord_of_page (hfn : fn < 16) (hserved : s.ringServed (fn * 8 + page) = true) {off : Nat} (hoff : off < 0x1000) :
    s.readWord fn 2 (page * 0x1000 + off) = s.readRing (fn * 8 + page) off := by
  have hdiv : (page * 0x1000 + off) / 0x1000 = page := by omega
  have hmod : (page * 0x1000 + off) % 0x1000 = off := by omega
  have hfield : (fn * 8 + page) / 8 = fn := by omega
  have hadmin : fn * 8 + page ≠ adminRing := by unfold adminRing; omega
  have hlow : ¬ 0x8000 ≤ page * 0x1000 + off := by omega
  simp only [State.ringServed, hadmin, hfield, if_false, Bool.and_eq_true, beq_iff_eq] at hserved
  obtain ⟨⟨⟨hup, hpcie⟩, hboot⟩, hexists⟩ := hserved
  simp [State.readWord, State.readBar2, hup, hpcie, hboot, hexists, hlow, hdiv, hmod]

end DoorbellPage

theorem State.up_of_ringServed {s : State} {r : Nat} (h : s.ringServed r = true) : s.up = true := by
  simp only [State.ringServed, Bool.and_eq_true] at h
  exact h.1.1.1

theorem State.up_of_windowServed {s : State} (h : s.windowServed = true) : s.up = true := by
  simp only [State.windowServed, Bool.and_eq_true] at h
  exact h.1.1

/-- R73: whether the bases can be written does not depend on them. -/
theorem State.basesWritable_setRing_bases (s : State) (r : Nat) (a b : BitVec 64) :
    (s.setRing r { s.ring r with sqBase := a, cqBase := b }).basesWritable r = s.basesWritable r := by
  simp only [State.basesWritable, State.ringWritable, State.ringIdle, State.ring_setRing_self, State.cmdsOf_setRing]
  rfl

section Bases
variable {s : State} {fn page : Nat} (v : BitVec 64)

theorem State.writeRingReg_sqLow {r : Nat} (w : BitVec 32) : s.writeRingReg r 0x10 w =
    if s.basesWritable r then s.setRing r { s.ring r with sqBase := setHalf (s.ring r).sqBase false w } else s := rfl
theorem State.writeRingReg_sqHigh {r : Nat} (w : BitVec 32) : s.writeRingReg r 0x14 w =
    if s.basesWritable r then s.setRing r { s.ring r with sqBase := setHalf (s.ring r).sqBase true w } else s := rfl
theorem State.writeRingReg_cqLow {r : Nat} (w : BitVec 32) : s.writeRingReg r 0x18 w =
    if s.basesWritable r then s.setRing r { s.ring r with cqBase := setHalf (s.ring r).cqBase false w } else s := rfl
theorem State.writeRingReg_cqHigh {r : Nat} (w : BitVec 32) : s.writeRingReg r 0x1C w =
    if s.basesWritable r then s.setRing r { s.ring r with cqBase := setHalf (s.ring r).cqBase true w } else s := rfl
theorem State.writeRingReg_coalesce {r : Nat} (w : BitVec 32) : s.writeRingReg r 0x30 w =
    if s.ringServed r then s.setRing r { s.ring r with irqTime := (w >>> 8).truncate 16, irqCount := w.truncate 8 } else s := rfl

variable (hfn : fn < 16) (hpage : page < 8) (hserved : s.ringServed (fn * 8 + page) = true)
include hfn hpage hserved

theorem exec_registerWrite_sqBase : exec (.registerWrite fn 2 (page * 0x1000 + 0x10) 8 v) s = .next (
    if s.basesWritable (fn * 8 + page) then s.setRing (fn * 8 + page) { s.ring (fn * 8 + page) with sqBase := v } else s) := by
  rw [exec_registerWrite _ _ _ _ hfn, State.hostAccess_double _ _ _ (State.up_of_ringServed hserved) (by omega),
    State.writeReg32_of_page hpage (by decide), Nat.add_assoc, State.writeReg32_of_page hpage (by decide),
    State.writeRingReg_sqHigh, State.writeRingReg_sqLow]
  by_cases hw : s.basesWritable (fn * 8 + page) = true
  · have hstill := (s.basesWritable_setRing_bases (fn * 8 + page) (setHalf (s.ring (fn * 8 + page)).sqBase false (v.truncate 32))
      (s.ring (fn * 8 + page)).cqBase).trans hw
    simp only [hw, if_true]
    rw [if_pos hstill, State.ring_setRing_self, State.setRing_setRing, setHalf_high_setHalf_low]
  · simp only [hw, Bool.false_eq_true, if_false]

theorem exec_registerWrite_cqBase : exec (.registerWrite fn 2 (page * 0x1000 + 0x18) 8 v) s = .next (
    if s.basesWritable (fn * 8 + page) then s.setRing (fn * 8 + page) { s.ring (fn * 8 + page) with cqBase := v } else s) := by
  rw [exec_registerWrite _ _ _ _ hfn, State.hostAccess_double _ _ _ (State.up_of_ringServed hserved) (by omega),
    State.writeReg32_of_page hpage (by decide), Nat.add_assoc, State.writeReg32_of_page hpage (by decide),
    State.writeRingReg_cqHigh, State.writeRingReg_cqLow]
  by_cases hw : s.basesWritable (fn * 8 + page) = true
  · have hstill := (s.basesWritable_setRing_bases (fn * 8 + page) (s.ring (fn * 8 + page)).sqBase
      (setHalf (s.ring (fn * 8 + page)).cqBase false (v.truncate 32))).trans hw
    simp only [hw, if_true]
    rw [if_pos hstill, State.ring_setRing_self, State.setRing_setRing, setHalf_high_setHalf_low]
  · simp only [hw, Bool.false_eq_true, if_false]

theorem exec_registerWrite_coalesce : exec (.registerWrite fn 2 (page * 0x1000 + 0x30) 4 v) s =
    .next (s.setRing (fn * 8 + page) { s.ring (fn * 8 + page) with
      irqTime := BitVec.ofNat 16 (v.toNat / 256), irqCount := BitVec.ofNat 8 v.toNat }) := by
  have htime : ((v.truncate 32) >>> 8).truncate 16 = BitVec.ofNat 16 (v.toNat / 256) := by
    apply BitVec.eq_of_toNat_eq
    simp only [BitVec.truncate_eq_setWidth, BitVec.toNat_setWidth, BitVec.toNat_ushiftRight, BitVec.toNat_ofNat,
      Nat.shiftRight_eq_div_pow]
    omega
  have hcount : (v.truncate 32).truncate 8 = BitVec.ofNat 8 v.toNat := by
    apply BitVec.eq_of_toNat_eq
    simp
  rw [exec_registerWrite _ _ _ _ hfn, State.hostAccess_word _ _ _ (State.up_of_ringServed hserved) (by omega),
    State.writeReg32_of_page hpage (by decide), State.writeRingReg_coalesce, if_pos hserved, htime, hcount]

/-- R694: an 8-byte read of a register of a doorbell page. -/
theorem State.hostRead_of_page {off : Nat} {x : BitVec 64} (hoff : off + 4 < 0x1000) (h8 : off % 8 = 0)
    (hlow : s.readRing (fn * 8 + page) off = halfAt x off) (hhigh : s.readRing (fn * 8 + page) (off + 4) = halfAt x (off + 4)) :
    s.hostRead fn 2 (page * 0x1000 + off) 8 = leBytes 8 x.toNat := by
  have hmod : ∀ k, (page * 0x1000 + k) % 8 = k % 8 := by omega
  refine State.hostRead_of_halves s fn 2 _ (by omega) ?_ ?_
  · rw [State.readWord_of_page hpage hfn hserved (by omega), hlow, halfAt, halfAt, hmod]
  · rw [Nat.add_assoc, State.readWord_of_page hpage hfn hserved hoff, hhigh, halfAt, halfAt, hmod]

theorem State.hostRead_of_page_word {off : Nat} (hoff : off < 0x1000) (h4 : off % 4 = 0) :
    s.hostRead fn 2 (page * 0x1000 + off) 4 = leBytes 4 (s.readRing (fn * 8 + page) off).toNat := by
  rw [State.hostRead_of_word s fn 2 _ (by omega), State.readWord_of_page hpage hfn hserved hoff]

end Bases

theorem toNat_zeroExtend_32 (x : BitVec 16) : (x.zeroExtend 32).toNat = x.toNat := by
  have hx := x.isLt
  rw [BitVec.zeroExtend_eq_setWidth, BitVec.toNat_setWidth, Nat.mod_eq_of_lt (by omega)]

/-! #### The restart request -/

/-- R706, R762: a warm restart that the host asked for. -/
theorem State.startRestart_tells (s : State) (byError : Bool) :
    Tells ((s.setGlob { s.glob with
        restarting := true, restarts := s.glob.restarts + 1
        lastRestart := if byError then some s.tbk else s.glob.lastRestart }).setCmds
      (s.cmds.map (fun c => if c.work = .fetched then c else { c with stopped := some 0x0103#16 }))) (s.startRestart byError) := by
  unfold State.startRestart
  exact (tells_count _ 0 6 1).trans (tells_logEvent _ _ _ _ _ _)

theorem exec_stewardRestartRequest_of_running {s : State} {v : BitVec 32} (hup : s.up = true) (hboot : s.trust.bootCode = 0) :
    exec (.stewardRestartRequest v) s = .next (
      if s.glob.fatal = false ∧ s.glob.restarting = false ∧ v.getLsbD 0 = true then s.startRestart false else s) := by
  refine congrArg Host.Outcome.next ?_
  simp only [State.writeGlobalCtl, State.mayRestart, hup, hboot, Bool.and_eq_true, Bool.not_eq_true', beq_self_eq_true, true_and,
    and_assoc]

/-- Settles O7: the window's writes and reads by register; a restart by what it tells. -/
theorem windowWrites : Obligations.WindowWrites := by
  refine ⟨⟨fun s v h => ?scratch, fun s fn page v hfn hpage hserved => ?page, fun s fn bar off size v hfn h4 h8 => ?ignored⟩,
    fun s v hup hboot => ⟨fun hfatal hidle hbit => ?restart, fun hno => ?noRestart⟩⟩
  case scratch =>
    have hboot : s.trust.bootCode = 0 := by
      simp only [State.windowServed, Bool.and_eq_true, beq_iff_eq] at h
      exact h.2
    refine ⟨?_, ?_⟩
    · rw [exec_registerWrite _ _ _ _ (by decide), State.hostAccess_word _ _ _ (State.up_of_windowServed h) (by decide)]
      simp [State.writeReg32, State.writeBar0, h]
    · rw [State.hostRead_of_word s 0 0 _ rfl, State.readWord_of_window 0 _ h]
      simp [State.readBar0, State.readGlobal, hboot]
  case page =>
    intro r
    refine ⟨fun hw => ⟨?_, ?_⟩, fun hw => ⟨?_, ?_⟩, ?_, ?_, ?_, ?_, exec_registerWrite_coalesce v hfn hpage hserved⟩
    · rw [exec_registerWrite_sqBase v hfn hpage hserved, if_pos hw]
    · rw [exec_registerWrite_cqBase v hfn hpage hserved, if_pos hw]
    · rw [exec_registerWrite_sqBase v hfn hpage hserved, if_neg (by simpa using hw)]
    · rw [exec_registerWrite_cqBase v hfn hpage hserved, if_neg (by simpa using hw)]
    · exact State.hostRead_of_page hfn hpage hserved (by decide) (by decide) rfl rfl
    · exact State.hostRead_of_page hfn hpage hserved (by decide) (by decide) rfl rfl
    · rw [← Nat.add_zero (page * 0x1000), State.hostRead_of_page_word hfn hpage hserved (by decide) rfl]
      exact congrArg (leBytes 4) (toNat_zeroExtend_32 (s.ring r).tail)
    · rw [State.hostRead_of_page_word hfn hpage hserved (by decide) rfl]
      exact congrArg (leBytes 4) (toNat_zeroExtend_32 (s.ring r).sqHead)
  case ignored => rw [exec_registerWrite _ _ _ _ hfn, State.hostAccess_of_ignored _ _ _ h4 h8]
  case restart =>
    rw [exec_stewardRestartRequest_of_running hup hboot, if_pos ⟨hfatal, hidle, hbit⟩]
    have htells := s.startRestart_tells false
    obtain ⟨e, rest, hlog, hcode, -⟩ := State.logEvent_newest _ evSTEWARD_RESTART 0xFF _ noUnit _
    exact ⟨_, rfl, congrArg Glob.restarting htells.glob, congrArg Glob.restarts htells.glob, by rw [htells.glob]; rfl,
      htells.cmds, htells.rings, htells.fields, htells.indexes, htells.queries, htells.runs, htells.trust, htells.tbk,
      e, rest, hlog, hcode⟩
  case noRestart =>
    rw [exec_stewardRestartRequest_of_running hup hboot, if_neg]
    rintro ⟨hfatal, hidle, hbit⟩
    rcases hno with h | h | h <;> simp_all

end Sys2Proof.Machine

/-! ### Cold reset, PERST_N, reset release, power-up and the power states (O8) -/

namespace Sys2Proof.Machine

/-- R764, R766: what a reset cuts short leaves all but the stake store, the flash and the count of free values. -/
theorem State.cutShort_eq (s : State) (cut : CutShort) :
    s.cutShort cut = { s with trust := (s.cutShort cut).trust, fresh := (s.cutShort cut).fresh } := by
  unfold State.cutShort
  split
  · rfl
  all_goals split
  · rfl
  · split <;> rfl
  · rfl
  · split <;> rfl
  · split <;> rfl
  · split <;> rfl
  · rfl

/-- R727, Table 14.11: the device held in a reset that cut a command short. -/
theorem State.heldInReset_cutShort (s : State) (cut : CutShort) (b : Board) :
    (s.cutShort cut).heldInReset b = { State.reset with
      board := b, trust := Trust.reset (s.cutShort cut).trust.stakes (s.cutShort cut).trust.flash
      pending := s.pending, out := s.out, fresh := (s.cutShort cut).fresh } := by
  have hpending : (s.cutShort cut).pending = s.pending := by rw [s.cutShort_eq]
  have hout : (s.cutShort cut).out = s.out := by rw [s.cutShort_eq]
  rw [State.heldInReset, hpending, hout]
  rfl

theorem exec_resetRelease_of_held {s : State} (p : Straps) (hpowered : s.board.powered = true)
    (hheld : (s.board.sysResetN && s.board.perstN) = false) :
    exec (.resetRelease p) s = .next { s with
      board := { s.board with sysResetN := true, perstN := true, qspiOn := !s.board.clocksStopped }
      glob := { s.glob with straps := p } } :=
  if_pos (by rw [hpowered, hheld]; rfl)

theorem exec_powerUp_of_order {s : State} {order : List Rail} (refclk : Bool) (hoff : s.board.powered = false)
    (horder : powerOrderOk order = true) :
    exec (.powerUp order refclk) s = .next { State.reset with
      board := { Board.inReset with
        powered := true, sysResetN := false, perstN := false, hxlRail := order.contains .vddHxl
        pcie := order.contains .vddPcie && refclk }
      trust := Trust.reset s.trust.stakes s.trust.flash, pending := s.pending, out := s.out, fresh := s.fresh + 1 } := by
  change execPowerUp order refclk s = _
  simp only [execPowerUp, hoff, horder, Bool.true_or, Bool.false_eq_true, if_false]
  rfl

theorem exec_d3hotEntry_of_up {s : State} {fn : Nat} (hfn : fn < 16) (hup : s.up = true) :
    exec (.d3hotEntry fn) s = .next (s.setFn fn { s.fn fn with d3hot := true }) :=
  (if_neg (Nat.not_le.mpr hfn)).trans (if_neg (by simp [hup]))

theorem exec_d3hotExit_of_up {s : State} {fn : Nat} (hfn : fn < 16) (hup : s.up = true) :
    exec (.d3hotExit fn) s = .next (s.setFn fn { s.fn fn with d3hot := false }) :=
  (if_neg (Nat.not_le.mpr hfn)).trans (if_neg (by simp [hup]))

/-- R736: no ring of a function in D3hot is fetched from. -/
theorem State.ringReady_of_d3hot {s : State} {r : Nat} (h : (s.fn (ringFn r)).d3hot = true) : s.ringReady r = false := by
  simp [State.ringReady, h]

/-- Settles O8: a reset takes over what it cuts short, whose stake store and flash keep what `Keeps` names. -/
theorem deviceResets : Obligations.DeviceResets := by
  refine ⟨fun s cut => ?resets, fun s p hpowered hheld => exec_resetRelease_of_held p hpowered hheld,
    fun s order refclk hoff horder => exec_powerUp_of_order refclk hoff horder,
    fun s fn hfn hup => ⟨exec_d3hotEntry_of_up hfn hup, exec_d3hotExit_of_up hfn hup⟩, fun s r h => State.ringReady_of_d3hot h⟩
  intro u
  have hkeeps : Keeps s u := (Keeps.refl s).cutShort cut
  refine ⟨fun aonLost => ?_, ?_, fun hcut => by simp only [u, hcut]; rfl, fun _ _ _ h => hkeeps.stakes _ h, hkeeps.flash⟩
  · exact ⟨_, congrArg Host.Outcome.next (s.heldInReset_cutShort cut _), rfl, rfl, rfl, rfl, rfl, rfl, rfl, rfl⟩
  · exact ⟨_, congrArg Host.Outcome.next (s.heldInReset_cutShort cut _), rfl, rfl, rfl, rfl, rfl, rfl, rfl, rfl⟩

end Sys2Proof.Machine

/-! ### Issue of an instruction, and the scalar instructions (O41) -/

namespace Sys2Proof.Machine

section
variable {s : State} {cls op core thread : Nat} {x : Slot3}

theorem State.issue_eq_of_issues (h : s.issues cls op core thread x) (body : Slot3 → Issue) :
    s.issue cls op core thread body = match body x with
      | .next t y => .next (t.setThread core thread y.advance)
      | .placed t y => .next (t.setThread core thread y)
      | .trap cause => .next (s.trapThread core thread cause)
      | .wait t => .next t
      | .reserved => .fault .reservedCode := by
  obtain ⟨hcore, hthread, hissuing, hword⟩ := h
  have hrange : (decide (128 ≤ core) || decide (8 ≤ thread)) = false := by simp; omega
  simp only [State.issue, hrange, hissuing, hword, Bool.not_true, Bool.false_eq_true, if_false] <;> rfl

theorem State.issue_of_next (h : s.issues cls op core thread x) {body : Slot3 → Issue} {t : State} {y : Thread}
    (hb : body x = .next t y) : s.issue cls op core thread body = .next (t.setThread core thread y.advance) := by
  rw [State.issue_eq_of_issues h, hb]

theorem State.issue_of_placed (h : s.issues cls op core thread x) {body : Slot3 → Issue} {t : State} {y : Thread}
    (hb : body x = .placed t y) : s.issue cls op core thread body = .next (t.setThread core thread y) := by
  rw [State.issue_eq_of_issues h, hb]

theorem State.issue_of_trap (h : s.issues cls op core thread x) {body : Slot3 → Issue} {cause : Nat}
    (hb : body x = .trap cause) : s.issue cls op core thread body = .next (s.trapThread core thread cause) := by
  rw [State.issue_eq_of_issues h, hb]

theorem State.issue_of_wait (h : s.issues cls op core thread x) {body : Slot3 → Issue} {t : State}
    (hb : body x = .wait t) : s.issue cls op core thread body = .next t := by
  rw [State.issue_eq_of_issues h, hb]

theorem State.issue_of_reserved (h : s.issues cls op core thread x) {body : Slot3 → Issue}
    (hb : body x = .reserved) : s.issue cls op core thread body = .fault .reservedCode := by
  rw [State.issue_eq_of_issues h, hb]

theorem State.issue_placed_of_issues (h : s.issues cls op core thread x) (f : Slot3 → Thread) :
    s.issue cls op core thread (fun x => .placed s (f x)) = .next (s.setThread core thread (f x)) :=
  State.issue_of_placed h rfl

theorem State.issueReg_of_issues (h : s.issues cls op core thread x) (body : Slot3 → Thread) :
    s.issueReg cls op core thread body = .next (s.setThread core thread (body x).advance) :=
  State.issue_of_next h rfl

/-- What the machine issues: the thread of its core that runs, the word at its program counter, and the run. -/
theorem State.issuing_eq (h : s.issuing core thread = some x) :
    x.core = core ∧ x.thread = thread ∧ x.c = s.core core ∧ x.t = (s.core core).thread thread ∧
      x.w = x.c.word x.t.pc ∧ x.c.run = some x.id ∧ FMap.get? s.runs x.id = some x.run ∧ x.run.phase = .running := by
  simp only [State.issuing] at h
  split at h
  · cases h
  next id hid =>
    split at h
    · cases h
    next r hr =>
      split at h
      next hrun =>
        cases h
        simp only [Bool.and_eq_true, beq_iff_eq] at hrun
        exact ⟨rfl, rfl, rfl, rfl, rfl, hid, hr, hrun.1.1.2⟩
      · cases h

end

/-! #### Registers of a thread -/

section
variable {t u : Thread}

@[simp] theorem Thread.advance_r : t.advance.r = t.r := rfl
@[simp] theorem Thread.advance_v : t.advance.v = t.v := rfl
@[simp] theorem Thread.advance_vacc : t.advance.vacc = t.vacc := rfl
@[simp] theorem Thread.advance_cc : t.advance.cc = t.cc := rfl
@[simp] theorem Thread.advance_flags : t.advance.flags = t.flags := rfl
@[simp] theorem Thread.reg_advance (n : Nat) : t.advance.reg n = t.reg n := rfl
@[simp] theorem Thread.vreg_advance (n : Nat) : t.advance.vreg n = t.vreg n := rfl
@[simp] theorem Thread.accLane_advance (a n : Nat) : t.advance.accLane a n = t.accLane a n := rfl

/-- The rest of a thread, which an instruction that only writes registers leaves. -/
def Thread.frame (t : Thread) : BitVec 12 × List Level × List RetEntry × List Message × ThreadStatus :=
  (t.pc, t.levels, t.rs, t.recvQ, t.status)

/-- A thread that an instruction changed in its registers alone goes on behind that instruction. -/
theorem Thread.goesOn_advance (h : u.frame = t.frame) : t.goesOn u.advance := by
  simp only [Thread.frame, Prod.mk.injEq] at h
  obtain ⟨hpc, hlevels, hrs, hrecv, hstatus⟩ := h
  have hactive : u.active = t.active := by simp only [Thread.active, Thread.suspended, hlevels, hrs]
  have houter : u.outer = t.outer := by simp only [Thread.outer, Thread.suspended, hlevels, hrs]
  refine ⟨hrs, hrecv, hstatus, ?_, ?_⟩ <;> simp only [Thread.advance, Thread.behind, hpc, hactive, houter]

theorem Thread.frame_setReg (n : Nat) (v : BitVec 64) : (t.setReg n v).frame = t.frame := rfl

theorem Thread.reg_setReg_self (h : t.r.length = 32) {n : Nat} (hn : n < 32) (v : BitVec 64) :
    (t.setReg n v).reg n = v := by
  simp [Thread.reg, Thread.setReg, List.getD_eq_getElem?_getD, h, hn]

theorem Thread.reg_setReg_of_ne {n m : Nat} (h : m ≠ n) (v : BitVec 64) : (t.setReg n v).reg m = t.reg m := by
  simp [Thread.reg, Thread.setReg, List.getD_eq_getElem?_getD, List.getElem?_set_ne (Ne.symm h)]

theorem Thread.onlyReg_setReg (n : Nat) (v : BitVec 64) : t.onlyReg (t.setReg n v).advance n :=
  ⟨Thread.goesOn_advance (t.frame_setReg n v), fun _ hm => Thread.reg_setReg_of_ne hm v, rfl, rfl, rfl, rfl⟩

end

theorem wBits_lt (w : BitVec 32) (lo n : Nat) : wBits w lo n < 2 ^ n := Nat.mod_lt _ (Nat.two_pow_pos n)

theorem wD_lt (w : BitVec 32) : wD w < 32 := wBits_lt w 17 5

/-- An instruction that writes a value to one D register. -/
theorem State.issueReg_setReg {s : State} {cls op core thread : Nat} {x : Slot3} (hshaped : x.t.shaped)
    (h : s.issues cls op core thread x) {d : Nat} (hd : d < 32) {v : BitVec 64} {body : Slot3 → Thread}
    (hb : body x = x.t.setReg d v) :
    ∃ y : Thread, s.issueReg cls op core thread body = .next (s.setThread core thread y) ∧ y.reg d = v ∧
      x.t.onlyReg y d := by
  refine ⟨(x.t.setReg d v).advance, ?_, ?_, Thread.onlyReg_setReg d v⟩
  · rw [State.issueReg_of_issues h, hb]
  · exact Thread.reg_setReg_self hshaped.1 hd v

/-! #### CMP -/

section
variable (a b : BitVec 64)

theorem codes_bits : ∀ z n c v : Bool,
    let cc := (if z = true then 1#4 else 0) ||| (if n = true then 2#4 else 0) ||| (if c = true then 4#4 else 0) |||
      (if v = true then 8#4 else 0)
    cc.getLsbD 0 = z ∧ cc.getLsbD 1 = n ∧ cc.getLsbD 2 = c ∧ cc.getLsbD 3 = v := by decide

theorem compareCodes_bits :
    (compareCodes a b).getLsbD 0 = (a == b) ∧ (compareCodes a b).getLsbD 1 = (a - b).msb ∧
      (compareCodes a b).getLsbD 2 = a.ult b ∧
      (compareCodes a b).getLsbD 3 = ((a.msb != b.msb) && ((a - b).msb != a.msb)) := by
  have h := codes_bits (a == b) (a - b).msb (a.ult b) ((a.msb != b.msb) && ((a - b).msb != a.msb))
  simp only [beq_iff_eq, BitVec.ult_iff_lt, BitVec.lt_def] at h
  exact h

/-- Table 7.1: N differs from V exactly when the comparison is signed less. -/
theorem ccLess_compareCodes : ccLess (compareCodes a b) = a.slt b := by
  obtain ⟨-, hn, -, hv⟩ := compareCodes_bits a b
  have hsub : (a - b).toNat + b.toNat = a.toNat ∨ (a - b).toNat + b.toNat = a.toNat + 2 ^ 64 := by bv_omega
  rw [ccLess, hn, hv, BitVec.slt_eq_decide, BitVec.toInt_eq_msb_cond, BitVec.toInt_eq_msb_cond]
  have hmsb (x : BitVec 64) : x.msb = true ↔ 2 ^ 63 ≤ x.toNat := by simp [BitVec.msb_eq_decide]
  have ha := hmsb a
  have hb := hmsb b
  have hd := hmsb (a - b)
  cases h1 : a.msb <;> cases h2 : b.msb <;> cases h3 : (a - b).msb <;>
    simp only [h1, h2, h3, Bool.false_eq_true, true_iff, false_iff] at ha hb hd <;> simp <;> omega

theorem condition_compareCodes :
    condition 0 (compareCodes a b) = true ∧ condition 1 (compareCodes a b) = (a == b) ∧
      condition 2 (compareCodes a b) = (a != b) ∧ condition 3 (compareCodes a b) = a.slt b ∧
      condition 4 (compareCodes a b) = !(a.slt b) ∧ condition 5 (compareCodes a b) = a.ult b ∧
      condition 6 (compareCodes a b) = !(a.ult b) ∧ condition 7 (compareCodes a b) = b.slt a ∧
      condition 8 (compareCodes a b) = !(b.slt a) ∧ ∀ n, 9 ≤ n → condition n (compareCodes a b) = false := by
  have hgreater : (!(a == b) && !a.slt b) = b.slt a := by
    rw [BitVec.slt_eq_decide, BitVec.slt_eq_decide, Bool.eq_iff_iff]
    simp only [Bool.and_eq_true, Bool.not_eq_true', beq_eq_false_iff_ne, decide_eq_false_iff_not, decide_eq_true_eq,
      ne_eq, ← BitVec.toInt_inj]
    omega
  have hle : (a == b || a.slt b) = !(b.slt a) := by rw [← hgreater]; simp
  obtain ⟨hz, -, hc, -⟩ := compareCodes_bits a b
  have hless := ccLess_compareCodes a b
  refine ⟨rfl, hz, congrArg not hz, hless, congrArg not hless, hc, congrArg not hc, ?_, ?_, ?_⟩
  · simp only [condition, hz, hless, hgreater]
  · simp only [condition, hz, hless, hle]
  · intro n hn
    obtain ⟨m, rfl⟩ := Nat.exists_eq_add_of_le' hn
    rfl

end

/-- Settles O41: each scalar instruction is one write of a register, or of the condition codes. -/
theorem scalarInstructions : Obligations.ScalarInstructions := by
  refine ⟨fun s core thread x hshaped => ?_, fun s core thread x h => ?_⟩
  · intro a b old p hp h
    simp only [List.mem_cons, List.not_mem_nil, or_false] at hp
    have hd := wD_lt x.w
    rcases hp with rfl | rfl | rfl | rfl | rfl | rfl | rfl | rfl | rfl | rfl | rfl | rfl <;>
      exact State.issueReg_setReg hshaped h hd rfl
  · refine ⟨_, State.issueReg_of_issues h _, Thread.goesOn_advance rfl, rfl, rfl, rfl, rfl, condition_compareCodes _ _⟩

end Sys2Proof.Machine

/-! ### The control instructions and traps of a furrow core (O42) -/

namespace Sys2Proof.Machine

section
variable (pc : BitVec 12) (l : Level) (rest : List Level)

theorem afterWord_of_inside (h : l.last ≠ pc) : afterWord pc (l :: rest) = (pc + 1, l :: rest) := if_neg h

theorem afterWord_of_pass (h : l.last = pc) (hcount : 2 ≤ l.count.toNat) :
    afterWord pc (l :: rest) = (l.start, { l with count := l.count - 1 } :: rest) :=
  (if_pos h).trans (if_pos hcount)

theorem afterWord_of_lastPass (h : l.last = pc) (hcount : l.count.toNat < 2) :
    afterWord pc (l :: rest) = afterWord pc rest :=
  (if_pos h).trans (if_neg (by omega))

end

theorem length_takeWhile_append_cons_le {α : Type} {p : α → Bool} (xs ys : List α) {a : α} (h : p a = false) :
    ((xs ++ a :: ys).takeWhile p).length ≤ xs.length := by
  induction xs with
  | nil => simp [h]
  | cons x xs ih =>
    rw [List.cons_append, List.takeWhile_cons]
    split
    · simpa using ih
    · simp

section
variable {t : Thread}

theorem Thread.advance_of_noLevels (h : t.levels = []) : t.advance = { t with pc := t.pc + 1 } := by
  simp [Thread.advance, Thread.behind, Thread.active, Thread.outer, h, afterWord]

theorem Thread.length_active_add_outer (t : Thread) : t.active.length + t.outer.length = t.levels.length := by
  simp only [Thread.active, Thread.outer, List.length_take, List.length_drop]
  omega

/-- R374: a branch out of the block of a level ends that level and those inside it. -/
theorem Thread.length_levels_branch_le {active : List Level} {l : Level} (target : BitVec 12)
    (hactive : t.active = active ++ t.active.drop active.length) (hl : active.getLast? = some l)
    (hout : l.holds target = false) : (t.branch target).levels.length ≤ t.levels.length - active.length := by
  obtain ⟨inner, rfl⟩ := List.getLast?_eq_some_iff.mp hl
  obtain ⟨outer, houter⟩ : ∃ outer, t.active.drop (inner ++ [l]).length = outer := ⟨_, rfl⟩
  rw [houter] at hactive
  have hreverse : t.active.reverse = outer.reverse ++ l :: inner.reverse := by rw [hactive]; simp
  have hstop := length_takeWhile_append_cons_le (p := fun l => l.holds target) outer.reverse inner.reverse hout
  have hlen := t.length_active_add_outer
  have hsum : t.active.length = (inner ++ [l]).length + outer.length := by
    rw [← List.length_append, ← hactive]
  rw [← hreverse, List.length_reverse] at hstop
  simp only [Thread.branch, List.length_append, List.length_reverse] at hsum ⊢
  omega

theorem Thread.levels_branch_of_holds (target : BitVec 12) (h : ∀ l ∈ t.active, l.holds target = true) :
    (t.branch target).levels = t.active ++ t.outer := by
  have hall : t.active.reverse.takeWhile (fun l => l.holds target) = t.active.reverse :=
    List.takeWhile_eq_self_iff.mpr (fun l hl => h l (List.mem_reverse.mp hl))
  simp only [Thread.branch, hall, List.reverse_reverse]

theorem Thread.outer_of_rs {e : RetEntry} {rest : List RetEntry} (h : t.rs = e :: rest) :
    t.outer = t.levels.drop (t.levels.length - e.levels) := by
  simp only [Thread.outer, Thread.suspended, h]

theorem Thread.repeat_of_zero (last : BitVec 12) (room : Nat) : t.repeat_ last 0 room = t.behind last t.active := rfl

theorem Thread.repeat_of_ne_zero (last : BitVec 12) {count : BitVec 16} (room : Nat) (h : count ≠ 0) :
    ∃ buffered, t.repeat_ last count room =
        { t with pc := t.pc + 1, levels := ⟨count, t.pc + 1, last, buffered⟩ :: t.levels } ∧
      (buffered = 0 ∨ buffered = (last - t.pc).toNat) := by
  refine ⟨_, if_neg h, ?_⟩
  split
  · exact Or.inr rfl
  · exact Or.inl rfl

end

theorem wTarget_eq (w : BitVec 32) : wTarget w = w.truncate 12 := rfl

theorem ofNat_wImm16 (w : BitVec 32) : BitVec.ofNat 16 (wImm16 w) = w.truncate 16 := by
  apply BitVec.eq_of_toNat_eq
  simp [wImm16, wBits]

/-! #### Traps -/

section
variable (s : State) (core thread cause : Nat)

theorem State.core_trapThread_self :
    (s.trapThread core thread cause).core core =
      { (s.core core).setThread thread { (s.core core).thread thread with
          status := .trapped cause ((s.core core).thread thread).pc } with
        firstTrap := some ((s.core core).firstTrap.getD (thread, cause, ((s.core core).thread thread).pc)) } := by
  unfold State.trapThread
  rw [State.core_setCore, if_pos rfl]
  cases h : (s.core core).firstTrap <;> simp [Core.setThread, h]

theorem State.core_trapThread_of_ne {k : Nat} (h : k ≠ core) : (s.trapThread core thread cause).core k = s.core k := by
  unfold State.trapThread
  rw [State.core_setCore, if_neg (Ne.symm h)]

theorem State.trapThread_frame : s = { s.trapThread core thread cause with cores := s.cores } := rfl

end

/-- R369, R424: a trap stops its thread and is the core's first one where there was none. -/
theorem State.trapThread_stops (s : State) (core thread cause : Nat) :
    let t := s.trapThread core thread cause
    (t.core core).thread thread = { (s.core core).thread thread with
      status := .trapped cause ((s.core core).thread thread).pc } ∧
    (∀ k, k ≠ thread → (t.core core).thread k = (s.core core).thread k) ∧
    ((s.core core).firstTrap = none →
      (t.core core).firstTrap = some (thread, cause, ((s.core core).thread thread).pc)) ∧
    (∀ f, (s.core core).firstTrap = some f → (t.core core).firstTrap = some f) ∧
    (t.core core).mem = (s.core core).mem ∧ (t.core core).tile = (s.core core).tile ∧
    (∀ k, k ≠ core → t.core k = s.core k) ∧ s = { t with cores := s.cores } := by
  intro t
  have ht := s.core_trapThread_self core thread cause
  have hthread (k : Nat) := Core.thread_setThread (s.core core) thread k
    { (s.core core).thread thread with status := .trapped cause ((s.core core).thread thread).pc }
  refine ⟨?_, fun k hk => ?_, fun h => ?_, fun f h => ?_, ?_, ?_, fun k hk => ?_, s.trapThread_frame core thread cause⟩
  · rw [ht]; exact (hthread thread).trans (if_pos rfl)
  · rw [ht]; exact (hthread k).trans (if_neg (Ne.symm hk))
  · rw [ht, h]; rfl
  · rw [ht, h]; rfl
  · rw [ht]; rfl
  · rw [ht]; rfl
  · exact s.core_trapThread_of_ne core thread cause hk

/-! #### Repeats -/

section
variable {s : State} {core thread op : Nat} {x : Slot3} {last : Slot3 → BitVec 12} {count : Slot3 → BitVec 16}

/-- What REP_I and REP_D share: the block's last word and the count. -/
def repeatBody (s : State) (last : Slot3 → BitVec 12) (count : Slot3 → BitVec 16) (x : Slot3) : Issue :=
  if 4 ≤ x.t.levels.length then .trap 4 else .placed s (x.t.repeat_ (last x) (count x) x.c.loopRoom)

theorem State.issue_repeat (h : s.issues 0 op core thread x) :
    let t := x.t
    let r := s.issue 0 op core thread (repeatBody s last count)
    (4 ≤ t.levels.length → r = .next (s.trapThread core thread 4)) ∧
    (t.levels.length < 4 → count x = 0 → r = .next (s.setThread core thread (t.behind (last x) t.active))) ∧
    (t.levels.length < 4 → count x ≠ 0 → ∃ buffered, r = .next (s.setThread core thread
        { t with pc := t.pc + 1, levels := ⟨count x, t.pc + 1, last x, buffered⟩ :: t.levels }) ∧
        (buffered = 0 ∨ buffered = (last x - t.pc).toNat)) := by
  have hplaced (hroom : x.t.levels.length < 4) :
      repeatBody s last count x = .placed s (x.t.repeat_ (last x) (count x) x.c.loopRoom) :=
    if_neg (Nat.not_le.mpr hroom)
  refine ⟨fun hfull => State.issue_of_trap h (if_pos hfull), fun hroom hzero => ?_, fun hroom hcount => ?_⟩
  · rw [State.issue_of_placed h (hplaced hroom), hzero, Thread.repeat_of_zero]
  · obtain ⟨buffered, hrep, hbuf⟩ := Thread.repeat_of_ne_zero (t := x.t) (last x) x.c.loopRoom hcount
    exact ⟨buffered, by rw [State.issue_of_placed h (hplaced hroom), hrep], hbuf⟩

end

/-- Settles O42: the flow of control by the equations of `afterWord`, each instruction by the rule of its outcome. -/
theorem controlInstructions : Obligations.ControlInstructions := by
  refine ⟨⟨fun _ => rfl, fun pc l rest => ⟨afterWord_of_inside pc l rest, afterWord_of_pass pc l rest,
    afterWord_of_lastPass pc l rest⟩, fun t active => ⟨rfl, Thread.advance_of_noLevels, fun target => ⟨rfl,
      fun hactive l hl hout => Thread.length_levels_branch_le target hactive hl hout,
      Thread.levels_branch_of_holds target⟩⟩⟩, fun s core thread x hshaped => ?_, State.trapThread_stops⟩
  intro t w d goes traps
  have hd : d < 32 := (Nat.mod_lt _ (by decide)).trans (by decide)
  refine ⟨fun h => State.issue_placed_of_issues h _, fun h => State.issueReg_of_issues h _,
    fun h => State.issue_placed_of_issues h _,
    fun h hc => State.issue_of_placed h (if_pos hc), fun h hc => State.issue_of_next h (if_neg (Bool.eq_false_iff.mp hc)),
    fun h hroom => State.issue_of_placed h (if_neg (Nat.not_le.mpr hroom)), fun h hfull => State.issue_of_trap h (if_pos hfull),
    fun e rest h hrs => State.issue_of_placed h ?_, fun h hrs => State.issue_of_trap h ?_,
    fun i op last count hi h => ?_, fun h hnone => State.issue_of_next h ?_,
    fun l rest h hactive => State.issue_of_placed h ?_, fun i op v hi h => ?_, fun h => State.issueReg_of_issues h _⟩
  · have hrs : x.t.rs = e :: rest := hrs
    simp only [hrs, Thread.outer_of_rs hrs]
    rfl
  · simp only [show x.t.rs = [] from hrs]
  · simp only [List.mem_cons, List.not_mem_nil, or_false, Prod.mk.injEq] at hi
    rcases hi with ⟨rfl, rfl, rfl, rfl⟩ | ⟨rfl, rfl, rfl, rfl⟩
    · rw [← ofNat_wImm16]
      exact State.issue_repeat h
    · exact State.issue_repeat h
  · simp only [show x.t.active = [] from hnone]
    rfl
  · simp only [show x.t.active = l :: rest from hactive]
    rfl
  · simp only [List.mem_cons, List.not_mem_nil, or_false, Prod.mk.injEq] at hi
    rcases hi with ⟨rfl, rfl, rfl⟩ | ⟨rfl, rfl, rfl⟩ | ⟨rfl, rfl, rfl⟩ <;>
      exact State.issueReg_setReg hshaped h hd rfl

end Sys2Proof.Machine

/-! ### DIV, RSQ and the recurrence steps (O44) -/

namespace Sys2Proof.Machine

/-- Flags that were raised read as raised. -/
theorem flags_and_of_raised (old f g : Flags) : (old ||| (f ||| g)) &&& f = f := by
  apply BitVec.eq_of_getLsbD_eq
  intro i hi
  simp only [BitVec.getLsbD_and, BitVec.getLsbD_or]
  cases f.getLsbD i <;> simp

section
variable {x : Slot3} {a b : BitVec 32}

theorem binaryLane_of_finite (op : Nat) (f : BitVec 32 → BitVec 32 → BitVec 32 × Flags) (ha : special32 a = false)
    (hb : special32 b = false) :
    binaryLane op f a b = ((f a b).1, (f a b).2 ||| (dinLane a ||| dinLane b)) := by
  simp only [binaryLane, ha, hb, Bool.or_self, Bool.false_eq_true, if_false, BitVec.or_assoc]

theorem divReg_reg (hshaped : x.t.shaped) (r : BitVec 32 × Flags) :
    ((divReg x r).advance.reg (wD x.w)).truncate 32 = r.1 := by
  have hreg : (divReg x r).advance.reg (wD x.w) = Config.upperHalf r.1 (x.t.reg (wD x.w)) ++ r.1 :=
    Thread.reg_setReg_self hshaped.1 (wD_lt x.w) _
  rw [hreg]
  apply BitVec.eq_of_getLsbD_eq
  intro i hi
  rw [BitVec.truncate_eq_setWidth, BitVec.getLsbD_setWidth, BitVec.getLsbD_append]
  simp [hi]

theorem divReg_only (r : BitVec 32 × Flags) :
    x.t.goesOn (divReg x r).advance ∧ x.t.keepsRegs (divReg x r).advance (fun n => n = wD x.w) ∧
      (divReg x r).advance.v = x.t.v ∧ (divReg x r).advance.vacc = x.t.vacc ∧ (divReg x r).advance.cc = x.t.cc :=
  ⟨Thread.goesOn_advance rfl, fun _ hm => Thread.reg_setReg_of_ne hm _, rfl, rfl, rfl⟩

theorem divReg_raised (v : BitVec 32) (f g : Flags) : (divReg x (v, f ||| g)).advance.flags &&& f = f :=
  flags_and_of_raised x.t.flags f g

end

section
variable {a b : BitVec 32}

theorem divLane_of_finite (hb : (fp32 b).m ≠ 0) (ha : (fp32 a).m ≠ 0) :
    divLane a b = satLane (quotient (fp32 a) (fp32 b)) := (if_neg hb).trans (if_neg ha)

theorem divLane_of_zero (hb : (fp32 b).m ≠ 0) (ha : (fp32 a).m = 0) :
    divLane a b = (toFp32 ⟨(fp32 a).neg != (fp32 b).neg, 0, 0⟩, 0) := (if_neg hb).trans (if_pos ha)

theorem divLane_of_zero_by_zero (hb : (fp32 b).m = 0) (ha : (fp32 a).m = 0) : divLane a b = (0, flIV) :=
  (if_pos hb).trans (if_pos ha)

theorem divLane_of_by_zero (hb : (fp32 b).m = 0) (ha : (fp32 a).m ≠ 0) :
    divLane a b = (toFp32 (fFP32.largest (fp32 a).neg), flIV ||| flDSAT) := (if_pos hb).trans (if_neg ha)

theorem rsqLane_of_zero (ha : (fp32 a).m = 0) : rsqLane a = (toFp32 (fFP32.largest false), flIV ||| flDSAT) := if_pos ha

theorem rsqLane_of_negative (ha : (fp32 a).m ≠ 0) (hneg : (fp32 a).neg = true) : rsqLane a = (0, flIV) :=
  (if_neg ha).trans (if_pos hneg)

theorem rsqLane_of_positive (ha : (fp32 a).m ≠ 0) (hneg : (fp32 a).neg = false) :
    rsqLane a = (toFp32 (reciprocalNorm (fp32 a)).1, (reciprocalNorm (fp32 a)).2) :=
  (if_neg ha).trans (if_neg (Bool.eq_false_iff.mp hneg))

end

theorem divStep_of_le {r d : Nat} (h : d ≤ r) : divStep r d = (true, 2 * (r - d)) := by simp [divStep, h]

theorem divStep_of_lt {r d : Nat} (h : r < d) : divStep r d = (false, 2 * r) := by
  simp [divStep, Nat.not_le.mpr h]

theorem sqrtStep_of_le {r q : Nat} (h : 4 * q + 1 ≤ 4 * r) : sqrtStep r q = (4 * r - (4 * q + 1), 2 * q + 1) := if_pos h

theorem sqrtStep_of_lt {r q : Nat} (h : 4 * r < 4 * q + 1) : sqrtStep r q = (4 * r, 2 * q) := if_neg (Nat.not_le.mpr h)

/-- Settles O44: each result by the equation of its operands' case. -/
theorem divisionInstructions : Obligations.DivisionInstructions := by
  intro s core thread x hshaped a b u v only
  refine ⟨fun h ha hb => ?div, fun h ha => ?rsq, fun h => ?dstep, fun h => ?sqstep⟩
  case div =>
    refine ⟨_, State.issueReg_of_issues h _, divReg_only _, ?_⟩
    rw [divReg_reg hshaped, binaryLane_of_finite _ _ ha hb]
    refine ⟨fun hv hu => ?_, fun hv hu => ?_, fun hv hu => ?_, fun hv hu => ?_⟩
    · exact congrArg Prod.fst (divLane_of_finite hv hu)
    · exact congrArg Prod.fst (divLane_of_zero hv hu)
    · rw [divLane_of_zero_by_zero hv hu]
      exact ⟨rfl, divReg_raised _ _ _⟩
    · rw [divLane_of_by_zero hv hu]
      exact ⟨rfl, divReg_raised _ _ _⟩
  case rsq =>
    refine ⟨_, State.issueReg_of_issues h _, divReg_only _, ?_⟩
    rw [divReg_reg hshaped, binaryLane_of_finite _ _ ha rfl]
    refine ⟨fun hu => ?_, fun hu hneg => ?_, fun hu hneg => ?_⟩
    · rw [rsqLane_of_zero hu]
      exact ⟨rfl, divReg_raised _ _ _⟩
    · rw [rsqLane_of_negative hu hneg]
      exact ⟨rfl, divReg_raised _ _ _⟩
    · rw [rsqLane_of_positive hu hneg]
  case dstep =>
    have hreg (v : BitVec 64) : ((x.t.setReg (wD x.w) v).advance).reg (wD x.w) = v :=
      Thread.reg_setReg_self hshaped.1 (wD_lt x.w) v
    refine ⟨_, State.issueReg_of_issues h _, Thread.onlyReg_setReg _ _, fun hle => ?_, fun hlt => ?_⟩
    · rw [hreg, divStep_of_le hle]
    · rw [hreg, divStep_of_lt hlt]
  case sqstep =>
    have hreg (v : BitVec 64) : ((x.t.setReg (wD x.w) v).advance).reg (wD x.w) = v :=
      Thread.reg_setReg_self hshaped.1 (wD_lt x.w) v
    refine ⟨_, State.issueReg_of_issues h _, Thread.onlyReg_setReg _ _, fun hle => ?_, fun hlt => ?_⟩
    · rw [hreg, sqrtStep_of_le hle]
    · rw [hreg, sqrtStep_of_lt hlt]

end Sys2Proof.Machine

/-! ### The vector instructions (O43) -/

namespace Sys2Proof.Machine

/-! #### Lanes and bytes of a vector register -/

theorem lane_zero_cons (a : BitVec 32) (v : BitVec 512) : lane ((v <<< 32) ||| a.zeroExtend 512) 0 = a := by
  apply BitVec.eq_of_getLsbD_eq
  intro i hi
  have hwide : i < 512 := hi.trans (by decide)
  simp only [lane, BitVec.getLsbD_extractLsb', BitVec.getLsbD_or, BitVec.getLsbD_shiftLeft, BitVec.truncate_eq_setWidth,
    BitVec.getLsbD_setWidth, Nat.mul_zero, Nat.zero_add, hi, hwide, decide_true, Bool.not_true, Bool.and_false,
    Bool.false_and, Bool.true_and, Bool.false_or]

theorem lane_succ_cons (a : BitVec 32) (v : BitVec 512) {n : Nat} (hn : n + 1 < 16) :
    lane ((v <<< 32) ||| a.zeroExtend 512) (n + 1) = lane v n := by
  apply BitVec.eq_of_getLsbD_eq
  intro i hi
  have hwide : 32 * (n + 1) + i < 512 := by omega
  have hshift : ¬ 32 * (n + 1) + i < 32 := by omega
  have hindex : 32 * (n + 1) + i - 32 = 32 * n + i := by omega
  have hbeyond : a.getLsbD (32 * (n + 1) + i) = false := BitVec.getLsbD_of_ge a _ (by omega)
  simp only [lane, BitVec.getLsbD_extractLsb', BitVec.getLsbD_or, BitVec.getLsbD_shiftLeft, BitVec.truncate_eq_setWidth,
    BitVec.getLsbD_setWidth, hi, hwide, hshift, hindex, hbeyond, decide_true, decide_false, Bool.not_false, Bool.and_false,
    Bool.true_and, Bool.or_false]

theorem lane_ofLanes (l : List (BitVec 32)) : ∀ {n : Nat}, n < 16 → lane (ofLanes l) n = l.getD n 0 := by
  induction l with
  | nil =>
    intro n hn
    apply BitVec.eq_of_getLsbD_eq
    intro i hi
    simp [lane, ofLanes]
  | cons a l ih =>
    intro n hn
    cases n with
    | zero => exact lane_zero_cons a (ofLanes l)
    | succ n => exact (lane_succ_cons a (ofLanes l) hn).trans (ih (Nat.lt_of_succ_lt hn))

theorem length_lanes (v : BitVec 512) : (lanes v).length = 16 := by simp [lanes]

theorem getD_map_lanes {β : Type} (f : BitVec 32 → β) (v : BitVec 512) (d : β) {n : Nat} (hn : n < 16) :
    ((lanes v).map f).getD n d = f (lane v n) := by
  simp [lanes, List.getD_eq_getElem?_getD, hn]

theorem lane_zipLanes (f : BitVec 32 → BitVec 32 → BitVec 32 × Flags) (a b : BitVec 512) {n : Nat} (hn : n < 16) :
    lane (zipLanes f a b).1 n = (f (lane a n) (lane b n)).1 := by
  rw [zipLanes, lane_ofLanes _ hn]
  simp [lanes, List.getD_eq_getElem?_getD, hn]

theorem leBytes_le (b : Bytes) : leBytes b.length (le b) = b := by
  induction b with
  | nil => rfl
  | cons x b ih =>
    have hhead : BitVec.ofNat 8 (x.toNat + 256 * le b) = x := by
      apply BitVec.eq_of_toNat_eq
      have hx := x.isLt
      rw [BitVec.toNat_ofNat]
      omega
    have htail : (x.toNat + 256 * le b) / 256 = le b := by
      have hx := x.isLt
      omega
    change BitVec.ofNat 8 (x.toNat + 256 * le b) :: leBytes b.length ((x.toNat + 256 * le b) / 256) = x :: b
    rw [hhead, htail, ih]

theorem vecBytes_vecOf (b : Bytes) : vecBytes (vecOf b) = fit 64 b := by
  have hlen : (fit 64 b).length = 64 := by simp [fit, zeros]; omega
  have h := leBytes_le (fit 64 b)
  rw [hlen] at h
  rw [vecBytes, vecOf, BitVec.toNat_ofNat, show 2 ^ 512 = 256 ^ 64 from (pow_mul 2 8 64), leBytes_mod, h]

theorem length_flatMap_leBytes {α : Type} (k : Nat) (f : α → Nat) (l : List α) :
    (l.flatMap (fun a => leBytes k (f a))).length = l.length * k := by
  induction l with
  | nil => simp
  | cons a l ih => simp [ih]; ring

/-- The number that the n-th of consecutive fields of k bytes holds. -/
theorem num_flatMap_leBytes {α : Type} (k : Nat) (f : α → Nat) (l : List α) {n : Nat} (hn : n < l.length) (c : Bytes) :
    num (l.flatMap (fun a => leBytes k (f a)) ++ c) (n * k) k = f l[n] % 256 ^ k := by
  have hsplit : l.flatMap (fun a => leBytes k (f a)) ++ c =
      (l.take n).flatMap (fun a => leBytes k (f a)) ++ (leBytes k (f l[n]) ++
        ((l.drop (n + 1)).flatMap (fun a => leBytes k (f a)) ++ c)) := by
    conv_lhs => rw [← List.take_append_drop n l, List.drop_eq_getElem_cons hn]
    simp only [List.flatMap_append, List.flatMap_cons, List.append_assoc]
  have hlen : ((l.take n).flatMap (fun a => leBytes k (f a))).length = n * k := by
    rw [length_flatMap_leBytes, List.length_take, Nat.min_eq_left (Nat.le_of_lt hn)]
  rw [hsplit, num_append_leBytes hlen]

theorem cvtBytes_le (k : Nat) : cvtBytes k ≤ 4 := by
  unfold cvtBytes
  split <;> decide

/-- Converted lanes, read back from the vector register that holds them. -/
theorem num_vecOf_flatMap (k : Nat) (f : Nat → Nat × Flags) (hk : k ≤ 4) {n : Nat} (hn : n < 16) :
    num (vecBytes (vecOf (((List.range 16).map f).flatMap (fun r => leBytes k r.1)))) (n * k) k =
      (f n).1 % 2 ^ (8 * k) := by
  have hfit : fit 64 (((List.range 16).map f).flatMap (fun r => leBytes k r.1)) =
      ((List.range 16).map f).flatMap (fun r => leBytes k r.1) ++
        zeros (64 - (((List.range 16).map f).flatMap (fun r => leBytes k r.1)).length) := by
    rw [fit, List.take_of_length_le]
    rw [length_flatMap_leBytes]
    simp
    omega
  rw [vecBytes_vecOf, hfit, num_flatMap_leBytes k (fun r : Nat × Flags => r.1) _ (by simpa using hn), pow_mul]
  simp

/-! #### What a vector instruction leaves of its thread -/

section
variable {t : Thread}

theorem Thread.vreg_setV_self (h : t.v.length = 16) (n : Nat) (v : BitVec 512) : (t.setV n v).vreg n = v := by
  have hn : n % 16 < 16 := Nat.mod_lt n (by decide)
  simp [Thread.vreg, Thread.setV, List.getD_eq_getElem?_getD, h, hn]

theorem Thread.keepsVecs_setV (d : Nat) (v : BitVec 512) : t.keepsVecs (t.setV d v) (fun n => n = d % 16) := by
  intro n hn hne
  simp only [Thread.vreg, Thread.setV, List.getD_eq_getElem?_getD, Nat.mod_eq_of_lt hn,
    List.getElem?_set_ne (Ne.symm hne)]

theorem Thread.onlyVec_setV (d : Nat) (v : BitVec 512) : t.onlyVec (t.setV d v).advance (d % 16) :=
  ⟨Thread.goesOn_advance rfl, rfl, Thread.keepsVecs_setV d v, rfl, rfl⟩

theorem Thread.onlyVec_setV_raise (d : Nat) (v : BitVec 512) (f : Flags) :
    t.onlyVec ((t.setV d v).raise f).advance (d % 16) :=
  ⟨Thread.goesOn_advance rfl, rfl, Thread.keepsVecs_setV d v, rfl, rfl⟩

/-- R398: an instruction that raises flags keeps the ones raised before. -/
theorem Thread.raise_keeps_flags (f : Flags) : (t.raise f).flags &&& t.flags = t.flags := by
  apply BitVec.eq_of_getLsbD_eq
  intro i hi
  simp only [Thread.raise, BitVec.getLsbD_and, BitVec.getLsbD_or]
  cases t.flags.getLsbD i <;> simp

end

section
variable {s : State} {core thread op : Nat} {x : Slot3}

/-- A lane-by-lane instruction: its lanes of finite operands, and its frame. -/
theorem vector_of_issues (hshaped : x.t.shaped) (h : s.issues 2 op core thread x)
    (f : BitVec 32 → BitVec 32 → BitVec 32 × Flags) :
    ∃ y : Thread, s.vector op core thread f = .next (s.setThread core thread y) ∧ x.t.onlyVec y (wD x.w % 16) ∧
      y.flags &&& x.t.flags = x.t.flags ∧
      ∀ n, n < 16 → special32 (lane (x.t.vreg (wS1 x.w)) n) = false → special32 (lane (x.t.vreg (wS2 x.w)) n) = false →
        lane (y.vreg (wD x.w)) n = (f (lane (x.t.vreg (wS1 x.w)) n) (lane (x.t.vreg (wS2 x.w)) n)).1 := by
  refine ⟨_, State.issueReg_of_issues h _, Thread.onlyVec_setV_raise _ _ _, Thread.raise_keeps_flags (t := x.t) _,
    fun n hn ha hb => ?_⟩
  change lane ((x.t.setV _ _).vreg _) n = _
  rw [Thread.vreg_setV_self hshaped.2.1, lane_zipLanes _ _ _ hn, binaryLane_of_finite _ _ ha hb]

end

section
variable {less : Fv → Fv → Bool} {a b : BitVec 32}

theorem pickLane_of_less (h : less (fp32 a) (fp32 b) = true) : (pickLane less a b).1 = b := by simp [pickLane, h]

theorem pickLane_of_greater (h : less (fp32 b) (fp32 a) = true) (hn : less (fp32 a) (fp32 b) = false) :
    (pickLane less a b).1 = a := by simp [pickLane, h, hn]

theorem pickLane_of_two : (pickLane less a b).1 = a ∨ (pickLane less a b).1 = b := by
  unfold pickLane
  split_ifs <;> simp

end

theorem sbacLane_of_finite {c : Sbac} {a : BitVec 32} (ha : special32 a = false) (hs : special32 c.scale = false)
    (hb : special32 c.bias = false) : (sbacLane c a).1 = toFp32 (sbacStage c (fp32 a)).1 := by
  simp [sbacLane, ha, hs, hb]

theorem find?_lanes_of_finite {v : BitVec 512} (h : ∀ n, n < 16 → special32 (lane v n) = false) :
    (lanes v).find? special32 = none := by
  rw [List.find?_eq_none]
  intro a ha
  obtain ⟨n, hn, rfl⟩ := List.mem_map.mp ha
  simp [h n (List.mem_range.mp hn)]

theorem exec_vred_of_finite {s : State} {core thread : Nat} {x : Slot3} (h : s.issues 2 0x06 core thread x)
    (hfinite : ∀ n, n < 16 → special32 (lane (x.t.vreg (wS1 x.w)) n) = false) :
    let r := reduceLanes x.c.group (lanes (x.t.vreg (wS1 x.w)))
    exec (.vred core thread) s = .next (s.setThread core thread
      ((x.t.setV (wD x.w) (Config.vredPlace (x.t.vreg (wD x.w)) (toFp32 r.1))).raise r.2).advance) := by
  refine (State.issueReg_of_issues h _).trans ?_
  simp only [find?_lanes_of_finite hfinite]

/-- Settles O43: lane by lane, through what a lane of the vector written reads. -/
theorem vectorInstructions : Obligations.VectorInstructions := by
  refine ⟨fun s core thread x hshaped => ?_, fun s core thread x hshaped => ?_⟩
  · intro a b rounds
    refine ⟨fun p hp h => ?_, fun p hp h => ?_, fun h => ?_⟩
    · simp only [List.mem_cons, List.not_mem_nil, or_false] at hp
      rcases hp with rfl | rfl | rfl <;> exact vector_of_issues hshaped h _
    · have hpick (less : Fv → Fv → Bool) {op : Nat} (h : s.issues 2 op core thread x) :
          ∃ y : Thread, s.vector op core thread (pickLane less) = .next (s.setThread core thread y) ∧
            x.t.onlyVec y (wD x.w % 16) ∧
            ∀ n, n < 16 → special32 (lane a n) = false → special32 (lane b n) = false →
              (less (fp32 (lane a n)) (fp32 (lane b n)) = true → lane (y.vreg (wD x.w)) n = lane b n) ∧
              (less (fp32 (lane b n)) (fp32 (lane a n)) = true → less (fp32 (lane a n)) (fp32 (lane b n)) = false →
                lane (y.vreg (wD x.w)) n = lane a n) ∧
              (lane (y.vreg (wD x.w)) n = lane a n ∨ lane (y.vreg (wD x.w)) n = lane b n) := by
        obtain ⟨y, hexec, honly, -, hlanes⟩ := vector_of_issues hshaped h (pickLane less)
        refine ⟨y, hexec, honly, fun n hn ha hb => ?_⟩
        rw [hlanes n hn ha hb]
        exact ⟨pickLane_of_less, pickLane_of_greater, pickLane_of_two⟩
      simp only [List.mem_cons, List.not_mem_nil, or_false] at hp
      rcases hp with rfl | rfl
      · exact hpick _ h
      · exact hpick _ h
    · refine ⟨_, State.issueReg_of_issues h _, Thread.onlyVec_setV _ _, rfl, fun n hn => ?_⟩
      have hlane (f : Nat → BitVec 32) :
          lane ((x.t.setV (wD x.w) (ofLanes ((List.range 16).map f))).advance.vreg (wD x.w)) n = f n := by
        rw [Thread.vreg_advance, Thread.vreg_setV_self hshaped.2.1, lane_ofLanes _ hn]
        simp [hn]
      rw [hlane]
      split
      · exact Or.inl rfl
      · exact Or.inr rfl
  · intro a src dst
    refine ⟨fun h _ => ?_, fun h hfinite => ?_, fun h => ?_⟩
    · refine ⟨_, State.issueReg_of_issues h _, Thread.onlyVec_setV_raise _ _ _, Thread.raise_keeps_flags (t := x.t) _,
        fun n hn => ?_⟩
      change num (vecBytes ((x.t.setV _ _).vreg _)) _ _ = _
      rw [Thread.vreg_setV_self hshaped.2.1, num_vecOf_flatMap _ _ (cvtBytes_le _) hn]
    · refine ⟨_, exec_vred_of_finite h hfinite, Thread.onlyVec_setV_raise _ _ _, ?_, rfl⟩
      exact Thread.vreg_setV_self hshaped.2.1 _ _
    · refine ⟨_, State.issueReg_of_issues h _, Thread.onlyVec_setV_raise _ _ _, fun n hn ha hs hb => ?_⟩
      change lane ((x.t.setV _ _).vreg _) n = _
      rw [Thread.vreg_setV_self hshaped.2.1, lane_ofLanes _ hn, List.map_map, getD_map_lanes _ _ _ hn]
      exact sbacLane_of_finite ha hs hb

end Sys2Proof.Machine

/-! ### Loads and stores of local memory (O45) -/

namespace Sys2Proof.Machine

theorem not_aligned_of_mod_zero {a n : Nat} (h : a % n = 0) : ¬ (!aligned a n) = true := by simp [aligned, h]

theorem not_aligned_of_mod_ne_zero {a n : Nat} (h : a % n ≠ 0) : (!aligned a n) = true := by simp [aligned, h]

/-! #### Post-modified address registers (R368) -/

section
variable {t : Thread} (a n pm size : Nat)

theorem postModify_eq : postModify t a n pm size = t ∨
    ∃ v, postModify t a n pm size = t.setReg (aReg a) v := by
  unfold postModify
  split
  · exact Or.inr ⟨_, rfl⟩
  · exact Or.inr ⟨_, rfl⟩
  · exact Or.inr ⟨_, rfl⟩
  · exact Or.inl rfl

theorem reg_postModify_of_ne {m : Nat} (h : m ≠ 16 + a) : (postModify t a n pm size).reg m = t.reg m := by
  obtain hkeep | ⟨v, hset⟩ := postModify_eq (t := t) a n pm size
  · rw [hkeep]
  · rw [hset]
    exact Thread.reg_setReg_of_ne h v

theorem reg_postModify_self (hr : t.r.length = 32) (ha : a < 8) (hpm : pm < 4) :
    (postModify t a n pm size).reg (16 + a) = addressAfter (t.reg (16 + a)) (t.reg (24 + n)) pm size := by
  have hself (v : BitVec 64) : (t.setReg (aReg a) v).reg (16 + a) = v :=
    Thread.reg_setReg_self hr (Nat.add_lt_add_left ha 16 |>.trans (by decide)) v
  match pm, hpm with
  | 0, _ => rfl
  | 1, _ => exact hself _
  | 2, _ => exact hself _
  | 3, _ => exact hself _

/-- The parts of a thread but its scalar registers. -/
def Thread.unscaled (t : Thread) :
    List (BitVec 512) × List (List FixLane) × BitVec 4 × Flags × BitVec 12 × List Level × List RetEntry × List Message ×
      ThreadStatus :=
  (t.v, t.vacc, t.cc, t.flags, t.frame)

theorem unscaled_postModify : (postModify t a n pm size).unscaled = t.unscaled := by
  obtain hkeep | ⟨v, hset⟩ := postModify_eq (t := t) a n pm size
  · rw [hkeep]
  · rw [hset]
    rfl

/-- An address register modified leaves everything but the scalar registers. -/
theorem postModify_keeps : t.goesOn (postModify t a n pm size).advance ∧ (postModify t a n pm size).v = t.v ∧
    (postModify t a n pm size).vacc = t.vacc ∧ (postModify t a n pm size).cc = t.cc ∧
    (postModify t a n pm size).flags = t.flags := by
  have h := unscaled_postModify (t := t) a n pm size
  obtain ⟨hv, h⟩ := Prod.ext_iff.mp h
  obtain ⟨hvacc, h⟩ := Prod.ext_iff.mp h
  obtain ⟨hcc, h⟩ := Prod.ext_iff.mp h
  obtain ⟨hflags, hframe⟩ := Prod.ext_iff.mp h
  exact ⟨Thread.goesOn_advance hframe, hv, hvacc, hcc, hflags⟩

end

theorem wA_lt (w : BitVec 32) : wA w < 8 := wBits_lt w 14 3

theorem wPm_lt (w : BitVec 32) : wPm w < 4 := wBits_lt w 9 2

/-- A format S access of n bytes leaves its thread with its address register modified and nothing else. -/
theorem Slot3.modify_eq (x : Slot3) {t : Thread} (n : Nat) (hr : t.r.length = 32) :
    t.goesOn (x.modify t n).advance ∧
      (x.modify t n).reg (16 + wA x.w) =
        addressAfter (t.reg (16 + wA x.w)) (t.reg (24 + wN x.w)) (wPm x.w) n ∧
      (∀ m, m ≠ 16 + wA x.w → (x.modify t n).reg m = t.reg m) ∧ (x.modify t n).v = t.v ∧
      (x.modify t n).vacc = t.vacc ∧ (x.modify t n).cc = t.cc ∧ (x.modify t n).flags = t.flags := by
  obtain ⟨hgoes, hv, hvacc, hcc, hflags⟩ := postModify_keeps (t := t) (wA x.w) (wN x.w) (wPm x.w) n
  exact ⟨hgoes, reg_postModify_self _ _ _ _ hr (wA_lt x.w) (wPm_lt x.w), fun _ hm => reg_postModify_of_ne _ _ _ _ hm,
    hv, hvacc, hcc, hflags⟩

theorem Thread.goesOn_of_frame {t u y : Thread} (h : u.frame = t.frame) (hy : u.goesOn y) : t.goesOn y := by
  obtain ⟨hrs, hrecv, hstatus, hpc, hlevels⟩ := hy
  obtain ⟨hrs', hrecv', hstatus', hpc', hlevels'⟩ := Thread.goesOn_advance h
  exact ⟨hrs.trans hrs', hrecv.trans hrecv', hstatus.trans hstatus', hpc.trans hpc', hlevels.trans hlevels'⟩

/-! #### Loaded bytes -/

theorem length_readN (d : Byte) (m : Mem) (a n : Nat) : (Mem.readN d m a n).length = n := by simp [Mem.readN]

theorem le_lt (b : Bytes) : le b < 256 ^ b.length := by
  have h := le_leBytes b.length (le b)
  rw [leBytes_le] at h
  rw [h]
  exact Nat.mod_lt _ (Nat.pow_pos (by decide))

theorem pow_two_mul_eight (n : Nat) : 2 ^ (8 * n) = 256 ^ n := by rw [pow_mul]; rfl

/-- The low bytes of a register loaded with at most eight bytes. -/
theorem loadReg_low {b : Bytes} (h : b.length ≤ 8) (old : BitVec 64) :
    (loadReg b old).toNat % 2 ^ (8 * b.length) = le b := by
  have hlt : le b < 2 ^ (8 * b.length) := (le_lt b).trans_eq (pow_two_mul_eight _).symm
  have hdvd : 2 ^ (8 * b.length) ∣ 2 ^ 64 := pow_dvd_pow 2 (by omega)
  rcases Nat.lt_or_eq_of_le h with hshort | hfull
  · rw [loadReg, if_pos hshort, BitVec.toNat_ofNat, Nat.mod_mod_of_dvd _ hdvd, Nat.add_mul_mod_self_right,
      Nat.mod_eq_of_lt hlt]
  · rw [loadReg, if_neg (by omega), if_pos hfull, BitVec.toNat_ofNat, Nat.mod_mod_of_dvd _ hdvd, Nat.mod_eq_of_lt hlt]

theorem take_vecBytes_loadVec {b : Bytes} (h : b.length ≤ 64) (old : BitVec 512) :
    (vecBytes (loadVec b old)).take b.length = b := by
  rw [loadVec, vecBytes_vecOf, fit, List.take_append_of_le_length (by simp; omega), List.take_take, Nat.min_eq_left h,
    List.take_left]

/-! #### Stored bytes -/

theorem getElem?_leBytes (n v : Nat) {k : Nat} (h : k < n) : (leBytes n v)[k]? = some (BitVec.ofNat 8 (v / 256 ^ k)) := by
  induction n generalizing v k with
  | zero => omega
  | succ n ih =>
    cases k with
    | zero => simp [leBytes]
    | succ k =>
      rw [leBytes, List.getElem?_cons_succ, ih _ (Nat.lt_of_succ_lt_succ h), Nat.div_div_eq_div_mul, pow_succ']

theorem getElem?_flatMap_leBytes {α : Type} (n : Nat) (f : α → Nat) (l : List α) {k : Nat} (hn : 0 < n) :
    (l.flatMap (fun a => leBytes n (f a)))[k]? = l[k / n]?.bind (fun a => (leBytes n (f a))[k % n]?) := by
  induction l generalizing k with
  | nil => simp
  | cons a l ih =>
    rw [List.flatMap_cons, List.getElem?_append, length_leBytes]
    by_cases hk : k < n
    · rw [if_pos hk, Nat.div_eq_of_lt hk, Nat.mod_eq_of_lt hk]
      rfl
    · obtain ⟨m, rfl⟩ := Nat.exists_eq_add_of_le (Nat.le_of_not_lt hk)
      rw [if_neg hk, Nat.add_sub_cancel_left, ih, Nat.add_div_left _ hn, Nat.add_mod_left]
      rfl

theorem length_storeBytes (n : Nat) (v : BitVec 64) : (storeBytes n v).length = n := by
  simp only [storeBytes, fit, zeros, List.length_append, length_leBytes, List.length_take, List.length_replicate]
  omega

theorem getElem?_storeBytes {n k : Nat} (v : BitVec 64) (hn : k < n) (hk : k < 8) :
    (storeBytes n v)[k]? = (leBytes 8 v.toNat)[k]? := by
  rw [storeBytes, List.getElem?_append_left (by simp; omega), getElem?_leBytes _ _ (by omega), getElem?_leBytes _ _ hk]

/-- A store of bytes at the address of the instruction: what local memory holds then, and what the thread keeps. -/
theorem Slot3.stores (x : Slot3) (s : State) (core thread n : Nat) {b : Bytes} (hb : b.length = n) (fl : Flags)
    (hr : x.t.r.length = 32) :
    ∃ (y : Thread) (c : Core),
      (Host.Outcome.next ((s.setCore core (x.c.store x.addr b)).setThread core thread (x.modify (x.t.raise fl) n).advance) :
        Result) = .next ((s.setCore core c).setThread core thread y) ∧ x.t.goesOn y ∧ x.c.onlyMem c ∧
      (∀ k v, k < n → b[k]? = some v → Mem.read 0 c.mem (x.addr + k) = v) ∧
      (∀ e, e < x.addr ∨ x.addr + n ≤ e → Mem.read 0 c.mem e = Mem.read 0 x.c.mem e) ∧
      y.reg (16 + wA x.w) =
        addressAfter (x.t.reg (16 + wA x.w)) (x.t.reg (24 + wN x.w)) (wPm x.w) n ∧
      x.t.keepsRegs y (fun m => m = 16 + wA x.w) ∧ y.v = x.t.v ∧ y.vacc = x.t.vacc ∧ y.cc = x.t.cc ∧
      y.flags = x.t.flags ||| fl := by
  subst hb
  obtain ⟨hgoes, hself, hother, hvs, hvacc, hcc, hflags⟩ := x.modify_eq (t := x.t.raise fl) b.length hr
  refine ⟨_, x.c.store x.addr b, rfl, hgoes, rfl, fun k v hk hv => ?_, fun e he => ?_, hself, hother, hvs, hvacc, hcc, hflags⟩
  · rw [Core.store, Mem.read_write_inside _ _ _ _ _ hk, List.getD_eq_getElem?_getD, hv]
    rfl
  · exact Mem.read_write_outside _ _ _ _ _ he

theorem Thread.raise_zero (t : Thread) : t.raise 0 = t := by
  simp [Thread.raise]

/-! #### Accumulator stores (R343, R396) -/

section
variable (n h : Nat) (v : BitVec 40)

/-- A lane at shift h, rounded half up. -/
def shiftedLane (h : Nat) (v : BitVec 40) : Int := (2 * v.toInt + 2 ^ h) / 2 ^ (h + 1)
/-- The nearest number of n bytes. -/
def clampBytes (n : Nat) (v : Int) : Int := max (-(2 ^ (8 * n - 1))) (min (2 ^ (8 * n - 1) - 1) v)

theorem fixStore_eq : fixStore (8 * n) h v =
    (clampBytes n (shiftedLane h v), clampBytes n (shiftedLane h v) != shiftedLane h v) := by
  have hpos : (0 : Int) < 2 ^ (8 * n - 1) := by positivity
  simp only [fixStore, clampBytes, shiftedLane]
  generalize (2 * v.toInt + 2 ^ h) / 2 ^ (h + 1) = r
  generalize (2 : Int) ^ (8 * n - 1) = p at hpos
  split
  · rw [Prod.mk.injEq, eq_comm (a := true), bne_iff_ne]
    omega
  · split
    · rw [Prod.mk.injEq, eq_comm (a := true), bne_iff_ne]
      omega
    · rw [Prod.mk.injEq, eq_comm (a := false), bne_eq_false_iff_eq]
      omega

/-- A lane is stored exactly when it is neither clamped nor rounded. -/
theorem clampBytes_exact_iff : clampBytes n (shiftedLane h v) * 2 ^ h = v.toInt ↔
    clampBytes n (shiftedLane h v) = shiftedLane h v ∧ v.toInt % 2 ^ h = 0 := by
  have hpos : (0 : Int) < 2 ^ h := by positivity
  have hround (k : Int) : k * 2 ^ h = v.toInt → shiftedLane h v = k := by
    intro hk
    rw [shiftedLane, ← hk, show (2 : Int) * (k * 2 ^ h) + 2 ^ h = 2 ^ h + k * 2 ^ (h + 1) by rw [pow_succ]; ring,
      Int.add_mul_ediv_right _ _ (by positivity), Int.ediv_eq_zero_of_lt hpos.le (by rw [pow_succ]; linarith), zero_add]
  constructor
  · intro hk
    exact ⟨(hround _ hk).symm, by rw [← hk]; exact Int.mul_emod_left _ _⟩
  · rintro ⟨hclamp, hmod⟩
    have hdiv : v.toInt / 2 ^ h * 2 ^ h = v.toInt := Int.ediv_mul_cancel (Int.dvd_of_emod_eq_zero hmod)
    rw [hclamp, hround _ hdiv, hdiv]

end

theorem foldl_or_flIf {α : Type} (p q : α → Bool) (f g init : Flags) (l : List α) :
    l.foldl (fun acc a => acc ||| (flIf (p a) f ||| flIf (q a) g)) init =
      init ||| (flIf (l.any p) f ||| flIf (l.any q) g) := by
  induction l generalizing init with
  | nil => simp [flIf]
  | cons a l ih =>
    rw [List.foldl_cons, ih, List.any_cons, List.any_cons]
    apply BitVec.eq_of_getLsbD_eq
    intro i hi
    cases p a <;> cases q a <;> cases l.any p <;> cases l.any q <;>
      simp [flIf, Bool.or_comm, Bool.or_left_comm, Bool.or_assoc]

section
variable (x : Slot3) (n : Nat)

theorem Slot3.length_fixLanes : (x.fixLanes n).1.length = 16 * n := by
  rw [Slot3.fixLanes, length_flatMap_leBytes]
  simp

theorem Slot3.getElem?_fixLanes {k : Nat} (hk : k < 16 * n) :
    (x.fixLanes n).1[k]? = (leBytes n (BitVec.ofInt (8 * n)
      (clampBytes n (shiftedLane (wX6 x.w % 32) (x.t.accLane (wD x.w % 4) (k / n)).v))).toNat)[k % n]? := by
  have hn : 0 < n := by omega
  have hdiv : k / n < 16 := (Nat.div_lt_iff_lt_mul hn).mpr hk
  rw [Slot3.fixLanes, getElem?_flatMap_leBytes _ _ _ hn]
  simp only [List.getElem?_map, List.getElem?_range hdiv, Option.map_some, Option.bind_some, fixStore_eq]

theorem Slot3.flags_fixLanes :
    let h := wX6 x.w % 32
    let lane := fun k => x.t.accLane (wD x.w % 4) k
    let shifted := fun k => shiftedLane h (lane k).v
    (x.fixLanes n).2 =
      flIf ((List.range 16).any (fun k => clampBytes n (shifted k) != shifted k || (lane k).sat)) flDSAT |||
        flIf ((List.range 16).any (fun k => clampBytes n (shifted k) * 2 ^ h != (lane k).v.toInt)) flIX := by
  intro h lane shifted
  have hexact (k : Nat) : (clampBytes n (shifted k) != shifted k || fixInexact h (lane k).v) =
      (clampBytes n (shifted k) * 2 ^ h != (lane k).v.toInt) := by
    rw [Bool.eq_iff_iff, Bool.or_eq_true, bne_iff_ne, fixInexact, bne_iff_ne, bne_iff_ne, ne_eq, ne_eq, ne_eq,
      clampBytes_exact_iff, not_and_or]
  have hfold := foldl_or_flIf (fun k => clampBytes n (shifted k) != shifted k || (lane k).sat)
    (fun k => clampBytes n (shifted k) != shifted k || fixInexact h (lane k).v) flDSAT flIX 0 (List.range 16)
  simp only [Slot3.fixLanes, List.map_map, List.foldl_map, Function.comp_apply, fixStore_eq, fixFlags]
  rw [← funext hexact]
  exact hfold.trans BitVec.zero_or

end

/-- A thread that loads a register through format S: the register takes its value, then the address register is modified. -/
theorem Slot3.modify_setReg (x : Slot3) (n : Nat) (v : BitVec 64) (hr : x.t.r.length = 32) :
    let y := (x.modify (x.t.setReg (wD x.w) v) n).advance
    let r := 16 + wA x.w
    x.t.goesOn y ∧
      y.reg r = addressAfter ((x.t.setReg (wD x.w) v).reg r) ((x.t.setReg (wD x.w) v).reg (24 + wN x.w)) (wPm x.w) n ∧
      (wD x.w ≠ r → y.reg (wD x.w) = v) ∧ x.t.keepsRegs y (fun m => m = wD x.w ∨ m = r) ∧ y.v = x.t.v ∧
      y.vacc = x.t.vacc ∧ y.cc = x.t.cc ∧ y.flags = x.t.flags := by
  intro y r
  obtain ⟨hgoes, hself, hother, hvs, hvacc, hcc, hflags⟩ :=
    x.modify_eq (t := x.t.setReg (wD x.w) v) n ((List.length_set ..).trans hr)
  refine ⟨Thread.goesOn_of_frame (x.t.frame_setReg _ _) hgoes, hself, fun hne => ?_, fun m hm => ?_, hvs, hvacc, hcc, hflags⟩
  · exact (hother _ hne).trans (Thread.reg_setReg_self hr (wD_lt x.w) v)
  · exact (hother _ (fun e => hm (Or.inr e))).trans (Thread.reg_setReg_of_ne (fun e => hm (Or.inl e)) v)

/-- Settles O45: loads by the low bytes of the register written, stores by the memory laws. -/
theorem localMemory : Obligations.LocalMemory := by
  refine ⟨fun s core thread x hshaped => ?loads, fun s core thread x hshaped => ?stores⟩
  case loads =>
    intro a n r k hsize
    have hn : n ≤ 64 := (Nat.pow_le_pow_right (by decide) hsize).trans (by decide)
    have hlen : (x.c.load x.addr x.size).length = n := length_readN 0 x.c.mem a n
    obtain ⟨hr, hv, -⟩ := hshaped
    refine ⟨fun h hal => ?ld, fun h hal => ?ldv, fun i op hi h hal => ?trap⟩
    case ld =>
      obtain ⟨value, hvalue⟩ : ∃ v, v = loadReg (x.c.load x.addr x.size) (x.t.reg (wD x.w)) := ⟨_, rfl⟩
      have hlow (hle : n ≤ 8) : value.toNat % 2 ^ (8 * n) = le (Mem.readN 0 x.c.mem a n) := by
        have h := loadReg_low (hlen.le.trans hle) (x.t.reg (wD x.w))
        rw [hlen, ← hvalue] at h
        exact h
      obtain ⟨hgoes, hrest⟩ := x.modify_setReg n value hr
      refine ⟨(x.modify (x.t.setReg (wD x.w) value) n).advance, value, ?_, hgoes, hlow, hrest⟩
      rw [hvalue]
      exact State.issue_of_next h (if_neg (not_aligned_of_mod_zero hal))
    case ldv =>
      obtain ⟨value, hvalue⟩ : ∃ v, v = loadVec (x.c.load x.addr x.size) (x.t.vreg (wD x.w)) := ⟨_, rfl⟩
      have hlow : (vecBytes value).take n = Mem.readN 0 x.c.mem a n := by
        have h := take_vecBytes_loadVec (hlen.le.trans hn) (x.t.vreg (wD x.w))
        rw [hlen, ← hvalue] at h
        exact h
      obtain ⟨hgoes, hself, hother, hvs, hvacc, hcc, hflags⟩ := x.modify_eq (t := x.t.setV (wD x.w) value) n hr
      have hvreg (m : Nat) : (x.modify (x.t.setV (wD x.w) value) n).advance.vreg m = (x.t.setV (wD x.w) value).vreg m := by
        simp only [Thread.vreg, Thread.advance_v, hvs]
      refine ⟨(x.modify (x.t.setV (wD x.w) value) n).advance, ?_, hgoes, ?_, hself, hother, fun m hlt hne => ?_, hvacc, hcc,
        hflags⟩
      · rw [hvalue]
        exact State.issue_of_next h (if_neg (not_aligned_of_mod_zero hal))
      · rw [hvreg, Thread.vreg_setV_self hv, hlow]
      · rw [hvreg]
        exact Thread.keepsVecs_setV _ value m hlt hne
    case trap =>
      have htrap := not_aligned_of_mod_ne_zero hal
      simp only [List.mem_cons, List.not_mem_nil, or_false, Prod.mk.injEq] at hi
      rcases hi with ⟨rfl, rfl⟩ | ⟨rfl, rfl⟩ | ⟨rfl, rfl⟩ | ⟨rfl, rfl⟩ <;> exact State.issue_of_trap h (if_pos htrap)
  case stores =>
    intro a r hsh stored shifted clampTo
    have hr := hshaped.1
    have hstored {i : Instr} {n : Nat} {bytes : Nat → Option Byte} {fl : Flags} {b : Bytes} (hlen : b.length = n)
        (hexec : exec i s = .next ((s.setCore core (x.c.store x.addr b)).setThread core thread
          (x.modify (x.t.raise fl) n).advance))
        (hbytes : ∀ k v, k < n → bytes k = some v → b[k]? = some v) : stored i n bytes fl := by
      obtain ⟨y, c, hnext, hgoes, hcore, hin, hrest⟩ := x.stores s core thread n hlen fl hr
      exact ⟨y, c, hexec.trans hnext, hgoes, hcore, fun k v hk hv => hin k v hk (hbytes k v hk hv), hrest⟩
    refine ⟨fun h hsize hal => ?st, fun h hsize hal => ?stv, fun i op n hi h => ?sta⟩
    case st =>
      refine hstored (length_storeBytes _ (x.t.reg (wD x.w))) ?_ fun k v hk hv => ?_
      · rw [Thread.raise_zero]
        exact State.issue_of_next h (if_neg (not_aligned_of_mod_zero hal))
      · split at hv
        next hk8 => rwa [getElem?_storeBytes _ hk hk8]
        · cases hv
    case stv =>
      have hn : 2 ^ wSize x.w ≤ 64 := (Nat.pow_le_pow_right (by decide) hsize).trans (by decide)
      have hlen : ((vecBytes (x.t.vreg (wD x.w))).take x.size).length = 2 ^ wSize x.w := by
        rw [List.length_take, vecBytes, length_leBytes]
        exact Nat.min_eq_left hn
      refine hstored hlen ?_ fun k v hk hv => ?_
      · rw [Thread.raise_zero]
        exact State.issue_of_next h (if_neg (not_aligned_of_mod_zero hal))
      · exact (List.getElem?_take_of_lt hk).trans hv
    case sta =>
      have hfix {op n : Nat} (h : s.issues 3 op core thread x) (hal : a % (16 * n) = 0) :
          s.storeFix op n core thread = .next ((s.setCore core (x.c.store x.addr (x.fixLanes n).1)).setThread core thread
            (x.modify (x.t.raise (x.fixLanes n).2) (16 * n)).advance) :=
        State.issue_of_next h (if_neg (not_aligned_of_mod_zero hal))
      have htrap {op n : Nat} (h : s.issues 3 op core thread x) (hal : a % (16 * n) ≠ 0) :
          s.storeFix op n core thread = .next (s.trapThread core thread 1) :=
        State.issue_of_trap h (if_pos (not_aligned_of_mod_ne_zero hal))
      simp only [List.mem_cons, List.not_mem_nil, or_false, Prod.mk.injEq] at hi
      rcases hi with ⟨rfl, rfl, rfl⟩ | ⟨rfl, rfl, rfl⟩
      · refine ⟨fun hal => hstored (x.length_fixLanes 4) ((hfix h hal).trans ?_) fun k v hk hv => ?_, htrap h⟩
        · rw [x.flags_fixLanes 4]
          rfl
        · rwa [x.getElem?_fixLanes 4 hk]
      · refine ⟨fun hal => hstored (x.length_fixLanes 2) ((hfix h hal).trans ?_) fun k v hk hv => ?_, htrap h⟩
        · rw [x.flags_fixLanes 2]
          rfl
        · rwa [x.getElem?_fixLanes 2 hk]

end Sys2Proof.Machine

/-! ### Instructions with two memory operands (O46) -/

namespace Sys2Proof.Machine

section
variable {x : Slot3}

theorem wAx_lt (w : BitVec 32) : wAx w < 8 := wBits_lt w 17 3
theorem wT_lt (w : BitVec 32) : wT w < 4 := wBits_lt w 20 2

/-! #### The traps of a dual-operand instruction -/

theorem Slot3.dualTrap_of_twin (htwin : x.c.twin = true) (hp : wP x.w = true) : x.dualTrap = some 6 := by
  simp [Slot3.dualTrap, htwin, hp]

theorem Slot3.dualTrap_of_misaligned (hp : (x.c.twin && wP x.w) = false) (h : x.ax % 32 ≠ 0 ∨ x.ay % 32 ≠ 0) :
    x.dualTrap = some 1 := by
  have hal : (!aligned x.ax dualSize || !aligned x.ay dualSize) = true := by
    rw [Bool.or_eq_true]
    exact h.imp not_aligned_of_mod_ne_zero not_aligned_of_mod_ne_zero
  simp [Slot3.dualTrap, hp, hal]

theorem Slot3.dualTrap_of_aligned (hp : (x.c.twin && wP x.w) = false) (hx : x.ax % 32 = 0) (hy : x.ay % 32 = 0) :
    x.dualTrap = if !x.c.twin && (!bankX x.ax || bankX x.ay) then some 2 else none := by
  have hal : (!aligned x.ax dualSize || !aligned x.ay dualSize) = false := by
    simp [aligned, dualSize, hx, hy]
  simp [Slot3.dualTrap, hp, hal]

end

/-! #### Both address registers -/

theorem Slot3.reg_ay_eq (x : Slot3) : x.ay = localAddr (x.t.reg (16 + wAy x.w)) := rfl

/-- What a dual-operand instruction leaves of a thread t besides its operands' registers: both address registers are
modified, each as its own mode says where they differ. -/
theorem Slot3.dualModify_eq (x : Slot3) {t : Thread} (hr : t.r.length = 32) :
    t.goesOn (x.dualModify t).advance ∧
      (∀ m, ¬ (m = 16 + wAx x.w ∨ m = 16 + wAy x.w) → (x.dualModify t).reg m = t.reg m) ∧
      (wAx x.w ≠ wAy x.w →
        (x.dualModify t).reg (16 + wAx x.w) =
          addressAfter (t.reg (16 + wAx x.w)) (t.reg (24 + wNx x.w)) (wPmx x.w) 32 ∧
        (x.dualModify t).reg (16 + wAy x.w) =
          addressAfter (t.reg (16 + wAy x.w)) (t.reg (24 + wNy x.w)) (wPmy x.w) 32) ∧
      (x.dualModify t).v = t.v ∧ (x.dualModify t).vacc = t.vacc ∧ (x.dualModify t).cc = t.cc ∧
      (x.dualModify t).flags = t.flags := by
  obtain ⟨u, hu⟩ : ∃ u, u = postModify t (wAx x.w) (wNx x.w) (wPmx x.w) 32 := ⟨_, rfl⟩
  have hdual : x.dualModify t = postModify u (wAy x.w) (wNy x.w) (wPmy x.w) 32 := by rw [hu]; rfl
  have hur : u.r.length = 32 := by
    obtain hkeep | ⟨v, hset⟩ := postModify_eq (t := t) (wAx x.w) (wNx x.w) (wPmx x.w) 32
    · rw [hu, hkeep, hr]
    · rw [hu, hset, ← hr]
      exact List.length_set ..
  have hx := wAx_lt x.w
  have hpmx : wPmx x.w < 4 := wBits_lt _ _ _
  have hpmy : wPmy x.w < 4 := wBits_lt _ _ _
  have hy : wAy x.w < 8 := wBits_lt _ _ _
  have h1 := unscaled_postModify (t := t) (wAx x.w) (wNx x.w) (wPmx x.w) 32
  rw [← hu] at h1
  have h2 := unscaled_postModify (t := u) (wAy x.w) (wNy x.w) (wPmy x.w) 32
  have hkeeps := h2.trans h1
  rw [← hdual] at hkeeps
  obtain ⟨hv, hkeeps⟩ := Prod.ext_iff.mp hkeeps
  obtain ⟨hvacc, hkeeps⟩ := Prod.ext_iff.mp hkeeps
  obtain ⟨hcc, hkeeps⟩ := Prod.ext_iff.mp hkeeps
  obtain ⟨hflags, hframe⟩ := Prod.ext_iff.mp hkeeps
  have hfirst (m : Nat) (hm : m ≠ 16 + wAx x.w) : u.reg m = t.reg m := by
    rw [hu]
    exact reg_postModify_of_ne _ _ _ _ hm
  refine ⟨Thread.goesOn_advance hframe, fun m hm => ?_, fun hne => ⟨?_, ?_⟩, hv, hvacc, hcc, hflags⟩
  · rw [hdual, reg_postModify_of_ne _ _ _ _ (fun e => hm (Or.inr e)), hfirst _ (fun e => hm (Or.inl e))]
  · rw [hdual, reg_postModify_of_ne _ _ _ _ (by omega), hu, reg_postModify_self _ _ _ _ hr hx hpmx]
  · rw [hdual, reg_postModify_self _ _ _ _ hur hy hpmy, hfirst _ (by omega), hfirst _ (by omega)]

/-! #### Accumulators (R394, R395) -/

theorem toInt_ofInt_40 {v : Int} (hlo : -549755813888 ≤ v) (hhi : v ≤ 549755813887) : (BitVec.ofInt 40 v).toInt = v := by
  rw [BitVec.toInt_ofInt, Int.bmod_eq_of_le] <;> omega

/-- A lane takes the exact sum, or the nearer end of its range with its saturation bit set. -/
theorem fixAdd_eq (l : FixLane) (p : Int) :
    (fixAdd l p).v.toInt = max (-549755813888) (min 549755813887 (l.v.toInt + p)) ∧
      ((fixAdd l p).sat = true ↔ l.sat = true ∨ l.v.toInt + p < -549755813888 ∨ 549755813887 < l.v.toInt + p) := by
  simp only [fixAdd]
  split
  next h => exact ⟨by rw [toInt_ofInt_40 (by omega) (by omega)]; omega, by simp [h]⟩
  next h =>
    split
    next h' => exact ⟨by rw [toInt_ofInt_40 (by omega) (by omega)]; omega, by simp [h']⟩
    next h' => exact ⟨by rw [toInt_ofInt_40 (by omega) (by omega)]; omega, by simp [h, h']⟩

section
variable {t : Thread}

theorem Thread.accLane_setAcc_self (ht : t.vacc.length = 4) {a : Nat} (ha : a < 4) (ls : List FixLane) (n : Nat) :
    (t.setAcc a ls).accLane a n = ls.getD n ⟨0, false⟩ := by
  simp [Thread.accLane, Thread.setAcc, List.getD_eq_getElem?_getD, ht, ha]

theorem Thread.getD_vacc_setAcc_of_ne {a m : Nat} (h : m ≠ a) (ls : List FixLane) :
    (t.setAcc a ls).vacc.getD m [] = t.vacc.getD m [] := by
  simp [Thread.setAcc, List.getD_eq_getElem?_getD, List.getElem?_set_ne (Ne.symm h)]

end

theorem Slot3.accLane_mac (x : Slot3) (op : Nat) (f : Bytes → Bytes → Nat → Int) (ht : x.t.vacc.length = 4)
    (hp : wP x.w = false) {k : Nat} (hk : k < 16) :
    (x.mac op f).accLane (wT x.w) k =
      fixAdd (x.t.accLane (wT x.w) k) (f (x.c.load x.ax dualSize) (x.c.load x.ay dualSize) k) := by
  have hconst : x.pConst = none := by simp [Slot3.pConst, hp]
  rw [Slot3.mac, Thread.accLane_setAcc_self ht (wT_lt x.w)]
  simp [List.getD_eq_getElem?_getD, hk, hconst]

section
variable {s : State} {cls op core thread : Nat} {x : Slot3}

theorem State.dual_of_none (h : s.issues cls op core thread x) (hnone : x.dualTrap = none) (f : Slot3 → State × Thread) :
    s.dual cls op core thread f = .next ((f x).1.setThread core thread (x.dualModify (f x).2).advance) :=
  State.issue_of_next h (by simp only [hnone])

theorem State.dual_of_trap (h : s.issues cls op core thread x) {cause : Nat} (htrap : x.dualTrap = some cause)
    (f : Slot3 → State × Thread) : s.dual cls op core thread f = .next (s.trapThread core thread cause) :=
  State.issue_of_trap h (by simp only [htrap])

end

/-- Settles O46: the traps by their order, the operands by what both modifications of an address register leave. -/
theorem dualOperands : Obligations.DualOperands := by
  intro s core thread x hshaped ax ay a b walked
  obtain ⟨hr, hv, hacc, -⟩ := hshaped
  have hwalked {t : Thread} (htr : t.r = x.t.r) (hcc : t.cc = x.t.cc) (hflags : t.flags = x.t.flags)
      (hframe : t.frame = x.t.frame) : walked (x.dualModify t).advance := by
    obtain ⟨hgoes, hkeep, hself, -, -, hcc', hflags'⟩ := x.dualModify_eq (t := t) (by rw [htr, hr])
    have hreg (m : Nat) : t.reg m = x.t.reg m := by rw [Thread.reg, htr]; rfl
    simp only [hreg] at hkeep hself
    exact ⟨Thread.goesOn_of_frame hframe hgoes, hkeep, hself, hcc'.trans hcc, hflags'.trans hflags⟩
  have hrest {t : Thread} (htr : t.r.length = 32) : (x.dualModify t).v = t.v ∧ (x.dualModify t).vacc = t.vacc := by
    obtain ⟨-, -, -, hv, hvacc, -, -⟩ := x.dualModify_eq htr
    exact ⟨hv, hvacc⟩
  refine ⟨fun hnone => ⟨fun i op p hi h => ?mac, fun h => ?ld2, fun h => ?ldst⟩, fun i cls op hi h => ?traps, fun h => ?aclr⟩
  case mac =>
    have hmac {op : Nat} (f : Bytes → Bytes → Nat → Int) (h : s.issues 3 op core thread x) :
        ∃ y : Thread, s.dual 3 op core thread (fun x => (s, x.mac op f)) = .next (s.setThread core thread y) ∧ walked y ∧
          y.v = x.t.v ∧ (∀ m, m ≠ wT x.w → y.vacc.getD m [] = x.t.vacc.getD m []) ∧
          (wP x.w = false → ∀ k, k < 16 → y.accLane (wT x.w) k = fixAdd (x.t.accLane (wT x.w) k) (f a b k)) := by
      obtain ⟨hv, hvacc⟩ := hrest (t := x.mac op f) hr
      refine ⟨_, State.dual_of_none h hnone _, hwalked rfl rfl rfl rfl, hv, fun m hm => ?_, fun hp k hk => ?_⟩
      · rw [Thread.advance_vacc, hvacc]
        exact Thread.getD_vacc_setAcc_of_ne hm _
      · rw [Thread.accLane_advance, Thread.accLane, hvacc]
        exact x.accLane_mac op f hacc hp hk
    have hlanes {op : Nat} (f : Bytes → Bytes → Nat → Int) (h : s.issues 3 op core thread x) :
        ∃ y : Thread, s.dual 3 op core thread (fun x => (s, x.mac op f)) = .next (s.setThread core thread y) ∧ walked y ∧
          y.v = x.t.v ∧ (∀ m, m ≠ wT x.w → y.vacc.getD m [] = x.t.vacc.getD m []) ∧
          (wP x.w = false → ∀ k, k < 16 →
            let sum := (x.t.accLane (wT x.w) k).v.toInt + f a b k
            (y.accLane (wT x.w) k).v.toInt = max (-549755813888) (min 549755813887 sum) ∧
            ((y.accLane (wT x.w) k).sat = true ↔ (x.t.accLane (wT x.w) k).sat = true ∨ sum < -549755813888 ∨
              549755813887 < sum)) := by
      obtain ⟨y, hexec, hw, hv, hother, hlane⟩ := hmac f h
      refine ⟨y, hexec, hw, hv, hother, fun hp k hk => ?_⟩
      rw [hlane hp k hk]
      exact fixAdd_eq _ _
    simp only [List.mem_cons, List.not_mem_nil, or_false, Prod.mk.injEq] at hi
    rcases hi with ⟨rfl, rfl, rfl⟩ | ⟨rfl, rfl, rfl⟩
    · exact hlanes mac16Lane h
    · exact hlanes mac8Lane h
  case ld2 =>
    exact ⟨_, State.dual_of_none h hnone _, hwalked rfl rfl rfl rfl,
      (hrest (t := x.dualRead (x.c.load x.ax dualSize) (x.c.load x.ay dualSize)) hr).2⟩
  case ldst =>
    refine ⟨_, _, State.dual_of_none h hnone _, hwalked rfl rfl rfl rfl,
      (hrest (t := x.dualRead (x.c.load x.ax dualSize) []) hr).2, rfl, fun e he => ?_⟩
    refine Mem.read_write_outside _ _ _ _ _ ?_
    have hlen : (fit dualSize (Config.dualStore (wT x.w) x.pConst x.t.v)).length = 32 := by
      simp [fit, zeros, dualSize]
      omega
    rw [hlen]
    exact he
  case traps =>
    have hdual {cls op : Nat} (f : Slot3 → State × Thread) (h : s.issues cls op core thread x) :
        (x.c.twin = true → wP x.w = true → s.dual cls op core thread f = .next (s.trapThread core thread 6)) ∧
        ((x.c.twin = false ∨ wP x.w = false) → ax % 32 ≠ 0 ∨ ay % 32 ≠ 0 →
          s.dual cls op core thread f = .next (s.trapThread core thread 1)) ∧
        (x.c.twin = false → ax % 32 = 0 → ay % 32 = 0 → 65536 ≤ ax ∨ ay < 65536 →
          s.dual cls op core thread f = .next (s.trapThread core thread 2)) ∧
        ((x.c.twin = true → wP x.w = false) → ax % 32 = 0 → ay % 32 = 0 →
          (x.c.twin = false → ax < 65536 ∧ 65536 ≤ ay) → x.dualTrap = none) := by
      have hbank : (!bankX x.ax || bankX x.ay) = decide (65536 ≤ ax ∨ ay < 65536) := by
        rw [Bool.eq_iff_iff]
        simp only [bankX, Bool.or_eq_true, Bool.not_eq_true', decide_eq_false_iff_not, decide_eq_true_eq, not_lt]
        exact Iff.rfl
      refine ⟨fun htwin hp => State.dual_of_trap h (Slot3.dualTrap_of_twin htwin hp) f,
        fun hp hal => State.dual_of_trap h (Slot3.dualTrap_of_misaligned ?_ hal) f,
        fun htwin hx hy hbanks => State.dual_of_trap h ?_ f, fun hp hx hy hbanks => ?_⟩
      · rcases hp with hp | hp <;> simp [hp]
      · rw [Slot3.dualTrap_of_aligned (by simp [htwin]) hx hy, hbank]
        simp [htwin, hbanks]
      · have hclear : (x.c.twin && wP x.w) = false := by
          cases htwin : x.c.twin
          · rfl
          · exact hp htwin
        rw [Slot3.dualTrap_of_aligned hclear hx hy, hbank]
        cases htwin : x.c.twin
        · have := hbanks htwin
          simp
          omega
        · simp
    simp only [List.mem_cons, List.not_mem_nil, or_false, Prod.mk.injEq] at hi
    rcases hi with ⟨rfl, rfl, rfl⟩ | ⟨rfl, rfl, rfl⟩ | ⟨rfl, rfl, rfl⟩ | ⟨rfl, rfl, rfl⟩
    · exact hdual _ h
    · exact hdual _ h
    · exact hdual _ h
    · exact hdual _ h
  case aclr =>
    refine ⟨_, State.issueReg_of_issues h _, Thread.goesOn_advance rfl, rfl, rfl, rfl, rfl,
      fun m hm => Thread.getD_vacc_setAcc_of_ne hm _, fun k hk => ?_⟩
    rw [Thread.accLane_advance, Thread.accLane_setAcc_self hacc (wT_lt x.w), List.getD_eq_getElem?_getD,
      List.getElem?_replicate_of_lt hk]
    rfl

end Sys2Proof.Machine

/-! ### The address-program instructions (O37) -/

namespace Sys2Proof.Machine

section
variable {s : State} {n op : Nat} {x : Stream} {r : Run}

theorem State.addressOp_of_next (hrun : s.streamRun n = some (x, r)) (hcompleting : s.completing = true)
    (hphase : x.phase = .running) (hform : descForm x.desc = 0) (hdesc : x.desc ≠ []) (hdone : x.prog.done = false)
    (hop : apOp (x.prog.word x.desc) = op) (f : Stream → Run → State) : s.addressOp n op f = .next (f x r) := by
  have hempty : x.desc.isEmpty = false := by simpa using hdesc
  simp [State.addressOp, hrun, hcompleting, hphase, hform, hempty, hdone, hop]

end

section
variable {x : Stream}

theorem Stream.settle_eq (x : Stream) : x.settle = { x with phase := x.settle.phase } := by
  rw [Stream.settle]
  split <;> rfl

theorem Stream.tiles_settle (x : Stream) : x.settle.tiles = x.tiles := by
  rw [Stream.settle_eq]
  rfl

theorem Stream.phase_settle_of_open (hform : descForm x.desc = 0) (hdone : x.prog.done = false) :
    x.settle.phase = x.phase := by
  simp [Stream.settle, hform, hdone]

theorem Stream.phase_settle_of_done (hdone : x.prog.done = true) (htiles : x.tiles ≤ x.tile) :
    x.settle.phase = .ended (if x.prog.misaligned then 2 else 0) := by
  simp [Stream.settle, hdone, htiles, Stream.status]

/-- A running stream whose program moved on: only its program and, once the sequence is known, its phase change. -/
theorem Stream.settle_withProg (p : AddrProg) (hform : descForm x.desc = 0) (hphase : x.phase = .running) :
    let y := ({ x with prog := p } : Stream).settle
    y.prog = p ∧ y = { x with prog := y.prog, phase := y.phase } ∧ (y.prog.done = false → y.phase = .running) ∧
      (y.prog.done = true → y.tiles ≤ x.tile → y.phase = .ended (if y.prog.misaligned then 2 else 0)) := by
  intro y
  obtain ⟨z, hz⟩ : ∃ z : Stream, z = { x with prog := p } := ⟨_, rfl⟩
  have hy : y = { z with phase := y.phase } := by rw [hz]; exact Stream.settle_eq _
  have hprog : y.prog = p := by rw [hy, hz]
  have htiles : y.tiles = z.tiles := by rw [hz]; exact Stream.tiles_settle _
  refine ⟨hprog, ?_, fun hdone => ?_, fun hdone hle => ?_⟩
  · rw [hprog]
    exact hy.trans (by rw [hz])
  · exact (Stream.phase_settle_of_open (x := { x with prog := p }) hform (hprog ▸ hdone)).trans hphase
  · rw [htiles, hz] at hle
    rw [hprog]
    exact Stream.phase_settle_of_done (x := { x with prog := p }) (hprog ▸ hdone) hle

end

/-! #### What each instruction makes of the program's registers -/

theorem apX_lt (w : BitVec 16) : apX w < 4 := Nat.mod_lt _ (by decide)

theorem getD_set_self_of_length {α : Type} {l : List α} {n k : Nat} (hl : l.length = n) (hk : k < n) (a d : α) :
    (l.set k a).getD k d = a := by
  simp [List.getD_eq_getElem?_getD, hl, hk]

theorem getD_set_of_ne {α : Type} (l : List α) {k m : Nat} (h : m ≠ k) (a d : α) : (l.set k a).getD m d = l.getD m d := by
  simp [List.getD_eq_getElem?_getD, List.getElem?_set_ne (Ne.symm h)]

section
variable {p : AddrProg} {d : Bytes}

theorem AddrProg.bytes_emit (e : Nat) : (p.emit d).bytes e = p.bytes e + apN (p.word d) * e := by
  simp [AddrProg.bytes, AddrProg.emit, sumBy, List.foldl_append]

theorem AddrProg.open_of_zero (h : descCount d (apB (p.word d)) = 0) :
    p.open_ d = { p with
      pc := loopEnd d (apX (p.word d)) 16 (p.pc + 1), steps := p.steps + 1, loops := p.loops.set (apX (p.word d)) 0 } :=
  if_pos h

theorem AddrProg.open_of_ne_zero (h : descCount d (apB (p.word d)) ≠ 0) :
    p.open_ d = { p.after with
      loops := p.loops.set (apX (p.word d)) (descCount d (apB (p.word d)))
      openLevels := (apX (p.word d), p.pc + 1) :: p.openLevels } := if_neg h

theorem AddrProg.loop_of_last (h : p.loops.getD (apX (p.word d)) 0 = 1) :
    p.loop d = { p.after with
      loops := p.loops.set (apX (p.word d)) (p.loops.getD (apX (p.word d)) 0 - 1)
      openLevels := p.openLevels.filter (fun e => e.1 != apX (p.word d)) } :=
  if_pos (by rw [h]; rfl)

theorem AddrProg.loop_of_again (h : p.loops.getD (apX (p.word d)) 0 ≠ 1) {b : Nat}
    (hopen : p.openLevels.head? = some (apX (p.word d), b)) :
    p.loop d = { p.after with
      loops := p.loops.set (apX (p.word d)) (p.loops.getD (apX (p.word d)) 0 - 1), pc := b } := by
  obtain ⟨rest, hlevels⟩ : ∃ rest, p.openLevels = (apX (p.word d), b) :: rest := by
    cases hl : p.openLevels with
    | nil => simp [hl] at hopen
    | cons e rest =>
      rw [hl, List.head?_cons, Option.some.injEq] at hopen
      exact ⟨rest, by rw [hopen]⟩
  have hcount : p.loops.getD (apX (p.word d)) 0 - 1 ≠ 0 := fun hzero => h (by bv_omega)
  have hfind : p.openLevels.find? (fun e => e.1 == apX (p.word d)) = some (apX (p.word d), b) := by
    rw [hlevels, List.find?_cons_of_pos (by simp)]
  simp only [AddrProg.loop, if_neg hcount, hfind]

end

/-- Settles O37: each instruction is the stream with its program moved on, settled. -/
theorem addressPrograms : Obligations.AddressPrograms := by
  intro s n x r hrun hcompleting hphase hform hdesc hdone hx hloops p d w e a goes
  have hop {op : Nat} (hw : apOp w = op) (f : Stream → Run → State) : s.addressOp n op f = .next (f x r) :=
    State.addressOp_of_next hrun hcompleting hphase hform hdesc hdone hw f
  have hgoes (i : Instr) (q : AddrProg → Prop) (m : AddrProg) (hexec : exec i s = .next (s.withProg n x m)) (hq : q m) :
      goes i q := by
    obtain ⟨hprog, hkeep, hopen, hended⟩ := Stream.settle_withProg (x := x) m hform hphase
    exact ⟨_, hexec, hprog.symm ▸ hq, hkeep, hopen, hended⟩
  clear_value goes
  have hlevel : apX w < 4 := apX_lt w
  have haligned (hal : a % e = 0) : ¬ (a % e != 0) = true := by simp [hal]
  refine ⟨fun hw => ?end_, fun hw => ?setb, fun hw => ?adds, fun hw hal hfit => ?emit, fun hw hal => ?misaligned,
    fun hw hal hbig => (hop hw _).trans ?malformed, fun hw hc => ?opens, fun hw hc => ?passes, fun hw b hb => ?loop⟩
  case end_ => exact hgoes (.apEnd n) _ p.finish (hop hw _) ⟨rfl, rfl, rfl⟩
  case setb =>
    refine hgoes (.apSetb n) _ (p.setb d) (hop hw _) ⟨?_, fun k hk => getD_set_of_ne _ hk _ _, rfl, rfl, rfl, hdone⟩
    exact getD_set_self_of_length hx hlevel _ _
  case adds =>
    refine hgoes (.apAdds n) _ (p.adds d) (hop hw _) ⟨?_, fun k hk => getD_set_of_ne _ hk _ _, rfl, rfl, rfl, hdone⟩
    exact getD_set_self_of_length hx hlevel _ _
  case emit =>
    refine hgoes (.apEmit n) _ (p.emit d) ((hop hw _).trans ?_)
      ⟨rfl, ?_, fun k hk => getD_set_of_ne _ hk _ _, rfl, AddrProg.bytes_emit e, hdone⟩
    · exact congrArg Host.Outcome.next ((if_neg (haligned hal)).trans (if_neg (Nat.not_lt.mpr hfit)))
    · exact getD_set_self_of_length hx hlevel _ _
  case misaligned =>
    refine hgoes (.apEmit n) _ { p with done := true, misaligned := true, steps := p.steps + 1 } ((hop hw _).trans ?_)
      ⟨rfl, rfl, rfl⟩
    exact congrArg Host.Outcome.next (if_pos (bne_iff_ne.mpr hal))
  case malformed => exact congrArg Host.Outcome.next ((if_neg (haligned hal)).trans (if_pos hbig))
  case opens =>
    refine hgoes (.apDo n) _ (p.open_ d) (hop hw _) ?_
    rw [AddrProg.open_of_ne_zero hc]
    exact ⟨getD_set_self_of_length hloops hlevel _ _, rfl, rfl, rfl, rfl⟩
  case passes =>
    refine hgoes (.apDo n) _ (p.open_ d) (hop hw _) ?_
    rw [AddrProg.open_of_zero hc]
    exact ⟨rfl, rfl, rfl, rfl⟩
  case loop =>
    refine hgoes (.apLoop n) _ (p.loop d) (hop hw _) ?_
    by_cases hlast : p.loops.getD (apX w) 0 = 1
    · rw [AddrProg.loop_of_last hlast]
      exact ⟨getD_set_self_of_length hloops hlevel _ _, rfl, rfl, fun hne => absurd hlast hne,
        fun _ => ⟨rfl, fun l hl => by simpa using (List.mem_filter.mp hl).2⟩⟩
    · rw [AddrProg.loop_of_again hlast hb]
      exact ⟨getD_set_self_of_length hloops hlevel _ _, rfl, rfl, fun _ => ⟨rfl, rfl⟩, fun h => absurd h hlast⟩

end Sys2Proof.Machine

/-! ### Messages on the network (O49) -/

namespace Sys2Proof.Machine

/-- A message for thread 3 of core 5, which waits in the network. -/
def waiting53 : Message := ⟨4, 0, 5, 3, 0, []⟩
/-- A message for thread 2 of core 5, at the head of core 4's send buffer. -/
def sent52 : Message := ⟨4, 0, 5, 2, 0, []⟩
/-- The receive queue of thread 2 of core 5 is full, another thread's message waits in the network, and core 4 has sent. -/
def crowdedNetwork : State :=
  { State.reset with
    board := { Board.inReset with sysResetN := true, perstN := true }
    trust := { Trust.reset [] [] with bootCode := 0, fw := some ⟨0, 1, 0⟩, resolved := true }
    glob := { State.reset.glob with ready := true }
    messages := [waiting53]
    cores := [(4, { Core.reset with sendBuf := [sent52] }),
      (5, { Core.reset with threads := [(2, { Thread.reset with recvQ := [sent52, sent52, sent52, sent52] })] })] }

/-- A message that finds its queue full waits behind those that wait in the network already. -/
theorem exec_messageDeliver_crowded :
    exec (.messageDeliver 5 2) crowdedNetwork = .next { crowdedNetwork with
      messages := [waiting53, sent52]
      cores := FMap.set crowdedNetwork.cores 4 { Core.reset with sendBuf := [] } } := by
  rfl

/-- Refutes O49: a message whose queue is full joins the end of those that wait in the network (R361), not their front. -/
theorem not_coreMessages : ¬ Obligations.CoreMessages := by
  intro h
  obtain ⟨-, hdeliver⟩ := h
  obtain ⟨-, hsent⟩ := hdeliver crowdedNetwork 5 2 (by decide) (by decide) (by decide)
  obtain ⟨t, hexec, -, -, -, -, -, hwaits⟩ := hsent 4 { Core.reset with sendBuf := [sent52] } sent52 [] (by decide) rfl rfl
  rw [exec_messageDeliver_crowded] at hexec
  cases hexec
  exact absurd (hwaits (by decide)) (by decide)

end Sys2Proof.Machine

/-! ### The tile instructions and the code look-ups (O48) -/

namespace Sys2Proof.Machine

/-! #### Memory written and read back -/

theorem readN_write_self (d : Byte) (m : Mem) (a : Nat) (b : Bytes) : Mem.readN d (Mem.write d m a b) a b.length = b := by
  apply List.ext_getElem (length_readN _ _ _ _)
  intro i hi hi'
  simp [Mem.readN, Mem.read_write_inside d m a i b hi', hi']

theorem readN_write_outside (d : Byte) (m : Mem) {a o n : Nat} {b : Bytes} (h : o + n ≤ a ∨ a + b.length ≤ o) :
    Mem.readN d (Mem.write d m a b) o n = Mem.readN d m o n := by
  refine List.map_congr_left fun i hi => Mem.read_write_outside _ _ _ _ _ ?_
  have hlt := List.mem_range.mp hi
  omega

theorem length_fit (n : Nat) (b : Bytes) : (fit n b).length = n := by
  simp only [fit, zeros, List.length_append, List.length_take, List.length_replicate]
  omega

theorem getD_fit_nil {n i : Nat} : (fit n []).getD i 0 = 0 := by
  by_cases h : i < n <;> simp [fit, zeros, List.getD_eq_getElem?_getD, List.getElem?_replicate, h]

theorem fit_of_length_eq {n : Nat} {b : Bytes} (h : b.length = n) : fit n b = b := by
  rw [fit_of_le_length h.ge, ← h, List.take_length]

/-! #### Shapes (Table 6.8) -/

section
variable {c : Nat} {y : Shape}

theorem shapeOf_bytes (h : shapeOf c = some y) : 0 < y.bytes ∧ y.bytes ≤ 8192 := by
  unfold shapeOf at h
  split at h <;> cases h <;> decide

theorem shapeOf_scaled (h : shapeOf c = some y) (hc : c ≤ 3) : y.elem = 4 := by
  interval_cases c <;> cases h <;> rfl

theorem tileNo_lt (h : shapeOf c = some y) (n : Nat) : tileNo c y n < y.count := by
  obtain ⟨hpos, hle⟩ := shapeOf_bytes h
  unfold tileNo
  split
  · assumption
  · exact Nat.mod_lt _ (Nat.div_pos hle hpos)

theorem tileAt_add_bytes_le (h : shapeOf c = some y) (n : Nat) : tileAt c y n + y.bytes ≤ 8192 := by
  have hlt := tileNo_lt h n
  calc tileAt c y n + y.bytes = (tileNo c y n + 1) * y.bytes := by rw [tileAt, Nat.add_mul, Nat.one_mul]
    _ ≤ y.count * y.bytes := Nat.mul_le_mul_right _ hlt
    _ ≤ 8192 := Nat.div_mul_le_self _ _

theorem tileAt_of_lt {n : Nat} (h : n < y.count) : tileAt c y n = n * y.bytes := by rw [tileAt, tileNo, if_pos h]

end

/-! #### A tile written -/

section
variable (c : Core) (at_ : Nat) (y : Shape)

theorem Core.tileWrite_onlyTile (b : Bytes) : c.onlyTile (c.tileWrite at_ y b) := rfl

theorem Core.tileWrite_outside (b : Bytes) :
    (∀ e, e < at_ ∨ at_ + y.bytes ≤ e → Mem.read 0 (c.tileWrite at_ y b).tile e = Mem.read 0 c.tile e) ∧
      ∀ e, e < at_ / 4 ∨ at_ / 4 + y.bytes / 4 ≤ e →
        Mem.read 0 (c.tileWrite at_ y b).scale e = Mem.read 0 c.scale e := by
  refine ⟨fun e he => Mem.read_write_outside _ _ _ _ _ (by rwa [length_fit]), fun e he => ?_⟩
  exact (Mem.read_clear _ _ _ _ _).trans (if_neg (by omega))

theorem Core.tileWrite_cleared :
    (∀ e, at_ ≤ e → e < at_ + y.bytes → Mem.read 0 (c.tileWrite at_ y []).tile e = 0) ∧
      ∀ e, at_ / 4 ≤ e → e < at_ / 4 + y.bytes / 4 → Mem.read 0 (c.tileWrite at_ y []).scale e = 0 := by
  refine ⟨fun e hlo hhi => ?_, fun e hlo hhi => (Mem.read_clear _ _ _ _ _).trans (if_pos ⟨hlo, hhi⟩)⟩
  obtain ⟨i, rfl⟩ := Nat.exists_eq_add_of_le hlo
  exact (Mem.read_write_inside _ _ _ _ _ (by rw [length_fit]; omega)).trans getD_fit_nil

theorem Core.tileRead_tileWrite {b : Bytes} (hb : b.length = y.bytes) : (c.tileWrite at_ y b).tileRead at_ y = b := by
  rw [Core.tileRead, Core.tileWrite, fit_of_length_eq hb, ← hb, readN_write_self]

end

/-! #### Accumulator tiles of FP32 elements -/

section
variable (c : Core) (at_ : Nat) {y : Shape} {es : List Elem}

theorem Core.putElems_outside (hes : 4 * es.length = y.bytes) :
    (∀ e, e < at_ ∨ at_ + y.bytes ≤ e → Mem.read 0 (c.putElems at_ es).tile e = Mem.read 0 c.tile e) ∧
      ∀ e, e < at_ / 4 ∨ at_ / 4 + y.bytes / 4 ≤ e → Mem.read 0 (c.putElems at_ es).scale e = Mem.read 0 c.scale e := by
  refine ⟨fun e he => Mem.read_write_outside _ _ _ _ _ ?_, fun e he => Mem.read_write_outside _ _ _ _ _ ?_⟩
  · rw [length_flatMap_leBytes]
    omega
  · rw [List.length_map]
    omega

theorem Core.putElems_elem (hes : 4 * es.length = y.bytes) {k : Nat} (hk : k < es.length) :
    num (Mem.readN 0 (c.putElems at_ es).tile at_ y.bytes) (4 * k) 4 = es[k].v.toNat ∧
      Mem.read 0 (c.putElems at_ es).scale (at_ / 4 + k) = BitVec.ofNat 8 es[k].level := by
  constructor
  · have hlen : (es.flatMap (fun e => leBytes 4 e.v.toNat)).length = y.bytes := by
      rw [length_flatMap_leBytes]
      omega
    have hnum := num_flatMap_leBytes 4 (fun e : Elem => e.v.toNat) es hk []
    rw [Core.putElems, ← hlen, readN_write_self, Nat.mul_comm]
    rw [List.append_nil] at hnum
    exact hnum.trans (Nat.mod_eq_of_lt es[k].v.isLt)
  · refine (Mem.read_write_inside _ _ _ _ _ (by rwa [List.length_map])).trans ?_
    simp [List.getD_eq_getElem?_getD, hk]

theorem Core.getD_elems {k : Nat} (hk : k < y.rows * y.cols) :
    (c.elems at_ y).getD k (0, 0) = (BitVec.ofNat 32 (num (Mem.readN 0 c.tile at_ y.bytes) (4 * k) 4),
      (Mem.read 0 c.scale (at_ / 4 + k)).toNat % 4) := by
  simp [Core.elems, Core.tileRead, List.getD_eq_getElem?_getD, hk]

theorem Core.length_elems : (c.elems at_ y).length = y.rows * y.cols := by simp [Core.elems]

end

/-! #### The tile instructions -/

section
variable {s : State} {op core thread : Nat} {x : Slot3}

theorem State.tileOp_of_next (h : s.issues 5 op core thread x) {y : Shape} (hy : shapeOf x.shapeCode = some y)
    {f : Slot3 → Shape → Issue} {t : State} {z : Thread} (hf : f x y = .next t z) :
    s.tileOp op core thread f = .next (t.setThread core thread z.advance) :=
  State.issue_of_next h (by simp only [hy]; exact hf)

theorem State.tileOp_of_reserved (h : s.issues 5 op core thread x) (hy : shapeOf x.shapeCode = none)
    (f : Slot3 → Shape → Issue) : s.tileOp op core thread f = .fault .reservedCode :=
  State.issue_of_reserved h (by simp only [hy])

end

/-- R393: a fold leaves the binary64 tile with each element added and clears the FP32 tile, which lies elsewhere. -/
theorem Core.fold_tiles (c : Core) {a b : Nat} {y : Shape} (hdisjoint : b + 2048 ≤ a ∨ a + y.bytes ≤ b)
    (f : Nat → Nat × Flags) :
    let d := (c.tileWrite b wideShape (((List.range 256).map f).flatMap (fun r => leBytes 8 r.1))).tileWrite a y []
    (∀ k, k < 256 → num (Mem.readN 0 d.tile b 2048) (8 * k) 8 = (f k).1 % 2 ^ 64) ∧
      ∀ e, (e < a ∨ a + y.bytes ≤ e) → (e < b ∨ b + 2048 ≤ e) → Mem.read 0 d.tile e = Mem.read 0 c.tile e := by
  intro d
  have hlen : (((List.range 256).map f).flatMap (fun r => leBytes 8 r.1)).length = wideShape.bytes := by
    rw [length_flatMap_leBytes, List.length_map, List.length_range]
    rfl
  refine ⟨fun k hk => ?_, fun e hea heb => ?_⟩
  · have hread : Mem.readN 0 d.tile b 2048 = ((List.range 256).map f).flatMap (fun r => leBytes 8 r.1) := by
      have hoff : Mem.readN 0 d.tile b 2048 =
          Mem.readN 0 (c.tileWrite b wideShape (((List.range 256).map f).flatMap (fun r => leBytes 8 r.1))).tile b 2048 :=
        readN_write_outside _ _ (by rwa [length_fit])
      exact hoff.trans (c.tileRead_tileWrite b wideShape hlen)
    have hnum := num_flatMap_leBytes 8 (fun r : Nat × Flags => r.1) ((List.range 256).map f) (n := k) (by simpa using hk) []
    rw [List.append_nil] at hnum
    rw [hread, Nat.mul_comm, hnum]
    simp
  · exact ((Core.tileWrite_outside _ a y []).1 e hea).trans ((c.tileWrite_outside b wideShape _).1 e heb)

/-! #### Code look-ups -/

/-- Vector registers written one after the other, from register d on. -/
def Thread.setVs (t : Thread) (d n : Nat) (g : Nat → BitVec 512) : Thread :=
  (List.range n).foldl (fun t k => t.setV (d + k) (g k)) t

section
variable (t : Thread) (d : Nat) (g : Nat → BitVec 512)

theorem Thread.setVs_succ (n : Nat) : t.setVs d (n + 1) g = (t.setVs d n g).setV (d + n) (g n) := by
  simp [Thread.setVs, List.range_succ]

theorem Thread.setVs_eq (n : Nat) : t.setVs d n g = { t with v := (t.setVs d n g).v } := by
  induction n with
  | zero => rfl
  | succ n ih =>
    rw [Thread.setVs_succ, Thread.setV]
    conv_lhs => rw [ih]

theorem Thread.length_setVs (n : Nat) : (t.setVs d n g).v.length = t.v.length := by
  induction n with
  | zero => rfl
  | succ n ih => rw [Thread.setVs_succ, Thread.setV, List.length_set, ih]

theorem Thread.vreg_setV_of_ne {n m : Nat} (v : BitVec 512) (h : m % 16 ≠ n % 16) : (t.setV n v).vreg m = t.vreg m := by
  simp only [Thread.vreg, Thread.setV, List.getD_eq_getElem?_getD, List.getElem?_set_ne (Ne.symm h)]

theorem Thread.vreg_setVs_of_ne {n m : Nat} (h : ∀ k, k < n → m % 16 ≠ (d + k) % 16) :
    (t.setVs d n g).vreg m = t.vreg m := by
  induction n with
  | zero => rfl
  | succ n ih =>
    rw [Thread.setVs_succ, Thread.vreg_setV_of_ne _ _ (h n (Nat.lt_succ_self n)),
      ih (fun k hk => h k (Nat.lt_succ_of_lt hk))]

theorem Thread.vreg_setVs_self (hv : t.v.length = 16) {n k : Nat} (hn : n ≤ 16) (hk : k < n) :
    (t.setVs d n g).vreg (d + k) = g k := by
  induction n with
  | zero => omega
  | succ n ih =>
    rw [Thread.setVs_succ]
    by_cases hlast : k = n
    · rw [hlast, Thread.vreg_setV_self (by rw [Thread.length_setVs, hv])]
    · rw [Thread.vreg_setV_of_ne _ _ (by omega), ih (by omega) (by omega)]

end

/-- Lane n of the results of a look-up, in the vector register that holds its sixteen. -/
theorem lane_of_results (rs : List (BitVec 32 × Flags)) (n : Nat) :
    lane (ofLanes (((rs.drop (16 * (n / 16))).take 16).map (fun r => r.1))) (n % 16) = (rs.map (fun r => r.1)).getD n 0 := by
  have hlt : n % 16 < 16 := Nat.mod_lt _ (by decide)
  have hindex : 16 * (n / 16) + n % 16 = n := Nat.div_add_mod n 16
  rw [lane_ofLanes _ hlt, List.map_take, List.map_drop, List.getD_eq_getElem?_getD, List.getD_eq_getElem?_getD,
    List.getElem?_take_of_lt hlt, List.getElem?_drop, hindex]

theorem Lookup.lane_coded {q : Lookup} (h : q.coded = true) (c : Core) (n : Nat) :
    (q.lane c n).1 = BitVec.ofNat 32 (sumBy (fun k => c.byteAt (q.table + k * 2 ^ q.bits + q.sub c n k)) (List.range q.m)) := by
  simp [Lookup.lane, h, Lookup.value, sumBy, List.foldl_map]

section
variable {s : State} {op bits count core thread : Nat} {x : Slot3}

theorem State.lookupOp_of_misaligned (h : s.issues 6 op core thread x)
    (hal : (x.lookup bits).table % 64 ≠ 0 ∨ (x.lookup bits).code % 8 ≠ 0) :
    s.lookupOp op bits count core thread = .next (s.trapThread core thread 1) :=
  State.issue_of_trap h (if_pos (by rwa [Bool.or_eq_true, bne_iff_ne, bne_iff_ne]))

theorem State.lookupOp_of_badM (h : s.issues 6 op core thread x) (ht : (x.lookup bits).table % 64 = 0)
    (hc : (x.lookup bits).code % 8 = 0) (hm : (x.lookup bits).m = 0 ∨ 256 < (x.lookup bits).m) :
    s.lookupOp op bits count core thread = .next (s.trapThread core thread 9) :=
  State.issue_of_trap h ((if_neg (by simp [ht, hc])).trans (if_pos (by simpa using hm)))

theorem wS1_lt (w : BitVec 32) : wS1 w < 32 := wBits_lt w 12 5

/-- A look-up whose operands are in order. -/
theorem lookupOp_of_ok (hshaped : x.t.shaped) (h : s.issues 6 op core thread x) (hcount : count / 16 ≤ 16)
    (ht : (x.lookup bits).table % 64 = 0) (hc : (x.lookup bits).code % 8 = 0) (hlo : 1 ≤ (x.lookup bits).m)
    (hhi : (x.lookup bits).m ≤ 256) :
    ∃ y : Thread, s.lookupOp op bits count core thread = .next (s.setThread core thread y) ∧ x.t.goesOn y ∧
      y.vacc = x.t.vacc ∧ y.cc = x.t.cc ∧ y.flags &&& x.t.flags = x.t.flags ∧ x.t.keepsRegs y (fun n => n = wS1 x.w) ∧
      y.reg (wS1 x.w) = (if x.w.getLsbD 1 then x.t.reg (wS1 x.w) + BitVec.ofNat 64 (count * (x.lookup bits).stride)
        else x.t.reg (wS1 x.w)) ∧
      x.t.keepsVecs y (fun n => ∃ k, k < count / 16 ∧ n = (wD x.w + k) % 16) ∧
      ∀ n, n < 16 * (count / 16) → n < count →
        lane (y.vreg (wD x.w + n / 16)) (n % 16) = ((x.lookup bits).lane x.c n).1 := by
  obtain ⟨hr, hv, -⟩ := hshaped
  obtain ⟨rs, hrs⟩ : ∃ rs, rs = (List.range count).map ((x.lookup bits).lane x.c) := ⟨_, rfl⟩
  obtain ⟨g, hg⟩ : ∃ g : Nat → BitVec 512, g = fun n => ofLanes (((rs.drop (16 * n)).take 16).map (fun r => r.1)) := ⟨_, rfl⟩
  obtain ⟨u, hu⟩ : ∃ u, u = (x.t.setVs (wD x.w) (count / 16) g).raise (rs.foldl (fun f r => f ||| r.2) 0) := ⟨_, rfl⟩
  have huv : u.v = (x.t.setVs (wD x.w) (count / 16) g).v := by rw [hu]; rfl
  have hur : u.r = x.t.r := by rw [hu, x.t.setVs_eq]; rfl
  have hother : u.frame = x.t.frame ∧ u.vacc = x.t.vacc ∧ u.cc = x.t.cc ∧ u.flags &&& x.t.flags = x.t.flags := by
    rw [hu, x.t.setVs_eq]
    exact ⟨rfl, rfl, rfl, Thread.raise_keeps_flags (t := x.t) _⟩
  obtain ⟨hframe, hvacc, hcc, hflags⟩ := hother
  obtain ⟨y, hy⟩ : ∃ y, y = if x.w.getLsbD 1 then
      u.setReg (wS1 x.w) (u.reg (wS1 x.w) + BitVec.ofNat 64 (count * (x.lookup bits).stride)) else u := ⟨_, rfl⟩
  have hureg (n : Nat) : u.reg n = x.t.reg n := by rw [Thread.reg, hur]; rfl
  have hykeeps : y.frame = u.frame ∧ y.v = u.v ∧ y.vacc = u.vacc ∧ y.cc = u.cc ∧ y.flags = u.flags := by
    rw [hy]
    split <;> exact ⟨rfl, rfl, rfl, rfl, rfl⟩
  obtain ⟨hyframe, hyv, hyvacc, hycc, hyflags⟩ := hykeeps
  have hvreg (m : Nat) : y.advance.vreg m = (x.t.setVs (wD x.w) (count / 16) g).vreg m := by
    simp only [Thread.vreg, Thread.advance_v, hyv, huv]
  refine ⟨y.advance, State.issue_of_next h ?_, Thread.goesOn_advance (hyframe.trans hframe), hyvacc.trans hvacc,
    hycc.trans hcc, ?_, fun n hn => ?_, ?_, fun n hn hne => ?_, fun n hn hcount' => ?_⟩
  · rw [hy, hu, hg, hrs]
    exact (if_neg (by simp [ht, hc])).trans (if_neg (by simp; omega))
  · rw [Thread.advance_flags, hyflags, hflags]
  · rw [Thread.reg_advance, hy, ← hureg n]
    split
    · exact Thread.reg_setReg_of_ne hn _
    · rfl
  · rw [Thread.reg_advance, hy, ← hureg]
    split
    · exact Thread.reg_setReg_self (hur ▸ hr) (wS1_lt x.w) _
    · rfl
  · rw [hvreg]
    refine Thread.vreg_setVs_of_ne _ _ _ fun k hk heq => hne ⟨k, hk, ?_⟩
    rwa [Nat.mod_eq_of_lt hn] at heq
  · rw [hvreg, Thread.vreg_setVs_self _ _ _ hv hcount (by omega), hg, lane_of_results, hrs]
    simp [List.getD_eq_getElem?_getD, hcount']

end

/-- Settles O48: tiles through the memory laws, look-ups through the registers written one after the other. -/
theorem tilesAndLookups : Obligations.TilesAndLookups := by
  refine ⟨fun s core thread x hshaped => ?tiles, fun s core thread x hshaped => ?lookups⟩
  case tiles =>
    intro code
    refine ⟨fun y hy => ?_, fun hnone i op hi h => ?reserved⟩
    · intro a outside cleared goes
      have hgoes (i : Instr) (q : Thread → Core → Prop) (f : Flags) (c : Core)
          (hexec : exec i s = .next ((s.setCore core c).setThread core thread (x.t.raise f).advance))
          (hc : x.c.onlyTile c) (hq : q (x.t.raise f).advance c) : goes i q :=
        ⟨_, c, hexec, Thread.goesOn_advance rfl, rfl, rfl, rfl, Thread.raise_keeps_flags (t := x.t) f, hc, hq⟩
      have hplain (i : Instr) (q : Thread → Core → Prop) (c : Core)
          (hexec : exec i s = .next ((s.setCore core c).setThread core thread x.t.advance))
          (hc : x.c.onlyTile c) (hq : q x.t.advance c) : goes i q :=
        ⟨_, c, hexec, Thread.goesOn_advance rfl, rfl, rfl, rfl, BitVec.and_self, hc, hq⟩
      clear_value goes
      refine ⟨tileAt_of_lt, tileAt_add_bytes_le hy _, fun h => ?tld, fun h => ?tst, fun h => ?tclr, fun h => ?tacc,
        fun h hcode htile hdisjoint => ?tfold, fun h hcode => ?tfoldOpen, fun h => ?tsts⟩
      case tld =>
        refine ⟨_, State.tileOp_of_next h hy rfl, Thread.goesOn_advance rfl, rfl, rfl, rfl, rfl, ?_⟩
        simp
      case tst =>
        exact hplain (.tst core thread) _ _ (State.tileOp_of_next h hy rfl) rfl ⟨rfl, rfl, Core.tileWrite_outside _ _ _ _⟩
      case tclr =>
        exact hplain (.tclr core thread) _ _ (State.tileOp_of_next h hy rfl) rfl
          ⟨rfl, rfl, Core.tileWrite_cleared _ _ _, Core.tileWrite_outside _ _ _ _⟩
      case tacc =>
        by_cases hscaled : code ≤ 3
        · obtain ⟨rs, hrs⟩ : ∃ rs, rs = (List.range (x.c.elems a y).length).map (fun k =>
              x.taccOn k ((x.c.elems a y).getD k (0, 0)).1 ((x.c.elems a y).getD k (0, 0)).2) := ⟨_, rfl⟩
          have hlen : rs.length = y.rows * y.cols := by rw [hrs, List.length_map, List.length_range, Core.length_elems]
          have hbytes : 4 * (rs.map (fun r => r.1)).length = y.bytes := by
            rw [List.length_map, hlen, Shape.bytes, shapeOf_scaled hy hscaled, Nat.mul_comm]
          refine hgoes (.tacc core thread) _ (rs.foldl (fun f r => f ||| r.2) 0) (x.c.putElems a (rs.map (fun r => r.1)))
            (State.tileOp_of_next h hy ?_) rfl ⟨rfl, Core.putElems_outside x.c a hbytes, fun _ k hk => ?_⟩
          · rw [hrs]
            exact if_pos (decide_eq_true hscaled)
          · have hk' : k < (rs.map (fun r => r.1)).length := by rwa [List.length_map, hlen]
            obtain ⟨hv, hlevel⟩ := Core.putElems_elem x.c a hbytes hk'
            have helem : (rs.map (fun r => r.1))[k] =
                (x.taccOn k (BitVec.ofNat 32 (num (Mem.readN 0 x.c.tile a y.bytes) (4 * k) 4))
                  ((Mem.read 0 x.c.scale (a / 4 + k)).toNat % 4)).1 := by
              simp only [hrs, List.getElem_map, List.getElem_range, Core.getD_elems x.c a hk]
            rw [helem] at hv hlevel
            exact ⟨hv, hlevel⟩
        · exact hplain (.tacc core thread) _ _ (State.tileOp_of_next h hy (if_neg (fun h => hscaled (of_decide_eq_true h)))) rfl
            ⟨rfl, Core.tileWrite_outside _ _ _ _, fun hle => absurd hle hscaled⟩
      case tfold =>
        have hb : tileAt 0x04 wideShape (wTile2 x.w) = wTile2 x.w * 2048 := tileAt_of_lt htile
        obtain ⟨f, hf⟩ : ∃ f : Nat → Nat × Flags, f = fun k =>
          foldElem (num (Mem.readN 0 x.c.tile (wTile2 x.w * 2048) 2048) (8 * k) 8) ((x.c.elems a y).getD k (0, 0)) :=
          ⟨_, rfl⟩
        have hy256 : y.rows * y.cols = 256 := by
          rw [hcode] at hy
          cases hy
          rfl
        have hlen : (x.c.elems a y).length = 256 := by rw [Core.length_elems, hy256]
        obtain ⟨hfold, hrest⟩ := x.c.fold_tiles hdisjoint f
        refine hgoes (.tfold core thread) _ (((List.range 256).map f).foldl (fun f r => f ||| r.2) 0) _
          (State.tileOp_of_next h hy ?_) ?_ ⟨rfl, Core.tileWrite_cleared _ _ _, fun k hk => ?_, hrest⟩
        · rw [hf, ← hlen, ← hb]
          exact if_pos (show x.shapeCode = 0 from hcode)
        · rfl
        · rw [hfold k hk, hf]
          simp only [Core.getD_elems x.c a (hy256 ▸ hk)]
      case tfoldOpen =>
        exact hplain (.tfold core thread) _ _ (State.tileOp_of_next h hy (if_neg hcode)) rfl
          ⟨rfl, Core.tileWrite_cleared _ _ _⟩
      case tsts =>
        exact hgoes (.tsts core thread) _ _ _ (State.tileOp_of_next h hy rfl) rfl ⟨rfl, Core.tileWrite_outside _ _ _ _⟩
    case reserved =>
      simp only [List.mem_cons, List.not_mem_nil, or_false, Prod.mk.injEq] at hi
      rcases hi with ⟨rfl, rfl⟩ | ⟨rfl, rfl⟩ | ⟨rfl, rfl⟩ | ⟨rfl, rfl⟩ | ⟨rfl, rfl⟩ | ⟨rfl, rfl⟩ <;>
        exact State.tileOp_of_reserved h hnone _
  case lookups =>
    intro table m code i op bits count hi h
    have hlookup {op bits count : Nat} (h : s.issues 6 op core thread x) (hcount : count % 16 = 0) (hle : count / 16 ≤ 16) :
        (table % 64 ≠ 0 ∨ code % 8 ≠ 0 → s.lookupOp op bits count core thread = .next (s.trapThread core thread 1)) ∧
        (table % 64 = 0 → code % 8 = 0 → m = 0 ∨ 256 < m →
          s.lookupOp op bits count core thread = .next (s.trapThread core thread 9)) ∧
        (table % 64 = 0 → code % 8 = 0 → 1 ≤ m → m ≤ 256 →
          let stride := roundUp (ceilDiv (m * bits) 8) 8
          ∃ y : Thread, s.lookupOp op bits count core thread = .next (s.setThread core thread y) ∧ x.t.goesOn y ∧
            y.vacc = x.t.vacc ∧ y.cc = x.t.cc ∧
            y.flags &&& x.t.flags = x.t.flags ∧ x.t.keepsRegs y (fun n => n = wS1 x.w) ∧
            y.reg (wS1 x.w) = (if x.w.getLsbD 1 then x.t.reg (wS1 x.w) + BitVec.ofNat 64 (count * stride)
              else x.t.reg (wS1 x.w)) ∧
            x.t.keepsVecs y (fun n => ∃ k, k < count / 16 ∧ n = (wD x.w + k) % 16) ∧
            (∀ n, n < count → lane (y.vreg (wD x.w + n / 16)) (n % 16) = ((x.lookup bits).lane x.c n).1) ∧
            (x.w.getLsbD 0 = true → ∀ n, n < count → lane (y.vreg (wD x.w + n / 16)) (n % 16) =
              BitVec.ofNat 32 (sumBy (fun k => x.c.byteAt (table + k * 2 ^ bits +
                (if bits = 8 then x.c.byteAt (code + n * stride + k)
                  else x.c.byteAt (code + n * stride + k / 2) / 16 ^ (k % 2) % 16))) (List.range m)))) := by
      refine ⟨State.lookupOp_of_misaligned h, State.lookupOp_of_badM h, fun ht hc hlo hhi => ?_⟩
      obtain ⟨y, hexec, hgoes, hvacc, hcc, hflags, hregs, hreg, hvecs, hlanes⟩ :=
        lookupOp_of_ok (bits := bits) hshaped h hle ht hc hlo hhi
      have hlane (n : Nat) (hn : n < count) := hlanes n (by omega) hn
      refine ⟨y, hexec, hgoes, hvacc, hcc, hflags, hregs, hreg, hvecs, hlane, fun hcoded n hn => ?_⟩
      exact (hlane n hn).trans (Lookup.lane_coded (q := x.lookup bits) hcoded x.c n)
    simp only [List.mem_cons, List.not_mem_nil, or_false, Prod.mk.injEq] at hi
    rcases hi with ⟨rfl, rfl, rfl, rfl⟩ | ⟨rfl, rfl, rfl, rfl⟩
    · exact hlookup h (by decide) (by decide)
    · exact hlookup h (by decide) (by decide)

end Sys2Proof.Machine

/-! ### What a command may change: footprints -/

namespace Sys2Proof.Machine

/-- The components of the state, by name. -/
inductive Comp where
  | pending | out | fresh | tbk | rings | skip | lastServed | cmds | fields | indexes | compactQueue | evaporators
  | queries | windows | nextWindow | order | ledger | cores | messages | runs | nextRun | streams | nextStream
  | channels | handleQueues | crossings | coulters | memRate | channelMib | granary | ownership | badChunks | modeA
  | modeD | served | units | ports | casc | trust | log | trace | counters | pert | glob | fns | time | board
  deriving DecidableEq

/-- State s with the components that m names taken from t. -/
def State.patch (m : List Comp) (s t : State) : State where
  pending := bif m.elem .pending then t.pending else s.pending
  out := bif m.elem .out then t.out else s.out
  fresh := bif m.elem .fresh then t.fresh else s.fresh
  tbk := bif m.elem .tbk then t.tbk else s.tbk
  rings := bif m.elem .rings then t.rings else s.rings
  skip := bif m.elem .skip then t.skip else s.skip
  lastServed := bif m.elem .lastServed then t.lastServed else s.lastServed
  cmds := bif m.elem .cmds then t.cmds else s.cmds
  fields := bif m.elem .fields then t.fields else s.fields
  indexes := bif m.elem .indexes then t.indexes else s.indexes
  compactQueue := bif m.elem .compactQueue then t.compactQueue else s.compactQueue
  evaporators := bif m.elem .evaporators then t.evaporators else s.evaporators
  queries := bif m.elem .queries then t.queries else s.queries
  windows := bif m.elem .windows then t.windows else s.windows
  nextWindow := bif m.elem .nextWindow then t.nextWindow else s.nextWindow
  order := bif m.elem .order then t.order else s.order
  ledger := bif m.elem .ledger then t.ledger else s.ledger
  cores := bif m.elem .cores then t.cores else s.cores
  messages := bif m.elem .messages then t.messages else s.messages
  runs := bif m.elem .runs then t.runs else s.runs
  nextRun := bif m.elem .nextRun then t.nextRun else s.nextRun
  streams := bif m.elem .streams then t.streams else s.streams
  nextStream := bif m.elem .nextStream then t.nextStream else s.nextStream
  channels := bif m.elem .channels then t.channels else s.channels
  handleQueues := bif m.elem .handleQueues then t.handleQueues else s.handleQueues
  crossings := bif m.elem .crossings then t.crossings else s.crossings
  coulters := bif m.elem .coulters then t.coulters else s.coulters
  memRate := bif m.elem .memRate then t.memRate else s.memRate
  channelMib := bif m.elem .channelMib then t.channelMib else s.channelMib
  granary := bif m.elem .granary then t.granary else s.granary
  ownership := bif m.elem .ownership then t.ownership else s.ownership
  badChunks := bif m.elem .badChunks then t.badChunks else s.badChunks
  modeA := bif m.elem .modeA then t.modeA else s.modeA
  modeD := bif m.elem .modeD then t.modeD else s.modeD
  served := bif m.elem .served then t.served else s.served
  units := bif m.elem .units then t.units else s.units
  ports := bif m.elem .ports then t.ports else s.ports
  casc := bif m.elem .casc then t.casc else s.casc
  trust := bif m.elem .trust then t.trust else s.trust
  log := bif m.elem .log then t.log else s.log
  trace := bif m.elem .trace then t.trace else s.trace
  counters := bif m.elem .counters then t.counters else s.counters
  pert := bif m.elem .pert then t.pert else s.pert
  glob := bif m.elem .glob then t.glob else s.glob
  fns := bif m.elem .fns then t.fns else s.fns
  time := bif m.elem .time then t.time else s.time
  board := bif m.elem .board then t.board else s.board

/-- From s to t only what m names changes. With a concrete m, `congrArg` of a projection not in m gives that component. -/
def Within (m : List Comp) (s t : State) : Prop := t = s.patch m t

/-- Every component of one footprint is one of another. -/
def covers (n m : List Comp) : Bool := m.all n.elem

theorem cond_cond_of_imp {α : Type} {m n : Bool} (h : m = true → n = true) (a b c : α) :
    (bif n then (bif m then a else b) else c) = bif m then a else (bif n then b else c) := by
  cases m with
  | false => rfl
  | true => rw [h rfl]; rfl

theorem State.patch_patch_of_covers {m n : List Comp} (h : covers n m = true) (r s t : State) :
    r.patch n (s.patch m t) = (r.patch n s).patch m t := by
  have himp : ∀ c, m.elem c = true → n.elem c = true := fun c hc =>
    List.all_eq_true.mp h c (List.elem_iff.mp hc)
  unfold State.patch
  congr 1 <;> exact cond_cond_of_imp (himp _) _ _ _

theorem Within.refl (m : List Comp) (s : State) : Within m s s := by
  simp only [Within, State.patch, Bool.cond_self]

/-- A change within a smaller footprint that follows. -/
theorem Within.then {m n : List Comp} {r s t : State} (h : Within n r s) (g : Within m s t) (hle : covers n m = true) :
    Within n r t := by
  unfold Within at h g ⊢
  rw [g, State.patch_patch_of_covers hle, ← h]

theorem Within.mono {m n : List Comp} {s t : State} (g : Within m s t) (hle : covers n m = true) : Within n s t :=
  (Within.refl n s).then g hle

theorem Within.trans {m : List Comp} {r s t : State} (h : Within m r s) (g : Within m s t) : Within m r t :=
  h.then g (List.all_eq_true.mpr fun _ => List.elem_iff.mpr)

/-- What the footprint leaves as it was. -/
theorem Within.get {α : Type} {m : List Comp} {s t : State} (h : Within m s t) (p : State → α)
    (hp : ∀ u, p (s.patch m u) = p s) : p t = p s := (congrArg p h).trans (hp t)

theorem Within.ite {m : List Comp} {r a b : State} {c : Prop} [Decidable c] (ha : Within m r a) (hb : Within m r b) :
    Within m r (if c then a else b) := by split <;> assumption

theorem Within.foldl {m : List Comp} {α : Type} {r : State} (f : State → α → State) (l : List α)
    (hf : ∀ s a, Within m r s → Within m r (f s a)) : ∀ {s : State}, Within m r s → Within m r (l.foldl f s) := by
  induction l with
  | nil => exact fun h => h
  | cons a l ih => exact fun h => ih (hf _ a h)

theorem Within.count (s : State) (g pos n : Nat) :
    Within [.counters] s (s.count g pos n) := rfl

theorem Within.setField (s : State) (f : Nat) (x : Field) :
    Within [.fields] s (s.setField f x) := rfl

theorem Within.modField (s : State) (f : Nat) (g : Field → Field) :
    Within [.fields] s (s.modField f g) := by
  unfold State.modField
  with_reducible repeat' first
    | exact Within.refl _ _ | assumption | refine Within.then ?_ (Within.setField _ _ _) ?_ | split | dsimp only
    | decide

theorem Within.countField (s : State) (f pos n : Nat) :
    Within [.fields] s (s.countField f pos n) := by
  unfold State.countField
  with_reducible repeat' first
    | exact Within.refl _ _ | assumption | refine Within.then ?_ (Within.modField _ _ _) ?_ | split | dsimp only
    | decide

theorem Within.usePages (s : State) (f : Nat) (p : Page → Bool) :
    Within [.fields] s (s.usePages f p) := by
  unfold State.usePages
  with_reducible repeat' first
    | exact Within.refl _ _ | assumption | refine Within.then ?_ (Within.modField _ _ _) ?_ | split | dsimp only
    | decide

theorem Within.countLookup (s : State) (f slice : Nat) (hit : Bool) :
    Within [.fields, .counters] s (s.countLookup f slice hit) := by
  unfold State.countLookup
  with_reducible repeat' first
    | exact Within.refl _ _ | assumption | refine Within.then ?_ (Within.modField _ _ _) ?_
    | refine Within.then ?_ (Within.count _ _ _ _) ?_ | refine Within.then ?_ (Within.countField _ _ _ _) ?_ | split
    | dsimp only | decide

theorem Within.traceRec (s : State) (src field unit : Nat) (a b : BitVec 64) :
    Within [.trace, .counters] s (s.traceRec src field unit a b) := by
  unfold State.traceRec
  with_reducible repeat' first
    | exact Within.refl _ _ | assumption | refine Within.then ?_ (Within.count _ _ _ _) ?_ | split | dsimp only
    | decide | with_unfolding_all exact rfl

theorem Within.setFn (s : State) (fn : Nat) (x : FnRegs) :
    Within [.fns] s (s.setFn fn x) := rfl

theorem Within.setRing (s : State) (r : Nat) (x : Ring) :
    Within [.rings] s (s.setRing r x) := rfl

theorem Within.signalled (s : State) (r : Option Nat) :
    Within [.rings] s (s.signalled r) := by
  unfold State.signalled
  with_reducible repeat' first
    | exact Within.refl _ _ | assumption | refine Within.then ?_ (Within.setRing _ _ _) ?_ | split | dsimp only
    | decide

theorem Within.emit (s : State) (o : Out) :
    Within [.out] s (s.emit o) := rfl

theorem Within.raiseVector (s : State) (fn v : Nat) :
    Within [.out, .rings, .fns] s (s.raiseVector fn v) := by
  unfold State.raiseVector
  with_reducible repeat' first
    | exact Within.refl _ _ | assumption | refine Within.then ?_ (Within.signalled _ _) ?_
    | refine Within.then ?_ (Within.setFn _ _ _) ?_ | refine Within.then ?_ (Within.emit _ _) ?_ | split
    | dsimp only | decide

theorem Within.setEvent (s : State) (fn bit : Nat) :
    Within [.out, .rings, .fns] s (s.setEvent fn bit) := by
  have hset : Within [.out, .rings, .fns] s (s.setFn fn { s.fn fn with cause := (s.fn fn).cause ||| (1#32 <<< bit) }) :=
    (Within.setFn s fn _).mono (by decide)
  exact Within.ite (hset.then (Within.raiseVector _ _ _) (by decide)) hset

theorem Within.appendLog (s : State) (code field sev unit : Nat) (detail : Bytes) :
    Within [.out, .rings, .log, .counters, .fns] s (s.appendLog code field sev unit detail) := by
  unfold State.appendLog
  with_reducible repeat' first
    | exact Within.refl _ _ | assumption | refine Within.then ?_ (Within.count _ _ _ _) ?_
    | refine Within.then ?_ (Within.setEvent _ _ _) ?_ | split | dsimp only | decide | with_unfolding_all exact rfl

theorem Within.logEvent (s : State) (code field sev unit : Nat) (detail : Bytes) :
    Within [.out, .rings, .log, .counters, .fns] s (s.logEvent code field sev unit detail) := by
  unfold State.logEvent
  with_reducible repeat' first
    | exact Within.refl _ _ | assumption | refine Within.then ?_ (Within.appendLog _ _ _ _ _ _) ?_
    | refine Within.then ?_ (Within.setEvent _ _ _) ?_ | split | dsimp only | decide

theorem Within.setChannel (s : State) (c : Nat) (x : Channel) :
    Within [.channels] s (s.setChannel c x) := rfl

theorem Within.askNarrow (s : State) (x : Slot3) (c j : Nat) :
    Within [.channels] s (s.askNarrow x c j) := rfl

theorem Within.setCore (s : State) (c : Nat) (x : Core) :
    Within [.cores] s (s.setCore c x) := rfl

theorem Within.clearSlot (s : State) (core k : Nat) : Within [.fields, .cores, .streams] s (s.clearSlot core k) := by
  unfold State.clearSlot
  split
  · exact Within.refl _ _
  · dsimp only
    split
    · exact (Within.setCore s core _).mono (by decide)
    · refine Within.then ?_ (Within.countField _ _ _ _) (by decide)
      exact rfl
end Sys2Proof.Machine

/-! ### LDC, and the stream instructions SSTART, SWAIT and SPOLL (O47) -/

namespace Sys2Proof.Machine

/-! #### Lookups that follow the use of a page -/

theorem FMap.mem_set_of_mem {α : Type} {m : FMap α} {k : Nat} {a b : α} (hk : FMap.get? m k = some b) {p : Nat × α}
    (hp : p ∈ m) : p ∈ FMap.set m k a ∨ p = (k, b) := by
  induction m with
  | nil => cases hp
  | cons q t ih =>
    obtain ⟨j, c⟩ := q
    unfold FMap.set
    split
    · exact Or.inl (List.mem_cons_of_mem _ hp)
    next hlt =>
      split
      next heq =>
        subst heq
        simp only [FMap.get?, if_true, Option.some.injEq] at hk
        subst hk
        exact (List.mem_cons.mp hp).elim Or.inr (fun h => Or.inl (List.mem_cons_of_mem _ h))
      next hne =>
        simp only [FMap.get?, if_neg (Ne.symm hne)] at hk
        rcases List.mem_cons.mp hp with rfl | hp
        · exact Or.inl (List.mem_cons_self ..)
        · exact (ih hk hp).imp (List.mem_cons_of_mem _) id

theorem FMap.mem_of_get? {α : Type} {m : FMap α} {k : Nat} {a : α} (h : FMap.get? m k = some a) : (k, a) ∈ m := by
  induction m with
  | nil => cases h
  | cons q t ih =>
    obtain ⟨j, b⟩ := q
    unfold FMap.get? at h
    split at h
    next heq =>
      cases h
      exact heq ▸ List.mem_cons_self ..
    · exact List.mem_cons_of_mem _ (ih h)

/-- The pages of a field with new times of use. -/
def Field.withPages (x : Field) (g : Page → Page) : Field := { x with pages := x.pages.map g }

section
variable (s : State) (f : Nat) (g : Page → Page)

theorem State.field?_withPages (n : Nat) :
    (s.modField f (fun x => x.withPages g)).field? n = (s.field? n).map (fun x => if f = n then x.withPages g else x) := by
  rw [State.field?_modField]
  split
  next e => rw [e]
  · exact Option.map_id.symm ▸ rfl

theorem State.cfg_withPages (n : Nat) : (s.modField f (fun x => x.withPages g)).cfg n = s.cfg n := by
  rw [State.cfg, State.field?_withPages, State.cfg]
  cases s.field? n with
  | none => rfl
  | some x => by_cases e : f = n <;> simp [e, Field.withPages]

theorem State.fieldExists_withPages (n : Nat) :
    (s.modField f (fun x => x.withPages g)).fieldExists n = s.fieldExists n := by
  rw [State.fieldExists, State.field?_withPages, State.fieldExists]
  cases s.field? n with
  | none => rfl
  | some x => by_cases e : f = n <;> simp [e, Field.withPages]

theorem State.perturbIn_withPages (n : Nat) :
    (s.modField f (fun x => x.withPages g)).perturbIn n = s.perturbIn n := by
  simp only [State.perturbIn, State.cfg_withPages, State.fieldExists_withPages, State.perturbPermit, State.modField_trust]

theorem State.pertActs_withPages (n : Nat) : (s.modField f (fun x => x.withPages g)).pertActs n = s.pertActs n := by
  unfold State.pertActs
  simp only [State.perturbIn_withPages]
  split
  · cases hf : s.field? f with
    | none => simp only [State.modField, hf]
    | some x =>
      have hset : (s.modField f (fun x => x.withPages g)).fields = FMap.set s.fields f (x.withPages g) := by
        simp only [State.modField, hf]
        rfl
      rw [hset]
      have hmem : (f, x) ∈ s.fields := FMap.mem_of_get? hf
      rw [Bool.eq_iff_iff, List.all_eq_true, List.all_eq_true]
      constructor
      · intro hall p hp
        rcases FMap.mem_set_of_mem (a := x.withPages g) hf hp with h | rfl
        · exact hall p h
        · exact hall (f, x.withPages g) (FMap.mem_of_get? (FMap.get?_set_self s.fields f (x.withPages g)))
      · intro hall p hp
        rcases FMap.mem_set hp with rfl | h
        · exact hall (f, x) hmem
        · exact hall p h
  · rfl

theorem State.control_withPages (ctl n target : Nat) :
    (s.modField f (fun x => x.withPages g)).control ctl n target = s.control ctl n target := by
  simp only [State.control, State.modField_pert, State.pertActs_withPages]

theorem State.home_withPages (n c j : Nat) :
    (s.modField f (fun x => x.withPages g)).home n c j = s.home n c j := by
  have hplaceable (m : Nat) : (s.modField f (fun x => x.withPages g)).placeable 9 m = s.placeable 9 m := by
    simp only [State.placeable, State.unitState, State.unit, State.modField_units]
  have howned : (s.modField f (fun x => x.withPages g)).ownedSlices n = s.ownedSlices n := by
    simp only [State.ownedSlices, hplaceable, State.field?_withPages]
    cases s.field? n with
    | none => rfl
    | some x => by_cases e : f = n <;> simp [e, Field.withPages]
  simp only [State.home, State.modField_ownership, howned, hplaceable]

theorem State.forcedMiss_withPages (n slice : Nat) :
    (s.modField f (fun x => x.withPages g)).forcedMiss n slice = s.forcedMiss n slice := by
  simp only [State.forcedMiss, State.perturbIn_withPages, State.control_withPages, State.field?_withPages]
  cases s.field? n with
  | none => rfl
  | some x => by_cases e : f = n <;> simp [e, Field.withPages]

end

section
variable (s : State) (f c j : Nat)

theorem State.forcedMiss_usePages (p : Page → Bool) :
    (s.usePages f p).forcedMiss f ((s.usePages f p).home f c j) = s.forcedMiss f (s.home f c j) := by
  have hhome := s.home_withPages f (fun q => if p q then { q with lastUse := s.tbk } else q) f c j
  have hmiss := s.forcedMiss_withPages f (fun q => if p q then { q with lastUse := s.tbk } else q) f (s.home f c j)
  exact (congrArg (State.forcedMiss _ f) hhome).trans hmiss

end

/-! #### Lines of the Granary -/

section
variable {s : State} {f c j : Nat} {l : Line}

theorem State.lineOf_of_granary {s t : State} (h : t.granary = s.granary) (c j : Nat) : t.lineOf c j = s.lineOf c j := by
  rw [State.lineOf, h]
  rfl

theorem Line.at_of_lineOf (h : s.lineOf c j = some l) : l.channel = c ∧ l.j = j := by
  have hat := List.find?_some h
  rw [Line.at_, Bool.and_eq_true, beq_iff_eq, beq_iff_eq] at hat
  exact hat

theorem Line.at_self : l.at_ (l.channel, l.j) = true := by simp [Line.at_]

theorem State.lineOf_useLine (s : State) (l : Line) : (s.useLine l).lineOf l.channel l.j = some l :=
  List.find?_cons_of_pos Line.at_self

theorem State.lineOf_setLine {k : Line} (h : s.lineOf c j = some k) (hc : l.channel = c) (hj : l.j = j) :
    (s.setLine l).lineOf c j = some l := by
  subst hc hj
  have hat : l.at_ (l.channel, l.j) = true := Line.at_self
  have hfind : s.granary.find? (fun x => x.at_ (l.channel, l.j)) = some k := h
  change (s.granary.map (fun x => if x.at_ (l.channel, l.j) then l else x)).find? (fun x => x.at_ (l.channel, l.j)) = some l
  rw [List.find?_map]
  have hsame : ((fun x : Line => x.at_ (l.channel, l.j)) ∘ fun x => if x.at_ (l.channel, l.j) then l else x) =
      fun x => x.at_ (l.channel, l.j) := by
    funext x
    simp only [Function.comp_apply]
    split
    next hx => rw [hat, hx]
    · rfl
  rw [hsame, hfind, Option.map_some, if_pos (List.find?_some hfind)]

theorem State.lookupLine_hit (hl : s.lineOf c j = some l) (hforced : s.forcedMiss f (s.home f c j) = false) :
    ∃ t, s.lookupLine f c j = (t, true) ∧ Within [.fields, .counters, .granary] s t ∧
      t.lineOf c j = some { l with companion := false } := by
  obtain ⟨rfl, rfl⟩ := Line.at_of_lineOf hl
  have huse : Within [.fields, .counters, .granary] s (s.useLine { l with companion := false }) := rfl
  have hcount := Within.countLookup (s.useLine { l with companion := false }) f (s.home f l.channel l.j) true
  refine ⟨_, ?_, huse.then hcount (by decide),
    (State.lineOf_of_granary (hcount.get State.granary (fun _ => rfl)) l.channel l.j).trans (s.lineOf_useLine _)⟩
  simp only [State.lookupLine, hl, hforced, Bool.false_eq_true, if_false]

theorem State.lookupLine_absent (hl : s.lineOf c j = none) :
    ∃ t, s.lookupLine f c j = (t, false) ∧ Within [.fields, .counters] s t := by
  refine ⟨_, ?_, Within.countLookup s f (s.home f c j) false⟩
  simp only [State.lookupLine, hl]

end

/-! #### LDC -/

/-- The low bytes that an LDC takes from a line which holds all of them. -/
theorem Slot3.ldc_eq (x : Slot3) (line : Bytes) :
    ∃ v : BitVec 64, x.ldc line = x.modify (x.t.setReg (wD x.w) v) x.size ∧
      (x.size ≤ 8 → x.ldcAddr % 256 + x.size ≤ 256 → line.length = 256 →
        v.toNat % 2 ^ (8 * x.size) = le ((line.drop (x.ldcAddr % 256)).take x.size)) := by
  refine ⟨_, rfl, fun hsize hin hlen => ?_⟩
  have hb : ((line.drop (x.ldcAddr % 256)).take x.size).length = x.size := by
    rw [List.length_take, List.length_drop]
    omega
  have hall : (line.drop (x.ldcAddr % 256)).take x.size ++
      fit (x.size - ((line.drop (x.ldcAddr % 256)).take x.size).length)
        (Config.loadBeyond x.ldcAddr (x.size - ((line.drop (x.ldcAddr % 256)).take x.size).length)) =
      (line.drop (x.ldcAddr % 256)).take x.size := by
    rw [hb, Nat.sub_self, fit_of_le_length (Nat.zero_le _), List.take_zero, List.append_nil]
  have hlow := loadReg_low (hb.le.trans hsize) (x.t.reg (wD x.w))
  rw [hb] at hlow
  rw [hall]
  exact hlow

section
variable {s : State} {core thread : Nat} {x : Slot3} {p : Page} (h : s.issues 4 0x08 core thread x)
  (hp : s.pageAt x.run.field x.ldcAddr = some p)
include h hp

theorem exec_ldc_of_next (hread : p.readableBy x.run.prog = true) (hin : p.inGddr = true) {t : State} {y : Thread}
    (hres : s.ldcResident x p = .next t y) :
    exec (.ldc core thread) s = .next (t.setThread core thread y.advance) :=
  State.issue_of_next h (by simp only [hp, hread, hin, Bool.not_true, Bool.false_eq_true, if_false, hres])

theorem exec_ldc_of_wait (hread : p.readableBy x.run.prog = true) (hin : p.inGddr = true) {t : State}
    (hres : s.ldcResident x p = .wait t) : exec (.ldc core thread) s = .next t :=
  State.issue_of_wait h (by simp only [hp, hread, hin, Bool.not_true, Bool.false_eq_true, if_false, hres])

theorem exec_ldc_of_away (hread : p.readableBy x.run.prog = true) (hin : p.inGddr = false) :
    exec (.ldc core thread) s = .next (s.awaitPage x p.num) :=
  State.issue_of_wait h (by simp only [hp, hread, hin, Bool.not_true, Bool.not_false, Bool.false_eq_true, if_false, if_true])

theorem exec_ldc_of_unreadable (hread : p.readableBy x.run.prog = false) :
    exec (.ldc core thread) s = .next (s.trapThread core thread 5) :=
  State.issue_of_trap h (by simp only [hp, hread, Bool.not_false, if_true])

end

theorem Within.setRun (s : State) (n : Nat) (x : Run) : Within [.runs] s (s.setRun n x) := rfl

theorem State.traceRec_streams (s : State) (src field unit : Nat) (a b : BitVec 64) :
    (s.traceRec src field unit a b).streams = s.streams := (Within.traceRec s src field unit a b).get State.streams (fun _ => rfl)

/-- R422: an LDC whose page is away halts a stream of its own on that page. -/
theorem State.awaitPage_halts (s : State) (x : Slot3) (page : Nat) :
    Within [.streams, .nextStream, .runs, .trace, .counters] s (s.awaitPage x page) ∧
      ∃ e ∈ (s.awaitPage x page).streams, e.2.phase = .halted page := by
  unfold State.awaitPage
  dsimp only
  split
  next hwaits =>
    obtain ⟨e, he, hphase⟩ := List.any_eq_true.mp hwaits
    simp only [Bool.and_eq_true, beq_iff_eq] at hphase
    exact ⟨Within.refl _ _, e, he, hphase.2⟩
  · refine ⟨Within.then ?_ (Within.traceRec _ _ _ _ _ _) (by decide), ?_⟩
    · exact rfl
    rw [State.traceRec_streams]
    exact ⟨_, FMap.mem_of_get? (FMap.get?_set_self _ _ _), rfl⟩

section
variable {s : State} {x : Slot3} {p : Page} {c j : Nat} (hplace : p.placeOf x.ldcAddr = some (c, j))
include hplace

theorem State.ldcResident_of_held {e : Nat × Bytes} (hheld : x.c.cache.find? (fun e => e.1 == lineKey c j) = some e) :
    ∃ t, s.ldcResident x p = .next t (x.ldc e.2) ∧ Within [.fields, .cores] s t ∧
      (t.cores = s.cores ∨ t.cores = (s.setCore x.core ((s.core x.core).dropLine (lineKey c j))).cores) := by
  have huse := Within.usePages s x.run.field (fun q => q.num == p.num)
  have hcores : (s.usePages x.run.field (fun q => q.num == p.num)).cores = s.cores := huse.get State.cores (fun _ => rfl)
  refine ⟨if (s.lineOf c j).isSome then s.usePages x.run.field (fun q => q.num == p.num)
    else (s.usePages x.run.field (fun q => q.num == p.num)).setCore x.core
      (((s.usePages x.run.field (fun q => q.num == p.num)).core x.core).dropLine (lineKey c j)),
    by simp only [State.ldcResident, hplace, hheld], ?_, ?_⟩
  · split
    · exact huse.mono (by decide)
    · exact (huse.mono (by decide)).then (Within.setCore _ _ _) (by decide)
  · split
    · exact Or.inl hcores
    · refine Or.inr ?_
      rw [State.setCore, State.core, hcores]
      rfl

variable (hfree : x.c.cache.find? (fun e => e.1 == lineKey c j) = none)
include hfree

theorem State.ldcResident_of_lost (hlost : s.lineLost x.run.field p x.ldcAddr = true) :
    s.ldcResident x p = .wait (s.failRun x.run stHW_FAULT) := by
  simp only [State.ldcResident, hplace, hfree, hlost, if_true]

variable (hwhole : s.lineLost x.run.field p x.ldcAddr = false)
include hwhole

theorem State.ldcResident_of_stall
    (hstall : ((s.lineOf c j).any (fun l => l.dir == .W) || (s.channel c).queue.contains (x.ldcRequest j) ||
      ((s.lineOf c j).isNone && (s.narrowStalls (unitKey 0 x.core) || s.laneFull c (x.ldcRequest j)))) = true) :
    s.ldcResident x p = .wait s := by
  simp only [State.ldcResident, hplace, hfree, hwhole, hstall, Bool.false_eq_true, if_false, if_true]

/-- A line of the Granary that no one writes is read there; its core then shares and caches it. -/
theorem State.ldcResident_of_hit {l : Line} (hl : s.lineOf c j = some l) (hdir : l.dir ≠ .W)
    (hasked : (s.channel c).queue.contains (x.ldcRequest j) = false)
    (hforced : s.forcedMiss x.run.field (s.home x.run.field c j) = false) :
    ∃ t, s.ldcResident x p = .next t (x.ldc (s.lineData x.run.field c j)) ∧
      Within [.fields, .counters, .granary, .cores] s t ∧
      t.cores = (s.setCore x.core ((s.core x.core).cacheLine (lineKey c j) (s.lineData x.run.field c j))).cores ∧
      ∃ m, t.lineOf c j = some m ∧ m.dir = .S ∧ x.core ∈ m.sharers := by
  obtain ⟨hc, hj⟩ := Line.at_of_lineOf hl
  have huse := Within.usePages s x.run.field (fun q => q.num == p.num)
  have hline : (s.usePages x.run.field (fun q => q.num == p.num)).lineOf c j = some l :=
    (State.lineOf_of_granary (huse.get State.granary (fun _ => rfl)) c j).trans hl
  obtain ⟨t, hlookup, ht, htl⟩ := State.lookupLine_hit hline
    ((s.forcedMiss_usePages x.run.field c j (fun q => q.num == p.num)).trans hforced)
  have hstall : ((s.lineOf c j).any (fun l => l.dir == .W) || (s.channel c).queue.contains (x.ldcRequest j) ||
      ((s.lineOf c j).isNone && (s.narrowStalls (unitKey 0 x.core) || s.laneFull c (x.ldcRequest j)))) = false := by
    have hdir : (l.dir == Dir.W) = false := beq_eq_false_iff_ne.mpr hdir
    simp only [hl, hdir, hasked, Option.any_some, Option.isNone_some, Bool.false_and, Bool.or_self]
  have hwithin : Within [.fields, .counters, .granary] s t := (huse.mono (by decide)).then ht (by decide)
  have hcores : t.cores = s.cores := hwithin.get State.cores (fun _ => rfl)
  obtain ⟨m, hm⟩ : ∃ m, m = { l with
      companion := false, dir := .S, sharers := x.core :: l.sharers.filter (fun n => n != x.core) } := ⟨_, rfl⟩
  have hset : (t.setLine m).lineOf c j = some m := State.lineOf_setLine htl (by rw [hm]; exact hc) (by rw [hm]; exact hj)
  refine ⟨(t.setLine m).setCore x.core
    (((t.setLine m).core x.core).cacheLine (lineKey c j) (s.lineData x.run.field c j)), ?_, ?_, ?_, m, hset, ?_, ?_⟩
  · simp only [State.ldcResident, hplace, hfree, hwhole, hstall, hlookup, htl, Bool.false_eq_true, if_false, hm]
  · have hset : Within [.granary] t (t.setLine m) := rfl
    exact ((hwithin.mono (by decide)).then hset (by decide)).then (Within.setCore _ _ _) (by decide)
  · have hcore : (t.setLine m).cores = s.cores := hcores
    rw [State.setCore, State.core, hcore]
    rfl
  · rw [hm]
  · rw [hm]
    exact List.mem_cons_self ..

/-- A line that neither the read cache nor the Granary holds is asked for over the narrow path. -/
theorem State.ldcResident_of_absent (hl : s.lineOf c j = none)
    (hasked : (s.channel c).queue.contains (x.ldcRequest j) = false)
    (hroom : s.narrowStalls (unitKey 0 x.core) = false) (hlane : s.laneFull c (x.ldcRequest j) = false) :
    ∃ t, s.ldcResident x p = .wait (t.askNarrow x c j) ∧ Within [.fields, .counters] s t := by
  have huse := Within.usePages s x.run.field (fun q => q.num == p.num)
  have hline : (s.usePages x.run.field (fun q => q.num == p.num)).lineOf c j = none :=
    (State.lineOf_of_granary (huse.get State.granary (fun _ => rfl)) c j).trans hl
  obtain ⟨t, hlookup, ht⟩ := State.lookupLine_absent (f := x.run.field) hline
  have hstall : ((s.lineOf c j).any (fun l => l.dir == .W) || (s.channel c).queue.contains (x.ldcRequest j) ||
      ((s.lineOf c j).isNone && (s.narrowStalls (unitKey 0 x.core) || s.laneFull c (x.ldcRequest j)))) = false := by
    simp only [hl, hasked, hroom, hlane, Option.any_none, Option.isNone_none, Bool.or_self, Bool.and_false]
  refine ⟨t, ?_, (huse.mono (by decide)).then ht (by decide)⟩
  simp only [State.ldcResident, hplace, hfree, hwhole, hstall, hlookup, Bool.false_eq_true, if_false]

end

/-! #### Slots of streams (R381) -/

section
variable {s : State} {c : Core}

theorem State.slotEnded_of_empty {k : Nat} (h : FMap.get? c.slots k = none) : s.slotEnded c k = true := by
  simp [State.slotEnded, h]

theorem find?_slots {q : Nat → Bool} {k : Nat} (h : ([0, 1, 2, 3, 4, 5] : List Nat).find? q = some k) :
    k < 6 ∧ q k = true ∧ ∀ m, m < k → q m = false := by
  have hrange : ([0, 1, 2, 3, 4, 5] : List Nat) = List.range 6 := rfl
  rw [hrange, List.find?_range_eq_some] at h
  obtain ⟨hq, hk, hbefore⟩ := h
  exact ⟨List.mem_range.mp hk, hq, fun m hm => by simpa using hbefore m hm⟩

theorem find?_slots_none {q : Nat → Bool} (h : ([0, 1, 2, 3, 4, 5] : List Nat).find? q = none) {m : Nat} (hm : m < 6) :
    q m = false := by
  have hrange : ([0, 1, 2, 3, 4, 5] : List Nat) = List.range 6 := rfl
  rw [hrange, List.find?_eq_none] at h
  simpa using h m (List.mem_range.mpr hm)

theorem State.freeSlot_none (h : ∀ k, k < 6 → s.slotEnded c k = false) : s.freeSlot c = none := by
  have hfree : ([0, 1, 2, 3, 4, 5] : List Nat).find? (fun n => (FMap.get? c.slots n).isNone) = none := by
    cases hfind : ([0, 1, 2, 3, 4, 5] : List Nat).find? (fun n => (FMap.get? c.slots n).isNone) with
    | none => rfl
    | some k =>
      obtain ⟨hk, hempty, -⟩ := find?_slots hfind
      have hended := State.slotEnded_of_empty (s := s) (Option.isNone_iff_eq_none.mp hempty)
      rw [h k hk] at hended
      cases hended
  have hended : ([0, 1, 2, 3, 4, 5] : List Nat).find? (s.slotEnded c) = none := by
    cases hfind : ([0, 1, 2, 3, 4, 5] : List Nat).find? (s.slotEnded c) with
    | none => rfl
    | some k =>
      obtain ⟨hk, hyes, -⟩ := find?_slots hfind
      rw [h k hk] at hyes
      cases hyes
  simp only [State.freeSlot, hfree, hended, Option.orElse_none]

/-- R381: the slot that an SSTART takes is the lowest free one, or the lowest whose stream has ended where none is free. -/
theorem State.freeSlot_some (h : ∃ k, k < 6 ∧ s.slotEnded c k = true) :
    ∃ k, s.freeSlot c = some k ∧ k < 6 ∧ s.slotEnded c k = true ∧
      ((∃ m, m < 6 ∧ FMap.get? c.slots m = none) →
        FMap.get? c.slots k = none ∧ ∀ m, m < k → FMap.get? c.slots m ≠ none) ∧
      ((∀ m, m < 6 → FMap.get? c.slots m ≠ none) → ∀ m, m < k → s.slotEnded c m = false) := by
  cases hfree : ([0, 1, 2, 3, 4, 5] : List Nat).find? (fun n => (FMap.get? c.slots n).isNone) with
  | some k =>
    obtain ⟨hk, hempty, hbefore⟩ := find?_slots hfree
    have hempty := Option.isNone_iff_eq_none.mp hempty
    refine ⟨k, by simp [State.freeSlot, hfree], hk, State.slotEnded_of_empty hempty,
      fun _ => ⟨hempty, fun m hm hnone => ?_⟩, fun hfull => absurd hempty (hfull k hk)⟩
    have := hbefore m hm
    simp [hnone] at this
  | none =>
    cases hended : ([0, 1, 2, 3, 4, 5] : List Nat).find? (s.slotEnded c) with
    | none =>
      obtain ⟨k, hk, hyes⟩ := h
      rw [find?_slots_none hended hk] at hyes
      cases hyes
    | some k =>
      obtain ⟨hk, hyes, hbefore⟩ := find?_slots hended
      refine ⟨k, by simp [State.freeSlot, hfree, hended], hk, hyes, fun ⟨m, hm, hnone⟩ => ?_, fun _ => hbefore⟩
      have := find?_slots_none hfree hm
      simp [hnone] at this

end

section
variable (s : State) (core k : Nat)

theorem State.clearSlot_of_empty (h : FMap.get? (s.core core).slots k = none) : s.clearSlot core k = s := by
  simp only [State.clearSlot, h]

theorem State.clearSlot_cores_of_held {n : Nat} (h : FMap.get? (s.core core).slots k = some n) :
    (s.clearSlot core k).cores = (s.setCore core { s.core core with slots := FMap.erase (s.core core).slots k }).cores := by
  simp only [State.clearSlot, h]
  split
  · rfl
  · exact State.countField_cores _ _ _ _

theorem State.clearSlot_streams_of_held {n : Nat} (h : FMap.get? (s.core core).slots k = some n) (m : Nat) :
    FMap.get? (s.clearSlot core k).streams m = if m = n then none else FMap.get? s.streams m := by
  simp only [State.clearSlot, h]
  split
  next hnone =>
    split
    next e => exact e ▸ hnone
    · rfl
  next y hy =>
    rw [State.countField_streams]
    change FMap.get? (FMap.erase s.streams n) m = _
    rw [FMap.get?_erase]
    by_cases e : n = m
    · rw [if_pos e, if_pos e.symm]
    · rw [if_neg e, if_neg (Ne.symm e)]

/-- The core after a slot is cleared: the slot is free, the others hold what they held. -/
theorem State.core_clearSlot :
    (∃ slots, (s.clearSlot core k).core core = { s.core core with slots := slots } ∧ FMap.get? slots k = none ∧
      ∀ m, m ≠ k → FMap.get? slots m = FMap.get? (s.core core).slots m) ∧
    ∀ n, n ≠ core → (s.clearSlot core k).core n = s.core n := by
  cases h : FMap.get? (s.core core).slots k with
  | none =>
    rw [s.clearSlot_of_empty core k h]
    exact ⟨⟨(s.core core).slots, rfl, h, fun _ _ => rfl⟩, fun _ _ => rfl⟩
  | some n =>
    have hcore (m : Nat) : (s.clearSlot core k).core m =
        (s.setCore core { s.core core with slots := FMap.erase (s.core core).slots k }).core m := by
      rw [State.core, s.clearSlot_cores_of_held core k h]
      rfl
    refine ⟨⟨FMap.erase (s.core core).slots k, ?_, ?_, fun m hm => ?_⟩, fun m hm => ?_⟩
    · rw [hcore, State.core_setCore, if_pos rfl]
    · rw [FMap.get?_erase, if_pos rfl]
    · rw [FMap.get?_erase, if_neg (Ne.symm hm)]
    · rw [hcore, State.core_setCore, if_neg (Ne.symm hm)]

end

theorem State.core_of_cores {s t : State} (h : t.cores = s.cores) (k : Nat) : t.core k = s.core k := by
  rw [State.core, h]
  rfl

section
variable {s : State} {core thread : Nat} {x : Slot3}

/-- The descriptor that an SSTART reads, and whether it is one. -/
def Slot3.descriptor (x : Slot3) : Bytes := x.c.load (localAddr (x.t.reg (wS1 x.w))) 128
/-- R433, R436: the descriptor lies whole in local memory and is well formed. -/
def Slot3.descriptorOk (x : Slot3) : Bool :=
  let a := localAddr (x.t.reg (wS1 x.w))
  a % 64 == 0 && a + 128 ≤ localSize && descOk x.descriptor
/-- R420: a write into the index address space. -/
def Slot3.writesIndex (x : Slot3) : Bool := x.descriptorOk && descDir x.descriptor == 1 && descSpace x.descriptor == 0

theorem exec_sstart_of_write (h : s.issues 9 0x00 core thread x) (hw : x.writesIndex = true) :
    exec (.sstart core thread) s = .next (s.trapThread core thread 5) := State.issue_of_trap h (if_pos hw)

theorem exec_sstart_of_busy (h : s.issues 9 0x00 core thread x) (hw : x.writesIndex = false)
    (hbusy : s.freeSlot x.c = none) : exec (.sstart core thread) s = .next s :=
  State.issue_of_wait h ((if_neg (Bool.eq_false_iff.mp hw)).trans (by simp only [hbusy]))

/-- A core with a stream in a slot. -/
def Core.withSlot (c : Core) (k n : Nat) : Core := { c with slots := FMap.set c.slots k n }

/-- The state after an SSTART that takes slot k: the slot cleared, the stream there, and the slot pointing to it. -/
def State.started (s : State) (core k : Nat) (y : Stream) : State :=
  let u := s.clearSlot core k
  let t := { u with streams := FMap.set u.streams u.nextStream y, nextStream := u.nextStream + 1 }
  t.setCore core ((t.core core).withSlot k u.nextStream)

theorem exec_sstart_of_slot (h : s.issues 9 0x00 core thread x) (hw : x.writesIndex = false) {k : Nat}
    (hk : s.freeSlot x.c = some k) :
    exec (.sstart core thread) s = .next ((s.started core k (x.stream x.descriptor k x.descriptorOk)).setThread core thread
      (x.t.setReg (wD x.w) (BitVec.ofNat 64 k)).advance) :=
  State.issue_of_next h ((if_neg (Bool.eq_false_iff.mp hw)).trans (by simp only [hk]; rfl))

theorem State.started_eq (s : State) (core k : Nat) (y : Stream) :
    let t := s.started core k y
    FMap.get? t.streams s.nextStream = some y ∧ t.nextStream = s.nextStream + 1 ∧
      (∀ n, n ≠ s.nextStream → FMap.get? (s.core core).slots k ≠ some n →
        FMap.get? t.streams n = FMap.get? s.streams n) ∧
      (∃ slots, t.core core = { s.core core with slots := slots } ∧ FMap.get? slots k = some s.nextStream ∧
        ∀ m, m ≠ k → FMap.get? slots m = FMap.get? (s.core core).slots m) ∧
      (∀ n, n ≠ core → t.core n = s.core n) ∧ (FMap.get? (s.core core).slots k = none → t.fields = s.fields) ∧
      t.cmds = s.cmds := by
  intro t
  have hclear := Within.clearSlot s core k
  have hnext : (s.clearSlot core k).nextStream = s.nextStream := hclear.get State.nextStream (fun _ => rfl)
  have hstreams : t.streams = FMap.set (s.clearSlot core k).streams s.nextStream y := by rw [← hnext]; rfl
  obtain ⟨⟨slots, hcore, -, hslots⟩, hother⟩ := s.core_clearSlot core k
  refine ⟨?_, ?_, fun n hn hne => ?_, ⟨FMap.set slots k s.nextStream, ?_, FMap.get?_set_self _ _ _, fun m hm => ?_⟩,
    fun n hn => ?_, fun hempty => ?_, hclear.get State.cmds (fun _ => rfl)⟩
  · rw [hstreams, FMap.get?_set_self]
  · rw [← hnext]
    rfl
  · rw [hstreams, FMap.get?_set_ne _ _ (Ne.symm hn)]
    cases hheld : FMap.get? (s.core core).slots k with
    | none => rw [s.clearSlot_of_empty core k hheld]
    | some m =>
      rw [s.clearSlot_streams_of_held core k hheld, if_neg]
      rintro rfl
      exact hne hheld
  · refine (State.core_setCore _ _ _ _).trans ((if_pos rfl).trans ?_)
    change ((s.clearSlot core k).core core).withSlot k (s.clearSlot core k).nextStream = _
    rw [hcore, hnext]
    rfl
  · rw [FMap.get?_set_ne _ _ (Ne.symm hm), hslots m hm]
  · exact (State.core_setCore _ _ _ _).trans ((if_neg (Ne.symm hn)).trans (hother n hn))
  · exact (congrArg State.fields (s.clearSlot_of_empty core k hempty) :)

theorem exec_swait_of_running (h : s.issues 9 0x01 core thread x) {n : Nat} {y : Stream}
    (hy : s.slotStream x = some (n, y)) (hrun : ∀ st, y.phase ≠ .ended st) : exec (.swait core thread) s = .next s := by
  refine State.issue_of_wait h ?_
  simp only [hy]

theorem exec_swait_of_ended (h : s.issues 9 0x01 core thread x) {n st : Nat} {y : Stream}
    (hy : s.slotStream x = some (n, y)) (hst : y.phase = .ended st) :
    exec (.swait core thread) s = .next ((s.clearSlot core y.slot).setThread core thread
      (x.t.setReg (wD x.w) (BitVec.ofNat 64 st)).advance) :=
  State.issue_of_next h (by simp only [hy, hst])

theorem State.slot_of_slotStream {n : Nat} {y : Stream} (hy : s.slotStream x = some (n, y)) :
    FMap.get? x.c.slots (x.t.reg (wS1 x.w)).toNat = some n := by
  simp only [State.slotStream] at hy
  split at hy
  · cases hy
  · obtain ⟨m, hm, hy⟩ := Option.bind_eq_some_iff.mp hy
    obtain ⟨z, -, hz⟩ := Option.map_eq_some_iff.mp hy
    cases hz
    exact hm

/-- What an SPOLL writes. -/
def State.polled (s : State) (x : Slot3) : BitVec 64 :=
  match s.slotStream x with
  | none => Config.emptySlot (x.t.reg (wS1 x.w))
  | some (_, y) => match y.phase with
    | .ended st => BitVec.ofNat 64 st
    | _ => 1

theorem State.polled_of_running {n : Nat} {y : Stream} (hy : s.slotStream x = some (n, y))
    (hrun : ∀ st, y.phase ≠ .ended st) : s.polled x = 1 := by
  simp only [State.polled, hy]

theorem State.polled_of_ended {n st : Nat} {y : Stream} (hy : s.slotStream x = some (n, y)) (hst : y.phase = .ended st) :
    s.polled x = BitVec.ofNat 64 st := by
  simp only [State.polled, hy, hst]

end

/-- Settles O47: LDC by the outcomes of a resident page's line, the stream instructions by the slots of their core. -/
theorem fieldLoadsAndStreams : Obligations.FieldLoadsAndStreams := by
  refine ⟨fun s core thread x hshaped h => ?ldc, fun s core thread x hshaped => ?streams⟩
  case ldc =>
    intro f a n r ldc others loaded
    have hr := hshaped.1
    obtain ⟨hxcore, -, hxc, -⟩ := State.issuing_eq h.2.2.1
    have hothers {t : State} (c : Core) (hc : c.threads = x.c.threads ∧ c.mem = x.c.mem)
        (hw : Within [.fields, .counters, .granary, .cores] s t) (hcores : t.cores = (s.setCore core c).cores) : others t := by
      have hcore (k : Nat) : t.core k = if core = k then c else s.core k :=
        (State.core_of_cores hcores k).trans (State.core_setCore s core k c)
      refine ⟨?_, ?_, fun k hk => ?_, hw.get State.indexes (fun _ => rfl), hw.get State.cmds (fun _ => rfl),
        hw.get State.runs (fun _ => rfl), hw.get State.streams (fun _ => rfl)⟩
      · rw [hcore, if_pos rfl, hc.1]
      · rw [hcore, if_pos rfl, hc.2]
      · rw [hcore, if_neg (Ne.symm hk)]
    have hothersKept {t : State} (hw : Within [.fields, .counters, .granary, .cores] s t) (hcores : t.cores = s.cores) :
        others t := by
      refine ⟨?_, ?_, fun k _ => State.core_of_cores hcores k, hw.get State.indexes (fun _ => rfl),
        hw.get State.cmds (fun _ => rfl), hw.get State.runs (fun _ => rfl), hw.get State.streams (fun _ => rfl)⟩
      · rw [State.core_of_cores hcores, hxc]
      · rw [State.core_of_cores hcores, hxc]
    have hloaded (b : Bytes) (q : State → Prop) (t : State)
        (hexec : exec ldc s = .next (t.setThread core thread (x.ldc b).advance)) (ht : others t) (hq : q t) : loaded b q := by
      obtain ⟨v, hldc, hlow⟩ := x.ldc_eq b
      obtain ⟨hgoes, hself, hreg, hkeeps, hv, hvacc, hcc, hflags⟩ := x.modify_setReg n v hr
      exact ⟨t, _, v, by rw [hexec, hldc]; rfl, hgoes, hlow, hself, hreg, hkeeps, hv, hvacc, hcc, hflags, ht, hq⟩
    clear_value loaded
    refine ⟨fun hp => State.issue_of_trap h (by simp only [show s.pageAt x.run.field x.ldcAddr = none from hp]),
      fun p hp => ⟨exec_ldc_of_unreadable h hp, fun hread haway => ?_, fun c j hread hin hplace => ?_⟩⟩
    · obtain ⟨hw, hhalts⟩ := s.awaitPage_halts x p.num
      exact ⟨_, exec_ldc_of_away h hp hread haway, hw.get State.cores (fun _ => rfl), hw.get State.fields (fun _ => rfl),
        hw.get State.indexes (fun _ => rfl), hw.get State.cmds (fun _ => rfl), hhalts⟩
    · intro held asked
      refine ⟨fun e he => ?held, fun hfree hlost => exec_ldc_of_wait h hp hread hin (State.ldcResident_of_lost hplace hfree hlost),
        fun hfree hwhole => ⟨fun l hl => ⟨fun hstall => ?stalls, fun hdir hasked hforced => ?hit⟩,
          fun hl => ⟨fun hstall => ?full, fun hasked hroom hlane => ?asks⟩⟩⟩
      case held =>
        obtain ⟨t, hres, hw, hcores⟩ := State.ldcResident_of_held (s := s) hplace he
        refine hloaded e.2 _ t (exec_ldc_of_next h hp hread hin hres) ?_
          ⟨hw.get State.channels (fun _ => rfl), hw.get State.granary (fun _ => rfl)⟩
        rcases hcores with hcores | hcores
        · exact hothersKept (hw.mono (by decide)) hcores
        · rw [hxcore, ← hxc] at hcores
          exact hothers (x.c.dropLine (lineKey c j)) ⟨rfl, rfl⟩ (hw.mono (by decide)) hcores
      case stalls =>
        refine exec_ldc_of_wait h hp hread hin (State.ldcResident_of_stall hplace hfree hwhole ?_)
        rcases hstall with hdir | hasked
        · simp [hl, hdir]
        · simp only [show (s.channel c).queue.contains (x.ldcRequest j) = true from hasked, Bool.or_true, Bool.true_or]
      case hit =>
        obtain ⟨t, hres, hw, hcores, hline⟩ :=
          State.ldcResident_of_hit hplace hfree hwhole hl hdir hasked hforced
        rw [hxcore, ← hxc] at hcores
        rw [hxcore] at hline
        refine hloaded _ _ t (exec_ldc_of_next h hp hread hin hres)
            (hothers (x.c.cacheLine (lineKey c j) (s.lineData x.run.field c j)) ⟨rfl, rfl⟩ hw hcores)
          ⟨hw.get State.channels (fun _ => rfl), ?_, hline⟩
        rw [State.core_of_cores hcores, State.core_setCore, if_pos rfl]
        rfl
      case full =>
        refine exec_ldc_of_wait h hp hread hin (State.ldcResident_of_stall hplace hfree hwhole ?_)
        rcases hstall with hasked | hroom | hlane
        · simp only [show (s.channel c).queue.contains (x.ldcRequest j) = true from hasked, Bool.or_true, Bool.true_or]
        · simp [hl, hxcore, hroom]
        · simp [hl, hlane]
      case asks =>
        obtain ⟨t, hres, hw⟩ := State.ldcResident_of_absent hplace hfree hwhole hl hasked (hxcore.symm ▸ hroom) hlane
        have hchannels : t.channels = s.channels := hw.get State.channels (fun _ => rfl)
        have hchannel (k : Nat) : t.channel k = s.channel k := by rw [State.channel, hchannels]; rfl
        refine ⟨_, exec_ldc_of_wait h hp hread hin hres, ?_, fun k hk => ?_, hw.get State.cores (fun _ => rfl),
          hw.get State.granary (fun _ => rfl), hw.get State.indexes (fun _ => rfl), hw.get State.cmds (fun _ => rfl),
          hw.get State.runs (fun _ => rfl), hw.get State.streams (fun _ => rfl)⟩
        · rw [State.askNarrow, State.channel_setChannel, if_pos rfl, hchannel]
        · rw [State.askNarrow, State.channel_setChannel, if_neg (Ne.symm hk), hchannel]
  case streams =>
    intro a d ok held
    have hr := hshaped.1
    refine ⟨fun h => ?sstart, fun n y hy hslot => ?slot⟩
    case sstart =>
      obtain ⟨hxcore, hxthread, hxc, -⟩ := State.issuing_eq h.2.2.1
      refine ⟨fun hok hdir hspace => exec_sstart_of_write h ?_, fun hno => ?_⟩
      · simp only [Slot3.writesIndex, show x.descriptorOk = true from hok, show descDir x.descriptor = 1 from hdir,
          show descSpace x.descriptor = 0 from hspace]
        rfl
      · have hw : x.writesIndex = false := by
          rw [Bool.eq_false_iff]
          intro hw
          simp only [Slot3.writesIndex, Bool.and_eq_true, beq_iff_eq] at hw
          exact hno ⟨hw.1.1, hw.1.2, hw.2⟩
        refine ⟨fun hbusy => exec_sstart_of_busy h hw (State.freeSlot_none hbusy), fun hsome => ?_⟩
        obtain ⟨k, hk, hlt, hended, hfree, hlowest⟩ := State.freeSlot_some hsome
        obtain ⟨hstream, hnext, hstreams, hslots, hcores, hfields, hcmds⟩ :=
          s.started_eq core k (x.stream x.descriptor k x.descriptorOk)
        rw [← hxc] at hstreams hslots hfields
        exact ⟨k, _, _, _, hlt, hended, hfree, hlowest, exec_sstart_of_slot h hw hk, Thread.reg_setReg_self hr (wD_lt x.w) _,
          Thread.onlyReg_setReg _ _, hstream, hnext, rfl, rfl, rfl, hxcore, hxthread, rfl, rfl, rfl, rfl, hstreams, hslots,
          hcores, hfields, hcmds⟩
    case slot =>
      refine ⟨fun h => ⟨exec_swait_of_running h hy, fun st hst => ?_⟩, fun h => ?_⟩
      · obtain ⟨-, -, hxc, -⟩ := State.issuing_eq h.2.2.1
        have hheld := State.slot_of_slotStream hy
        rw [← hslot, hxc] at hheld
        have hclear := Within.clearSlot s core y.slot
        obtain ⟨⟨slots, hcore, hempty, -⟩, hother⟩ := s.core_clearSlot core y.slot
        refine ⟨_, _, exec_swait_of_ended h hy hst, Thread.reg_setReg_self hr (wD_lt x.w) _, Thread.onlyReg_setReg _ _, ?_,
          fun k hk => ?_, ?_, ?_, hother, hclear.get State.cmds (fun _ => rfl), hclear.get State.indexes (fun _ => rfl)⟩
        · rw [s.clearSlot_streams_of_held core y.slot hheld, if_pos rfl]
        · rw [s.clearSlot_streams_of_held core y.slot hheld, if_neg hk]
        · rw [hcore, hempty]
        · rw [hcore, hxc]
      · have hreg : ((x.t.setReg (wD x.w) (s.polled x)).advance).reg (wD x.w) = s.polled x :=
          Thread.reg_setReg_self hr (wD_lt x.w) _
        exact ⟨_, State.issueReg_of_issues h _, Thread.onlyReg_setReg _ (s.polled x),
          fun hrun => hreg.trans (State.polled_of_running hy hrun), fun st hst => hreg.trans (State.polled_of_ended hy hst)⟩

end Sys2Proof.Machine

/-! ### Lines of the Granary (O40) -/

namespace Sys2Proof.Machine

/-- A line that leaves the Granary once core 5 acknowledges its invalidation. -/
def leavingLine : Line := ⟨3, 2, 40, 1, .W, [5], none, false, false, 0, false⟩
/-- The line waits for core 5, and the read cache of core 6 holds a line that the Granary does not hold. -/
def straySharer : State :=
  { State.reset with
    board := { Board.inReset with sysResetN := true, perstN := true }
    trust := { Trust.reset [] [] with bootCode := 0, fw := some ⟨0, 1, 0⟩, resolved := true }
    glob := { State.reset.glob with ready := true }
    granary := [leavingLine]
    cores := [(6, { Core.reset with cache := [(lineKey 9 9, [])] })] }

/-- R532: with the last acknowledgement the line goes, and every read cache is left with lines of the Granary alone. -/
theorem exec_invalidationAck_straySharer :
    ∃ t, exec (.invalidationAck 3 2 40 5) straySharer = .next t ∧ (t.core 6).cache = [] := ⟨_, rfl, by decide⟩

/-- Refutes O40: the end of an eviction also clears the read caches of other cores of lines that the Granary does not hold. -/
theorem not_granaryLines : ¬ Obligations.GranaryLines := by
  intro h
  obtain ⟨hack, -⟩ := h
  obtain ⟨t, hexec, -, hother, -⟩ :=
    hack straySharer 3 2 40 5 leavingLine (by decide) (by decide) (by decide) (by decide) rfl rfl rfl (by decide)
  obtain ⟨u, hu, hcache⟩ := exec_invalidationAck_straySharer
  have htu : t = u := by
    rw [hexec] at hu
    exact Host.Outcome.next.inj hu
  have hkept := hother 6 (by decide)
  rw [htu] at hkept
  rw [hkept] at hcache
  exact absurd hcache (by decide)

end Sys2Proof.Machine

/-! ### Commands that only read (R124, R127, R625, R630, R649, R670 to R675) -/

namespace Sys2Proof.Machine

/-! #### Admitted packets and checks that all pass -/

theorem State.ring_of_nextPacket {s : State} {r : Nat} {c : Cmd} (h : s.nextPacket r = some c) : c.ring = r := by
  have hfound := List.find?_some h
  simp only [Bool.and_eq_true, beq_iff_eq] at hfound
  exact hfound.1

theorem State.mem_cmds_of_nextPacket {s : State} {r : Nat} {c : Cmd} (h : s.nextPacket r = some c) : c ∈ s.cmds :=
  List.mem_of_find?_eq_some h

theorem State.nextPacket_of_admits {s : State} {code ring : Nat} {dma : Dma} {c : Cmd}
    (h : s.admits code ring dma c = true) : s.nextPacket ring = some c := by
  simp only [State.admits, Bool.and_eq_true, beq_iff_eq] at h
  exact h.1.1.1.1.1.2

theorem State.ring_of_admits {s : State} {code ring : Nat} {dma : Dma} {c : Cmd}
    (h : s.admits code ring dma c = true) : c.ring = ring :=
  State.ring_of_nextPacket (State.nextPacket_of_admits h)

theorem State.le_adminRing_of_admits {s : State} {code ring : Nat} {dma : Dma} {c : Cmd}
    (h : s.admits code ring dma c = true) : ring ≤ adminRing := by
  simp only [State.admits, Bool.and_eq_true, decide_eq_true_eq] at h
  exact h.1.1.1.1.1.1

/-- Checks that all pass leave the effect. -/
theorem checks_of_forall {l : List (Bool × Nat)} (h : ∀ x ∈ l, x.1 = false) (k : Unit → Verdict) :
    checks l k = k () := by
  induction l with
  | nil => rfl
  | cons x l ih =>
    rw [checks_cons_of_good (h x List.mem_cons_self), ih (fun y hy => h y (List.mem_cons_of_mem x hy))]

/-- R126, R127: a reply address and length that pass. -/
theorem replyChecks_pass {pkt : Bytes} {addrAt lenAt size : Nat} (haddr : num pkt addrAt 8 % 64 = 0)
    (hlen : size ≤ num pkt lenAt 4) : ∀ x ∈ replyChecks pkt addrAt lenAt size, x.1 = false := by
  simp [replyChecks, haddr, hlen]

/-- An admitted packet without a parameter block whose opcode's own checks all pass. -/
theorem State.runPacket_of_passes {s : State} {code ring : Nat} {dma : Dma} {c : Cmd} {o : OpSpec}
    {body : Ctx → State → Verdict} {l : List (Bool × Nat)} {k : Unit → Verdict}
    (hop : opSpec code = some o) (hneed : o.need = .none) (h : s.admits code ring dma c = true)
    (hbody : body (ctxOf c dma) s = checks l k) (hpass : ∀ x ∈ l, x.1 = false) :
    s.runPacket code ring dma body = .next (s.settle c dma (k ())) := by
  rw [State.runPacket_of_admits_blockless hop hneed h, hbody, checks_of_forall hpass]

theorem ringFn_of_ne_adminRing {r : Nat} (h : r ≠ adminRing) : ringFn r = r / 8 := if_neg h

/-! #### The reading commands -/

section Reads
variable {s : State} {ring : Nat} {dma : Dma} {c : Cmd}

theorem exec_nop_of_admits (h : s.admits 0x00 ring dma c = true) : exec (.nop ring dma) s = ended s s c dma 0 [] := by
  change execNop ring dma s = _
  rw [execNop, State.runPacket_of_admits_blockless (o := opAF 0x00) rfl rfl h]
  rfl

theorem exec_identify_of_admits (h : s.admits 0x01 ring dma c = true) (haddr : num c.pkt 16 8 % 64 = 0)
    (hlen : 512 ≤ num c.pkt 24 4) :
    exec (.identify ring dma) s =
      ended s s c dma (info2 s.fwVersion s.fwSvn) [(num c.pkt 16 8, s.identifyReply)] := by
  change execIdentify ring dma s = _
  exact (State.runPacket_of_passes (o := opAF 0x01) rfl rfl h rfl (replyChecks_pass haddr hlen)).trans rfl

theorem exec_fieldQuery_of_admits (h : s.admits 0x03 ring dma c = true)
    (hown : ring ≠ adminRing → num c.pkt 16 1 = ring / 8) (hfield : num c.pkt 16 1 ≤ 15)
    (haddr : num c.pkt 24 8 % 64 = 0) (hlen : 512 ≤ num c.pkt 32 4) :
    exec (.fieldQuery ring dma) s =
      match s.field? (num c.pkt 16 1) with
      | some x => if x.present = true then
          ended s s c dma (1 + 256 * (s.indexesOf (num c.pkt 16 1)).length)
            [(num c.pkt 24 8, s.fieldReply (num c.pkt 16 1) x)]
        else ended s s c dma 0 [(num c.pkt 24 8, zeros 512)]
      | none => ended s s c dma 0 [(num c.pkt 24 8, zeros 512)] := by
  obtain rfl := State.ring_of_admits h
  have hpermit : (c.ring != adminRing && num c.pkt 16 1 != ringFn c.ring) = false := by
    by_cases hr : c.ring = adminRing
    · simp [hr]
    · simp [ringFn_of_ne_adminRing hr, hown hr]
  have hrange : decide (15 < num c.pkt 16 1) = false := by simpa using hfield
  change execFieldQuery c.ring dma s = _
  rw [execFieldQuery, State.runPacket_of_passes (o := opAF 0x03) rfl rfl h rfl
    (List.forall_mem_cons.mpr ⟨hpermit, List.forall_mem_cons.mpr ⟨hrange, replyChecks_pass haddr hlen⟩⟩)]
  change Host.Outcome.next (s.settle c dma (match s.field? (num c.pkt 16 1) with | none => _ | some x => _)) = _
  cases s.field? (num c.pkt 16 1) with
  | none => rfl
  | some x => cases hx : x.present <;> simp [hx, ended, ctxOf]

theorem exec_countersRead_of_admits (h : s.admits 0x60 ring dma c = true) (haddr : num c.pkt 24 8 % 64 = 0)
    (hlen : 8 ≤ num c.pkt 32 4)
    (hgroup : ring = adminRing ∧ num c.pkt 16 1 ≤ 4 ∧ (num c.pkt 16 1 = 1 → num c.pkt 17 1 ≤ 15) ∨
      ring ≠ adminRing ∧ num c.pkt 16 1 = 1 ∧ num c.pkt 17 1 = ring / 8)
    (hexists : num c.pkt 16 1 = 1 → s.fieldExists (num c.pkt 17 1) = true) :
    exec (.countersRead ring dma) s =
      ended s s c dma (info2 (min (groupSize (num c.pkt 16 1)) ((num c.pkt 32 4 - 8) / 8)) (groupSize (num c.pkt 16 1)))
        [(num c.pkt 24 8, leBytes 8 s.tbk ++
          (List.range (min (groupSize (num c.pkt 16 1)) ((num c.pkt 32 4 - 8) / 8))).flatMap
            (fun k => leBytes 8 (s.counterValue (num c.pkt 16 1) (num c.pkt 17 1) k)))] := by
  have hle := State.le_adminRing_of_admits h
  obtain rfl := State.ring_of_admits h
  have hfield : num c.pkt 16 1 = 1 → num c.pkt 17 1 ≤ 15 := by
    rcases hgroup with ⟨-, -, hfield⟩ | ⟨hr, -, hfield⟩
    · exact hfield
    · intro _
      have h128 : adminRing = 128 := rfl
      omega
  have hpermit : (c.ring != adminRing && (num c.pkt 16 1 == 0 || num c.pkt 16 1 == 2 || num c.pkt 16 1 == 3 ||
      num c.pkt 16 1 == 4 || num c.pkt 17 1 != ringFn c.ring)) = false := by
    rcases hgroup with ⟨hr, -⟩ | ⟨hr, hg, hf⟩
    · simp [hr]
    · simp [hg, hf, ringFn_of_ne_adminRing hr]
  have hrange : (decide (4 < num c.pkt 16 1) || (num c.pkt 16 1 == 1 && decide (15 < num c.pkt 17 1))) = false := by
    have hg : num c.pkt 16 1 ≤ 4 := by omega
    by_cases h1 : num c.pkt 16 1 = 1
    · simp [h1, hfield h1]
    · simp [h1, hg]
  have hthere : (num c.pkt 16 1 == 1 && !s.fieldExists (num c.pkt 17 1)) = false := by
    by_cases h1 : num c.pkt 16 1 = 1
    · simp [h1, hexists h1]
    · simp [h1]
  change execCountersRead c.ring dma s = _
  refine (State.runPacket_of_passes (o := opAF 0x60) rfl rfl h rfl ?_).trans rfl
  exact List.forall_mem_append.mpr ⟨List.forall_mem_append.mpr
    ⟨List.forall_mem_cons.mpr ⟨hpermit, List.forall_mem_singleton.mpr hrange⟩, replyChecks_pass haddr hlen⟩,
    List.forall_mem_singleton.mpr hthere⟩

theorem exec_logRead_of_admits (h : s.admits 0x61 ring dma c = true) (haddr : num c.pkt 24 8 % 64 = 0) :
    let held := s.log.entries.reverse.filter (fun e =>
      decide (num c.pkt 16 8 ≤ e.seq) && (ring == adminRing || e.field == ring / 8))
    let shown := held.take (num c.pkt 32 4 / 32)
    exec (.logRead ring dma) s =
      ended s s c dma (info2 shown.length s.log.lost) [(num c.pkt 24 8, shown.flatMap LogEntry.bytes)] := by
  obtain rfl := State.ring_of_admits h
  have hown : ∀ e : LogEntry, (decide (num c.pkt 16 8 ≤ e.seq) && (c.ring == adminRing || e.field == c.ring / 8)) =
      (decide (num c.pkt 16 8 ≤ e.seq) && (c.ring == adminRing || e.field == ringFn c.ring)) := by
    intro e
    by_cases hr : c.ring = adminRing
    · simp [hr]
    · rw [ringFn_of_ne_adminRing hr]
  change execLogRead c.ring dma s = _
  simp only [hown]
  exact (State.runPacket_of_passes (o := opAF 0x61) rfl rfl h rfl (replyChecks_pass haddr (Nat.zero_le _))).trans rfl

theorem exec_measureRead_of_admits (h : s.admits 0x51 ring dma c = true) (haddr : num c.pkt 16 8 % 64 = 0)
    (hlen : 512 ≤ num c.pkt 24 4) :
    exec (.measureRead ring dma) s = ended s s c dma 0 [(num c.pkt 16 8, (List.range 8).flatMap (fun n =>
      s.trust.mr.getD n (zeros 48) ++ leBytes 4 (s.trust.mrCount.getD n 0) ++ zeros 12))] := by
  change execMeasureRead ring dma s = _
  exact (State.runPacket_of_passes (o := opAF 0x51) rfl rfl h rfl (replyChecks_pass haddr hlen)).trans rfl

theorem exec_attest_of_admits (h : s.admits 0x50 ring dma c = true) (haddr : num c.pkt 48 8 % 64 = 0)
    (hlen : 720 ≤ num c.pkt 56 4) :
    exec (.attest ring dma) s = ended s s c dma 720 [(num c.pkt 48 8,
      let body := s.reportBody (slice c.pkt 16 32) (if ring = adminRing then 0xFF else ring / 8)
      body ++ ecdsaSign s.trust.attKey (sha384 body))] := by
  obtain rfl := State.ring_of_admits h
  change execAttest c.ring dma s = _
  exact (State.runPacket_of_passes (o := opAF 0x50) rfl rfl h rfl (replyChecks_pass haddr hlen)).trans rfl

theorem exec_stakeRead_of_admits (h : s.admits 0x58 ring dma c = true) (hstake : num c.pkt 16 1 ≤ 4)
    (haddr : num c.pkt 24 8 % 64 = 0) (hlen : 64 + 64 * stakeSlots (num c.pkt 16 1) ≤ num c.pkt 32 4) :
    exec (.stakeRead ring dma) s = ended s s c dma
      (s.trust.current (num c.pkt 16 1) % 2 ^ 32 + s.trust.used (num c.pkt 16 1) * 2 ^ 32 +
        stakeSlots (num c.pkt 16 1) * 2 ^ 40)
      [(num c.pkt 24 8, s.stakeReply (num c.pkt 16 1))] := by
  have hrange : decide (4 < num c.pkt 16 1) = false := by simpa using hstake
  change execStakeRead ring dma s = _
  exact (State.runPacket_of_passes (o := opAF 0x58) rfl rfl h rfl
    (List.forall_mem_cons.mpr ⟨hrange, replyChecks_pass haddr hlen⟩)).trans rfl

end Reads

/-! #### TRACE_CTL -/

/-- R672: the checks of a TRACE_CTL of an action up to 2 and a mode up to 1. -/
theorem execTraceCtl_of_admits {s : State} {ring : Nat} {dma : Dma} {c : Cmd} (h : s.admits 0x62 ring dma c = true)
    (haction : num c.pkt 16 1 ≤ 2) (hmode : num c.pkt 17 1 ≤ 1)
    (hread : num c.pkt 16 1 = 2 → num c.pkt 36 4 % 32 = 0 ∧ num c.pkt 24 8 % 64 = 0) :
    exec (.traceCtl ring dma) s = .next (s.settle c dma
      (if num c.pkt 16 1 = 1 then
        yes { s with trace :=
          ⟨true, num c.pkt 17 1 == 1, BitVec.ofNat 16 (num c.pkt 18 2) &&& 0x07FF#16, [], 0, 0, 0⟩ } 0
      else if num c.pkt 16 1 = 0 then
        yes { s with trace := { s.trace with running := false } } (32 * s.trace.records.length)
      else
        let out := ((s.trace.records.reverse).drop (num c.pkt 36 4 / 32)).take (num c.pkt 32 4 / 32)
        yesReply s (32 * out.length) [(num c.pkt 24 8, out.flatMap (fun b => b))])) := by
  have hoffset : (num c.pkt 16 1 == 2 && num c.pkt 36 4 % 32 != 0) = false := by
    by_cases h2 : num c.pkt 16 1 = 2
    · simp [(hread h2).1]
    · simp [h2]
  change execTraceCtl ring dma s = _
  refine (State.runPacket_of_passes (o := opA 0x62 .none) rfl rfl h rfl ?_).trans rfl
  generalize hp : (ctxOf c dma).pkt = p
  obtain rfl : c.pkt = p := hp
  refine List.forall_mem_append.mpr ⟨?_, ?_⟩
  · exact List.forall_mem_cons.mpr ⟨by simpa using haction, List.forall_mem_cons.mpr
      ⟨by simpa using hmode, List.forall_mem_singleton.mpr hoffset⟩⟩
  · by_cases h2 : num c.pkt 16 1 = 2
    · rw [if_pos h2]
      exact replyChecks_pass (hread h2).2 (Nat.zero_le _)
    · rw [if_neg h2]
      exact fun x hx => nomatch hx

/-- Settles O14: each command that only reads passes its own checks and is settled on the state it found. -/
theorem readingCommands : Obligations.ReadingCommands := by
  unfold Obligations.ReadingCommands
  refine ⟨fun s ring dma c => ⟨exec_nop_of_admits, exec_identify_of_admits, exec_fieldQuery_of_admits,
      exec_countersRead_of_admits, exec_logRead_of_admits⟩,
    fun s ring dma c => ⟨exec_measureRead_of_admits, exec_attest_of_admits, exec_stakeRead_of_admits⟩,
    fun s ring dma c h => ⟨?start, ?stop, ?read⟩⟩
  case start =>
    intro haction hmode
    rw [execTraceCtl_of_admits h (by omega) hmode (by omega), if_pos haction]
    rfl
  case stop =>
    intro haction hmode
    rw [execTraceCtl_of_admits h (by omega) hmode (by omega), if_neg (by omega), if_pos haction]
    rfl
  case read =>
    intro haction hmode hoffset haddr
    rw [execTraceCtl_of_admits h (by omega) hmode (fun _ => ⟨hoffset, haddr⟩), if_neg (by omega), if_neg (by omega)]
    simp only [ended, List.flatMap_id']

end Sys2Proof.Machine

/-! ### Perturbation controls (R680, R720 to R724; Table 11.6) -/

namespace Sys2Proof.Machine

/-! #### The settings do not enter into what an event does -/

/-- The state with other settings and window registers. -/
def State.withPert (s : State) (x : Pert) : State := { s with pert := x }

theorem raiseVector_withPert (s : State) (x : Pert) (fn v : Nat) :
    (s.withPert x).raiseVector fn v = (s.raiseVector fn v).withPert x := by
  unfold State.raiseVector
  cases vectorRing fn v with
  | none => rw [apply_ite (State.withPert · x)]; rfl
  | some r => rw [apply_ite (State.withPert · x)]; rfl

theorem setEvent_withPert (s : State) (x : Pert) (fn bit : Nat) :
    (s.withPert x).setEvent fn bit = (s.setEvent fn bit).withPert x := by
  unfold State.setEvent
  dsimp only
  rw [apply_ite (State.withPert · x), ← raiseVector_withPert]
  rfl

theorem appendLog_withPert (s : State) (x : Pert) (code field sev unit : Nat) (detail : Bytes) :
    (s.withPert x).appendLog code field sev unit detail = (s.appendLog code field sev unit detail).withPert x := by
  cases hlog : s.log.entries with
  | nil =>
    have hlog' : (s.withPert x).log.entries = [] := hlog
    simp only [State.appendLog, hlog, hlog']
    rfl
  | cons e rest =>
    have hlog' : (s.withPert x).log.entries = e :: rest := hlog
    simp only [State.appendLog, hlog, hlog', apply_ite (State.withPert · x), ← setEvent_withPert]
    rfl

theorem logEvent_withPert (s : State) (x : Pert) (code field sev unit : Nat) (detail : Bytes) :
    (s.withPert x).logEvent code field sev unit detail = (s.logEvent code field sev unit detail).withPert x := by
  cases hbit : eventBitOf code detail with
  | none => simp only [State.logEvent, hbit, appendLog_withPert]
  | some b => simp only [State.logEvent, hbit, appendLog_withPert, setEvent_withPert, apply_ite (State.withPert · x)]

/-! #### Requests -/

theorem pertApply_eq (s : State) (q : PertReq) :
    s.pertApply q = (let t := (s.withPert (s.pert.apply q)).extend 7 (eventRecord 0x71 q.raw)
      if q.action = 0 then t.logEvent evPERTURB_SET (if deviceScope q.control then 0xFF else q.field) 0 noUnit
        (slice q.raw 0 3 ++ slice q.raw 4 5) else t) := rfl

/-- R680: the log and its events, register 7 and the settings are all that an accepted request changes. -/
theorem tells_pertApply (s : State) (q : PertReq) :
    Tells ((s.withPert (s.pert.apply q)).extend 7 (eventRecord 0x71 q.raw)) (s.pertApply q) := by
  rw [pertApply_eq]
  dsimp only
  split
  · exact tells_logEvent _ _ _ _ _ _
  · exact Tells.refl _

theorem pert_pertApply (s : State) (q : PertReq) : (s.pertApply q).pert = s.pert.apply q := (tells_pertApply s q).pert

theorem pert_apply_withBusy (x : Pert) (b : Bool) (q : PertReq) :
    Pert.apply { x with busy := b } q = { x.apply q with busy := b } := by
  unfold Pert.apply
  split
  · rfl
  · split <;> rfl

theorem pertApply_withPert (s : State) (x : Pert) (q : PertReq) :
    (s.withPert x).pertApply q = (s.pertApply q).withPert (x.apply q) := by
  simp only [pertApply_eq, apply_ite (State.withPert · (x.apply q)), ← logEvent_withPert]
  rfl

theorem takePert_of_accepted {s : State} (h : s.pertFault s.pert.request = none) :
    s.takePert = (s.pertApply s.pert.request).withPert { (s.pertApply s.pert.request).pert with
      busy := false, status := 0, active := (s.pertApply s.pert.request).pert.slots.length, done := s.pert.done + 1 } := by
  have hdone : (s.pertApply s.pert.request).pert.done = s.pert.done := by
    rw [pert_pertApply]
    unfold Pert.apply
    split
    · rfl
    · split <;> rfl
  simp only [State.takePert, h, hdone]
  rfl

theorem takePert_of_refused {s : State} {st : Nat} (h : s.pertFault s.pert.request = some st) :
    s.takePert = s.withPert { s.pert with
      busy := false, status := BitVec.ofNat 16 st, active := s.pert.slots.length, done := s.pert.done + 1 } := by
  simp only [State.takePert, h]
  rfl

/-- R720: a window request is taken alike, whether or not `busy` shows it. -/
theorem takePert_withBusy (s : State) (b : Bool) :
    (s.withPert { s.pert with busy := b }).takePert = s.takePert := by
  have hout : (s.withPert { s.pert with busy := b }).pertApply s.pert.request =
      (s.pertApply s.pert.request).withPert { (s.pertApply s.pert.request).pert with busy := b } := by
    rw [pertApply_withPert, pert_apply_withBusy, pert_pertApply]
  cases hfault : s.pertFault s.pert.request with
  | some st =>
    rw [takePert_of_refused hfault, takePert_of_refused (s := s.withPert { s.pert with busy := b }) hfault]
    rfl
  | none =>
    rw [takePert_of_accepted hfault, takePert_of_accepted (s := s.withPert { s.pert with busy := b }) hfault,
      show (s.withPert { s.pert with busy := b }).pert.request = s.pert.request from rfl, hout]
    generalize s.pertApply s.pert.request = t
    rfl

theorem execPertGo_of_served {s : State} {v : BitVec 32} (hserved : s.pertServed = true) (hgo : v.getLsbD 0 = true)
    (taken : Bool) : exec (.pertGo v taken) s = .next (if taken then s.takePert else s.withPert { s.pert with busy := true }) := by
  rw [← takePert_withBusy s true]
  change execPertGo v taken s = _
  simp only [execPertGo, hserved, hgo, Bool.and_self, if_true]
  rfl

theorem takeBusy_of_not_busy {s : State} (h : s.pert.busy = false) : s.takeBusy = s := by
  simp [State.takeBusy, h]

theorem takeBusy_of_busy {s : State} (h : s.pert.busy = true) (hup : s.up = true) (hserving : s.serving = true) :
    s.takeBusy = s.takePert := by
  simp [State.takeBusy, h, hup, hserving]

/-- R680: TEST_PERTURB. -/
theorem execTestPerturb_of_admits {s : State} {ring : Nat} {dma : Dma} {c : Cmd} (h : s.admits 0x68 ring dma c = true) :
    let q := pertReq (slice c.pkt 16 12) c.idx
    (s.pertFault q = none → exec (.testPerturb ring dma) s =
      ended s (s.pertApply q) c dma (s.pertApply q).pert.slots.length []) ∧
    ∀ st, s.pertFault q = some st → exec (.testPerturb ring dma) s = .next (s.finish c st 0 0 0 dma.recordOk) := by
  intro q
  have hrun : exec (.testPerturb ring dma) s = .next (s.settle c dma (match s.pertFault q with
      | some st => no st
      | none => yes (s.pertApply q) (s.pertApply q).pert.slots.length)) := by
    change execTestPerturb ring dma s = _
    rw [execTestPerturb, State.runPacket_of_admits_blockless (o := opA 0x68 .none) rfl rfl h]
    rfl
  refine ⟨fun hfault => ?_, fun st hfault => ?_⟩ <;> rw [hrun, hfault] <;> rfl

/-! #### The settings that an accepted request leaves (R723) -/

theorem lowestFree_not_mem {used : List Nat} {fuel n : Nat} (h : ∃ m, n ≤ m ∧ m < n + fuel ∧ m ∉ used) :
    lowestFree used fuel n ∉ used := by
  induction fuel generalizing n with
  | zero =>
    obtain ⟨m, hle, hlt, -⟩ := h
    omega
  | succ fuel ih =>
    unfold lowestFree
    split
    · next hn =>
      obtain ⟨m, hle, hlt, hm⟩ := h
      refine ih ⟨m, ?_, by omega, hm⟩
      rcases Nat.lt_or_eq_of_le hle with hlt | rfl
      · exact hlt
      · exact absurd (List.contains_iff_mem.mp hn) hm
    · next hn => simpa using hn

/-- A list shorter than a range leaves a number of the range free. -/
theorem exists_not_mem_of_length_lt {used : List Nat} {n : Nat} (h : used.length < n) : ∃ m, m < n ∧ m ∉ used := by
  by_contra hall
  have hsub : List.range n ⊆ used := fun m hm => by
    by_contra hne
    exact hall ⟨m, List.mem_range.mp hm, hne⟩
  have hle := (List.nodup_range.subperm hsub).length_le
  rw [List.length_range] at hle
  omega

theorem FMap.get?_filter_of_pos {α : Type} {m : FMap α} {p : Nat × α → Bool} {k : Nat} {a : α}
    (h : FMap.get? m k = some a) (hp : p (k, a) = true) : FMap.get? (m.filter p) k = some a := by
  induction m with
  | nil => cases h
  | cons x m ih =>
    rw [FMap.get?_cons] at h
    split at h
    · next hk =>
      have hx : x = (k, a) := Prod.ext hk (Option.some.inj h)
      rw [List.filter_cons_of_pos (by rw [hx]; exact hp), FMap.get?_cons, if_pos hk, h]
    · next hk =>
      cases hx : p x with
      | true => rw [List.filter_cons_of_pos hx, FMap.get?_cons, if_neg hk, ih h]
      | false => rw [List.filter_cons_of_neg (by simp [hx]), ih h]

/-- R723: the slot that a set takes: one with a setting that the request names, else the lowest free one. -/
def Pert.slotFor (x : Pert) (q : PertReq) : Nat :=
  match x.slots.find? (fun y => q.names y.2) with
  | some p => p.1
  | none => lowestFree (x.slots.map (fun p => p.1)) 64 0

/-- R723: the setting that a set leaves. -/
def PertReq.setting (q : PertReq) : Setting :=
  ⟨q.control, if deviceScope q.control then 0xFF else q.field, BitVec.ofNat 32 q.target, BitVec.ofNat 32 q.value,
    if q.control = 8 then q.index else 0, q.control == 8⟩

theorem slots_apply_set (x : Pert) {q : PertReq} (h1 : q.action ≠ 1) (h2 : q.action ≠ 2) :
    (x.apply q).slots = FMap.set x.slots (x.slotFor q) q.setting := by
  simp only [Pert.apply, if_neg h1, if_neg h2]
  rfl

theorem slots_apply_clear (x : Pert) {q : PertReq} (h : q.action = 1) :
    (x.apply q).slots = x.slots.filter (fun y => !q.names y.2) := by
  simp [Pert.apply, h]

theorem slots_apply_clearAll (x : Pert) {q : PertReq} (h : q.action = 2) : (x.apply q).slots = [] := by
  simp [Pert.apply, h]

theorem names_setting {q : PertReq} (h : q.target < 2 ^ 32) : q.names q.setting = true := by
  have htarget : q.setting.target.toNat = q.target := by
    change (BitVec.ofNat 32 q.target).toNat = q.target
    rw [BitVec.toNat_ofNat, Nat.mod_eq_of_lt h]
  have hfield : (deviceScope q.control || q.setting.field == q.field) = true := by
    cases hscope : deviceScope q.control <;> simp [PertReq.setting, hscope]
  have hindex : (q.control != 8 || q.action != 0 || q.setting.index == q.index) = true := by
    by_cases h8 : q.control = 8 <;> simp [PertReq.setting, h8]
  simp only [PertReq.names, htarget, hfield, hindex, beq_self_eq_true, Bool.and_self, Bool.and_true]
  exact beq_self_eq_true q.control

/-- A set that passes its checks takes no slot of a setting that the request does not name. -/
theorem slotFor_ne {s : State} {q : PertReq} (hfault : s.pertFault q = none) (h1 : q.action ≠ 1) (h2 : q.action ≠ 2)
    {n : Nat} {y : Setting} (hn : FMap.get? s.pert.slots n = some y)
    (hother : ∀ p ∈ s.pert.slots, p.1 = n → q.names p.2 = false) : s.pert.slotFor q ≠ n := by
  unfold Pert.slotFor
  cases hfind : s.pert.slots.find? (fun y => q.names y.2) with
  | some p =>
    intro hp
    have hnamed := List.find?_some hfind
    rw [hother p (List.mem_of_find?_eq_some hfind) hp] at hnamed
    cases hnamed
  | none =>
    have hnone : s.pert.slots.any (fun y => q.names y.2) = false := by
      simpa using List.find?_eq_none.mp hfind
    have hroom : s.pert.slots.length < 64 := by
      simp only [State.pertFault, hnone, if_neg h1, if_neg h2, ite_eq_iff] at hfault
      simp only [reduceCtorEq, and_false, false_or, Bool.not_false, Bool.true_and, decide_eq_true_eq, not_le] at hfault
      tauto
    obtain ⟨m, hm, hfree⟩ := exists_not_mem_of_length_lt (used := s.pert.slots.map (fun p => p.1)) (n := 64) (by simpa using hroom)
    have hout := lowestFree_not_mem (fuel := 64) (n := 0) ⟨m, Nat.zero_le _, by omega, hfree⟩
    rintro hp
    dsimp only at hp
    rw [hp] at hout
    exact hout (List.mem_map.mpr ⟨(n, y), FMap.mem_of_get? hn, rfl⟩)

/-- R680: register n after an extension of register k. -/
theorem mr_extend (s : State) (k n : Nat) (e : Bytes) :
    (s.extend k e).trust.mr.getD n [] = if n = k ∧ k < s.trust.mr.length then
      sha384 (s.trust.mr.getD k (zeros 48) ++ sha384 e) else s.trust.mr.getD n [] := by
  change (s.trust.mr.set k (sha384 (s.trust.mr.getD k (zeros 48) ++ sha384 e))).getD n [] = _
  by_cases hn : n = k
  · subst hn
    by_cases hlen : n < s.trust.mr.length
    · simp [hlen, List.getD_eq_getElem?_getD]
    · simp [hlen, List.getD_eq_getElem?_getD]
  · simp [hn, List.getD_eq_getElem?_getD, List.getElem?_set_ne (Ne.symm hn)]

/-- R723, Table 11.6: what an accepted request leaves. -/
theorem pertApply_leaves {s : State} {q : PertReq} (htarget : q.target < 2 ^ 32) (hfault : s.pertFault q = none) :
    let t := s.pertApply q
    (q.action = 0 → ∃ n y, FMap.get? t.pert.slots n = some y ∧ q.names y = true ∧ y.value = BitVec.ofNat 32 q.value) ∧
    (q.action = 1 → ∀ p ∈ t.pert.slots, q.names p.2 = false) ∧
    (q.action ≠ 2 → ∀ n y, FMap.get? s.pert.slots n = some y → (∀ p ∈ s.pert.slots, p.1 = n → q.names p.2 = false) →
      FMap.get? t.pert.slots n = some y) ∧
    (q.action = 2 → t.pert.slots = []) := by
  dsimp only
  rw [pert_pertApply]
  refine ⟨fun h0 => ?_, fun h1 => ?_, fun h2 n y hn hother => ?_, fun h2 => slots_apply_clearAll _ h2⟩
  · rw [slots_apply_set _ (by omega) (by omega)]
    exact ⟨_, _, FMap.get?_set_self _ _ _, names_setting htarget, rfl⟩
  · rw [slots_apply_clear _ h1]
    intro p hp
    simpa using (List.mem_filter.mp hp).2
  · by_cases h1 : q.action = 1
    · rw [slots_apply_clear _ h1]
      refine FMap.get?_filter_of_pos hn ?_
      rw [hother (n, y) (FMap.mem_of_get? hn) rfl, Bool.not_false]
    · rw [slots_apply_set _ h1 h2, FMap.get?_set_ne _ _ (slotFor_ne hfault h1 h2 hn hother), hn]

/-- Settles O15: both ways of asking end in `pertApply`, whose settings are a set, a filter or none. -/
theorem perturbation : Obligations.Perturbation := by
  unfold Obligations.Perturbation
  refine ⟨⟨fun s ring dma c h => execTestPerturb_of_admits h, fun s v hserved hgo => ⟨?_, ?_, ?_, ?_, ?_⟩⟩,
    fun s q htarget hfault => ?_⟩
  · exact execPertGo_of_served hserved hgo false
  · intro hfault
    rw [execPertGo_of_served hserved hgo true, if_pos rfl, takePert_of_accepted hfault]
    rfl
  · intro st hfault
    rw [execPertGo_of_served hserved hgo true, if_pos rfl, takePert_of_refused hfault]
    rfl
  · exact takeBusy_of_busy
  · exact takeBusy_of_not_busy
  · obtain ⟨hset, hclear, hkeep, hall⟩ := pertApply_leaves htarget hfault
    have htells := tells_pertApply s q
    refine ⟨hset, hclear, hkeep, hall, fun hlen => ?_, fun n hn => ?_, ?_, htells.cmds, htells.fields, htells.indexes, ?_,
      htells.tbk, htells.glob⟩
    · rw [htells.trust, mr_extend, if_pos ⟨rfl, (by decide : 7 < 8).trans_eq hlen.symm⟩]
      rfl
    · rw [htells.trust, mr_extend, if_neg (by omega)]
      rfl
    · exact htells.rings
    · rw [htells.trust]
      rfl

end Sys2Proof.Machine

/-! ### STAKE_WRITE (R212, R213, R636 to R645) -/

namespace Sys2Proof.Machine

/-! #### The record of a slot (Table 11.10) -/

theorem num_lt (b : Bytes) (o n : Nat) : num b o n < 256 ^ n := by
  have h := le_lt (slice b o n)
  rwa [slice, length_fit] at h

/-- The bytes of a slot's record that its check covers. -/
def stakeBody (k slot value date svn : Nat) : Bytes :=
  leBytes 8 value ++ leBytes 4 date ++ leBytes 4 svn ++ leBytes 1 slot ++ leBytes 1 k ++ zeros 10

section Record
variable (k slot value date svn : Nat)

theorem stakeRecord_eq :
    stakeRecord k slot value date svn =
      stakeBody k slot value date svn ++ leBytes 4 (crc32c (stakeBody k slot value date svn)).toNat := rfl

@[simp] theorem length_stakeBody : (stakeBody k slot value date svn).length = 28 := by simp [stakeBody, zeros]

@[simp] theorem length_stakeRecord : (stakeRecord k slot value date svn).length = 32 := by simp [stakeRecord_eq]

theorem slice_stakeRecord_body : slice (stakeRecord k slot value date svn) 0 28 = stakeBody k slot value date svn := by
  rw [slice_of_le_length (by simp), List.drop_zero, stakeRecord_eq, List.take_left' (by simp)]

theorem num_stakeRecord_check :
    num (stakeRecord k slot value date svn) 28 4 = (crc32c (stakeBody k slot value date svn)).toNat := by
  have h := num_append_leBytes (length_stakeBody k slot value date svn) 4
    (crc32c (stakeBody k slot value date svn)).toNat []
  rw [List.append_nil] at h
  rw [stakeRecord_eq, h, Nat.mod_eq_of_lt ((crc32c (stakeBody k slot value date svn)).isLt.trans_eq (by norm_num))]

theorem num_stakeRecord_value (h : value < 2 ^ 64) : num (stakeRecord k slot value date svn) 0 8 = value := by
  have hvalue := num_append_leBytes (a := []) (o := 0) rfl 8 value (leBytes 4 date ++ leBytes 4 svn ++ leBytes 1 slot ++
    leBytes 1 k ++ zeros 10 ++ leBytes 4 (crc32c (stakeBody k slot value date svn)).toNat)
  simp only [List.nil_append, ← List.append_assoc] at hvalue
  rw [stakeRecord_eq]
  unfold stakeBody at hvalue ⊢
  rw [hvalue, Nat.mod_eq_of_lt (h.trans_eq (by norm_num))]

theorem num_stakeRecord_slot (h : slot < 256) : num (stakeRecord k slot value date svn) 16 1 = slot := by
  have hslot := num_append_leBytes (a := leBytes 8 value ++ leBytes 4 date ++ leBytes 4 svn) (o := 16) (by simp) 1 slot
    (leBytes 1 k ++ zeros 10 ++ leBytes 4 (crc32c (stakeBody k slot value date svn)).toNat)
  simp only [← List.append_assoc] at hslot
  rw [stakeRecord_eq]
  unfold stakeBody at hslot ⊢
  rw [hslot, Nat.mod_eq_of_lt (h.trans_eq (by norm_num))]

theorem num_stakeRecord_stake (h : k < 256) : num (stakeRecord k slot value date svn) 17 1 = k := by
  have hstake := num_append_leBytes (a := leBytes 8 value ++ leBytes 4 date ++ leBytes 4 svn ++ leBytes 1 slot) (o := 17)
    (by simp) 1 k (zeros 10 ++ leBytes 4 (crc32c (stakeBody k slot value date svn)).toNat)
  simp only [← List.append_assoc] at hstake
  rw [stakeRecord_eq]
  unfold stakeBody at hstake ⊢
  rw [hstake, Nat.mod_eq_of_lt (h.trans_eq (by norm_num))]

theorem slice_stakeRecord_reserved : slice (stakeRecord k slot value date svn) 18 10 = zeros 10 := by
  rw [slice_of_le_length (by simp), stakeRecord_eq, stakeBody, List.append_assoc,
    List.drop_left' (by simp), List.take_left' (by simp [zeros])]

/-- R637: a record of its own slot is a valid copy. -/
theorem copyValid_stakeRecord (hslot : slot < 256) (hk : k < 256) :
    copyValid k slot (stakeRecord k slot value date svn) = true := by
  simp [copyValid, num_stakeRecord_check, slice_stakeRecord_body, slice_stakeRecord_reserved,
    num_stakeRecord_slot k slot value date svn hslot, num_stakeRecord_stake k slot value date svn hk]

/-- R637: a record is never blank: the check of 28 zero bytes is not zero. -/
theorem stakeRecord_ne_zeros : stakeRecord k slot value date svn ≠ zeros 32 := by
  intro h
  have hbody : stakeBody k slot value date svn = zeros 28 := by
    rw [← slice_stakeRecord_body, h]
    decide
  have hcheck := num_stakeRecord_check k slot value date svn
  rw [hbody, h] at hcheck
  revert hcheck
  decide +kernel

end Record

theorem badCopy_ne_zeros (k slot c : Nat) : badCopy k slot c ≠ zeros 32 := by
  unfold badCopy
  dsimp only
  split
  · decide
  · assumption

/-! #### The store once a slot is programmed -/

section Program
variable (t : Trust) (k slot c : Nat) (b : Bytes)

theorem get?_stakes_program {key : Nat} (h : key ≠ k * 256 + slot * 2 + c) :
    FMap.get? (t.program k slot c b).stakes key = FMap.get? t.stakes key :=
  FMap.get?_set_ne _ _ (Ne.symm h)

theorem copy_program_self : (t.program k slot c b).copy k slot c = b := by
  rw [Trust.copy, Trust.program, FMap.getD_set_self]

theorem copy_program_of_ne {n d : Nat} (h : n * 2 + d ≠ slot * 2 + c) : (t.program k slot c b).copy k n d = t.copy k n d := by
  rw [Trust.copy, Trust.program, FMap.getD_set_ne _ _ _ (by omega), Trust.copy]

end Program

section Programmed
variable (s : State) (k value date : Nat) (v0 v1 : Bool)

theorem get?_stakes_programStake {key : Nat} (h0 : key ≠ k * 256 + s.trust.used k * 2)
    (h1 : key ≠ k * 256 + s.trust.used k * 2 + 1) :
    FMap.get? (s.programStake k value date v0 v1).stakes key = FMap.get? s.trust.stakes key := by
  have hfirst : key ≠ k * 256 + s.trust.used k * 2 + 0 := by rw [Nat.add_zero]; exact h0
  unfold State.programStake
  dsimp only
  split
  · exact get?_stakes_program s.trust k (s.trust.used k) 0 _ hfirst
  · rw [get?_stakes_program _ k (s.trust.used k) 1 _ h1, get?_stakes_program s.trust k (s.trust.used k) 0 _ hfirst]

theorem copy_programStake_of_ne {n c : Nat} (hc : c < 2) (h : n ≠ s.trust.used k) :
    (s.programStake k value date v0 v1).copy k n c = s.trust.copy k n c := by
  unfold State.programStake
  dsimp only
  split
  · exact copy_program_of_ne _ _ _ _ _ (by omega)
  · rw [copy_program_of_ne _ _ _ _ _ (by omega), copy_program_of_ne _ _ _ _ _ (by omega)]

theorem copy0_programStake :
    (s.programStake k value date v0 v1).copy k (s.trust.used k) 0 =
      if v0 then stakeRecord k (s.trust.used k) value date s.fwSvn else badCopy k (s.trust.used k) 0 := by
  cases v0 with
  | false => exact copy_program_self _ _ _ _ _
  | true => exact (copy_program_of_ne _ _ _ _ _ (by omega)).trans (copy_program_self _ _ _ _ _)

theorem copy1_programStake_of_failed :
    (s.programStake k value date false v1).copy k (s.trust.used k) 1 = s.trust.copy k (s.trust.used k) 1 :=
  copy_program_of_ne _ _ _ _ _ (by omega)

theorem copy1_programStake :
    (s.programStake k value date true true).copy k (s.trust.used k) 1 =
      stakeRecord k (s.trust.used k) value date s.fwSvn :=
  copy_program_self _ _ _ _ _

end Programmed

/-! #### Slots used and values (R638, R645) -/

theorem maxBy_le {α : Type} {key : α → Nat} {l : List α} {n : Nat} (h : ∀ a ∈ l, key a ≤ n) : maxBy key l ≤ n := by
  have hfold : ∀ (l : List α) (m : Nat), m ≤ n → (∀ a ∈ l, key a ≤ n) → l.foldl (fun m a => max m (key a)) m ≤ n := by
    intro l
    induction l with
    | nil => exact fun _ hm _ => hm
    | cons a l ih =>
      exact fun m hm hl => ih _ (max_le hm (hl a List.mem_cons_self)) (fun b hb => hl b (List.mem_cons_of_mem a hb))
  exact hfold l 0 (Nat.zero_le n) h

/-- R645: with the slot above the highest used one no longer blank, one more is used. -/
theorem used_succ {t u : Trust} {k : Nat} (hroom : t.used k < stakeSlots k) (hnew : u.blank k (t.used k) = false)
    (hold : ∀ n, n ≠ t.used k → u.blank k n = t.blank k n) : u.used k = t.used k + 1 := by
  refine Nat.le_antisymm (maxBy_le fun n hn => ?_) ?_
  · split
    · exact Nat.zero_le _
    · next hb =>
      by_contra hlt
      have hn' : t.used k < n := by omega
      have hblank := Trust.blank_above t k n (List.mem_range.mp hn) hn'.le
      rw [hold n hn'.ne', hblank] at hb
      exact hb rfl
  · have hle := le_maxBy (fun n => if u.blank k n then 0 else n + 1) (List.range (stakeSlots k)) (List.mem_range.mpr hroom)
    rwa [hnew, if_neg Bool.false_ne_true] at hle

theorem stakeSlots_le (k : Nat) : stakeSlots k ≤ 63 := by
  unfold stakeSlots
  split
  · omega
  · split <;> omega

theorem used_programStake {s : State} {k : Nat} (hroom : s.trust.used k < stakeSlots k) (value date : Nat) (v0 v1 : Bool) :
    (s.programStake k value date v0 v1).used k = s.trust.used k + 1 := by
  refine used_succ hroom ?_ (fun n hn => ?_)
  · have hcopy : (s.programStake k value date v0 v1).copy k (s.trust.used k) 0 ≠ zeros 32 := by
      rw [copy0_programStake]
      split
      · exact stakeRecord_ne_zeros _ _ _ _ _
      · exact badCopy_ne_zeros _ _ _
    simp [Trust.blank, hcopy]
  · simp only [Trust.blank, copy_programStake_of_ne s k value date v0 v1 (by decide : (0 : Nat) < 2) hn,
      copy_programStake_of_ne s k value date v0 v1 (by decide : (1 : Nat) < 2) hn]

theorem slotRecord_programStake {s : State} {k : Nat} (hroom : s.trust.used k < stakeSlots k) (hk : k ≤ 4)
    (value date : Nat) (v1 : Bool) : (s.programStake k value date true v1).slotRecord k (s.trust.used k) =
      some (stakeRecord k (s.trust.used k) value date s.fwSvn) := by
  have hslots := stakeSlots_le k
  have hvalid := copyValid_stakeRecord k (s.trust.used k) value date s.fwSvn (by omega) (by omega)
  unfold Trust.slotRecord
  dsimp only
  rw [copy0_programStake, if_pos rfl, if_pos hvalid]

theorem slotRecord_programStake_of_ne (s : State) (k value date : Nat) (v0 v1 : Bool) {n : Nat} (hn : n ≠ s.trust.used k) :
    (s.programStake k value date v0 v1).slotRecord k n = s.trust.slotRecord k n := by
  simp only [Trust.slotRecord, copy_programStake_of_ne s k value date v0 v1 (by decide : (0 : Nat) < 2) hn,
    copy_programStake_of_ne s k value date v0 v1 (by decide : (1 : Nat) < 2) hn]

/-- R638: the value of a slot that holds a record. -/
def Trust.slotValue (t : Trust) (k n : Nat) : Nat :=
  match t.slotRecord k n with
  | none => 0
  | some b => num b 0 8

theorem current_of_floor (t : Trust) : t.current 1 = maxBy (t.slotValue 1) (List.range (t.used 1)) := rfl

/-- R638: the value of a stake whose new slot holds its record. -/
theorem current_programStake {s : State} {k value : Nat} (hroom : s.trust.used k < stakeSlots k) (hk : k ≤ 4)
    (hvalue : value < 2 ^ 64) (hfloor : k = 1 → s.trust.current 1 ≤ value) (date : Nat) (v1 : Bool) :
    (s.programStake k value date true v1).current k = value := by
  have hrecord := slotRecord_programStake hroom hk value date v1
  have hnum := num_stakeRecord_value k (s.trust.used k) value date s.fwSvn hvalue
  have hused := used_programStake hroom value date true v1
  by_cases h1 : k = 1
  · subst h1
    have hnew : (s.programStake 1 value date true v1).slotValue 1 (s.trust.used 1) = value := by
      rw [Trust.slotValue, hrecord]
      exact hnum
    rw [current_of_floor, hused]
    refine Nat.le_antisymm (maxBy_le fun n hn => ?_) ?_
    · by_cases hslot : n = s.trust.used 1
      · rw [hslot, hnew]
      · have hbelow : n ∈ List.range (s.trust.used 1) := by
          rw [List.mem_range] at hn ⊢
          omega
        rw [Trust.slotValue, slotRecord_programStake_of_ne s 1 value date true v1 hslot]
        exact (le_maxBy (s.trust.slotValue 1) _ hbelow).trans (hfloor rfl)
    · calc value = (s.programStake 1 value date true v1).slotValue 1 (s.trust.used 1) := hnew.symm
        _ ≤ _ := le_maxBy _ _ (List.mem_range.mpr (Nat.lt_succ_self _))
  · unfold Trust.current
    dsimp only
    rw [if_neg h1, hused, if_neg (Nat.succ_ne_zero _), Nat.add_sub_cancel, hrecord]
    exact hnum

/-! #### What follows the programming: events, and the switches that a policy clears -/

/-- From s to t the stake store, its effective values and the flash stay, and so do rings, commands, indexes and TBK. -/
structure StoreKept (s t : State) : Prop where
  stakes : t.trust.stakes = s.trust.stakes
  effective : t.trust.effective = s.trust.effective
  flash : t.trust.flash = s.trust.flash
  rings : s.ringsKept t
  cmds : t.cmds = s.cmds
  indexes : t.indexes = s.indexes
  tbk : t.tbk = s.tbk

theorem StoreKept.refl (s : State) : StoreKept s s := ⟨rfl, rfl, rfl, State.ringsKept_of_rings_eq rfl, rfl, rfl, rfl⟩

theorem StoreKept.trans {r s t : State} (h : StoreKept r s) (g : StoreKept s t) : StoreKept r t :=
  ⟨g.stakes.trans h.stakes, g.effective.trans h.effective, g.flash.trans h.flash, State.ringsKept.trans h.rings g.rings,
    g.cmds.trans h.cmds, g.indexes.trans h.indexes, g.tbk.trans h.tbk⟩

theorem StoreKept.of_tells {s t : State} (h : Tells s t) : StoreKept s t :=
  ⟨by rw [h.trust], by rw [h.trust], by rw [h.trust], h.rings, h.cmds, h.indexes, h.tbk⟩

theorem StoreKept.foldl {α : Type} {f : State → α → State} (h : ∀ s a, StoreKept s (f s a)) (l : List α) (s : State) :
    StoreKept s (l.foldl f s) := by
  induction l generalizing s with
  | nil => exact StoreKept.refl s
  | cons a l ih => exact (h s a).trans (ih (f s a))

theorem storeKept_extend (s : State) (n : Nat) (e : Bytes) : StoreKept s (s.extend n e) :=
  ⟨rfl, rfl, rfl, State.ringsKept_of_rings_eq rfl, rfl, rfl, rfl⟩

theorem storeKept_stakeEvent (s : State) (e : Nat × Nat) : StoreKept s (s.stakeEvent e) :=
  StoreKept.trans (s := s.setTrust { s.trust with integrity := s.trust.integrity ++ [e] })
    ⟨rfl, rfl, rfl, State.ringsKept_of_rings_eq rfl, rfl, rfl, rfl⟩
    (((StoreKept.of_tells (tells_logEvent _ _ _ _ _ _)).trans (StoreKept.of_tells (tells_count _ _ _ _))).trans
      (storeKept_extend _ _ _))

theorem storeKept_resolveStakes (s : State) : StoreKept s s.resolveStakes :=
  StoreKept.trans (s := s.setTrust { s.trust with resolved := true, stakeGen := s.trust.stakeGen + 2 })
    ⟨rfl, rfl, rfl, State.ringsKept_of_rings_eq rfl, rfl, rfl, rfl⟩ (StoreKept.foldl storeKept_stakeEvent _ _)

theorem storeKept_switchOff (s : State) (f : Nat) (perturb : Bool) : StoreKept s (s.switchOff f perturb) := by
  unfold State.switchOff
  split
  · exact StoreKept.refl s
  · split
    · exact ⟨rfl, rfl, rfl, State.ringsKept_of_rings_eq rfl, rfl, rfl, rfl⟩
    · split
      · exact ⟨rfl, rfl, rfl, State.ringsKept_of_rings_eq rfl, rfl, rfl, rfl⟩
      · exact StoreKept.refl s

theorem storeKept_switchesOff (p perturb : Bool) (fs : List Nat) (s : State) :
    StoreKept s (if p then fs.foldl (fun s f => s.switchOff f perturb) s else s) := by
  split
  · exact StoreKept.foldl (fun s f => storeKept_switchOff s f perturb) fs s
  · exact StoreKept.refl s

theorem storeKept_permitsCleared (s : State) (old new : Nat) : StoreKept s (s.permitsCleared old new) := by
  have hcleared (t : State) (p : Bool) (x : Pert) : StoreKept t (if p then { t with pert := x } else t) := by
    split
    · exact ⟨rfl, rfl, rfl, State.ringsKept_of_rings_eq rfl, rfl, rfl, rfl⟩
    · exact StoreKept.refl t
  exact ((storeKept_switchesOff _ true _ s).trans (storeKept_switchesOff _ false _ _)).trans (hcleared _ _ _)

/-- R640, R648: what a STAKE_WRITE leaves once its copies are programmed. -/
def State.afterStake (s : State) (pkt : Bytes) (v0 v1 : Bool) : State :=
  let k := num pkt 16 1
  let t := (s.setTrust (s.programStake k (num pkt 24 8) (num pkt 20 4) v0 v1)).resolveStakes
  if k = 0 then t.permitsCleared (s.trust.current k) (t.trust.current 0) else t

theorem storeKept_afterStake (s : State) (pkt : Bytes) (v0 v1 : Bool) :
    StoreKept (s.setTrust (s.programStake (num pkt 16 1) (num pkt 24 8) (num pkt 20 4) v0 v1)) (s.afterStake pkt v0 v1) := by
  unfold State.afterStake
  dsimp only
  split
  · exact (storeKept_resolveStakes _).trans (storeKept_permitsCleared _ _ _)
  · exact storeKept_resolveStakes _

/-- R643, R644: a written stake is logged and measured; one whose copies do not verify is not. -/
def State.stakeWritten (s : State) (pkt : Bytes) (v0 v1 : Bool) : State :=
  let t := s.afterStake pkt v0 v1
  let k := num pkt 16 1
  if v0 && v1 then
    (t.logEvent evSTAKE_WRITTEN 0xFF 0 noUnit [BitVec.ofNat 8 k, BitVec.ofNat 8 (s.trust.used k)]).extend 2
      (eventRecord 0x21 (t.trust.copy k (s.trust.used k) 0))
  else t

theorem storeKept_stakeWritten (s : State) (pkt : Bytes) (v0 v1 : Bool) :
    StoreKept (s.setTrust (s.programStake (num pkt 16 1) (num pkt 24 8) (num pkt 20 4) v0 v1))
      (s.stakeWritten pkt v0 v1) := by
  refine (storeKept_afterStake s pkt v0 v1).trans ?_
  unfold State.stakeWritten
  dsimp only
  split
  · exact (StoreKept.of_tells (tells_logEvent _ _ _ _ _ _)).trans (storeKept_extend _ _ _)
  · exact StoreKept.refl _

/-- Two stores with the same stakes read alike. -/
theorem copy_of_stakes {t u : Trust} (h : t.stakes = u.stakes) (k slot c : Nat) : t.copy k slot c = u.copy k slot c := by
  rw [Trust.copy, h, Trust.copy]

theorem used_of_stakes {t u : Trust} (h : t.stakes = u.stakes) (k : Nat) : t.used k = u.used k := by
  simp only [Trust.used, Trust.blank, copy_of_stakes h]
  rfl

theorem current_of_stakes {t u : Trust} (h : t.stakes = u.stakes) (k : Nat) : t.current k = u.current k := by
  simp only [Trust.current, Trust.slotRecord, used_of_stakes h, copy_of_stakes h]

/-- R212, R213: a STAKE_WRITE that passes its checks. -/
theorem exec_stakeWrite_of_admits {s : State} {ring : Nat} {dma : Dma} {c : Cmd} (h : s.admits 0x59 ring dma c = true)
    (hpass : ∀ x ∈ s.stakeChecks c.pkt, x.1 = false) (v0 v1 : Bool) :
    exec (.stakeWrite ring dma v0 v1) s = .next (s.settle c dma
      (if v0 && v1 then yes (s.stakeWritten c.pkt v0 v1) (s.trust.used (num c.pkt 16 1))
        else failed (s.stakeWritten c.pkt v0 v1) 0x0103)) := by
  change execStakeWrite ring dma v0 v1 s = _
  refine (State.runPacket_of_passes (o := opA 0x59 .none) rfl rfl h rfl hpass).trans ?_
  unfold State.stakeWritten
  dsimp only
  cases hv : v0 && v1 with
  | true => rfl
  | false => rfl

theorem stakeChecks_pass {s : State} {pkt : Bytes} (hk : num pkt 16 1 ≤ 4)
    (hok : stakeValueOk (num pkt 16 1) (num pkt 24 8) = true) (hslot : num pkt 17 1 = s.trust.used (num pkt 16 1))
    (hne : num pkt 24 8 ≠ s.trust.current (num pkt 16 1))
    (hfloor : num pkt 16 1 = 1 → s.trust.current 1 ≤ num pkt 24 8 ∧ num pkt 24 8 ≤ s.fwSvn)
    (hlimit : num pkt 16 1 = 3 → s.fieldCount ≤ num pkt 24 8) (hroom : s.trust.used (num pkt 16 1) < stakeSlots (num pkt 16 1)) :
    ∀ x ∈ s.stakeChecks pkt, x.1 = false := by
  have hfloor' : (num pkt 16 1 == 1 && (decide (num pkt 24 8 < s.trust.current (num pkt 16 1)) ||
      decide (s.fwSvn < num pkt 24 8))) = false := by
    by_cases h1 : num pkt 16 1 = 1
    · simp [h1, hfloor h1]
    · simp [h1]
  have hlimit' : (num pkt 16 1 == 3 && decide (num pkt 24 8 < s.fieldCount)) = false := by
    by_cases h3 : num pkt 16 1 = 3
    · simp [hlimit h3]
    · simp [h3]
  simp [State.stakeChecks, hk, hok, hslot, hne, hroom, hfloor', hlimit']

/-- Settles O16: only the slot above the highest used one is programmed; what follows changes no stored copy. -/
theorem stakeWrite : Obligations.StakeWrite := by
  unfold Obligations.StakeWrite
  intro s ring dma c v0 v1 h k v slot record hk hok hslot hne hfloor hlimit hroom
  have hkept := storeKept_stakeWritten s c.pkt v0 v1
  have hcopy := copy_of_stakes hkept.stakes
  have hvalue : v < 2 ^ 64 := (num_lt c.pkt 24 8).trans_eq (by norm_num)
  refine ⟨s.stakeWritten c.pkt v0 v1,
    exec_stakeWrite_of_admits h (stakeChecks_pass hk hok hslot hne hfloor hlimit hroom) v0 v1, fun key h0 h1 => ?_,
    fun hv0 => ?_, fun hv0 hv1 => ⟨?_, ?_⟩, fun hv0 => ?_, ?_, hkept.effective.trans ?_, hkept.flash.trans ?_, hkept.rings,
    hkept.cmds, hkept.indexes, hkept.tbk⟩
  · rw [hkept.stakes]
    exact get?_stakes_programStake s k v _ v0 v1 h0 h1
  · rw [hcopy]
    exact (copy0_programStake s k v _ v0 v1).trans (if_pos hv0)
  · subst hv0 hv1
    rw [hcopy]
    exact copy1_programStake s k v _
  · subst hv0
    rw [current_of_stakes hkept.stakes]
    exact current_programStake hroom hk hvalue (fun h1 => (hfloor h1).1) _ v1
  · subst hv0
    rw [hcopy]
    exact copy1_programStake_of_failed s k v (num c.pkt 20 4) v1
  · rw [used_of_stakes hkept.stakes]
    exact used_programStake hroom v _ v0 v1
  · show (s.programStake k v _ v0 v1).effective = _
    unfold State.programStake
    dsimp only
    split <;> rfl
  · exact programStake_flash s k v _ v0 v1

end Sys2Proof.Machine

/-! ### FIRMWARE_STAGE and FIRMWARE_ACTIVATE (R219 to R222, R609, R614, R615) -/

namespace Sys2Proof.Machine

/-- An admitted packet, with or without a parameter block, whose opcode's own checks all pass. -/
theorem State.runPacket_of_checked {s : State} {code ring : Nat} {dma : Dma} {c : Cmd} {body : Ctx → State → Verdict}
    {l : List (Bool × Nat)} {k : Unit → Verdict} (h : s.admits code ring dma c = true)
    (hbody : body (ctxOf c dma) (s.readBlock c none) = checks l k) (hpass : ∀ x ∈ l, x.1 = false) :
    s.runPacket code ring dma body = .next ((s.readBlock c none).settle c dma (k ())) := by
  rw [State.runPacket_of_admits h, hbody, checks_of_forall hpass]

theorem State.readBlock_trust (s : State) (c : Cmd) (st : Option Nat) : (s.readBlock c st).trust = s.trust := by
  obtain ⟨out, h⟩ := s.readBlock_eq c st
  rw [h]

/-! #### The activation sector (Table 11.4) -/

/-- The bytes of a sector that its check covers. -/
def sectorBody (x : Sector) : Bytes := leBytes 4 0x4B514153 ++ leBytes 1 x.state ++ zeros 3 ++ leBytes 8 x.actSeq ++ fit 48 x.digest

section Sectors
variable (x : Sector)

theorem sectorBytes_eq : sectorBytes x = sectorBody x ++ leBytes 4 (crc32c (sectorBody x)).toNat := rfl

@[simp] theorem length_sectorBody : (sectorBody x).length = 64 := by simp [sectorBody, zeros, length_fit]

@[simp] theorem length_sectorBytes : (sectorBytes x).length = 68 := by simp [sectorBytes_eq]

theorem take_sectorBytes : (sectorBytes x).take 64 = sectorBody x := by
  rw [sectorBytes_eq, List.take_left' (length_sectorBody x)]

theorem num_sectorBytes_check : num (sectorBytes x) 64 4 = (crc32c (sectorBody x)).toNat := by
  have h := num_append_leBytes (length_sectorBody x) 4 (crc32c (sectorBody x)).toNat []
  rw [List.append_nil] at h
  rw [sectorBytes_eq, h, Nat.mod_eq_of_lt ((crc32c (sectorBody x)).isLt.trans_eq (by norm_num))]

theorem num_sectorBytes_magic : num (sectorBytes x) 0 4 = 0x4B514153 := by
  have h := num_append_leBytes (a := []) (o := 0) rfl 4 0x4B514153 (leBytes 1 x.state ++ zeros 3 ++ leBytes 8 x.actSeq ++
    fit 48 x.digest ++ leBytes 4 (crc32c (sectorBody x)).toNat)
  simp only [List.nil_append, ← List.append_assoc] at h
  rw [sectorBytes_eq]
  unfold sectorBody at h ⊢
  exact h

theorem num_sectorBytes_state (hx : x.state < 256) : num (sectorBytes x) 4 1 = x.state := by
  have h := num_append_leBytes (a := leBytes 4 0x4B514153) (o := 4) (by simp) 1 x.state (zeros 3 ++ leBytes 8 x.actSeq ++
    fit 48 x.digest ++ leBytes 4 (crc32c (sectorBody x)).toNat)
  simp only [← List.append_assoc] at h
  rw [sectorBytes_eq]
  unfold sectorBody at h ⊢
  rw [h, Nat.mod_eq_of_lt (hx.trans_eq (by norm_num))]

theorem num_sectorBytes_actSeq (hx : x.actSeq < 2 ^ 64) : num (sectorBytes x) 8 8 = x.actSeq := by
  have h := num_append_leBytes (a := leBytes 4 0x4B514153 ++ leBytes 1 x.state ++ zeros 3) (o := 8) (by simp [zeros]) 8 x.actSeq
    (fit 48 x.digest ++ leBytes 4 (crc32c (sectorBody x)).toNat)
  simp only [← List.append_assoc] at h
  rw [sectorBytes_eq]
  unfold sectorBody at h ⊢
  rw [h, Nat.mod_eq_of_lt (hx.trans_eq (by norm_num))]

theorem slice_sectorBytes_digest : slice (sectorBytes x) 16 48 = fit 48 x.digest := by
  have hfront : (leBytes 4 0x4B514153 ++ leBytes 1 x.state ++ zeros 3 ++ leBytes 8 x.actSeq).length = 16 := by simp [zeros]
  rw [slice_of_le_length (by simp), sectorBytes_eq, sectorBody, List.append_assoc, List.drop_left' hfront,
    List.take_left' (length_fit _ _)]

end Sectors

/-- R613, R614: a sector reads back as it was written. -/
theorem sector_writeSector (t : Trust) (slot : Nat) {st n : Nat} {d : Bytes} (hstate : st ≤ 2) (hseq : n < 2 ^ 64)
    (hdigest : d.length = 48) : (t.writeSector slot ⟨st, n, d⟩).sector slot = ⟨st, n, d⟩ := by
  generalize hx : Sector.mk st n d = x
  replace hstate : x.state ≤ 2 := hx ▸ hstate
  replace hseq : x.actSeq < 2 ^ 64 := hx ▸ hseq
  replace hdigest : x.digest.length = 48 := hx ▸ hdigest
  have hread : (t.writeSector slot x).flashRead (slotBase slot + sectorAt) 68 = sectorBytes x := by
    have h := readN_write_self 0xFF (Mem.clear t.flash (slotBase slot + sectorAt) 4096) (slotBase slot + sectorAt) (sectorBytes x)
    rwa [length_sectorBytes] at h
  unfold Trust.sector
  dsimp only
  rw [hread, num_sectorBytes_magic, num_sectorBytes_check, take_sectorBytes, num_sectorBytes_state x (by omega),
    if_pos ⟨rfl, rfl, hstate⟩, num_sectorBytes_actSeq x hseq, slice_sectorBytes_digest, fit_of_length_eq hdigest]

theorem sector_of_flash {t u : Trust} (h : t.flash = u.flash) (slot : Nat) : t.sector slot = u.sector slot := by
  unfold Trust.sector Trust.flashRead
  rw [h]

theorem length_digest_sector (t : Trust) (slot : Nat) : (t.sector slot).digest.length = 48 := by
  unfold Trust.sector
  dsimp only
  split
  · exact length_fit _ _
  · rfl

/-- R614: a rewritten sector changes no byte outside it. -/
theorem read_writeSector (t : Trust) (slot : Nat) (x : Sector) {a : Nat}
    (h : a < slotBase slot + sectorAt ∨ slotBase slot + sectorAt + 4096 ≤ a) :
    Mem.read 0xFF (t.writeSector slot x).flash a = Mem.read 0xFF t.flash a := by
  have hlength := length_sectorBytes x
  change Mem.read 0xFF (Mem.write 0xFF (Mem.clear t.flash (slotBase slot + sectorAt) 4096) (slotBase slot + sectorAt)
    (sectorBytes x)) a = _
  rw [Mem.read_write_outside _ _ _ _ _ (by omega), Mem.read_clear, if_neg (by omega)]

theorem rewriteSector_eq (s : State) (slot : Nat) (x : Sector) :
    s.rewriteSector slot x = { s with
      trust := s.trust.writeSector slot x
      out := .qspi 0x12 (slotBase slot + sectorAt) 68 :: .qspi 0x21 (slotBase slot + sectorAt) 4096 :: s.out } := rfl

/-! #### Staging a block -/

/-- R219, R609: the flash after a block is laid over a slot. -/
theorem read_stage (t : Trust) (slot off : Nat) (b : Bytes) (erase : Bool) (a : Nat) :
    Mem.read 0xFF (t.stage slot off b erase).flash a =
      if slot * 0x100_0000 + off ≤ a ∧ a < slot * 0x100_0000 + off + b.length ∧ a < slot * 0x100_0000 + 0x0FF_F000 then
        b.getD (a - (slot * 0x100_0000 + off)) 0
      else if erase = true ∧ slot * 0x100_0000 ≤ a ∧ a < (slot + 1) * 0x100_0000 then 0xFF
      else Mem.read 0xFF t.flash a := by
  have hlen : (b.take (0x0FF_F000 - off)).length = min (0x0FF_F000 - off) b.length := List.length_take
  change Mem.read 0xFF (Mem.write 0xFF (if erase then Mem.clear t.flash (slot * 0x100_0000) 0x100_0000 else t.flash)
    (slot * 0x100_0000 + off) (b.take (0x0FF_F000 - off))) a = _
  by_cases hin : slot * 0x100_0000 + off ≤ a ∧ a < slot * 0x100_0000 + off + b.length ∧ a < slot * 0x100_0000 + 0x0FF_F000
  · rw [if_pos hin]
    have hkept : a - (slot * 0x100_0000 + off) < (b.take (0x0FF_F000 - off)).length := by omega
    conv_lhs => rw [show a = slot * 0x100_0000 + off + (a - (slot * 0x100_0000 + off)) by omega]
    rw [Mem.read_write_inside _ _ _ _ _ hkept, List.getD_eq_getElem _ _ hkept, List.getElem_take,
      List.getD_eq_getElem _ _ (by omega)]
  · rw [if_neg hin, Mem.read_write_outside _ _ _ _ _ (by omega)]
    cases erase with
    | false => simp
    | true =>
      rw [if_pos rfl, Mem.read_clear]
      exact if_congr (by constructor <;> intro h <;> [exact ⟨rfl, by omega, by omega⟩; omega]) rfl rfl

theorem trust_stageBlock (s : State) (slot off : Nat) (b : Bytes) (erase : Bool) :
    (s.stageBlock slot off b erase).trust = s.trust.stage slot off b erase := by
  unfold State.stageBlock State.flashProgrammed State.flashErased
  dsimp only
  split <;> split <;> rfl

theorem stageBlock_eq (s : State) (slot off : Nat) (b : Bytes) (erase : Bool) :
    s.stageBlock slot off b erase =
      { s with trust := (s.stageBlock slot off b erase).trust, out := (s.stageBlock slot off b erase).out } := by
  unfold State.stageBlock State.flashProgrammed State.flashErased
  dsimp only
  split <;> split <;> rfl

/-- A frame of trust and outputs on a state that differs from s in its outputs alone. -/
theorem trust_out_frame {s t u : State} {out : List Out} (hu : u = { s with out := out })
    (ht : t = { u with trust := t.trust, out := t.out }) : t = { s with trust := t.trust, out := t.out } := by
  subst hu
  exact ht

theorem stageChecks_pass {s : State} {x : Ctx} (hslot : num x.pkt 16 1 ≤ 1) (hoff : num x.pkt 20 4 % 4096 = 0)
    (hend : num x.pkt 20 4 + x.block.length ≤ 0x100_0000) (hidle : ∀ f, s.trust.fw = some f → f.slot ≠ num x.pkt 16 1) :
    ∀ y ∈ s.stageChecks x, y.1 = false := by
  unfold State.stageChecks
  cases hfw : s.trust.fw with
  | none => simp [hslot, hoff, hend]
  | some f => simp [hslot, hoff, hend, hidle f hfw]

/-- R219 to R221: what FIRMWARE_STAGE does once its checks pass. -/
theorem exec_firmwareStage_of_admits {s : State} {ring : Nat} {dma : Dma} {c : Cmd} (flashOk : Bool)
    (h : s.admits 0x70 ring dma c = true) (hpass : ∀ y ∈ (s.readBlock c none).stageChecks (ctxOf c dma), y.1 = false) :
    let slot := num c.pkt 16 1
    let t := (s.readBlock c none).stageBlock slot (num c.pkt 20 4) (ctxOf c dma).block (flag c.pkt 17 0)
    let staged := FMap.getD t.trust.staged slot 0
    let digest := sha384 (t.trust.image slot)
    let checked := t.flashReadBack (slotBase slot) (t.trust.image slot).length
    exec (.firmwareStage ring dma flashOk) s = .next ((s.readBlock c none).settle c dma
      (if !flag c.pkt 17 1 then yes t staged
      else if flashOk && imageFault (t.trust.image slot) (t.trust.current 1) == 0 then
        yes ((checked.rewriteSector slot ⟨1, 0, digest⟩).extend 6 (eventRecord 0x60 ([BitVec.ofNat 8 slot] ++ digest))) staged
      else failed (checked.rewriteSector slot ⟨0, 0, digest⟩) 0x0010)) := by
  change execFirmwareStage ring dma flashOk s = _
  refine (State.runPacket_of_checked (l := (s.readBlock c none).stageChecks (ctxOf c dma)) h rfl hpass).trans ?_
  rfl

/-! #### Activating a slot -/

/-- R614, R615: what FIRMWARE_ACTIVATE leaves. -/
def State.activated (s : State) (slot : Nat) : State :=
  let n := 1 + max (s.trust.sector 0).actSeq (s.trust.sector 1).actSeq
  (s.rewriteSector slot ⟨2, n, (s.trust.sector slot).digest⟩).extend 6
    (eventRecord 0x61 ([BitVec.ofNat 8 slot] ++ leBytes 8 n))

theorem sector_activated {s : State} {slot n : Nat}
    (hn : 1 + max (s.trust.sector 0).actSeq (s.trust.sector 1).actSeq = n) (hlt : n < 2 ^ 64) :
    ((s.activated slot).trust.sector slot).state = 2 ∧ ((s.activated slot).trust.sector slot).actSeq = n ∧
      ((s.activated slot).trust.sector slot).digest = (s.trust.sector slot).digest := by
  have hflash : (s.activated slot).trust.flash = (s.trust.writeSector slot
      ⟨2, 1 + max (s.trust.sector 0).actSeq (s.trust.sector 1).actSeq, (s.trust.sector slot).digest⟩).flash := rfl
  rw [hn] at hflash
  rw [(sector_of_flash hflash slot).trans
    (sector_writeSector s.trust slot (by decide) hlt (length_digest_sector s.trust slot))]
  generalize (s.trust.sector slot).digest = d
  exact ⟨rfl, rfl, rfl⟩

theorem mr_activated {s : State} (slot : Nat) (hlen : s.trust.mr.length = 8) :
    (s.activated slot).trust.mr.getD 6 [] = sha384 (s.trust.mr.getD 6 (zeros 48) ++ sha384 ([0x61, 0, 0, 0] ++
      [BitVec.ofNat 8 slot] ++ leBytes 8 (1 + max (s.trust.sector 0).actSeq (s.trust.sector 1).actSeq))) := by
  have hroom : 6 < (s.rewriteSector slot ⟨2, 1 + max (s.trust.sector 0).actSeq (s.trust.sector 1).actSeq,
      (s.trust.sector slot).digest⟩).trust.mr.length := by
    rw [rewriteSector_eq]
    change 6 < s.trust.mr.length
    rw [hlen]
    decide
  unfold State.activated
  dsimp only
  rw [mr_extend, if_pos ⟨rfl, hroom⟩]
  rfl

theorem exec_firmwareActivate_of_admits {s : State} {ring : Nat} {dma : Dma} {c : Cmd}
    (h : s.admits 0x71 ring dma c = true) (hpass : ∀ y ∈ s.activateChecks c.pkt, y.1 = false) :
    exec (.firmwareActivate ring dma) s = ended s (s.activated (num c.pkt 16 1)) c dma 0 [] := by
  change execFirmwareActivate ring dma s = _
  exact (State.runPacket_of_passes (o := opA 0x71 .none) rfl rfl h rfl hpass).trans rfl

theorem activateChecks_pass {s : State} {pkt : Bytes} (hslot : num pkt 16 1 ≤ 1)
    (hstate : (s.trust.sector (num pkt 16 1)).state = 1 ∨ (s.trust.sector (num pkt 16 1)).state = 2)
    (hfloor : s.trust.current 1 ≤ num (s.trust.flashRead (slotBase (num pkt 16 1)) 512) 16 4) :
    ∀ y ∈ s.activateChecks pkt, y.1 = false := by
  have hsector : ((s.trust.sector (num pkt 16 1)).state != 1 && (s.trust.sector (num pkt 16 1)).state != 2) = false := by
    rcases hstate with hstate | hstate <;> simp [hstate]
  simp only [State.activateChecks, hsector]
  simp [hslot, hfloor]

/-- Settles O17: both commands pass their checks and act on the slot named; the flash is read through the laws of its memory. -/
theorem firmwareSlots : Obligations.FirmwareSlots := by
  unfold Obligations.FirmwareSlots
  constructor
  · intro s ring dma c flashOk h p slot off b u t staged digest checked hslot hoff hend hidle
    have hexec := exec_firmwareStage_of_admits flashOk h
      (stageChecks_pass hslot hoff hend (by rwa [State.readBlock_trust]))
    have htrust : t.trust = s.trust.stage slot off b (flag p 17 0) := by
      rw [trust_stageBlock, State.readBlock_trust]
    refine ⟨fun hfinal => ?_, fun hfinal hflash hfault => ?_, fun hfinal hbad => ?_, ?_, htrust,
      fun x => rewriteSector_eq checked slot x, fun a => ?_⟩
    · refine hexec.trans ?_
      rw [show flag c.pkt 17 1 = false from hfinal]
      rfl
    · refine hexec.trans ?_
      rw [show flag c.pkt 17 1 = true from hfinal, if_neg (by decide), if_pos]
      · rfl
      · rw [hflash, Bool.true_and, beq_iff_eq]
        exact hfault
    · refine hexec.trans ?_
      rw [show flag c.pkt 17 1 = true from hfinal, if_neg (by decide), if_neg]
      rcases hbad with hbad | hbad
      · simp [hbad]
      · rw [Bool.and_eq_true, beq_iff_eq]
        exact fun hgood => hbad hgood.2
    · obtain ⟨out, hout⟩ := s.readBlock_eq c none
      exact trust_out_frame hout (stageBlock_eq u slot off b (flag p 17 0))
    · rw [htrust]
      exact read_stage s.trust slot off b (flag p 17 0) a
  · intro s ring dma c h slot n hslot hstate hfloor
    refine ⟨s.activated slot, exec_firmwareActivate_of_admits h (activateChecks_pass hslot hstate hfloor), fun a ha => ?_,
      fun hn => ?_, fun hlen => ?_, rfl, State.ringsKept_of_rings_eq rfl, rfl, rfl, rfl⟩
    · refine read_writeSector s.trust slot _ ?_
      unfold slotBase sectorAt
      omega
    · exact sector_activated rfl hn
    · exact mr_activated slot hlen

end Sys2Proof.Machine

/-! ### Completion records (Table 2.4, R80, R89 to R91, R100, R117) -/

namespace Sys2Proof.Machine

/-! #### What the end of a command may change -/

theorem covers_of_covers {m n k : List Comp} (h : covers m n = true) (g : covers n k = true) : covers m k = true :=
  List.all_eq_true.mpr fun _ hc => List.all_eq_true.mp h _ (List.elem_iff.mp (List.all_eq_true.mp g _ hc))

theorem Within.setCmds (s : State) (x : List Cmd) : Within [.cmds] s (s.setCmds x) := rfl

theorem Within.countFlags (s : State) (f : Nat) (fl : Flags) :
    Within [.fields] s (s.countFlags f fl) := by
  unfold State.countFlags
  with_reducible repeat' first
    | exact Within.refl _ _ | assumption | refine Within.then ?_ (Within.countField _ _ _ _) ?_ | split | dsimp only
    | decide

theorem Within.ringError (s : State) (r cause : Nat) :
    Within [.out, .rings, .log, .counters, .fns] s (s.ringError r cause) := by
  unfold State.ringError
  with_reducible repeat' first
    | exact Within.refl _ _ | assumption | refine Within.then ?_ (Within.setRing _ _ _) ?_
    | refine Within.then ?_ (Within.logEvent _ _ _ _ _ _) ?_ | split | dsimp only | decide

theorem Within.recordFailed (s : State) (r : Nat) :
    Within [.out, .rings, .log, .counters, .fns] s (s.recordFailed r) := by
  unfold State.recordFailed
  with_reducible repeat' first
    | exact Within.refl _ _ | assumption | refine Within.then ?_ (Within.ringError _ _ _) ?_
    | refine Within.then ?_ (Within.setRing _ _ _) ?_ | split | dsimp only | decide

theorem Within.hostWrite (s : State) (fn addr : Nat) (bs : Bytes) :
    Within [.out] s (s.hostWrite fn addr bs) := by
  unfold State.hostWrite
  with_reducible repeat' first
    | exact Within.refl _ _ | assumption | refine Within.then ?_ (Within.emit _ _) ?_ | split | dsimp only | decide

theorem Within.signalRing (s : State) (r : Nat) :
    Within [.out, .rings, .fns] s (s.signalRing r) := by
  unfold State.signalRing
  with_reducible repeat' first
    | exact Within.refl _ _ | assumption | refine Within.then ?_ (Within.raiseVector _ _ _) ?_ | split | dsimp only
    | decide

theorem Within.writeRecord (s : State) (r tag status : Nat) (fl : Flags) (seq : BitVec 48) (lat bound info : Nat)
    (irq ok : Bool) :
    Within [.out, .rings, .log, .counters, .fns] s (s.writeRecord r tag status fl seq lat bound info irq ok) := by
  unfold State.writeRecord
  with_reducible repeat' first
    | exact Within.refl _ _ | assumption | refine Within.then ?_ (Within.recordFailed _ _) ?_
    | refine Within.then ?_ (Within.emit _ _) ?_ | refine Within.then ?_ (Within.hostWrite _ _ _ _) ?_
    | refine Within.then ?_ (Within.setRing _ _ _) ?_ | refine Within.then ?_ (Within.signalRing _ _) ?_ | split
    | dsimp only | decide

theorem Within.settleRing (s : State) (r : Nat) :
    Within [.rings] s (s.settleRing r) := by
  unfold State.settleRing
  with_reducible repeat' first
    | exact Within.refl _ _ | assumption | refine Within.then ?_ (Within.setRing _ _ _) ?_ | split | dsimp only
    | decide

/-- The state as a command goes, before its end is counted. -/
def State.gone (s : State) (c : Cmd) : State :=
  { s.setCmds (s.cmds.filter (fun d => !d.is c.ring c.seq)) with
    streams := s.streams.filter (fun x => x.2.reader != Reader.cmd c.ring c.seq) }

theorem State.retired_eq (s : State) (c : Cmd) (status : Nat) (fl : Flags) :
    s.retired c status fl =
      let t := if 0 < status && status < 0x100 then (s.gone c).count 0 1 1
        else if 0x100 ≤ status && status < 0x200 then (s.gone c).count 0 2 1 else s.gone c
      if c.ring = adminRing then t else t.countFlags (ringFn c.ring) (c.endFlags status fl) := rfl

theorem Within.gone (s : State) (c : Cmd) : Within [.cmds, .streams] s (s.gone c) := rfl

theorem Within.retired_gone (s : State) (c : Cmd) (status : Nat) (fl : Flags) :
    Within [.fields, .counters] (s.gone c) (s.retired c status fl) := by
  have hflags (t : State) (h : Within [.fields, .counters] (s.gone c) t) : Within [.fields, .counters] (s.gone c)
      (if c.ring = adminRing then t else t.countFlags (ringFn c.ring) (c.endFlags status fl)) :=
    Within.ite h (h.then (Within.countFlags _ _ _) (by decide))
  exact hflags _ (Within.ite ((Within.count _ _ _ _).mono (by decide))
    (Within.ite ((Within.count _ _ _ _).mono (by decide)) (Within.refl _ _)))

theorem Within.retired (s : State) (c : Cmd) (status : Nat) (fl : Flags) :
    Within [.cmds, .fields, .streams, .counters] s (s.retired c status fl) :=
  ((Within.gone s c).mono (by decide)).then (Within.retired_gone s c status fl) (by decide)

/-- R77, R80: what follows the record of a command: its trace, and the end of a ring reset. -/
theorem Within.afterRecord {m : List Comp} {s u : State} (h : Within m s u) (hm : covers m [.rings, .trace, .counters] = true)
    (r field : Nat) (a b : BitVec 64) :
    Within m s ((if (u.ring r).resetting then u else u.traceRec 2 field noUnit a b).settleRing r) :=
  Within.then (Within.ite h (h.then (Within.traceRec _ _ _ _ _ _) (covers_of_covers hm (by decide)))) (Within.settleRing _ _)
    (covers_of_covers hm (by decide))

theorem Within.finish_retired (s : State) (c : Cmd) (status info bound : Nat) (fl : Flags) (ok : Bool) :
    Within [.out, .rings, .log, .trace, .counters, .fns] (s.retired c status fl) (s.finish c status info bound fl ok) :=
  Within.afterRecord ((Within.writeRecord _ _ _ _ _ _ _ _ _ _ _).mono (by decide)) (by decide) _ _ _ _

theorem Within.finish (s : State) (c : Cmd) (status info bound : Nat) (fl : Flags) (ok : Bool) :
    Within [.out, .rings, .cmds, .fields, .streams, .log, .trace, .counters, .fns] s
      (s.finish c status info bound fl ok) :=
  ((Within.retired s c status fl).mono (by decide)).then (Within.finish_retired s c status info bound fl ok) (by decide)

theorem State.retired_streams (s : State) (c : Cmd) (status : Nat) (fl : Flags) :
    (s.retired c status fl).streams = s.streams.filter (fun x => x.2.reader != Reader.cmd c.ring c.seq) :=
  (Within.retired_gone s c status fl).get State.streams (fun _ => rfl)

/-- R482: what the command had halted on is forgotten. -/
theorem State.finish_streams (s : State) (c : Cmd) (status info bound : Nat) (fl : Flags) (ok : Bool) :
    (s.finish c status info bound fl ok).streams = s.streams.filter (fun x => x.2.reader != Reader.cmd c.ring c.seq) :=
  ((Within.finish_retired s c status info bound fl ok).get State.streams (fun _ => rfl)).trans (State.retired_streams s c status fl)

theorem State.finish_cmds (s : State) (c : Cmd) (status info bound : Nat) (fl : Flags) (ok : Bool) :
    (s.finish c status info bound fl ok).cmds = s.cmds.filter (fun d => !d.is c.ring c.seq) :=
  ((Within.finish_retired s c status info bound fl ok).get State.cmds (fun _ => rfl)).trans (State.retired_cmds s c status fl)

/-! #### The record of a command (R89, R91, R100) -/

theorem ringVector_le (r : Nat) : ringVector r ≤ 8 := by
  unfold ringVector
  split
  · omega
  · split <;> omega

theorem vectorRing_ringVector_of_gt {r : Nat} (h : adminRing < r) : vectorRing (ringFn r) (ringVector r) = some r := by
  have hr : 128 < r := h
  have hne : r ≠ adminRing := Nat.ne_of_gt h
  have hfn : ringFn r = r / 8 := ringFn_of_ne_adminRing hne
  have hv : ringVector r = r % 8 := by rw [ringVector, if_neg hne, if_neg (by omega)]
  rw [hfn, hv, vectorRing, if_neg (by omega), if_pos (by omega)]
  exact congrArg some (by omega)

/-- R80: a vector raised for a ring counts its records as signalled, and is sent or waits. -/
theorem State.signalRing_eq (s : State) (r : Nat) : ∃ out fns,
    s.signalRing r = { s.setRing r { s.ring r with unsignalled := 0, unsignalledSince := none } with out := out, fns := fns } ∧
    (out = .msix (ringFn r) (ringVector r) :: s.out ∨ out = s.out ∧ ∃ fr, fns = FMap.set s.fns (ringFn r) fr ∧
      fr.pba.getLsbD (ringVector r) = true) := by
  have hring : vectorRing (ringFn r) (ringVector r) = some r := by
    rcases Nat.lt_or_ge adminRing r with h | h
    · exact vectorRing_ringVector_of_gt h
    · exact vectorRing_ringVector h
  unfold State.signalRing
  cases hmask : ((s.fn (ringFn r)).vector (ringVector r)).getLsbD 96 with
  | false =>
    rw [State.raiseVector_of_open hmask, hring]
    exact ⟨_, _, rfl, .inl rfl⟩
  | true =>
    rw [State.raiseVector_of_masked hmask, hring]
    refine ⟨_, _, rfl, .inr ⟨rfl, _, rfl, ?_⟩⟩
    have hv := ringVector_le r
    simp only [BitVec.getLsbD_or, BitVec.getLsbD_shiftLeft, Nat.sub_self, BitVec.getLsbD_one]
    simp
    omega

/-- What the record of a command leaves of its ring x, of the outputs and of the vector registers. -/
structure Recorded (r : Nat) (irq : Bool) (sent : Out) (s : State) (y : Ring) (out : List Out) (fns : FMap FnRegs) : Prop where
  kept : y = { (s.ring r).afterRecord s.tbk with unsignalled := y.unsignalled, unsignalledSince := y.unsignalledSince }
  sends : out = sent :: s.out ∨ out = .msix (ringFn r) (ringVector r) :: sent :: s.out
  signalled : irq = true → y.unsignalled = 0 ∧ (out = .msix (ringFn r) (ringVector r) :: sent :: s.out ∨
    out = sent :: s.out ∧ ∃ fr, fns = FMap.set s.fns (ringFn r) fr ∧ fr.pba.getLsbD (ringVector r) = true)
  waits : irq = false → (s.ring r).irqCount = 0 →
    out = sent :: s.out ∧ fns = s.fns ∧ y.unsignalled = (s.ring r).unsignalled + 1

/-- The write of a completion record. -/
def State.recordOut (s : State) (r tag status : Nat) (fl : Flags) (seq : BitVec 48) (lat bound info : Nat) : Out :=
  .hostWrite (ringFn r) ((s.ring r).cqBase + BitVec.ofNat 64 (32 * (s.ring r).cqTail.toNat))
    (recordBytes (s.ring r) tag status fl seq lat bound info)

theorem State.writeRecord_of_writable {s : State} {r : Nat} (hreset : (s.ring r).resetting = false)
    (hcq : (s.ring r).cqWritable = true) (hfatal : s.glob.fatal = false) (tag status : Nat) (fl : Flags) (seq : BitVec 48)
    (lat bound info : Nat) (irq : Bool) : ∃ y out fns,
    s.writeRecord r tag status fl seq lat bound info irq true =
      { s with rings := FMap.set s.rings r y, out := out, fns := fns } ∧
    Recorded r irq (s.recordOut r tag status fl seq lat bound info) s y out fns := by
  have hwritten : s.writeRecord r tag status fl seq lat bound info irq true =
      let t := (s.emit (s.recordOut r tag status fl seq lat bound info)).setRing r ((s.ring r).afterRecord s.tbk)
      let y := (s.ring r).afterRecord s.tbk
      if irq || (y.irqCount ≠ 0 && y.irqCount.toNat ≤ y.unsignalled) then t.signalRing r else t := by
    simp only [State.writeRecord, hreset, hcq, hfatal, Bool.not_true, Bool.or_false, Bool.false_eq_true, if_false]
    rfl
  rw [hwritten]
  dsimp only
  split
  · next hsignal =>
    obtain ⟨out, fns, hs, hout⟩ := State.signalRing_eq
      ((s.emit (s.recordOut r tag status fl seq lat bound info)).setRing r ((s.ring r).afterRecord s.tbk)) r
    rw [hs, State.ring_setRing_self]
    refine ⟨{ (s.ring r).afterRecord s.tbk with unsignalled := 0, unsignalledSince := none }, out, fns, ?_, ⟨rfl, ?_, fun _ => ⟨rfl, hout⟩, fun hirq hcount => ?_⟩⟩
    · simp only [State.setRing, FMap.set_set]
      rfl
    · exact hout.elim .inr (fun h => .inl h.1)
    · have hzero : ((s.ring r).afterRecord s.tbk).irqCount = 0 := hcount
      simp [hirq, hzero] at hsignal
  · next hsignal =>
    refine ⟨_, _, _, rfl, ⟨rfl, .inl rfl, fun hirq => ?_, fun _ _ => ⟨rfl, rfl, rfl⟩⟩⟩
    simp [hirq] at hsignal

/-! #### Counters of a field -/

theorem Field.uncounted_countField (s : State) (f pos n g : Nat) :
    (FMap.get? (s.countField f pos n).fields g).map Field.uncounted = (FMap.get? s.fields g).map Field.uncounted := by
  unfold State.countField State.modField
  cases hf : s.field? f with
  | none => rfl
  | some x =>
    change (FMap.get? (FMap.set s.fields f _) g).map Field.uncounted = _
    rw [FMap.get?_set]
    split
    · next h =>
      rw [← h, show FMap.get? s.fields f = some x from hf]
      rfl
    · rfl

theorem Field.uncounted_countFlags (s : State) (f : Nat) (fl : Flags) (g : Nat) :
    (FMap.get? (s.countFlags f fl).fields g).map Field.uncounted = (FMap.get? s.fields g).map Field.uncounted := by
  have hone (t : State) (c : Prop) [Decidable c] (pos : Nat) :
      (FMap.get? (if c then t.countField f pos 1 else t).fields g).map Field.uncounted =
        (FMap.get? t.fields g).map Field.uncounted := by
    split
    · exact Field.uncounted_countField t f pos 1 g
    · rfl
  unfold State.countFlags
  rw [hone, hone, hone, hone]

theorem Field.uncounted_retired (s : State) (c : Cmd) (status : Nat) (fl : Flags) (g : Nat) :
    (FMap.get? (s.retired c status fl).fields g).map Field.uncounted = (FMap.get? s.fields g).map Field.uncounted := by
  have hcounts : (if 0 < status && status < 0x100 then (s.gone c).count 0 1 1
      else if 0x100 ≤ status && status < 0x200 then (s.gone c).count 0 2 1 else s.gone c).fields = s.fields := by
    split
    · rfl
    · split <;> rfl
  rw [State.retired_eq]
  dsimp only
  split
  · rw [hcounts]
  · rw [Field.uncounted_countFlags, hcounts]

/-! #### The end of a command whose record can be written -/

theorem length_recordBytes (x : Ring) (tag status : Nat) (fl : Flags) (seq : BitVec 48) (lat bound info : Nat) :
    (recordBytes x tag status fl seq lat bound info).length = 32 := by
  simp [recordBytes]

/-- The record that ends a command. -/
def State.endRecord (s : State) (c : Cmd) (status info bound : Nat) (fl : Flags) : Out :=
  s.recordOut c.ring c.tag status (c.endFlags status fl) c.seq (min (s.tbk - c.tFetch) 0xFFFF_FFFF) bound
    (if status = 0 then info else 0)

theorem State.retired_frame (s : State) (c : Cmd) (status : Nat) (fl : Flags) :
    s.retired c status fl = { s with
      cmds := s.cmds.filter (fun d => !d.is c.ring c.seq)
      streams := s.streams.filter (fun x => x.2.reader != Reader.cmd c.ring c.seq)
      fields := (s.retired c status fl).fields, counters := (s.retired c status fl).counters } :=
  Within.retired_gone s c status fl

theorem State.traceRec_frame (s : State) (src field unit : Nat) (a b : BitVec 64) :
    s.traceRec src field unit a b =
      { s with trace := (s.traceRec src field unit a b).trace, counters := (s.traceRec src field unit a b).counters } :=
  Within.traceRec s src field unit a b

theorem State.settleRing_of_not_resetting {s : State} {r : Nat} (h : (s.ring r).resetting = false) : s.settleRing r = s := by
  simp [State.settleRing, h]

theorem State.finish_of_writable {s : State} {c : Cmd} (hreset : (s.ring c.ring).resetting = false)
    (hcq : (s.ring c.ring).cqWritable = true) (hfatal : s.glob.fatal = false) (status info bound : Nat) (fl : Flags) :
    ∃ (y : Ring) (out : List Out) (fs : FMap Field) (cs : FMap Nat) (tr : Trace) (fns : FMap FnRegs),
      s.finish c status info bound fl true = { s with
        cmds := s.cmds.filter (fun d => !d.is c.ring c.seq), rings := FMap.set s.rings c.ring y
        streams := s.streams.filter (fun x => x.2.reader != Reader.cmd c.ring c.seq)
        out := out, fields := fs, counters := cs, trace := tr, fns := fns } ∧
      (∀ f, (FMap.get? fs f).map Field.uncounted = (FMap.get? s.fields f).map Field.uncounted) ∧
      Recorded c.ring c.irq (s.endRecord c status info bound fl) s y out fns := by
  have hgone := State.retired_frame s c status fl
  have hfields := Field.uncounted_retired s c status fl
  rw [State.finish_eq]
  generalize s.retired c status fl = t at hgone hfields
  rw [hgone]
  generalize t.fields = fs at hfields
  generalize t.counters = cs
  obtain ⟨y, out, fns, hwrite, hrec⟩ := State.writeRecord_of_writable (s := { s with
      cmds := s.cmds.filter (fun d => !d.is c.ring c.seq)
      streams := s.streams.filter (fun x => x.2.reader != Reader.cmd c.ring c.seq)
      fields := fs, counters := cs }) (r := c.ring) hreset hcq hfatal c.tag status (c.endFlags status fl) c.seq
    (min (s.tbk - c.tFetch) 0xFFFF_FFFF) bound (if status = 0 then info else 0) c.irq
  have hy : y.resetting = false := by
    rw [hrec.kept]
    exact hreset
  dsimp only
  rw [hwrite]
  have hring (u : State) (hu : u.rings = FMap.set s.rings c.ring y) : (u.ring c.ring).resetting = false := by
    rw [State.ring, hu, FMap.getD_set_self, hy]
  rw [if_neg (by rw [hring _ rfl]; decide), State.traceRec_frame, State.settleRing_of_not_resetting (hring _ rfl)]
  exact ⟨y, out, fs, _, _, fns, rfl, hfields, ⟨hrec.kept, hrec.sends, hrec.signalled, hrec.waits⟩⟩

theorem hostWrites_of_recorded {r : Nat} {irq : Bool} {sent : Out} {s : State} {y : Ring} {out : List Out}
    {fns : FMap FnRegs} (h : Recorded r irq sent s y out fns) (hsent : hostWrites [sent] = [sent]) :
    hostWrites out = sent :: hostWrites s.out := by
  rcases h.sends with hout | hout
  · rw [hout, hostWrites_cons, hsent]
    rfl
  · rw [hout, hostWrites_cons, hostWrites_cons sent, hsent]
    rfl

/-- R89: the only write of the end of a command is its record. -/
theorem State.finish_hostWrites {s : State} {c : Cmd} (hreset : (s.ring c.ring).resetting = false)
    (hcq : (s.ring c.ring).cqWritable = true) (hfatal : s.glob.fatal = false) (status info bound : Nat) (fl : Flags) :
    hostWrites (s.finish c status info bound fl true).out = s.endRecord c status info bound fl :: hostWrites s.out := by
  obtain ⟨y, out, fs, cs, tr, fns, hfinish, -, hrec⟩ := State.finish_of_writable hreset hcq hfatal status info bound fl
  rw [hfinish]
  exact hostWrites_of_recorded hrec rfl

/-! #### Reply data (R91, R117) -/

/-- The packet's command as it is settled: with what marks it perturbed, its flags and its bound. -/
def State.admitted (s : State) (c : Cmd) : Cmd :=
  { c with perturbed := c.ring != adminRing && (s.cfg (ringFn c.ring)).perturb, flags := 0, bound := BitVec.ofNat 32 0 }

/-- The trace of an admission (R671). -/
def State.admissionTraced (t : State) (c : Cmd) : State :=
  t.traceRec 1 (ringField c.ring) noUnit (traceWord 1 0 c.ring c.seq.toNat) (traceWord 1 1 0 0)

theorem State.admissionTraced_frame (t : State) (c : Cmd) :
    t.admissionTraced c =
      { t with trace := (t.admissionTraced c).trace, counters := (t.admissionTraced c).counters } :=
  State.traceRec_frame _ _ _ _ _ _

theorem ended_of_replyOk {dma : Dma} (h : dma.replyOk = true) (s t : State) (c : Cmd) (info : Nat)
    (replies : List (Nat × Bytes)) : ended s t c dma info replies =
      .next (((t.admissionTraced c).writeReply (s.admitted c) replies).finish (s.admitted c) 0 info 0 0 dma.recordOk) := by
  simp only [ended, State.settle, yesReply, h, Bool.true_or, if_true]
  rfl

theorem ended_of_reply_failed {dma : Dma} (h : dma.replyOk = false) (s t : State) (c : Cmd) (info : Nat)
    {replies : List (Nat × Bytes)} (hreplies : replies ≠ []) : ended s t c dma info replies =
      .next ((t.admissionTraced c).finish (s.admitted c) 0x0104 0 0 0 dma.recordOk) := by
  have hsome : replies.isEmpty = false := by simpa using hreplies
  simp only [ended, State.settle, yesReply, h, hsome, Bool.or_self, Bool.false_eq_true, if_false]
  rfl

/-- R91: reply data go out in order. -/
theorem State.writeReply_eq {t : State} (hfatal : t.glob.fatal = false) (c : Cmd) {replies : List (Nat × Bytes)}
    (h : ∀ w ∈ replies, w.2 ≠ []) : t.writeReply c replies = { t with
      out := replies.reverse.map (fun w => .hostWrite (ringFn c.ring) (BitVec.ofNat 64 w.1) w.2) ++ t.out } := by
  unfold State.writeReply
  induction replies generalizing t with
  | nil => rfl
  | cons w l ih =>
    have hw : t.hostWrite (ringFn c.ring) w.1 w.2 =
        t.emit (.hostWrite (ringFn c.ring) (BitVec.ofNat 64 w.1) w.2) := by
      have hne : w.2.isEmpty = false := by simpa using h w List.mem_cons_self
      simp [State.hostWrite, hfatal, hne]
    have hrest := ih (t := t.emit (.hostWrite (ringFn c.ring) (BitVec.ofNat 64 w.1) w.2)) hfatal
      (fun v hv => h v (List.mem_cons_of_mem w hv))
    rw [List.foldl_cons, hw, hrest, List.reverse_cons, List.map_append, List.append_assoc]
    rfl

theorem hostWrites_append (a b : List Out) : hostWrites (a ++ b) = hostWrites a ++ hostWrites b := List.filter_append _ _

theorem hostWrites_replies (fn : Nat) (replies : List (Nat × Bytes)) :
    hostWrites (replies.map (fun w => .hostWrite fn (BitVec.ofNat 64 w.1) w.2)) =
      replies.map (fun w => .hostWrite fn (BitVec.ofNat 64 w.1) w.2) := by
  refine List.filter_eq_self.mpr fun o ho => ?_
  obtain ⟨w, -, rfl⟩ := List.mem_map.mp ho
  rfl

/-- Settles O13: a record that can be written goes out behind the reply data, and the ring moves on by one slot. -/
theorem completionRecords : Obligations.CompletionRecords := by
  unfold Obligations.CompletionRecords
  refine ⟨?record, ?reply, ?failed⟩
  case record =>
    intro s c status info bound fl hreset hcq hfatal x shown record sent
    obtain ⟨y, out, fs, cs, tr, fns, hfinish, hfields, hrec⟩ :=
      State.finish_of_writable hreset hcq hfatal status info bound fl
    have hkept := hrec.kept
    refine ⟨length_recordBytes _ _ _ _ _ _ _ _, y, out, fs, cs, tr, fns, hfinish, hfields, ?_⟩
    refine ⟨by rw [hkept]; rfl, by rw [hkept]; rfl, by rw [hkept]; rfl, by rw [hkept]; rfl, by rw [hkept]; rfl,
      by rw [hkept]; rfl, by rw [hkept]; rfl, by rw [hkept]; rfl, by rw [hkept]; rfl, ?_⟩
    have hsent : s.endRecord c status info bound fl = sent := by
      simp only [State.endRecord, State.recordOut, Cmd.endFlags, Bool.and_eq_true, decide_eq_true_eq]
      rfl
    rw [← hsent]
    exact ⟨hrec.signalled, hrec.waits⟩
  case reply =>
    intro s t c dma info replies hreply hok hfatal hreset hcq hbytes
    obtain ⟨v, hv⟩ : ∃ v, v = (t.admissionTraced c).writeReply (s.admitted c) replies := ⟨_, rfl⟩
    rw [ended_of_replyOk hreply, hok, ← hv]
    rw [State.admissionTraced_frame, State.writeReply_eq (by exact hfatal) _ hbytes] at hv
    refine ⟨_, _, rfl, length_recordBytes (t.ring c.ring) c.tag 0 ((s.admitted c).endFlags 0 0) c.seq
      (min (t.tbk - c.tFetch) 0xFFFF_FFFF) 0 info, ?_, ?_⟩
    · rw [State.finish_hostWrites (by rw [hv]; exact hreset) (by rw [hv]; exact hcq) (by rw [hv]; exact hfatal), hv]
      dsimp only
      rw [hostWrites_append, hostWrites_replies]
      rfl
    · rw [State.finish_cmds, hv]
      rfl
  case failed =>
    intro s t c dma info replies hreply hsome hfatal hreset hcq hok
    obtain ⟨v, hv⟩ : ∃ v, v = t.admissionTraced c := ⟨_, rfl⟩
    rw [ended_of_reply_failed hreply s t c info hsome, hok, ← hv]
    rw [State.admissionTraced_frame] at hv
    have hstands := State.standing_finish v (s.admitted c) 0x0104 0 0 0 true
    refine ⟨_, rfl, ⟨min (t.tbk - c.tFetch) 0xFFFF_FFFF, (s.admitted c).endFlags 0x0104 0, ?_⟩,
      (congrArg Standing.indexes hstands).trans ?_,
      (congrArg Standing.trust hstands).trans ?_, ?_⟩
    · rw [State.finish_hostWrites (by rw [hv]; exact hreset) (by rw [hv]; exact hcq) (by rw [hv]; exact hfatal), hv]
      rfl
    · rw [hv]
      rfl
    · rw [hv]
      rfl
    · rw [State.finish_cmds, hv]
      rfl

end Sys2Proof.Machine

/-! ### The checks that every packet passes (Table 2.6, R84, R85, R99, R101, R113, R573) -/

namespace Sys2Proof.Machine

/-! #### The checks of Table 2.6 -/

/-- Of checks in order, none fails. -/
theorem ite_some_eq_none {α : Type} {c : Prop} [Decidable c] {a : α} {b : Option α} :
    (if c then some a else b) = none ↔ ¬ c ∧ b = none := by
  split <;> simp [*]

theorem packetFault_eq_none_iff (s : State) (c : Cmd) (o : OpSpec) (dma : Dma) :
    s.packetFault c o dma = none ↔
      c.tag ≠ 0xFFFF ∧ (∀ d ∈ s.earlier c, d.tag ≠ c.tag) ∧
      (if c.ring = adminRing then o.admin = true else o.field = true) ∧
      (o.code = 0x20 ∨ o.code = 0x21 ∨ o.code = 0x22 → c.cls ≠ 3) ∧
      (c.pbValid = true → o.need ≠ .none ∧ c.pbLen ≠ 0 ∧ c.pbAddr % 64 = 0 ∧ dma.block ≠ none) ∧
      (c.pbValid = false → o.need ≠ .required) ∧
      (o.namesIndex = true →
        if o.code = 0x08 then s.index? (ringFn c.ring) c.idx = none else s.index? (ringFn c.ring) c.idx ≠ none) := by
  have hpermit : ¬ ((if c.ring = adminRing then !o.admin else !o.field) = true) ↔
      if c.ring = adminRing then o.admin = true else o.field = true := by
    split <;> simp
  have hclass : ¬ ((isSearchOp o.code && c.cls == 3) = true) ↔ (o.code = 0x20 ∨ o.code = 0x21 ∨ o.code = 0x22 → c.cls ≠ 3) := by
    simp [isSearchOp, or_assoc]
  have hindex : (if !o.namesIndex then none
      else if o.code = 0x08 then (if (s.index? (ringFn c.ring) c.idx).isSome then some stEXISTS else none)
      else if (s.index? (ringFn c.ring) c.idx).isNone then some stBAD_INDEX else none) = none ↔
      (o.namesIndex = true →
        if o.code = 0x08 then s.index? (ringFn c.ring) c.idx = none else s.index? (ringFn c.ring) c.idx ≠ none) := by
    cases o.namesIndex with
    | false => simp
    | true =>
      by_cases h8 : o.code = 0x08 <;> simp [h8, ite_some_eq_none, Option.isSome_iff_ne_none]
  unfold State.packetFault
  simp only [ite_some_eq_none, hpermit, hclass, hindex]
  cases hpb : c.pbValid with
  | false => simp
  | true => simp [Option.isNone_iff_eq_none, and_assoc]

/-! #### The rows of the opcodes -/

/-- R113: whatever its opcode, a packet runs through the common checks; those of an opcode that reads or writes pages then go on
as far as their pages are resident. -/
def RunsPacket (s : State) (code ring : Nat) (dma : Dma) (i : Instr) : Prop :=
  ∃ body, exec i s = s.runPacket code ring dma body ∨ exec i s = s.runReading code ring dma body

section Rows
variable (s : State) (ring : Nat) (dma : Dma) (b0 b1 : Bool) (status : Nat) (failing : List (Nat × Nat))

/-- Table 3.1: the opcodes of fields, indexes and mutation. -/
theorem packetRows_run_of_index :
    ∀ p ∈ (packetRows ring dma b0 b1 status failing).take 14, RunsPacket s p.1 ring dma p.2 := by
  unfold packetRows RunsPacket
  simp only [List.take_succ_cons, List.take_zero, List.forall_mem_cons]
  exact ⟨⟨_, .inl (Eq.refl (execNop ring dma s))⟩, ⟨_, .inl (Eq.refl (execIdentify ring dma s))⟩,
    ⟨_, .inl (Eq.refl (execFieldConfigure ring dma status s))⟩, ⟨_, .inl (Eq.refl (execFieldQuery ring dma s))⟩,
    ⟨_, .inl (Eq.refl (execIndexCreate ring dma s))⟩, ⟨_, .inl (Eq.refl (execIndexDrop ring dma s))⟩,
    ⟨_, .inr (Eq.refl (execIndexLoadCentroids ring dma s))⟩, ⟨_, .inr (Eq.refl (execIndexLoadCodebook ring dma s))⟩,
    ⟨_, .inl (Eq.refl (execIndexActivate ring dma s))⟩, ⟨_, .inl (Eq.refl (execIndexInfo ring dma s))⟩,
    ⟨_, .inr (Eq.refl (execInsert ring dma s))⟩, ⟨_, .inr (Eq.refl (execDelete ring dma s))⟩,
    ⟨_, .inr (Eq.refl (execUpsert ring dma s))⟩, ⟨_, .inr (Eq.refl (execInsertCoded ring dma s))⟩, fun _ h => nomatch h⟩

/-- Table 3.1: the opcodes of snapshots, searches, filters, paging and programs. -/
theorem packetRows_run_of_search :
    ∀ p ∈ ((packetRows ring dma b0 b1 status failing).drop 14).take 18, RunsPacket s p.1 ring dma p.2 := by
  unfold packetRows RunsPacket
  simp only [List.drop_succ_cons, List.drop_zero, List.take_succ_cons, List.take_zero, List.forall_mem_cons]
  exact ⟨⟨_, .inl (Eq.refl (execCommit ring dma s))⟩, ⟨_, .inl (Eq.refl (execSnapshotHold ring dma s))⟩,
    ⟨_, .inl (Eq.refl (execSnapshotRelease ring dma s))⟩, ⟨_, .inl (Eq.refl (execCompact ring dma s))⟩,
    ⟨_, .inl (Eq.refl (execSearch ring dma s))⟩, ⟨_, .inl (Eq.refl (execSearchBatch ring dma s))⟩,
    ⟨_, .inl (Eq.refl (execSearchRadius ring dma s))⟩, ⟨_, .inr (Eq.refl (execFetchVector ring dma s))⟩,
    ⟨_, .inl (Eq.refl (execFilterDefine ring dma s))⟩, ⟨_, .inl (Eq.refl (execFilterDrop ring dma s))⟩,
    ⟨_, .inr (Eq.refl (execBitmapLoad ring dma s))⟩, ⟨_, .inl (Eq.refl (execPagePoolGrant ring dma s))⟩,
    ⟨_, .inl (Eq.refl (execPagePin ring dma s))⟩, ⟨_, .inl (Eq.refl (execPageUnpin ring dma s))⟩,
    ⟨_, .inr (Eq.refl (execProgramLoad ring dma s))⟩, ⟨_, .inl (Eq.refl (execProgramRun ring dma s))⟩,
    ⟨_, .inr (Eq.refl (execTileRead ring dma s))⟩, ⟨_, .inr (Eq.refl (execTileWrite ring dma s))⟩, fun _ h => nomatch h⟩

/-- Table 3.1: the opcodes of units, the cascade, trust and service. -/
theorem packetRows_run_of_unit :
    ∀ p ∈ ((packetRows ring dma b0 b1 status failing).drop 14).drop 18, RunsPacket s p.1 ring dma p.2 := by
  unfold packetRows RunsPacket
  simp only [List.drop_succ_cons, List.drop_zero, List.forall_mem_cons]
  exact ⟨⟨_, .inl (Eq.refl (execUnitFallow ring dma s))⟩, ⟨_, .inl (Eq.refl (execUnitTill ring dma s))⟩,
    ⟨_, .inl (Eq.refl (execUnitStatus ring dma s))⟩, ⟨_, .inl (Eq.refl (execCascadeForm ring dma s))⟩,
    ⟨_, .inl (Eq.refl (execCascadeStatus ring dma s))⟩, ⟨_, .inl (Eq.refl (execCascadePromote ring dma s))⟩,
    ⟨_, .inl (Eq.refl (execAttest ring dma s))⟩, ⟨_, .inl (Eq.refl (execMeasureRead ring dma s))⟩,
    ⟨_, .inl (Eq.refl (execStakeRead ring dma s))⟩, ⟨_, .inl (Eq.refl (execStakeWrite ring dma b0 b1 s))⟩,
    ⟨_, .inl (Eq.refl (execCountersRead ring dma s))⟩, ⟨_, .inl (Eq.refl (execLogRead ring dma s))⟩,
    ⟨_, .inl (Eq.refl (execTraceCtl ring dma s))⟩, ⟨_, .inl (Eq.refl (execTestPerturb ring dma s))⟩,
    ⟨_, .inl (Eq.refl (execSelfTest ring dma failing s))⟩, ⟨_, .inl (Eq.refl (execFirmwareStage ring dma b0 s))⟩,
    ⟨_, .inl (Eq.refl (execFirmwareActivate ring dma s))⟩, fun _ h => nomatch h⟩

theorem forall_mem_of_take_of_drop {α : Type} {p : α → Prop} {l : List α} (n : Nat) (htake : ∀ a ∈ l.take n, p a)
    (hdrop : ∀ a ∈ l.drop n, p a) : ∀ a ∈ l, p a := by
  rw [← List.take_append_drop n l]
  exact List.forall_mem_append.mpr ⟨htake, hdrop⟩

theorem packetRows_run : ∀ p ∈ packetRows ring dma b0 b1 status failing, RunsPacket s p.1 ring dma p.2 :=
  forall_mem_of_take_of_drop 14 (packetRows_run_of_index s ring dma b0 b1 status failing)
    (forall_mem_of_take_of_drop 18 (packetRows_run_of_search s ring dma b0 b1 status failing)
      (packetRows_run_of_unit s ring dma b0 b1 status failing))

end Rows

/-! #### Commands that read: none newly halted by the end of another -/

theorem State.readerHalted_finish {s : State} {c d : Cmd} (hd : d.is c.ring c.seq = false) (status info bound : Nat)
    (fl : Flags) (ok : Bool) :
    (s.finish c status info bound fl ok).readerHalted (.cmd d.ring d.seq) = s.readerHalted (.cmd d.ring d.seq) := by
  have hother : (Reader.cmd d.ring d.seq == Reader.cmd c.ring c.seq) = false := by
    rw [beq_eq_false_iff_ne]
    intro h
    injection h with hring hseq
    simp [Cmd.is, hring, hseq] at hd
  have hkeep : ∀ l : FMap Stream, (l.filter (fun x => x.2.reader != Reader.cmd c.ring c.seq)).any
      (fun x => x.2.reader == .cmd d.ring d.seq && (match x.2.phase with
        | .halted _ => true
        | _ => false)) = l.any (fun x => x.2.reader == .cmd d.ring d.seq && (match x.2.phase with
        | .halted _ => true
        | _ => false)) := by
    intro l
    rw [List.any_filter]
    refine congrArg (List.any l) (funext fun x => ?_)
    by_cases hx : x.2.reader = .cmd d.ring d.seq
    · simp [hx, bne, hother]
    · simp [hx]
  unfold State.readerHalted
  rw [State.finish_streams]
  exact hkeep s.streams

theorem nextReading_eq_none_iff (s : State) (code ring : Nat) :
    s.nextReading code ring = none ↔ ∀ c ∈ s.cmds, ∀ r, c.work = .reading r →
      (c.ring == ring && c.opcode == code && c.stopped.isNone && !s.readerHalted (.cmd c.ring c.seq)) = false := by
  rw [State.nextReading, List.findSome?_eq_none_iff]
  refine forall₂_congr fun c _ => ?_
  cases hw : c.work <;> simp [ite_some_eq_none] <;> tauto

theorem nextReading_finish {s : State} {code ring : Nat} (h : s.nextReading code ring = none) (c : Cmd)
    (status info bound : Nat) (fl : Flags) (ok : Bool) :
    (s.finish c status info bound fl ok).nextReading code ring = none := by
  rw [nextReading_eq_none_iff] at h ⊢
  intro d hd r hr
  rw [State.finish_cmds, List.mem_filter, Bool.not_eq_true'] at hd
  rw [State.readerHalted_finish hd.2]
  exact h d hd.1 r hr

/-! #### What a packet does that fails a check or waits -/

/-- A row of a packet does what its common part does where that leaves no command of the row reading. -/
theorem exec_of_runsPacket {s t : State} {code ring : Nat} {dma : Dma} {i : Instr} (hring : ring ≤ adminRing)
    (h : RunsPacket s code ring dma i) (hbefore : s.nextReading code ring = none)
    (hrun : ∀ body, s.runPacket code ring dma body = .next t) (hafter : t.nextReading code ring = none) :
    exec i s = .next t := by
  obtain ⟨body, h | h⟩ := h
  · rw [h, hrun]
  · rw [h, State.runReading, if_neg (Nat.not_lt.mpr hring), hbefore]
    dsimp only
    rw [hrun]
    dsimp only
    rw [hafter]

section Refused
variable {s : State} {code ring : Nat} {dma : Dma} {c : Cmd} {o : OpSpec} (hring : ring ≤ adminRing)
  (hnext : s.nextPacket ring = some c) (hcode : c.opcode = code) (hfence : s.unfenced c = true) (hserving : s.serving = true)
  (hop : opSpec code = some o)
include hring hnext hcode hfence hserving hop

theorem runPacket_of_fault {st : Nat} (h : s.packetFault c o dma = some st) (body : Ctx → State → Verdict) :
    s.runPacket code ring dma body = .next ((s.readBlock c (some st)).finish c st 0 0 0 dma.recordOk) := by
  simp only [State.runPacket, if_neg (Nat.not_lt.mpr hring), hnext, hop, hcode, hfence, hserving, h]
  simp [State.settle, no]

theorem runPacket_of_follower (h : s.packetFault c o dma = none) (hfollows : s.followerForbids code = true)
    (body : Ctx → State → Verdict) :
    s.runPacket code ring dma body = .next ((s.readBlock c none).finish c 0x0008 0 0 0 dma.recordOk) := by
  have hreads : (s.readBlock c none).followerForbids code = true := by
    obtain ⟨out, hout⟩ := s.readBlock_eq c none
    rw [hout]
    exact hfollows
  simp only [State.runPacket, if_neg (Nat.not_lt.mpr hring), hnext, hop, hcode, hfence, hserving, h, hreads]
  simp [State.settle, no, stMODE_FORBIDS]

end Refused

theorem nextReading_readBlock {s : State} {code ring : Nat} (h : s.nextReading code ring = none) (c : Cmd) (st : Option Nat) :
    (s.readBlock c st).nextReading code ring = none := by
  obtain ⟨out, hout⟩ := s.readBlock_eq c st
  rw [hout]
  exact h

theorem runPacket_of_waiting {s : State} {code ring : Nat} (hring : ring ≤ adminRing)
    (h : s.nextPacket ring = none ∨ s.serving = false ∨
      ∃ c, s.nextPacket ring = some c ∧ (c.opcode ≠ code ∨ s.unfenced c = false)) (dma : Dma)
    (body : Ctx → State → Verdict) : s.runPacket code ring dma body = .next s := by
  unfold State.runPacket
  rw [if_neg (Nat.not_lt.mpr hring)]
  rcases h with hnone | hidle | ⟨c, hnext, hwaits⟩
  · rw [hnone]
  · cases s.nextPacket ring with
    | none => rfl
    | some c => cases opSpec code <;> simp [hidle]
  · rw [hnext]
    cases opSpec code with
    | none => rfl
    | some o => rcases hwaits with hcode | hfence <;> simp [*]

/-- Settles O11: every row runs the same common part, whose checks are taken one by one. -/
theorem packetOutcome : Obligations.PacketOutcome := by
  unfold Obligations.PacketOutcome
  refine ⟨packetFault_eq_none_iff, ?refused, ?block, ?waits⟩
  case refused =>
    intro s ring dma b0 b1 status failing c code i o hrow hring hreading hnext hcode hfence hserving hop
    have hruns := packetRows_run s ring dma b0 b1 status failing _ hrow
    exact ⟨fun st hfault => exec_of_runsPacket hring hruns hreading
        (runPacket_of_fault hring hnext hcode hfence hserving hop hfault)
        (nextReading_finish (nextReading_readBlock hreading c _) c st 0 0 0 _),
      fun hfault hfollows => exec_of_runsPacket hring hruns hreading
        (runPacket_of_follower hring hnext hcode hfence hserving hop hfault hfollows)
        (nextReading_finish (nextReading_readBlock hreading c _) c 0x0008 0 0 0 _)⟩
  case block =>
    intro s c st
    refine ⟨fun hpb hst => ?_, fun h => ?_⟩
    · rw [State.readBlock, if_pos]
      · rfl
      · rcases hst with rfl | rfl | rfl | rfl <;> rw [hpb] <;> rfl
    · rw [State.readBlock, if_neg]
      rcases h with hpb | rfl | rfl | rfl | rfl
      · simp [hpb]
      all_goals cases c.pbValid <;> decide
  case waits =>
    intro s ring dma b0 b1 status failing code i hrow hring hreading hwaits
    exact exec_of_runsPacket hring (packetRows_run s ring dma b0 b1 status failing _ hrow) hreading
      (runPacket_of_waiting hring hwaits dma) hreading

end Sys2Proof.Machine

/-! ### The boot ROM and the start of the firmware (R616 to R619, R705, R747, R765) -/

namespace Sys2Proof.Machine

/-! #### The stakes resolved -/

/-- What resolving the stakes keeps of the trust state, with register 0, and of the rest. -/
structure RomKeeps (s t : State) : Prop where
  stakes : t.trust.stakes = s.trust.stakes
  flash : t.trust.flash = s.trust.flash
  fw : t.trust.fw = s.trust.fw
  bootCode : t.trust.bootCode = s.trust.bootCode
  mr0 : t.trust.mr.getD 0 [] = s.trust.mr.getD 0 []
  mrLength : t.trust.mr.length = s.trust.mr.length
  glob : t.glob = s.glob
  tbk : t.tbk = s.tbk

theorem RomKeeps.refl (s : State) : RomKeeps s s := ⟨rfl, rfl, rfl, rfl, rfl, rfl, rfl, rfl⟩

theorem RomKeeps.trans {r s t : State} (h : RomKeeps r s) (g : RomKeeps s t) : RomKeeps r t :=
  ⟨g.stakes.trans h.stakes, g.flash.trans h.flash, g.fw.trans h.fw, g.bootCode.trans h.bootCode, g.mr0.trans h.mr0,
    g.mrLength.trans h.mrLength, g.glob.trans h.glob, g.tbk.trans h.tbk⟩

theorem RomKeeps.of_tells {s t : State} (h : Tells s t) : RomKeeps s t :=
  ⟨by rw [h.trust], by rw [h.trust], by rw [h.trust], by rw [h.trust], by rw [h.trust], by rw [h.trust], h.glob, h.tbk⟩

theorem length_mr_extend (s : State) (k : Nat) (e : Bytes) : (s.extend k e).trust.mr.length = s.trust.mr.length :=
  List.length_set

theorem romKeeps_extend (s : State) {k : Nat} (hk : k ≠ 0) (e : Bytes) : RomKeeps s (s.extend k e) :=
  ⟨rfl, rfl, rfl, rfl, by rw [mr_extend, if_neg (by omega)], length_mr_extend s k e, rfl, rfl⟩

theorem romKeeps_stakeEvent (s : State) (e : Nat × Nat) : RomKeeps s (s.stakeEvent e) :=
  RomKeeps.trans (s := s.setTrust { s.trust with integrity := s.trust.integrity ++ [e] })
    ⟨rfl, rfl, rfl, rfl, rfl, rfl, rfl, rfl⟩
    (((RomKeeps.of_tells (tells_logEvent _ _ _ _ _ _)).trans (RomKeeps.of_tells (tells_count _ _ _ _))).trans
      (romKeeps_extend _ (by decide) _))

theorem romKeeps_resolveStakes (s : State) : RomKeeps s s.resolveStakes := by
  have hfold (l : List (Nat × Nat)) (t : State) : RomKeeps t (l.foldl State.stakeEvent t) := by
    induction l generalizing t with
    | nil => exact RomKeeps.refl t
    | cons e l ih => exact (romKeeps_stakeEvent t e).trans (ih _)
  exact RomKeeps.trans (s := s.setTrust { s.trust with resolved := true, stakeGen := s.trust.stakeGen + 2 })
    ⟨rfl, rfl, rfl, rfl, rfl, rfl, rfl, rfl⟩ (hfold _ _)

/-- R616 steps 1 and 2. -/
theorem romStart_keeps (s : State) :
    s.romStart.trust.stakes = s.trust.stakes ∧ s.romStart.trust.flash = s.trust.flash ∧ s.romStart.trust.fw = s.trust.fw ∧
    s.romStart.trust.bootCode = s.trust.bootCode ∧ s.romStart.trust.mr.getD 0 [] = zeros 48 ∧
    s.romStart.trust.mr.length = 8 ∧ s.romStart.glob = s.glob ∧ s.romStart.tbk = s.tbk := by
  obtain ⟨t, ht⟩ : ∃ t : Trust, t = ({ s.trust with
    mr := List.replicate 8 (zeros 48), mrCount := List.replicate 8 0, staged := [], integrity := []
    stepA := 0, stepB := 0 } : Trust).latchEffective := ⟨_, rfl⟩
  have hstart : s.romStart = (s.setTrust t).resolveStakes := by rw [ht]; rfl
  have hmr : t.mr = List.replicate 8 (zeros 48) := by rw [ht]; rfl
  have hkept : t.stakes = s.trust.stakes ∧ t.flash = s.trust.flash ∧ t.fw = s.trust.fw ∧ t.bootCode = s.trust.bootCode := by
    rw [ht]
    exact ⟨rfl, rfl, rfl, rfl⟩
  obtain ⟨hstakes, hflash, hfw, hboot, hmr0, hlen, hglob, htbk⟩ := romKeeps_resolveStakes (s.setTrust t)
  rw [← hstart] at hstakes hflash hfw hboot hmr0 hlen hglob htbk
  refine ⟨hstakes.trans hkept.1, hflash.trans hkept.2.1, hfw.trans hkept.2.2.1, hboot.trans hkept.2.2.2, ?_, ?_, hglob, htbk⟩
  · rw [hmr0, show (s.setTrust t).trust.mr = t.mr from rfl, hmr]
    rfl
  · rw [hlen, show (s.setTrust t).trust.mr = t.mr from rfl, hmr]
    rfl

/-! #### The slots tried -/

theorem noteOutcome_frame (t : Trust) (slot n : Nat) :
    t.noteOutcome slot n = { t with stepA := (t.noteOutcome slot n).stepA, stepB := (t.noteOutcome slot n).stepB } := by
  unfold Trust.noteOutcome
  split <;> rfl

/-- R616 step 4: trying the slots records their outcomes and nothing else. -/
theorem tryAll_frame (t : Trust) (okA okB : Bool) (l : List Candidate) :
    (t.tryAll okA okB l).1 = { t with
      stepA := (t.tryAll okA okB l).1.stepA, stepB := (t.tryAll okA okB l).1.stepB } := by
  induction l generalizing t with
  | nil => rfl
  | cons c l ih =>
    unfold Trust.tryAll
    dsimp only
    generalize t.outcome c (if c.slot = 0 then okA else okB) = n
    split
    · exact noteOutcome_frame _ _ _
    · have hnote := noteOutcome_frame t c.slot n
      generalize (t.noteOutcome c.slot n).stepA = a at hnote
      generalize (t.noteOutcome c.slot n).stepB = b at hnote
      rw [hnote]
      exact ih _

/-- R705: the slot that passed has outcome 9. -/
theorem outcome_of_tryAll {t : Trust} {okA okB : Bool} {l : List Candidate} {slot : Nat}
    (h : (t.tryAll okA okB l).2 = some slot) :
    if slot = 0 then (t.tryAll okA okB l).1.stepA = 9 else (t.tryAll okA okB l).1.stepB = 9 := by
  induction l generalizing t with
  | nil => cases h
  | cons c l ih =>
    unfold Trust.tryAll at h ⊢
    dsimp only at h ⊢
    generalize t.outcome c (if c.slot = 0 then okA else okB) = n at h ⊢
    by_cases hn : n = 9
    · rw [if_pos hn] at h ⊢
      obtain rfl : c.slot = slot := Option.some.inj h
      unfold Trust.noteOutcome
      by_cases h0 : c.slot = 0
      · rw [if_pos h0, if_pos h0]
        exact hn
      · rw [if_neg h0, if_neg h0]
        exact hn
    · rw [if_neg hn] at h ⊢
      exact ih h

/-! #### The flash read -/

theorem image_of_flash {t u : Trust} (h : t.flash = u.flash) (slot : Nat) : t.image slot = u.image slot := by
  unfold Trust.image Trust.flashRead
  rw [h]

theorem resetFlash_eq (s : State) (busy : Nat) : s.resetFlash busy = { s with
    tbk := s.tbk + min busy 2000000000
    out := .qspi 0x05 0 1 :: .qspi 0x99 0 0 :: .qspi 0x66 0 0 :: s.out } := by
  change ({ s with tbk := max s.tbk (s.tbk + min busy 2000000000), out := _ } : State) = _
  rw [Nat.max_eq_right (Nat.le_add_right _ _)]
  rfl

/-- R617: each slot tried is read once. -/
theorem foldl_readSlot (s : State) (l : List Nat) : l.foldl State.readSlot s = { s with
    out := (l.map (fun n => Out.qspi 0x0C (slotBase n) (s.trust.image n).length)).reverse ++ s.out } := by
  induction l generalizing s with
  | nil => rfl
  | cons n l ih =>
    rw [List.foldl_cons, ih, List.map_cons, List.reverse_cons, List.append_assoc]
    rfl

/-! #### BOOT_ROM -/

/-- R616: the state once the slots are tried and read. -/
def State.romTried (s : State) (okA okB : Bool) (busy : Nat) : State :=
  let u := s.romStart
  let cs := u.trust.candidates s.glob.straps.bootSel.toNat
  let t := (u.trust.tryAll okA okB cs).1
  { u with
    trust := t, tbk := s.tbk + min busy 2000000000
    out := ((t.tried cs).map (fun n => Out.qspi 0x0C (slotBase n) (s.trust.image n).length)).reverse ++
      .qspi 0x05 0 1 :: .qspi 0x99 0 0 :: .qspi 0x66 0 0 :: u.out }

theorem exec_bootRom_of_up {s : State} (hup : s.up = true) (hboot : s.trust.bootCode = 1) (hfw : s.trust.fw = none)
    (okA okB : Bool) (busy : Nat) :
    exec (.bootRom okA okB busy) s =
      match (s.romStart.trust.tryAll okA okB (s.romStart.trust.candidates s.glob.straps.bootSel.toNat)).2 with
      | none => .next ((s.romTried okA okB busy).setTrust { (s.romTried okA okB busy).trust with bootCode := 2 })
      | some slot => .next ((s.romTried okA okB busy).romPassed slot) := by
  obtain ⟨-, hflash, -, -, -, -, hglob, htbk⟩ := romStart_keeps s
  have himage (t : Trust) (ht : t.flash = s.romStart.trust.flash) (n : Nat) : t.image n = s.trust.image n :=
    image_of_flash (ht.trans hflash) n
  have htried : ((s.romStart.trust.tryAll okA okB (s.romStart.trust.candidates s.glob.straps.bootSel.toNat)).1.tried
      (s.romStart.trust.candidates s.glob.straps.bootSel.toNat)).foldl State.readSlot
        ((s.romStart.resetFlash busy).setTrust
          (s.romStart.trust.tryAll okA okB (s.romStart.trust.candidates s.glob.straps.bootSel.toNat)).1) =
      s.romTried okA okB busy := by
    rw [foldl_readSlot, resetFlash_eq, htbk]
    simp only [State.setTrust, himage _ (Trust.tryAll_keeps _ _ _ _).2]
    rfl
  change execBootRom okA okB busy s = _
  have hidle : (!s.up || s.trust.bootCode != 1 || s.trust.fw.isSome) = false := by simp [hup, hboot, hfw]
  unfold execBootRom
  rw [hidle, if_neg Bool.false_ne_true]
  dsimp only
  rw [← htried, resetFlash_eq]
  dsimp only
  rw [hglob] <;> rfl

/-- What the tried slots leave of the trust state. -/
theorem romTried_keeps (s : State) (okA okB : Bool) (busy : Nat) :
    (s.romTried okA okB busy).trust.stakes = s.trust.stakes ∧ (s.romTried okA okB busy).trust.flash = s.trust.flash ∧
    (s.romTried okA okB busy).trust.fw = s.trust.fw ∧ (s.romTried okA okB busy).trust.bootCode = s.trust.bootCode ∧
    (s.romTried okA okB busy).trust.mr.getD 0 [] = zeros 48 ∧ (s.romTried okA okB busy).trust.mr.length = 8 ∧
    (s.romTried okA okB busy).glob = s.glob := by
  obtain ⟨hstakes, hflash, hfw, hboot, hmr, hlen, hglob, -⟩ := romStart_keeps s
  have htrust := tryAll_frame s.romStart.trust okA okB (s.romStart.trust.candidates s.glob.straps.bootSel.toNat)
  have h : (s.romTried okA okB busy).trust =
      (s.romStart.trust.tryAll okA okB (s.romStart.trust.candidates s.glob.straps.bootSel.toNat)).1 := by
    simp only [State.romTried]
  have hg : (s.romTried okA okB busy).glob = s.romStart.glob := by simp only [State.romTried]
  rw [hg, h]
  generalize (s.romStart.trust.tryAll okA okB (s.romStart.trust.candidates s.glob.straps.bootSel.toNat)).1 = t at htrust
  generalize s.romStart = u at *
  rw [htrust]
  exact ⟨hstakes, hflash, hfw, hboot, hmr, hlen, hglob⟩

theorem romTried_out (s : State) (okA okB : Bool) (busy : Nat) :
    (s.romTried okA okB busy).out =
      (((s.romStart.trust.tryAll okA okB (s.romStart.trust.candidates s.glob.straps.bootSel.toNat)).1.tried
        (s.romStart.trust.candidates s.glob.straps.bootSel.toNat)).map (fun n =>
          Out.qspi 0x0C (slotBase n) (s.trust.image n).length)).reverse ++
        .qspi 0x05 0 1 :: .qspi 0x99 0 0 :: .qspi 0x66 0 0 :: s.romStart.out := by
  simp only [State.romTried]

theorem romTried_tbk (s : State) (okA okB : Bool) (busy : Nat) :
    (s.romTried okA okB busy).tbk = s.tbk + min busy 2000000000 := by
  simp only [State.romTried]

theorem romTried_outcome {s : State} {okA okB : Bool} {slot : Nat}
    (h : (s.romStart.trust.tryAll okA okB (s.romStart.trust.candidates s.glob.straps.bootSel.toNat)).2 = some slot)
    (busy : Nat) :
    if slot = 0 then (s.romTried okA okB busy).trust.stepA = 9 else (s.romTried okA okB busy).trust.stepB = 9 := by
  simp only [State.romTried]
  exact outcome_of_tryAll h

theorem getD_of_getD_nil {l : List Bytes} {n : Nat} (h : n < l.length) (d : Bytes) : l.getD n d = l.getD n [] := by
  rw [List.getD_eq_getElem _ _ h, List.getD_eq_getElem _ _ h]

/-- R616 step 5: register 0 after the image that passed is measured. -/
theorem mr0_romPassed {s : State} (hmr : s.trust.mr.getD 0 [] = zeros 48) (hlen : s.trust.mr.length = 8) (slot : Nat) :
    (s.romPassed slot).trust.mr.getD 0 [] = sha384 (zeros 48 ++ sha384 ([0x01, 0, 0, 0] ++ s.trust.image slot)) := by
  have hroom : 0 < s.trust.mr.length := by rw [hlen]; decide
  change (s.extend 0 (eventRecord 0x01 (s.trust.image slot))).trust.mr.getD 0 [] = _
  rw [mr_extend, if_pos ⟨rfl, hroom⟩, getD_of_getD_nil hroom, hmr]
  rfl

/-! #### FIRMWARE_BOOT -/

/-- Table 11.6: the measurements of the boot. -/
def State.bootMeasured (s : State) (f : Firmware) : State :=
  let t := (s.extend 1 (eventRecord 0x10 (s.bootRecord f.slot))).extend 2 (eventRecord 0x20 s.trust.usedCopies)
  if t.debugUnlock then t.extend 7 (eventRecord 0x70 []) else t

/-- R572: a disagreement of the straps and the role lock is logged. -/
def State.roleLogged (s : State) : State :=
  if s.roleMismatch then s.logEvent evROLE_MISMATCH 0xFF (Config.severity evROLE_MISMATCH) noUnit s.roleDetail else s

theorem tells_roleLogged (s : State) : Tells s s.roleLogged := by
  unfold State.roleLogged
  split
  · exact tells_logEvent _ _ _ _ _ _
  · exact Tells.refl s

/-- Table 14.3: the firmware drives VID. -/
def State.vidOn (s : State) : State := s.setBoard { s.board with vidDriven := true }

/-- R747: `boot_code` 0 and `ready`. -/
def State.bootReady (s : State) : State :=
  (s.setTrust { s.trust with bootCode := 0 }).setGlob { s.glob with ready := true }

theorem exec_firmwareBoot_of_up {s : State} {f : Firmware} (hup : s.up = true) (hboot : s.trust.bootCode = 1)
    (hfw : s.trust.fw = some f) (hgddr : s.board.gddrOn = true) :
    exec .firmwareBoot s = .next
      (s.bootMeasured f).vidOn.enablePorts.roleLogged.bootReady := by
  change execFirmwareBoot s = _
  have hidle : (!s.up || s.trust.bootCode != 1 || !s.board.gddrOn) = false := by simp [hup, hboot, hgddr]
  unfold execFirmwareBoot
  rw [hfw]
  dsimp only
  rw [hidle, if_neg Bool.false_ne_true]
  rfl

theorem bootMeasured_frame (s : State) (f : Firmware) :
    s.bootMeasured f = { s with trust := (s.bootMeasured f).trust } ∧
      (s.bootMeasured f).trust.stakes = s.trust.stakes := by
  unfold State.bootMeasured
  dsimp only
  split <;> exact ⟨rfl, rfl⟩

/-- Table 11.6: registers 1 and 2 after the boot. -/
theorem mr_bootMeasured {s : State} (hlen : s.trust.mr.length = 8) (f : Firmware) :
    (s.bootMeasured f).trust.mr.getD 1 [] =
      sha384 (s.trust.mr.getD 1 (zeros 48) ++ sha384 ([0x10, 0, 0, 0] ++ s.bootRecord f.slot)) ∧
    (s.bootMeasured f).trust.mr.getD 2 [] =
      sha384 (s.trust.mr.getD 2 (zeros 48) ++ sha384 ([0x20, 0, 0, 0] ++ s.trust.usedCopies)) := by
  have h1 : 1 < s.trust.mr.length := by rw [hlen]; decide
  have h2 : 2 < s.trust.mr.length := by rw [hlen]; decide
  have hdebug (t : State) (n : Nat) (hn : n ≠ 7) :
      (if t.debugUnlock then t.extend 7 (eventRecord 0x70 []) else t).trust.mr.getD n [] = t.trust.mr.getD n [] := by
    split
    · rw [mr_extend, if_neg (by omega)]
    · rfl
  unfold State.bootMeasured
  dsimp only
  rw [hdebug _ 1 (by decide), hdebug _ 2 (by decide)]
  obtain ⟨u, hu⟩ : ∃ u, u = s.extend 1 (eventRecord 0x10 (s.bootRecord f.slot)) := ⟨_, rfl⟩
  have hu2 : 2 < u.trust.mr.length := by rw [hu, length_mr_extend]; exact h2
  have hreg1 : u.trust.mr.getD 1 [] = sha384 (s.trust.mr.getD 1 (zeros 48) ++ sha384 (eventRecord 0x10 (s.bootRecord f.slot))) := by
    rw [hu, mr_extend, if_pos ⟨rfl, h1⟩]
  have hreg2 : u.trust.mr.getD 2 [] = s.trust.mr.getD 2 [] := by rw [hu, mr_extend, if_neg (by omega)]
  rw [← hu, mr_extend, if_neg (by omega), mr_extend, if_pos ⟨rfl, hu2⟩, hreg1, getD_of_getD_nil hu2, hreg2,
    getD_of_getD_nil h2 (zeros 48)]
  exact ⟨rfl, rfl⟩

theorem enablePorts_of_off {s : State} (h : s.glob.straps.hxlEn = false) : s.enablePorts = s := by
  simp [State.enablePorts, h]

theorem Within.setPort (s : State) (p : Nat) (x : Port) : Within [.ports] s (s.setPort p x) := rfl

theorem enablePorts_frame (s : State) : s.enablePorts = { s with ports := s.enablePorts.ports } := by
  have hports : Within [.ports] s s.enablePorts := by
    unfold State.enablePorts
    split
    · exact Within.foldl _ _ (fun _ p h => h.then (Within.setPort _ p _) (by decide)) (Within.refl _ _)
    · exact Within.refl _ _
  exact hports

theorem state_port_enablePorts {s : State} (h : s.glob.straps.hxlEn = true) {p : Nat} (hp : p < 4) :
    (s.enablePorts.port p).state = .detect := by
  have hports : s.enablePorts = (((s.setPort 0 { Port.reset with state := .detect, since := s.tbk }).setPort 1
      { Port.reset with state := .detect, since := s.tbk }).setPort 2
      { Port.reset with state := .detect, since := s.tbk }).setPort 3
      { Port.reset with state := .detect, since := s.tbk } := by
    rw [State.enablePorts, if_pos h]
    rfl
  rw [hports]
  generalize s.tbk = now
  simp only [State.port_setPort]
  interval_cases p <;> rfl

/-- Settles O10: the ROM's trials change only their outcomes, and each measurement extends one register. -/
theorem bootSequence : Obligations.BootSequence := by
  unfold Obligations.BootSequence
  refine ⟨?rom, ?firmware⟩
  case rom =>
    intro s okA okB busy hup hboot hfw u r
    have hexec := exec_bootRom_of_up hup hboot hfw okA okB busy
    obtain ⟨hstakes, hflash, hfw', hboot', hmr, hlen, hglob⟩ := romTried_keeps s okA okB busy
    have hout := romTried_out s okA okB busy
    have htbk := romTried_tbk s okA okB busy
    refine ⟨fun hr => ?_, fun slot hr => ?_⟩
    · rw [show (s.romStart.trust.tryAll okA okB _).2 = none from hr] at hexec
      generalize s.romTried okA okB busy = w at *
      exact ⟨_, hexec, rfl, hfw'.trans hfw, htbk, hstakes, hflash, congrArg Glob.ready hglob⟩
    · rw [show (s.romStart.trust.tryAll okA okB _).2 = some slot from hr] at hexec
      have houtcome := romTried_outcome hr busy
      have hmr0 := mr0_romPassed hmr hlen slot
      rw [image_of_flash hflash] at hmr0
      generalize s.romTried okA okB busy = w at *
      exact ⟨_, hexec, hboot'.trans hboot, rfl, htbk, hout, houtcome, hmr0, hstakes, hflash, congrArg Glob.ready hglob⟩
  case firmware =>
    intro s f hup hboot hfw hgddr hlen
    obtain ⟨hframe, hstakes⟩ := bootMeasured_frame s f
    obtain ⟨hmr1, hmr2⟩ := mr_bootMeasured hlen f
    have hexec := exec_firmwareBoot_of_up hup hboot hfw hgddr
    generalize s.bootMeasured f = m at hframe hstakes hmr1 hmr2 hexec
    have hon : m.vidOn = { s with trust := m.trust, board := { s.board with vidDriven := true } } := by
      rw [State.vidOn, hframe]
      rfl
    have hports := enablePorts_frame m.vidOn
    have hdetect := state_port_enablePorts (s := m.vidOn)
    have hoff := enablePorts_of_off (s := m.vidOn)
    rw [hon] at hports hdetect hoff hexec
    generalize State.enablePorts _ = e at hports hdetect hoff hexec
    have htells := tells_roleLogged e
    generalize e.roleLogged = t at htells hexec
    have htrust : t.trust = m.trust := by rw [htells.trust, hports]
    refine ⟨t.bootReady, hexec, rfl, rfl, ?_, ?_, ?_, ?_, ?_, ?_, ?_, fun p hp hen => ?_, fun hen => ?_⟩
    · exact htells.board.trans (by rw [hports])
    · exact State.ringsKept.trans (State.ringsKept_of_rings_eq (by rw [hports])) htells.rings
    · exact htells.fields.trans (by rw [hports])
    · exact (congrArg Trust.stakes htrust).trans hstakes
    · exact htells.tbk.trans (by rw [hports])
    · exact (congrArg (fun u : Trust => u.mr.getD 1 []) htrust).trans hmr1
    · exact (congrArg (fun u : Trust => u.mr.getD 2 []) htrust).trans hmr2
    · have hport : t.port p = e.port p := by rw [State.port, htells.ports, State.port]
      exact (congrArg Port.state hport).trans (hdetect hen hp)
    · exact htells.ports.trans (by rw [hoff hen])

end Sys2Proof.Machine

/-! ### Function-level resets (R120, R758, R759) -/

namespace Sys2Proof.Machine

/-! #### What a command releases as it goes -/

theorem Within.landIssued (s : State) (id : Nat) (x : Run) :
    Within [.fields] s (s.landIssued id x) := by
  unfold State.landIssued
  with_reducible repeat' first
    | exact Within.refl _ _ | assumption | refine Within.then ?_ (Within.modField _ _ _) ?_
    | refine Within.foldl _ _ (fun _ _ _ => ?_) ?_ | split | dsimp only | decide

theorem Within.releaseRun (s : State) (id : Nat) (x : Run) :
    Within [.fields, .cores, .messages, .runs, .streams, .channels] s (s.releaseRun id x) := by
  have hsaved (g : Field → Field) : Within [.fields] s (if x.phase = .running then s.modField x.field g else s) :=
    Within.ite (Within.modField _ _ _) (Within.refl _ _)
  have hlanded (u : State) (h : Within [.fields] s u) : Within [.fields, .cores] s
      (x.cores.foldl (fun s c => s.setCore c (s.core c).released) (u.landIssued id x)) :=
    Within.foldl _ _ (fun _ c h => h.then (Within.setCore _ c _) (by decide))
      ((h.mono (by decide)).then (Within.landIssued _ _ _) (by decide))
  have hgone (u : State) (h : Within [.fields, .cores] s u) (runs : FMap Run) (messages : List Message) (channels : FMap Channel)
      (streams : FMap Stream) : Within [.fields, .cores, .messages, .runs, .streams, .channels] s
        { u with runs := runs, messages := messages, channels := channels, streams := streams } :=
    (h.mono (by decide)).then (m := [.runs, .messages, .channels, .streams]) rfl (by decide)
  exact hgone _ ((hlanded _ (hsaved _)).then (Within.countField _ _ _ _) (by decide)) _ _ _ _

theorem Within.settleRate (s : State) (f : Nat) :
    Within [.fields] s (s.settleRate f) := by
  unfold State.settleRate
  with_reducible repeat' first
    | exact Within.refl _ _ | assumption | refine Within.then ?_ (Within.modField _ _ _) ?_ | split | dsimp only
    | decide

theorem Within.trimChecks (s : State) (f : Nat) :
    Within [.fields] s (s.trimChecks f) := by
  unfold State.trimChecks
  with_reducible repeat' first
    | exact Within.refl _ _ | assumption | refine Within.then ?_ (Within.modField _ _ _) ?_ | split | dsimp only
    | decide

theorem Within.withLines (s : State) (ls : List Line) :
    Within [.cores, .granary] s (s.withLines ls) := rfl

theorem Within.memoryFreed (s : State) (f : Nat) :
    Within [.compactQueue] s (s.memoryFreed f) := by
  unfold State.memoryFreed
  with_reducible repeat' first
    | exact Within.refl _ _ | assumption | split | dsimp only | decide | with_unfolding_all exact rfl

theorem Within.freePages (s : State) (f : Nat) (p : Page → Bool) :
    Within [.fields, .compactQueue, .cores, .granary, .badChunks] s (s.freePages f p) := by
  unfold State.freePages
  with_reducible repeat' first
    | exact Within.refl _ _ | assumption | refine Within.then ?_ (Within.setField _ _ _) ?_
    | refine Within.then ?_ (Within.trimChecks _ _) ?_ | refine Within.then ?_ (Within.withLines _ _) ?_
    | refine Within.then ?_ (Within.memoryFreed _ _) ?_ | split | dsimp only | decide | with_unfolding_all exact rfl

theorem Within.freeUnneeded (s : State) (f : Nat) :
    Within [.fields, .compactQueue, .cores, .granary, .badChunks] s (s.freeUnneeded f) := by
  unfold State.freeUnneeded
  with_reducible repeat' first
    | exact Within.refl _ _ | assumption | refine Within.then ?_ (Within.freePages _ _ _) ?_ | split | dsimp only
    | decide

theorem Within.markPins (s : State) (f : Nat) :
    Within [.fields] s (s.markPins f) := by
  unfold State.markPins
  with_reducible repeat' first
    | exact Within.refl _ _ | assumption | refine Within.then ?_ (Within.modField _ _ _) ?_ | split | dsimp only
    | decide

theorem Within.pinLines (s : State) (f : Nat) :
    Within [.granary] s (s.pinLines f) := by
  unfold State.pinLines
  with_reducible repeat' first
    | exact Within.refl _ _ | assumption | split | dsimp only | decide | with_unfolding_all exact rfl

theorem Within.releasePages (s : State) (f : Nat) :
    Within [.fields, .compactQueue, .cores, .granary, .badChunks] s (s.releasePages f) := by
  unfold State.releasePages
  with_reducible repeat' first
    | exact Within.refl _ _ | assumption | refine Within.then ?_ (Within.freeUnneeded _ _) ?_
    | refine Within.then ?_ (Within.markPins _ _) ?_ | refine Within.then ?_ (Within.pinLines _ _) ?_ | split
    | dsimp only | decide

theorem Within.dropQueries (s : State) (p : QRef → Bool) :
    Within [.fields, .indexes, .compactQueue, .queries, .windows, .ledger, .cores, .streams, .granary, .badChunks] s
    (s.dropQueries p) := by
  unfold State.dropQueries
  with_reducible repeat' first
    | exact Within.refl _ _ | assumption | refine Within.then ?_ (Within.settleRate _ _) ?_
    | refine Within.then ?_ (Within.releasePages _ _) ?_ | refine Within.foldl _ _ (fun _ _ _ => ?_) ?_ | split
    | dsimp only | decide | with_unfolding_all exact rfl

theorem Within.undo (s : State) (c : Cmd) :
    Within [.cmds, .fields, .indexes, .compactQueue, .cores, .granary, .badChunks] s (s.undo c) := by
  have hindexes (x : FMap Index) : Within [.indexes] s { s with indexes := x } := rfl
  unfold State.undo
  split
  · exact Within.ite (((hindexes _).mono (by decide)).then (Within.releasePages _ _) (by decide)) (Within.refl _ _)
  · exact ((Within.setCmds s _).mono (by decide)).then (Within.releasePages _ _) (by decide)
  · exact Within.refl _ _

/-! #### A command dropped without a record (R120) -/

theorem Within.finish_of_resetting {s : State} {c : Cmd} (h : (s.ring c.ring).resetting = true) (status info bound : Nat)
    (fl : Flags) (ok : Bool) :
    Within [.rings, .cmds, .fields, .streams, .counters] s (s.finish c status info bound fl ok) := by
  rw [State.finish_of_resetting h]
  exact ((Within.retired s c status fl).mono (by decide)).then (Within.settleRing _ _) (by decide)

theorem State.ring_finish_of_resetting {s : State} {c : Cmd} (h : (s.ring c.ring).resetting = true) (status info bound : Nat)
    (fl : Flags) (ok : Bool) {r : Nat} (hr : r ≠ c.ring) : (s.finish c status info bound fl ok).ring r = s.ring r := by
  rw [State.finish_of_resetting h, State.settleRing]
  split
  · rw [State.ring_setRing, if_neg hr.symm, State.retired_ring]
  · exact State.retired_ring s c status fl r

/-- What a command that is dropped may change before it ends. -/
def dropped : List Comp :=
  [.fresh, .cmds, .fields, .indexes, .compactQueue, .queries, .windows, .ledger, .cores, .messages, .runs, .streams, .channels,
    .granary, .badChunks, .units]

theorem filter_map_of_is (l : List Cmd) (c : Cmd) (w : Work) :
    (l.map (fun d => if d.is c.ring c.seq then { d with work := w } else d)).filter (fun d => !d.is c.ring c.seq) =
      l.filter (fun d => !d.is c.ring c.seq) := by
  induction l with
  | nil => rfl
  | cons d l ih =>
    rw [List.map_cons]
    cases hd : d.is c.ring c.seq with
    | true =>
      have hd' : ({ d with work := w } : Cmd).is c.ring c.seq = true := hd
      rw [if_pos rfl, List.filter_cons_of_neg (by simp [hd']), List.filter_cons_of_neg (by simp [hd]), ih]
    | false => rw [if_neg Bool.false_ne_true, List.filter_cons_of_pos (by simp [hd]), List.filter_cons_of_pos (by simp [hd]), ih]

theorem filter_cmds_undo (s : State) (c : Cmd) :
    (s.undo c).cmds.filter (fun d => !d.is c.ring c.seq) = s.cmds.filter (fun d => !d.is c.ring c.seq) := by
  have hpages (t : State) : (t.releasePages (ringFn c.ring)).cmds = t.cmds :=
    (Within.releasePages t _).get State.cmds (fun _ => rfl)
  unfold State.undo
  split
  · dsimp only
    split
    · rw [hpages]
    · rfl
  · dsimp only
    rw [hpages]
    exact filter_map_of_is _ _ _
  · rfl

/-- The state of a command's ring as the command is dropped. -/
def State.ringHeld (s : State) (c : Cmd) : State := s.setRing c.ring { s.ring c.ring with resetting := true }

/-- R120: a dropped command ends on a ring under reset, having let go of what it held. -/
theorem dropCmd_eq (s : State) (c : Cmd) : ∃ (u : State) (bound : Nat) (fl : Flags) (ok : Bool),
    s.dropCmd c = u.finish c 0 0 bound fl ok ∧ Within dropped (s.ringHeld c) u ∧
      u.cmds.filter (fun d => !d.is c.ring c.seq) = s.cmds.filter (fun d => !d.is c.ring c.seq) := by
  have hfresh (n : Nat) : Within [.fresh] (s.ringHeld c) { s.ringHeld c with fresh := n } := rfl
  unfold State.dropCmd
  dsimp only
  change ∃ u bound fl ok, (match c.work with
    | .run id => (match FMap.get? (s.ringHeld c).runs id with
      | none => s.ringHeld c
      | some x => (s.ringHeld c).releaseRun id x).finish c 0 0 0 c.flags true
    | _ => (s.ringHeld c).stopCmd c 0 none) = _ ∧ _
  split
  · next id _ =>
    refine ⟨_, 0, c.flags, true, rfl, ?_⟩
    split
    · exact ⟨Within.refl _ _, rfl⟩
    · next x _ =>
      have hrelease := Within.releaseRun (s.ringHeld c) id x
      exact ⟨hrelease.mono (by decide), by rw [hrelease.get State.cmds (fun _ => rfl)]; rfl⟩
  · next hrun =>
    unfold State.stopCmd
    dsimp only
    split
    · have hq := ((hfresh ((s.ringHeld c).fresh + 2)).mono (by decide)).then (n := dropped)
        (Within.dropQueries _ (fun r => r.of c.ring c.seq)) (by decide)
      refine ⟨_, _, _, _, rfl, hq, ?_⟩
      rw [(Within.dropQueries _ _).get State.cmds (fun _ => rfl)]
      rfl
    · next id hid => exact absurd hid (hrun id)
    · exact ⟨_, _, _, _, rfl, (hfresh ((s.ringHeld c).fresh + 2)).mono (by decide) |>.then (m := [.units]) rfl (by decide), rfl⟩
    · refine ⟨_, _, _, _, rfl, ((hfresh ((s.ringHeld c).fresh + 2)).mono (by decide)).then (Within.undo _ _) (by decide), ?_⟩
      rw [filter_cmds_undo]
      rfl

theorem resetting_ringHeld (s : State) (c : Cmd) : ((s.ringHeld c).ring c.ring).resetting = true := by
  rw [State.ringHeld, State.ring_setRing_self]

theorem Within.dropCmd (s : State) (c : Cmd) : Within (.rings :: .counters :: dropped) s (s.dropCmd c) := by
  obtain ⟨u, bound, fl, ok, hdrop, hu, -⟩ := dropCmd_eq s c
  have hreset : (u.ring c.ring).resetting = true := by
    rw [State.ring, hu.get State.rings (fun _ => rfl)]
    exact resetting_ringHeld s c
  rw [hdrop]
  exact (((Within.setRing s c.ring _).mono (by decide)).then hu (by decide)).then
    (Within.finish_of_resetting hreset _ _ _ _ _) (by decide)

theorem ring_dropCmd (s : State) (c : Cmd) {r : Nat} (hr : r ≠ c.ring) : (s.dropCmd c).ring r = s.ring r := by
  obtain ⟨u, bound, fl, ok, hdrop, hu, -⟩ := dropCmd_eq s c
  have hrings : ∀ q, u.ring q = (s.ringHeld c).ring q := fun q => by
    rw [State.ring, hu.get State.rings (fun _ => rfl), State.ring]
  rw [hdrop, State.ring_finish_of_resetting (by rw [hrings]; exact resetting_ringHeld s c) _ _ _ _ _ hr, hrings,
    State.ringHeld, State.ring_setRing, if_neg hr.symm]

theorem cmds_dropCmd (s : State) (c : Cmd) : (s.dropCmd c).cmds = s.cmds.filter (fun d => !d.is c.ring c.seq) := by
  obtain ⟨u, bound, fl, ok, hdrop, -, hcmds⟩ := dropCmd_eq s c
  rw [hdrop, State.finish_cmds, hcmds]

theorem within_foldl_dropCmd (l : List Cmd) (s : State) : Within (.rings :: .counters :: dropped) s (l.foldl State.dropCmd s) :=
  Within.foldl _ _ (fun _ c h => h.trans (Within.dropCmd _ c)) (Within.refl _ _)

theorem ring_foldl_dropCmd {r : Nat} (l : List Cmd) (h : ∀ c ∈ l, r ≠ c.ring) (s : State) :
    (l.foldl State.dropCmd s).ring r = s.ring r := by
  induction l generalizing s with
  | nil => rfl
  | cons c l ih =>
    rw [List.foldl_cons, ih (fun d hd => h d (List.mem_cons_of_mem c hd)), ring_dropCmd s c (h c List.mem_cons_self)]

theorem mem_cmds_foldl_dropCmd {d : Cmd} (l : List Cmd) (s : State) :
    d ∈ (l.foldl State.dropCmd s).cmds ↔ d ∈ s.cmds ∧ ∀ c ∈ l, d.is c.ring c.seq = false := by
  induction l generalizing s with
  | nil => simp
  | cons c l ih =>
    rw [List.foldl_cons, ih, cmds_dropCmd, List.mem_filter, List.forall_mem_cons, Bool.not_eq_true', and_assoc]

theorem is_self (c : Cmd) : c.is c.ring c.seq = true := by simp [Cmd.is]

/-- R120: of the commands of rings that p names, none is left; every other one is. -/
theorem mem_cmds_dropCmds {p : Cmd → Bool} (hp : ∀ c d : Cmd, c.ring = d.ring → p c = p d) (s : State) (d : Cmd) :
    d ∈ (s.dropCmds p).cmds ↔ d ∈ s.cmds ∧ p d = false := by
  rw [State.dropCmds, mem_cmds_foldl_dropCmd]
  refine and_congr_right fun hd => ⟨fun h => ?_, fun h c hc => ?_⟩
  · by_contra hpd
    have hself := h d (List.mem_filter.mpr ⟨hd, by simpa using hpd⟩)
    rw [is_self] at hself
    cases hself
  · by_contra his
    have hring : d.ring = c.ring := by
      simp only [Cmd.is, Bool.not_eq_false, Bool.and_eq_true, beq_iff_eq] at his
      exact his.1
    rw [hp d c hring, (List.mem_filter.mp hc).2] at h
    cases h

/-! #### A field removed (R144) -/

theorem FMap.get?_filter_key {α : Type} (m : FMap α) (p : Nat → Bool) (k : Nat) :
    FMap.get? (m.filter (fun x => p x.1)) k = if p k then FMap.get? m k else none := by
  induction m with
  | nil => simp
  | cons x m ih =>
    cases hx : p x.1 with
    | true =>
      rw [List.filter_cons_of_pos (p := fun y : Nat × α => p y.1) hx, FMap.get?_cons, ih, FMap.get?_cons]
      by_cases hk : x.1 = k
      · subst hk
        rw [if_pos rfl, if_pos hx, if_pos rfl]
      · rw [if_neg hk, if_neg hk]
    | false =>
      rw [List.filter_cons_of_neg (p := fun y : Nat × α => p y.1) (by simp [hx]), ih, FMap.get?_cons]
      by_cases hk : x.1 = k
      · subst hk
        rw [hx, if_neg Bool.false_ne_true, if_neg Bool.false_ne_true]
      · rw [if_neg hk]

section Removed
variable (s : State) (f : Nat)

theorem removeField_rest : (s.removeField f).fields = FMap.erase s.fields f ∧
    (s.removeField f).rings = s.rings.filter (fun x => x.1 == adminRing || x.1 / 8 != f) ∧
    (s.removeField f).indexes = s.indexes.filter (fun x => !(x.1 / 64 == f)) ∧ (s.removeField f).cmds = s.cmds ∧
    (s.removeField f).trust = s.trust ∧ (s.removeField f).tbk = s.tbk ∧ (s.removeField f).glob = s.glob ∧
    (s.removeField f).fns = s.fns ∧ hostWrites (s.removeField f).out = hostWrites s.out := by
  unfold State.removeField
  dsimp only
  split <;> split <;> exact ⟨rfl, rfl, rfl, rfl, rfl, rfl, rfl, rfl, rfl⟩

theorem index?_removeField (i : Nat) (hi : i < 64) (g : Nat) :
    (s.removeField f).index? g i = if g = f then none else s.index? g i := by
  obtain ⟨-, -, hindexes, -⟩ := removeField_rest s f
  have hkey : indexKey g i / 64 = g := by
    unfold indexKey
    omega
  rw [State.index?, hindexes, FMap.get?_filter_key _ (fun k => !(k / 64 == f)), hkey]
  by_cases hg : g = f <;> simp [hg, State.index?]

theorem ring_removeField (r : Nat) :
    (s.removeField f).ring r = if r = adminRing ∨ r / 8 ≠ f then s.ring r else Ring.reset := by
  obtain ⟨-, hrings, -⟩ := removeField_rest s f
  rw [State.ring, FMap.getD, hrings, FMap.get?_filter_key _ (fun k => k == adminRing || k / 8 != f)]
  by_cases hr : r = adminRing ∨ r / 8 ≠ f
  · rw [if_pos hr, if_pos (by simpa using hr)]
    rfl
  · rw [if_neg hr, if_neg (by simpa using hr)]
    rfl

end Removed

/-! #### The reset of one function -/

theorem ringFn_of_div {r fn : Nat} (h : r / 8 ≠ fn) : r = adminRing ∨ ringFn r ≠ fn := by
  by_cases hr : r = adminRing
  · exact .inl hr
  · exact .inr (by rwa [ringFn_of_ne_adminRing hr])

/-- The commands of a function's own rings. -/
def ofFunction (fn : Nat) (c : Cmd) : Bool := c.ring != adminRing && ringFn c.ring == fn

theorem ofFunction_eq_false (fn : Nat) (c : Cmd) : ofFunction fn c = false ↔ c.ring = adminRing ∨ ringFn c.ring ≠ fn := by
  simp [ofFunction, Classical.or_iff_not_imp_left]

theorem mem_cmds_flr (s : State) (fn : Nat) (d : Cmd) :
    d ∈ (s.flr fn).cmds ↔ d ∈ s.cmds ∧ (d.ring = adminRing ∨ ringFn d.ring ≠ fn) := by
  obtain ⟨-, -, -, hcmds, -⟩ := removeField_rest (s.dropCmds (ofFunction fn)) fn
  rw [← ofFunction_eq_false, ← mem_cmds_dropCmds (fun c d h => by unfold ofFunction; rw [h]), ← hcmds]
  exact Iff.rfl

/-- What the reset of a function keeps of the rest of the device. -/
theorem flr_keeps (s : State) (fn : Nat) :
    (s.flr fn).trust = s.trust ∧ (s.flr fn).tbk = s.tbk ∧ (s.flr fn).glob = s.glob ∧
      hostWrites (s.flr fn).out = hostWrites s.out := by
  obtain ⟨-, -, -, -, htrust, htbk, hglob, -, hout⟩ := removeField_rest (s.dropCmds (ofFunction fn)) fn
  have hdrop := within_foldl_dropCmd (s.cmds.filter (ofFunction fn)) s
  exact ⟨htrust.trans (hdrop.get State.trust (fun _ => rfl)), htbk.trans (hdrop.get State.tbk (fun _ => rfl)),
    hglob.trans (hdrop.get State.glob (fun _ => rfl)), hout.trans (congrArg hostWrites (hdrop.get State.out (fun _ => rfl)))⟩

theorem ring_flr_of_other (s : State) {fn r : Nat} (h : r / 8 ≠ fn) : (s.flr fn).ring r = s.ring r := by
  have hremove := ring_removeField (s.dropCmds (ofFunction fn)) fn r
  rw [if_pos (.inr h)] at hremove
  refine hremove.trans (ring_foldl_dropCmd _ (fun c hc => ?_) s)
  rintro rfl
  have hc' := (List.mem_filter.mp hc).2
  rw [(ofFunction_eq_false fn c).mpr (ringFn_of_div h)] at hc'
  cases hc'

theorem ring_flr_self (s : State) {fn r : Nat} (hr : r < 128) (h : r / 8 = fn) : (s.flr fn).ring r = Ring.reset := by
  have hremove := ring_removeField (s.dropCmds (ofFunction fn)) fn r
  rwa [if_neg (by unfold adminRing; omega)] at hremove

theorem field?_flr (s : State) (fn : Nat) : (s.flr fn).field? fn = none := by
  obtain ⟨hfields, -⟩ := removeField_rest (s.dropCmds (ofFunction fn)) fn
  have hgone : (s.flr fn).field? fn = FMap.get? ((s.dropCmds (ofFunction fn)).removeField fn).fields fn := rfl
  rw [hgone, hfields, FMap.get?_erase, if_pos rfl]

theorem fn_flr (s : State) (fn n : Nat) :
    (s.flr fn).fn n = if fn = n then FnRegs.reset (alwaysEnabled fn) else (s.dropCmds (ofFunction fn)).fn n := by
  obtain ⟨-, -, -, -, -, -, -, hfns, -⟩ := removeField_rest (s.dropCmds (ofFunction fn)) fn
  have hset := State.fn_setFn ((s.dropCmds (ofFunction fn)).removeField fn) fn n (FnRegs.reset (alwaysEnabled fn))
  rwa [show ((s.dropCmds (ofFunction fn)).removeField fn).fn n = (s.dropCmds (ofFunction fn)).fn n by
    rw [State.fn, hfns, State.fn]] at hset

theorem index?_flr (s : State) (fn g : Nat) {i : Nat} (hi : i < 64) :
    (s.flr fn).index? g i = if g = fn then none else (s.dropCmds (ofFunction fn)).index? g i :=
  index?_removeField (s.dropCmds (ofFunction fn)) fn i hi g

/-! #### The reset of the physical function -/

/-- Without commands the reset of a function drops none. -/
theorem dropCmds_of_nil {s : State} (h : s.cmds = []) (p : Cmd → Bool) : s.dropCmds p = s := by
  rw [State.dropCmds, h]
  rfl

/-- What resets of functions leave of a state without commands: none, and of each function the reset registers and no index. -/
structure FunctionsReset (l : List Nat) (s t : State) : Prop where
  cmds : t.cmds = []
  trust : t.trust = s.trust
  tbk : t.tbk = s.tbk
  writes : hostWrites t.out = hostWrites s.out
  fn : ∀ n, n ∈ l ∨ s.fn n = FnRegs.reset (alwaysEnabled n) → t.fn n = FnRegs.reset (alwaysEnabled n)
  index : ∀ f i, i < 64 → f ∈ l ∨ s.index? f i = none → t.index? f i = none

theorem functionsReset_foldl (l : List Nat) {s : State} (h : s.cmds = []) :
    FunctionsReset l s (l.foldl (fun s fn => s.flr fn) s) := by
  induction l generalizing s with
  | nil => exact ⟨h, rfl, rfl, rfl, fun n hn => hn.resolve_left (List.not_mem_nil), fun f i _ hf => hf.resolve_left (List.not_mem_nil)⟩
  | cons fn l ih =>
    have hcmds : (s.flr fn).cmds = [] := by
      refine List.eq_nil_iff_forall_not_mem.mpr fun d hd => ?_
      have hd' := ((mem_cmds_flr s fn d).mp hd).1
      rw [h] at hd'
      cases hd'
    obtain ⟨htrust, htbk, -, hout⟩ := flr_keeps s fn
    have hrest := ih hcmds
    rw [List.foldl_cons]
    refine ⟨hrest.cmds, hrest.trust.trans htrust, hrest.tbk.trans htbk, hrest.writes.trans hout, fun n hn => hrest.fn n ?_,
      fun f i hi hf => hrest.index f i hi ?_⟩
    · by_cases hfn : fn = n
      · exact .inr (by rw [fn_flr, if_pos hfn, hfn])
      · refine (hn.imp (fun hmem => (List.mem_cons.mp hmem).resolve_left (Ne.symm hfn)) (fun hreset => ?_))
        rw [fn_flr, if_neg hfn, dropCmds_of_nil h, hreset]
    · by_cases hfn : f = fn
      · exact .inr (by rw [index?_flr s fn f hi, if_pos hfn])
      · refine (hf.imp (fun hmem => (List.mem_cons.mp hmem).resolve_left hfn) (fun hnone => ?_))
        rw [index?_flr s fn f hi, if_neg hfn, dropCmds_of_nil h, hnone]

/-- R759: what the resets of all sixteen functions leave. -/
theorem flrEvery_leaves (s : State) :
    s.flrEvery.cmds = [] ∧ s.flrEvery.trust = s.trust ∧ s.flrEvery.tbk = s.tbk ∧
    hostWrites s.flrEvery.out = hostWrites s.out ∧ (∀ fn, fn < 16 → s.flrEvery.fn fn = FnRegs.reset (alwaysEnabled fn)) ∧
    ∀ f i, f < 16 → i < 64 → s.flrEvery.index? f i = none := by
  have hnone : (s.dropCmds (fun _ => true)).cmds = [] := by
    refine List.eq_nil_iff_forall_not_mem.mpr fun d hd => ?_
    have hd' := ((mem_cmds_dropCmds (fun _ _ _ => rfl) s d).mp hd).2
    cases hd'
  have hdrop := within_foldl_dropCmd (s.cmds.filter (fun _ => true)) s
  have hreset := functionsReset_foldl (List.range 16) hnone
  exact ⟨hreset.cmds, hreset.trust.trans (hdrop.get State.trust (fun _ => rfl)),
    hreset.tbk.trans (hdrop.get State.tbk (fun _ => rfl)),
    hreset.writes.trans (congrArg hostWrites (hdrop.get State.out (fun _ => rfl))),
    fun fn hfn => hreset.fn fn (.inl (List.mem_range.mpr hfn)),
    fun f i hf hi => hreset.index f i hi (.inl (List.mem_range.mpr hf))⟩

/-- R759: an FLR of the physical function, with its measurement where the firmware runs. -/
theorem exec_flrPhysicalFunction_of_up {s : State} (hup : s.up = true) :
    exec .flrPhysicalFunction s = .next (if s.trust.bootCode = 0 then s.flrEvery.afterFlr.extend 3 (eventRecord 0x31 [])
      else s.flrEvery.afterFlr) := by
  change execFlrPhysicalFunction s = _
  simp only [execFlrPhysicalFunction, hup, Bool.not_true, Bool.false_eq_true, if_false]
  split <;> rfl

/-- A measurement that is made or not changes the trust state alone. -/
theorem measured_eq (u : State) (c : Prop) [Decidable c] (n : Nat) (e : Bytes) :
    (if c then u.extend n e else u) = { u with trust := (if c then u.extend n e else u).trust } := by
  split <;> rfl

theorem stakes_measured (u : State) (c : Prop) [Decidable c] (n : Nat) (e : Bytes) :
    (if c then u.extend n e else u).trust.stakes = u.trust.stakes ∧ (if c then u.extend n e else u).trust.flash = u.trust.flash := by
  split <;> exact ⟨rfl, rfl⟩

/-- Settles O9: the commands dropped leave their rings alone changed; the field removed takes its rings and indexes with it. -/
theorem functionResets : Obligations.FunctionResets := by
  unfold Obligations.FunctionResets
  refine ⟨fun s fn h0 h16 hup => ?virtual, fun s hup => ?physical⟩
  case virtual =>
    have hexec : exec (.flrVirtualFunction fn) s = .next (s.flr fn) := by
      have hno : (decide (fn = 0) || decide (16 ≤ fn)) = false := by simp; omega
      change execFlrVirtualFunction fn s = _
      rw [execFlrVirtualFunction, hno, hup]
      rfl
    have halways : alwaysEnabled fn = 1#32 := if_neg (by omega)
    obtain ⟨htrust, htbk, hglob, hout⟩ := flr_keeps s fn
    exact ⟨s.flr fn, hexec, field?_flr s fn, fun i hi => by rw [index?_flr s fn fn hi, if_pos rfl],
      fun c hc => ((mem_cmds_flr s fn c).mp hc).2, fun c hc hother => (mem_cmds_flr s fn c).mpr ⟨hc, hother⟩,
      fun r hr hfn => ring_flr_self s hr hfn, fun r hr => ring_flr_of_other s hr,
      by rw [fn_flr, if_pos rfl, halways], htrust, htbk, hglob, hout⟩
  case physical =>
    obtain ⟨hcmds, htrust, htbk, hout, hfn, hindex⟩ := flrEvery_leaves s
    have hexec := exec_flrPhysicalFunction_of_up hup
    generalize s.flrEvery = u at hcmds htrust htbk hout hfn hindex hexec
    obtain ⟨hstakes, hflash⟩ := stakes_measured u.afterFlr (s.trust.bootCode = 0) 3 (eventRecord 0x31 [])
    have hmr := mr_extend u.afterFlr 3 3 (eventRecord 0x31 [])
    rw [measured_eq] at hexec
    refine ⟨_, hexec, rfl, hindex, hcmds, ?_, rfl, rfl, rfl, hfn, hstakes.trans (congrArg Trust.stakes htrust),
      hflash.trans (congrArg Trust.flash htrust), htbk, hout, fun hboot hlen => ?_⟩
    · change (FMap.get? (FMap.erase u.rings adminRing) adminRing).getD Ring.reset = _
      rw [FMap.get?_erase, if_pos rfl]
      rfl
    · have hu : u.afterFlr.trust = s.trust := htrust
      rw [hu, if_pos ⟨rfl, by rw [hlen]; decide⟩] at hmr
      dsimp only
      rw [if_pos hboot, hmr]
      rfl

end Sys2Proof.Machine

/-! ### A field reset and the pending mutations of other fields (O18) -/

namespace Sys2Proof.Machine

/-- A command of ring 0, of field 0, that still reads pages. -/
def readingCmd : Cmd := ⟨0, 0, [], 0, .reading ⟨[], false, [], none, 0, 0, []⟩, 0, 0, false, none⟩
/-- An index with one pending mutation, prepared under the ring and the sequence number of that command. -/
def borrowingIndex : Index :=
  ⟨⟨0, 8, 0, 0, 8, 1, 1, 0, 0, 0, false, 0, 1, 0, 1, 64⟩, true, 0, [], [], [], [⟨0, 0, 0, [], []⟩], 0, [], [], [], [], [], []⟩
/-- Field 1 has that index, and the command is outstanding on field 0. -/
def borrowed : State :=
  { State.reset with
    rings := [(0, { Ring.reset with resetting := true })]
    cmds := [readingCmd]
    indexes := [(indexKey 1 0, borrowingIndex)] }

theorem index?_fieldReset_borrowed :
    ((borrowed.fieldReset 0).index? 1 0).map (fun x => x.pending) = some [] := by
  decide

/-- Refutes O18: a field reset undoes what a reading command prepared by the command's ring and sequence number alone, whatever
field the index is in. -/
theorem not_fieldConfiguration : ¬ Obligations.FieldConfiguration := by
  intro h
  obtain ⟨-, -, hreset⟩ := h
  obtain ⟨-, -, -, -, hother, -⟩ := hreset borrowed 0 (by decide)
  obtain ⟨y, hy, hpending, -⟩ := hother 1 0 borrowingIndex (by decide) (by decide) rfl
  have hgone := index?_fieldReset_borrowed
  rw [hy, Option.map_some, hpending] at hgone
  exact absurd hgone (by decide)

end Sys2Proof.Machine

/-! ### Packets marked as stopped before their admission (O25, O26, O29, O34, O35) -/

namespace Sys2Proof.Machine

/-- A step leaves a command with the ring and the sequence number of c outstanding. -/
def leavesOutstanding (r : Result) (c : Cmd) : Bool :=
  match r with
  | .next t => t.cmds.any (fun d => d.is c.ring c.seq)
  | _ => false

theorem leavesOutstanding_of_completed {r : Result} {c : Cmd} {info : Nat} {fl : Flags} {ok : Bool} {v : State}
    (h : completed r c info fl ok v) : leavesOutstanding r c = false := by
  obtain ⟨d, hring, hseq, -, -, -, rfl⟩ := h
  have hcmds : (v.finish d 0 info 0 fl ok).cmds.any (fun e => e.is c.ring c.seq) = false := by
    rw [State.finish_cmds, hring, hseq, List.any_eq_false]
    intro e he
    simpa using (List.mem_filter.mp he).2
  exact hcmds

theorem not_completed {r : Result} {c : Cmd} {info : Nat} {fl : Flags} {ok : Bool} {v : State}
    (h : leavesOutstanding r c = true) : ¬ completed r c info fl ok v := by
  intro hc
  rw [leavesOutstanding_of_completed hc] at h
  exact absurd h (by decide)

/-! A field that does not exist needs no page. -/

theorem State.syncCapacity_of_no_field {s : State} {f : Nat} (h : s.field? f = none) : s.syncCapacity f = some s := by
  simp [State.syncCapacity, State.freeUnneeded, State.freePages, State.allocNeeded, State.needed, State.markPins,
    State.modField, State.liftPinned, h]

theorem State.pinLines_of_no_field {s : State} {f : Nat} (h : s.field? f = none) : s.pinLines f = s := by
  simp [State.pinLines, h]

theorem State.pinsFit_of_no_field {s : State} {f : Nat} (h : s.field? f = none) (p : Page → Bool) : s.pinsFit f p = true := by
  simp [State.pinsFit, h]

theorem State.syncPages_of_no_field {s : State} {f : Nat} (h : s.field? f = none) : s.syncPages f = some s := by
  simp [State.syncPages, State.syncCapacity_of_no_field h, State.pinsFit_of_no_field h, State.pinLines_of_no_field h]

theorem State.syncMutation_of_no_field {s : State} {f : Nat} (h : s.field? f = none) : s.syncMutation f = some s := by
  simp [State.syncMutation, State.syncCapacity_of_no_field h, State.loosen, State.pinsFit_of_no_field h,
    State.pinLines_of_no_field h]

theorem State.spanOf_of_no_field {s : State} {f : Nat} (h : s.field? f = none) (x : Span) : s.spanOf f x = [] := by
  simp [State.spanOf, h]

theorem State.segments_of_no_field {s : State} {f : Nat} (h : s.field? f = none) (n : Nat) (xs : List Span) :
    s.segments f n xs = [] := by
  induction xs generalizing n with
  | nil => rfl
  | cons x xs ih => rw [State.segments, State.spanOf_of_no_field h, ih, List.map_nil, List.append_nil]

theorem State.atHand_of_no_field {s : State} {f : Nat} (h : s.field? f = none) (store : Bool) (xs : List Span) :
    s.atHand f store xs := by
  refine ⟨fun x _ => ?_, ?_, ?_⟩
  · simp [State.spanLost, State.spanFault, State.spanOf_of_no_field h]
  · simp [State.retrains, State.linesOfSpans, State.segments_of_no_field h]
  · simp [State.firstAway, State.segments_of_no_field h]

theorem State.addMutation_of_no_field {s : State} {ctx : Ctx} (h : s.field? ctx.fn = none) (x : Index) (m : Mutation) :
    ∃ xs, s.addMutation ctx x m =
      some (s.setIndex ctx.key { x with pending := x.pending ++ [m], stamp := x.stamp + 1 }, xs) :=
  ⟨_, congrArg (Option.map _) (State.syncMutation_of_no_field (s := s.setIndex ctx.key _) h)⟩

/-- A packet of ring 0 that waits for its admission and carries a status that will end it, as no restart marks it. -/
def markedPacket (pkt : Bytes) : Cmd := ⟨0, 0, pkt, 0, .fetched, 0, 0, false, some 0x0103⟩

/-- A device that serves, with that packet alone. -/
def marked (pkt : Bytes) (fields : FMap Field) (indexes : FMap Index) : State :=
  { State.reset with
    board := { Board.inReset with sysResetN := true, perstN := true }
    trust := { Trust.reset [] [] with bootCode := 0, fw := some ⟨0, 1, 0⟩, resolved := true }
    glob := { State.reset.glob with ready := true }
    cmds := [markedPacket pkt], fields := fields, indexes := indexes }

/-- An index of vectors of one component and one list, with nothing loaded. -/
def bareIndex (active : Bool) : Index :=
  ⟨⟨0, 0, 4, 0, 1, 1, 64, 1, 0, 0, false, 0, 1, 0, 0, 64⟩, active, 0, [], [], [], [], 0, [], [], [], [[0]], [], []⟩

/-- INDEX_LOAD_CODEBOOK of the one sub-quantiser, from a block of 64 bytes. -/
def codebookPacket : Bytes := fit 64 ([0x0B, 0x02, 0, 0, 0, 0, 1, 0] ++ zeros 10 ++ [1])
/-- DELETE of ID 0, which may be absent. -/
def deletePacket : Bytes := fit 64 ([0x11] ++ zeros 15 ++ [1])
/-- BITMAP_LOAD that deletes bitmap 0. -/
def bitmapPacket : Bytes := fit 64 ([0x2A] ++ zeros 16 ++ [1])
/-- FETCH_VECTOR of the decoded vector of one ID. -/
def fetchPacket : Bytes := fit 64 ([0x23, 0x02, 0, 0, 0, 0, 2, 0] ++ zeros 16 ++ [0, 1, 0, 0, 1])
/-- TILE_READ of tile 0 of shape 7 of core 0 of program 0. -/
def tilePacket : Bytes := fit 64 ([0x3A] ++ zeros 18 ++ [7] ++ zeros 13 ++ [2])

/-- A field whose program 0, of one core, does not run. -/
def programmed : Field :=
  { Field.fresh { FieldCfg.reset with programs := true } with programs := [(0, ⟨zeros 6 ++ [1], [], [], []⟩)] }
/-- That field under a stake that permits programs. -/
def permitted (pkt : Bytes) : State :=
  let s := marked pkt [(0, programmed)] []
  { s with trust := { s.trust with stakes := [(0, stakeRecord 0 0 4 0 0)] } }

theorem notSpecial_codebookPacket : ∀ q ∈ (List.range (num (markedPacket codebookPacket).pkt 18 2)).map
      (fun n => subQuantiser (bareIndex false).p
        ((ctxOf (markedPacket codebookPacket) ⟨some (zeros 64), true, true⟩).block.drop
          (n * ((bareIndex false).p.entries * (bareIndex false).p.subDim * 4)))),
    ∀ e ∈ q, ∀ v ∈ e, isSpecial fFP32 v.toNat = false := by
  have hone : (List.range (num (markedPacket codebookPacket).pkt 18 2)).map
      (fun n => subQuantiser (bareIndex false).p
        ((ctxOf (markedPacket codebookPacket) ⟨some (zeros 64), true, true⟩).block.drop
          (n * ((bareIndex false).p.entries * (bareIndex false).p.subDim * 4)))) = [[[0#32]]] := by decide
  rw [hone]
  simp only [List.mem_singleton, forall_eq]
  decide

/-- Refutes O25: an INDEX_LOAD_CODEBOOK that is marked as stopped before its admission is admitted, stores its table and stays
outstanding: nothing completes it. -/
theorem not_indexLife : ¬ Obligations.IndexLife := by
  intro h
  obtain ⟨-, -, hload, -⟩ := h
  let loaded : Index := { bareIndex false with codebook := storeRows [] 0 [subQuantiser (bareIndex false).p (zeros 64)] }
  let dma : Dma := ⟨some (zeros 64), true, true⟩
  let s := marked codebookPacket [] [(0, bareIndex false)]
  let u := (s.readBlock (markedPacket codebookPacket) none).setIndex 0 loaded
  obtain ⟨-, hbook⟩ := hload s u 0 dma (markedPacket codebookPacket) (bareIndex false) (by decide) rfl
  obtain ⟨t, hcompleted, -⟩ := hbook (by decide) (by decide) (by decide) (by decide) (by decide)
    notSpecial_codebookPacket (State.syncPages_of_no_field rfl) (State.atHand_of_no_field rfl true _)
  exact not_completed (by decide) hcompleted

/-- Refutes O26: a DELETE that is marked as stopped before its admission adds its mutation and stays outstanding. -/
theorem not_preparedMutations : ¬ Obligations.PreparedMutations := by
  intro h
  obtain ⟨-, hdelete⟩ := h
  let dma : Dma := ⟨none, true, true⟩
  let s := marked deletePacket [] [(0, bareIndex true)]
  obtain ⟨xs, hadd⟩ := State.addMutation_of_no_field (s := s.readBlock (markedPacket deletePacket) none)
    (ctx := ctxOf (markedPacket deletePacket) dma) rfl (bareIndex true)
    ((bareIndex true).mutation (ctxOf (markedPacket deletePacket) dma) []
      ((deleteIds (ctxOf (markedPacket deletePacket) dma)).filter
        ((bareIndex true).liveIn (s.viewOrder (ctxOf (markedPacket deletePacket) dma).key (bareIndex true)))))
  obtain ⟨t, hcompleted, -⟩ := hdelete s _ 0 dma (markedPacket deletePacket) (bareIndex true) xs (by decide) (by decide)
    (by decide) rfl (by decide) (by decide) (by decide) (fun _ _ => rfl) hadd (State.atHand_of_no_field rfl true xs)
  exact not_completed (by decide) hcompleted

/-- Refutes O29: a BITMAP_LOAD that is marked as stopped before its admission stays outstanding. -/
theorem not_filtersAndBitmaps : ¬ Obligations.FiltersAndBitmaps := by
  intro h
  obtain ⟨-, hload, -⟩ := h
  let dma : Dma := ⟨none, true, true⟩
  let field := Field.fresh FieldCfg.reset
  let s := marked bitmapPacket [(0, field)] []
  obtain ⟨t, g, hcompleted, -⟩ := hload s s 0 dma (markedPacket bitmapPacket) field (by decide) (by decide) (by decide)
    (by decide) (by decide) (by decide) (fun hvalid => absurd hvalid (by decide)) (by decide) rfl (by decide)
  exact not_completed (by decide) hcompleted

/-- Refutes O34: a FETCH_VECTOR that is marked as stopped before its admission stays outstanding. -/
theorem not_queryResults : ¬ Obligations.QueryResults := by
  intro h
  obtain ⟨-, -, -, hfetch⟩ := h
  let dma : Dma := ⟨some [1], true, true⟩
  let s := marked fetchPacket [] [(0, bareIndex true)]
  obtain ⟨t, hcompleted, -⟩ := hfetch s 0 dma (markedPacket fetchPacket) (bareIndex true) (by decide) (by decide)
    (by decide) (by decide) (by decide) (by decide) (by decide) (by decide) (by decide) (by decide) (by decide) (by decide)
    (by decide) (by decide)
  exact not_completed (by decide) hcompleted

/-- Refutes O35: a TILE_READ that is marked as stopped before its admission stays outstanding. -/
theorem not_storedPrograms : ¬ Obligations.StoredPrograms := by
  intro h
  obtain ⟨-, htile⟩ := h
  let dma : Dma := ⟨none, true, true⟩
  obtain ⟨hread, -⟩ := htile (permitted tilePacket) 0 dma (markedPacket tilePacket) programmed
    ⟨zeros 6 ++ [1], [], [], []⟩ ⟨16, 16, 2⟩ (by decide) (by decide) (by decide +kernel) (by decide)
    (by decide) (by decide) (by decide) (by decide)
  obtain ⟨t, b, hcompleted, -⟩ := hread (by decide +kernel) (by decide) rfl (by decide) (by decide) (by decide) (by decide)
  exact not_completed (by decide +kernel) hcompleted

end Sys2Proof.Machine

/-! ### A run whose command has other work (O36), and a search whose query holds pins (O54) -/

namespace Sys2Proof.Machine

/-- A device that serves, on whose ring 0 no record is written. -/
def quiet : State :=
  { State.reset with
    board := { Board.inReset with sysResetN := true, perstN := true }
    trust := { Trust.reset [] [] with bootCode := 0, fw := some ⟨0, 1, 0⟩, resolved := true }
    glob := { State.reset.glob with ready := true }
    rings := [(0, { Ring.reset with resetting := true })] }

/-- A running run of no core under ring 0 and sequence number 0. -/
def orphanRun : Run := ⟨0, 0, 0, 0, 0, [], .running, [], 1, 0, false⟩
/-- A packet under the same ring and sequence number, which runs nothing. -/
def namesake : Cmd := ⟨0, 0, [], 0, .fetched, 0, 0, false, none⟩
/-- Both of them. -/
def orphaned : State :=
  { quiet with cmds := [namesake], fields := [(0, programmed)], runs := [(0, orphanRun)] }

/-- What a step leaves of run n. -/
def runLeft (r : Result) (n : Nat) : Option Run :=
  match r with
  | .next t => FMap.get? t.runs n
  | _ => none

theorem runLeft_orphaned : runLeft (exec (.programSliceExpire 0) orphaned) 0 = some orphanRun := by
  decide

/-- Refutes O36: the end of a slice stops the command that has the run's ring and sequence number; where that command's work is
not the run, the run stays. -/
theorem not_programRuns : ¬ Obligations.ProgramRuns := by
  intro h
  obtain ⟨-, -, hslice, -⟩ := h
  obtain ⟨t, g, q, cycles, info, hexec, -, -, -, -, hrun, -⟩ := hslice orphaned 0 orphanRun namesake programmed
    ⟨zeros 6 ++ [1], [], [], []⟩ (by decide) (by decide) rfl (by decide) (by decide) (by decide) (by decide)
  have hleft := runLeft_orphaned
  rw [hexec] at hleft
  have hkept : runLeft (.next (t.finish namesake (if Config.freeBool orphaned.fresh then 0x0102 else 0x0104) info 0
      (orphaned.runFlags orphanRun) (Config.freeBool (orphaned.fresh + 1)))) 0 = FMap.get? t.runs 0 :=
    congrArg (fun m => FMap.get? m 0) ((Within.finish t namesake _ info 0 _ _).get State.runs (fun _ => rfl))
  rw [hkept, hrun] at hleft
  exact absurd hleft (by decide)

/-- A query of ring 0 with one part on another member. -/
def partedQuery : Query :=
  ⟨⟨0, 0, 0⟩, 0, 0, 0, 0, [], 1, 0, 1, false, none, none, false, 0, none, 0, none, 0, 0, none, 0, none, 0, 0, 0, none,
    true, [], [], none, [], [], 0, false, none, [(0, 1)], 0⟩
/-- An index with a pin that is kept until that query completes (R193). -/
def heldIndex : Index := { bareIndex true with pins := [⟨true, true, false, 2, 0, 0, some [⟨0, 0, 0⟩], []⟩] }
/-- The query, its search and the index. -/
def parted : State :=
  { quiet with
    cmds := [⟨0, 0, [], 0, .search, 0, 0, false, none⟩], fields := [], indexes := [(0, heldIndex)]
    queries := [partedQuery] }

/-- What a step leaves of the pins of index 0 of field 0. -/
def pinsLeft (r : Result) : Option (List Pin) :=
  match r with
  | .next t => (FMap.get? t.indexes 0).map (fun x => x.pins)
  | _ => none

theorem pinsLeft_parted : pinsLeft (exec (.searchPartReply 0 0 0 0 1 [] 0 0) parted) = some [] := by
  decide

/-- Refutes O54: a part that fails ends its search, and with the search's query goes the pin that an index keeps for it. -/
theorem not_cascadeData : ¬ Obligations.CascadeData := by
  intro h
  obtain ⟨-, -, -, hreply⟩ := h
  obtain ⟨-, hfails⟩ := hreply parted 0 0 0 0 [] 0 0 partedQuery (by decide) (by decide) (by decide)
  obtain ⟨t, hexec, -, -, hindexes, -⟩ := hfails 1 (by decide) (by decide) (by decide)
  have hleft := pinsLeft_parted
  have hkept : pinsLeft (.next t) = (FMap.get? t.indexes 0).map (fun x => x.pins) := rfl
  rw [hexec, hkept, hindexes] at hleft
  exact absurd hleft (by decide)

end Sys2Proof.Machine

/-! ### Commands stopped with a status (R118, R652, R661), and GDDR training and retraining (R487 to R494) -/

namespace Sys2Proof.Machine

/-! #### A command that is stopped -/

theorem Within.writeReply (s : State) (c : Cmd) (writes : List (Nat × Bytes)) : Within [.out] s (s.writeReply c writes) :=
  Within.foldl _ _ (fun _ w h => h.trans (Within.hostWrite _ _ w.1 w.2)) (Within.refl _ _)

/-- What a command that is stopped may change before it ends. -/
def released : List Comp := .out :: dropped

theorem endRun_eq (s : State) (id : Nat) (c : Cmd) (status : Nat) (w : Option Nat) (cycles : List Nat) (replyOk recordOk : Bool) :
    ∃ (u : State) (st info : Nat) (fl : Flags), s.endRun id c status w cycles replyOk recordOk = u.finish c st info 0 fl recordOk ∧
      Within [.out, .fields, .cores, .messages, .runs, .streams, .channels] s u := by
  unfold State.endRun
  split
  · exact ⟨s, status, 0, c.flags, rfl, Within.refl _ _⟩
  · next x _ =>
    dsimp only
    refine ⟨_, _, _, _, rfl, Within.then (m := [.fields, .cores, .messages, .runs, .streams, .channels]) ?_
      (Within.releaseRun _ id x) (by decide)⟩
    exact Within.ite ((Within.writeReply _ _ _).mono (by decide)) (Within.refl _ _)

/-- A stopped command lets go of what it held and ends with its record. -/
theorem stopCmd_eq (s : State) (c : Cmd) (status : Nat) (w : Option Nat) : ∃ (u : State) (st info bound : Nat) (fl : Flags) (ok : Bool),
    s.stopCmd c status w = u.finish c st info bound fl ok ∧ Within released s u ∧
      u.cmds.filter (fun d => !d.is c.ring c.seq) = s.cmds.filter (fun d => !d.is c.ring c.seq) := by
  have hfresh (n : Nat) : Within [.fresh] s { s with fresh := n } := rfl
  unfold State.stopCmd
  dsimp only
  split
  · refine ⟨_, _, _, _, _, _, rfl, ((hfresh (s.fresh + 2)).mono (by decide)).then (Within.dropQueries _ _) (by decide), ?_⟩
    rw [(Within.dropQueries _ _).get State.cmds (fun _ => rfl)]
  · next id _ =>
    obtain ⟨u, st, info, fl, hend, hu⟩ := endRun_eq _ id c status w _ _ _
    exact ⟨u, st, info, 0, fl, _, hend, ((hfresh _).mono (by decide)).then hu (by decide),
      by rw [hu.get State.cmds (fun _ => rfl)]⟩
  · exact ⟨_, _, _, _, _, _, rfl, ((hfresh (s.fresh + 2)).mono (by decide)).then (m := [.units]) rfl (by decide), rfl⟩
  · exact ⟨_, _, _, _, _, _, rfl, ((hfresh (s.fresh + 2)).mono (by decide)).then (Within.undo _ _) (by decide),
      filter_cmds_undo _ _⟩

/-- What a stopped command may change. -/
def stoppedComps : List Comp := [.rings, .log, .trace, .counters, .fns] ++ released

theorem Within.stopCmd (s : State) (c : Cmd) (status : Nat) (w : Option Nat) : Within stoppedComps s (s.stopCmd c status w) := by
  obtain ⟨u, st, info, bound, fl, ok, hstop, hu, -⟩ := stopCmd_eq s c status w
  rw [hstop]
  exact (hu.mono (by decide)).then (Within.finish _ _ _ _ _ _ _) (by decide)

theorem cmds_stopCmd (s : State) (c : Cmd) (status : Nat) (w : Option Nat) :
    (s.stopCmd c status w).cmds = s.cmds.filter (fun d => !d.is c.ring c.seq) := by
  obtain ⟨u, st, info, bound, fl, ok, hstop, -, hcmds⟩ := stopCmd_eq s c status w
  rw [hstop, State.finish_cmds, hcmds]

/-- A stopped search holds queries alone. -/
theorem Within.stopCmd_search (s : State) {c : Cmd} (status : Nat) (w : Option Nat) (h : c.work = .search) :
    Within [.out, .rings, .log, .trace, .counters, .fns, .fresh, .cmds, .fields, .indexes, .compactQueue, .queries, .windows, .ledger,
      .cores, .streams, .granary, .badChunks] s (s.stopCmd c status w) := by
  have hfresh : Within [.fresh] s { s with fresh := s.fresh + 2 } := rfl
  unfold State.stopCmd
  rw [h]
  exact ((hfresh.mono (by decide)).then (Within.dropQueries _ _) (by decide)).then (Within.finish _ _ _ _ _ _ _) (by decide)

/-! #### Lists of commands that are stopped -/

/-- The commands of a list stopped one after the other. -/
def State.stopEach (s : State) (l : List Cmd) (status : Cmd → Nat) (w : Option Nat) : State :=
  l.foldl (fun s c => s.stopCmd c (status c) w) s

theorem State.stopCmds_eq (s : State) (p : Cmd → Bool) (status : Nat) :
    s.stopCmds p status = s.stopEach (s.cmds.filter p) (fun _ => status) none := rfl

theorem Within.stopEach (s : State) (l : List Cmd) (status : Cmd → Nat) (w : Option Nat) :
    Within stoppedComps s (s.stopEach l status w) :=
  Within.foldl _ _ (fun _ c h => h.trans (Within.stopCmd _ c (status c) w)) (Within.refl _ _)

theorem Within.stopEach_search (s : State) {l : List Cmd} (status : Cmd → Nat) (w : Option Nat) (h : ∀ c ∈ l, c.work = .search) :
    Within [.out, .rings, .log, .trace, .counters, .fns, .fresh, .cmds, .fields, .indexes, .compactQueue, .queries, .windows, .ledger,
      .cores, .streams, .granary, .badChunks] s (s.stopEach l status w) := by
  induction l generalizing s with
  | nil => exact Within.refl _ _
  | cons c l ih =>
    exact (Within.stopCmd_search s (status c) w (h c List.mem_cons_self)).trans (ih _ (fun d hd => h d (List.mem_cons_of_mem c hd)))

theorem mem_cmds_stopEach {d : Cmd} (l : List Cmd) (s : State) (status : Cmd → Nat) (w : Option Nat) :
    d ∈ (s.stopEach l status w).cmds ↔ d ∈ s.cmds ∧ ∀ c ∈ l, d.is c.ring c.seq = false := by
  unfold State.stopEach
  induction l generalizing s with
  | nil => simp
  | cons c l ih =>
    rw [List.foldl_cons, ih, cmds_stopCmd, List.mem_filter, List.forall_mem_cons, Bool.not_eq_true', and_assoc]

theorem is_eq_true_iff (c : Cmd) (ring : Nat) (seq : BitVec 48) : c.is ring seq = true ↔ c.ring = ring ∧ c.seq = seq := by
  simp [Cmd.is]

theorem is_eq_false_iff (c : Cmd) (ring : Nat) (seq : BitVec 48) : c.is ring seq = false ↔ ¬ (c.ring = ring ∧ c.seq = seq) := by
  rw [← is_eq_true_iff, Bool.not_eq_true]

/-- Of the commands that are left when those that p names have been stopped, none has the ring and number of one of these. -/
theorem mem_cmds_stopCmds (s : State) (p : Cmd → Bool) (status : Nat) (e : Cmd) :
    e ∈ (s.stopCmds p status).cmds ↔ e ∈ s.cmds ∧ ∀ d ∈ s.cmds, p d = true → ¬ (e.ring = d.ring ∧ e.seq = d.seq) := by
  rw [State.stopCmds_eq, mem_cmds_stopEach]
  simp only [List.mem_filter, and_imp, is_eq_false_iff]

/-! #### A unit's new state -/

theorem Within.setUnit (s : State) (ty n : Nat) (u : UnitRec) : Within [.units] s (s.setUnit ty n u) := rfl

theorem unit_congr {s t : State} (h : t.units = s.units) (a b : Nat) : t.unit a b = s.unit a b := by
  rw [State.unit, State.unit, h]

theorem State.unitTo_eq (s : State) (ty n st : Nat) (byDevice : Bool) : ∃ u,
    Tells (s.setUnit ty n { s.unit ty n with state := st }) u ∧ Within [.trace, .counters] u (s.unitTo ty n st byDevice) :=
  ⟨_, tells_logEvent _ _ _ _ _ _, Within.traceRec _ _ _ _ _ _⟩

theorem Within.unitTo (s : State) (ty n st : Nat) (byDevice : Bool) :
    Within [.out, .rings, .fns, .log, .counters, .trace, .units] s (s.unitTo ty n st byDevice) :=
  (((Within.setUnit s ty n _).mono (by decide)).then (Within.logEvent _ _ _ _ _ _) (by decide)).then
    (Within.traceRec _ _ _ _ _ _) (by decide)

theorem units_unitTo (s : State) (ty n st : Nat) (byDevice : Bool) :
    (s.unitTo ty n st byDevice).units = FMap.set s.units (unitKey ty n) { s.unit ty n with state := st } := by
  obtain ⟨u, htells, htrace⟩ := State.unitTo_eq s ty n st byDevice
  rw [htrace.get State.units (fun _ => rfl), htells.units]
  rfl

theorem unit_unitTo (s : State) (ty n st : Nat) (byDevice : Bool) (a b : Nat) :
    (s.unitTo ty n st byDevice).unit a b = if unitKey ty n = unitKey a b then { s.unit ty n with state := st } else s.unit a b := by
  rw [State.unit, units_unitTo, FMap.getD_set]
  rfl

theorem unitState_unitTo (s : State) (ty n st : Nat) (byDevice : Bool) (a b : Nat) :
    (s.unitTo ty n st byDevice).unitState a b = if unitKey ty n = unitKey a b then st else s.unitState a b := by
  rw [State.unitState, unit_unitTo]
  split <;> rfl

theorem ringsKept_unitTo (s : State) (ty n st : Nat) (byDevice : Bool) : s.ringsKept (s.unitTo ty n st byDevice) := by
  obtain ⟨u, htells, htrace⟩ := State.unitTo_eq s ty n st byDevice
  exact (State.ringsKept_of_rings_eq rfl).trans (htells.rings.trans
    (State.ringsKept_of_rings_eq (htrace.get State.rings (fun _ => rfl))))

theorem unitKey_injOn {ty n m : Nat} (h : unitKey ty n = unitKey ty m) : n = m := Nat.add_left_cancel h

/-! #### GDDR training (R487 to R489, Table 9.2) -/

section Trained
variable (l : List Nat) (s : State)

theorem within_foldl_unitTo : Within [.out, .rings, .fns, .log, .counters, .trace, .units] s
    (l.foldl (fun t n => t.unitTo 10 n 4 true) s) :=
  Within.foldl _ _ (fun _ n h => h.trans (Within.unitTo _ 10 n 4 true)) (Within.refl _ _)

theorem ringsKept_foldl_unitTo : s.ringsKept (l.foldl (fun t n => t.unitTo 10 n 4 true) s) := by
  induction l generalizing s with
  | nil => exact State.ringsKept_of_rings_eq rfl
  | cons n l ih => exact (ringsKept_unitTo s 10 n 4 true).trans (ih _)

theorem unitState_foldl_unitTo (n : Nat) : (l.foldl (fun t n => t.unitTo 10 n 4 true) s).unitState 10 n =
    if n ∈ l then 4 else s.unitState 10 n := by
  induction l generalizing s with
  | nil => rfl
  | cons m l ih =>
    rw [List.foldl_cons, ih, unitState_unitTo]
    by_cases hm : n = m
    · subst hm
      simp
    · have hkey : unitKey 10 m ≠ unitKey 10 n := fun h => hm (unitKey_injOn h).symm
      simp [hm, hkey]

end Trained

/-- The last of a rising list is its greatest element. -/
theorem getLast?_of_rising {l : List Nat} (hl : l.Pairwise (· < ·)) {r : Nat} (hr : r ∈ l) (hmax : ∀ x ∈ l, x ≤ r) :
    l.getLast? = some r := by
  obtain ⟨init, last, rfl⟩ : ∃ init last, l = init ++ [last] := ⟨_, _, (List.dropLast_append_getLast (List.ne_nil_of_mem hr)).symm⟩
  rw [List.getLast?_concat]
  have hle := hmax last (by simp)
  rcases List.mem_append.mp hr with h | h
  · have hlt := (List.pairwise_append.mp hl).2.2 r h last (by simp)
    omega
  · rw [List.mem_singleton.mp h]

theorem pairwise_ratesOf (gddr7 : Bool) : (ratesOf gddr7).Pairwise (· < ·) := by
  cases gddr7 <;> simp [ratesOf]

/-- R488: the highest rate that every channel can run is the one that training fixes, and no channel fails at it. -/
theorem trainRate_of_common {x : Straps} {binding : List (Nat × ChannelProbe)} {r : Nat} (hne : binding ≠ [])
    (hr : r ∈ ratesOf x.gddrType) (hcommon : ∀ p ∈ binding, r ∈ p.2.rates)
    (hmax : ∀ r' ∈ ratesOf x.gddrType, (∀ p ∈ binding, r' ∈ p.2.rates) → r' ≤ r) : trainRate x binding = some (r, []) := by
  have hlast : ((ratesOf x.gddrType).filter (fun r => binding.all (fun p => p.2.rates.contains r))).getLast? = some r := by
    refine getLast?_of_rising ((pairwise_ratesOf x.gddrType).filter _) ?_ ?_
    · rw [List.mem_filter]
      exact ⟨hr, by simpa using fun a b hab => hcommon (a, b) hab⟩
    · intro r' hr'
      obtain ⟨hrate, hall⟩ := List.mem_filter.mp hr'
      exact hmax r' hrate (fun p hp => by simpa using List.all_eq_true.mp hall p hp)
  rw [trainRate, if_neg (by simpa using hne)]
  simp only [hlast]

/-- Pairs with a channel that training leaves out. -/
def badPairs (good : Nat → Bool) : List Nat :=
  (List.range 8).filter (fun n => (((List.range 16).filter (fun c => !good c)).map (fun c => c / 2)).contains n)

theorem mem_badPairs {good : Nat → Bool} {n : Nat} (hn : n < 8) :
    n ∈ badPairs good ↔ ¬ (good (2 * n) = true ∧ good (2 * n + 1) = true) := by
  have hpair : (∃ c, c < 16 ∧ good c = false ∧ c / 2 = n) ↔ good (2 * n) = false ∨ good (2 * n + 1) = false := by
    constructor
    · rintro ⟨c, -, hc, rfl⟩
      rcases Nat.mod_two_eq_zero_or_one c with h | h
      · exact .inl (by rwa [show 2 * (c / 2) = c by omega])
      · exact .inr (by rwa [show 2 * (c / 2) + 1 = c by omega])
    · rintro (h | h)
      · exact ⟨_, by omega, h, by omega⟩
      · exact ⟨_, by omega, h, by omega⟩
  rw [not_and_or, Bool.not_eq_true, Bool.not_eq_true, ← hpair]
  simp [badPairs, hn, and_assoc]

/-- Training with a rate that every channel which passes can run. -/
theorem exec_gddrTraining_of_common {s : State} {probes : List ChannelProbe} (hup : s.up = true) (hfw : s.trust.fw ≠ none)
    (hboot : s.trust.bootCode = 1) (hoff : s.board.gddrOn = false) {probe : Nat → ChannelProbe}
    (hprobe : probe = fun ch => probes.getD ch ⟨false, false, 0, false, []⟩) {ref : Option Nat}
    (href : ref = referenceDensity ((List.range 16).map probe)) {r : Nat} {good : Nat → Bool}
    (hgood : good = fun ch => passesStep2 s.glob.straps ref (probe ch)) (hr : r ∈ ratesOf s.glob.straps.gddrType)
    (hsome : ∃ ch, ch < 16 ∧ good ch = true) (hcommon : ∀ ch, ch < 16 → good ch = true → r ∈ (probe ch).rates)
    (hmax : ∀ r' ∈ ratesOf s.glob.straps.gddrType, (∀ ch, ch < 16 → good ch = true → r' ∈ (probe ch).rates) → r' ≤ r) :
    exec (.gddrTraining probes) s = .next ((badPairs good).foldl (fun t n => t.unitTo 10 n 4 true)
      { s.setBoard { s.board with gddrOn := true } with memRate := r, channelMib := channelSize s.glob.straps (ref.getD 0) }) := by
  have href' : referenceDensity (((List.range 16).map (fun c => (c, probe c))).map (fun p => p.2)) = ref := by
    rw [href, List.map_map]
    rfl
  have hmem (ch : Nat) (p : ChannelProbe) : (ch, p) ∈ ((List.range 16).map (fun c => (c, probe c))).filter
      (fun p => passesStep2 s.glob.straps ref p.2) ↔ ch < 16 ∧ probe ch = p ∧ good ch = true := by
    simp only [List.mem_filter, List.mem_map, List.mem_range, Prod.mk.injEq, hgood]
    constructor
    · rintro ⟨⟨c, hc, rfl, rfl⟩, h⟩
      exact ⟨hc, rfl, h⟩
    · rintro ⟨hc, rfl, h⟩
      exact ⟨⟨ch, hc, rfl, rfl⟩, h⟩
  have hrate : trainRate s.glob.straps (((List.range 16).map (fun c => (c, probe c))).filter
      (fun p => passesStep2 s.glob.straps ref p.2)) = some (r, []) := by
    refine trainRate_of_common ?_ hr ?_ (fun r' hr' hall => hmax r' hr' (fun ch hch hg => hall (ch, probe ch) ((hmem _ _).mpr ⟨hch, rfl, hg⟩)))
    · obtain ⟨ch, hch, hg⟩ := hsome
      exact List.ne_nil_of_mem ((hmem ch (probe ch)).mpr ⟨hch, rfl, hg⟩)
    · rintro ⟨ch, p⟩ hp
      obtain ⟨hch, rfl, hg⟩ := (hmem ch p).mp hp
      exact hcommon ch hch hg
  have hout : ((((List.range 16).map (fun c => (c, probe c))).filter
      (fun p : Nat × ChannelProbe => !passesStep2 s.glob.straps ref p.2)).map
        (fun p : Nat × ChannelProbe => p.1) ++ []).map (fun c => c / 2) = ((List.range 16).filter (fun c => !good c)).map (fun c => c / 2) := by
    rw [List.append_nil, List.filter_map, List.map_map, List.map_map, hgood]
    rfl
  have hguard : (!s.up || s.trust.fw.isNone || s.trust.bootCode != 1 || s.board.gddrOn) = false := by
    simp [hup, hboot, hoff, Option.isNone_eq_false_iff, Option.isSome_iff_ne_none.mpr hfw]
  change execGddrTraining probes s = _
  rw [execGddrTraining, hguard]
  simp only [Bool.false_eq_true, if_false, ← hprobe]
  subst hprobe
  simp only [href', hrate, hout]
  rfl

/-! #### Retraining (R493, R494) -/

/-- R493: where a channel starts to retrain, the class C searches that wait on it end. -/
theorem exec_gddrRetrain_of_served {s : State} {ch : Nat} (hch : ch < 16) (hcompleting : s.completing = true)
    (hserves : s.channelServes ch = true) : exec (.gddrRetrain ch) s =
      .next (((s.setChannel ch { s.channel ch with retraining := true }).count 2 (48 + ch) 1).stopCmds
        (fun d => d.stopped.isNone && s.searchesOnChannel ch d) stHW_FAULT) := by
  change execGddrRetrain ch s = _
  rw [execGddrRetrain, if_neg (by omega), hcompleting, hserves]
  rfl

theorem exec_channelGrant_of_retraining {s : State} {ch : Nat} (edc : Nat) (es : List Ecc) (hch : ch < 16)
    (hretraining : (s.channel ch).retraining = true) : exec (.channelGrant ch edc es) s = .next s := by
  have hserves : s.channelServes ch = false := by
    unfold State.channelServes
    simp [hretraining]
  change execChannelGrant ch edc es s = _
  rw [execChannelGrant, if_neg (by omega), hserves]
  rfl

theorem exec_gddrRetrainEnd_of_retraining {s : State} {ch : Nat} (pass : Bool) (hch : ch < 16) (hup : s.up = true)
    (hretraining : (s.channel ch).retraining = true) : exec (.gddrRetrainEnd ch pass) s =
      let t := (s.setChannel ch { s.channel ch with retraining := false }).logEvent evGDDR_RETRAIN 0xFF (if pass then 1 else 3) noUnit
        [BitVec.ofNat 8 ch, if pass then 0 else 1]
      if pass then .next t else .next ((t.failPair (ch / 2)).count 0 7 1) := by
  change execGddrRetrainEnd ch pass s = _
  rw [execGddrRetrainEnd, if_neg (by omega), hup, hretraining]
  rfl

theorem Within.logPairOf (s : State) (pair f : Nat) : Within [.out, .rings, .log, .counters, .fns] s (s.logPairOf pair f) := by
  unfold State.logPairOf
  with_reducible repeat' first
    | exact Within.refl _ _ | assumption | refine Within.then ?_ (Within.logEvent _ _ _ _ _ _) ?_
    | refine Within.foldl _ _ (fun _ _ _ => ?_) ?_ | split | dsimp only | decide

theorem Within.loseChecks (s : State) (pair f : Nat) : Within [.badChunks] s (s.loseChecks pair f) := by
  unfold State.loseChecks
  with_reducible repeat' first
    | exact Within.refl _ _ | split | dsimp only | with_unfolding_all exact rfl

/-- R494: what the failure of a pair changes besides its unit. -/
theorem failPair_eq (s : State) (pair : Nat) : ∃ u,
    u = (s.setUnit 10 pair { s.unit 10 pair with entering := false, leaving := false }).unitTo 10 pair 4 true ∧
    Within [.out, .rings, .log, .counters, .fns, .badChunks] u (s.failPair pair) :=
  ⟨_, rfl, Within.foldl _ _ (fun _ f h => h.then (Within.loseChecks _ pair f) (by decide))
    (Within.foldl _ _ (fun _ f h => h.then (Within.logPairOf _ pair f) (by decide)) (Within.refl _ _))⟩

theorem Within.failPair (s : State) (pair : Nat) :
    Within [.out, .rings, .fns, .log, .counters, .trace, .units, .badChunks] s (s.failPair pair) := by
  obtain ⟨u, hu, hfail⟩ := failPair_eq s pair
  refine Within.then ?_ hfail (by decide)
  rw [hu]
  exact ((Within.setUnit s 10 pair _).mono (by decide)).then (Within.unitTo _ _ _ _ _) (by decide)

theorem unitState_failPair (s : State) (pair : Nat) : (s.failPair pair).unitState 10 pair = 4 := by
  obtain ⟨u, hu, hfail⟩ := failPair_eq s pair
  rw [State.unitState, unit_congr (hfail.get State.units (fun _ => rfl)), hu, unit_unitTo, if_pos rfl]

/-- Settles O24: training marks the pairs with a channel that fails; the searches that retraining ends hold queries alone, and a
failed pair is a unit's change. -/
theorem gddrTrainingAndRetraining : Obligations.GddrTrainingAndRetraining := by
  unfold Obligations.GddrTrainingAndRetraining
  refine ⟨?training, ⟨?retrain, fun s ch edc es hch h => exec_channelGrant_of_retraining edc es hch h⟩, ?ended⟩
  case training =>
    intro s probes hup hfw hboot hoff probe x ref good r hr hsome hcommon hmax
    refine ⟨_, exec_gddrTraining_of_common hup hfw hboot hoff rfl rfl rfl hr hsome hcommon hmax, ?_⟩
    obtain ⟨u, hu⟩ : ∃ u, u = { s.setBoard { s.board with gddrOn := true } with
      memRate := r, channelMib := channelSize s.glob.straps (ref.getD 0) } := ⟨_, rfl⟩
    have hwithin := within_foldl_unitTo (badPairs good) u
    have hrings := ringsKept_foldl_unitTo (badPairs good) u
    have hunit := unitState_foldl_unitTo (badPairs good) u
    rw [← hu]
    refine ⟨?_, ?_, ?_, fun n hn => ?_, ?_, ?_, ?_⟩
    · exact (hwithin.get State.board (fun _ => rfl)).trans (by rw [hu]; rfl)
    · exact (hwithin.get State.memRate (fun _ => rfl)).trans (by rw [hu])
    · exact (hwithin.get State.channelMib (fun _ => rfl)).trans (by rw [hu])
    · rw [hunit, show u.unitState 10 n = s.unitState 10 n by rw [hu]; rfl]
      by_cases hbad : n ∈ badPairs good
      · rw [if_pos hbad, if_neg ((mem_badPairs hn).mp hbad)]
      · rw [if_neg hbad, if_pos (not_not.mp (fun h => hbad ((mem_badPairs hn).mpr h)))]
    · exact (hwithin.get State.trust (fun _ => rfl)).trans (by rw [hu]; rfl)
    · exact (State.ringsKept_of_rings_eq (by rw [hu]; rfl)).trans hrings
    · exact (hwithin.get State.fields (fun _ => rfl)).trans (by rw [hu]; rfl)
  case retrain =>
    intro s ch hch hcompleting hserves
    have hmem := mem_cmds_stopCmds ((s.setChannel ch { s.channel ch with retraining := true }).count 2 (48 + ch) 1)
      (fun d => d.stopped.isNone && s.searchesOnChannel ch d) stHW_FAULT
    have hwithin := Within.stopEach_search ((s.setChannel ch { s.channel ch with retraining := true }).count 2 (48 + ch) 1)
      (l := s.cmds.filter (fun d => d.stopped.isNone && s.searchesOnChannel ch d)) (fun _ => stHW_FAULT) none (fun c hc => by
        have hwaits := (List.mem_filter.mp hc).2
        simp only [State.searchesOnChannel, Bool.and_eq_true, beq_iff_eq] at hwaits
        exact hwaits.2.1.1)
    refine ⟨_, exec_gddrRetrain_of_served hch hcompleting hserves, ?_, fun d hd hstopped hon e he => ?_, fun e he h => ?_, ?_, ?_⟩
    · have hchannels := hwithin.get State.channels (fun _ => rfl)
      rw [State.channel]
      exact (congrArg (fun m => (FMap.getD m ch Channel.reset).retraining) hchannels).trans
        (congrArg Channel.retraining (FMap.getD_set_self _ _ _ _))
    · exact ((hmem e).mp he).2 d hd (by simp [hstopped, hon])
    · refine (hmem e).mpr ⟨he, fun d hd hp => ?_⟩
      obtain ⟨hstopped, hon⟩ := Bool.and_eq_true_iff.mp hp
      exact h d hd (Option.isNone_iff_eq_none.mp hstopped) hon
    · exact hwithin.get State.trust (fun _ => rfl)
    · exact hwithin.get State.tbk (fun _ => rfl)
  case ended =>
    intro s ch hch hup hretraining
    have htells (pass : Bool) := tells_logEvent (s.setChannel ch { s.channel ch with retraining := false }) evGDDR_RETRAIN 0xFF
      (if pass then 1 else 3) noUnit [BitVec.ofNat 8 ch, if pass then 0 else 1]
    constructor
    · obtain ⟨e, rest, hlog, hcode⟩ := State.logEvent_newest (s.setChannel ch { s.channel ch with retraining := false }) evGDDR_RETRAIN
        0xFF 1 noUnit [BitVec.ofNat 8 ch, 0]
      have hfinal := exec_gddrRetrainEnd_of_retraining true hch hup hretraining
      refine ⟨_, _, _, _, _, _, hfinal, (State.ringsKept_of_rings_eq rfl).trans (htells true).rings, (htells true).frame, e, rest, hlog, ?_⟩
      exact hcode.1
    · have hfail := Within.failPair ((s.setChannel ch { s.channel ch with retraining := false }).logEvent evGDDR_RETRAIN 0xFF 3 noUnit
        [BitVec.ofNat 8 ch, 1]) (ch / 2)
      refine ⟨_, exec_gddrRetrainEnd_of_retraining false hch hup hretraining, ?_, unitState_failPair _ _, ?_, ?_, ?_, ?_⟩
      · have hchannels := (hfail.get State.channels (fun _ => rfl)).trans (htells false).channels
        exact (congrArg (fun m => (FMap.getD m ch Channel.reset).retraining) hchannels).trans
          (congrArg Channel.retraining (FMap.getD_set_self _ _ _ _))
      · exact (hfail.get State.cmds (fun _ => rfl)).trans (htells false).cmds
      · exact (hfail.get State.indexes (fun _ => rfl)).trans (htells false).indexes
      · exact (hfail.get State.granary (fun _ => rfl)).trans ((Within.logEvent _ _ _ _ _ _).get State.granary (fun _ => rfl))
      · exact (hfail.get State.tbk (fun _ => rfl)).trans (htells false).tbk

end Sys2Proof.Machine

/-! ### Units: their status, their drains and their tests (Table 3.7; R201 to R206, R217, R218, R650 to R659) -/

namespace Sys2Proof.Machine

/-! #### The offsets of Table 3.7 -/

theorem lt_of_lt_unitCount {ty n : Nat} (h : n < unitCount ty) : ty < 13 := by
  by_contra hty
  obtain ⟨k, rfl⟩ := Nat.exists_eq_add_of_le' (Nat.le_of_not_lt hty)
  have hnone : unitCount (k + 13) = 0 := rfl
  omega

theorem unitCount_le (ty : Nat) : unitCount ty ≤ 128 := by
  unfold unitCount
  split <;> decide

theorem unitOffset_rising : ∀ a < 13, ∀ b < 13, a < b → unitOffset a + unitCount a ≤ unitOffset b := by decide

theorem unitOffset_add_lt {ty n : Nat} (h : n < unitCount ty) : unitOffset ty + n < 512 := by
  have hlast : ∀ a < 13, unitOffset a + unitCount a ≤ 512 := by decide
  have := hlast ty (lt_of_lt_unitCount h)
  omega

theorem unitOffset_injOn {ty n a m : Nat} (hn : n < unitCount ty) (hm : m < unitCount a)
    (h : unitOffset ty + n = unitOffset a + m) : ty = a ∧ n = m := by
  have hty := lt_of_lt_unitCount hn
  have ha := lt_of_lt_unitCount hm
  rcases Nat.lt_trichotomy ty a with hlt | rfl | hlt
  · have := unitOffset_rising ty hty a ha hlt
    omega
  · exact ⟨rfl, by omega⟩
  · have := unitOffset_rising a ha ty hty hlt
    omega

/-- Each offset of UNIT_STATUS names the one unit that Table 3.7 puts there. -/
theorem unitAt_eq_some_iff (o ty n : Nat) : unitAt o = some (ty, n) ↔ n < unitCount ty ∧ o = unitOffset ty + n := by
  have hfound (t : Nat) (h : (List.range 13).find? (fun t => unitOffset t ≤ o && o < unitOffset t + unitCount t) = some t) :
      unitOffset t ≤ o ∧ o < unitOffset t + unitCount t := by
    simpa using List.find?_some h
  unfold unitAt
  rw [Option.map_eq_some_iff]
  constructor
  · rintro ⟨t, ht, hpair⟩
    obtain ⟨rfl, rfl⟩ := Prod.mk.inj hpair
    obtain ⟨hle, hlt⟩ := hfound t ht
    omega
  · rintro ⟨hn, rfl⟩
    cases h : (List.range 13).find? (fun t => unitOffset t ≤ unitOffset ty + n && unitOffset ty + n < unitOffset t + unitCount t) with
    | none =>
      have hno := List.find?_eq_none.mp h ty (List.mem_range.mpr (lt_of_lt_unitCount hn))
      simp at hno
      omega
    | some t =>
      obtain ⟨hle, hlt⟩ := hfound t h
      obtain ⟨rfl, -⟩ := unitOffset_injOn hn (m := unitOffset ty + n - unitOffset t) (a := t) (by omega) (by omega)
      exact ⟨ty, rfl, by rw [Nat.add_sub_cancel_left]⟩

theorem length_unitBytes (value : Nat → Nat → Nat) (unassigned : Nat) : (unitBytes value unassigned).length = 512 := by
  rw [unitBytes, List.length_map, List.length_range]

theorem getD_unitBytes (value : Nat → Nat → Nat) (unassigned : Nat) {o : Nat} (ho : o < 512) (x : Byte) :
    (unitBytes value unassigned).getD o x = match unitAt o with
      | none => BitVec.ofNat 8 unassigned
      | some (t, n) => BitVec.ofNat 8 (value t n) := by
  rw [unitBytes, List.getD_eq_getElem?_getD, List.getElem?_map, List.getElem?_range ho]
  rfl

theorem getD_unitBytes_unit (value : Nat → Nat → Nat) (unassigned : Nat) {ty n : Nat} (h : n < unitCount ty) (x : Byte) :
    (unitBytes value unassigned).getD (unitOffset ty + n) x = BitVec.ofNat 8 (value ty n) := by
  rw [getD_unitBytes _ _ (unitOffset_add_lt h), (unitAt_eq_some_iff _ ty n).mpr ⟨h, rfl⟩]

theorem getD_unitBytes_unassigned (value : Nat → Nat → Nat) (unassigned : Nat) {o : Nat} (ho : o < 512) (x : Byte)
    (h : ∀ ty n, n < unitCount ty → o ≠ unitOffset ty + n) : (unitBytes value unassigned).getD o x = BitVec.ofNat 8 unassigned := by
  have hnone : unitAt o = none := by
    rw [Option.eq_none_iff_forall_ne_some]
    rintro ⟨ty, n⟩ hat
    obtain ⟨hn, ho⟩ := (unitAt_eq_some_iff o ty n).mp hat
    exact h ty n hn ho
  rw [getD_unitBytes _ _ ho, hnone]

/-- Units of Table 3.7 have different keys. -/
theorem unitKey_eq_iff {ty n a m : Nat} (hn : n < unitCount ty) (hm : m < unitCount a) :
    unitKey ty n = unitKey a m ↔ ty = a ∧ n = m := by
  have hn' := lt_of_lt_of_le hn (unitCount_le ty)
  have hm' := lt_of_lt_of_le hm (unitCount_le a)
  unfold unitKey
  omega

/-! #### UNIT_STATUS and UNIT_FALLOW -/

section Fallow
variable {s : State} {ring : Nat} {dma : Dma} {c : Cmd}

theorem exec_unitStatus_of_admits (h : s.admits 0x42 ring dma c = true) (haddr : num c.pkt 24 8 % 64 = 0)
    (hlen : 512 ≤ num c.pkt 32 4) :
    exec (.unitStatus ring dma) s = ended s s c dma 0 [(num c.pkt 24 8, unitBytes s.unitState 5)] := by
  change execUnitStatus ring dma s = _
  exact (State.runPacket_of_passes (o := opAF 0x42) rfl rfl h rfl (replyChecks_pass haddr hlen)).trans rfl

theorem exec_unitFallow_of_admits (h : s.admits 0x40 ring dma c = true) {ty n : Nat} (hty : num c.pkt 16 1 = ty)
    (hn : num c.pkt 18 2 = n) (hunit : n < unitCount ty) (hleads : ty = 12 → s.leads = true) (hstate : s.unitState ty n = 0)
    (hhash : ty = 10 → s.fields.any (fun f => f.2.cfg.mapHash || f.2.tgt.mapHash) = false) (hroom : s.fallowRoom ty n = true) :
    exec (.unitFallow ring dma) s =
      let t := s.startDrain ty n (flag c.pkt 17 0) false
      let r := if flag c.pkt 17 0 then t.forceOut ty n else (t, 0)
      outstanding s r.1 c dma (.fallow (unitKey ty n) 0 r.2) := by
  change execUnitFallow ring dma s = _
  subst hty hn
  refine (State.runPacket_of_passes (o := opA 0x40 .none) rfl rfl h rfl ?_).trans rfl
  change ∀ x ∈ [(decide (unitCount (num c.pkt 16 1) ≤ num c.pkt 18 2), stBAD_VALUE), (num c.pkt 16 1 == 12 && !s.leads, stMODE_FORBIDS),
    (s.unitState (num c.pkt 16 1) (num c.pkt 18 2) != 0, stBAD_STATE),
    (num c.pkt 16 1 == 10 && s.fields.any (fun f => f.2.cfg.mapHash || f.2.tgt.mapHash), stMODE_FORBIDS),
    (!s.fallowRoom (num c.pkt 16 1) (num c.pkt 18 2), stNO_CAPACITY)], x.1 = false
  simp only [List.forall_mem_cons, List.not_mem_nil, false_implies, implies_true, and_true]
  refine ⟨by simpa using hunit, ?_, by simp [hstate], ?_, by simp [hroom]⟩
  · rw [Bool.and_eq_false_imp, beq_iff_eq]
    exact fun h => by rw [hleads h]; rfl
  · rw [Bool.and_eq_false_imp, beq_iff_eq]
    exact hhash

end Fallow

section Drain
variable (s : State) (ty n : Nat) (force byDevice : Bool)

theorem unit_startDrain : (s.startDrain ty n force byDevice).unit ty n =
    { s.unit ty n with state := 1, force := force, byDevice := byDevice, leaving := true, entering := false } := by
  unfold State.startDrain
  dsimp only
  rw [State.unit_setUnit, if_pos rfl, unit_unitTo, if_pos rfl]

theorem Within.startDrain : Within [.out, .rings, .fns, .log, .counters, .trace, .units] s (s.startDrain ty n force byDevice) :=
  (Within.unitTo s ty n 1 byDevice).then (Within.setUnit _ _ _ _) (by decide)

theorem ringsKept_startDrain : s.ringsKept (s.startDrain ty n force byDevice) :=
  (ringsKept_unitTo s ty n 1 byDevice).trans (State.ringsKept_of_rings_eq rfl)

/-- The start of a drain takes no work from the unit. -/
theorem usersOf_startDrain (a b : Nat) : (s.startDrain ty n force byDevice).usersOf a b = s.usersOf a b :=
  (Within.startDrain s ty n force byDevice).get (fun u => u.usersOf a b) (fun _ => rfl)

end Drain

/-- R652: what force takes from a unit whose work belongs to commands. -/
theorem forceOut_of_commands (s : State) {ty n : Nat} (h7 : ty ≠ 7) (h9 : ty ≠ 9) (h10 : ty ≠ 10) :
    (s.forceOut ty n).2 = (s.usersOf ty n).length ∧ ∃ w, (s.forceOut ty n).1.cmds =
      (s.stopEach (s.usersOf ty n) (fun _ => stUNIT_WITHDRAWN) w).cmds := by
  unfold State.forceOut
  split
  · exact absurd rfl h7
  · exact absurd rfl h9
  · exact absurd rfl h10
  · exact ⟨rfl, none, rfl⟩
  · exact ⟨rfl, _, rfl⟩

theorem Within.dropReader (s : State) (r : Reader) :
    Within [.streams] s (s.dropReader r) := rfl

theorem Within.enqueueLists (s : State) (key e0 : Nat) (ls : List Nat) :
    Within [.compactQueue] s (s.enqueueLists key e0 ls) := rfl

theorem abortCompaction_eq (s : State) (n : Nat) : ∃ u, u.evaporators = FMap.erase s.evaporators n ∧ u.cmds = s.cmds ∧
    u.units = s.units ∧ (s.abortCompaction n = s ∧ FMap.get? s.evaporators n = none ∨
      Within [.fields, .compactQueue, .cores, .granary, .badChunks] u (s.abortCompaction n)) := by
  unfold State.abortCompaction
  cases he : FMap.get? s.evaporators n with
  | none => exact ⟨{ s with evaporators := FMap.erase s.evaporators n }, rfl, rfl, rfl, .inl ⟨rfl, rfl⟩⟩
  | some e =>
    exact ⟨{ s.dropReader (.evaporator n) with evaporators := FMap.erase s.evaporators n }, rfl, rfl, rfl,
      .inr (((Within.enqueueLists _ e.key e.e0 [e.list]).mono (by decide)).then (Within.releasePages _ (e.key / 64)) (by decide))⟩

theorem abortCompaction_keeps (s : State) (n : Nat) : (s.abortCompaction n).cmds = s.cmds ∧
    (s.abortCompaction n).units = s.units ∧
    (FMap.get? (s.abortCompaction n).evaporators n = none ∨ FMap.get? s.evaporators n = none) := by
  obtain ⟨u, hev, hcmds, hunits, ⟨hsame, hnone⟩ | hwithin⟩ := abortCompaction_eq s n
  · rw [hsame]
    exact ⟨rfl, rfl, .inr hnone⟩
  · exact ⟨(hwithin.get State.cmds (fun _ => rfl)).trans hcmds, (hwithin.get State.units (fun _ => rfl)).trans hunits,
      .inl (by rw [hwithin.get State.evaporators (fun _ => rfl), hev, FMap.get?_erase, if_pos rfl])⟩

/-- R652: force takes no command where the unit's work belongs to none. -/
theorem forceOut_of_own_work (s : State) {ty : Nat} (n : Nat) (h : ty = 7 ∨ ty = 9 ∨ ty = 10) : (s.forceOut ty n).2 = 0 ∧
    (s.forceOut ty n).1.cmds = s.cmds ∧ (s.forceOut ty n).1.units = s.units ∧
    (ty = 7 → FMap.get? (s.forceOut ty n).1.evaporators n = none ∨ FMap.get? s.evaporators n = none) := by
  rcases h with rfl | rfl | rfl
  · obtain ⟨hcmds, hunits, hev⟩ := abortCompaction_keeps s n
    exact ⟨rfl, hcmds, hunits, fun _ => hev⟩
  · exact ⟨rfl, rfl, rfl, fun h => absurd h (by decide)⟩
  · exact ⟨rfl, rfl, rfl, fun h => absurd h (by decide)⟩

/-! #### The end of a drain -/

theorem Within.writeBack (s : State) (l : Line) :
    Within [.channels] s (s.writeBack l) := by
  unfold State.writeBack
  with_reducible repeat' first
    | exact Within.refl _ _ | assumption | refine Within.then ?_ (Within.setChannel _ _ _) ?_ | split | dsimp only
    | decide

theorem Within.applyPend (s : State) (l : Line) :
    Within [.fields] s (s.applyPend l) := by
  unfold State.applyPend
  with_reducible repeat' first
    | exact Within.refl _ _ | assumption | refine Within.then ?_ (Within.modField _ _ _) ?_ | split | dsimp only
    | decide

theorem Within.overfetch (s : State) (l : Line) :
    Within [.fields] s (s.overfetch l) := by
  unfold State.overfetch
  with_reducible repeat' first
    | exact Within.refl _ _ | assumption | refine Within.then ?_ (Within.modField _ _ _) ?_ | split | dsimp only
    | decide

/-- The lines leave a slice that retires them, and nothing else of the Granary. -/
theorem retire_eq (s : State) (back : Bool) (p : Line → Bool) : Within [.fields, .cores, .channels, .granary] s (s.retire back p) ∧
    (s.retire back p).granary = s.granary.filter (fun l => !p l) := by
  have hout : Within [.fields, .channels] s ((s.granary.filter p).foldl
      (fun t l => ((if back then t.writeBack l else t).applyPend l).overfetch l) s) :=
    Within.foldl _ _ (fun t l h => (((Within.ite (h.then (Within.writeBack t l) (by decide)) h).then (Within.applyPend _ l)
      (by decide)).then (Within.overfetch _ l) (by decide))) (Within.refl _ _)
  exact ⟨(hout.mono (by decide)).then (Within.withLines _ _) (by decide),
    congrArg (fun g => g.filter (fun l => !p l)) (hout.get State.granary (fun _ => rfl))⟩

/-- R541, R651: what a unit but a port or a member leaves as it goes out of service. -/
theorem leaveService_eq (s : State) {ty n : Nat} (h11 : ty ≠ 11) (h12 : ty ≠ 12) : ∃ u, u = s.unitTo ty n 2 (s.unit ty n).byDevice ∧
    (ty ≠ 9 → s.leaveService ty n = u) ∧ (ty = 9 → s.leaveService ty n = u.retire true (fun l => l.slice == n)) := by
  refine ⟨_, rfl, fun h9 => ?_, fun h9 => ?_⟩
  · unfold State.leaveService
    dsimp only
    split
    · exact absurd rfl h9
    · exact absurd rfl h11
    · exact absurd rfl h12
    · rfl
  · subst h9
    rfl

theorem Within.leaveService (s : State) {ty n : Nat} (h11 : ty ≠ 11) (h12 : ty ≠ 12) :
    Within [.out, .rings, .fns, .log, .counters, .trace, .units, .fields, .cores, .channels, .granary] s (s.leaveService ty n) := by
  obtain ⟨u, hu, hother, hslice⟩ := leaveService_eq s (n := n) h11 h12
  have hto : Within [.out, .rings, .fns, .log, .counters, .trace, .units, .fields, .cores, .channels, .granary] s u := by
    rw [hu]
    exact (Within.unitTo _ _ _ _ _).mono (by decide)
  by_cases h9 : ty = 9
  · rw [hslice h9]
    exact hto.then (retire_eq u true _).1 (by decide)
  · rw [hother h9]
    exact hto

theorem units_leaveService (s : State) {ty n : Nat} (h11 : ty ≠ 11) (h12 : ty ≠ 12) :
    (s.leaveService ty n).units = (s.unitTo ty n 2 (s.unit ty n).byDevice).units := by
  obtain ⟨u, hu, hother, hslice⟩ := leaveService_eq s (n := n) h11 h12
  rw [← hu]
  by_cases h9 : ty = 9
  · rw [hslice h9]
    exact (retire_eq u true _).1.get State.units (fun _ => rfl)
  · rw [hother h9]

theorem granary_leaveService (s : State) {ty n : Nat} (h11 : ty ≠ 11) (h12 : ty ≠ 12) :
    (s.leaveService ty n).granary = if ty = 9 then s.granary.filter (fun l => !(l.slice == n)) else s.granary := by
  obtain ⟨u, hu, hother, hslice⟩ := leaveService_eq s (n := n) h11 h12
  have hgranary : u.granary = s.granary := by
    rw [hu]
    exact (Within.unitTo _ _ _ _ _).get State.granary (fun _ => rfl)
  by_cases h9 : ty = 9
  · rw [hslice h9, (retire_eq u true _).2, hgranary, if_pos h9]
  · rw [hother h9, hgranary, if_neg h9]

theorem exec_fallowDrainEnd_of_drained {s : State} {ty n : Nat} (ok : Bool) {c : Cmd} {m a : Nat} (hn : n < unitCount ty)
    (h11 : ty ≠ 11) (h12 : ty ≠ 12) (hcompleting : s.completing = true) (hstate : s.unitState ty n = 1)
    (hleaving : (s.unit ty n).leaving = false) (hforce : (s.unit ty n).force = false) (hdrained : s.drained ty n = true)
    (hdrainedC : s.drainedC ty n = true) (hcmd : s.fallowCmd ty n = some (c, m, a)) :
    exec (.fallowDrainEnd ty n ok) s = .next ((s.leaveService ty n).finish c 0 (info2 a m) 0 c.flags ok) := by
  have hcmd' : (s.leaveService ty n).fallowCmd ty n = some (c, m, a) :=
    ((Within.leaveService s h11 h12).get (fun u => u.fallowCmd ty n) (fun _ => rfl)).trans hcmd
  have hguard : (!s.completing || (s.unit ty n).state != 1 || (s.unit ty n).leaving) = false := by
    rw [hcompleting, show (s.unit ty n).state = 1 from hstate, hleaving]
    rfl
  change execFallowDrainEnd ty n ok s = _
  rw [execFallowDrainEnd, if_neg (by omega)]
  simp only [hguard, hforce, Bool.false_eq_true, if_false, State.endDrain, hdrained, hdrainedC, hcmd', if_true, Nat.add_zero]

/-- Settles O19: the drain's start is a unit's change, force stops the users, and the drain's end takes the unit out of service. -/
theorem unitsFallow : Obligations.UnitsFallow := by
  unfold Obligations.UnitsFallow
  refine ⟨?status, ?fallow, ?drained⟩
  case status =>
    intro s ring dma c h haddr hlen
    exact ⟨_, exec_unitStatus_of_admits h haddr hlen, length_unitBytes _ _, fun ty n hn => getD_unitBytes_unit _ _ hn _,
      fun o ho hno => getD_unitBytes_unassigned _ _ ho _ hno⟩
  case fallow =>
    intro s ring dma c h ty n hn hleads hstate hhash hroom
    have hexec := exec_unitFallow_of_admits h rfl rfl hn hleads hstate hhash hroom
    have hunit := unit_startDrain s ty n (flag c.pkt 17 0) false
    have hwithin := Within.startDrain s ty n (flag c.pkt 17 0) false
    have hrings := ringsKept_startDrain s ty n (flag c.pkt 17 0) false
    have husers := usersOf_startDrain s ty n (flag c.pkt 17 0) false ty n
    refine ⟨fun hforce => ?_, fun hforce h7 h9 h10 => ?_, fun hforce hown => ?_⟩
    · rw [hforce] at hexec hunit hwithin hrings
      exact ⟨s.startDrain ty n false false, hexec, by rw [State.unitState, hunit], by rw [hunit], by rw [hunit],
        hwithin.get State.cmds (fun _ => rfl), hwithin.get State.queries (fun _ => rfl), hwithin.get State.runs (fun _ => rfl),
        hwithin.get State.fields (fun _ => rfl), hwithin.get State.indexes (fun _ => rfl), hrings,
        hwithin.get State.ports (fun _ => rfl), hwithin.get State.granary (fun _ => rfl), hwithin.get State.tbk (fun _ => rfl)⟩
    · rw [hforce] at hexec husers
      obtain ⟨hcount, w, hcmds⟩ := forceOut_of_commands (s.startDrain ty n true false) (n := n) h7 h9 h10
      refine ⟨((s.startDrain ty n true false).forceOut ty n).1, ?_, fun d hd e he => ?_⟩
      · rw [← husers, ← hcount]
        exact hexec
      · rw [hcmds, mem_cmds_stopEach, husers] at he
        exact (is_eq_false_iff _ _ _).mp (he.2 d hd)
    · rw [hforce] at hexec hunit hwithin
      obtain ⟨hcount, hcmds, hunits, hev⟩ := forceOut_of_own_work (s.startDrain ty n true false) n hown
      refine ⟨((s.startDrain ty n true false).forceOut ty n).1, hexec.trans ?_, ?_, ?_, fun h7 => ?_⟩
      · change outstanding s ((s.startDrain ty n true false).forceOut ty n).1 c dma
          (.fallow (unitKey ty n) 0 ((s.startDrain ty n true false).forceOut ty n).2) = _
        rw [hcount]
      · rw [State.unitState, unit_congr hunits, hunit]
      · exact hcmds.trans (hwithin.get State.cmds (fun _ => rfl))
      · rw [← hwithin.get State.evaporators (fun _ => rfl)]
        exact hev h7
  case drained =>
    intro s ty n ok c m a hn h11 h12 hcompleting hstate hleaving hforce hdrained hdrainedC hcmd
    have hwithin := Within.leaveService s (n := n) h11 h12
    have hgranary := granary_leaveService s (n := n) h11 h12
    have hunit : (s.leaveService ty n).unitState ty n = 2 := by
      rw [State.unitState, unit_congr (units_leaveService s h11 h12), unit_unitTo, if_pos rfl]
    refine ⟨_, exec_fallowDrainEnd_of_drained ok hn h11 h12 hcompleting hstate hleaving hforce hdrained hdrainedC hcmd, hunit, ?_,
      hwithin.get State.cmds (fun _ => rfl), fun h9 l hl => ?_, fun h9 => ?_, hwithin.get State.indexes (fun _ => rfl),
      hwithin.get State.tbk (fun _ => rfl)⟩
    · rw [State.unitState, unit_congr ((Within.finish _ _ _ _ _ _ _).get State.units (fun _ => rfl))]
      exact hunit
    · rw [hgranary, if_pos h9] at hl
      simpa using (List.mem_filter.mp hl).2
    · rw [hgranary, if_neg h9]

end Sys2Proof.Machine

/-! ### UNIT_TILL, its self-test and SELF_TEST (R202, R206, R217, R218, R655 to R659) -/

namespace Sys2Proof.Machine

/-! #### UNIT_TILL -/

section Till
variable {s : State} {ring : Nat} {dma : Dma} {c : Cmd}

/-- The unit's record as its test starts. -/
def State.tilled (s : State) (ty n : Nat) : State :=
  (s.setUnit ty n { s.unit ty n with before := s.unitState ty n, entering := false, leaving := false, force := false }).unitTo ty n 3
    false

theorem exec_unitTill_of_admits (h : s.admits 0x41 ring dma c = true) {ty n : Nat} (hty : num c.pkt 16 1 = ty)
    (hn : num c.pkt 18 2 = n) (hunit : n < unitCount ty) (hleads : ty = 12 → s.leads = true)
    (hstate : s.unitState ty n = 2 ∨ s.unitState ty n = 4) :
    exec (.unitTill ring dma) s = outstanding s (s.tilled ty n) c dma (.till (unitKey ty n)) := by
  subst hty hn
  change execUnitTill ring dma s = _
  refine (State.runPacket_of_passes (o := opA 0x41 .none) rfl rfl h rfl ?_).trans rfl
  change ∀ x ∈ [(decide (unitCount (num c.pkt 16 1) ≤ num c.pkt 18 2), stBAD_VALUE), (num c.pkt 16 1 == 12 && !s.leads, stMODE_FORBIDS),
    (s.unitState (num c.pkt 16 1) (num c.pkt 18 2) != 2 && s.unitState (num c.pkt 16 1) (num c.pkt 18 2) != 4, stBAD_STATE)], x.1 = false
  simp only [List.forall_mem_cons, List.not_mem_nil, false_implies, implies_true, and_true]
  refine ⟨by simpa using hunit, ?_, ?_⟩
  · rw [Bool.and_eq_false_imp, beq_iff_eq]
    exact fun h => by rw [hleads h]; rfl
  · rcases hstate with h | h <;> rw [h] <;> rfl

theorem unit_tilled (ty n : Nat) : (s.tilled ty n).unit ty n =
    { s.unit ty n with state := 3, before := s.unitState ty n, entering := false, leaving := false, force := false } := by
  rw [State.tilled, unit_unitTo, if_pos rfl, State.unit_setUnit, if_pos rfl]

theorem Within.tilled (ty n : Nat) : Within [.out, .rings, .fns, .log, .counters, .trace, .units] s (s.tilled ty n) :=
  ((Within.setUnit s ty n _).mono (by decide)).then (Within.unitTo _ _ _ _ _) (by decide)

theorem ringsKept_tilled (ty n : Nat) : s.ringsKept (s.tilled ty n) :=
  (State.ringsKept_of_rings_eq rfl).trans (ringsKept_unitTo _ ty n 3 false)

end Till

/-! #### The end of a unit's test -/

theorem tells_logTest (s : State) (ty n : Nat) (pass : Bool) : Tells s (s.logTest ty n pass) := tells_logEvent _ _ _ _ _ _

/-- The state as the test of a unit is logged; the test of a cascade member is not (R597). -/
def State.testLogged (s : State) (ty n : Nat) (pass : Bool) : State := if ty = 12 then s else s.logTest ty n pass

theorem tells_testLogged (s : State) (ty n : Nat) (pass : Bool) : Tells s (s.testLogged ty n pass) := by
  unfold State.testLogged
  split
  · exact Tells.refl s
  · exact tells_logTest s ty n pass

/-- The state as a unit that has passed its test waits for the planner epoch (R655). -/
def State.testPassed (s : State) (ty n : Nat) : State :=
  let t := s.setUnit ty n { s.unit ty n with entering := true }
  if ty = 12 then { t with indexes := FMap.mapVals t.indexes (fun _ x => x.rejoin n) } else t

theorem Within.testPassed (s : State) (ty n : Nat) : Within [.units, .indexes] s (s.testPassed ty n) :=
  Within.ite rfl rfl

theorem unit_testPassed (s : State) (ty n : Nat) : (s.testPassed ty n).unit ty n = { s.unit ty n with entering := true } := by
  unfold State.testPassed
  dsimp only
  split <;> exact (State.unit_setUnit s ty n ty n _).trans (if_pos rfl)

theorem indexes_testPassed (s : State) {ty : Nat} (n : Nat) (h : ty ≠ 12) : (s.testPassed ty n).indexes = s.indexes := by
  rw [State.testPassed, if_neg h]
  rfl

theorem exec_unitSelfTestEnd_of_till {s : State} {ty n : Nat} (pass ok : Bool) {c : Cmd} (hn : n < unitCount ty)
    (hcompleting : s.completing = true) (hstate : s.unitState ty n = 3) (hcmd : s.tillCmd ty n = some c) :
    exec (.unitSelfTestEnd ty n pass ok) s = .next (if pass then ((s.testLogged ty n pass).testPassed ty n).finish c 0 0 0 c.flags ok
      else ((s.testLogged ty n pass).unitTo ty n 4 false).finish c stHW_FAULT 0 0 c.flags ok) := by
  have hguard : (!s.completing || s.unitState ty n != 3) = false := by
    rw [hcompleting, hstate]
    rfl
  change execUnitSelfTestEnd ty n pass ok s = _
  rw [execUnitSelfTestEnd, if_neg (by omega)]
  simp only [hcmd, hguard, Bool.false_eq_true, if_false]
  cases pass <;> rfl

/-! #### SELF_TEST -/

section Tested
variable (s : State) (u : Nat × Nat) (pass : Bool)

theorem unitState_testUnit (a b : Nat) : (s.testUnit u pass).unitState a b =
    if unitKey u.1 u.2 = unitKey a b then (if pass then s.unitState u.1 u.2 else 4) else s.unitState a b := by
  have hlog := tells_logTest (s.unitTo u.1 u.2 3 false) u.1 u.2 pass
  unfold State.testUnit
  dsimp only
  rw [unitState_unitTo]
  split
  · rfl
  · next h =>
    rw [State.unitState, unit_congr hlog.units, unit_unitTo, if_neg h]
    rfl

end Tested

/-- R659: after the tests of a list of units, one that fails reads 4 and each other what it read before. -/
theorem unitState_foldl_testUnit (failing : List (Nat × Nat)) {l : List (Nat × Nat)} (hl : ∀ u ∈ l, u.2 < unitCount u.1)
    (s : State) {ty n : Nat} (hn : n < unitCount ty) :
    (l.foldl (fun t u => t.testUnit u (!failing.contains u)) s).unitState ty n =
      if (ty, n) ∈ l ∧ (ty, n) ∈ failing then 4 else s.unitState ty n := by
  induction l generalizing s with
  | nil => simp
  | cons u l ih =>
    obtain ⟨a, b⟩ := u
    have hb : b < unitCount a := hl (a, b) List.mem_cons_self
    rw [List.foldl_cons, ih (fun v hv => hl v (List.mem_cons_of_mem _ hv)), unitState_testUnit]
    by_cases hkey : unitKey a b = unitKey ty n
    · obtain ⟨rfl, rfl⟩ := (unitKey_eq_iff hb hn).mp hkey
      by_cases hfail : (a, b) ∈ failing <;> simp [hfail]
    · have hne : (ty, n) ≠ (a, b) := by
        rintro ⟨⟩
        exact hkey rfl
      simp only [if_neg hkey, List.mem_cons, hne, false_or]

theorem mem_scopeUnits {scope ty n a b : Nat} (hb : b < unitCount a) (hscope : scope ≤ 1) :
    (a, b) ∈ scopeUnits scope ty n ↔ scope = 0 ∨ a = ty ∧ b = n := by
  unfold scopeUnits
  split
  · next h1 => simp [h1]
  · have hmem : (a, b) ∈ (List.range 512).filterMap unitAt :=
      List.mem_filterMap.mpr ⟨_, List.mem_range.mpr (unitOffset_add_lt hb), (unitAt_eq_some_iff _ a b).mpr ⟨hb, rfl⟩⟩
    exact ⟨fun _ => .inl (by omega), fun _ => hmem⟩

theorem lt_of_mem_scopeUnits {scope ty n : Nat} (hn : scope = 1 → n < unitCount ty) {u : Nat × Nat}
    (hu : u ∈ scopeUnits scope ty n) : u.2 < unitCount u.1 := by
  unfold scopeUnits at hu
  split at hu
  · next h1 =>
    rw [List.mem_singleton.mp hu]
    exact hn h1
  · obtain ⟨o, -, hat⟩ := List.mem_filterMap.mp hu
    exact ((unitAt_eq_some_iff o u.1 u.2).mp hat).1

/-- R217: the units that a SELF_TEST tests. -/
def State.testedUnits (s : State) (scope ty n : Nat) : List (Nat × Nat) :=
  (scopeUnits scope ty n).filter (fun u => s.testable u.1 u.2)

/-- R218: the reply's code of a unit. -/
def testOutcome (tested failing : List (Nat × Nat)) (a b : Nat) : Nat :=
  if tested.contains (a, b) then (if (tested.filter (fun u => failing.contains u)).contains (a, b) then 1 else 0) else 2

section SelfTest
variable {s : State} {ring : Nat} {dma : Dma} {c : Cmd}

theorem selfTest_checks {scope ty n : Nat} (hs : num c.pkt 16 1 = scope) (ht : num c.pkt 17 1 = ty) (hn : num c.pkt 18 2 = n)
    (hscope : scope ≤ 1) (hunit : scope = 1 → n < unitCount ty) (haddr : num c.pkt 24 8 % 64 = 0) (hlen : 512 ≤ num c.pkt 32 4) :
    ∀ x ∈ ([(decide (1 < num c.pkt 16 1), stBAD_VALUE), (num c.pkt 16 1 == 1 && decide (unitCount (num c.pkt 17 1) ≤ num c.pkt 18 2),
      stBAD_VALUE)] : List (Bool × Nat)) ++ replyChecks c.pkt 24 32 512, x.1 = false := by
  rw [hs, ht, hn]
  refine List.forall_mem_append.mpr ⟨?_, replyChecks_pass haddr hlen⟩
  simp only [List.forall_mem_cons, List.not_mem_nil, false_implies, implies_true, and_true]
  refine ⟨by simpa using hscope, ?_⟩
  rw [Bool.and_eq_false_imp, beq_iff_eq]
  exact fun h => by simpa using hunit h

theorem exec_selfTest_of_gleaner (h : s.admits 0x69 ring dma c = true) (failing : List (Nat × Nat)) {ty n : Nat}
    (hs : num c.pkt 16 1 = 1) (ht : num c.pkt 17 1 = ty) (hn : num c.pkt 18 2 = n) (hunit : n < unitCount ty) (h8 : ty = 8)
    (haddr : num c.pkt 24 8 % 64 = 0) (hlen : 512 ≤ num c.pkt 32 4) :
    exec (.selfTest ring dma failing) s = outstanding s s c dma (.gleanerTest (s.epoch + 1)) := by
  have hgleaner : (decide (num c.pkt 16 1 = 1) && num c.pkt 17 1 == 8) = true := by
    rw [hs, ht, h8]
    rfl
  change execSelfTest ring dma failing s = _
  refine (State.runPacket_of_passes (o := opA 0x69 .none) rfl rfl h rfl
    (selfTest_checks hs ht hn (le_refl 1) (fun _ => hunit) haddr hlen)).trans (congrArg (fun v => Host.Outcome.next (s.settle c dma v)) ?_)
  exact if_pos hgleaner

theorem exec_selfTest_of_tests (h : s.admits 0x69 ring dma c = true) (failing : List (Nat × Nat)) {scope ty n : Nat}
    (hs : num c.pkt 16 1 = scope) (ht : num c.pkt 17 1 = ty) (hn : num c.pkt 18 2 = n) (hscope : scope ≤ 1)
    (hunit : scope = 1 → n < unitCount ty) (h8 : scope = 0 ∨ ty ≠ 8) (haddr : num c.pkt 24 8 % 64 = 0)
    (hlen : 512 ≤ num c.pkt 32 4) :
    ∃ passed failed, exec (.selfTest ring dma failing) s =
      ended s ((s.testedUnits scope ty n).foldl (fun t u => t.testUnit u (!failing.contains u)) s) c dma (info2 passed failed)
        [(num c.pkt 24 8, unitBytes (testOutcome (s.testedUnits scope ty n) failing) 2)] := by
  have hgleaner : (decide (num c.pkt 16 1 = 1) && num c.pkt 17 1 == 8) = false := by
    rw [hs, ht, Bool.and_eq_false_imp, decide_eq_true_iff]
    intro h1
    rcases h8 with h0 | h8
    · omega
    · simpa using h8
  subst hs ht hn
  obtain ⟨us, hus⟩ : ∃ us, us = s.testedUnits (num c.pkt 16 1) (num c.pkt 17 1) (num c.pkt 18 2) := ⟨_, rfl⟩
  refine ⟨us.length - (us.filter (fun u => failing.contains u)).length, (us.filter (fun u => failing.contains u)).length, ?_⟩
  rw [← hus]
  change execSelfTest ring dma failing s = _
  refine (State.runPacket_of_passes (o := opA 0x69 .none) rfl rfl h rfl
    (selfTest_checks rfl rfl rfl hscope hunit haddr hlen)).trans (congrArg (fun v => Host.Outcome.next (s.settle c dma v)) ?_)
  rw [hus]
  exact (if_neg (ne_true_of_eq_false hgleaner)).trans rfl

end SelfTest

theorem testOutcome_eq (tested failing : List (Nat × Nat)) (a b : Nat) :
    testOutcome tested failing a b = if (a, b) ∈ tested then (if (a, b) ∈ failing then 1 else 0) else 2 := by
  unfold testOutcome
  by_cases ht : (a, b) ∈ tested <;> by_cases hf : (a, b) ∈ failing <;> simp [ht, hf]

theorem mem_testedUnits (s : State) {scope ty n a b : Nat} (hb : b < unitCount a) (hscope : scope ≤ 1) :
    (a, b) ∈ s.testedUnits scope ty n ↔ (scope = 0 ∨ a = ty ∧ b = n) ∧ s.testable a b = true := by
  rw [State.testedUnits, List.mem_filter, mem_scopeUnits hb hscope]

/-! #### The test of the Gleaner -/

/-- R659: the codes that the Gleaner's test replies. -/
def gleanerReply (pass : Bool) : Bytes := unitBytes (fun a _ => if a = 8 then (if pass then 0 else 1) else 2) 2

theorem exec_gleanerTestStart_of_due {s : State} {c : Cmd} (pass ok : Bool) (hcompleting : s.completing = true)
    (hdue : s.gleanerDue = some c) : exec (.gleanerTestStart pass true ok) s =
      .next (((s.logTest 8 0 pass).hostWrite (ringFn c.ring) (num c.pkt 24 8) (gleanerReply pass)).finish c 0
        (if pass then info2 1 0 else info2 0 1) 0 c.flags ok) := by
  change execGleanerTestStart pass true ok s = _
  rw [execGleanerTestStart, hcompleting]
  simp only [hdue, Bool.not_true, Bool.false_eq_true, if_false, if_true, State.writeReply, List.foldl_cons, List.foldl_nil, gleanerReply]

/-- Settles O20: a test changes the state of its unit, and its log entry nothing else of the device's work. -/
theorem unitTests : Obligations.UnitTests := by
  unfold Obligations.UnitTests
  refine ⟨⟨?till, ?ended⟩, ?selfTest, ?gleaner⟩
  case till =>
    intro s ring dma c h ty n hn hleads hstate
    have hwithin := Within.tilled (s := s) ty n
    exact ⟨_, exec_unitTill_of_admits h rfl rfl hn hleads hstate, by rw [State.unitState, unit_tilled], by rw [unit_tilled],
      by rw [unit_tilled], hwithin.get State.cmds (fun _ => rfl), hwithin.get State.fields (fun _ => rfl),
      hwithin.get State.indexes (fun _ => rfl), ringsKept_tilled ty n⟩
  case ended =>
    intro s ty n pass ok c hn hcompleting hstate hcmd
    have hexec := exec_unitSelfTestEnd_of_till pass ok hn hcompleting hstate hcmd
    have htells := tells_testLogged s ty n pass
    cases pass with
    | true =>
      have hpassed := Within.testPassed (s.testLogged ty n true) ty n
      have hunit := unit_testPassed (s.testLogged ty n true) ty n
      rw [unit_congr htells.units] at hunit
      exact ⟨_, hexec, fun _ => ⟨by rw [hunit], by rw [State.unitState, hunit]; exact hstate⟩, fun h => (nomatch h),
        (hpassed.get State.cmds (fun _ => rfl)).trans htells.cmds, (hpassed.get State.fields (fun _ => rfl)).trans htells.fields,
        htells.rings.trans (State.ringsKept_of_rings_eq (hpassed.get State.rings (fun _ => rfl))),
        fun h12 => (indexes_testPassed _ n h12).trans htells.indexes⟩
    | false =>
      have hto := Within.unitTo (s.testLogged ty n false) ty n 4 false
      exact ⟨_, hexec, fun h => (nomatch h), fun _ => (unitState_unitTo _ ty n 4 false ty n).trans (if_pos rfl),
        (hto.get State.cmds (fun _ => rfl)).trans htells.cmds, (hto.get State.fields (fun _ => rfl)).trans htells.fields,
        htells.rings.trans (ringsKept_unitTo _ ty n 4 false), fun _ => (hto.get State.indexes (fun _ => rfl)).trans htells.indexes⟩
  case selfTest =>
    intro s ring dma failing c h scope ty n hscope hunit haddr hlen
    refine ⟨fun h1 h8 => exec_selfTest_of_gleaner h failing h1 rfl rfl (hunit h1) h8 haddr hlen, fun h8 => ?_⟩
    obtain ⟨passed, failed, hexec⟩ := exec_selfTest_of_tests h failing rfl rfl rfl hscope hunit h8 haddr hlen
    refine ⟨_, passed, failed, _, hexec, ?_⟩
    intro a b hb tested
    have hmem : (a, b) ∈ s.testedUnits scope ty n ↔ tested := mem_testedUnits s hb hscope
    have hvalid : ∀ u ∈ s.testedUnits scope ty n, u.2 < unitCount u.1 := fun u hu =>
      lt_of_mem_scopeUnits hunit (List.mem_filter.mp hu).1
    constructor
    · rw [unitState_foldl_testUnit failing hvalid s hb]
      simp only [hmem]
    · rw [getD_unitBytes_unit _ _ hb, testOutcome_eq]
      by_cases ht : tested
      · rw [if_pos (hmem.mpr ht), if_pos ht]
        split <;> rfl
      · rw [if_neg (fun hin => ht (hmem.mp hin)), if_neg ht]
  case gleaner =>
    intro s pass ok c hcompleting hdue
    have htells := tells_logTest s 8 0 pass
    have hwrite := Within.hostWrite (s.logTest 8 0 pass) (ringFn c.ring) (num c.pkt 24 8) (gleanerReply pass)
    refine ⟨_, exec_gleanerTestStart_of_due pass ok hcompleting hdue, (hwrite.get State.units (fun _ => rfl)).trans htells.units,
      (hwrite.get State.cmds (fun _ => rfl)).trans htells.cmds, (hwrite.get State.queries (fun _ => rfl)).trans htells.queries,
      (hwrite.get State.fields (fun _ => rfl)).trans htells.fields, fun hfatal => ⟨gleanerReply pass, length_unitBytes _ _, ?_, ?_⟩⟩
    · rw [gleanerReply, show (154 : Nat) = unitOffset 8 + 0 from rfl, getD_unitBytes_unit _ _ (by decide)]
      cases pass <;> rfl
    · have hsome : (gleanerReply pass).isEmpty = false := by
        rw [List.isEmpty_eq_false_iff, ← List.length_pos_iff, gleanerReply, length_unitBytes]
        decide
      rw [State.hostWrite, htells.glob, hfatal, hsome]
      exact List.mem_cons_self

end Sys2Proof.Machine

/-! ### Errors and containment: units, pages, device-fatal errors and the warm restart (R661 to R665, R706, R761, R762) -/

namespace Sys2Proof.Machine

/-! #### Causes stay set -/

/-- No event clears a cause bit. -/
def CausesStay (s t : State) : Prop :=
  ∀ fn bit, (s.fn fn).cause.getLsbD bit = true → (t.fn fn).cause.getLsbD bit = true

theorem CausesStay.trans {r s t : State} (h : CausesStay r s) (g : CausesStay s t) : CausesStay r t :=
  fun fn bit hbit => g fn bit (h fn bit hbit)

theorem causesStay_of_fns {s t : State} (h : t.fns = s.fns) : CausesStay s t := fun fn bit hbit => by
  rwa [State.fn, h]

section Causes
variable (s : State)

theorem fns_signalled (r : Option Nat) : (s.signalled r).fns = s.fns := by
  cases r <;> rfl

theorem cause_raiseVector (fn v n : Nat) : ((s.raiseVector fn v).fn n).cause = (s.fn n).cause := by
  have hfn (k : Nat) : (s.signalled (vectorRing fn v)).fn k = s.fn k := by rw [State.fn, fns_signalled, State.fn]
  unfold State.raiseVector
  dsimp only
  split
  · rw [State.fn_setFn, hfn, hfn]
    split
    · next h => rw [h]
    · rfl
  · exact congrArg FnRegs.cause (hfn n)

theorem cause_setEvent (fn bit n : Nat) : ((s.setEvent fn bit).fn n).cause =
    if fn = n then (s.fn fn).cause ||| (1#32 <<< bit) else (s.fn n).cause := by
  have hset : ((s.setFn fn { s.fn fn with cause := (s.fn fn).cause ||| (1#32 <<< bit) }).fn n).cause =
      if fn = n then (s.fn fn).cause ||| (1#32 <<< bit) else (s.fn n).cause := by
    rw [State.fn_setFn]
    split <;> rfl
  unfold State.setEvent
  dsimp only
  split
  · rw [cause_raiseVector, hset]
  · exact hset

theorem causesStay_setEvent (fn bit : Nat) : CausesStay s (s.setEvent fn bit) := fun n b h => by
  rw [cause_setEvent]
  split
  · next hfn => rw [BitVec.getLsbD_or, hfn, h, Bool.true_or]
  · exact h

theorem cause_setEvent_self (fn : Nat) {bit : Nat} (hbit : bit < 32) : ((s.setEvent fn bit).fn fn).cause.getLsbD bit = true := by
  rw [cause_setEvent, if_pos rfl, BitVec.getLsbD_or, BitVec.getLsbD_shiftLeft]
  simp [hbit]

theorem causesStay_appendLog (code field sev unit : Nat) (detail : Bytes) :
    CausesStay s (s.appendLog code field sev unit detail) := by
  unfold State.appendLog
  dsimp only
  split
  · split
    · exact causesStay_of_fns rfl
    · split
      · exact causesStay_of_fns rfl
      · refine CausesStay.trans ?_ (causesStay_setEvent _ 0 9)
        exact causesStay_of_fns rfl
  · exact causesStay_of_fns rfl

theorem causesStay_logEvent (code field sev unit : Nat) (detail : Bytes) :
    CausesStay s (s.logEvent code field sev unit detail) := by
  have happend := causesStay_appendLog s code field sev unit detail
  unfold State.logEvent
  dsimp only
  split
  · exact happend
  · next b _ =>
    have hevent := happend.trans (causesStay_setEvent _ 0 b)
    split
    · exact hevent.trans (causesStay_setEvent _ field 4)
    · exact hevent

theorem causesStay_pertApply (q : PertReq) : CausesStay s (s.pertApply q) := by
  obtain ⟨t, ht⟩ : ∃ t, t = (s.withPert (s.pert.apply q)).extend 7 (eventRecord 0x71 q.raw) := ⟨_, rfl⟩
  have hfns : CausesStay s t := causesStay_of_fns (by rw [ht]; rfl)
  rw [pertApply_eq, ← ht]
  dsimp only
  split
  · exact hfns.trans (causesStay_logEvent t _ _ _ _ _)
  · exact hfns

end Causes

/-! #### A request that waits in the window, at the end of a restart -/

theorem Within.extend (s : State) (n : Nat) (e : Bytes) : Within [.trust] s (s.extend n e) := rfl

theorem Within.withPert (s : State) (x : Pert) : Within [.pert] s (s.withPert x) := rfl

/-- A request of the window is taken, applied where it is accepted, or still waits. -/
theorem takeBusy_cases (s : State) : s.takeBusy = s ∨ ∃ t x, (t = s ∨ t = s.pertApply s.pert.request) ∧ s.takeBusy = t.withPert x := by
  unfold State.takeBusy
  split
  · cases hfault : s.pertFault s.pert.request with
    | some st => exact .inr ⟨s, _, .inl rfl, takePert_of_refused hfault⟩
    | none => exact .inr ⟨_, _, .inr rfl, takePert_of_accepted hfault⟩
  · exact .inl rfl

theorem Within.pertApply (s : State) (q : PertReq) :
    Within [.out, .rings, .trust, .log, .counters, .pert, .fns] s (s.pertApply q) := by
  have happlied : Within [.out, .rings, .trust, .log, .counters, .pert, .fns] s
      ((s.withPert (s.pert.apply q)).extend 7 (eventRecord 0x71 q.raw)) :=
    ((Within.withPert s _).mono (by decide)).then (Within.extend _ _ _) (by decide)
  rw [pertApply_eq]
  exact Within.ite (happlied.then (Within.logEvent _ _ _ _ _ _) (by decide)) happlied

theorem Within.takeBusy (s : State) : Within [.out, .rings, .trust, .log, .counters, .pert, .fns] s s.takeBusy := by
  obtain hidle | ⟨t, x, ht, htaken⟩ := takeBusy_cases s
  · rw [hidle]
    exact Within.refl _ _
  · rw [htaken]
    refine Within.then ?_ (Within.withPert t x) (by decide)
    rcases ht with rfl | rfl
    · exact Within.refl _ _
    · exact Within.pertApply s _

theorem causesStay_takeBusy (s : State) : CausesStay s s.takeBusy := by
  obtain hidle | ⟨t, x, ht, htaken⟩ := takeBusy_cases s
  · rw [hidle]
    exact fun _ _ h => h
  · rw [htaken]
    have hwith : CausesStay t (t.withPert x) := causesStay_of_fns rfl
    rcases ht with rfl | rfl
    · exact hwith
    · exact (causesStay_pertApply s _).trans hwith

theorem trust_pertApply (s : State) (q : PertReq) : (s.pertApply q).trust = (s.extend 7 (eventRecord 0x71 q.raw)).trust :=
  (tells_pertApply s q).trust

/-- A request of the window is measured in register 7, and in no other. -/
theorem trust_takeBusy (s : State) : s.takeBusy.trust.stakes = s.trust.stakes ∧
    ∀ n, n ≠ 7 → s.takeBusy.trust.mr.getD n [] = s.trust.mr.getD n [] := by
  obtain hidle | ⟨t, x, ht, htaken⟩ := takeBusy_cases s
  · rw [hidle]
    exact ⟨rfl, fun _ _ => rfl⟩
  · have htrust : s.takeBusy.trust = t.trust := by rw [htaken]; rfl
    rw [htrust]
    rcases ht with rfl | rfl
    · exact ⟨rfl, fun _ _ => rfl⟩
    · rw [trust_pertApply]
      exact ⟨rfl, fun n hn => (mr_extend s 7 n _).trans (if_neg (fun h => hn h.1))⟩

/-! #### A unit that fails (R661, R662, R664) -/

theorem Within.setCasc (s : State) (x : Cascade) : Within [.casc] s (s.setCasc x) := rfl

theorem Within.syncMembers (s : State) : Within [.units] s s.syncMembers := rfl

theorem Within.sendMessage (s : State) (dst kind vc : Nat) (content : Bytes) :
    Within [.out, .ports] s (s.sendMessage dst kind vc content) := by
  obtain ⟨out, ports, h⟩ := s.sendMessage_eq dst kind vc content
  rw [h]
  rfl

/-- What a message leaves of the ports. -/
def PortsStay (s t : State) : Prop := ∀ p, (t.port p).state = (s.port p).state

theorem PortsStay.trans {r s t : State} (h : PortsStay r s) (g : PortsStay s t) : PortsStay r t := fun p => (g p).trans (h p)

theorem portsStay_of_ports {s t : State} (h : t.ports = s.ports) : PortsStay s t := fun p => by rw [State.port, h, State.port]

theorem portsStay_foldl {α : Type} (f : State → α → State) (hf : ∀ s a, PortsStay s (f s a)) (l : List α) (s : State) :
    PortsStay s (l.foldl f s) := by
  induction l generalizing s with
  | nil => exact fun _ => rfl
  | cons a l ih => exact (hf s a).trans (ih _)

theorem portsStay_queueFlits (s : State) (p : Nat) (fs : List TxFlit) : PortsStay s (s.queueFlits p fs) := fun q => by
  rw [State.queueFlits, State.port_setPort]
  split
  · next h => rw [h]
  · rfl

theorem portsStay_sendMessage (s : State) (dst kind vc : Nat) (content : Bytes) :
    PortsStay s (s.sendMessage dst kind vc content) := by
  unfold State.sendMessage
  dsimp only
  split
  · exact portsStay_of_ports rfl
  · split
    · exact PortsStay.trans (portsStay_of_ports rfl) (portsStay_foldl _ (fun t p => portsStay_queueFlits t p _) _ _)
    · split
      · exact portsStay_of_ports rfl
      · exact PortsStay.trans (portsStay_of_ports rfl) (portsStay_queueFlits _ _ _)

/-- The messages of a census: routes and configurations, to each other member. -/
def State.censusTold (s : State) : State :=
  s.casc.others.foldl (fun s m =>
    s.fields.foldl (fun s f => s.sendMessage m msgCONFIG 0 (leBytes 1 f.1 ++ zeros 1 ++ f.2.tgt.bytes f.2.tgt.granaryOwned f.2.slices ++
      leBytes 8 (s.epoch + 1))) (s.sendMessage m msgROUTES 0 (s.casc.reply 0))) s

theorem Within.censusTold (s : State) : Within [.out, .ports] s s.censusTold :=
  Within.foldl _ _ (fun _ _ h => Within.foldl _ _ (fun _ _ h => h.trans (Within.sendMessage _ _ _ _ _))
    (h.trans (Within.sendMessage _ _ _ _ _))) (Within.refl _ _)

theorem portsStay_censusTold (s : State) : PortsStay s s.censusTold :=
  portsStay_foldl _ (fun t m => (portsStay_sendMessage t m _ _ _).trans
    (portsStay_foldl _ (fun u f => portsStay_sendMessage u m _ _ _) _ _)) _ s

/-- The state as a census has its records and before it tells the members. -/
def State.censusPlaced (s : State) (records : FMap CensusRec) : State :=
  let x := ({ s.casc with records := records, tCensus := s.tbk }).routed
  let s := (s.setCasc { x with state := 2 }).syncMembers
  s.setCasc { s.casc with state := s.censusState }

theorem Within.censusPlaced (s : State) (records : FMap CensusRec) : Within [.casc, .units] s (s.censusPlaced records) :=
  (((Within.setCasc s _).mono (by decide)).then (Within.syncMembers _) (by decide)).then (Within.setCasc _ _) (by decide)

theorem census_told (s : State) (records : FMap CensusRec) :
    Within [.out, .rings, .trust, .log, .trace, .counters, .fns] (s.censusPlaced records).censusTold (s.census records) :=
  (((Within.extend _ 4 _).mono (by decide)).then (Within.logEvent _ _ _ _ _ _) (by decide)).then
    (Within.traceRec _ _ _ _ _ _) (by decide)

theorem Within.census (s : State) (records : FMap CensusRec) :
    Within [.out, .rings, .units, .ports, .casc, .trust, .log, .trace, .counters, .fns] s (s.census records) := by
  exact (((Within.censusPlaced s records).mono (by decide)).then (Within.censusTold _) (by decide)).then (census_told s records)
    (by decide)

theorem portsStay_census (s : State) (records : FMap CensusRec) : PortsStay s (s.census records) := by
  exact ((portsStay_of_ports ((Within.censusPlaced s records).get State.ports (fun _ => rfl))).trans (portsStay_censusTold _)).trans
    (portsStay_of_ports ((census_told s records).get State.ports (fun _ => rfl)))

theorem Within.recensus (s : State) (x : Cascade) :
    Within [.out, .rings, .units, .ports, .casc, .trust, .log, .trace, .counters, .fns] s (s.recensus x) :=
  Within.ite (Within.census s _) ((Within.setCasc s x).mono (by decide))

theorem portsStay_recensus (s : State) (x : Cascade) : PortsStay s (s.recensus x) := by
  unfold State.recensus
  split
  · exact portsStay_census s _
  · exact portsStay_of_ports rfl

/-- What the failure of a unit may change of this device. -/
def failing : List Comp :=
  [.out, .rings, .fields, .compactQueue, .evaporators, .cores, .streams, .channels, .granary, .badChunks, .units, .log, .trace,
    .counters, .fns]

theorem Within.abortCompaction (s : State) (n : Nat) :
    Within [.fields, .compactQueue, .evaporators, .cores, .streams, .granary, .badChunks] s (s.abortCompaction n) := by
  have hevaporators (t : State) (x : FMap Compaction) : Within [.evaporators] t { t with evaporators := x } := rfl
  unfold State.abortCompaction
  split
  · exact Within.refl _ _
  · exact ((((Within.dropReader s _).mono (by decide)).then (hevaporators _ _) (by decide)).then (Within.enqueueLists _ _ _ _)
      (by decide)).then (Within.releasePages _ _) (by decide)

/-- R662: a unit that is no port reads 4 behind its failure. -/
theorem failUnit_of_no_port (s : State) {ty : Nat} (n : Nat) (h11 : ty ≠ 11) :
    Within failing s (s.failUnit ty n) ∧ (s.failUnit ty n).unitState ty n = 4 := by
  have hset (u : UnitRec) : Within failing s (s.setUnit ty n u) := (Within.setUnit s ty n u).mono (by decide)
  have hto (t : State) (h : Within failing s t) (b : Bool) :
      Within failing s (t.unitTo ty n 4 b) ∧ (t.unitTo ty n 4 b).unitState ty n = 4 :=
    ⟨h.then (Within.unitTo _ _ _ _ _) (by decide), (unitState_unitTo t ty n 4 b ty n).trans (if_pos rfl)⟩
  have hretire (t : State) := (retire_eq t true (fun l => l.slice == n)).1
  unfold State.failUnit
  dsimp only
  split
  · exact hto _ ((hset _).then (Within.abortCompaction _ n) (by decide)) true
  · obtain ⟨hwithin, hstate⟩ := hto _ (hset { s.unit 9 n with force := true, byDevice := true, leaving := false, entering := false })
      true
    refine ⟨hwithin.then (hretire _) (by decide), ?_⟩
    rw [State.unitState, unit_congr ((hretire _).get State.units (fun _ => rfl))]
    exact hstate
  · exact ⟨(hset _).then (Within.failPair _ n) (by decide), unitState_failPair _ n⟩
  · exact absurd rfl h11
  · exact hto _ (hset _) true

theorem failUnit_of_port (s : State) (n : Nat) : Within (.ports :: .casc :: .trust :: failing) s (s.failUnit 11 n) ∧
    ((s.failUnit 11 n).port n).state = .off := by
  obtain ⟨u, hu⟩ : ∃ u, u = ((s.setUnit 11 n { s.unit 11 n with force := true, byDevice := true, leaving := false, entering := false }).unitTo
      11 n 4 true).setPort n { (s.port n).down with state := .off } := ⟨_, rfl⟩
  have hto : Within (.ports :: .casc :: .trust :: failing) s u := by
    rw [hu]
    exact (((Within.setUnit s 11 n _).mono (by decide)).then (Within.unitTo _ _ _ _ _) (by decide)).then (Within.setPort _ _ _) (by decide)
  have hoff : (u.port n).state = .off := by
    rw [hu, State.port_setPort, if_pos rfl]
  have hfail : s.failUnit 11 n = if u.cascFormed then u.recensus (u.casc.dropLink u.casc.ordinal n) else u := by
    rw [hu]
    rfl
  rw [hfail]
  split
  · exact ⟨hto.then (Within.recensus _ _) (by decide), (portsStay_recensus _ _ n).trans hoff⟩
  · exact ⟨hto, hoff⟩

/-- A UNIT_FALLOW that waits for the unit has ended. -/
def State.fallowEnded (s : State) (ty n : Nat) : State :=
  match s.fallowCmd ty n with
  | none => s
  | some (c, m, a) => s.takeFree.finish c 0 (info2 a m) 0 c.flags (Config.freeBool s.fresh)

theorem endUnitCmd_fallowEnded (s : State) (ty n : Nat) : s.endUnitCmd ty n = match (s.fallowEnded ty n).tillCmd ty n with
    | none => s.fallowEnded ty n
    | some c => (s.fallowEnded ty n).takeFree.finish c stHW_FAULT 0 0 c.flags (Config.freeBool (s.fallowEnded ty n).fresh) := by
  unfold State.endUnitCmd State.fallowEnded
  rfl

/-- Only a command's end may lie between two states. -/
def Ends (s t : State) : Prop :=
  Within [.out, .fresh, .rings, .cmds, .fields, .streams, .log, .trace, .counters, .fns] s t ∧ ∀ e ∈ t.cmds, e ∈ s.cmds

theorem ends_finish (s : State) (c : Cmd) (status info : Nat) (ok : Bool) :
    Ends s (s.takeFree.finish c status info 0 c.flags ok) := by
  have hfree : Within [.fresh] s s.takeFree := rfl
  refine ⟨(hfree.mono (by decide)).then (Within.finish _ _ _ _ _ _ _) (by decide), fun e he => ?_⟩
  rw [State.finish_cmds] at he
  exact (List.mem_filter.mp he).1

theorem ends_fallowEnded (s : State) (ty n : Nat) : Ends s (s.fallowEnded ty n) := by
  unfold State.fallowEnded
  split
  · exact ⟨Within.refl _ _, fun _ h => h⟩
  · exact ends_finish s _ 0 _ _

/-- A command that waits for the unit ends with it. -/
theorem ends_endUnitCmd (s : State) (ty n : Nat) : Ends s (s.endUnitCmd ty n) := by
  obtain ⟨hwithin, hcmds⟩ := ends_fallowEnded s ty n
  rw [endUnitCmd_fallowEnded]
  split
  · exact ⟨hwithin, hcmds⟩
  · next c _ =>
    obtain ⟨hlater, hfewer⟩ := ends_finish (s.fallowEnded ty n) c stHW_FAULT 0 (Config.freeBool (s.fallowEnded ty n).fresh)
    exact ⟨hwithin.trans hlater, fun e he => hcmds e (hfewer e he)⟩

theorem faultUnit_eq (s : State) (ty n : Nat) : ∃ w, s.faultUnit ty n = s.stopEach (s.usersOf ty n) (fun _ => stHW_FAULT) w :=
  ⟨_, rfl⟩

/-- R662: the users of a unit that fails have ended. -/
theorem withdrawFailed_of_no_port (s : State) {ty : Nat} (n : Nat) (h11 : ty ≠ 11) :
    (s.withdrawFailed ty n).unitState ty n = 4 ∧
      (∀ d ∈ s.usersOf ty n, ∀ e ∈ (s.withdrawFailed ty n).cmds, ¬ (e.ring = d.ring ∧ e.seq = d.seq)) ∧
      (s.withdrawFailed ty n).trust = s.trust ∧ (s.withdrawFailed ty n).tbk = s.tbk ∧ (s.withdrawFailed ty n).glob = s.glob := by
  obtain ⟨w, hfault⟩ := faultUnit_eq s ty n
  have hstop := Within.stopEach s (s.usersOf ty n) (fun _ => stHW_FAULT) w
  have hmem (e : Cmd) := mem_cmds_stopEach (d := e) (s.usersOf ty n) s (fun _ => stHW_FAULT) w
  rw [← hfault] at hstop
  simp only [← hfault] at hmem
  obtain ⟨hfail, hstate⟩ := failUnit_of_no_port (s.faultUnit ty n) n h11
  obtain ⟨hend, hcmds⟩ := ends_endUnitCmd ((s.faultUnit ty n).failUnit ty n) ty n
  refine ⟨?_, fun d hd e he => ?_, ?_, ?_, ?_⟩
  · rw [← hstate]
    exact congrArg UnitRec.state (unit_congr (hend.get State.units (fun _ => rfl)) ty n)
  · have he' := hcmds e he
    rw [hfail.get State.cmds (fun _ => rfl)] at he'
    exact (is_eq_false_iff _ _ _).mp (((hmem e).mp he').2 d hd)
  · exact (hend.get State.trust (fun _ => rfl)).trans ((hfail.get State.trust (fun _ => rfl)).trans (hstop.get State.trust (fun _ => rfl)))
  · exact (hend.get State.tbk (fun _ => rfl)).trans ((hfail.get State.tbk (fun _ => rfl)).trans (hstop.get State.tbk (fun _ => rfl)))
  · exact (hend.get State.glob (fun _ => rfl)).trans ((hfail.get State.glob (fun _ => rfl)).trans (hstop.get State.glob (fun _ => rfl)))

theorem withdrawFailed_of_port (s : State) (n : Nat) : ((s.withdrawFailed 11 n).port n).state = .off ∧
    (s.withdrawFailed 11 n).tbk = s.tbk ∧ (s.withdrawFailed 11 n).glob = s.glob := by
  obtain ⟨w, hfault⟩ := faultUnit_eq s 11 n
  have hstop := Within.stopEach s (s.usersOf 11 n) (fun _ => stHW_FAULT) w
  rw [← hfault] at hstop
  obtain ⟨hfail, hoff⟩ := failUnit_of_port (s.faultUnit 11 n) n
  obtain ⟨hend, -⟩ := ends_endUnitCmd ((s.faultUnit 11 n).failUnit 11 n) 11 n
  have hall : Within (.ports :: .casc :: .trust :: .evaporators :: stoppedComps) s (s.withdrawFailed 11 n) :=
    (((hstop.mono (by decide)).then hfail (by decide)).then hend (by decide)).then (Within.count _ _ _ _) (by decide)
  refine ⟨?_, ?_, ?_⟩
  · have hports : (s.withdrawFailed 11 n).ports = ((s.faultUnit 11 n).failUnit 11 n).ports := hend.get State.ports (fun _ => rfl)
    rw [State.port, hports]
    exact hoff
  · exact hall.get State.tbk (fun _ => rfl)
  · exact hall.get State.glob (fun _ => rfl)

/-- The state as an error in a unit is logged and counted. -/
def State.errorLogged (s : State) (ty n : Nat) (a : BitVec 64) : State :=
  (s.logEvent 0x0012 0xFF 3 (unitKey ty n) (leBytes 8 a.toNat)).count 0 5 1

theorem tells_errorLogged (s : State) (ty n : Nat) (a : BitVec 64) : Tells s (s.errorLogged ty n a) :=
  (tells_logEvent s _ _ _ _ _).trans (tells_count _ _ _ _)

theorem usersOf_errorLogged (s : State) (ty n : Nat) (a : BitVec 64) : (s.errorLogged ty n a).usersOf ty n = s.usersOf ty n :=
  (((Within.logEvent s _ _ _ _ _).mono (by decide)).then (n := [.out, .rings, .log, .counters, .fns]) (Within.count _ _ _ _)
    (by decide)).get (fun u => u.usersOf ty n) (fun _ => rfl)

theorem exec_unitError_of_completing {s : State} {ty n : Nat} (a : BitVec 64) (hn : n < unitCount ty) (h12 : ty ≠ 12)
    (hcompleting : s.completing = true) : exec (.unitError ty n a) s = .next (
      if s.unitState ty n = 4 then s.errorLogged ty n a else if s.lastEngine ty n then (s.errorLogged ty n a).fatalError 2
      else (s.errorLogged ty n a).withdrawFailed ty n) := by
  have hguard : (decide (unitCount ty ≤ n) || ty == 12) = false := by simp [hn, h12]
  change execUnitError ty n a s = _
  rw [execUnitError, hguard, hcompleting]
  simp only [Bool.false_eq_true, if_false, Bool.not_true, beq_iff_eq]
  split
  · rfl
  · split <;> rfl

/-! #### Device-fatal errors (R665) -/

/-- R665: the state of a device that has met a device-fatal error. -/
theorem fatalError_eq {s : State} (h : s.glob.fatal = false) (cause : Nat) : ∃ u : State,
    Tells (s.setGlob { s.glob with fatal := true, fatalCause := cause }) u ∧ (u.fn 0).cause.getLsbD 8 = true ∧
    s.fatalError cause = (u.emit .aer).setBoard { u.board with alertN := false } := by
  refine ⟨_, (tells_logEvent _ evDEVICE_FATAL 0xFF 5 noUnit [BitVec.ofNat 8 cause]).trans (tells_setEvent _ 0 8),
    cause_setEvent_self _ 0 (by decide), ?_⟩
  rw [State.fatalError, if_neg (by simp [h])]
  rfl

theorem exec_deviceFatal_of_up {s : State} {cause : Nat} (hup : s.up = true) (hcause : cause ≤ 3) (hfatal : s.glob.fatal = false) :
    exec (.deviceFatal cause) s = .next ((if cause = 3 then s.countSteward else s.count 0 5 1).fatalError cause) := by
  have hguard : (!s.up || decide (3 < cause) || s.glob.fatal) = false := by simp [hup, hfatal, hcause]
  change execDeviceFatal cause s = _
  rw [execDeviceFatal, hguard]
  rfl

theorem Within.countSteward (s : State) : Within [.counters, .fresh] s s.countSteward := rfl

theorem serving_of_fatal {s : State} (h : s.glob.fatal = true) : s.serving = false := by
  simp [State.serving, h]

/-! #### The warm restart (R706, R761, R762) -/

theorem exec_stewardRestart_of_running {s : State} (hup : s.up = true) (hboot : s.trust.bootCode = 0) (hfatal : s.glob.fatal = false)
    (h : ∀ u, s.glob.lastRestart = some u → u + 1000000000 < s.tbk) :
    exec .stewardRestart s = .next (s.countSteward.startRestart true) := by
  have hguard : (!s.up || s.trust.bootCode != 0 || s.glob.fatal) = false := by simp [hup, hboot, hfatal]
  change execStewardRestart s = _
  rw [execStewardRestart, hguard]
  cases hlast : s.glob.lastRestart with
  | none => rfl
  | some u =>
    have hnot : ¬ s.tbk ≤ u + 1000000000 := Nat.not_le.mpr (h u hlast)
    simp only [Bool.false_eq_true, if_false, if_neg hnot]

theorem exec_stewardRestart_of_second {s : State} {u : Nat} (hup : s.up = true) (hboot : s.trust.bootCode = 0)
    (hfatal : s.glob.fatal = false) (hlast : s.glob.lastRestart = some u) (h : s.tbk ≤ u + 1000000000) :
    exec .stewardRestart s = .next (s.countSteward.fatalError 3) := by
  have hguard : (!s.up || s.trust.bootCode != 0 || s.glob.fatal) = false := by simp [hup, hboot, hfatal]
  change execStewardRestart s = _
  rw [execStewardRestart, hguard]
  simp only [Bool.false_eq_true, if_false, hlast, if_pos h]

theorem endStopped_eq (s : State) : s.endStopped =
    s.stopEach (s.cmds.filter (fun c => c.stopped.isSome)) (fun c => (c.stopped.getD 0).toNat) none := rfl

theorem mem_cmds_endStopped (s : State) (e : Cmd) : e ∈ s.endStopped.cmds ↔
    e ∈ s.cmds ∧ ∀ d ∈ s.cmds, d.stopped ≠ none → ¬ (e.ring = d.ring ∧ e.seq = d.seq) := by
  rw [endStopped_eq, mem_cmds_stopEach]
  simp only [List.mem_filter, and_imp, is_eq_false_iff, Option.isSome_iff_ne_none]

theorem Within.leaveCascade (s : State) : Within [.indexes, .units, .casc] s s.leaveCascade := by
  unfold State.leaveCascade
  split
  · rfl
  · split
    · exact (Within.setCasc _ _).mono (by decide)
    · exact Within.refl _ _

/-- R761: the restarted Steward before it takes a request that waits. -/
def State.restarted (s : State) : State :=
  let t := (s.endStopped.leaveCascade).extend 1 (eventRecord 0x11 (leBytes 4 s.glob.restarts))
  (t.setGlob { t.glob with restarting := false }).setEvent 0 7

theorem exec_stewardRestartEnd_of_restarting {s : State} (hup : s.up = true) (hfatal : s.glob.fatal = false)
    (hrestarting : s.glob.restarting = true) : exec .stewardRestartEnd s = .next s.restarted.takeBusy := by
  change execStewardRestartEnd s = _
  rw [execStewardRestartEnd, hup, hfatal, hrestarting]
  rfl

theorem restarted_eq (s : State) : ∃ u, Within (.indexes :: .units :: .casc :: stoppedComps) s u ∧ u.cmds = s.endStopped.cmds ∧
    Tells ((u.extend 1 (eventRecord 0x11 (leBytes 4 s.glob.restarts))).setGlob { u.glob with restarting := false }) s.restarted ∧
    (s.restarted.fn 0).cause.getLsbD 7 = true :=
  ⟨s.endStopped.leaveCascade, ((Within.stopEach s _ _ _).mono (by decide)).then (Within.leaveCascade _) (by decide),
    (Within.leaveCascade _).get State.cmds (fun _ => rfl), tells_setEvent _ 0 7, cause_setEvent_self _ 0 (by decide)⟩

/-- Settles O22: the users of a failed unit are stopped, a fatal error reports and latches, and a restart stops and later ends the
commands admitted before it. -/
theorem deviceErrors : Obligations.DeviceErrors := by
  unfold Obligations.DeviceErrors
  refine ⟨?unit, ?page, ⟨?fatal, ?silent⟩, ?restart, ?restarted⟩
  case unit =>
    intro s ty n a hn h12 hcompleting
    have hexec := exec_unitError_of_completing a hn h12 hcompleting
    have htells := tells_errorLogged s ty n a
    have husers := usersOf_errorLogged s ty n a
    refine ⟨fun h4 hlast h11 => ?_, fun h4 hlast h11 => ?_, fun h4 hlast => ?_, fun h4 => ?_⟩
    · rw [if_neg h4, if_neg (by simp [hlast])] at hexec
      obtain ⟨hstate, hcmds, htrust, htbk, hglob⟩ := withdrawFailed_of_no_port (s.errorLogged ty n a) n h11
      exact ⟨_, hexec, hstate, by rwa [husers] at hcmds, htrust.trans htells.trust, htbk.trans htells.tbk, hglob.trans htells.glob⟩
    · rw [if_neg h4, if_neg (by simp [hlast])] at hexec
      subst h11
      obtain ⟨hoff, htbk, hglob⟩ := withdrawFailed_of_port (s.errorLogged 11 n a) n
      exact ⟨_, hexec, hoff, htbk.trans htells.tbk, hglob.trans htells.glob⟩
    · rw [if_neg h4, if_pos hlast] at hexec
      have hfatal : (s.errorLogged ty n a).glob.fatal = false := by
        rw [htells.glob]
        simp only [State.completing, State.serving, Bool.and_eq_true, Bool.not_eq_true'] at hcompleting
        exact hcompleting.2.1.2
      obtain ⟨u, hu, -, hend⟩ := fatalError_eq hfatal 2
      rw [hend] at hexec
      exact ⟨_, hexec, congrArg Glob.fatal hu.glob, congrArg Glob.fatalCause hu.glob, hu.cmds.trans htells.cmds⟩
    · rw [if_pos h4] at hexec
      exact hexec
  case page =>
    intro s field page x p hup hfield hpage
    obtain ⟨t, ht⟩ : ∃ t, t = s.setField field { x with pages := x.pages.map (fun q => if q.num = page then { q with damaged := true } else q) } :=
      ⟨_, rfl⟩
    have hexec : exec (.pageDamaged field page) s = .next ((t.logEvent evPAGE_DAMAGED field 2 noUnit
        (leBytes 4 page ++ leBytes 1 (p.index.getD 0xFF))).count 0 5 1) := by
      change execPageDamaged field page s = _
      rw [execPageDamaged, hup]
      simp only [hfield, hpage, ht]
      rfl
    have htells := (tells_logEvent t evPAGE_DAMAGED field 2 noUnit (leBytes 4 page ++ leBytes 1 (p.index.getD 0xFF))).trans
      (tells_count _ 0 5 1)
    have hgranary := (Within.logEvent t evPAGE_DAMAGED field 2 noUnit (leBytes 4 page ++ leBytes 1 (p.index.getD 0xFF))).get
      State.granary (fun _ => rfl)
    obtain ⟨e, rest, hlog, hcode⟩ := t.logEvent_newest evPAGE_DAMAGED field 2 noUnit (leBytes 4 page ++ leBytes 1 (p.index.getD 0xFF))
    have hfields : ∀ g, State.field? _ g = t.field? g := fun g => congrArg (FMap.get? · g) htells.fields
    refine ⟨_, hexec, (hfields field).trans ?_, fun g hg => (hfields g).trans ?_, ⟨e, rest, hlog, hcode⟩, htells.cmds.trans ?_,
      htells.indexes.trans ?_, hgranary.trans ?_, htells.tbk.trans ?_⟩
    · rw [ht, State.field?_setField, if_pos rfl]
    · rw [ht, State.field?_setField, if_neg (Ne.symm hg)]
    all_goals rw [ht]; rfl
  case fatal =>
    intro s cause hup hcause
    refine ⟨fun hfatal => ?_, fun hfatal => ?_⟩
    · obtain ⟨t, ht⟩ : ∃ t, t = if cause = 3 then s.countSteward else s.count 0 5 1 := ⟨_, rfl⟩
      have hcount : Within [.counters, .fresh] s t := by
        rw [ht]
        exact Within.ite (Within.countSteward s) ((Within.count _ _ _ _).mono (by decide))
      have hglob : t.glob = s.glob := hcount.get State.glob (fun _ => rfl)
      obtain ⟨u, hu, hbit, hend⟩ := fatalError_eq (s := t) (by rw [hglob, hfatal]) cause
      have hexec := exec_deviceFatal_of_up hup hcause hfatal
      rw [← ht, hend] at hexec
      refine ⟨_, hexec, hu.glob.trans (by rw [← hglob]; rfl), List.mem_cons_self, ?_, hbit,
        hu.cmds.trans (hcount.get State.cmds (fun _ => rfl)), hu.fields.trans (hcount.get State.fields (fun _ => rfl)),
        hu.indexes.trans (hcount.get State.indexes (fun _ => rfl)), hu.trust.trans (hcount.get State.trust (fun _ => rfl)),
        hu.tbk.trans (hcount.get State.tbk (fun _ => rfl))⟩
      exact congrArg (fun b : Board => { b with alertN := false }) (hu.board.trans (hcount.get State.board (fun _ => rfl)))
    · change execDeviceFatal cause s = _
      exact if_pos (by simp [hfatal])
  case silent =>
    intro s ring dma data hfatal
    constructor
    · change execPacketFetch data s = _
      exact if_pos (by simp [serving_of_fatal hfatal])
    · intro hring
      change execNop ring dma s = _
      exact runPacket_of_waiting hring (.inr (.inl (serving_of_fatal hfatal))) dma _
  case restart =>
    intro s hup hboot hfatal
    have hcount := Within.countSteward s
    refine ⟨fun h => ?_, fun u hlast h => ?_⟩
    · have htells := s.countSteward.startRestart_tells true
      exact ⟨_, exec_stewardRestart_of_running hup hboot hfatal h, congrArg Glob.restarting htells.glob,
        congrArg Glob.lastRestart htells.glob, congrArg Glob.restarts htells.glob, htells.cmds,
        (State.ringsKept_of_rings_eq rfl).trans htells.rings, htells.fields, htells.indexes⟩
    · obtain ⟨v, hv, -, hend⟩ := fatalError_eq (s := s.countSteward) hfatal 3
      have hexec := exec_stewardRestart_of_second hup hboot hfatal hlast h
      rw [hend] at hexec
      exact ⟨_, hexec, congrArg Glob.fatal hv.glob, congrArg Glob.fatalCause hv.glob, hv.cmds,
        (State.ringsKept_of_rings_eq rfl).trans hv.rings⟩
  case restarted =>
    intro s hup hfatal hrestarting hlen
    obtain ⟨u, hu, hcmds, htells, hbit⟩ := restarted_eq s
    have htrust : u.trust = s.trust := hu.get State.trust (fun _ => rfl)
    have hbusy := Within.takeBusy s.restarted
    obtain ⟨hstakes, hmr⟩ := trust_takeBusy s.restarted
    have hleft : s.restarted.takeBusy.cmds = s.endStopped.cmds :=
      (hbusy.get State.cmds (fun _ => rfl)).trans (htells.cmds.trans hcmds)
    refine ⟨_, exec_stewardRestartEnd_of_restarting hup hfatal hrestarting, ?_, fun c hc => ?_, fun c hc h => ?_,
      causesStay_takeBusy _ 0 7 hbit, ?_, ?_, ?_⟩
    · exact congrArg Glob.restarting ((hbusy.get State.glob (fun _ => rfl)).trans htells.glob)
    · rw [hleft, mem_cmds_endStopped] at hc
      by_contra hstopped
      exact hc.2 c hc.1 hstopped ⟨rfl, rfl⟩
    · rw [hleft, mem_cmds_endStopped]
      exact ⟨hc, fun d hd hstopped hsame => h d hd hstopped ⟨hsame.1.symm, hsame.2.symm⟩⟩
    · have hreg := mr_extend u 1 1 (eventRecord 0x11 (leBytes 4 s.glob.restarts))
      rw [htrust, if_pos ⟨rfl, by rw [hlen]; decide⟩] at hreg
      rw [hmr 1 (by decide), htells.trust]
      exact hreg
    · have hkept : (u.extend 1 (eventRecord 0x11 (leBytes 4 s.glob.restarts))).trust.stakes = u.trust.stakes := rfl
      exact hstakes.trans ((congrArg Trust.stakes htells.trust).trans (hkept.trans (congrArg Trust.stakes htrust)))
    · exact (hbusy.get State.tbk (fun _ => rfl)).trans (htells.tbk.trans (hu.get State.tbk (fun _ => rfl)))

end Sys2Proof.Machine

/-! ### Pages brought in step, the pool and the pins (R186 to R193, R535 to R538) -/

namespace Sys2Proof.Machine

/-! #### Pages brought in step with what a field holds -/

/-- What steps over a list that may fail change, each within a footprint. -/
theorem Within.optionFoldl {α : Type} {m : List Comp} {f : State → α → Option State}
    (hf : ∀ s a t, f s a = some t → Within m s t) (l : List α) {s t : State}
    (h : l.foldl (fun o a => match o with
      | none => none
      | some u => f u a) (some s) = some t) : Within m s t := by
  have hnone : ∀ l : List α, l.foldl (fun o a => match o with
      | none => none
      | some u => f u a) none = none := by
    intro l
    induction l with
    | nil => rfl
    | cons a l ih => exact ih
  induction l generalizing s with
  | nil =>
    obtain rfl : s = t := Option.some.inj h
    exact Within.refl _ _
  | cons a l ih =>
    rw [List.foldl_cons] at h
    dsimp only at h
    cases hstep : f s a with
    | none =>
      rw [hstep, hnone] at h
      cases h
    | some u =>
      rw [hstep] at h
      exact (hf s a u hstep).trans (ih h)

theorem Within.frameFor {s : State} (f : Nat) (part : Part) (half : Nat) {o : State × Loc} (h : s.frameFor f part half = some o) :
    Within [.fields] s o.1 := by
  have hcheck (x : Field) (due : Prop) [Decidable due] {t : State} (hdue : (if due then match s.freeFrame x .check 0 with
      | none => none
      | some l => some (s.setField f (x.addPage ⟨none, .check, 0, x.checks, true⟩ l s.tbk false))
      else some s) = some t) : Within [.fields] s t := by
    split at hdue
    · split at hdue
      · cases hdue
      · cases hdue
        exact Within.setField _ _ _
    · cases hdue
      exact Within.refl _ _
  unfold State.frameFor at h
  split at h
  · cases h
  · dsimp only at h
    split at h
    · cases h
    · split at h
      · cases h
      · next t hdue =>
        split at h
        · cases h
        · split at h
          · cases h
          · cases h
            exact hcheck _ _ hdue

theorem Within.allocPage {s : State} (f : Nat) (k : Need4) {t : State} (h : s.allocPage f k = some t) : Within [.fields] s t := by
  unfold State.allocPage at h
  split at h
  · cases h
  · split at h
    · next u l hframe =>
      cases h
      exact (Within.frameFor f k.part k.half hframe).trans (Within.modField _ _ _)
    · dsimp only at h
      split at h
      · cases h
      · split at h
        · cases h
        · cases h
          exact Within.setField _ _ _

theorem Within.allocNeeded {s t : State} (f : Nat) (h : s.allocNeeded f = some t) : Within [.fields] s t :=
  Within.optionFoldl (fun _ k _ => Within.allocPage f k) _ h

theorem Within.liftPage {s t : State} (f : Nat) (p : Page) (h : s.liftPage f p = some t) : Within [.fields] s t := by
  unfold State.liftPage at h
  split at h
  · split at h
    · cases h
    · next u l hframe =>
      cases h
      exact (Within.frameFor f p.part p.half hframe).trans (Within.modField _ _ _)
  · cases h
    exact Within.refl _ _

theorem Within.liftPinned {s t : State} (f : Nat) (h : s.liftPinned f = some t) : Within [.fields] s t := by
  unfold State.liftPinned at h
  split at h
  · cases h
    exact Within.refl _ _
  · exact Within.optionFoldl (fun _ p _ => Within.liftPage f p) _ h

/-- Bringing the pages of a field in step touches its memory alone. -/
theorem Within.syncCapacity {s t : State} (f : Nat) (h : s.syncCapacity f = some t) :
    Within [.fields, .compactQueue, .cores, .granary, .badChunks] s t := by
  unfold State.syncCapacity at h
  split at h
  · cases h
  · next u halloc =>
    exact (((Within.freeUnneeded s f).then (Within.allocNeeded f halloc) (by decide)).then (Within.markPins u f) (by decide)).then
      (Within.liftPinned f h) (by decide)

theorem Within.syncPages {s t : State} (f : Nat) (h : s.syncPages f = some t) :
    Within [.fields, .compactQueue, .cores, .granary, .badChunks] s t := by
  unfold State.syncPages at h
  split at h
  · cases h
  · next u hsync =>
    split at h
    · cases h
      exact (Within.syncCapacity f hsync).then (Within.pinLines u f) (by decide)
    · cases h

theorem Within.setIndex (s : State) (key : Nat) (x : Index) : Within [.indexes] s (s.setIndex key x) := rfl

theorem Within.tighten (s : State) (f : Nat) (q : Pin) : Within [.fields] s (s.tighten f q) := Within.modField _ _ _

/-! #### PAGE_POOL_GRANT -/

section Pool
variable {s : State} {ring : Nat} {dma : Dma} {c : Cmd} {f : Field}

theorem field?_readBlock (s : State) (c : Cmd) (st : Option Nat) (fn : Nat) : (s.readBlock c st).field? fn = s.field? fn := by
  obtain ⟨out, h⟩ := s.readBlock_eq c st
  rw [h]
  rfl

/-- A command that is accepted settles alike before and after the read of its block. -/
theorem settle_readBlock (s : State) (c : Cmd) (st : Option Nat) (dma : Dma) (a : Admit) :
    (s.readBlock c st).settle c dma (.accept a) = s.settle c dma (.accept a) := by
  obtain ⟨out, h⟩ := s.readBlock_eq c st
  rw [h]
  rfl

theorem exec_pagePoolGrant_of_grant (h : s.admits 0x30 ring dma c = true) (hfield : s.field? (ringFn c.ring) = some f)
    (hgrant : num c.pkt 16 1 = 0) {count : Nat} (hcount : num c.pkt 20 4 = count) {new : List (BitVec 64)}
    (hnew : grantAddrs (ctxOf c dma).block count = new) (hblock : c.pbValid = true)
    (hlen : 8 * count ≤ (ctxOf c dma).block.length) (haddrs : ∀ a ∈ new, a.toNat % 2097152 = 0 ∧ a ∉ f.pool) (hnodup : new.Nodup)
    (hquota : f.pool.length + count ≤ f.cfg.poolPages) :
    exec (.pagePoolGrant ring dma) s = ended s ((s.readBlock c none).setField (ringFn c.ring) { f with pool := f.pool ++ new }) c dma
      (info2 (f.pool.length + count) 0) [] := by
  obtain ⟨x, hx⟩ : ∃ x, x = ctxOf c dma := ⟨_, rfl⟩
  have hpkt : x.pkt = c.pkt := by rw [hx]; rfl
  have hfn : x.fn = ringFn c.ring := by rw [hx]; rfl
  have hhas : x.hasBlock = true := by rw [hx]; exact hblock
  rw [← hx] at hlen hnew
  have hpass : ∀ y ∈ [(!x.hasBlock || decide (x.block.length < 8 * count), stBAD_LENGTH),
      (new.any (fun a => a.toNat % pageSize != 0 || f.pool.contains a) || !decide new.Nodup, stBAD_VALUE),
      (decide (f.cfg.poolPages < f.pool.length + count), stLIMIT)], y.1 = false := by
    simp only [List.forall_mem_cons, List.not_mem_nil, false_implies, implies_true, and_true]
    refine ⟨by simp [hhas, hlen], ?_, by simpa using hquota⟩
    simp only [hnodup, decide_true, Bool.not_true, Bool.or_false, List.any_eq_false, Bool.or_eq_true, not_or, bne_iff_ne,
      ne_eq, not_not, List.contains_iff_mem]
    exact haddrs
  change execPagePoolGrant ring dma s = _
  rw [execPagePoolGrant, State.runPacket_of_admits h, ← hx]
  simp only [hfn, field?_readBlock, hfield, hpkt, hgrant]
  rw [State.poolGrant, hpkt, hcount, hnew]
  dsimp only
  rw [checks_of_forall hpass, hfn]
  exact congrArg Host.Outcome.next (settle_readBlock s c none dma _)

theorem exec_pagePoolGrant_of_reclaim (h : s.admits 0x30 ring dma c = true) (hfield : s.field? (ringFn c.ring) = some f)
    (hreclaim : num c.pkt 16 1 = 1) (haddr : num c.pkt 24 8 % 64 = 0) {gone left : List (BitVec 64)}
    (hgone : gone = f.freeSlots.take (min (num c.pkt 20 4) (num c.pkt 32 4 / 8)))
    (hleft : left = f.pool.filter (fun a => !gone.contains a)) :
    exec (.pagePoolGrant ring dma) s = ended s ((s.readBlock c none).setField (ringFn c.ring) { f with pool := left }) c dma
      (info2 left.length gone.length) [(num c.pkt 24 8, gone.flatMap (fun a => leBytes 8 a.toNat))] := by
  obtain ⟨x, hx⟩ : ∃ x, x = ctxOf c dma := ⟨_, rfl⟩
  have hpkt : x.pkt = c.pkt := by rw [hx]; rfl
  have hfn : x.fn = ringFn c.ring := by rw [hx]; rfl
  have hpass : ∀ y ∈ [(num c.pkt 24 8 % 64 != 0, stBAD_VALUE)], y.1 = false := by simp [haddr]
  change execPagePoolGrant ring dma s = _
  rw [execPagePoolGrant, State.runPacket_of_admits h, ← hx]
  simp only [hfn, field?_readBlock, hfield, hpkt, hreclaim]
  rw [State.poolReclaim, hpkt, ← hgone]
  dsimp only
  rw [checks_of_forall hpass, hfn, ← hleft]
  exact congrArg Host.Outcome.next (settle_readBlock s c none dma _)

end Pool

/-! #### Pins -/

theorem mem_of_mem_filter_covers (x : Index) (q r : Pin) (h : r ∈ x.pins.filter (fun o => !q.covers o)) : r ∈ x.pins :=
  (List.mem_filter.mp h).1

/-- R193: the class C queries of an index. -/
def State.certifiedQueries (s : State) (key : Nat) : List Query := (s.queriesOf key).filter (fun p => p.cls == 0)

theorem certifiedQueries_eq_nil_iff (s : State) (key : Nat) :
    s.certifiedQueries key = [] ↔ ∀ r ∈ s.queries, indexKey r.field r.index = key → r.cls ≠ 0 := by
  simp only [State.certifiedQueries, State.queriesOf, List.filter_eq_nil_iff, List.mem_filter, beq_iff_eq, and_imp, ne_eq]

/-- The pages in a pin's scope that the class C queries of the index may read. -/
def State.keptPages (s : State) (key : Nat) (q : Pin) (x : Index) : List Page :=
  (s.pagesIn (key / 64) (key % 64) q).filter (fun p =>
    ((s.certifiedSpans key x (s.certifiedQueries key)).flatMap (fun a => (s.spanOf (key / 64) a).map (fun p => p.1.num))).contains p.num)

/-- R193: a pin that keeps pages for queries until these complete; none where no page is to be kept. -/
def keepPin (q : Pin) (granary : Bool) (qs : List Query) (l : List Page) : List Pin :=
  if l.isEmpty then []
  else [{ q with
    on := true, gddr := !granary, granary := granary, forQueries := some (qs.map (fun p => p.ref))
    kept := l.map (fun p => (p.part, p.half, p.n)) }]

/-- R193: the pins that keep pages for the class C queries of an index. -/
def State.keepPins (s : State) (key : Nat) (q : Pin) (x : Index) : List Pin :=
  if (s.certifiedQueries key).isEmpty then []
  else keepPin q true (s.certifiedQueries key) ((s.keptPages key q x).filter (fun p => q.granary && p.pinGranary)) ++
    keepPin q false (s.certifiedQueries key) ((s.keptPages key q x).filter (fun p => p.pinGddr))

theorem keepFor_eq (s : State) (key : Nat) (q : Pin) (x : Index) :
    s.keepFor key q x = { x with pins := s.keepPins key q x ++ x.pins } := by
  unfold State.keepFor State.keepPins
  dsimp only
  change (if (s.certifiedQueries key).isEmpty then x else _) = _
  split
  · rfl
  · rfl

theorem mem_keepPin {q k : Pin} {granary : Bool} {qs : List Query} {l : List Page} (h : k ∈ keepPin q granary qs l) :
    l ≠ [] ∧ k.on = true ∧ k.forQueries ≠ none ∧ k.scope = q.scope ∧ k.granary = granary ∧ k.gddr = !granary ∧
      k.kept = l.map (fun p => (p.part, p.half, p.n)) := by
  unfold keepPin at h
  split at h
  · cases h
  · next hne =>
    rw [List.mem_singleton.mp h]
    exact ⟨by simpa using hne, rfl, Option.some_ne_none _, rfl, rfl, rfl, rfl⟩

theorem mem_keepPins {s : State} {key : Nat} {q k : Pin} {x : Index} (h : k ∈ s.keepPins key q x) :
    k.on = true ∧ k.forQueries ≠ none ∧ k.scope = q.scope ∧ (k.granary = true → q.granary = true) := by
  unfold State.keepPins at h
  split at h
  · cases h
  · rcases List.mem_append.mp h with h | h
    · obtain ⟨hne, hon, hfor, hscope, -, -, -⟩ := mem_keepPin h
      obtain ⟨p, hp⟩ := List.exists_mem_of_ne_nil _ hne
      exact ⟨hon, hfor, hscope, fun _ => (Bool.and_eq_true_iff.mp (List.mem_filter.mp hp).2).1⟩
    · obtain ⟨-, hon, hfor, hscope, hgranary, -, -⟩ := mem_keepPin h
      exact ⟨hon, hfor, hscope, fun hg => absurd (hgranary.symm.trans hg) Bool.false_ne_true⟩

/-- R193: each page that the queries may read and that is pinned is kept. -/
theorem exists_keepPins_of_kept {s : State} {key : Nat} {q : Pin} {x : Index} (hsome : s.certifiedQueries key ≠ []) {p : Page}
    (hp : p ∈ s.pagesIn (key / 64) (key % 64) q) (hpin : p.pinGddr = true)
    (hread : ∃ a ∈ s.certifiedSpans key x (s.certifiedQueries key), ∃ b ∈ s.spanOf (key / 64) a, b.1.num = p.num) :
    ∃ k ∈ s.keepPins key q x, k.gddr = true ∧ (p.part, p.half, p.n) ∈ k.kept := by
  have hmem : p ∈ (s.keptPages key q x).filter (fun p => p.pinGddr) := by
    refine List.mem_filter.mpr ⟨List.mem_filter.mpr ⟨hp, ?_⟩, hpin⟩
    obtain ⟨a, ha, b, hb, hnum⟩ := hread
    exact List.contains_iff_mem.mpr (List.mem_flatMap.mpr ⟨a, ha, List.mem_map.mpr ⟨b, hb, hnum⟩⟩)
  have hkeep : keepPin q false (s.certifiedQueries key) ((s.keptPages key q x).filter (fun p => p.pinGddr)) ≠ [] := by
    rw [keepPin, if_neg (by simpa using List.ne_nil_of_mem hmem)]
    exact List.cons_ne_nil _ _
  obtain ⟨k, hk⟩ := List.exists_mem_of_ne_nil _ hkeep
  obtain ⟨-, -, -, -, -, hgddr, hkept⟩ := mem_keepPin hk
  refine ⟨k, ?_, hgddr, ?_⟩
  · rw [State.keepPins, if_neg (by simpa using hsome)]
    exact List.mem_append_right _ hk
  · rw [hkept]
    exact List.mem_map_of_mem hmem

section Pins
variable {s : State} {ring : Nat} {dma : Dma} {c : Cmd} {x : Index}

theorem exec_pagePin_of_admits (h : s.admits 0x31 ring dma c = true) {key : Nat} (hkey : indexKey (ringFn c.ring) c.idx = key)
    (hx : FMap.get? s.indexes key = some x) {q : Pin} (hq : pinIn (ctxOf c dma) true = q) (hbad : pinBad q x.p = false) {u : State}
    (hsync : ((s.setIndex key (x.addPin q)).tighten (ringFn c.ring) q).syncCapacity (ringFn c.ring) = some u)
    (hfit : q.granary = true → u.pinsFit (ringFn c.ring) (fun p => p.index == some (key % 64) &&
      u.inScope (ringFn c.ring) (u.cfg (ringFn c.ring)).mapHash p.need q) = true) :
    exec (.pagePin ring dma) s = ended s (u.pinLines (ringFn c.ring)) c dma
      ((u.pinLines (ringFn c.ring)).pagesIn (ringFn c.ring) (key % 64) q).length [] := by
  have hpass : ∀ y ∈ [(pinBad q x.p, stBAD_VALUE)], y.1 = false := by simp [hbad]
  have hroom : (q.granary && !u.pinsFit (ringFn c.ring) (fun p => p.index == some (key % 64) &&
      u.inScope (ringFn c.ring) (u.cfg (ringFn c.ring)).mapHash p.need q)) = false := by
    rw [Bool.and_eq_false_imp]
    exact fun hg => by rw [hfit hg]; rfl
  subst hkey
  change execPagePin ring dma s = _
  rw [execPagePin, State.runPacket_of_admits_blockless rfl rfl h]
  refine congrArg (fun v => Host.Outcome.next (s.settle c dma v)) ?_
  change (match FMap.get? s.indexes (indexKey (ringFn c.ring) c.idx) with
    | none => no stBAD_INDEX
    | some x => checks [(pinBad (pinIn (ctxOf c dma) true) x.p, stBAD_VALUE)] _) = _
  rw [hx, hq]
  dsimp only
  rw [checks_of_forall hpass]
  change (match ((s.setIndex (indexKey (ringFn c.ring) c.idx) (x.addPin q)).tighten (ringFn c.ring) q).syncCapacity (ringFn c.ring) with
    | none => no stNO_CAPACITY
    | some t => _) = _
  rw [hsync]
  exact if_neg (ne_true_of_eq_false hroom)

theorem exec_pageUnpin_of_admits (h : s.admits 0x32 ring dma c = true) {key : Nat} (hkey : indexKey (ringFn c.ring) c.idx = key)
    (hx : FMap.get? s.indexes key = some x) {q : Pin} (hq : pinIn (ctxOf c dma) false = q) (hbad : pinBad q x.p = false) :
    ∃ n, exec (.pageUnpin ring dma) s =
      ended s ((s.setIndex key (s.keepFor key q (x.addPin q))).releasePages (ringFn c.ring)) c dma n [] := by
  have hpass : ∀ y ∈ [(pinBad q x.p, stBAD_VALUE)], y.1 = false := by simp [hbad]
  subst hkey
  change ∃ n, execPageUnpin ring dma s = _
  rw [execPageUnpin, State.runPacket_of_admits_blockless rfl rfl h]
  change ∃ n, Host.Outcome.next (s.settle c dma (match FMap.get? s.indexes (indexKey (ringFn c.ring) c.idx) with
    | none => no stBAD_INDEX
    | some x => checks [(pinBad (pinIn (ctxOf c dma) false) x.p, stBAD_VALUE)] _)) = _
  rw [hx, hq]
  dsimp only
  rw [checks_of_forall hpass]
  exact ⟨_, rfl⟩

end Pins

/-- An index that a change within the memory leaves as it was set. -/
theorem get?_indexes_of_within {s t : State} {key : Nat} {x : Index}
    (h : Within [.fields, .compactQueue, .cores, .granary, .badChunks] (s.setIndex key x) t) :
    FMap.get? t.indexes key = some x ∧ (∀ k, k ≠ key → FMap.get? t.indexes k = FMap.get? s.indexes k) ∧ s.ringsKept t ∧
      t.cmds = s.cmds := by
  have hindexes : t.indexes = FMap.set s.indexes key x := h.get State.indexes (fun _ => rfl)
  refine ⟨by rw [hindexes, FMap.get?_set_self], fun k hk => by rw [hindexes, FMap.get?_set_ne _ _ (Ne.symm hk)],
    State.ringsKept_of_rings_eq (h.get State.rings (fun _ => rfl)), h.get State.cmds (fun _ => rfl)⟩

/-- Settles O30: the pool's list of pages, and the pins put first among those of the index. -/
theorem pagePoolAndPins : Obligations.PagePoolAndPins := by
  unfold Obligations.PagePoolAndPins
  refine ⟨?pool, ?pins⟩
  case pool =>
    intro s ring dma c f h fn count new gone left hfield
    exact ⟨fun hgrant hblock hlen haddrs hnodup hquota =>
      exec_pagePoolGrant_of_grant h hfield hgrant rfl rfl hblock hlen haddrs hnodup hquota,
      fun hreclaim haddr => exec_pagePoolGrant_of_reclaim h hfield hreclaim haddr rfl rfl⟩
  case pins =>
    intro s ring dma c x f key hx
    have hfield : key / 64 = f := by
      have hidx : c.idx < 64 := Nat.mod_lt _ (by decide)
      change (f * 64 + c.idx) / 64 = f
      omega
    refine ⟨?pin, ?unpin⟩
    case pin =>
      intro u h q hbad hsync hfit
      have hwithin : Within [.fields, .compactQueue, .cores, .granary, .badChunks] (s.setIndex key (x.addPin q)) (u.pinLines f) :=
        ((((Within.tighten _ f q).mono (by decide)).then (Within.syncCapacity f hsync) (by decide))).then (Within.pinLines u f) (by decide)
      obtain ⟨hindex, hothers, hrings, hcmds⟩ := get?_indexes_of_within hwithin
      exact ⟨_, _, exec_pagePin_of_admits h rfl hx rfl hbad hsync hfit,
        ⟨_, hindex, fun r hr => mem_of_mem_filter_covers x q r hr⟩, hothers, hrings, hcmds⟩
    case unpin =>
      intro h q hbad
      obtain ⟨n, hexec⟩ := exec_pageUnpin_of_admits h rfl hx rfl hbad
      rw [keepFor_eq] at hexec
      obtain ⟨hindex, hothers, hrings, hcmds⟩ := get?_indexes_of_within ((Within.releasePages (s.setIndex key
        { x.addPin q with pins := s.keepPins key q (x.addPin q) ++ (x.addPin q).pins }) f))
      refine ⟨_, n, _, hexec, hindex, fun hnone => ?_, fun hsome => ?_, hothers, hrings, hcmds⟩
      · have hkeep : s.keepPins key q (x.addPin q) = [] := by
          rw [State.keepPins, (certifiedQueries_eq_nil_iff s key).mpr hnone]
          rfl
        rw [hkeep]
        exact ⟨_, rfl, fun r hr => mem_of_mem_filter_covers x q r hr⟩
      · have hne : s.certifiedQueries key ≠ [] := by
          obtain ⟨r, hr, hkey, hcls⟩ := hsome
          exact fun hnil => (certifiedQueries_eq_nil_iff s key).mp hnil r hr hkey hcls
        refine ⟨_, _, rfl, fun r hr => mem_of_mem_filter_covers x q r hr, fun k hk => mem_keepPins hk, fun p hp hpin hread => ?_⟩
        rw [← hfield] at hp hread
        exact exists_keepPins_of_kept hne hp hpin hread

end Sys2Proof.Machine

/-! ### The standby lead, slot copies and the scrub between copies (R596, R597, R602 to R606) -/

namespace Sys2Proof.Machine

theorem FMap.get?_mapVals {α : Type} (m : FMap α) (f : Nat → α → α) (k : Nat) :
    FMap.get? (FMap.mapVals m f) k = (FMap.get? m k).map (f k) := by
  induction m with
  | nil => rfl
  | cons x m ih =>
    have hcons : FMap.mapVals (x :: m) f = (x.1, f x.1 x.2) :: FMap.mapVals m f := rfl
    rw [hcons, FMap.get?_cons, FMap.get?_cons, ih]
    by_cases hk : x.1 = k
    · subst hk
      rw [if_pos rfl, if_pos rfl]
      rfl
    · rw [if_neg hk, if_neg hk]

theorem out_foldl_queueFlits (l : List Nat) (s : State) (fs : List TxFlit) :
    (l.foldl (fun s p => s.queueFlits p fs) s).out = s.out := by
  induction l generalizing s with
  | nil => rfl
  | cons p l ih => exact ih _

/-- A message goes out on its route, and stands in the outputs. -/
theorem out_sendMessage (s : State) (dst kind vc : Nat) (content : Bytes) :
    (s.sendMessage dst kind vc content).out = .message dst kind content :: s.out := by
  unfold State.sendMessage
  dsimp only
  split
  · rfl
  · split
    · exact out_foldl_queueFlits _ _ _
    · split <;> rfl

/-! #### The reports of a list (R602, R603, R605) -/

theorem digestsAgree_iff (rs : List CopyReport) : digestsAgree rs = true ↔ ∀ r ∈ rs, ∀ q ∈ rs, r.data = q.data := by
  unfold digestsAgree
  split
  · simp
  · next r t =>
    rw [List.all_eq_true]
    constructor
    · intro h
      have hfirst : ∀ q ∈ r :: t, q.data = r.data := List.forall_mem_cons.mpr ⟨rfl, fun q hq => eq_of_beq (h q hq)⟩
      exact fun a ha b hb => (hfirst a ha).trans (hfirst b hb).symm
    · exact fun h q hq => beq_iff_eq.mpr (h q (List.mem_cons_of_mem r hq) r List.mem_cons_self)

/-- How many reports agree with one. -/
def agreeing (rs : List CopyReport) (r : CopyReport) : Nat := (rs.filter (fun q => q.data == r.data)).length

theorem agreeing_le (rs : List CopyReport) (r : CopyReport) : agreeing rs r ≤ rs.length := List.length_filter_le _ _

/-- Reports that differ agree with different ones. -/
theorem agreeing_add_le {rs : List CopyReport} {a b : CopyReport} (h : a.data ≠ b.data) : agreeing rs a + agreeing rs b ≤ rs.length := by
  unfold agreeing
  induction rs with
  | nil => exact Nat.le_refl _
  | cons r rs ih =>
    by_cases ha : r.data = a.data
    · have hb : r.data ≠ b.data := fun hb => h (ha.symm.trans hb)
      simp only [List.filter_cons, ha, beq_self_eq_true, if_true, List.length_cons, show (a.data == b.data) = false from by simpa using h,
        Bool.false_eq_true, if_false]
      omega
    · have hno : (r.data == a.data) = false := by simpa using ha
      simp only [List.filter_cons, hno, Bool.false_eq_true, if_false, List.length_cons]
      split
      · rw [List.length_cons]
        omega
      · omega

theorem agreeing_congr (rs : List CopyReport) {a b : CopyReport} (h : a.data = b.data) : agreeing rs a = agreeing rs b := by
  unfold agreeing
  rw [h]

/-- R605: a strict majority is the largest set of equal digests. -/
theorem agreeing_eq_maxBy {rs : List CopyReport} {r : CopyReport} (hr : r ∈ rs) (h : rs.length < 2 * agreeing rs r) :
    agreeing rs r = maxBy (agreeing rs) rs := by
  refine Nat.le_antisymm (le_maxBy (agreeing rs) rs hr) (maxBy_le fun q _ => ?_)
  by_cases hdata : r.data = q.data
  · exact Nat.le_of_eq (agreeing_congr rs hdata.symm)
  · have hsum := agreeing_add_le (rs := rs) hdata
    omega

theorem mem_map_ordinal_iff {l rs : List CopyReport} (hsub : ∀ q ∈ l, q ∈ rs) (hnodup : (rs.map (fun r => r.ordinal)).Nodup)
    {r : CopyReport} (hr : r ∈ rs) : r.ordinal ∈ l.map (fun r => r.ordinal) ↔ r ∈ l := by
  constructor
  · intro h
    obtain ⟨q, hq, hord⟩ := List.mem_map.mp h
    rwa [← List.inj_on_of_nodup_map hnodup (hsub q hq) hr hord]
  · exact fun h => List.mem_map_of_mem h

/-- R605: every copy is fenced but those of a strict majority. -/
theorem mem_toFence_iff {rs : List CopyReport} (hnodup : (rs.map (fun r => r.ordinal)).Nodup) {r : CopyReport} (hr : r ∈ rs) :
    r.ordinal ∈ toFence rs ↔ ¬ rs.length < 2 * agreeing rs r := by
  have hle := le_maxBy (agreeing rs) rs hr
  change r.ordinal ∈ (if rs.length < 2 * maxBy (agreeing rs) rs then
    (rs.filter (fun r => agreeing rs r != maxBy (agreeing rs) rs)).map (fun r => r.ordinal) else rs.map (fun r => r.ordinal)) ↔ _
  split
  · next hmajority =>
    rw [mem_map_ordinal_iff (fun q hq => (List.mem_filter.mp hq).1) hnodup hr, List.mem_filter, bne_iff_ne]
    constructor
    · exact fun h hlt => h.2 (agreeing_eq_maxBy hr hlt)
    · exact fun h => ⟨hr, fun heq => h (by rw [heq]; exact hmajority)⟩
  · next hnone =>
    refine iff_of_true (List.mem_map_of_mem hr) ?_
    omega

/-! #### What a comparison changes -/

theorem Within.scrubPad (s : State) (field index list m : Nat) :
    Within [.out, .rings, .log, .counters, .fns, .ports] s (s.scrubPad field index list m) :=
  ((Within.logEvent s _ _ _ _ _).mono (by decide)).then (Within.sendMessage _ _ _ _ _) (by decide)

theorem Within.charge (s : State) (f n : Nat) : Within [.fields] s (s.charge f n) := Within.modField _ _ _

theorem Within.refreshCasc (s : State) : Within [.casc] s s.refreshCasc := Within.ite (Within.setCasc _ _) (Within.refl _ _)

theorem Within.scrubCompare (s : State) (field index slot list : Nat) (x : Index) (rs : List CopyReport) :
    Within [.out, .rings, .log, .counters, .fns, .ports, .indexes, .casc] s (s.scrubCompare field index slot list x rs) := by
  have hlogs (ms : List Nat) : Within [.out, .rings, .log, .counters, .fns] s (ms.foldl (fun s m =>
      s.logEvent evSCRUB_DATA field (Config.severity evSCRUB_DATA) noUnit (scrubDetail index list m)) s) :=
    Within.foldl _ _ (fun _ _ h => h.trans (Within.logEvent _ _ _ _ _ _)) (Within.refl _ _)
  unfold State.scrubCompare
  split
  · exact Within.foldl _ _ (fun _ _ h => h.then (Within.scrubPad _ _ _ _ _) (by decide)) (Within.refl _ _)
  · exact (((hlogs _).mono (by decide)).then (Within.setIndex _ _ _) (by decide)).then (Within.refreshCasc _) (by decide)

/-- R604: copies that agree have padding rewritten, and no more. -/
theorem Within.scrubCompare_of_agree (s : State) (field index slot list : Nat) (x : Index) {rs : List CopyReport}
    (h : digestsAgree rs = true) :
    Within [.out, .rings, .log, .counters, .fns, .ports] s (s.scrubCompare field index slot list x rs) := by
  rw [State.scrubCompare, if_pos h]
  exact Within.foldl _ _ (fun _ _ h => h.trans (Within.scrubPad _ _ _ _ _)) (Within.refl _ _)

/-- R605: copies that differ are fenced. -/
theorem indexes_scrubCompare_of_differ (s : State) (field index slot list : Nat) (x : Index) {rs : List CopyReport}
    (h : digestsAgree rs = false) : (s.scrubCompare field index slot list x rs).indexes =
      FMap.set s.indexes (indexKey field index)
        { x with fenced := (x.fenced ++ (toFence rs).map (fun m => (slot, m))).eraseDups } := by
  have hlogs (ms : List Nat) : Within [.out, .rings, .log, .counters, .fns] s (ms.foldl (fun s m =>
      s.logEvent evSCRUB_DATA field (Config.severity evSCRUB_DATA) noUnit (scrubDetail index list m)) s) :=
    Within.foldl _ _ (fun _ _ h => h.trans (Within.logEvent _ _ _ _ _ _)) (Within.refl _ _)
  rw [State.scrubCompare, if_neg (ne_true_of_eq_false h), State.scrubData]
  rw [(Within.refreshCasc _).get State.indexes (fun _ => rfl)]
  exact congrArg (fun m => FMap.set m _ _) ((hlogs (toFence rs)).get State.indexes (fun _ => rfl))

/-! #### The commands -/

theorem exec_slotCopy_of_fenced {s : State} {field index slot ordinal m : Nat} {x : Index} (hcompleting : s.completing = true)
    (hleads : s.leads = true) (hx : s.index? field index = some x) (h0 : x.p.cascMode ≠ 0) (h2 : x.p.cascMode ≠ 2)
    (hfenced : (slot, ordinal) ∈ x.fenced) (hcopied : (slot, ordinal) ∉ x.copied) (hmember : s.casc.isMember ordinal = true)
    (hfrom : argMin (fun m => m) (s.slotCopies x slot) = some m) : exec (.slotCopy field index slot ordinal) s =
      .next ((s.setIndex (indexKey field index) { x with copied := x.copied ++ [(slot, ordinal)] }).sendMessage m msgSLOT_COPY 2
        (leBytes 1 field ++ leBytes 1 index ++ leBytes 2 slot ++ leBytes 1 ordinal)) := by
  have hguard : (x.p.cascMode == 0 || x.p.cascMode == 2 || !x.fenced.contains (slot, ordinal) || x.copied.contains (slot, ordinal) ||
      !s.casc.isMember ordinal) = false := by
    simp [h0, h2, hfenced, hcopied, hmember]
  change execSlotCopy field index slot ordinal s = _
  rw [execSlotCopy, hcompleting, hleads]
  simp only [hx, hguard, hfrom]
  rfl

/-- R603: the reports that the lead compares. -/
def State.reports (s : State) (field index slot list : Nat) (copies : List CopyReport) (x : Index) : List CopyReport :=
  (s.ownReport field index list x :: copies.filter (fun r => r.ordinal != s.casc.ordinal)).filter
    (fun r => (s.slotCopies x slot).contains r.ordinal)

theorem exec_scrubListCompare_of_idle {s : State} {field index slot list : Nat} (copies : List CopyReport) {x : Index}
    (hcompleting : s.completing = true) (hrole : s.leads = true ∨ s.follows = true) (hx : s.index? field index = some x)
    (hmode : x.p.cascMode = 3 ∨ x.p.cascMode = 4) (hidle : s.compacting (indexKey field index) list = false) :
    exec (.scrubListCompare field index slot list copies) s = .next (
      if s.follows then (s.charge field (s.scrubBytes field index x list)).sendMessage s.casc.leadOrdinal msgSCRUB 2
        (leBytes 1 field ++ leBytes 1 index ++ leBytes 2 slot ++ leBytes 4 list ++ (s.ownReport field index list x).bytes)
      else if (s.slotCopies x slot).all (fun m => (s.reports field index slot list copies x).any (fun r => r.ordinal == m)) then
        (s.charge field (s.scrubBytes field index x list)).scrubCompare field index slot list x (s.reports field index slot list copies x)
      else s) := by
  have hguard : (!s.completing || !(s.leads || s.follows)) = false := by
    rcases hrole with h | h <;> simp [hcompleting, h]
  have hready : ((x.p.cascMode != 3 && x.p.cascMode != 4) || s.compacting (indexKey field index) list) = false := by
    rcases hmode with h | h <;> simp [h, hidle]
  change execScrubListCompare field index slot list copies s = _
  rw [execScrubListCompare, hguard]
  simp only [hx, hready, Bool.false_eq_true, if_false]
  split
  · rfl
  · exact (apply_ite Host.Outcome.next _ _ _).symm

theorem not_follows_of_leads {s : State} (h : s.leads = true) : s.follows = false := by
  simp only [State.leads, Bool.and_eq_true, beq_iff_eq] at h
  simp [State.follows, h.2]

/-- Settles O55: the standby lead's list, the copy of a fenced slot, and the comparison of the reports. -/
theorem copiesAndScrub : Obligations.CopiesAndScrub := by
  unfold Obligations.CopiesAndScrub
  refine ⟨?standby, ?copy, ?scrub, fun rs hnodup r hr => mem_toFence_iff hnodup hr⟩
  case standby =>
    intro s i hup hformed hrole
    have hexec : exec (.standbySync i) s =
        .next (s.setCasc { s.casc with standby := s.casc.standby.filter (fun j => !sameItem i j) ++ [i] }) := by
      change execStandbySync i s = _
      rw [execStandbySync, hup, hformed, hrole]
      rfl
    refine ⟨_, hexec, rfl, rfl, List.getLast?_concat, fun j hj => ?_⟩
    change j ∈ s.casc.standby.filter (fun j => !sameItem i j) ++ [i] ↔ _
    simp [hj]
  case copy =>
    intro s field index slot ordinal m x hcompleting hleads hx h0 h2 hfenced hcopied hmember hfrom
    have hsend := Within.sendMessage (s.setIndex (indexKey field index) { x with copied := x.copied ++ [(slot, ordinal)] }) m msgSLOT_COPY 2
      (leBytes 1 field ++ leBytes 1 index ++ leBytes 2 slot ++ leBytes 1 ordinal)
    exact ⟨_, exec_slotCopy_of_fenced hcompleting hleads hx h0 h2 hfenced hcopied hmember hfrom,
      hsend.get State.indexes (fun _ => rfl), out_sendMessage _ _ _ _ _, hsend.get State.fields (fun _ => rfl),
      hsend.get State.cmds (fun _ => rfl)⟩
  case scrub =>
    intro s field index slot list copies x hcompleting hx hmode hidle own serving rs i
    obtain ⟨u, hu⟩ : ∃ u, u = s.charge field (s.scrubBytes field index x list) := ⟨_, rfl⟩
    have hcharge : Within [.fields] s u := by
      rw [hu]
      exact Within.charge _ _ _
    have hall : serving.all (fun m => rs.any (fun r => r.ordinal == m)) = true ↔ ∀ m ∈ serving, ∃ r ∈ rs, r.ordinal = m := by
      simp
    refine ⟨rfl, rfl, List.length_map _, fun hfollows => ?_, fun hleads hmissing => ?_, fun hleads hthere => ?_⟩
    · have hexec := exec_scrubListCompare_of_idle (slot := slot) copies hcompleting (.inr hfollows) hx hmode hidle
      rw [if_pos hfollows, ← hu] at hexec
      have hsend := Within.sendMessage u s.casc.leadOrdinal msgSCRUB 2
        (leBytes 1 field ++ leBytes 1 index ++ leBytes 2 slot ++ leBytes 4 list ++ (s.ownReport field index list x).bytes)
      exact ⟨_, hexec, (hsend.get State.indexes (fun _ => rfl)).trans (hcharge.get State.indexes (fun _ => rfl)),
        (hsend.get State.cmds (fun _ => rfl)).trans (hcharge.get State.cmds (fun _ => rfl)),
        (out_sendMessage _ _ _ _ _).trans (congrArg _ (hcharge.get State.out (fun _ => rfl)))⟩
    · have hexec := exec_scrubListCompare_of_idle (slot := slot) copies hcompleting (.inl hleads) hx hmode hidle
      have hnot : ¬ serving.all (fun m => rs.any (fun r => r.ordinal == m)) = true := by
        rw [hall]
        intro h
        obtain ⟨m, hm, hno⟩ := hmissing
        obtain ⟨r, hr, hord⟩ := h m hm
        exact hno r hr hord
      rw [not_follows_of_leads hleads, if_neg Bool.false_ne_true] at hexec
      exact hexec.trans (congrArg Host.Outcome.next (if_neg hnot))
    · have hexec := exec_scrubListCompare_of_idle (slot := slot) copies hcompleting (.inl hleads) hx hmode hidle
      rw [not_follows_of_leads hleads, if_neg Bool.false_ne_true, ← hu] at hexec
      have hcompare := Within.scrubCompare u field index slot list x rs
      refine ⟨_, hexec.trans (congrArg Host.Outcome.next (if_pos (hall.mpr hthere))),
        (hcompare.get State.cmds (fun _ => rfl)).trans (hcharge.get State.cmds (fun _ => rfl)),
        (hcompare.get State.tbk (fun _ => rfl)).trans (hcharge.get State.tbk (fun _ => rfl)), fun hagree => ?_, fun hdiffer => ?_⟩
      · have hpads := Within.scrubCompare_of_agree u field index slot list x ((digestsAgree_iff rs).mpr hagree)
        exact ⟨(hpads.get State.indexes (fun _ => rfl)).trans (hcharge.get State.indexes (fun _ => rfl)),
          (hpads.get State.casc (fun _ => rfl)).trans (hcharge.get State.casc (fun _ => rfl))⟩
      · have hno : digestsAgree rs = false := by
          rw [← Bool.not_eq_true, digestsAgree_iff]
          intro h
          obtain ⟨r, hr, q, hq, hne⟩ := hdiffer
          exact hne (h r hr q hq)
        have hindexes : (u.scrubCompare field index slot list x rs).indexes = FMap.set s.indexes (indexKey field index)
            { x with fenced := (x.fenced ++ (toFence rs).map (fun m => (slot, m))).eraseDups } := by
          rw [indexes_scrubCompare_of_differ u field index slot list x hno, hcharge.get State.indexes (fun _ => rfl)]
        refine ⟨{ x with fenced := (x.fenced ++ (toFence rs).map (fun m => (slot, m))).eraseDups }, ?_, rfl, fun e => ?_, fun k hk => ?_⟩
        · exact (congrArg (fun m => FMap.get? m (indexKey field index)) hindexes).trans (FMap.get?_set_self _ _ _)
        · change e ∈ (x.fenced ++ (toFence rs).map (fun m => (slot, m))).eraseDups ↔ _
          rw [List.mem_eraseDups, List.mem_append, List.mem_map]
          refine or_congr_right ⟨?_, ?_⟩
          · rintro ⟨m, hm, rfl⟩
            exact ⟨rfl, hm⟩
          · rintro ⟨rfl, hm⟩
            exact ⟨_, hm, rfl⟩
        · exact (congrArg (fun m => FMap.get? m k) hindexes).trans (FMap.get?_set_ne _ _ (Ne.symm hk))

end Sys2Proof.Machine

/-! ### The census and the members of a cascade (Table 10.8; R207 to R210, R574 to R578, R593, R594, R597, R599, R600) -/

namespace Sys2Proof.Machine

/-! #### What a census leaves -/

/-- Between states 2 and 3 the coverage of the indexes stays. -/
theorem allCovered_setCasc_state {s : State} (h : s.cascFormed = true) {st : Nat} (hst : st = 2 ∨ st = 3) :
    (s.setCasc { s.casc with state := st }).allCovered = s.allCovered := by
  have hformed : (s.setCasc { s.casc with state := st }).cascFormed = s.cascFormed := by
    rw [h]
    rcases hst with rfl | rfl <;> rfl
  have hcovered (x : Index) (k : Nat) : (s.setCasc { s.casc with state := st }).slotCovered x k = s.slotCovered x k := by
    unfold State.slotCovered State.slotCopies
    rw [hformed]
    rfl
  unfold State.allCovered
  simp only [hcovered]
  rfl

theorem censusState_cases (s : State) : s.censusState = 2 ∨ s.censusState = 3 := by
  unfold State.censusState
  split
  · exact .inl rfl
  · exact .inr rfl

/-- R593: a formed cascade's state follows its coverage. -/
theorem state_setCasc_censusState {s : State} (h : s.cascFormed = true) :
    (s.setCasc { s.casc with state := s.censusState }).casc.state =
      if (s.setCasc { s.casc with state := s.censusState }).allCovered then 2 else 3 := by
  rw [allCovered_setCasc_state h (censusState_cases s)]
  rfl

/-- Routing sets the hops and the way of routing alone. -/
theorem routed_eq (x : Cascade) : ∃ (hops : Nat → Nat) (tree : Bool), x.routed = { x with
    records := FMap.mapVals x.records (fun m r => { r with hops := hops m }), treeRouting := tree } :=
  ⟨fun m => FMap.getD ({ x with treeRouting := !x.complete } : Cascade).dist m 0, !x.complete, rfl⟩

section Census
variable (s : State) (records : FMap CensusRec)

/-- The cascade that a census leaves: the records with their hops, and the state that the coverage gives. -/
theorem casc_census : ∃ (hops : Nat → Nat) (tree : Bool) (st : Nat), (s.census records).casc = { s.casc with
    records := FMap.mapVals records (fun m r => { r with hops := hops m })
    tCensus := s.tbk, treeRouting := tree, state := st } := by
  have hplaced : (s.census records).casc = (s.censusPlaced records).casc :=
    ((census_told s records).get State.casc (fun _ => rfl)).trans ((Within.censusTold _).get State.casc (fun _ => rfl))
  obtain ⟨hops, tree, hrouted⟩ := routed_eq { s.casc with records := records, tCensus := s.tbk }
  obtain ⟨st, hst⟩ : ∃ st, (s.censusPlaced records).casc =
    { ({ s.casc with records := records, tCensus := s.tbk } : Cascade).routed with state := st } := ⟨_, rfl⟩
  exact ⟨hops, tree, st, by rw [hplaced, hst, hrouted]⟩

theorem get?_records_census (m : Nat) : ∃ hops, FMap.get? (s.census records).casc.records m =
    (FMap.get? records m).map (fun r => { r with hops := hops }) := by
  obtain ⟨hops, tree, st, hcasc⟩ := casc_census s records
  refine ⟨hops m, ?_⟩
  exact (congrArg (fun x : Cascade => FMap.get? x.records m) hcasc).trans 
    (FMap.get?_mapVals records (fun m r => { r with hops := hops m }) m)

theorem state_census : (s.census records).casc.state = if (s.census records).allCovered then 2 else 3 := by
  have hcasc : (s.census records).casc = (s.censusPlaced records).casc :=
    ((census_told s records).get State.casc (fun _ => rfl)).trans ((Within.censusTold _).get State.casc (fun _ => rfl))
  have hcovered : (s.census records).allCovered = (s.censusPlaced records).allCovered :=
    ((census_told s records).get State.allCovered (fun _ => rfl)).trans ((Within.censusTold _).get State.allCovered (fun _ => rfl))
  rw [hcasc, hcovered]
  exact state_setCasc_censusState (s := (s.setCasc { ({ s.casc with records := records, tCensus := s.tbk } : Cascade).routed with
    state := 2 }).syncMembers) rfl

end Census

/-! #### The records of a census -/

theorem isSome_get?_set {α : Type} {m : FMap α} {k : Nat} (h : (FMap.get? m k).isSome = true) (j : Nat) (x : α) :
    (FMap.get? (FMap.set m j x) k).isSome = true := by
  rw [FMap.get?_set]
  split
  · rfl
  · exact h

/-- Before any device is found every expected ordinal is absent. -/
theorem get?_absent {n m : Nat} (h : m < n) : FMap.get? ((List.range n).map (fun k => (k, absentRec))) m = some absentRec := by
  have hall : ∀ l : List Nat, m ∈ l → FMap.get? (l.map (fun k => (k, absentRec))) m = some absentRec := by
    intro l
    induction l with
    | nil => exact fun h => absurd h List.not_mem_nil
    | cons k l ih =>
      intro hm
      rw [List.map_cons, FMap.get?_cons]
      by_cases hk : k = m
      · rw [if_pos hk]
      · rw [if_neg hk, ih ((List.mem_cons.mp hm).resolve_left (Ne.symm hk))]
  exact hall _ (List.mem_range.mpr h)

section Records
variable (s : State) (x : Cascade)

/-- One device found, at its position. -/
def State.placeFound (s : State) (x : Cascade) (m : FMap CensusRec) (r : MemberRecord) : FMap CensusRec :=
  match x.positionOf r with
  | none => m
  | some pos => if pos < 128 ∧ pos ≠ x.ordinal then FMap.set m pos (s.foundRec x pos r) else m

theorem censusRecords_eq (found : List MemberRecord) : s.censusRecords x found =
    FMap.set (found.foldl (s.placeFound x) ((List.range x.expected).map (fun n => (n, absentRec)))) x.ordinal s.ownRecord := rfl

theorem get?_placeFound_of_other {m : FMap CensusRec} {r : MemberRecord} {k : Nat} (h : x.positionOf r ≠ some k) :
    FMap.get? (s.placeFound x m r) k = FMap.get? m k := by
  unfold State.placeFound
  split
  · rfl
  · next pos hpos =>
    split
    · exact FMap.get?_set_ne _ _ (fun heq => h (by rw [hpos, heq]))
    · rfl

theorem isSome_get?_placeFound {m : FMap CensusRec} {k : Nat} (h : (FMap.get? m k).isSome = true) (r : MemberRecord) :
    (FMap.get? (s.placeFound x m r) k).isSome = true := by
  unfold State.placeFound
  split
  · exact h
  · split
    · exact isSome_get?_set h _ _
    · exact h

theorem get?_foldl_placeFound_of_none {found : List MemberRecord} {k : Nat} (h : ∀ r ∈ found, x.positionOf r ≠ some k) (m : FMap CensusRec) :
    FMap.get? (found.foldl (s.placeFound x) m) k = FMap.get? m k := by
  induction found generalizing m with
  | nil => rfl
  | cons r found ih =>
    rw [List.foldl_cons, ih (fun q hq => h q (List.mem_cons_of_mem r hq)), get?_placeFound_of_other s x (h r List.mem_cons_self)]

theorem isSome_get?_foldl_placeFound (found : List MemberRecord) {m : FMap CensusRec} {k : Nat} (h : (FMap.get? m k).isSome = true) :
    (FMap.get? (found.foldl (s.placeFound x) m) k).isSome = true := by
  induction found generalizing m with
  | nil => exact h
  | cons r found ih => exact ih (isSome_get?_placeFound s x h r)

theorem get?_foldl_placeFound_of_only {found : List MemberRecord} {r : MemberRecord} {pos : Nat} (hpos : x.positionOf r = some pos)
    (h128 : pos < 128) (hother : pos ≠ x.ordinal) (hr : r ∈ found) (honly : ∀ q ∈ found, x.positionOf q = some pos → q = r)
    (m : FMap CensusRec) : FMap.get? (found.foldl (s.placeFound x) m) pos = some (s.foundRec x pos r) := by
  have hset (m : FMap CensusRec) : FMap.get? (s.placeFound x m r) pos = some (s.foundRec x pos r) := by
    unfold State.placeFound
    rw [hpos]
    dsimp only
    rw [if_pos ⟨h128, hother⟩, FMap.get?_set_self]
  have hstays : ∀ (l : List MemberRecord), (∀ q ∈ l, x.positionOf q = some pos → q = r) → ∀ m : FMap CensusRec,
      FMap.get? m pos = some (s.foundRec x pos r) → FMap.get? (l.foldl (s.placeFound x) m) pos = some (s.foundRec x pos r) := by
    intro l
    induction l with
    | nil => exact fun _ _ hm => hm
    | cons q l ih =>
      intro hl m hm
      refine ih (fun p hp => hl p (List.mem_cons_of_mem q hp)) _ ?_
      by_cases hq : x.positionOf q = some pos
      · rw [hl q List.mem_cons_self hq]
        exact hset m
      · rw [get?_placeFound_of_other s x hq, hm]
  induction found generalizing m with
  | nil => exact absurd hr List.not_mem_nil
  | cons q found ih =>
    rw [List.foldl_cons]
    by_cases hq : q = r
    · rw [hq]
      exact hstays found (fun p hp => honly p (List.mem_cons_of_mem q hp)) _ (hset m)
    · exact ih ((List.mem_cons.mp hr).resolve_left (Ne.symm hq)) (fun p hp => honly p (List.mem_cons_of_mem q hp)) _

theorem get?_censusRecords_own (found : List MemberRecord) : FMap.get? (s.censusRecords x found) x.ordinal = some s.ownRecord :=
  FMap.get?_set_self _ _ _

theorem get?_censusRecords_absent {found : List MemberRecord} {m : Nat} (hm : m < x.expected) (hown : m ≠ x.ordinal)
    (h : ∀ r ∈ found, x.positionOf r ≠ some m) : FMap.get? (s.censusRecords x found) m = some absentRec := by
  rw [censusRecords_eq, FMap.get?_set_ne _ _ (Ne.symm hown), get?_foldl_placeFound_of_none s x h, get?_absent hm]

theorem get?_censusRecords_found {found : List MemberRecord} {r : MemberRecord} {pos : Nat} (hpos : x.positionOf r = some pos)
    (h128 : pos < 128) (hother : pos ≠ x.ordinal) (hr : r ∈ found) (honly : ∀ q ∈ found, x.positionOf q = some pos → q = r) :
    FMap.get? (s.censusRecords x found) pos = some (s.foundRec x pos r) := by
  rw [censusRecords_eq, FMap.get?_set_ne _ _ (Ne.symm hother), get?_foldl_placeFound_of_only s x hpos h128 hother hr honly]

theorem isSome_get?_censusRecords (found : List MemberRecord) {m : Nat} (hm : m < x.expected) :
    (FMap.get? (s.censusRecords x found) m).isSome = true := by
  rw [censusRecords_eq]
  exact isSome_get?_set (isSome_get?_foldl_placeFound s x found (by rw [get?_absent hm]; rfl)) _ _

end Records

/-- R597: a member lost or fallow stays so in a census re-run. -/
theorem get?_rerunRecords_of_gone (s : State) (found : List MemberRecord) {m : Nat} {r : CensusRec} (hm : m < s.casc.expected)
    (hr : FMap.get? s.casc.records m = some r) (hgone : r.status = 3 ∨ r.status = 4) :
    ∃ ports, FMap.get? (s.rerunRecords found) m = some { r with ports := ports } := by
  obtain ⟨e, he⟩ := Option.isSome_iff_exists.mp (isSome_get?_censusRecords s s.casc found hm)
  have hkept : (decide (r.status = 3) || decide (r.status = 4)) = true := by simpa using hgone
  refine ⟨e.ports, ?_⟩
  rw [State.rerunRecords, FMap.get?_mapVals, he]
  simp only [Option.map_some, hr, hkept, if_true]

theorem isSome_get?_rerunRecords (s : State) (found : List MemberRecord) {m : Nat} (hm : m < s.casc.expected) :
    (FMap.get? (s.rerunRecords found) m).isSome = true := by
  rw [State.rerunRecords, FMap.get?_mapVals, Option.isSome_map]
  exact isSome_get?_censusRecords s s.casc found hm

/-! #### Heartbeats -/

theorem out_foldl_sendMessage (l : List Nat) (s : State) (kind vc : Nat) (content : Bytes) :
    (l.foldl (fun s m => s.sendMessage m kind vc content) s).out = (l.reverse.map (fun m => Out.message m kind content)) ++ s.out := by
  induction l generalizing s with
  | nil => rfl
  | cons m l ih => rw [List.foldl_cons, ih, out_sendMessage, List.reverse_cons, List.map_append, List.append_assoc]; rfl

theorem Within.foldl_sendMessage (l : List Nat) (s : State) (kind vc : Nat) (content : Bytes) :
    Within [.out, .ports] s (l.foldl (fun s m => s.sendMessage m kind vc content) s) :=
  Within.foldl _ _ (fun _ _ h => h.trans (Within.sendMessage _ _ _ _ _)) (Within.refl _ _)

theorem exec_heartbeat_of_leads {s : State} (hcompleting : s.completing = true) (hleads : s.leads = true) :
    exec .heartbeat s = .next (s.casc.others.foldl (fun t m => t.sendMessage m msgHEARTBEAT 0
      (leBytes 8 ((s.tbk / 1000000 + 1) * 1000000))) { s with tbk := (s.tbk / 1000000 + 1) * 1000000 }) := by
  have htbk : max s.tbk (nextMultiple 1000000 s.tbk) = (s.tbk / 1000000 + 1) * 1000000 := by
    unfold nextMultiple
    omega
  change execHeartbeat s = _
  rw [execHeartbeat, hcompleting, hleads]
  simp only [State.advance, htbk, Bool.not_true, Bool.or_self, Bool.false_eq_true, if_false, State.tellMembers]
  exact congrArg Host.Outcome.next (if_pos hleads)

theorem exec_heartbeatAnswer_of_follows {s : State} (leadTbk : BitVec 64) (roundTrip : Nat) (hup : s.up = true)
    (hfollows : s.follows = true) : exec (.heartbeatAnswer leadTbk roundTrip) s =
      .next ((s.setCasc { s.casc with
        lastHeartbeat := s.tbk, leadOffset := leadTbk + BitVec.ofNat 64 (roundTrip / 2) - BitVec.ofNat 64 s.tbk }).sendMessage
        s.casc.leadOrdinal msgANSWER 0 (leBytes 1 s.casc.ordinal)) := by
  change execHeartbeatAnswer leadTbk roundTrip s = _
  rw [execHeartbeatAnswer, hup, hfollows]
  rfl

/-! #### A lost lead and a lost member (R577, R594, R599) -/

theorem exec_leadLost_of_follows {s : State} (hup : s.up = true) (hfollows : s.follows = true) : exec .leadLost s =
    .next (((((s.advance (s.casc.lastHeartbeat + 5000000)).logEvent evLEAD_LOST 0xFF (Config.severity evLEAD_LOST) noUnit
      (leBytes 1 s.casc.leadOrdinal)).setCasc s.casc.leaderless).dropCascPending).dropParts) := by
  obtain ⟨u, hu⟩ : ∃ u, u = (s.advance (s.casc.lastHeartbeat + 5000000)).logEvent evLEAD_LOST 0xFF (Config.severity evLEAD_LOST) noUnit
      (leBytes 1 s.casc.leadOrdinal) := ⟨_, rfl⟩
  have hcasc : u.casc = s.casc := by
    rw [hu]
    exact (tells_logEvent _ _ _ _ _ _).casc
  change execLeadLost s = _
  rw [execLeadLost, hup, hfollows]
  simp only [Bool.not_true, Bool.or_self, Bool.false_eq_true, if_false]
  rw [← hu, hcasc]

/-- What ends a list of commands one by one leaves the others. -/
theorem mem_cmds_foldl_of_ends {f : State → Cmd → State} (hf : ∀ s c, (f s c).cmds = s.cmds.filter (fun d => !d.is c.ring c.seq))
    {d : Cmd} (l : List Cmd) (s : State) : d ∈ (l.foldl f s).cmds ↔ d ∈ s.cmds ∧ ∀ c ∈ l, d.is c.ring c.seq = false := by
  induction l generalizing s with
  | nil => simp
  | cons c l ih => rw [List.foldl_cons, ih, hf, List.mem_filter, List.forall_mem_cons, Bool.not_eq_true', and_assoc]

/-- R594: one search ended. -/
def State.endSearch (s : State) (recordOk : Bool) (c : Cmd) : State :=
  (s.dropQueries (fun r => r.of c.ring c.seq)).finish c stHW_FAULT 0 c.bound.toNat (s.queryFlags c) recordOk

/-- What the end of a search may change. -/
def searchEnds : List Comp :=
  [.out, .rings, .log, .trace, .counters, .fns, .cmds, .fields, .indexes, .compactQueue, .queries, .windows, .ledger, .cores, .streams,
    .granary, .badChunks]

theorem Within.endSearch (s : State) (recordOk : Bool) (c : Cmd) : Within searchEnds s (s.endSearch recordOk c) :=
  ((Within.dropQueries s _).mono (by decide)).then (Within.finish _ _ _ _ _ _ _) (by decide)

theorem cmds_endSearch (s : State) (recordOk : Bool) (c : Cmd) :
    (s.endSearch recordOk c).cmds = s.cmds.filter (fun d => !d.is c.ring c.seq) := by
  rw [State.endSearch, State.finish_cmds, (Within.dropQueries s _).get State.cmds (fun _ => rfl)]

theorem endLostC_eq (s : State) (m : Nat) (recordOk : Bool) : s.endLostC m recordOk =
    (s.cmds.filter (fun c => c.work == .search && ((s.queries.filter (fun q => q.cls == 0 && s.usesMember q m)).map
      (fun q => q.ref)).any (fun r => r.of c.ring c.seq))).foldl (fun s c => s.endSearch recordOk c) s := rfl

theorem Within.endLostC (s : State) (m : Nat) (recordOk : Bool) : Within searchEnds s (s.endLostC m recordOk) :=
  Within.foldl _ _ (fun _ c h => h.trans (Within.endSearch _ recordOk c)) (Within.refl _ _)

/-- R594: no class C search that used the lost member is left. -/
theorem not_mem_cmds_endLostC {s : State} {m : Nat} {recordOk : Bool} {q : Query} {c e : Cmd} (hq : q ∈ s.queries) (hcls : q.cls = 0)
    (huses : s.usesMember q m = true) (hc : c ∈ s.cmds) (hsearch : c.work = .search) (hof : q.ref.of c.ring c.seq = true)
    (he : e ∈ (s.endLostC m recordOk).cmds) : ¬ (e.ring = c.ring ∧ e.seq = c.seq) := by
  rw [endLostC_eq, mem_cmds_foldl_of_ends (fun s c => cmds_endSearch s recordOk c)] at he
  refine (is_eq_false_iff _ _ _).mp (he.2 c (List.mem_filter.mpr ⟨hc, ?_⟩))
  have hany : ((s.queries.filter (fun q => q.cls == 0 && s.usesMember q m)).map (fun q => q.ref)).any
      (fun r => r.of c.ring c.seq) = true :=
    List.any_eq_true.mpr ⟨q.ref, List.mem_map_of_mem (List.mem_filter.mpr ⟨hq, by simp [hcls, huses]⟩), hof⟩
  rw [hsearch, hany]
  rfl

theorem Within.putQuery (s : State) (q : Query) : Within [.queries] s (s.putQuery q) := rfl

theorem Within.resendPart (s : State) (key : Nat) (x : Index) (q : Query) (slot : Nat) :
    Within [.out, .ports] s (s.resendPart key x q slot).1 := by
  unfold State.resendPart
  dsimp only
  split
  · exact Within.refl _ _
  · exact Within.sendMessage _ _ _ _ _

theorem Within.reroute (s : State) (q : Query) (m : Nat) : Within [.out, .ports, .queries] s (s.reroute q m) := by
  have hparts : ∀ (l : List Nat) (x : Index) (a : State × Query), Within [.out, .ports] a.1
      (l.foldl (fun (a : State × Query) k => a.1.resendPart (indexKey q.field q.index) x a.2 k) a).1 := by
    intro l x
    induction l with
    | nil => exact fun a => Within.refl _ _
    | cons k l ih => exact fun a => (Within.resendPart _ _ _ _ _).trans (ih _)
  unfold State.reroute
  dsimp only
  split
  · exact Within.refl _ _
  · split
    · exact (Within.putQuery _ _).mono (by decide)
    · exact ((hparts _ _ (s, q)).mono (by decide)).then (Within.putQuery _ _) (by decide)

/-- The state as the loss of a member is recorded. -/
def State.lossRecorded (s : State) (m : Nat) : State :=
  ((s.setCasc (s.casc.withStatus m 4)).syncMembers).logEvent evMEMBER_LOST 0xFF (Config.severity evMEMBER_LOST) (unitKey 12 m) (leBytes 1 m)

/-- The searches go on without the member, or have ended. -/
def State.searchesRerouted (s : State) (m : Nat) (recordOk : Bool) : State :=
  let t := (s.lossRecorded m).endLostC m recordOk
  (t.queries.filter (fun q => t.usesMember q m)).foldl (fun t q => t.reroute q m) t

theorem exec_memberLost_of_member {s : State} {m : Nat} (recordOk : Bool) (hcompleting : s.completing = true)
    (hleads : s.leads = true) (hother : m ≠ s.casc.ordinal) (hmember : s.casc.isMember m = true) :
    exec (.memberLost m recordOk) s = .next (s.searchesRerouted m recordOk).refreshCasc := by
  have hguard : (!s.completing || !s.leads || m == s.casc.ordinal || !s.casc.isMember m) = false := by
    simp [hcompleting, hleads, hother, hmember]
  change execMemberLost m recordOk s = _
  rw [execMemberLost, hguard]
  rfl

theorem reroutes_within (s : State) (m : Nat) (l : List Query) : Within [.out, .ports, .queries] s (l.foldl (fun t q => t.reroute q m) s) :=
  Within.foldl _ _ (fun _ q h => h.trans (Within.reroute _ q m)) (Within.refl _ _)

theorem Within.searchesRerouted (s : State) (m : Nat) (recordOk : Bool) :
    Within (.ports :: searchEnds) (s.lossRecorded m) (s.searchesRerouted m recordOk) :=
  ((Within.endLostC _ m recordOk).mono (by decide)).then (reroutes_within _ m _) (by decide)

theorem cmds_searchesRerouted (s : State) (m : Nat) (recordOk : Bool) :
    (s.searchesRerouted m recordOk).cmds = ((s.lossRecorded m).endLostC m recordOk).cmds :=
  (reroutes_within _ m _).get State.cmds (fun _ => rfl)

theorem lossRecorded_keeps (s : State) (m : Nat) : (s.lossRecorded m).casc = s.casc.withStatus m 4 ∧ (s.lossRecorded m).cmds = s.cmds ∧
    (s.lossRecorded m).queries = s.queries ∧ (s.lossRecorded m).indexes = s.indexes ∧ (s.lossRecorded m).tbk = s.tbk := by
  have h := tells_logEvent ((s.setCasc (s.casc.withStatus m 4)).syncMembers) evMEMBER_LOST 0xFF (Config.severity evMEMBER_LOST)
    (unitKey 12 m) (leBytes 1 m)
  exact ⟨h.casc, h.cmds, h.queries, h.indexes, h.tbk⟩

theorem withStatus_eq {x : Cascade} {m : Nat} (h : x.isMember m = true) (st : Nat) : ∃ r, FMap.get? x.records m = some r ∧
    x.withStatus m st = { x with records := FMap.set x.records m { r with status := st } } := by
  unfold Cascade.isMember at h
  cases hr : FMap.get? x.records m with
  | none =>
    rw [hr] at h
    cases h
  | some r =>
    refine ⟨r, rfl, ?_⟩
    rw [Cascade.withStatus, hr]

theorem refreshCasc_of_formed {s : State} (h : s.cascFormed = true) :
    s.refreshCasc = s.setCasc { s.casc with state := s.censusState } := if_pos h

theorem cascFormed_of_leads {s : State} (h : s.leads = true) : s.cascFormed = true := (Bool.and_eq_true_iff.mp h).1

theorem usesMember_congr {s t : State} (h : t.indexes = s.indexes) (q : Query) (m : Nat) : t.usesMember q m = s.usesMember q m := by
  unfold State.usesMember State.index?
  rw [h]

/-- Settles O53: the heartbeat's messages, the census re-run's records, and what a loss ends. -/
theorem cascadeMembers : Obligations.CascadeMembers := by
  unfold Obligations.CascadeMembers
  refine ⟨⟨fun s hcompleting hleads => ⟨?heartbeat, ?rerun⟩, fun s hup hfollows => ⟨?answer, ?leadLost⟩⟩, ?memberLost⟩
  case heartbeat =>
    have hsend := Within.foldl_sendMessage s.casc.others { s with tbk := (s.tbk / 1000000 + 1) * 1000000 } msgHEARTBEAT 0
      (leBytes 8 ((s.tbk / 1000000 + 1) * 1000000))
    have htbk := hsend.get State.tbk (fun _ => rfl)
    refine ⟨_, exec_heartbeat_of_leads hcompleting hleads, htbk, ?_, hsend.get State.casc (fun _ => rfl),
      hsend.get State.fields (fun _ => rfl), hsend.get State.indexes (fun _ => rfl), hsend.get State.cmds (fun _ => rfl)⟩
    rw [htbk]
    exact out_foldl_sendMessage _ _ _ _ _
  case rerun =>
    intro found
    have hexec : exec (.censusRerun found) s = .next (s.census (s.rerunRecords found)) := by
      change execCensusRerun found s = _
      rw [execCensusRerun, hcompleting, hleads]
      rfl
    have hcensus := Within.census s (s.rerunRecords found)
    refine ⟨_, hexec, ?_, hcensus.get State.tbk (fun _ => rfl), hcensus.get State.cmds (fun _ => rfl),
      hcensus.get State.indexes (fun _ => rfl), state_census s _, fun m r hm _ hr hgone => ?_⟩
    · obtain ⟨hops, tree, st, hcasc⟩ := casc_census s (s.rerunRecords found)
      rw [hcasc]
    · obtain ⟨ports, hports⟩ := get?_rerunRecords_of_gone s found hm hr hgone
      obtain ⟨hops, hrecords⟩ := get?_records_census s (s.rerunRecords found) m
      rw [hports] at hrecords
      exact ⟨_, hrecords, rfl, rfl⟩
  case answer =>
    intro leadTbk roundTrip
    have hsend := Within.sendMessage (s.setCasc { s.casc with
      lastHeartbeat := s.tbk, leadOffset := leadTbk + BitVec.ofNat 64 (roundTrip / 2) - BitVec.ofNat 64 s.tbk }) s.casc.leadOrdinal
      msgANSWER 0 (leBytes 1 s.casc.ordinal)
    exact ⟨_, exec_heartbeatAnswer_of_follows leadTbk roundTrip hup hfollows, hsend.get State.casc (fun _ => rfl),
      out_sendMessage _ _ _ _ _, hsend.get State.fields (fun _ => rfl), hsend.get State.indexes (fun _ => rfl),
      hsend.get State.cmds (fun _ => rfl), hsend.get State.tbk (fun _ => rfl)⟩
  case leadLost =>
    have hexec := exec_leadLost_of_follows hup hfollows
    obtain ⟨u, hu⟩ : ∃ u, u = (s.advance (s.casc.lastHeartbeat + 5000000)).logEvent evLEAD_LOST 0xFF (Config.severity evLEAD_LOST) noUnit
      (leBytes 1 s.casc.leadOrdinal) := ⟨_, rfl⟩
    have htells : Tells (s.advance (s.casc.lastHeartbeat + 5000000)) u := by
      rw [hu]
      exact tells_logEvent _ _ _ _ _ _
    rw [← hu] at hexec
    have hindexes : u.indexes = s.indexes := htells.indexes
    refine ⟨_, hexec, rfl, rfl, htells.tbk, htells.ports, htells.fields, fun k => ?_⟩
    rw [← hindexes]
    exact FMap.get?_mapVals u.indexes (fun _ x => if x.p.cascMode = 0 then x else { x with pending := [] }) k
  case memberLost =>
    intro s m recordOk hcompleting hleads hother hmember
    obtain ⟨hcasc, hcmds, hqueries, hindexes, htbk⟩ := lossRecorded_keeps s m
    obtain ⟨r, hr, hwith⟩ := withStatus_eq hmember 4
    have hrest := Within.searchesRerouted s m recordOk
    have hnow : (s.searchesRerouted m recordOk).casc = { s.casc with records := FMap.set s.casc.records m { r with status := 4 } } :=
      (hrest.get State.casc (fun _ => rfl)).trans (hcasc.trans hwith)
    have hformed : (s.searchesRerouted m recordOk).cascFormed = true := by
      rw [State.cascFormed, hnow]
      exact cascFormed_of_leads hleads
    have hexec := exec_memberLost_of_member recordOk hcompleting hleads hother hmember
    rw [refreshCasc_of_formed hformed] at hexec
    have hordinal : (s.searchesRerouted m recordOk).casc.ordinal = s.casc.ordinal := by rw [hnow]
    have hrecords : ∀ k, FMap.get? (s.searchesRerouted m recordOk).casc.records k =
        if m = k then some { r with status := 4 } else FMap.get? s.casc.records k := fun k => by
      rw [hnow]
      exact FMap.get?_set _ _ _ _
    refine ⟨_, hexec, ⟨{ r with status := 4 }, ?_, rfl⟩, fun k hk => ?_, state_setCasc_censusState hformed, hordinal,
      (hrest.get State.tbk (fun _ => rfl)).trans htbk, fun q hq hcls huses c hc hsearch hof e he => ?_⟩
    · exact (hrecords m).trans (if_pos rfl)
    · exact (hrecords k).trans (if_neg (Ne.symm hk))
    · have he' : e ∈ ((s.lossRecorded m).endLostC m recordOk).cmds := by
        rw [← cmds_searchesRerouted]
        exact he
      exact not_mem_cmds_endLostC (by rwa [hqueries]) hcls (by rwa [usesMember_congr hindexes]) (by rwa [hcmds]) hsearch hof he'

end Sys2Proof.Machine

/-! ### The cascade commands and the census (R207 to R210, R574 to R576, R600, R601; Tables 10.8 and 10.10) -/

namespace Sys2Proof.Machine

/-! #### CASCADE_FORM, CASCADE_PROMOTE and CASCADE_STATUS -/

section Commands
variable {s : State} {ring : Nat} {dma : Dma} {c : Cmd}

theorem length_block_of_valid (h : c.pbValid = true) : (ctxOf c dma).block.length = c.pbLen * 64 := by
  have hblock : (ctxOf c dma).block = fit (c.pbLen * 64) (dma.block.getD []) := if_pos h
  rw [hblock, length_fit]

theorem form_checks {n : Nat} (hn : num c.pkt 20 2 = n) (hmay : s.mayForm = true) (hfree : s.cascadeExists = false)
    (htopology : num c.pkt 16 1 ≤ 3) (h1 : 1 ≤ n) (h128 : n ≤ 128)
    (htorus : num c.pkt 16 1 = 3 → num c.pkt 17 1 * num c.pkt 18 1 = n ∧ num c.pkt 17 1 ≤ 16 ∧ num c.pkt 18 1 ≤ 8)
    (haddr : num c.pkt 24 8 % 64 = 0) (hlen : 4160 ≤ num c.pkt 32 4) (hserials : c.pbValid = true → 8 * n ≤ c.pbLen * 64) :
    ∀ y ∈ ([(!s.mayForm, stNOT_PERMITTED), ((formIn (ctxOf c dma)).bad || num c.pkt 24 8 % 64 != 0, stBAD_VALUE),
      (decide (num c.pkt 32 4 < 4160) || (c.pbValid && decide ((ctxOf c dma).block.length < 8 * n)), stBAD_LENGTH),
      (s.cascadeExists, stEXISTS)] : List (Bool × Nat)), y.1 = false := by
  have hbad : (formIn (ctxOf c dma)).bad = (decide (3 < num c.pkt 16 1) || num c.pkt 20 2 == 0 || decide (128 < num c.pkt 20 2) ||
      (num c.pkt 16 1 == 3 && (num c.pkt 17 1 * num c.pkt 18 1 != num c.pkt 20 2 || decide (16 < num c.pkt 17 1) ||
        decide (8 < num c.pkt 18 1)))) := rfl
  have hblock : (c.pbValid && decide ((ctxOf c dma).block.length < 8 * n)) = false := by
    rw [Bool.and_eq_false_imp]
    intro hvalid
    rw [length_block_of_valid hvalid, decide_eq_false_iff_not]
    exact Nat.not_lt.mpr (hserials hvalid)
  simp only [List.forall_mem_cons, List.not_mem_nil, false_implies, implies_true, and_true]
  refine ⟨by rw [hmay]; rfl, ?_, ?_, hfree⟩
  · rw [hbad, hn, haddr]
    simp only [Bool.or_eq_false_iff, decide_eq_false_iff_not, Bool.and_eq_false_imp, beq_iff_eq, bne_self_eq_false, and_true, not_lt,
      bne_eq_false_iff_eq, beq_eq_false_iff_ne]
    exact ⟨⟨⟨htopology, by omega⟩, h128⟩, fun h3 => ⟨⟨(htorus h3).1, (htorus h3).2.1⟩, (htorus h3).2.2⟩⟩
  · rw [hblock, Bool.or_false, decide_eq_false_iff_not]
    omega

theorem exec_cascadeForm_of_admits (h : s.admits 0x48 ring dma c = true) {n : Nat} (hn : num c.pkt 20 2 = n)
    (hmay : s.mayForm = true) (hfree : s.cascadeExists = false) (htopology : num c.pkt 16 1 ≤ 3) (h1 : 1 ≤ n) (h128 : n ≤ 128)
    (htorus : num c.pkt 16 1 = 3 → num c.pkt 17 1 * num c.pkt 18 1 = n ∧ num c.pkt 17 1 ≤ 16 ∧ num c.pkt 18 1 ≤ 8)
    (haddr : num c.pkt 24 8 % 64 = 0) (hlen : 4160 ≤ num c.pkt 32 4) (hserials : c.pbValid = true → 8 * n ≤ c.pbLen * 64) :
    exec (.cascadeForm ring dma) s =
      outstanding s ((s.readBlock c none).startCensus (formIn (ctxOf c dma))) c dma (.census false) := by
  have hread : (s.readBlock c none).mayForm = s.mayForm ∧ (s.readBlock c none).cascadeExists = s.cascadeExists := by
    obtain ⟨out, hout⟩ := s.readBlock_eq c none
    rw [hout]
    exact ⟨rfl, rfl⟩
  have hpass := form_checks (s := s.readBlock c none) (dma := dma) hn (hread.1.trans hmay) (hread.2.trans hfree) htopology h1 h128 htorus
    haddr hlen hserials
  subst hn
  change execCascadeForm ring dma s = _
  rw [execCascadeForm, State.runPacket_of_checked h rfl hpass]
  exact congrArg Host.Outcome.next (settle_readBlock s c none dma _)

theorem exec_cascadePromote_of_admits (h : s.admits 0x4A ring dma c = true) (hstake : s.standbyByStake = true)
    (hnew : s.casc.promoted = false) (hsilent : s.leadAnswers = false) (hrecords : s.casc.records ≠ []) :
    exec (.cascadePromote ring dma) s = outstanding s ((s.setCasc { s.casc with state := 1, promoted := true }).extend 4
      (eventRecord 0x41 [])) c dma (.census true) := by
  have hpass : ∀ y ∈ [(!s.standbyByStake, stNOT_PERMITTED), (s.casc.promoted || s.leadAnswers || s.casc.records.isEmpty, stBAD_STATE)],
      y.1 = false := by
    simp [hstake, hnew, hsilent, hrecords]
  change execCascadePromote ring dma s = _
  exact (State.runPacket_of_passes (o := opA 0x4A .none) rfl rfl h rfl hpass).trans rfl

theorem exec_cascadeStatus_of_admits (h : s.admits 0x49 ring dma c = true) (haddr : num c.pkt 24 8 % 64 = 0)
    (hlen : 4160 ≤ num c.pkt 32 4) : exec (.cascadeStatus ring dma) s =
      ended s s c dma (s.casc.state + 65536 * s.casc.reachable) [(num c.pkt 24 8, s.casc.reply s.casc.tCensus)] := by
  change execCascadeStatus ring dma s = _
  exact (State.runPacket_of_passes (o := opAF 0x49) rfl rfl h rfl (replyChecks_pass haddr hlen)).trans rfl

end Commands

/-! #### The census reply (Table 10.10) -/

theorem length_recordBytes_census (r : CensusRec) : r.bytes.length = 32 := by
  simp only [CensusRec.bytes, List.length_append, length_leBytes, zeros, List.length_replicate]

/-- One chunk of a list of chunks of one length. -/
theorem take_drop_flatMap {f : Nat → Bytes} {k : Nat} (hf : ∀ n, (f n).length = k) (l : List Nat) {m : Nat} (hm : m < l.length) :
    ((l.flatMap f).drop (k * m)).take k = f l[m] := by
  induction l generalizing m with
  | nil => exact absurd hm (Nat.not_lt_zero m)
  | cons a l ih =>
    rw [List.flatMap_cons]
    cases m with
    | zero => rw [Nat.mul_zero, List.drop_zero, List.take_left' (hf a), List.getElem_cons_zero]
    | succ m =>
      rw [Nat.mul_succ, Nat.add_comm, ← List.drop_drop, List.drop_left' (hf a), List.getElem_cons_succ]
      exact ih (Nat.lt_of_succ_lt_succ hm)

section Reply
variable (x : Cascade) (t : Nat)

/-- The record that the reply shows for an ordinal. -/
def Cascade.recordBytes (x : Cascade) (n : Nat) : Bytes :=
  match FMap.get? x.records n with
  | none => absentRec.bytes
  | some r => r.bytes

/-- The head of the reply. -/
def Cascade.replyHead (x : Cascade) (t : Nat) : Bytes :=
  leBytes 1 x.state ++ leBytes 1 x.topology ++ leBytes 1 (if x.treeRouting then 1 else 0) ++ zeros 1 ++ leBytes 2 x.expected ++
    leBytes 2 x.reachable ++ leBytes 8 t ++ zeros 48

theorem reply_eq : x.reply t = x.replyHead t ++ (List.range 128).flatMap x.recordBytes := rfl

theorem length_replyHead : (x.replyHead t).length = 64 := by
  simp only [Cascade.replyHead, List.length_append, length_leBytes, zeros, List.length_replicate]

theorem length_recordBytes_member (n : Nat) : (x.recordBytes n).length = 32 := by
  unfold Cascade.recordBytes
  split <;> exact length_recordBytes_census _

theorem length_reply : (x.reply t).length = 4160 := by
  rw [reply_eq, List.length_append, length_replyHead, List.length_flatMap]
  simp only [length_recordBytes_member, List.map_const', List.length_range, List.sum_replicate, smul_eq_mul]

theorem slice_reply_record {m : Nat} (hm : m < 128) : slice (x.reply t) (64 + 32 * m) 32 = x.recordBytes m := by
  rw [slice_of_le_length (by rw [length_reply]; omega), reply_eq, ← List.drop_drop, List.drop_left' (length_replyHead x t),
    take_drop_flatMap (length_recordBytes_member x) _ (by rwa [List.length_range]), List.getElem_range]

theorem num_reply : num (x.reply t) 0 1 = x.state % 256 ∧ num (x.reply t) 1 1 = x.topology % 256 ∧
    num (x.reply t) 4 2 = x.expected % 65536 := by
  have hstate : x.reply t = [] ++ (leBytes 1 x.state ++ (leBytes 1 x.topology ++ leBytes 1 (if x.treeRouting then 1 else 0) ++ zeros 1 ++
      leBytes 2 x.expected ++ leBytes 2 x.reachable ++ leBytes 8 t ++ zeros 48 ++ (List.range 128).flatMap x.recordBytes)) := by
    simp only [reply_eq, Cascade.replyHead, List.append_assoc, List.nil_append]
  have htopology : x.reply t = leBytes 1 x.state ++ (leBytes 1 x.topology ++ (leBytes 1 (if x.treeRouting then 1 else 0) ++ zeros 1 ++
      leBytes 2 x.expected ++ leBytes 2 x.reachable ++ leBytes 8 t ++ zeros 48 ++ (List.range 128).flatMap x.recordBytes)) := by
    simp only [reply_eq, Cascade.replyHead, List.append_assoc]
  have hexpected : x.reply t = (leBytes 1 x.state ++ leBytes 1 x.topology ++ leBytes 1 (if x.treeRouting then 1 else 0) ++ zeros 1) ++
      (leBytes 2 x.expected ++ (leBytes 2 x.reachable ++ leBytes 8 t ++ zeros 48 ++ (List.range 128).flatMap x.recordBytes)) := by
    simp only [reply_eq, Cascade.replyHead, List.append_assoc]
  refine ⟨?_, ?_, ?_⟩
  · exact (congrArg (num · 0 1) hstate).trans (num_append_leBytes (a := []) rfl 1 _ _)
  · exact (congrArg (num · 1 1) htopology).trans (num_append_leBytes (length_leBytes 1 _) 1 _ _)
  · exact (congrArg (num · 4 2) hexpected).trans (num_append_leBytes (by simp only [List.length_append, length_leBytes, zeros, List.length_replicate]) 2 _ _)

end Reply

/-! #### The probe (R574, R601) -/

theorem Within.sendOn (s : State) (p kind dst : Nat) (content : Bytes) : Within [.ports] s (s.sendOn p kind dst content) := rfl

/-- R601: the state as the first lead to reach it has claimed it. -/
def State.claimed (s : State) (leadSerial : BitVec 64) : State :=
  if s.casc.probed.isNone && s.role != 0 then s.setCasc { s.casc with probed := some leadSerial } else s

theorem casc_claimed (s : State) (leadSerial : BitVec 64) : (s.claimed leadSerial).casc.state = s.casc.state ∧
    (s.casc.probed = none → s.role ≠ 0 → (s.claimed leadSerial).casc.probed = some leadSerial) ∧
    (s.casc.probed.isSome = true → (s.claimed leadSerial).casc.probed = s.casc.probed) := by
  unfold State.claimed
  split
  · next h =>
    refine ⟨rfl, fun _ _ => rfl, fun hsome => ?_⟩
    have hnone := (Bool.and_eq_true_iff.mp h).1
    rw [Option.isNone_iff_eq_none.mp hnone] at hsome
    cases hsome
  · next h => exact ⟨rfl, fun hnone hrole => absurd (by simp [hnone, hrole]) h, fun _ => rfl⟩

theorem Within.claimed (s : State) (leadSerial : BitVec 64) : Within [.casc] s (s.claimed leadSerial) :=
  Within.ite (Within.setCasc _ _) (Within.refl _ _)

/-- The probe forwarded on every other link, and the answer queued on the port it came by. -/
def State.probeSent (s : State) (port : Nat) (leadSerial : BitVec 64) (answer : Bytes) : State :=
  ((s.activePorts.filter (fun p => p != port)).foldl (fun t p => t.sendOn p msgPROBE 0xFF (leBytes 8 leadSerial.toNat)) s).sendOn port
    msgANSWER 0 answer

theorem Within.probeSent (s : State) (port : Nat) (leadSerial : BitVec 64) (answer : Bytes) :
    Within [.ports] s (s.probeSent port leadSerial answer) :=
  (Within.foldl _ _ (fun _ _ h => h.trans (Within.sendOn _ _ _ _ _)) (Within.refl _ _)).trans (Within.sendOn _ _ _ _ _)

theorem exec_censusProbe_of_answers {s : State} {port : Nat} {serial : BitVec 64} (hport : port < 4)
    (h : s.answersProbe port serial = true) : exec (.censusProbe port serial) s =
      .next (((s.claimed serial).probeSent port serial s.probeAnswer).emit (.message 0 msgANSWER s.probeAnswer)) := by
  change execCensusProbe port serial s = _
  rw [execCensusProbe, if_neg (by omega), h]
  rfl

/-! #### The end of the census (R575, R600) -/

theorem exec_censusQuietTimer_of_form {s : State} {c : Cmd} (found : List MemberRecord) (replyOk recordOk : Bool)
    (hcompleting : s.completing = true) (hcmd : s.censusCmd = some (c, false)) :
    let t := (s.advance (s.tbk + 50000000)).formed found
    exec (.censusQuietTimer found replyOk recordOk) s = .next (if replyOk
      then (t.writeReply c [(num c.pkt 24 8, t.casc.reply t.casc.tCensus)]).finish c 0 t.casc.reachable 0 c.flags recordOk
      else t.finish c 0x0104 0 0 c.flags recordOk) := by
  change execCensusQuietTimer found replyOk recordOk s = _
  rw [execCensusQuietTimer, hcompleting]
  simp only [hcmd, Bool.not_true, Bool.false_eq_true, if_false]
  cases replyOk <;> rfl

theorem exec_censusQuietTimer_of_promote {s : State} {c : Cmd} (found : List MemberRecord) (replyOk recordOk : Bool)
    (hcompleting : s.completing = true) (hcmd : s.censusCmd = some (c, true)) :
    exec (.censusQuietTimer found replyOk recordOk) s =
      .next (((s.advance (s.tbk + 50000000)).promoted found).finish c 0 0 0 c.flags recordOk) := by
  change execCensusQuietTimer found replyOk recordOk s = _
  rw [execCensusQuietTimer, hcompleting]
  simp only [hcmd]
  rfl

theorem advance_add (s : State) (n : Nat) : s.advance (s.tbk + n) = { s with tbk := s.tbk + n } := by
  rw [State.advance, Nat.max_eq_right (Nat.le_add_right _ _)]

theorem Within.takeOver (s : State) (i : StandbyItem) : Within [.fields] s (s.takeOver i) := by
  unfold State.takeOver
  split
  · exact Within.modField _ _ _
  · split
    · exact Within.refl _ _
    · exact Within.modField _ _ _
  · exact Within.refl _ _

/-- The cascade indexes as they resume. -/
def State.indexesResumed (s : State) : State :=
  { s with indexes := FMap.mapVals s.indexes (fun k x => if x.p.cascMode = 0 then x else x.resume ((s.casc.committed k).getD x.epoch)) }

theorem resumeIndexes_within (s : State) :
    Within [.fields, .compactQueue, .cores, .granary, .badChunks] s.indexesResumed s.resumeIndexes :=
  Within.foldl _ _ (fun _ f h => h.trans (Within.releasePages _ f)) (Within.refl _ _)

/-- R600: an index that resumes has no hold and no pending mutation, at an epoch that is no later than the one recorded. -/
theorem resume_eq (x : Index) (epoch : Nat) :
    (x.resume epoch).pending = [] ∧ (x.resume epoch).holds = [] ∧ (x.resume epoch).epoch = min x.epoch epoch := by
  unfold Index.resume
  dsimp only
  split
  · exact ⟨rfl, rfl, by dsimp only; omega⟩
  · exact ⟨rfl, rfl, by dsimp only; omega⟩

/-- The state of a promoted standby lead before its census ends. -/
def State.takenOver (s : State) : State :=
  let t := s.setCasc { s.casc with leadOrdinal := s.casc.ordinal, probed := none }
  (t.casc.standby.foldl State.takeOver t)

theorem Within.takenOver (s : State) :
    Within [.fields] (s.setCasc { s.casc with leadOrdinal := s.casc.ordinal, probed := none }) s.takenOver :=
  Within.foldl _ _ (fun _ i h => h.trans (Within.takeOver _ i)) (Within.refl _ _)

theorem promoted_eq (s : State) (found : List MemberRecord) :
    s.promoted found = s.takenOver.resumeIndexes.census (s.promotedRecords found) := rfl

/-- R600: the old lead's ordinal is lost after a promotion. -/
theorem get?_promotedRecords_lead (s : State) (found : List MemberRecord) (hlead : s.casc.leadOrdinal < s.casc.expected)
    (hother : s.casc.leadOrdinal ≠ s.casc.ordinal) :
    ∃ e, FMap.get? (s.promotedRecords found) s.casc.leadOrdinal = some e ∧ e.status = 4 := by
  obtain ⟨e, he⟩ := Option.isSome_iff_exists.mp (isSome_get?_rerunRecords s found hlead)
  refine ⟨{ e with status := 4 }, ?_, rfl⟩
  rw [State.promotedRecords, FMap.get?_mapVals, he]
  simp [hother]

/-- Settles O52: the packets' checks pass, the probe is answered, and the census leaves a record for each ordinal. -/
theorem cascadeFormation : Obligations.CascadeFormation := by
  unfold Obligations.CascadeFormation
  refine ⟨fun s ring dma c => ?commands, ?probe, ?form, ?promote⟩
  case commands =>
    intro p n
    refine ⟨fun h hmay hfree htopology h1 h128 htorus haddr hlen hserials => ?_, fun h hstake hnew hsilent hrecords => ?_,
      fun h haddr hlen => ?_⟩
    · obtain ⟨x, hx⟩ : ∃ x, x = { Cascade.reset with
        state := 1, topology := num c.pkt 16 1, torusX := num c.pkt 17 1, torusY := num c.pkt 18 1, expected := num c.pkt 20 2
        serials := (formIn (ctxOf c dma)).serials, standby := (s.readBlock c none).casc.standby } := ⟨_, rfl⟩
      have hsend := Within.sendMessage ((s.readBlock c none).setCasc x) 0xFF msgPROBE 0 (leBytes 8 Config.serial.toNat)
      have hread : Within [.out] s (s.readBlock c none) := by
        obtain ⟨out, hout⟩ := s.readBlock_eq c none
        rw [hout]
        rfl
      have hall : Within [.out, .casc, .ports] s
          (((s.readBlock c none).setCasc x).sendMessage 0xFF msgPROBE 0 (leBytes 8 Config.serial.toNat)) :=
        ((hread.mono (by decide)).then (Within.setCasc _ x) (by decide)).then hsend (by decide)
      have hexec := exec_cascadeForm_of_admits h rfl hmay hfree htopology h1 h128 htorus haddr hlen hserials
      have hstart : (s.readBlock c none).startCensus (formIn (ctxOf c dma)) =
          ((s.readBlock c none).setCasc x).sendMessage 0xFF msgPROBE 0 (leBytes 8 Config.serial.toNat) := by
        rw [hx]
        rfl
      have hcasc : (((s.readBlock c none).setCasc x).sendMessage 0xFF msgPROBE 0 (leBytes 8 Config.serial.toNat)).casc = x :=
        hsend.get State.casc (fun _ => rfl)
      rw [hstart] at hexec
      refine ⟨_, hexec, ?_, ?_, ?_, ?_, ?_, out_sendMessage _ _ _ _ _, State.ringsKept_of_rings_eq (hall.get State.rings (fun _ => rfl)),
        hall.get State.cmds (fun _ => rfl), hall.get State.fields (fun _ => rfl), hall.get State.indexes (fun _ => rfl),
        hall.get State.trust (fun _ => rfl)⟩
      all_goals rw [hcasc, hx] <;> rfl
    · exact ⟨_, exec_cascadePromote_of_admits h hstake hnew hsilent hrecords, rfl, rfl, State.ringsKept_of_rings_eq rfl, rfl, rfl, rfl, rfl⟩
    · obtain ⟨hstate, htopology, hexpected⟩ := num_reply s.casc s.casc.tCensus
      refine ⟨_, exec_cascadeStatus_of_admits h haddr hlen, length_reply _ _, hstate, htopology, hexpected, fun m r hm hr => ?_⟩
      rw [slice_reply_record _ _ hm, Cascade.recordBytes, hr]
  case probe =>
    intro s port serial hport h
    obtain ⟨hstate, hclaim, hkeep⟩ := casc_claimed s serial
    have hclaimed := Within.claimed s serial
    have hsent := Within.probeSent (s.claimed serial) port serial s.probeAnswer
    have hcasc : ((s.claimed serial).probeSent port serial s.probeAnswer).casc = (s.claimed serial).casc :=
      hsent.get State.casc (fun _ => rfl)
    have hall : Within [.casc, .ports] s ((s.claimed serial).probeSent port serial s.probeAnswer) :=
      (hclaimed.mono (by decide)).then hsent (by decide)
    exact ⟨_, exec_censusProbe_of_answers hport h, congrArg _ (hall.get State.out (fun _ => rfl)),
      (congrArg Cascade.state hcasc).trans hstate, fun hnone hrole => (congrArg Cascade.probed hcasc).trans (hclaim hnone hrole),
      fun hsome => (congrArg Cascade.probed hcasc).trans (hkeep hsome), hall.get State.fields (fun _ => rfl),
      hall.get State.indexes (fun _ => rfl), State.ringsKept_of_rings_eq (hall.get State.rings (fun _ => rfl)),
      hall.get State.tbk (fun _ => rfl)⟩
  case form =>
    intro s found replyOk recordOk c hcompleting hcmd
    have hexec := exec_censusQuietTimer_of_form found replyOk recordOk hcompleting hcmd
    rw [advance_add] at hexec
    obtain ⟨u, hu⟩ : ∃ u : State, u = { s with tbk := s.tbk + 50000000 } := ⟨_, rfl⟩
    have hucasc : u.casc = s.casc := by rw [hu]
    have hexclusion (r : MemberRecord) (pos : Nat) : u.exclusion s.casc pos r = s.exclusion s.casc pos r := by rw [hu]; rfl
    rw [← hu] at hexec
    have hcensus := Within.census u (u.censusRecords u.casc found)
    obtain ⟨hops, tree, st, hcasc⟩ := casc_census u (u.censusRecords u.casc found)
    have hget (m : Nat) := get?_records_census u (u.censusRecords u.casc found) m
    rw [hucasc] at hget hcasc hcensus
    have hformed : u.formed found = u.census (u.censusRecords s.casc found) := by rw [State.formed, hucasc]
    have hstate := state_census u (u.censusRecords s.casc found)
    rw [← hformed] at hget hcasc hcensus hstate
    have htbk : (u.formed found).tbk = s.tbk + 50000000 := (hcensus.get State.tbk (fun _ => rfl)).trans (by rw [hu])
    refine ⟨u.formed found, hexec, htbk, ?_, (hcensus.get State.cmds (fun _ => rfl)).trans (by rw [hu]),
      (hcensus.get State.indexes (fun _ => rfl)).trans (by rw [hu]), (hcensus.get State.fields (fun _ => rfl)).trans (by rw [hu]), hstate, ?_, ?_,
      fun m hm hother hnone => ?_, fun r hr pos hpos h128 hother honly => ?_⟩
    · rw [htbk, hcasc, hu]
    · rw [hcasc]
    · obtain ⟨hop, hrec⟩ := hget s.casc.ordinal
      rw [get?_censusRecords_own] at hrec
      exact ⟨_, hrec, rfl, rfl⟩
    · obtain ⟨hop, hrec⟩ := hget m
      rw [get?_censusRecords_absent u s.casc hm hother hnone] at hrec
      exact ⟨_, hrec, rfl⟩
    · obtain ⟨hop, hrec⟩ := hget pos
      rw [get?_censusRecords_found u s.casc hpos h128 hother hr honly] at hrec
      refine ⟨_, hrec, rfl, hexclusion r pos, ?_⟩
      change (if u.exclusion s.casc pos r = 0 then 0 else 2) = _
      rw [hexclusion]
  case promote =>
    intro s found replyOk recordOk c hcompleting hcmd
    have hexec := exec_censusQuietTimer_of_promote found replyOk recordOk hcompleting hcmd
    rw [advance_add] at hexec
    obtain ⟨u, hu⟩ : ∃ u : State, u = { s with tbk := s.tbk + 50000000 } := ⟨_, rfl⟩
    have hucasc : u.casc = s.casc := by rw [hu]
    have htaken := Within.takenOver u
    have hresumed := resumeIndexes_within u.takenOver
    have hcensus := Within.census u.takenOver.resumeIndexes (u.promotedRecords found)
    rw [← hu] at hexec
    rw [← promoted_eq] at hcensus
    have hstate := state_census u.takenOver.resumeIndexes (u.promotedRecords found)
    obtain ⟨hops, tree, st, hcasc⟩ := casc_census u.takenOver.resumeIndexes (u.promotedRecords found)
    have hget := get?_records_census u.takenOver.resumeIndexes (u.promotedRecords found) s.casc.leadOrdinal
    rw [← promoted_eq] at hstate hcasc hget
    have hbefore : u.takenOver.resumeIndexes.casc = { s.casc with leadOrdinal := s.casc.ordinal, probed := none } := by
      rw [hresumed.get State.casc (fun _ => rfl)]
      exact (htaken.get State.casc (fun _ => rfl)).trans (by rw [← hucasc]; rfl)
    have htakenCasc : u.takenOver.casc = { s.casc with leadOrdinal := s.casc.ordinal, probed := none } :=
      (htaken.get State.casc (fun _ => rfl)).trans (by rw [← hucasc]; rfl)
    have hindexes : (u.promoted found).indexes = FMap.mapVals s.indexes (fun k x =>
        if x.p.cascMode = 0 then x else x.resume ((s.casc.committed k).getD x.epoch)) := by
      rw [hcensus.get State.indexes (fun _ => rfl), hresumed.get State.indexes (fun _ => rfl), State.indexesResumed, htakenCasc,
        htaken.get State.indexes (fun _ => rfl), hu]
      rfl
    refine ⟨u.promoted found, hexec, ?_, ?_, ?_, ?_, hstate, fun hlead hother => ?_, fun k x hx => ?_⟩
    · exact (hcensus.get State.tbk (fun _ => rfl)).trans ((hresumed.get State.tbk (fun _ => rfl)).trans
        ((htaken.get State.tbk (fun _ => rfl)).trans (by rw [hu]; rfl)))
    · rw [hcasc, hbefore]
    · rw [hcasc, hbefore]
    · exact (hcensus.get State.cmds (fun _ => rfl)).trans ((hresumed.get State.cmds (fun _ => rfl)).trans
        ((htaken.get State.cmds (fun _ => rfl)).trans (by rw [hu]; rfl)))
    · rw [← hucasc] at hlead hother
      obtain ⟨e, he, hlost⟩ := get?_promotedRecords_lead u found hlead hother
      obtain ⟨hop, hrec⟩ := hget
      rw [hucasc] at he
      rw [he] at hrec
      exact ⟨_, hrec, hlost⟩
    · rw [hindexes, FMap.get?_mapVals] at hx
      obtain ⟨y, hy, rfl⟩ := Option.map_eq_some_iff.mp hx
      refine ⟨y, hy, fun h0 => if_pos h0, fun h0 => ?_⟩
      rw [if_neg h0]
      exact resume_eq y _

end Sys2Proof.Machine

/-! ### Streams that halt and resume, and the page-in (R476 to R481) -/

namespace Sys2Proof.Machine

/-! #### What the page-in, and the end of what waits for it, may change -/

theorem Within.setPage (s : State) (f : Nat) (p : Page) :
    Within [.fields] s (s.setPage f p) := by
  unfold State.setPage
  with_reducible repeat' first
    | exact Within.refl _ _ | assumption | refine Within.then ?_ (Within.modField _ _ _) ?_ | split | dsimp only
    | decide

theorem Within.retire (s : State) (back : Bool) (p : Line → Bool) :
    Within [.fields, .cores, .channels, .granary] s (s.retire back p) := by
  unfold State.retire
  with_reducible repeat' first
    | exact Within.refl _ _ | assumption | refine Within.then ?_ (Within.writeBack _ _) ?_
    | refine Within.then ?_ (Within.applyPend _ _) ?_ | refine Within.then ?_ (Within.overfetch _ _) ?_
    | refine Within.then ?_ (Within.withLines _ _) ?_ | refine Within.foldl _ _ (fun _ _ _ => ?_) ?_ | split
    | dsimp only | decide

theorem Within.dropLines (s : State) (f : Nat) (l : Loc) :
    Within [.fields, .cores, .channels, .granary] s (s.dropLines f l) := by
  unfold State.dropLines
  with_reducible repeat' first
    | exact Within.refl _ _ | assumption | refine Within.then ?_ (Within.retire _ _ _) ?_ | split | dsimp only
    | decide

theorem Within.evict (s : State) (f : Nat) (p : Page) :
    Within [.fields, .cores, .channels, .granary] s (s.evict f p) := by
  unfold State.evict
  with_reducible repeat' first
    | exact Within.refl _ _ | assumption | refine Within.then ?_ (Within.dropLines _ _ _) ?_
    | refine Within.then ?_ (Within.countField _ _ _ _) ?_ | refine Within.then ?_ (Within.charge _ _ _) ?_
    | refine Within.then ?_ (Within.setPage _ _ _) ?_ | split | dsimp only | decide

theorem Within.notePageIn (s : State) (f : Nat) (x : Option (Nat × List Nat)) :
    Within [.fields] s (s.notePageIn f x) := by
  unfold State.notePageIn
  with_reducible repeat' first
    | exact Within.refl _ _ | assumption | refine Within.then ?_ (Within.modField _ _ _) ?_ | split | dsimp only
    | decide

theorem Within.setStream (s : State) (n : Nat) (x : Stream) :
    Within [.streams] s (s.setStream n x) := rfl

theorem Within.stopCmds (s : State) (p : Cmd → Bool) (status : Nat) :
    Within [.out, .fresh, .rings, .cmds, .fields, .indexes, .compactQueue, .queries, .windows, .ledger, .cores,
    .messages, .runs, .streams, .channels, .granary, .badChunks, .units, .log, .trace, .counters, .fns] s
    (s.stopCmds p status) := by
  unfold State.stopCmds
  with_reducible repeat' first
    | exact Within.refl _ _ | assumption | refine Within.then ?_ (Within.stopCmd _ _ _ _) ?_
    | refine Within.foldl _ _ (fun _ _ _ => ?_) ?_ | split | dsimp only | decide

theorem Within.abandonCompaction (s : State) (n : Nat) (e : Compaction) :
    Within [.out, .fresh, .rings, .cmds, .fields, .indexes, .compactQueue, .evaporators, .queries, .windows,
    .ledger, .cores, .messages, .runs, .streams, .channels, .granary, .badChunks, .units, .log, .trace, .counters,
    .fns] s (s.abandonCompaction n e) := by
  unfold State.abandonCompaction
  with_reducible repeat' first
    | exact Within.refl _ _ | assumption | refine Within.then ?_ (Within.dropReader _ _) ?_
    | refine Within.then ?_ (Within.releasePages _ _) ?_ | refine Within.then ?_ (Within.stopCmds _ _ _) ?_ | split
    | dsimp only | decide | with_unfolding_all exact rfl

theorem Within.giveUp (s : State) (n : Nat) :
    Within [.out, .fresh, .rings, .cmds, .fields, .indexes, .compactQueue, .evaporators, .queries, .windows,
    .ledger, .cores, .messages, .runs, .streams, .channels, .granary, .badChunks, .units, .log, .trace, .counters,
    .fns] s (s.giveUp n) := by
  unfold State.giveUp
  with_reducible repeat' first
    | exact Within.refl _ _ | assumption | refine Within.then ?_ (Within.abandonCompaction _ _ _) ?_ | split
    | dsimp only | decide

theorem Within.queueFlits (s : State) (p : Nat) (fs : List TxFlit) :
    Within [.ports] s (s.queueFlits p fs) := rfl

theorem Within.replyPart (s : State) (tag : BitVec 32) (status qualified : Nat) (fl : Flags) (cs : List Cand) :
    Within [.out, .ports] s (s.replyPart tag status qualified fl cs) := by
  unfold State.replyPart
  with_reducible repeat' first
    | exact Within.refl _ _ | assumption | refine Within.then ?_ (Within.sendMessage _ _ _ _ _) ?_ | split
    | dsimp only | decide

theorem Within.failPart (s : State) (n : Nat) :
    Within [.out, .streams, .served, .ports] s (s.failPart n) := by
  unfold State.failPart
  with_reducible repeat' first
    | exact Within.refl _ _ | assumption | refine Within.then ?_ (Within.dropReader _ _) ?_
    | refine Within.then ?_ (Within.replyPart _ _ _ _ _ _) ?_ | split | dsimp only | decide
    | with_unfolding_all exact rfl

theorem Within.answerCommit (s : State) (key status : Nat) :
    Within [.out, .ports] s (s.answerCommit key status) := by
  unfold State.answerCommit
  with_reducible repeat' first
    | exact Within.refl _ _ | assumption | refine Within.then ?_ (Within.sendMessage _ _ _ _ _) ?_ | split
    | dsimp only | decide

theorem Within.failCopy (s : State) (key : Nat) :
    Within [.out, .streams, .ports, .casc] s (s.failCopy key) :=
  (((Within.dropReader s (.copy key)).mono (by decide)).then (Within.setCasc _ _) (by decide)).then
    (Within.answerCommit _ _ _) (by decide)

theorem Within.resumeStream (s : State) (n : Nat) (x : Stream) (page : Nat) :
    Within [.streams, .trace, .counters] s (s.resumeStream n x page) := by
  unfold State.resumeStream
  with_reducible repeat' first
    | exact Within.refl _ _ | assumption | refine Within.then ?_ (Within.setStream _ _ _) ?_
    | refine Within.then ?_ (Within.traceRec _ _ _ _ _ _) ?_ | split | dsimp only | decide
    | with_unfolding_all exact rfl

/-- What the end of the commands, compactions, parts and copies that wait for a page may change. -/
def waitEnds : List Comp :=
  [.out, .fresh, .rings, .cmds, .fields, .indexes, .compactQueue, .evaporators, .served, .queries, .windows, .ledger, .cores,
    .messages, .runs, .streams, .channels, .granary, .badChunks, .units, .ports, .casc, .log, .trace, .counters, .fns]

/-! #### Pages of a field -/

/-- A field holds a page of a number that has a property. -/
def State.HasPage (s : State) (f n : Nat) (P : Page → Prop) : Prop :=
  ∃ g q, s.field? f = some g ∧ q ∈ g.pages ∧ q.num = n ∧ P q

section HasPage
variable {s : State} {f n : Nat} {P Q : Page → Prop}

theorem State.HasPage.modField (h : s.HasPage f n P) {e : Nat} {g : Field → Field}
    (hg : ∀ x, ∀ q ∈ x.pages, q.num = n → P q → ∃ q' ∈ (g x).pages, q'.num = n ∧ Q q') (hPQ : ∀ q, P q → Q q) :
    (s.modField e g).HasPage f n Q := by
  obtain ⟨x, q, hx, hq, hn, hP⟩ := h
  unfold State.HasPage
  rw [State.field?_modField]
  split
  next he =>
    obtain ⟨q', hq', hn', hQ⟩ := hg x q hq hn hP
    exact ⟨g x, q', by rw [he, hx]; rfl, hq', hn', hQ⟩
  next => exact ⟨x, q, hx, hq, hn, hPQ q hP⟩

/-- A change of a field that keeps its pages. -/
theorem State.HasPage.of_pages_eq (h : s.HasPage f n P) {e : Nat} {g : Field → Field} (hg : ∀ x, (g x).pages = x.pages) :
    (s.modField e g).HasPage f n P :=
  h.modField (fun x q hq hn hP => ⟨q, by rwa [hg], hn, hP⟩) (fun _ h => h)

theorem State.HasPage.countField (h : s.HasPage f n P) (e pos k : Nat) : (s.countField e pos k).HasPage f n P := by
  unfold State.countField
  exact h.of_pages_eq (fun _ => rfl)

theorem Field.pages_refill (x : Field) (now : Nat) : (x.refill now).pages = x.pages := by
  cases x
  rfl

theorem Field.pages_withTokens (x : Field) (k : Nat) : { x with tokens := k }.pages = x.pages := rfl

theorem State.HasPage.charge (h : s.HasPage f n P) (e k : Nat) : (s.charge e k).HasPage f n P := by
  unfold State.charge
  exact h.of_pages_eq (fun x => (Field.pages_withTokens _ _).trans (Field.pages_refill x _))

theorem State.HasPage.notePageIn (h : s.HasPage f n P) (e : Nat) (w : Option (Nat × List Nat)) :
    (s.notePageIn e w).HasPage f n P :=
  h.of_pages_eq (fun _ => rfl)

theorem State.HasPage.of_fields_eq (h : s.HasPage f n P) {t : State} (ht : t.fields = s.fields) : t.HasPage f n P := by
  unfold State.HasPage State.field? at h ⊢
  rwa [ht]

/-- A page stays a page of its number when one is replaced. -/
theorem State.HasPage.setPage (h : s.HasPage f n (fun _ => True)) (e : Nat) (p : Page) :
    (s.setPage e p).HasPage f n (fun _ => True) := by
  refine h.modField (fun x q hq hn _ => ⟨if q.num = p.num then p else q, List.mem_map_of_mem hq, ?_, trivial⟩) (fun _ h => h)
  split
  next he => exact he.symm.trans hn
  next => exact hn

/-- The page that replaces those of its number is there. -/
theorem State.HasPage.setPage_self {p : Page} (h : s.HasPage f p.num (fun _ => True)) (hP : P p) :
    (s.setPage f p).HasPage f p.num P := by
  obtain ⟨x, q, hx, hq, hn, -⟩ := h
  refine ⟨{ x with pages := x.pages.map (fun q => if q.num = p.num then p else q) }, p, ?_, ?_, rfl, hP⟩
  · rw [State.setPage, State.field?_modField, if_pos rfl, hx]
    rfl
  · exact List.mem_map.mpr ⟨q, hq, if_pos hn⟩

theorem State.HasPage.applyPend (h : s.HasPage f n P) (l : Line) : (s.applyPend l).HasPage f n P := by
  unfold State.applyPend
  split
  · exact h
  · refine h.of_pages_eq (fun x => ?_)
    split
    · rfl
    · rfl

theorem State.HasPage.overfetch (h : s.HasPage f n P) (l : Line) : (s.overfetch l).HasPage f n P := by
  unfold State.overfetch
  split
  · exact h.of_pages_eq (fun _ => rfl)
  · exact h

theorem State.HasPage.foldl {α : Type} {k : State → α → State} (hk : ∀ t a, t.HasPage f n P → (k t a).HasPage f n P)
    (l : List α) (h : s.HasPage f n P) : (l.foldl k s).HasPage f n P := by
  induction l generalizing s with
  | nil => exact h
  | cons a l ih => exact ih (hk s a h)

theorem State.HasPage.dropLines (h : s.HasPage f n P) (e : Nat) (l : Loc) : (s.dropLines e l).HasPage f n P := by
  unfold State.dropLines State.retire
  have hretired := h.foldl (k := fun t l => (t.applyPend l).overfetch l) (fun t a ht => (ht.applyPend a).overfetch a)
    (s.granary.filter (fun g => g.field == e && l.holds g.channel g.j))
  exact hretired.of_fields_eq ((Within.withLines _ _).get State.fields (fun _ => rfl))

theorem State.HasPage.evict (h : s.HasPage f n (fun _ => True)) (e : Nat) (p : Page) :
    (s.evict e p).HasPage f n (fun _ => True) := by
  unfold State.evict
  dsimp only
  split
  · exact h
  · have hdropped := h.dropLines e p.loc
    have hcounted : ∀ c : Bool, (if c then ((s.dropLines e p.loc).countField e 21 1).charge e pageSize
        else s.dropLines e p.loc).HasPage f n (fun _ => True) := by
      intro c
      cases c
      · exact hdropped
      · exact (hdropped.countField e 21 1).charge e pageSize
    split
    · exact hcounted _
    · exact (hcounted _).setPage e _

theorem State.HasPage.freeVictim (h : s.HasPage f n (fun _ => True)) (e : Nat) (l : List Page) (k : Nat) (passed : List Nat) :
    (s.freeVictim e l k passed).s.HasPage f n (fun _ => True) := by
  induction l generalizing s k passed with
  | nil => exact h
  | cons p l ih =>
    unfold State.freeVictim
    split
    · refine ih ?_ _ _
      exact h.of_fields_eq ((Within.logEvent s _ _ _ _ _).get State.fields (fun _ => rfl))
    · exact h.evict e p

end HasPage

/-! #### The page brought in (R477) -/

theorem inGddr_freeFrame {s : State} {x : Field} {part : Part} {half : Nat} {l : Loc} (h : s.freeFrame x part half = some l) :
    ∀ p : Page, p.loc = l → p.inGddr = true := by
  have hnear (k : Nat) (hk : s.freeNear k = some l) : ∃ a b, l = .near a b := by
    unfold State.freeNear at hk
    split at hk
    · cases hk
    · split at hk
      · cases hk
      · exact ⟨_, _, (Option.some.inj hk).symm⟩
  have hhash (hk : s.freeHash = some l) : ∃ a, l = .hash a := by
    unfold State.freeHash at hk
    dsimp only at hk
    split at hk
    · cases hk
    · split at hk
      · exact ⟨_, (Option.some.inj hk).symm⟩
      · cases hk
  intro p hp
  unfold Page.inGddr
  unfold State.freeFrame at h
  dsimp only at h
  split at h
  · obtain ⟨a, ha⟩ := hhash h
    rw [hp, ha]
  · rcases (Option.orElse_eq_some _ _ _).mp h with hfirst | ⟨-, hsecond⟩
    · obtain ⟨a, b, ha⟩ := hnear _ hfirst
      rw [hp, ha]
    · obtain ⟨a, b, ha⟩ := hnear _ hsecond
      rw [hp, ha]

/-- What a choice of a frame may do: it leaves all but the fields, keeps the pages, and gives a frame. -/
def Picks (f : Nat) (pick : State → Option (State × Loc)) : Prop :=
  ∀ s t l, pick s = some (t, l) → Within [.fields] s t ∧ (∀ p : Page, p.loc = l → p.inGddr = true) ∧
    ∀ n, s.HasPage f n (fun _ => True) → t.HasPage f n (fun _ => True)

theorem picks_frameFor (f : Nat) (part : Part) (half : Nat) : Picks f (fun s => s.frameFor f part half) := by
  intro s t l h
  refine ⟨Within.frameFor f part half h, ?_⟩
  dsimp only at h
  unfold State.frameFor at h
  split at h
  · cases h
  · next x hx =>
    dsimp only at h
    split at h
    · cases h
    · split at h
      · cases h
      · next u hu =>
        split at h
        · cases h
        · next y hy =>
          split at h
          · cases h
          · next k hk =>
            cases h
            refine ⟨inGddr_freeFrame hk, fun n hn => ?_⟩
            split at hu
            · split at hu
              · cases hu
              · cases hu
                obtain ⟨g, q, hg, hq, hnum, -⟩ := hn
                rw [hx] at hg
                cases hg
                exact ⟨_, q, by rw [State.field?_setField, if_pos rfl], List.mem_append_left _ hq, hnum, trivial⟩
            · cases hu
              exact hn

theorem picks_reuseFrame (f : Nat) (p : Page) : Picks f (fun s => s.reuseFrame f p) := by
  intro s t l h
  dsimp only at h
  unfold State.reuseFrame at h
  split at h
  · cases h
  · obtain ⟨k, hk, heq⟩ := Option.map_eq_some_iff.mp h
    cases heq
    exact ⟨Within.refl _ _, inGddr_freeFrame hk, fun _ hn => hn⟩

/-- A resident page that has not changed. -/
def Page.fresh (q : Page) : Prop := q.inGddr = true ∧ q.changed = false

theorem placePage_of_some {s t : State} {f : Nat} {p : Page} {pick : State → Option (State × Loc)} (hpick : Picks f pick)
    (hp : p.inGddr = false) (h : s.placePage f p pick = some t) :
    Within [.fields] s t ∧ (s.HasPage f p.num (fun _ => True) → t.HasPage f p.num Page.fresh) := by
  unfold State.placePage at h
  split at h
  · next a _ =>
    split at h
    · cases h
    · next u l hu =>
      cases h
      obtain ⟨hwithin, hframe, hpages⟩ := hpick s u l hu
      refine ⟨((hwithin.then (Within.setPage _ _ _) (by decide)).then (Within.countField _ _ _ _) (by decide)).then
        (Within.charge _ _ _) (by decide), fun hs => ?_⟩
      exact (((hpages _ hs).setPage_self (p := { p with loc := l, slot := some a, changed := false, lastUse := s.tbk })
        (P := Page.fresh) ⟨hframe _ rfl, rfl⟩).countField f 20 1).charge f pageSize
  · next hpool =>
    exfalso
    unfold Page.inGddr at hp
    split at hp
    · next a ha => exact hpool a ha
    · cases hp

/-- The parts of the state that a page-in may change before it ends. -/
def pageInComps : List Comp := [.out, .rings, .fields, .cores, .channels, .granary, .log, .counters, .fns]

theorem Within.freeVictim (s : State) (f : Nat) (l : List Page) (k : Nat) (passed : List Nat) :
    Within pageInComps s (s.freeVictim f l k passed).s := by
  induction l generalizing s k passed with
  | nil => exact Within.refl _ _
  | cons p l ih =>
    unfold State.freeVictim
    split
    · exact ((Within.logEvent _ _ _ _ _ _).mono (by decide)).trans (ih _ _ _)
    · exact (Within.evict s f p).mono (by decide)

/-- R477, R481: where a page-in succeeds, the page is resident and unchanged; with a read that fails it would have failed. -/
theorem bringIn_done {s t : State} {f k : Nat} {p : Page} {passed : List Nat} (hp : p.inGddr = false)
    (hs : s.HasPage f p.num (fun _ => True)) (h : s.bringIn f p passed k true = .done t) :
    t.HasPage f p.num Page.fresh ∧ Within pageInComps s t ∧
      ∃ u, s.bringIn f p passed k false = .failed u ∧ Within pageInComps s u := by
  unfold State.bringIn at h ⊢
  dsimp only at h ⊢
  cases hplace : s.placePage f p (fun s => s.frameFor f p.part p.half) with
  | some v =>
    rw [hplace] at h
    cases h
    obtain ⟨hwithin, hpage⟩ := placePage_of_some (picks_frameFor f p.part p.half) hp hplace
    exact ⟨(hpage hs).notePageIn f none, (hwithin.mono (by decide)).then (Within.notePageIn _ _ _) (by decide),
      _, rfl, (Within.notePageIn _ _ _).mono (by decide)⟩
  | none =>
    rw [hplace] at h
    have hfreed := Within.freeVictim s f (s.victims f passed) k passed
    have hkept := hs.freeVictim f (s.victims f passed) k passed
    generalize s.freeVictim f (s.victims f passed) k passed = r at h hfreed hkept
    dsimp only at h ⊢
    cases hdone : r.done with
    | false => rw [hdone] at h; cases h
    | true =>
      rw [hdone] at h
      rw [if_neg (by decide), if_neg (by decide)] at h
      cases hreuse : r.s.placePage f p (fun t => t.reuseFrame f p) with
      | none => rw [hreuse] at h; cases h
      | some v =>
        rw [hreuse] at h
        cases h
        obtain ⟨hwithin, hpage⟩ := placePage_of_some (picks_reuseFrame f p) hp hreuse
        exact ⟨(hpage hkept).notePageIn f none, (hfreed.then hwithin (by decide)).then (Within.notePageIn _ _ _) (by decide),
          _, rfl, (hfreed.then (Within.trimChecks _ _) (by decide)).then (Within.notePageIn _ _ _) (by decide)⟩

theorem argMin_mem {α : Type} {k : α → Nat} {l : List α} {a : α} (h : argMin k l = some a) : a ∈ l := by
  induction l generalizing a with
  | nil => cases h
  | cons b l ih =>
    unfold argMin at h
    split at h
    · cases h
      exact List.mem_cons_self
    · next y hy =>
      split at h
      · cases h
        exact List.mem_cons_of_mem b (ih hy)
      · cases h
        exact List.mem_cons_self

theorem faultingPage_mem {s : State} {f : Nat} {y : Field} {p : Page} (hf : s.field? f = some y)
    (h : s.faultingPage f = some p) : p ∈ y.pages ∧ p.inGddr = false := by
  unfold State.faultingPage at h
  rw [hf] at h
  obtain ⟨e, he, rfl⟩ := Option.map_eq_some_iff.mp h
  obtain ⟨z, -, hz⟩ := List.mem_filterMap.mp (argMin_mem he)
  split at hz
  · obtain ⟨q, hq, rfl⟩ := Option.map_eq_some_iff.mp hz
    have hsome := List.find?_some hq
    exact ⟨List.mem_of_find?_eq_some hq, by simpa using (Bool.and_eq_true_iff.mp hsome).2⟩
  · cases hz

/-- R477: the page that is due lies in the field and is away. -/
theorem pageInDue_mem {s : State} {f : Nat} {p : Page} {passed : List Nat} (h : s.pageInDue f = some (p, passed)) :
    s.HasPage f p.num (fun _ => True) ∧ p.inGddr = false := by
  unfold State.pageInDue at h
  split at h
  · cases h
  · next y hy =>
    suffices hmem : p ∈ y.pages ∧ p.inGddr = false from ⟨⟨y, p, hy, hmem.1, rfl, trivial⟩, hmem.2⟩
    split at h
    · next r hr =>
      cases h
      obtain ⟨n, -, hn⟩ := Option.bind_eq_some_iff.mp hr
      obtain ⟨q, hq, heq⟩ := Option.map_eq_some_iff.mp hn
      cases heq
      have hsome := List.find?_some hq
      exact ⟨List.mem_of_find?_eq_some hq, by simpa using (Bool.and_eq_true_iff.mp hsome).2⟩
    · obtain ⟨q, hq, heq⟩ := Option.map_eq_some_iff.mp h
      cases heq
      exact faultingPage_mem hy hq

/-! #### Who waits for a page that cannot be had (R481) -/

theorem cmds_giveUp (s : State) (n : Nat) {e : Cmd} (h : e ∈ (s.giveUp n).cmds) : e ∈ s.cmds := by
  unfold State.giveUp at h
  split at h
  · exact h
  · next c _ =>
    unfold State.abandonCompaction at h
    dsimp only at h
    have hmem := ((mem_cmds_stopCmds _ _ _ e).mp h).1
    rwa [(Within.releasePages _ _).get State.cmds (fun _ => rfl)] at hmem

/-- One reader that waits for a page, given up. -/
def State.readerFailed (t : State) (r : Reader) : State :=
  match r with
  | .evaporator n => t.giveUp n
  | .part n => t.failPart n
  | .copy k => t.failCopy k
  | _ => t

theorem cmds_readerFailed (s : State) (r : Reader) {e : Cmd} (h : e ∈ (s.readerFailed r).cmds) : e ∈ s.cmds := by
  unfold State.readerFailed at h
  split at h
  · exact cmds_giveUp s _ h
  · rwa [(Within.failPart s _).get State.cmds (fun _ => rfl)] at h
  · rwa [(Within.failCopy s _).get State.cmds (fun _ => rfl)] at h
  · exact h

theorem failWaiting_eq (s : State) (f page : Nat) :
    s.failWaiting f page = ((s.streams.filter (fun x => x.2.waitsFor f page)).map (fun x => x.2.reader)).foldl
      State.readerFailed (s.stopCmds (fun c => c.stopped.isNone && s.waitsForPage f page c) stHW_FAULT) := rfl

theorem cmds_foldl_readerFailed (l : List Reader) (s : State) {e : Cmd} (h : e ∈ (l.foldl State.readerFailed s).cmds) :
    e ∈ s.cmds := by
  induction l generalizing s with
  | nil => exact h
  | cons r l ih => exact cmds_readerFailed s r (ih _ h)

/-- Of the commands that are left, none has the ring and number of one that waited. -/
theorem cmds_failWaiting (s : State) (f page : Nat) {c e : Cmd} (hc : c ∈ s.cmds) (hstopped : c.stopped.isNone = true)
    (hwaits : s.waitsForPage f page c = true) (he : e ∈ (s.failWaiting f page).cmds) :
    ¬ (e.ring = c.ring ∧ e.seq = c.seq) := by
  rw [failWaiting_eq] at he
  have hmem := cmds_foldl_readerFailed _ _ he
  exact ((mem_cmds_stopCmds _ _ _ e).mp hmem).2 c hc (by rw [hstopped, hwaits]; rfl)

theorem waitsForPage_congr {s t : State} (hstreams : t.streams = s.streams) (hwindows : t.windows = s.windows) (f page : Nat)
    (c : Cmd) : t.waitsForPage f page c = s.waitsForPage f page c := by
  unfold State.waitsForPage State.readsThrough
  rw [hstreams, hwindows]

/-! #### Halting and resuming -/

theorem length_haltContext (x : Stream) (n addr : Nat) : (x.haltContext n addr).length = 64 := by
  unfold Stream.haltContext contextBytes
  simp only [List.length_append, length_leBytes, length_fit, zeros, List.length_replicate, List.length_singleton]

/-- The state of a stream behind its resumption. -/
def Stream.resumed (x : Stream) (page : Nat) : Option Stream :=
  if x.reader != .program then some { x with phase := .resumed page }
  else if x.desc.isEmpty then none
  else some { x with phase := .running, requested := x.delivered }

theorem get?_resumeStream (s : State) (n : Nat) (x : Stream) (page k : Nat) :
    FMap.get? (s.resumeStream n x page).streams k = if n = k then x.resumed page else FMap.get? s.streams k := by
  unfold State.resumeStream Stream.resumed
  dsimp only
  rw [(Within.traceRec _ _ _ _ _ _).get State.streams (fun _ => rfl)]
  split
  · exact FMap.get?_set _ _ _ _
  · split
    · exact FMap.get?_erase _ _ _
    · exact FMap.get?_set _ _ _ _

theorem get?_foldl_resumeStream_of_notMem (l : List (Nat × Stream)) (s : State) (page n : Nat) (h : ∀ e ∈ l, e.1 ≠ n) :
    FMap.get? (l.foldl (fun t x => t.resumeStream x.1 x.2 page) s).streams n = FMap.get? s.streams n := by
  induction l generalizing s with
  | nil => rfl
  | cons e l ih =>
    rw [List.foldl_cons, ih _ (fun d hd => h d (List.mem_cons_of_mem e hd)), get?_resumeStream, if_neg (h e List.mem_cons_self)]

theorem FMap.get?_of_filter {α : Type} {m : FMap α} {k : Nat} {a : α} (h : m.filter (fun e => e.1 == k) = [(k, a)]) :
    FMap.get? m k = some a := by
  induction m with
  | nil => cases h
  | cons e m ih =>
    rw [List.filter_cons] at h
    rw [FMap.get?]
    by_cases he : e.1 = k
    · rw [if_pos (by simpa using he)] at h
      rw [if_pos he, (List.cons.inj h).1]
    · rw [if_neg (by simpa using he)] at h
      rw [if_neg he, ih h]

/-- The one entry of a list under a key decides what the fold leaves there. -/
theorem get?_foldl_resumeStream (l : List (Nat × Stream)) (s : State) (page n : Nat) (x : Stream)
    (h : l.filter (fun e => e.1 == n) = [(n, x)]) :
    FMap.get? (l.foldl (fun t x => t.resumeStream x.1 x.2 page) s).streams n = x.resumed page := by
  induction l generalizing s with
  | nil => cases h
  | cons e l ih =>
    rw [List.filter_cons] at h
    rw [List.foldl_cons]
    by_cases he : e.1 = n
    · rw [if_pos (by simpa using he)] at h
      obtain ⟨rfl, hrest⟩ := List.cons.inj h
      rw [get?_foldl_resumeStream_of_notMem l _ page n (fun d hd hn => ?_), get?_resumeStream, if_pos rfl]
      have hd' : d ∈ ([] : List (Nat × Stream)) := by
        rw [← hrest]
        exact List.mem_filter.mpr ⟨hd, by simpa using hn⟩
      cases hd'
    · rw [if_neg (by simpa using he)] at h
      exact ih _ h

/-! #### The obligation -/

theorem exec_streamHalt {s : State} {n id : Nat} {x : Stream} {r : Run} {p : Piece} {q : Page}
    (hrun : s.streamRun n = some (x, r)) (hcompleting : s.completing = true) (hready : x.ready = true) (htile : x.tile < x.tiles)
    (hid : x.run = some id)
    (hfind : (s.tilePieces x r x.tile).find? (fun p => p.permitted r && p.page.any (fun q => !q.inGddr)) = some p)
    (hpage : p.page = some q) :
    exec (.streamHalt n) s = .next (((s.setStream n { x with
        phase := .halted q.num, context := x.haltContext n (q.num * pageSize + p.at_), faultTime := s.tbk }).setRun id
          { r with paged := true }).traceRec 5 x.field noUnit (BitVec.ofNat 64 n) (BitVec.ofNat 64 q.num)) := by
  change execStreamHalt n s = _
  unfold execStreamHalt
  rw [hrun]
  dsimp only
  rw [if_neg (by simp [hcompleting, hready, htile]), hfind]
  dsimp only
  rw [hpage, hid]

/-- Settles O39: a halt replaces the one stream and marks its run; a resumption runs through the streams that wait for the page,
each under a key of its own; a page-in keeps the page of its number in the field until the page takes its frame, and where
the read fails everyone who waits for the page is stopped. -/
theorem haltedStreams : Obligations.HaltedStreams := by
  unfold Obligations.HaltedStreams
  refine ⟨⟨?_, ?_⟩, ?_⟩
  · intro s n id x r p q hrun hcompleting hready htile hid hfind hpage
    have hexec := exec_streamHalt hrun hcompleting hready htile hid hfind hpage
    have htrace := Within.traceRec ((s.setStream n { x with
        phase := .halted q.num, context := x.haltContext n (q.num * pageSize + p.at_), faultTime := s.tbk }).setRun id
          { r with paged := true }) 5 x.field noUnit (BitVec.ofNat 64 n) (BitVec.ofNat 64 q.num)
    refine ⟨_, { x with phase := .halted q.num, context := x.haltContext n (q.num * pageSize + p.at_), faultTime := s.tbk },
      hexec, ?_, rfl, rfl, length_haltContext x n _, rfl, rfl, fun k hk => ?_, ?_, htrace.get State.cores (fun _ => rfl),
      htrace.get State.fields (fun _ => rfl), htrace.get State.indexes (fun _ => rfl), htrace.get State.cmds (fun _ => rfl)⟩
    · rw [htrace.get State.streams (fun _ => rfl)]
      exact FMap.get?_set_self _ _ _
    · rw [htrace.get State.streams (fun _ => rfl)]
      exact FMap.get?_set_ne _ _ (Ne.symm hk)
    · rw [htrace.get State.runs (fun _ => rfl)]
      exact FMap.get?_set_self _ _ _
  · intro s field page n g x hcompleting hfield hpage hx
    have hexec : exec (.streamResume field page) s = .next
        ((s.streams.filter (fun x => x.2.waitsFor field page)).foldl (fun t x => t.resumeStream x.1 x.2 page) s) := by
      change execStreamResume field page s = _
      obtain ⟨q, hq, hnum, hin⟩ := hpage
      unfold execStreamResume
      rw [hcompleting, hfield]
      dsimp only
      rw [if_neg (by decide), if_pos (List.any_eq_true.mpr ⟨q, hq, by rw [hnum, hin]; simp⟩)]
    have hwithin : Within [.streams, .trace, .counters] s
        ((s.streams.filter (fun x => x.2.waitsFor field page)).foldl (fun t x => t.resumeStream x.1 x.2 page) s) :=
      Within.foldl _ _ (fun _ _ h => h.trans (Within.resumeStream _ _ _ _)) (Within.refl _ _)
    have hfilter : (s.streams.filter (fun x => x.2.waitsFor field page)).filter (fun e => e.1 == n) =
        [(n, x)].filter (fun x => x.2.waitsFor field page) := by
      rw [← hx, List.filter_filter, List.filter_filter]
      exact List.filter_congr (fun e _ => Bool.and_comm _ _)
    refine ⟨_, hexec, hwithin.get State.cores (fun _ => rfl), hwithin.get State.fields (fun _ => rfl),
      hwithin.get State.indexes (fun _ => rfl), hwithin.get State.cmds (fun _ => rfl), hwithin.get State.runs (fun _ => rfl),
      fun hwaits => ?_, fun hwaits hreader hdesc => ?_, fun hwaits hreader hdesc => ?_, fun hwaits hreader => ?_⟩
    all_goals rw [List.filter_cons, hwaits] at hfilter
    · rw [get?_foldl_resumeStream_of_notMem _ _ _ _ (fun e he hn => ?_), FMap.get?_of_filter hx]
      have he' : e ∈ ([] : List (Nat × Stream)) := by
        rw [show ([] : List (Nat × Stream)) = _ from hfilter.symm]
        exact List.mem_filter.mpr ⟨he, by simpa using hn⟩
      cases he'
    · rw [get?_foldl_resumeStream _ _ _ _ x hfilter, Stream.resumed, if_neg (by simp [hreader]), if_neg (by simpa using hdesc)]
    · rw [get?_foldl_resumeStream _ _ _ _ x hfilter, Stream.resumed, if_neg (by simp [hreader]), if_pos (by simp [hdesc])]
    · rw [get?_foldl_resumeStream _ _ _ _ x hfilter, Stream.resumed, if_pos (by simpa using hreader)]
  · intro s t field k p passed hcompleting hdue hblocked hdone
    obtain ⟨hpages, haway⟩ := pageInDue_mem hdue
    obtain ⟨⟨g, q, hg, hq, hnum, hin, hchanged⟩, hwithin, u, hfailed, hu⟩ := bringIn_done haway hpages hdone
    have hexec (ok : Bool) : exec (.pageIn field ok k) s = (match s.bringIn field p passed k ok with
        | .done t => .next t
        | .waits t => .next t
        | .failed t => .next ((t.logEvent evPAGE_IN_FAILED field 2 noUnit (leBytes 8 p.num)).failWaiting field p.num)) := by
      change execPageIn field ok k s = _
      unfold execPageIn
      rw [hcompleting, hdue]
      dsimp only
      rw [if_neg (by decide), hblocked, if_neg (by decide)] <;> rfl
    refine ⟨by rw [hexec, hdone], ⟨g, q, hg, hq, hnum, hin, hchanged⟩, hwithin.get State.cmds (fun _ => rfl),
      hwithin.get State.streams (fun _ => rfl), hwithin.get State.indexes (fun _ => rfl), _, by rw [hexec, hfailed],
      fun c hc hstopped hwaits e he => ?_⟩
    have hlogged := hu.then (Within.logEvent u evPAGE_IN_FAILED field 2 noUnit (leBytes 8 p.num)) (by decide)
    refine cmds_failWaiting _ field p.num (c := c) ?_ hstopped ?_ he
    · rwa [hlogged.get State.cmds (fun _ => rfl)]
    · rwa [waitsForPage_congr (hlogged.get State.streams (fun _ => rfl)) (hlogged.get State.windows (fun _ => rfl))]

end Sys2Proof.Machine

/-! ### HXL ports: flits, training and the loss of a link (R549 to R564) -/

namespace Sys2Proof.Machine

/-! #### The bytes of a flit (Table 10.3) -/

section FlitBytes
variable (x : Port) (ftype : Nat) (f : TxFlit)

/-- A flit's type and number stand at its head. -/
theorem flitBody_shape (nak : Bool) (ack key n : Nat) : ∃ (k : Nat) (rest : Bytes), rest.length = 245 ∧
    leBytes 1 (ftype + f.vc % 4 * 16 + f.half % 2 * 64 + (if nak then 128 else 0)) ++ leBytes 2 f.seq.toNat ++ leBytes 2 ack ++
      leBytes 1 key ++ leBytes 1 n ++ zeros 1 ++ fit 240 f.payload =
      leBytes 1 (ftype + 16 * k) ++ (leBytes 2 f.seq.toNat ++ rest) := by
  have hbyte : ftype + f.vc % 4 * 16 + f.half % 2 * 64 + (if nak then 128 else 0) =
      ftype + 16 * (f.vc % 4 + f.half % 2 * 4 + (if nak then 8 else 0)) := by split <;> omega
  refine ⟨f.vc % 4 + f.half % 2 * 4 + (if nak then 8 else 0), leBytes 2 ack ++ (leBytes 1 key ++ (leBytes 1 n ++ (zeros 1 ++ fit 240 f.payload))), ?_, ?_⟩
  · simp only [List.length_append, length_leBytes, length_fit, zeros, List.length_replicate]
  · rw [hbyte]
    simp only [List.append_assoc]

/-- A flit's check stands behind its body. -/
theorem flitBytes_eq : ∃ (k : Nat) (rest b : Bytes), rest.length = 245 ∧
    b = leBytes 1 (ftype + 16 * k) ++ (leBytes 2 f.seq.toNat ++ rest) ∧
    x.flitBytes ftype f = b ++ (leBytes 8 (crc64 b).toNat ++ []) := by
  obtain ⟨k, rest, hrest, hshape⟩ := flitBody_shape ftype f x.nakDue (x.rxNext - 1).toNat
    ((match x.owed.find? (fun p => 0 < p.2) with
      | none => 0
      | some p => p.1) / 2 + (match x.owed.find? (fun p => 0 < p.2) with
      | none => 0
      | some p => p.1) % 2 * 4)
    (match x.owed.find? (fun p => 0 < p.2) with
      | none => 0
      | some p => min 255 p.2)
  refine ⟨k, rest, _, hrest, hshape, ?_⟩
  rw [List.append_nil]
  rfl

theorem flitBytes_fields : (x.flitBytes ftype f).length = 256 ∧ (ftype < 16 → num (x.flitBytes ftype f) 0 1 % 16 = ftype) ∧
    num (x.flitBytes ftype f) 1 2 = f.seq.toNat ∧
    num (x.flitBytes ftype f) 248 8 = (crc64 ((x.flitBytes ftype f).take 248)).toNat := by
  obtain ⟨k, rest, b, hrest, hb, heq⟩ := flitBytes_eq x ftype f
  have hlength : b.length = 248 := by
    rw [hb]
    simp only [List.length_append, length_leBytes, hrest]
  have hhead : x.flitBytes ftype f = leBytes 1 (ftype + 16 * k) ++ (leBytes 2 f.seq.toNat ++
      (rest ++ (leBytes 8 (crc64 b).toNat ++ []))) := by
    rw [heq, hb]
    simp only [List.append_assoc]
  refine ⟨?_, fun htype => ?_, ?_, ?_⟩
  · rw [heq, List.length_append, hlength, List.length_append, length_leBytes]
    rfl
  · have hnum : num (x.flitBytes ftype f) 0 1 = (ftype + 16 * k) % 256 ^ 1 :=
      (congrArg (num · 0 1) hhead).trans (num_append_leBytes (a := []) rfl 1 _ _)
    omega
  · rw [hhead, num_append_leBytes (length_leBytes 1 _)]
    exact Nat.mod_eq_of_lt (f.seq.isLt.trans (by decide))
  · rw [heq, num_append_leBytes hlength, List.take_left' hlength]
    exact Nat.mod_eq_of_lt (crc64 b).isLt

end FlitBytes

/-! #### What a port's event leaves -/

/-- Of what the statements about ports speak of, only port p, time and outputs differ. -/
def PortAlone (p : Nat) (s t : State) : Prop :=
  (∀ k, k ≠ p → t.port k = s.port k) ∧ s.ringsKept t ∧ t.cmds = s.cmds ∧ t.fields = s.fields ∧ t.indexes = s.indexes ∧
    t.casc = s.casc

theorem PortAlone.trans {p : Nat} {r s t : State} (h : PortAlone p r s) (g : PortAlone p s t) : PortAlone p r t := by
  obtain ⟨hports, hrings, hcmds, hfields, hindexes, hcasc⟩ := h
  obtain ⟨gports, grings, gcmds, gfields, gindexes, gcasc⟩ := g
  exact ⟨fun k hk => (gports k hk).trans (hports k hk), hrings.trans grings, gcmds.trans hcmds, gfields.trans hfields,
    gindexes.trans hindexes, gcasc.trans hcasc⟩

theorem portAlone_of_tells {p : Nat} {s t : State} (h : Tells s t) : PortAlone p s t :=
  ⟨fun k _ => by rw [State.port, h.ports, State.port], h.rings, h.cmds, h.fields, h.indexes, h.casc⟩

theorem portAlone_of_within {p : Nat} {s t : State} (h : Within [.out, .tbk, .trace, .counters] s t) : PortAlone p s t :=
  ⟨fun k _ => h.get (fun u => u.port k) (fun _ => rfl), State.ringsKept_of_rings_eq (h.get State.rings (fun _ => rfl)),
    h.get State.cmds (fun _ => rfl), h.get State.fields (fun _ => rfl), h.get State.indexes (fun _ => rfl),
    h.get State.casc (fun _ => rfl)⟩

theorem portAlone_setPort (s : State) (p : Nat) (x : Port) : PortAlone p s (s.setPort p x) :=
  ⟨fun k hk => by rw [State.port_setPort, if_neg (Ne.symm hk)], State.ringsKept_of_rings_eq rfl, rfl, rfl, rfl, rfl⟩

theorem port_setPort_self (s : State) (p : Nat) (x : Port) : (s.setPort p x).port p = x := by
  rw [State.port_setPort, if_pos rfl]

theorem portAlone_sendFlit (s : State) (p ftype : Nat) (f : TxFlit) (x : Port) : PortAlone p s (s.sendFlit p ftype f x) :=
  (portAlone_setPort s p x.afterSend).trans (portAlone_of_within (show Within [.out, .tbk, .trace, .counters] _ _ from rfl))

theorem port_sendFlit_self (s : State) (p ftype : Nat) (f : TxFlit) (x : Port) : (s.sendFlit p ftype f x).port p = x.afterSend :=
  port_setPort_self s p x.afterSend

/-! #### Training -/

theorem greet_of_align {s : State} {p : Nat} (h : (s.port p).state = .align) : ∃ f, s.greet p = s.sendFlit p 2 f (s.port p) := by
  unfold State.greet
  dsimp only
  rw [h]
  exact ⟨_, rfl⟩

theorem greet_of_negotiate {s : State} {p : Nat} (h : (s.port p).state = .negotiate) :
    ∃ f, s.greet p = s.sendFlit p 3 f (s.port p) := by
  unfold State.greet
  dsimp only
  rw [h]
  exact ⟨_, rfl⟩

theorem greet_of_quiet {s : State} {p : Nat} (h : (s.port p).state = .lock ∨ (s.port p).state = .equalise) : s.greet p = s := by
  unfold State.greet
  dsimp only
  rcases h with h | h <;> rw [h]

/-- What a port of a link that does not run yet says, and what it keeps. -/
theorem greet_kept (s : State) (p : Nat) : PortAlone p s (s.greet p) ∧ (s.greet p).tbk = s.tbk ∧
    ((s.greet p).port p = s.port p ∨ (s.greet p).port p = (s.port p).afterSend) := by
  unfold State.greet
  dsimp only
  split
  · exact ⟨portAlone_sendFlit _ _ _ _ _, rfl, .inr (port_sendFlit_self _ _ _ _ _)⟩
  · exact ⟨portAlone_sendFlit _ _ _ _ _, rfl, .inr (port_sendFlit_self _ _ _ _ _)⟩
  · exact ⟨portAlone_of_within (Within.refl _ _), rfl, .inl rfl⟩

section Advance
variable {s : State} {p : Nat} {e : TrainExit} {y : Port} (hp : p < 4) (hon : s.portOn p = true) (hrail : s.board.hxlRail = true)
include hp hon hrail

theorem exec_linkTrainingAdvance (h : (s.port p).trained e s.tbk = some y) (hy : y.state ≠ .active) :
    exec (.linkTrainingAdvance p e) s = .next ((s.setPort p y).greet p) := by
  change execLinkTrainingAdvance p e s = _
  unfold execLinkTrainingAdvance
  rw [if_neg (Nat.not_le.mpr hp), if_neg (by simp [hon, hrail]), h]
  exact if_neg hy

/-- A link that becomes ACTIVE is logged and traced. -/
theorem exec_linkTrainingAdvance_active (h : (s.port p).trained e s.tbk = some y) (hy : y.state = .active) :
    ∃ t, exec (.linkTrainingAdvance p e) s = .next t ∧ t.port p = y ∧ PortAlone p s t := by
  refine ⟨(((s.setPort p y).logEvent evHXL_LINK 0xFF 0 (unitKey 11 p) [BitVec.ofNat 8 p, if y.width = 8 then 1 else 2]).traceRec
    8 0xFF (unitKey 11 p) (BitVec.ofNat 64 p) (BitVec.ofNat 64 y.state.code)), ?_, ?_, ?_⟩
  · change execLinkTrainingAdvance p e s = _
    unfold execLinkTrainingAdvance
    rw [if_neg (Nat.not_le.mpr hp), if_neg (by simp [hon, hrail]), h]
    exact if_pos hy
  · rw [(Within.traceRec _ _ _ _ _ _).get (fun u => u.port p) (fun _ => rfl)]
    exact ((Within.logEvent _ _ _ _ _ _).get (fun u => u.port p) (fun _ => rfl)).trans (port_setPort_self s p y)
  · exact ((portAlone_setPort s p y).trans (portAlone_of_tells (tells_logEvent _ _ _ _ _ _))).trans
      (portAlone_of_within ((Within.traceRec _ _ _ _ _ _).mono (by decide)))

end Advance

/-- Table 10.2: what every training step keeps of a port that does not become ACTIVE. -/
theorem trained_kept {x y : Port} {e : TrainExit} {now : Nat} (h : x.trained e now = some y) (hy : y.state ≠ .active) :
    y.since = now ∧ y.replay = x.replay ∧ y.txSeq = x.txSeq ∧ y.rxNext = x.rxNext := by
  unfold Port.trained at h
  split at h
  · split at h
    · cases h
      exact ⟨rfl, rfl, rfl, rfl⟩
    · cases h
  · obtain ⟨z, hz, rfl⟩ := Option.map_eq_some_iff.mp h
    unfold Port.lock at hz
    dsimp only at hz
    split at hz
    · cases hz
      exact ⟨rfl, rfl, rfl, rfl⟩
    · cases hz
      exact ⟨rfl, rfl, rfl, rfl⟩
    · cases hz
  · split at h
    · cases h
    · cases h
      exact ⟨rfl, rfl, rfl, rfl⟩
  · cases h
    exact ⟨rfl, rfl, rfl, rfl⟩
  · split at h
    · cases h
      exfalso
      unfold Port.activate at hy
      split at hy
      · exact hy rfl
      · exact hy rfl
    · cases h
  · cases h

/-- The state that follows each training state on its condition. -/
theorem trained_state {x : Port} {e : TrainExit} {st : PortState} (now : Nat)
    (h : ((∃ lanes, (x.state, e) = (.detect, .beacon lanes) ∧ 4 ≤ lanesIn lanes) ∧ st = .lock) ∨
      ((∃ seen, (x.state, e) = (.lock, .locked seen) ∧ (x.lock seen).isSome = true) ∧ st = .equalise) ∨
      ((∃ lanes, (x.state, e) = (.equalise, .equalised lanes) ∧ (usableLanes (x.lanes &&& lanes)).isSome = true) ∧ st = .align) ∨
      ((x.state, e) = (.align, .aligned) ∧ st = .negotiate)) :
    ∃ y, x.trained e now = some y ∧ y.state = st := by
  unfold Port.trained
  rcases h with ⟨⟨lanes, heq, hfour⟩, rfl⟩ | ⟨⟨seen, heq, hlock⟩, rfl⟩ | ⟨⟨lanes, heq, husable⟩, rfl⟩ | ⟨heq, rfl⟩
  all_goals obtain ⟨hstate, rfl⟩ := Prod.mk.inj heq
  all_goals rw [hstate]
  · exact ⟨_, if_pos hfour, rfl⟩
  · obtain ⟨z, hz⟩ := Option.isSome_iff_exists.mp hlock
    exact ⟨_, by dsimp only; rw [hz]; rfl, rfl⟩
  · obtain ⟨m, hm⟩ := Option.isSome_iff_exists.mp husable
    exact ⟨_, by dsimp only; rw [hm], rfl⟩
  · exact ⟨_, rfl, rfl⟩

/-! #### The lanes found in LOCK (R549, R552) -/

/-- A mask collected bit by bit over some lanes. -/
theorem getLsbD_foldl_lanes (c : Nat → Bool) (l : List Nat) (m : BitVec 8) (hl : ∀ n ∈ l, n < 8) {i : Nat} (hi : i < 8) :
    (l.foldl (fun (m : BitVec 8) n => if c n then m ||| (1#8 <<< n) else m) m).getLsbD i =
      (m.getLsbD i || (l.contains i && c i)) := by
  have hbit : ∀ n < 8, ∀ i < 8, (1#8 <<< n).getLsbD i = (i == n) := by decide
  induction l generalizing m with
  | nil => simp
  | cons n l ih =>
    rw [List.foldl_cons, ih _ (fun k hk => hl k (List.mem_cons_of_mem n hk)), List.contains_cons]
    cases hc : c n with
    | true =>
      rw [if_pos rfl, BitVec.getLsbD_or, hbit n (hl n List.mem_cons_self) i hi]
      by_cases hin : i = n
      · rw [hin, hc]
        simp
      · rw [beq_false_of_ne hin, Bool.or_false, Bool.false_or]
    | false =>
      rw [if_neg Bool.false_ne_true]
      by_cases hin : i = n
      · rw [hin, hc]
        simp
      · rw [beq_false_of_ne hin, Bool.false_or]

section Lanes
variable (seen : List (Option (Nat × Bool))) (reversed : Bool)

theorem getLsbD_lanesSeen {i : Nat} (hi : i < 8) :
    (lanesSeen seen reversed).getLsbD i = (seen.getD (wiredTo reversed i) none).any (fun l => l.1 == i) := by
  have hfold : lanesSeen seen reversed = (List.range 8).foldl (fun (m : BitVec 8) n =>
      if (seen.getD (wiredTo reversed n) none).any (fun l => l.1 == n) then m ||| (1#8 <<< n) else m) 0 := by
    unfold lanesSeen
    congr 1
    funext m n
    cases seen.getD (wiredTo reversed n) none with
    | none => rfl
    | some l => simp only [Option.any_some, beq_iff_eq]
  rw [hfold, getLsbD_foldl_lanes _ _ _ (fun n hn => List.mem_range.mp hn) hi]
  simp [hi]

theorem getLsbD_invertedLanes {i : Nat} (hi : i < 8) :
    (invertedLanes seen).getLsbD i = (seen.getD i none).any (fun l => l.2) := by
  have hfold : invertedLanes seen = (List.range 8).foldl (fun (m : BitVec 8) n =>
      if (seen.getD n none).any (fun l => l.2) then m ||| (1#8 <<< n) else m) 0 := by
    unfold invertedLanes
    congr 1
    funext m n
    cases seen.getD n none with
    | none => rfl
    | some l => rfl
  rw [hfold, getLsbD_foldl_lanes _ _ _ (fun n hn => List.mem_range.mp hn) hi]
  simp [hi]

end Lanes

/-- R549, R552: lanes that arrive in one order, all or the lower half, are found in that order, with the inverted ones. -/
theorem lock_of_seen (x : Port) {seen : List (Option (Nat × Bool))} {inverted : BitVec 8} {half reversed : Bool}
    (hsome : ∀ n, n < 8 → half = false ∨ n < 4 → seen.getD (wiredTo reversed n) none =
      some (n, inverted.getLsbD (wiredTo reversed n)))
    (hnone : ∀ n, n < 8 → half = true → 4 ≤ n → seen.getD (wiredTo reversed n) none = none)
    (hinverted : ∀ n, n < 8 → seen.getD n none = none → inverted.getLsbD n = false) :
    x.lock seen = some { x with lanes := if half then 0x0F#8 else 0xFF#8, reversed := reversed, inverted := inverted } := by
  have hwired : ∀ r : Bool, ∀ n < 8, wiredTo r n < 8 ∧ wiredTo r (wiredTo r n) = n ∧ wiredTo (!r) n ≠ wiredTo r n ∧
      wiredTo r (wiredTo (!r) n) ≠ n := by decide
  have hseen : lanesSeen seen reversed = if half then 0x0F#8 else 0xFF#8 := by
    refine BitVec.eq_of_getLsbD_eq fun i hi => ?_
    have hmask : ∀ h : Bool, ∀ i < 8, (if h then 0x0F#8 else 0xFF#8 : BitVec 8).getLsbD i = (!h || decide (i < 4)) := by decide
    rw [getLsbD_lanesSeen seen reversed hi, hmask half i hi]
    by_cases hlow : half = false ∨ i < 4
    · rw [hsome i hi hlow, Option.any_some, beq_self_eq_true]
      rcases hlow with h | h <;> simp [h]
    · obtain ⟨hhalf, hfour⟩ := not_or.mp hlow
      rw [hnone i hi (Bool.eq_true_of_not_eq_false hhalf) (Nat.not_lt.mp hfour)]
      simp [Bool.eq_true_of_not_eq_false hhalf, hfour]
  have hother : lanesSeen seen (!reversed) = 0#8 := by
    refine BitVec.eq_of_getLsbD_eq fun i hi => ?_
    rw [getLsbD_lanesSeen seen (!reversed) hi, BitVec.getLsbD_zero]
    obtain ⟨-, hback, -, hne⟩ := hwired reversed (wiredTo (!reversed) i) (hwired (!reversed) i hi).1
    obtain ⟨hlt, -⟩ := hwired reversed (wiredTo (!reversed) i) (hwired (!reversed) i hi).1
    have hdiff : wiredTo reversed (wiredTo (!reversed) i) ≠ i := (hwired reversed i hi).2.2.2
    by_cases hlow : half = false ∨ wiredTo reversed (wiredTo (!reversed) i) < 4
    · have h := hsome _ hlt hlow
      rw [hback] at h
      rw [h, Option.any_some]
      simpa using hdiff
    · obtain ⟨hhalf, hfour⟩ := not_or.mp hlow
      have h := hnone _ hlt (Bool.eq_true_of_not_eq_false hhalf) (Nat.not_lt.mp hfour)
      rw [hback] at h
      rw [h]
      rfl
  have hinv : invertedLanes seen = inverted := by
    refine BitVec.eq_of_getLsbD_eq fun i hi => ?_
    rw [getLsbD_invertedLanes seen hi]
    obtain ⟨hlt, hback, -⟩ := hwired reversed i hi
    by_cases hlow : half = false ∨ wiredTo reversed i < 4
    · have h := hsome _ hlt hlow
      rw [hback] at h
      rw [h, Option.any_some]
    · obtain ⟨hhalf, hfour⟩ := not_or.mp hlow
      have h := hnone _ hlt (Bool.eq_true_of_not_eq_false hhalf) (Nat.not_lt.mp hfour)
      rw [hback] at h
      rw [h, hinverted i hi h]
      rfl
  have husable : usableLanes (if half then 0x0F#8 else 0xFF#8) = some (if half then 0x0F#8 else 0xFF#8) := by
    cases half <;> rfl
  have hunusable : usableLanes 0#8 = none := by decide
  unfold Port.lock
  cases reversed with
  | false => rw [hseen, husable, hinv]
  | true =>
    rw [Bool.not_true] at hother
    rw [hother, hunusable, hseen, husable, hinv]

/-! #### A link that goes down (R562) -/

/-- From s to t ports only gain flits that wait. -/
def MoreWait (s t : State) : Prop := ∀ k, ∃ w, t.port k = { s.port k with waiting := w }

theorem moreWait_refl (s : State) : MoreWait s s := fun _ => ⟨_, rfl⟩

theorem moreWait_of_ports {s t : State} (h : t.ports = s.ports) : MoreWait s t := fun k => ⟨_, by rw [State.port, h]; rfl⟩

theorem MoreWait.trans {r s t : State} (h : MoreWait r s) (g : MoreWait s t) : MoreWait r t := fun k => by
  obtain ⟨v, hv⟩ := h k
  obtain ⟨w, hw⟩ := g k
  exact ⟨w, by rw [hw, hv]⟩

theorem moreWait_queueFlits (s : State) (p : Nat) (fs : List TxFlit) : MoreWait s (s.queueFlits p fs) := fun k => by
  unfold State.queueFlits
  rw [State.port_setPort]
  split
  next h => exact ⟨_, by rw [h]⟩
  next => exact ⟨_, rfl⟩

theorem moreWait_foldl_queueFlits (l : List Nat) (s : State) (fs : List TxFlit) :
    MoreWait s (l.foldl (fun s p => s.queueFlits p fs) s) := by
  induction l generalizing s with
  | nil => exact moreWait_refl s
  | cons p l ih => exact (moreWait_queueFlits s p fs).trans (ih _)

theorem moreWait_sendMessage (s : State) (dst kind vc : Nat) (content : Bytes) : MoreWait s (s.sendMessage dst kind vc content) := by
  unfold State.sendMessage
  dsimp only
  split
  · exact moreWait_of_ports rfl
  · split
    · exact (moreWait_of_ports rfl).trans (moreWait_foldl_queueFlits _ _ _)
    · split
      · exact moreWait_of_ports rfl
      · exact (moreWait_of_ports rfl).trans (moreWait_queueFlits _ _ _)

/-- The link of a port given up. -/
def State.linkReset (s : State) (p : Nat) : State :=
  ((s.advance ((s.port p).retrainAt + 100000000)).setPort p (s.port p).down).count 3 (8 * p + 7) 1

/-- The loss of a link logged. -/
def State.linkLogged (s : State) (p : Nat) : State :=
  s.logEvent evHXL_LINK 0xFF (Config.severity evHXL_LINK) (unitKey 11 p) [BitVec.ofNat 8 p, 0]

/-- The link of a port lost, before the lead is told. -/
def State.linkLost (s : State) (p : Nat) : State :=
  let t := (s.linkReset p).linkLogged p
  t.traceRec 8 0xFF (unitKey 11 p) (BitVec.ofNat 64 p) (BitVec.ofNat 64 (t.port p).state.code)

theorem portAlone_linkReset (s : State) (p : Nat) : PortAlone p s (s.linkReset p) := by
  have htime : Within [.out, .tbk, .trace, .counters] s (s.advance ((s.port p).retrainAt + 100000000)) := rfl
  have hcount : Within [.out, .tbk, .trace, .counters] ((s.advance ((s.port p).retrainAt + 100000000)).setPort p (s.port p).down)
    (s.linkReset p) := rfl
  exact ((portAlone_of_within htime).trans (portAlone_setPort _ p _)).trans (portAlone_of_within hcount)

theorem linkLost_kept (s : State) (p : Nat) : PortAlone p s (s.linkLost p) ∧ (s.linkLost p).port p = (s.port p).down ∧
    (s.linkLost p).tbk = max s.tbk ((s.port p).retrainAt + 100000000) ∧ (s.linkLost p).follows = s.follows := by
  have hreset : Within [.tbk, .ports, .counters] s (s.linkReset p) := rfl
  have hport : (s.linkReset p).port p = (s.port p).down := port_setPort_self (s.advance _) p _
  have halone := portAlone_linkReset s p
  have htbk : (s.linkReset p).tbk = max s.tbk ((s.port p).retrainAt + 100000000) := rfl
  unfold State.linkLost
  generalize s.linkReset p = u at *
  have hlog : Within [.out, .rings, .log, .counters, .fns] u (u.linkLogged p) := Within.logEvent _ _ _ _ _ _
  have htells : Tells u (u.linkLogged p) := tells_logEvent _ _ _ _ _ _
  generalize u.linkLogged p = v at *
  have htrace := Within.traceRec v 8 0xFF (unitKey 11 p) (BitVec.ofNat 64 p) (BitVec.ofNat 64 (v.port p).state.code)
  refine ⟨(halone.trans (portAlone_of_tells htells)).trans (portAlone_of_within (htrace.mono (by decide))), ?_, ?_, ?_⟩
  · exact ((htrace.get (fun u => u.port p) (fun _ => rfl)).trans (hlog.get (fun u => u.port p) (fun _ => rfl))).trans hport
  · exact ((htrace.get State.tbk (fun _ => rfl)).trans (hlog.get State.tbk (fun _ => rfl))).trans htbk
  · exact ((htrace.get State.follows (fun _ => rfl)).trans (hlog.get State.follows (fun _ => rfl))).trans
      (hreset.get State.follows (fun _ => rfl))

theorem exec_linkDown {s : State} {p : Nat} (hp : p < 4) (hon : s.portOn p = true) (h : (s.port p).retraining = true) :
    exec (.linkDown p) s = .next ((s.linkLost p).reportLink p) := by
  change execLinkDown p s = _
  unfold execLinkDown
  rw [if_neg (Nat.not_le.mpr hp), if_neg (by simp [hon, h])]
  rfl

/-- R562: the lead's own port, or a follower's with its report to the lead. -/
theorem reportLink_kept (s : State) (p : Nat) : MoreWait s (s.reportLink p) ∧ Within [.out, .ports] s (s.reportLink p) ∧
    (s.follows = false → s.reportLink p = s) ∧
    (s.follows = true → (s.reportLink p).out = .message s.casc.leadOrdinal msgLINK_DOWN (leBytes 1 p) :: s.out) := by
  unfold State.reportLink
  cases s.follows with
  | false => exact ⟨moreWait_refl s, Within.refl _ _, fun _ => rfl, fun h => (nomatch h)⟩
  | true => exact ⟨moreWait_sendMessage _ _ _ _ _, Within.sendMessage _ _ _ _ _, fun h => (nomatch h), fun _ => out_sendMessage _ _ _ _ _⟩

/-! #### The obligation -/

/-- R561: an ACTIVE port that loses its lock, or resends a flit eight times, trains again. -/
theorem exec_retrain {s : State} {p : Nat} {i : Instr} (hp : p < 4) (hon : s.portOn p = true)
    (hi : i = .lossOfLock p ∨ (i = .linkRetrain p ∧ ∃ f ∈ (s.port p).replay, 8 ≤ f.resends)) (hactive : (s.port p).state = .active) :
    exec i s = .next (s.retrainPort p) := by
  rcases hi with rfl | ⟨rfl, f, hf, height⟩
  · change execLossOfLock p s = _
    unfold execLossOfLock
    rw [if_neg (Nat.not_le.mpr hp), if_neg (by simp [hon, hactive])]
  · change execLinkRetrain p s = _
    have hany : (s.port p).replay.any (fun f => 8 ≤ f.resends) = true :=
      List.any_eq_true.mpr ⟨f, hf, decide_eq_true height⟩
    unfold execLinkRetrain
    rw [if_neg (Nat.not_le.mpr hp), if_neg (by rw [hany, hon, hactive]; decide)]

theorem usableLanes_eq (m : BitVec 8) : usableLanes m = if m = 0xFF#8 then some 0xFF#8
    else if m &&& 0x0F#8 = 0x0F#8 then some 0x0F#8 else if m &&& 0xF0#8 = 0xF0#8 then some 0xF0#8 else none := by
  unfold usableLanes
  split
  next h => rw [h]
  next => rfl

section Ports
variable {s : State} {p : Nat} (hp : p < 4) (hon : s.portOn p = true)
include hp hon

/-- Table 10.2: a port in DETECT sends a beacon at the next multiple of 100 ms behind its start. -/
theorem exec_beacon (hrail : s.board.hxlRail = true) (hdetect : (s.port p).state = .detect) :
    exec (.beacon p) s = .next ((s.advance ((s.port p).since +
      ((s.tbk - (s.port p).since) / 100000000 + 1) * 100000000)).emit (.beacon p)) := by
  change execBeacon p s = _
  unfold execBeacon
  rw [if_neg (Nat.not_le.mpr hp), if_neg (by simp [hon, hrail, hdetect])]

/-- Table 10.2: an exit condition leads to the next state, and ALIGN and NEGOTIATE open with a flit. -/
theorem training_advances (hrail : s.board.hxlRail = true) {e : TrainExit} {y : Port}
    (h : (s.port p).trained e s.tbk = some y) (hy : y.state ≠ .active) :
    ∃ t : State, exec (.linkTrainingAdvance p e) s = .next t ∧ (t.port p).state = y.state ∧ (t.port p).since = s.tbk ∧
      (t.port p).replay = (s.port p).replay ∧ (t.port p).txSeq = (s.port p).txSeq ∧ (t.port p).rxNext = (s.port p).rxNext ∧
      t.tbk = s.tbk ∧ PortAlone p s t ∧ (y.state = .lock ∨ y.state = .equalise → t.out = s.out) ∧
      (y.state = .align → ∃ b : Bytes, t.out = .flit p b :: s.out ∧ b.length = 256 ∧ num b 0 1 % 16 = 2) ∧
      (y.state = .negotiate → ∃ b : Bytes, t.out = .flit p b :: s.out ∧ b.length = 256 ∧ num b 0 1 % 16 = 3) := by
  obtain ⟨hsince, hreplay, htx, hrx⟩ := trained_kept h hy
  obtain ⟨halone, htbk, hport⟩ := greet_kept (s.setPort p y) p
  have hset := port_setPort_self s p y
  rw [hset] at hport
  have hfields : ((s.setPort p y).greet p).port p = y ∨ ((s.setPort p y).greet p).port p = y.afterSend := hport
  refine ⟨_, exec_linkTrainingAdvance hp hon hrail h hy, ?_, ?_, ?_, ?_, ?_, htbk, (portAlone_setPort s p y).trans halone,
    fun hquiet => ?_, fun halign => ?_, fun hneg => ?_⟩
  · rcases hfields with h | h <;> rw [h] <;> rfl
  · rcases hfields with h | h <;> rw [h] <;> exact hsince
  · rcases hfields with h | h <;> rw [h] <;> exact hreplay
  · rcases hfields with h | h <;> rw [h] <;> exact htx
  · rcases hfields with h | h <;> rw [h] <;> exact hrx
  · rw [greet_of_quiet (by rwa [hset])]
    rfl
  · obtain ⟨f, hf⟩ := greet_of_align (s := s.setPort p y) (p := p) (by rwa [hset])
    obtain ⟨hlength, htype, -⟩ := flitBytes_fields ((s.setPort p y).port p) 2 f
    exact ⟨_, by rw [hf]; rfl, hlength, htype (by decide)⟩
  · obtain ⟨f, hf⟩ := greet_of_negotiate (s := s.setPort p y) (p := p) (by rwa [hset])
    obtain ⟨hlength, htype, -⟩ := flitBytes_fields ((s.setPort p y).port p) 3 f
    exact ⟨_, by rw [hf]; rfl, hlength, htype (by decide)⟩

/-- R561: what a port is when its link becomes ACTIVE. -/
theorem training_ends (hrail : s.board.hxlRail = true) {serial : BitVec 64} {pport role version width : Nat}
    (hneg : (s.port p).state = .negotiate) (hwidth : width = 4 ∨ width = 8) :
    ∃ t : State, exec (.linkTrainingAdvance p (.hello serial pport role version width)) s = .next t ∧
      t.port p = (s.port p).activate s.tbk (min (widthOf (s.port p).lanes) width) serial pport ∧ PortAlone p s t := by
  refine exec_linkTrainingAdvance_active hp hon hrail ?_ ?_
  · unfold Port.trained
    rw [hneg]
    exact if_pos hwidth
  · unfold Port.activate
    split <;> rfl

theorem training_times_out {n : Nat} (hlimit : (s.port p).state.limit = some n) :
    exec (.trainingTimeout p) s = .next (((s.advance ((s.port p).since + n)).setPort p
      (((s.advance ((s.port p).since + n)).port p).enter .detect (s.advance ((s.port p).since + n)).tbk)).count 3 (8 * p + 5) 1) := by
  change execTrainingTimeout p s = _
  unfold execTrainingTimeout
  rw [if_neg (Nat.not_le.mpr hp), if_neg (by simp [hon]), hlimit]

end Ports

/-- Settles O50: each training event replaces the one port and perhaps sends one flit; the rest of what the statement speaks of is kept
by logging, tracing and counting. -/
theorem linkTraining : Obligations.LinkTraining := by
  unfold Obligations.LinkTraining
  refine ⟨?_, ?_⟩
  · intro s p hp hon hrail x same
    refine ⟨fun hdetect => ?_, fun e st h => ?_, fun seen inverted half reversed hlock _ hsome hnone hinverted => ?_,
      fun serial pport role version width hneg hwidth => ?_, fun n hlimit => ?_, usableLanes_eq⟩
    · refine ⟨_, exec_beacon hp hon hrail hdetect, rfl, ?_, fun hsince => ?_, rfl, portAlone_of_within rfl⟩
      · change s.tbk < max s.tbk ((s.port p).since + ((s.tbk - (s.port p).since) / 100000000 + 1) * 100000000)
        omega
      · change (max s.tbk ((s.port p).since + ((s.tbk - (s.port p).since) / 100000000 + 1) * 100000000) - (s.port p).since) %
            100000000 = 0 ∧
          max s.tbk ((s.port p).since + ((s.tbk - (s.port p).since) / 100000000 + 1) * 100000000) ≤ s.tbk + 100000000
        change (s.port p).since ≤ s.tbk at hsince
        omega
    · obtain ⟨y, hy, rfl⟩ := trained_state s.tbk h
      refine training_advances hp hon hrail hy ?_
      rcases h with ⟨-, h⟩ | ⟨-, h⟩ | ⟨-, h⟩ | ⟨-, h⟩ <;> rw [h] <;> decide
    · have htrained : (s.port p).trained (.locked seen) s.tbk = some ({ s.port p with
          lanes := if half then 0x0F#8 else 0xFF#8, reversed := reversed, inverted := inverted }.enter .equalise s.tbk) := by
        unfold Port.trained
        rw [show (s.port p).state = .lock from hlock]
        dsimp only
        rw [lock_of_seen (s.port p) hsome hnone hinverted]
        rfl
      have hexec := exec_linkTrainingAdvance hp hon hrail htrained PortState.noConfusion
      rw [greet_of_quiet (by rw [port_setPort_self]; exact .inr rfl)] at hexec
      have hport := port_setPort_self s p ({ s.port p with
        lanes := if half then 0x0F#8 else 0xFF#8, reversed := reversed, inverted := inverted }.enter .equalise s.tbk)
      exact ⟨_, hexec, by rw [hport]; rfl, by rw [hport]; rfl, by rw [hport]; rfl, by rw [hport]; rfl⟩
    · obtain ⟨t, hexec, hport, halone⟩ := training_ends (serial := serial) (pport := pport) (role := role) (version := version)
        hp hon hrail hneg hwidth
      refine ⟨t, hexec, ?_⟩
      unfold Port.activate at hport
      cases hretrain : (s.port p).retraining with
      | true =>
        rw [if_pos hretrain] at hport
        rw [hport]
        exact ⟨rfl, rfl, rfl, rfl, rfl, rfl, rfl, fun _ => ⟨rfl, rfl, rfl⟩, fun h => (nomatch h), halone⟩
      | false =>
        rw [if_neg (by rw [hretrain]; decide)] at hport
        rw [hport]
        exact ⟨rfl, rfl, rfl, rfl, rfl, rfl, rfl, fun h => (nomatch h), fun _ => ⟨rfl, rfl⟩, halone⟩
    · refine ⟨_, training_times_out hp hon hlimit, ?_, rfl, ?_, ?_⟩
      · exact congrArg Port.state (port_setPort_self (s.advance _) p _)
      · exact ((portAlone_of_within (show Within [.out, .tbk, .trace, .counters] s (s.advance ((s.port p).since + n)) from rfl)).trans
          (portAlone_setPort _ p _)).trans (portAlone_of_tells (tells_count _ 3 (8 * p + 5) 1))
      · exact FMap.getD_set_self _ _ _ _
  · intro s p hp hon x
    refine ⟨fun hrail => ⟨?_, fun e => ?_⟩, fun i hi hactive => ?_, fun hretrain => ?_⟩
    · change execBeacon p s = _
      unfold execBeacon
      rw [if_neg (Nat.not_le.mpr hp), if_pos (by simp [hrail])]
    · change execLinkTrainingAdvance p e s = _
      unfold execLinkTrainingAdvance
      rw [if_neg (Nat.not_le.mpr hp), if_pos (by simp [hrail])]
    · exact ⟨_, exec_retrain hp hon hi hactive, port_setPort_self s p _, (portAlone_setPort s p _).1, rfl, rfl, rfl⟩
    · obtain ⟨halone, hport, htbk, hfollows⟩ := linkLost_kept s p
      obtain ⟨hwait, hwithin, hsilent, htold⟩ := reportLink_kept (s.linkLost p) p
      obtain ⟨hports, -, -, hfields, hindexes, hcasc⟩ := halone
      obtain ⟨w, hw⟩ := hwait p
      rw [hport] at hw
      rw [hfollows] at hsilent htold
      refine ⟨_, exec_linkDown hp hon hretrain, by rw [hw]; rfl, by rw [hw]; rfl, by rw [hw]; rfl,
        (hwithin.get State.tbk (fun _ => rfl)).trans htbk, (hwithin.get State.casc (fun _ => rfl)).trans hcasc,
        (hwithin.get State.fields (fun _ => rfl)).trans hfields, (hwithin.get State.indexes (fun _ => rfl)).trans hindexes,
        fun h => ?_, fun h => ?_⟩
      · rw [hsilent h, hport]
        exact ⟨rfl, hports⟩
      · rw [htold h, hcasc]
        rfl

end Sys2Proof.Machine

/-! ### Flits sent and received (R549, R555 to R564, R745) -/

namespace Sys2Proof.Machine

/-! #### Transmission -/

/-- What the statements say of the one flit that a port sends. -/
theorem sendFlit_sends (s : State) (p ftype : Nat) (f : TxFlit) (x : Port) (htype : ftype < 16) :
    ∃ b : Bytes, (s.sendFlit p ftype f x).out = .flit p b :: s.out ∧ b.length = 256 ∧ num b 0 1 % 16 = ftype ∧
      num b 1 2 = f.seq.toNat ∧ num b 248 8 = (crc64 (b.take 248)).toNat := by
  obtain ⟨hlength, hftype, hseq, hcheck⟩ := flitBytes_fields x ftype f
  exact ⟨_, rfl, hlength, hftype htype, hseq, hcheck⟩

theorem length_dropFirst {α : Type} {q : α → Bool} {l : List α} (h : ∃ a ∈ l, q a = true) : (dropFirst q l).length + 1 = l.length := by
  induction l with
  | nil => obtain ⟨a, ha, -⟩ := h; cases ha
  | cons b l ih =>
    unfold dropFirst
    split
    · rfl
    · next hb =>
      obtain ⟨a, ha, hq⟩ := h
      rcases List.mem_cons.mp ha with rfl | hl
      · exact absurd hq hb
      · rw [List.length_cons, ih ⟨a, hl, hq⟩, List.length_cons]

theorem mem_waiting_of_nextOf {x : Port} {n vc : Nat} {f : TxFlit} (h : x.nextOf n vc = some f) : f ∈ x.waiting :=
  List.mem_of_find?_eq_some h

/-- R558, R564: a new flit waits, and the replay buffer has room. -/
theorem nextNew_spec {x : Port} {n : Nat} {f : TxFlit} (h : x.nextNew n = some f) : f ∈ x.waiting ∧ x.replay.length < 512 := by
  unfold Port.nextNew at h
  split at h
  · cases h
  · next hroom =>
    refine ⟨?_, Nat.not_le.mp hroom⟩
    split at h
    · next g hg =>
      split at h
      · cases h
        exact mem_waiting_of_nextOf hg
      · rcases (Option.orElse_eq_some _ _ _).mp h with h0 | ⟨-, h⟩
        · exact mem_waiting_of_nextOf h0
        · rcases (Option.orElse_eq_some _ _ _).mp h with h1 | ⟨-, h⟩
          · exact mem_waiting_of_nextOf h1
          · cases h
            exact mem_waiting_of_nextOf hg
    · rcases (Option.orElse_eq_some _ _ _).mp h with h0 | ⟨-, h1⟩
      · exact mem_waiting_of_nextOf h0
      · exact mem_waiting_of_nextOf h1

/-- A port with a flit of its replay buffer sent again. -/
def Port.resent (x : Port) (f : TxFlit) : Port :=
  { x with replay := x.replay.map (fun g => if g.seq = f.seq then { g with sent := true, resends := g.resends + 1 } else g) }

/-- A port with a new flit sent. -/
def Port.sentNew (x : Port) (f : TxFlit) (now : Nat) : Port :=
  { x with
    txSeq := x.txSeq + 1, waiting := dropFirst (fun h => h == f) x.waiting
    replay := x.replay ++ [{ f with seq := x.txSeq, sent := true }]
    ackProgress := if x.replay.isEmpty then now else x.ackProgress
    credits := FMap.set x.credits f.key (FMap.getD x.credits f.key 0 - 1)
    sinceVc2 := if f.vc = 2 then 0 else x.sinceVc2 + 1 }

theorem seqs_resent (x : Port) (f : TxFlit) : (x.resent f).replay.map (fun g => g.seq) = x.replay.map (fun g => g.seq) := by
  rw [Port.resent, List.map_map]
  refine List.map_congr_left fun g _ => ?_
  dsimp only [Function.comp]
  split <;> rfl

theorem sent_resent (x : Port) (f g : TxFlit) (hg : g ∈ (x.resent f).replay) (hseq : g.seq = f.seq) : g.sent = true := by
  obtain ⟨h, -, rfl⟩ := List.mem_map.mp hg
  split at hseq
  next heq => rw [if_pos heq]
  next hne => exact absurd hseq hne

section Transmit
variable {s : State} {p : Nat} (hp : p < 4) (hon : s.portOn p = true) (hactive : (s.port p).state = .active)
include hp hon hactive

theorem exec_flitTransmit_resent {f : TxFlit} (h : (s.port p).replay.find? (fun f => !f.sent) = some f) :
    exec (.flitTransmit p) s = .next ((s.sendFlit p 1 f ((s.port p).resent f)).count 3 (8 * p + 3) 1) := by
  change execFlitTransmit p s = _
  unfold execFlitTransmit
  rw [if_neg (Nat.not_le.mpr hp), if_neg (by simp [hon, hactive])]
  dsimp only
  rw [h]
  rfl

theorem exec_flitTransmit_new {f : TxFlit} (h : (s.port p).replay.find? (fun f => !f.sent) = none)
    (hnew : (s.port p).nextNew (s.control 5 0xFF p) = some f) :
    exec (.flitTransmit p) s = .next ((s.sendFlit p 1 { f with seq := (s.port p).txSeq, sent := true }
      ((s.port p).sentNew f s.tbk)).count 3 (8 * p) 1) := by
  change execFlitTransmit p s = _
  unfold execFlitTransmit
  rw [if_neg (Nat.not_le.mpr hp), if_neg (by simp [hon, hactive])]
  dsimp only
  rw [h]
  dsimp only
  rw [hnew]
  rfl

theorem exec_flitTransmit_idle (h : (s.port p).replay.find? (fun f => !f.sent) = none)
    (hnew : (s.port p).nextNew (s.control 5 0xFF p) = none) :
    exec (.flitTransmit p) s = .next (s.sendFlit p 0 ⟨0, 0, 0, [], false, 0⟩ (s.port p)) := by
  change execFlitTransmit p s = _
  unfold execFlitTransmit
  rw [if_neg (Nat.not_le.mpr hp), if_neg (by simp [hon, hactive])]
  dsimp only
  rw [h]
  dsimp only
  rw [hnew]

theorem exec_replayTimeout (h : (s.port p).replay ≠ []) :
    exec (.replayTimeout p) s = .next ((s.advance ((s.port p).ackProgress + 2000)).setPort p
      { (s.port p).replayAll with ackProgress := max s.tbk ((s.port p).ackProgress + 2000) }) := by
  change execReplayTimeout p s = _
  unfold execReplayTimeout
  rw [if_neg (Nat.not_le.mpr hp), if_neg (by simp [hon, hactive, h])]
  rfl

end Transmit

/-- R557 to R560, R564: what a port that runs sends, and what it keeps to send again. -/
theorem flits_sent (s : State) (p : Nat) (hp : p < 4) (hon : s.portOn p = true) (hactive : (s.port p).state = .active) :
    let x := s.port p
    let sends := fun (t : State) (ftype seq : Nat) => ∃ b : Bytes, t.out = .flit p b :: s.out ∧ b.length = 256 ∧
      num b 0 1 % 16 = ftype ∧ num b 1 2 = seq ∧ num b 248 8 = (crc64 (b.take 248)).toNat
    (∀ f, x.replay.find? (fun f => !f.sent) = some f → ∃ t : State, exec (.flitTransmit p) s = .next t ∧
      sends t 1 f.seq.toNat ∧ (t.port p).replay.map (fun g => g.seq) = x.replay.map (fun g => g.seq) ∧
      (∀ g ∈ (t.port p).replay, g.seq = f.seq → g.sent = true) ∧ (t.port p).waiting = x.waiting ∧
      (t.port p).credits = x.credits ∧ (t.port p).txSeq = x.txSeq) ∧
    (x.replay.find? (fun f => !f.sent) = none → ∀ f, x.nextNew (s.control 5 0xFF p) = some f →
      ∃ t : State, exec (.flitTransmit p) s = .next t ∧ sends t 1 x.txSeq.toNat ∧ (t.port p).txSeq = x.txSeq + 1 ∧
        (t.port p).replay = x.replay ++ [{ f with seq := x.txSeq, sent := true }] ∧
        FMap.getD (t.port p).credits f.key 0 = FMap.getD x.credits f.key 0 - 1 ∧
        (t.port p).waiting.length + 1 = x.waiting.length ∧ x.replay.length < 512) ∧
    (x.replay.find? (fun f => !f.sent) = none → x.nextNew (s.control 5 0xFF p) = none →
      ∃ t : State, exec (.flitTransmit p) s = .next t ∧ sends t 0 0 ∧ (t.port p).replay = x.replay ∧
        (t.port p).waiting = x.waiting ∧ (t.port p).credits = x.credits ∧ (t.port p).txSeq = x.txSeq) ∧
    (x.replay ≠ [] → ∃ t : State, exec (.replayTimeout p) s = .next t ∧ t.tbk = max s.tbk (x.ackProgress + 2000) ∧
      (t.port p).replay = x.replay.map (fun f => { f with sent := false }) ∧ (t.port p).txSeq = x.txSeq ∧
      (t.port p).waiting = x.waiting ∧ t.out = s.out) := by
  intro x sends
  have hport (ftype g : Nat) (f : TxFlit) (y : Port) : ((s.sendFlit p ftype f y).count 3 g 1).port p = y.afterSend :=
    port_sendFlit_self s p ftype f y
  refine ⟨fun f h => ?_, fun h f hnew => ?_, fun h hnew => ?_, fun h => ?_⟩
  · refine ⟨_, exec_flitTransmit_resent hp hon hactive h, sendFlit_sends s p 1 f _ (by decide), ?_⟩
    rw [hport]
    exact ⟨seqs_resent x f, sent_resent x f, rfl, rfl, rfl⟩
  · obtain ⟨hwaits, hroom⟩ := nextNew_spec hnew
    refine ⟨_, exec_flitTransmit_new hp hon hactive h hnew, sendFlit_sends s p 1 _ _ (by decide), ?_⟩
    rw [hport]
    exact ⟨rfl, rfl, FMap.getD_set_self _ _ _ _, length_dropFirst ⟨f, hwaits, beq_self_eq_true f⟩, hroom⟩
  · refine ⟨_, exec_flitTransmit_idle hp hon hactive h hnew, sendFlit_sends s p 0 _ _ (by decide), ?_⟩
    rw [port_sendFlit_self]
    exact ⟨rfl, rfl, rfl, rfl⟩
  · refine ⟨_, exec_replayTimeout hp hon hactive h, rfl, ?_⟩
    rw [port_setPort_self]
    exact ⟨rfl, rfl, rfl, rfl⟩

/-! #### A flit put together from the lanes (R549, R555) -/

theorem length_gather (x : Port) (lanes : List Bytes) : (x.gather lanes).length = 256 := by
  rw [Port.gather, List.length_map, List.length_range]

theorem getD_gather {x : Port} (lanes : List Bytes) (hinverted : x.inverted = 0) (hwidth : x.width = 8) {n : Nat} (hn : n < 256) :
    (x.gather lanes).getD n 0 = (lanes.getD (if x.reversed then 7 - n % 8 else n % 8) []).getD (n / 8) 0 := by
  rw [Port.gather, List.getD_eq_getElem?_getD, List.getElem?_map, List.getElem?_range hn, Option.map_some, Option.getD_some]
  dsimp only
  unfold Port.polarised Port.laneOf wiredTo
  rw [hinverted, hwidth, if_pos rfl, if_neg (by simp)]

/-! #### Reception -/

/-- The port with what every good flit carries: the acknowledgement, a `nak` and the credits returned. -/
def Port.heard (x : Port) (b : Bytes) (now : Nat) : Port :=
  let y := x.acked (BitVec.ofNat 12 (num b 3 2)) now
  let y := if flag b 0 7 then y.replayAll else y
  y.credited (num b 5 1 % 4 * 2 + num b 5 1 / 4 % 2) (num b 6 1)

/-- What the acknowledgement and the credits keep. -/
theorem heard_kept (x : Port) (b : Bytes) (now : Nat) :
    (x.heard b now).state = x.state ∧ (x.heard b now).rxNext = x.rxNext ∧ (x.heard b now).owed = x.owed ∧
      (x.heard b now).replay.map (fun f => f.seq) =
        (x.acked (BitVec.ofNat 12 (num b 3 2)) now).replay.map (fun f => f.seq) := by
  have hacked : (x.acked (BitVec.ofNat 12 (num b 3 2)) now).state = x.state ∧
      (x.acked (BitVec.ofNat 12 (num b 3 2)) now).rxNext = x.rxNext ∧ (x.acked (BitVec.ofNat 12 (num b 3 2)) now).owed = x.owed := by
    unfold Port.acked
    split
    · exact ⟨rfl, rfl, rfl⟩
    · exact ⟨rfl, rfl, rfl⟩
  unfold Port.heard
  dsimp only
  generalize x.acked (BitVec.ofNat 12 (num b 3 2)) now = y at *
  have hreplayed : (if flag b 0 7 then y.replayAll else y).state = y.state ∧
      (if flag b 0 7 then y.replayAll else y).rxNext = y.rxNext ∧ (if flag b 0 7 then y.replayAll else y).owed = y.owed ∧
      (if flag b 0 7 then y.replayAll else y).replay.map (fun f => f.seq) = y.replay.map (fun f => f.seq) := by
    split
    · refine ⟨rfl, rfl, rfl, ?_⟩
      rw [Port.replayAll, List.map_map]
      rfl
    · exact ⟨rfl, rfl, rfl, rfl⟩
  generalize (if flag b 0 7 then y.replayAll else y) = z at *
  obtain ⟨hstate, hrx, howed⟩ := hacked
  obtain ⟨zstate, zrx, zowed, zreplay⟩ := hreplayed
  unfold Port.credited
  split
  · exact ⟨zstate.trans hstate, zrx.trans hrx, zowed.trans howed, zreplay⟩
  · exact ⟨zstate.trans hstate, zrx.trans hrx, zowed.trans howed, zreplay⟩

/-- R558, R560: the flits up to the acknowledged one leave the replay buffer. -/
theorem replay_acked {x : Port} {now : Nat} {before after : List TxFlit} {g : TxFlit} (hsplit : x.replay = before ++ g :: after)
    (hbefore : ∀ f ∈ before, f.seq ≠ g.seq) : (x.acked g.seq now).replay = after := by
  have hany : x.replay.any (fun f => f.seq == g.seq) = true :=
    List.any_eq_true.mpr ⟨g, by rw [hsplit]; simp, beq_self_eq_true _⟩
  have hall : ∀ f ∈ before, (f.seq != g.seq) = true := fun f hf => bne_iff_ne.mpr (hbefore f hf)
  unfold Port.acked
  rw [if_pos hany]
  dsimp only
  rw [hsplit, List.dropWhile_append_of_pos hall, List.dropWhile_cons_of_neg (by simp), List.drop_one, List.tail_cons]

/-- What a received flit may change of a state: one port's fields, flits that wait, and counters. -/
theorem takeFlit_kept (s : State) (p : Nat) (f : TxFlit) :
    Within [.ports] s (s.takeFlit p f) ∧ ((s.takeFlit p f).port p).rxNext = (s.port p).rxNext + 1 ∧
      ((s.takeFlit p f).port p).nakSent = false ∧ ((s.takeFlit p f).port p).replay = (s.port p).replay ∧
      ((s.takeFlit p f).port p).owed = FMap.set (s.port p).owed f.key (FMap.getD (s.port p).owed f.key 0 + 1) := by
  have hforward (t : State) (vc half : Nat) (b : Bytes) : Within [.ports] t (t.forward p vc half b) ∧
      MoreWait t (t.forward p vc half b) := by
    unfold State.forward
    dsimp only
    split
    · exact ⟨Within.refl _ _, moreWait_refl t⟩
    · split
      · exact ⟨Within.refl _ _, moreWait_refl t⟩
      · exact ⟨rfl, moreWait_queueFlits _ _ _⟩
  unfold State.takeFlit
  dsimp only
  split
  · refine ⟨rfl, ?_⟩
    rw [port_setPort_self]
    exact ⟨rfl, rfl, rfl, rfl⟩
  · next b _ =>
    obtain ⟨hwithin, hwait⟩ := hforward (s.setPort p { s.port p with
      rxNext := (s.port p).rxNext + 1, nakSent := false
      owed := FMap.set (s.port p).owed f.key (FMap.getD (s.port p).owed f.key 0 + 1)
      received := (s.port p).received.filter (fun g => g.key != f.key) }) f.vc f.half b
    obtain ⟨w, hw⟩ := hwait p
    rw [port_setPort_self] at hw
    have hset : Within [.ports] s (s.setPort p { s.port p with
      rxNext := (s.port p).rxNext + 1, nakSent := false
      owed := FMap.set (s.port p).owed f.key (FMap.getD (s.port p).owed f.key 0 + 1)
      received := (s.port p).received.filter (fun g => g.key != f.key) }) := rfl
    refine ⟨hset.trans hwithin, ?_⟩
    rw [hw]
    exact ⟨rfl, rfl, rfl, rfl⟩

/-- The state in which a flit that crossed to the port's logic is taken. -/
def State.crossed (s : State) (p : Nat) (b : Bytes) : State := (s.cross (352 + p) b).1

theorem crossed_spec {s : State} {p : Nat} (hp : p < 4) (b : Bytes) (hempty : (s.crossing (352 + p)).entries = []) :
    (s.cross (352 + p) b).2 = b ∧ Within [.tbk, .crossings] s (s.crossed p b) ∧
      (s.crossed p b).tbk = s.tbk + cyclesNs 2000 (3 + s.control 0 0xFF (352 + p)) ∧
      ((s.crossed p b).crossing (352 + p)).entries = [] ∧
      ((s.crossed p b).crossing (352 + p)).written = (s.crossing (352 + p)).written + 1 := by
  have hends : crossingEnds (352 + p) = some (.hx p, .nck) := by
    have h : ∀ p < 4, crossingEnds (352 + p) = some (.hx p, .nck) := by decide
    exact h p hp
  have hvisible : s.visibleAt (352 + p) = some (s.tbk + cyclesNs 2000 (s.crossCycles (352 + p))) := by
    unfold State.visibleAt
    rw [hends]
    rfl
  have hcross := cross_empty s (352 + p) b _ hempty hvisible
  unfold State.crossed
  rw [hcross]
  refine ⟨rfl, rfl, Nat.max_eq_right (Nat.le_add_right _ _), ?_, ?_⟩
  · rw [crossing_setCrossing, if_pos rfl]
  · rw [crossing_setCrossing, if_pos rfl]

/-- What a good flit does with a port that has heard its head: it is only heard, taken, or refused. -/
def State.flitHeard (t : State) (p : Nat) (b : Bytes) (y : Port) : State :=
  if (num b 0 1 % 16 == 1) = false then t.setPort p y
  else if y.state = .active ∧ BitVec.ofNat 12 (num b 1 2) = y.rxNext then
    ((t.setPort p y).takeFlit p ⟨y.rxNext, num b 0 1 / 16 % 4, num b 0 1 / 64 % 2, slice b 8 240, true, 0⟩).count 3 (8 * p + 1) 1
  else (t.setPort p y).setPort p y.refuse

/-- A flit behind the crossing; one whose check fails is counted, and a DATA flit of these refused. -/
def State.flitIn (t : State) (p : Nat) (b : Bytes) : State :=
  if (num b 248 8 == (crc64 (b.take 248)).toNat) = false then
    if (num b 0 1 % 16 == 1) = true then (t.count 3 (8 * p + 2) 1).setPort p (t.port p).refuse else t.count 3 (8 * p + 2) 1
  else t.flitHeard p b ((t.port p).heard b t.tbk)

theorem exec_flitReceive {s : State} {p : Nat} {lanes : List Bytes} (hp : p < 4) (hon : s.portOn p = true)
    (hactive : (s.port p).state = .active) (hempty : (s.crossing (352 + p)).entries = []) :
    exec (.flitReceive p lanes) s = .next ((s.crossed p ((s.port p).gather lanes)).flitIn p ((s.port p).gather lanes)) := by
  obtain ⟨hbytes, -⟩ := crossed_spec hp ((s.port p).gather lanes) hempty
  change execFlitReceive p lanes s = _
  unfold execFlitReceive
  rw [if_neg (Nat.not_le.mpr hp), if_neg (by rw [hon, hactive]; decide)]
  dsimp only
  rw [hbytes]
  unfold State.flitIn State.flitHeard State.crossed
  generalize (s.cross (352 + p) ((s.port p).gather lanes)).1 = t
  generalize (s.port p).gather lanes = b
  cases num b 248 8 == (crc64 (b.take 248)).toNat with
  | false =>
    cases num b 0 1 % 16 == 1 with
    | false => rfl
    | true => rfl
  | true =>
    cases num b 0 1 % 16 == 1 with
    | false => rfl
    | true =>
      simp only [Bool.not_true, Bool.false_eq_true, if_false, Bool.true_eq_false]
      exact (apply_ite Host.Outcome.next _ _ _).symm

theorem refuse_kept (x : Port) : x.refuse.rxNext = x.rxNext ∧ x.refuse.replay = x.replay ∧ x.refuse.owed = x.owed ∧
    (x.refuse.nakDue = true ∨ x.refuse.nakSent = true) := by
  unfold Port.refuse
  split
  next h => exact ⟨rfl, rfl, rfl, .inr h⟩
  next => exact ⟨rfl, rfl, rfl, .inl rfl⟩

/-- R558, R559, R563: a good flit: whether it is a DATA flit, and the one expected, decides. -/
theorem flitHeard_spec (t : State) (p : Nat) (b : Bytes) (y : Port) (hactive : y.state = .active) :
    Within [.ports, .counters] t (t.flitHeard p b y) ∧ ((t.flitHeard p b y).port p).replay = y.replay ∧
      (num b 0 1 % 16 = 1 → BitVec.ofNat 12 (num b 1 2) = y.rxNext → ((t.flitHeard p b y).port p).rxNext = y.rxNext + 1 ∧
        ((t.flitHeard p b y).port p).nakSent = false ∧
        FMap.getD ((t.flitHeard p b y).port p).owed (2 * (num b 0 1 / 16 % 4) + num b 0 1 / 64 % 2) 0 =
          FMap.getD y.owed (2 * (num b 0 1 / 16 % 4) + num b 0 1 / 64 % 2) 0 + 1) ∧
      (num b 0 1 % 16 = 1 → BitVec.ofNat 12 (num b 1 2) ≠ y.rxNext → ((t.flitHeard p b y).port p).rxNext = y.rxNext ∧
        ((t.flitHeard p b y).port p).owed = y.owed ∧
        (((t.flitHeard p b y).port p).nakDue = true ∨ ((t.flitHeard p b y).port p).nakSent = true)) ∧
      (num b 0 1 % 16 ≠ 1 → ((t.flitHeard p b y).port p).rxNext = y.rxNext ∧ ((t.flitHeard p b y).port p).owed = y.owed) := by
  have hset : Within [.ports, .counters] t (t.setPort p y) := rfl
  unfold State.flitHeard
  by_cases hdata : num b 0 1 % 16 = 1
  · rw [beq_iff_eq.mpr hdata, if_neg (by decide)]
    by_cases hnext : BitVec.ofNat 12 (num b 1 2) = y.rxNext
    · rw [if_pos ⟨hactive, hnext⟩]
      obtain ⟨hwithin, hrx, hnak, hreplay, howed⟩ := takeFlit_kept (t.setPort p y) p
        ⟨y.rxNext, num b 0 1 / 16 % 4, num b 0 1 / 64 % 2, slice b 8 240, true, 0⟩
      rw [port_setPort_self] at hrx hreplay howed
      have htaken := hset.then hwithin (by decide)
      generalize (t.setPort p y).takeFlit p ⟨y.rxNext, num b 0 1 / 16 % 4, num b 0 1 / 64 % 2, slice b 8 240, true, 0⟩ = u at *
      have hport : (u.count 3 (8 * p + 1) 1).port p = u.port p := rfl
      rw [hport, hrx, hreplay, howed]
      exact ⟨htaken.then (Within.count _ _ _ _) (by decide), rfl, fun _ _ => ⟨rfl, hnak, FMap.getD_set_self _ _ _ _⟩,
        fun _ h => absurd hnext h, fun h => absurd hdata h⟩
    · rw [if_neg (fun h => hnext h.2), port_setPort_self]
      obtain ⟨hrx, hreplay, howed, hnak⟩ := refuse_kept y
      exact ⟨hset.then (show Within [.ports] _ _ from rfl) (by decide), hreplay, fun _ h => absurd h hnext,
        fun _ _ => ⟨hrx, howed, hnak⟩, fun h => absurd hdata h⟩
  · rw [beq_false_of_ne hdata, if_pos rfl, port_setPort_self]
    exact ⟨hset, rfl, fun h => absurd h hdata, fun h => absurd h hdata, fun _ => ⟨rfl, rfl⟩⟩

/-- R557, R559: a flit whose check fails. -/
theorem flitIn_of_bad {t : State} {p : Nat} {b : Bytes} (h : num b 248 8 ≠ (crc64 (b.take 248)).toNat) :
    Within [.ports, .counters] t (t.flitIn p b) ∧ ((t.flitIn p b).port p).rxNext = (t.port p).rxNext ∧
      ((t.flitIn p b).port p).replay = (t.port p).replay ∧ ((t.flitIn p b).port p).owed = (t.port p).owed ∧
      (num b 0 1 % 16 = 1 → ((t.flitIn p b).port p).nakDue = true ∨ ((t.flitIn p b).port p).nakSent = true) := by
  have hcount : Within [.ports, .counters] t (t.count 3 (8 * p + 2) 1) := rfl
  unfold State.flitIn
  rw [beq_false_of_ne h, if_pos rfl]
  by_cases hdata : num b 0 1 % 16 = 1
  · rw [beq_iff_eq.mpr hdata, if_pos rfl, port_setPort_self]
    obtain ⟨hrx, hreplay, howed, hnak⟩ := refuse_kept (t.port p)
    exact ⟨hcount.then (show Within [.ports] _ _ from rfl) (by decide), hrx, hreplay, howed, fun _ => hnak⟩
  · rw [beq_false_of_ne hdata, if_neg (by decide)]
    exact ⟨hcount, rfl, rfl, rfl, fun h => absurd h hdata⟩

theorem flitIn_of_good {t : State} {p : Nat} {b : Bytes} (h : num b 248 8 = (crc64 (b.take 248)).toNat) :
    t.flitIn p b = t.flitHeard p b ((t.port p).heard b t.tbk) := by
  unfold State.flitIn
  rw [beq_iff_eq.mpr h, if_neg (by decide)]

theorem ofNat_eq_iff (n : Nat) (x : BitVec 12) (hn : n < 4096) : BitVec.ofNat 12 n = x ↔ n = x.toNat := by
  refine ⟨fun h => ?_, fun h => ?_⟩
  · rw [← h, BitVec.toNat_ofNat, Nat.mod_eq_of_lt hn]
  · rw [h, BitVec.ofNat_toNat, BitVec.setWidth_eq]

/-- Settles O51: a port sends one flit whose bytes are those of Table 10.3; a flit received crosses an empty queue and then is
refused, heard, or heard and taken. -/
theorem flits : Obligations.Flits := by
  unfold Obligations.Flits
  refine ⟨flits_sent, ?_⟩
  intro s p lanes hp hon hactive hempty x b good data key
  obtain ⟨-, hwithin, htbk, hentries, hwritten⟩ := crossed_spec hp b hempty
  have hport : (s.crossed p b).port p = x := hwithin.get (fun u => u.port p) (fun _ => rfl)
  have hnothing {u : State} (hin : Within [.ports, .counters] (s.crossed p b) u) :
      s.ringsKept u ∧ u.fields = s.fields ∧ u.indexes = s.indexes ∧ u.out = s.out ∧
        u.tbk = s.tbk + cyclesNs 2000 (3 + s.control 0 0xFF (352 + p)) ∧
        (u.crossing (352 + p)).entries = [] ∧ (u.crossing (352 + p)).written = (s.crossing (352 + p)).written + 1 := by
    have hall : Within [.tbk, .crossings, .ports, .counters] s u := (hwithin.mono (by decide)).then hin (by decide)
    have hcrossing : u.crossing (352 + p) = (s.crossed p b).crossing (352 + p) :=
      hin.get (fun u => u.crossing (352 + p)) (fun _ => rfl)
    rw [hcrossing]
    exact ⟨State.ringsKept_of_rings_eq (hall.get State.rings (fun _ => rfl)), hall.get State.fields (fun _ => rfl),
      hall.get State.indexes (fun _ => rfl), hall.get State.out (fun _ => rfl), (hin.get State.tbk (fun _ => rfl)).trans htbk,
      hentries, hwritten⟩
  refine ⟨⟨length_gather x lanes, fun hinverted hwidth n hn => getD_gather lanes hinverted hwidth hn⟩, _,
    exec_flitReceive hp hon hactive hempty, ?_⟩
  change s.ringsKept ((s.crossed p b).flitIn p b) ∧ _
  by_cases hgood : good
  · rw [flitIn_of_good hgood, hport]
    obtain ⟨hstate, hrx, howed, hreplay⟩ := heard_kept x b (s.crossed p b).tbk
    obtain ⟨hin, hkept, htaken, hrefused, hheard⟩ := flitHeard_spec (s.crossed p b) p b (x.heard b (s.crossed p b).tbk)
      (hstate.trans hactive)
    rw [hrx, howed] at htaken hrefused hheard
    obtain ⟨hrings, hfields, hindexes, hout, htime, hempty', hwritten'⟩ := hnothing hin
    refine ⟨hrings, hfields, hindexes, hout, htime, hempty', hwritten', fun h => absurd hgood h,
      fun _ before g after hsplit hbefore hack => ?_, fun _ hdata hseq => htaken hdata ?_,
      fun _ hdata hlt hne => hrefused hdata (fun h => hne ((ofNat_eq_iff _ _ hlt).mp h)), fun _ hdata => hheard hdata⟩
    · rw [hkept, hreplay, hack, BitVec.ofNat_toNat, BitVec.setWidth_eq, replay_acked hsplit hbefore]
    · rw [hseq, BitVec.ofNat_toNat, BitVec.setWidth_eq]
  · obtain ⟨hin, hrx, hreplay, howed, hnak⟩ := flitIn_of_bad (t := s.crossed p b) (p := p) hgood
    rw [hport] at hrx hreplay howed
    obtain ⟨hrings, hfields, hindexes, hout, htime, hempty', hwritten'⟩ := hnothing hin
    exact ⟨hrings, hfields, hindexes, hout, htime, hempty', hwritten', fun _ => ⟨hrx, hreplay, howed, hnak⟩,
      fun h => absurd h hgood, fun h => absurd h hgood, fun h => absurd h hgood, fun h => absurd h hgood⟩

end Sys2Proof.Machine

/-! ### COMMIT: its admission and its application (R163, R243 to R247) -/

namespace Sys2Proof.Machine

/-! #### What a COMMIT may change -/

theorem Within.setLine (s : State) (l : Line) :
    Within [.granary] s (s.setLine l) := rfl

theorem Within.evictLine (s : State) (l : Line) :
    Within [.fields, .cores, .channels, .granary] s (s.evictLine l) := by
  unfold State.evictLine
  with_reducible repeat' first
    | exact Within.refl _ _ | assumption | refine Within.then ?_ (Within.setLine _ _) ?_
    | refine Within.then ?_ (Within.retire _ _ _) ?_ | split | dsimp only | decide

theorem Within.makeWay {s : State} (l : Line) {o : State} (h : s.makeWay l = some o) :
    Within [.fields, .cores, .channels, .granary] s o := by
  unfold State.makeWay at h
  dsimp only at h
  split at h
  · cases h
    exact Within.refl _ _
  · split at h
    · cases h
    · cases h
      exact Within.foldl _ _ (fun _ _ h => h.trans (Within.evictLine _ _)) (Within.refl _ _)

theorem Within.useLine (s : State) (l : Line) :
    Within [.granary] s (s.useLine l) := rfl

theorem Within.install (s : State) (l : Line) :
    Within [.fields, .cores, .channels, .granary] s (s.install l) := by
  unfold State.install
  with_reducible repeat' first
    | exact Within.refl _ _ | assumption | refine Within.then ?_ (Within.makeWay _ (by assumption)) ?_
    | refine Within.then ?_ (Within.useLine _ _) ?_ | split | dsimp only | decide

theorem Within.rewriteLine (s : State) (l : Line) (b : Bytes) :
    Within [.fields, .cores, .channels, .granary] s (s.rewriteLine l b) := by
  unfold State.rewriteLine
  with_reducible repeat' first
    | exact Within.refl _ _ | assumption | refine Within.then ?_ (Within.makeWay _ (by assumption)) ?_
    | refine Within.then ?_ (Within.setLine _ _) ?_ | refine Within.then ?_ (Within.useLine _ _) ?_ | split
    | dsimp only | decide

theorem Within.dirtyLine (s : State) (f : Nat) (cj : Nat × Nat) :
    Within [.fields, .cores, .channels, .granary] s (s.dirtyLine f cj) := by
  unfold State.dirtyLine
  with_reducible repeat' first
    | exact Within.refl _ _ | assumption | refine Within.then ?_ (Within.install _ _) ?_
    | refine Within.then ?_ (Within.rewriteLine _ _ _) ?_ | split | dsimp only | decide
    | with_unfolding_all exact rfl

theorem Within.coverChunks (s : State) (f page a n : Nat) :
    Within [.badChunks] s (s.coverChunks f page a n) := rfl

theorem Within.writeSpans (s : State) (f : Nat) (xs : List Span) :
    Within [.fields, .cores, .channels, .granary, .badChunks] s (s.writeSpans f xs) := by
  unfold State.writeSpans
  with_reducible repeat' first
    | exact Within.refl _ _ | assumption | refine Within.then ?_ (Within.dirtyLine _ _ _) ?_
    | refine Within.then ?_ (Within.coverChunks _ _ _ _ _) ?_ | refine Within.then ?_ (Within.usePages _ _ _) ?_
    | refine Within.foldl _ _ (fun _ _ _ => ?_) ?_ | split | dsimp only | decide

theorem Within.markChanged (s : State) (f : Nat) (p : Page → Bool) :
    Within [.fields] s (s.markChanged f p) := by
  unfold State.markChanged
  with_reducible repeat' first
    | exact Within.refl _ _ | assumption | refine Within.then ?_ (Within.modField _ _ _) ?_ | split | dsimp only
    | decide

theorem Within.storeSpans (s : State) (f : Nat) (xs : List Span) :
    Within [.fields, .cores, .channels, .granary, .badChunks] s (s.storeSpans f xs) := by
  unfold State.storeSpans
  with_reducible repeat' first
    | exact Within.refl _ _ | assumption | refine Within.then ?_ (Within.writeSpans _ _ _) ?_
    | refine Within.then ?_ (Within.markChanged _ _ _) ?_ | split | dsimp only | decide

theorem Within.tellMembers (s : State) (kind vc : Nat) (content : Bytes) :
    Within [.out, .ports] s (s.tellMembers kind vc content) := by
  unfold State.tellMembers
  with_reducible repeat' first
    | exact Within.refl _ _ | assumption | refine Within.then ?_ (Within.sendMessage _ _ _ _ _) ?_
    | refine Within.foldl _ _ (fun _ _ _ => ?_) ?_ | split | dsimp only | decide

theorem Within.enqueue (s : State) (key e0 : Nat) (ls : List Nat) :
    Within [.out, .compactQueue, .ports] s (s.enqueue key e0 ls) := by
  unfold State.enqueue
  with_reducible repeat' first
    | exact Within.refl _ _ | assumption | refine Within.then ?_ (Within.enqueueLists _ _ _ _) ?_
    | refine Within.then ?_ (Within.tellMembers _ _ _ _) ?_ | split | dsimp only | decide

theorem Within.selectLists (s : State) (key : Nat) :
    Within [.out, .compactQueue, .ports] s (s.selectLists key) := by
  unfold State.selectLists
  with_reducible repeat' first
    | exact Within.refl _ _ | assumption | refine Within.then ?_ (Within.enqueue _ _ _ _) ?_ | split | dsimp only
    | decide

theorem Within.tellStandby (s : State) (content : Bytes) :
    Within [.out, .ports] s (s.tellStandby content) := by
  unfold State.tellStandby
  with_reducible repeat' first
    | exact Within.refl _ _ | assumption | refine Within.then ?_ (Within.sendMessage _ _ _ _ _) ?_
    | refine Within.foldl _ _ (fun _ _ _ => ?_) ?_ | split | dsimp only | decide

theorem Within.modIndex (s : State) (key : Nat) (g : Index → Index) :
    Within [.indexes] s (s.modIndex key g) := by
  unfold State.modIndex
  with_reducible repeat' first
    | exact Within.refl _ _ | assumption | refine Within.then ?_ (Within.setIndex _ _ _) ?_ | split | dsimp only
    | decide

/-! #### The mutations that a COMMIT takes, and what they make of an ID (R243) -/

theorem foldl_orElse {α β : Type} (g : α → Option β) (l : List α) (o : Option β) :
    l.foldl (fun a m => (g m).orElse (fun _ => a)) o = (l.foldl (fun a m => (g m).orElse (fun _ => a)) none).orElse (fun _ => o) := by
  induction l generalizing o with
  | nil => rfl
  | cons m l ih =>
    rw [List.foldl_cons, List.foldl_cons, ih, ih ((g m).orElse (fun _ => none))]
    cases l.foldl (fun a m => (g m).orElse (fun _ => a)) none with
    | some b => rfl
    | none => cases g m <;> rfl

theorem lastTouch_cons (m : Mutation) (l : List Mutation) (id : BitVec 64) :
    lastTouch (m :: l) id = (lastTouch l id).orElse (fun _ => m.touches id) := by
  unfold lastTouch
  rw [List.foldl_cons, foldl_orElse]
  cases m.touches id <;> rfl

/-- An ID is made live by a mutation exactly where it puts it. -/
theorem touches_eq_true {m : Mutation} {id : BitVec 64} : m.touches id = some true ↔ ∃ r ∈ m.puts, r.id = id := by
  unfold Mutation.touches
  split
  next h =>
    obtain ⟨r, hr, hid⟩ := List.any_eq_true.mp h
    exact ⟨fun _ => ⟨r, hr, beq_iff_eq.mp hid⟩, fun _ => rfl⟩
  next h =>
    refine ⟨fun ht => ?_, fun ⟨r, hr, hid⟩ => (h (List.any_eq_true.mpr ⟨r, hr, beq_iff_eq.mpr hid⟩)).elim⟩
    split at ht
    · cases ht
    · cases ht

/-- The records of an ID that are made live are there exactly where the last mutation that touches it puts it. -/
theorem exists_chosen_iff (l : List Mutation) (id : BitVec 64) : (∃ r ∈ chosen l, r.id = id) ↔ lastTouch l id = some true := by
  induction l with
  | nil => exact ⟨fun ⟨r, hr, _⟩ => (nomatch hr), fun h => (nomatch h)⟩
  | cons m l ih =>
    rw [lastTouch_cons]
    have hsplit : (∃ r ∈ chosen (m :: l), r.id = id) ↔
        (∃ r ∈ m.puts, r.id = id ∧ lastTouch l id = none) ∨ ∃ r ∈ chosen l, r.id = id := by
      constructor
      · rintro ⟨r, hr, rfl⟩
        rcases List.mem_append.mp (show r ∈ m.puts.filter (fun r => (lastTouch l r.id).isNone) ++ chosen l from hr) with h | h
        · obtain ⟨hput, hnone⟩ := List.mem_filter.mp h
          exact .inl ⟨r, hput, rfl, Option.isNone_iff_eq_none.mp hnone⟩
        · exact .inr ⟨r, h, rfl⟩
      · rintro (⟨r, hput, rfl, hnone⟩ | ⟨r, hr, rfl⟩)
        · exact ⟨r, List.mem_append_left _ (List.mem_filter.mpr ⟨hput, Option.isNone_iff_eq_none.mpr hnone⟩), rfl⟩
        · exact ⟨r, List.mem_append_right _ hr, rfl⟩
    rw [hsplit, ih]
    cases hlast : lastTouch l id with
    | some b => simp
    | none =>
      rw [show (none : Option Bool).orElse (fun _ => m.touches id) = m.touches id from rfl, touches_eq_true]
      simp

/-- An ID that some mutation touches is among those whose live entry goes. -/
theorem mem_goneIds_of_lastTouch {l : List Mutation} {id : BitVec 64} {live : Bool} (h : lastTouch l id = some live) : id ∈ goneIds l := by
  suffices hmem : id ∈ l.flatMap (fun m => m.puts.map (fun r => r.id) ++ m.dels) from List.mem_eraseDups.mpr hmem
  induction l with
  | nil => cases h
  | cons m l ih =>
    rw [lastTouch_cons] at h
    rw [List.flatMap_cons]
    cases hlast : lastTouch l id with
    | some b =>
      refine List.mem_append_right _ (ih ?_)
      rw [hlast] at h ⊢
      exact h
    | none =>
      rw [hlast] at h
      refine List.mem_append_left _ ?_
      unfold Mutation.touches at h
      split at h
      next hput =>
        obtain ⟨r, hr, hid⟩ := List.any_eq_true.mp hput
        exact List.mem_append_left _ (List.mem_map.mpr ⟨r, hr, beq_iff_eq.mp hid⟩)
      next =>
        split at h
        next hdel => exact List.mem_append_right _ (List.contains_iff_mem.mp hdel)
        next => cases h

theorem id_kill (e : Slot) (ids : List (BitVec 64)) (epoch : Nat) : (e.kill ids epoch).id = e.id := by
  unfold Slot.kill
  split <;> rfl

theorem died_kill {e : Slot} {ids : List (BitVec 64)} (epoch : Nat) (h : e.id ∈ ids) : (e.kill ids epoch).died ≠ none := by
  unfold Slot.kill
  split
  next => exact fun hnone => (nomatch hnone)
  next hnot =>
    intro hnone
    exact hnot (by rw [hnone, List.contains_iff_mem.mpr h]; rfl)

/-! #### The lists that a COMMIT leaves (R243, R246) -/

/-- The slots of the lists of an index, by list number. -/
def slotsOf (m : FMap ListRec) : FMap (List Slot) := m.map (fun p => (p.1, p.2.image.slots))

theorem get?_slotsOf (m : FMap ListRec) (l : Nat) : FMap.get? (slotsOf m) l = (FMap.get? m l).map (fun r => r.image.slots) := by
  induction m with
  | nil => rfl
  | cons e m ih =>
    obtain ⟨k, r⟩ := e
    unfold slotsOf at *
    rw [List.map_cons, FMap.get?, FMap.get?]
    split
    · rfl
    · exact ih

/-- Numbering the blocks of lists keeps their slots. -/
theorem slotsOf_numberLists (hash : Bool) (m : FMap ListRec) (used : List Nat) : slotsOf (numberLists hash m used).1 = slotsOf m := by
  have hfold (l : FMap ListRec) (a : FMap ListRec × List Nat) :
      slotsOf (l.foldl (fun a p =>
        let n := blocksFor p.2.image.slots.length - p.2.image.blocks.length
        let new := nextBlocks hash a.2 p.1 n
        (a.1 ++ [(p.1, { p.2 with image := { p.2.image with blocks := p.2.image.blocks ++ new } })], new ++ a.2)) a).1 =
        slotsOf a.1 ++ slotsOf l := by
    induction l generalizing a with
    | nil => exact (List.append_nil _).symm
    | cons p l ih =>
      rw [List.foldl_cons, ih]
      simp only [slotsOf, List.map_append, List.map_cons, List.map_nil, List.append_assoc, List.cons_append, List.nil_append]
  exact hfold m ([], used)

theorem get?_foldl_set {α : Type} (g : Nat → α) (ls : List Nat) (m : FMap α) (l : Nat) :
    FMap.get? (ls.foldl (fun m l => FMap.set m l (g l)) m) l = if l ∈ ls then some (g l) else FMap.get? m l := by
  induction ls generalizing m with
  | nil => simp
  | cons k ls ih =>
    rw [List.foldl_cons, ih, FMap.get?_set]
    by_cases hl : l ∈ ls
    · rw [if_pos hl, if_pos (List.mem_cons_of_mem k hl)]
    · by_cases hk : k = l
      · rw [if_neg hl, if_pos hk, if_pos (by rw [hk]; exact List.mem_cons_self), hk]
      · rw [if_neg hl, if_neg hk, if_neg (by simp [hl, Ne.symm hk])]

theorem mem_foldl_set {α : Type} (g : Nat → α) (ls : List Nat) (m : FMap α) {e : Nat × α}
    (h : e ∈ ls.foldl (fun m l => FMap.set m l (g l)) m) : e ∈ m ∨ e.2 = g e.1 := by
  induction ls generalizing m with
  | nil => exact .inl h
  | cons k ls ih =>
    rcases ih _ h with hset | hg
    · rcases FMap.mem_set hset with rfl | hm
      · exact .inr rfl
      · exact .inl hm
    · exact .inr hg

section Applied
variable (x : Index) (taken : List Mutation)

/-- The slots of list l behind a COMMIT that takes some mutations. -/
def Index.committedSlots (l : Nat) : List Slot :=
  (x.list l).image.slots.map (fun e => e.kill (goneIds taken) (x.epoch + 1)) ++
    ((chosen taken).filter (fun r => r.list == l)).map (fun r => r.slot (x.epoch + 1))

/-- The lists that a COMMIT touches. -/
def Index.touchedLists : List Nat := (x.lists.map (fun l => l.1) ++ (chosen taken).map (fun r => r.list)).eraseDups

theorem applied_lists : (x.applied taken).lists = (x.touchedLists taken).foldl (fun m l => FMap.set m l
    ((x.list l).commit (goneIds taken) (((chosen taken).filter (fun r => r.list == l)).map (fun r => r.slot (x.epoch + 1)))
      (x.epoch + 1))) [] := rfl

theorem get?_eq_none_of_notMem {α : Type} {m : FMap α} {k : Nat} (h : k ∉ m.map (fun e => e.1)) : FMap.get? m k = none := by
  cases hget : FMap.get? m k with
  | none => rfl
  | some a => exact absurd (List.mem_map.mpr ⟨(k, a), FMap.mem_of_get? hget, rfl⟩) h

theorem getD_slotsOf_applied (l : Nat) :
    FMap.getD (slotsOf (x.applied taken).lists) l [] = x.committedSlots taken l := by
  rw [FMap.getD, get?_slotsOf, applied_lists, get?_foldl_set]
  split
  · rfl
  next hl =>
    unfold Index.touchedLists at hl
    rw [List.mem_eraseDups, List.mem_append, not_or] at hl
    obtain ⟨hlists, hputs⟩ := hl
    have hempty : x.list l = ListRec.empty := by
      rw [Index.list, FMap.getD, get?_eq_none_of_notMem hlists]
      rfl
    have hnone : (chosen taken).filter (fun r => r.list == l) = [] :=
      List.filter_eq_nil_iff.mpr fun r hr heq => hputs (List.mem_map.mpr ⟨r, hr, beq_iff_eq.mp heq⟩)
    rw [Index.committedSlots, hempty, hnone]
    rfl

theorem mem_slotsOf_applied {e : Nat × List Slot} (h : e ∈ slotsOf (x.applied taken).lists) : e.2 = x.committedSlots taken e.1 := by
  obtain ⟨p, hp, rfl⟩ := List.mem_map.mp h
  rw [applied_lists] at hp
  rcases mem_foldl_set _ _ _ hp with hnil | hp'
  · cases hnil
  · dsimp only
    rw [hp']
    rfl

end Applied

/-- An index whose lists have the slots that a COMMIT leaves shows an ID that it touches as the last mutation left it. -/
theorem liveSlot_of_slotsOf {x y : Index} {taken : List Mutation} (hslots : slotsOf y.lists = slotsOf (x.applied taken).lists)
    {id : BitVec 64} {live : Bool} (hlast : lastTouch taken id = some live) : (y.liveSlot id).isSome = live := by
  have hmem (e : Slot) : e ∈ y.slots ↔ ∃ p ∈ slotsOf y.lists, e ∈ p.2 := by
    unfold Index.slots slotsOf
    rw [List.mem_flatMap]
    exact ⟨fun ⟨p, hp, he⟩ => ⟨_, List.mem_map_of_mem hp, he⟩, fun ⟨p, hp, he⟩ => by
      obtain ⟨q, hq, rfl⟩ := List.mem_map.mp hp
      exact ⟨q, hq, he⟩⟩
  have hiff : (y.liveSlot id).isSome = true ↔ lastTouch taken id = some true := by
    rw [Index.liveSlot, List.find?_isSome]
    constructor
    · rintro ⟨e, he, halive⟩
      obtain ⟨hid, hdied⟩ := Bool.and_eq_true_iff.mp halive
      obtain ⟨p, hp, hep⟩ := (hmem e).mp he
      rw [hslots] at hp
      rw [mem_slotsOf_applied x taken hp] at hep
      rcases List.mem_append.mp hep with hold | hnew
      · obtain ⟨o, -, rfl⟩ := List.mem_map.mp hold
        rw [id_kill] at hid
        exact absurd (Option.isNone_iff_eq_none.mp hdied)
          (died_kill _ (by rw [beq_iff_eq.mp hid]; exact mem_goneIds_of_lastTouch hlast))
      · obtain ⟨r, hr, rfl⟩ := List.mem_map.mp hnew
        exact (exists_chosen_iff taken id).mp ⟨r, (List.mem_filter.mp hr).1, beq_iff_eq.mp hid⟩
    · intro htrue
      obtain ⟨r, hr, hid⟩ := (exists_chosen_iff taken id).mpr htrue
      refine ⟨r.slot (x.epoch + 1), (hmem _).mpr ?_, by rw [PendRec.slot]; simp [hid]⟩
      have hin : r.slot (x.epoch + 1) ∈ x.committedSlots taken r.list :=
        List.mem_append_right _ (List.mem_map_of_mem (List.mem_filter.mpr ⟨hr, beq_self_eq_true _⟩))
      rw [← getD_slotsOf_applied, ← hslots, FMap.getD] at hin
      cases hget : FMap.get? (slotsOf y.lists) r.list with
      | none => rw [hget] at hin; cases hin
      | some m =>
        rw [hget] at hin
        exact ⟨_, FMap.mem_of_get? hget, hin⟩
  rw [hlast] at hiff
  cases live with
  | true => exact hiff.mpr rfl
  | false => exact Bool.eq_false_iff.mpr fun h => (nomatch hiff.mp h)

/-! #### A COMMIT that takes effect (R247) -/

/-- What the application of a COMMIT may change, beside its index. -/
def commitComps : List Comp :=
  [.out, .fields, .indexes, .compactQueue, .evaporators, .cores, .channels, .granary, .badChunks, .ports]

theorem prepareCommit_of_some {s : State} {key upTo : Nat} {r : Prepared} {x : Index} (hx : FMap.get? s.indexes key = some x)
    (h : s.prepareCommit key upTo = some r) :
    ∃ z : Index, z.epoch = x.epoch + 1 ∧ z.pending = x.pending ∧ z.holds = x.holds ∧ z.p = x.p ∧ z.active = x.active ∧
      z.centroids = x.centroids ∧ z.codebook = x.codebook ∧
      slotsOf z.lists = slotsOf (x.applied (inCommitOrder (x.pending.filter (fun m => m.stamp < upTo)))).lists ∧
      r.s.indexes = FMap.set s.indexes key z ∧ Within commitComps s r.s := by
  unfold State.prepareCommit at h
  rw [hx] at h
  dsimp only at h
  split at h
  · cases h
  · obtain ⟨u, hu, rfl⟩ := Option.map_eq_some_iff.mp h
    have hsync := Within.syncPages _ hu
    refine ⟨_, ?_, ?_, ?_, ?_, ?_, ?_, ?_, ?_, hsync.get State.indexes (fun _ => rfl), ?_⟩
    case refine_9 =>
      refine Within.then ?_ hsync (by decide)
      exact rfl
    case refine_8 => exact slotsOf_numberLists _ _ _
    all_goals rfl

theorem committed_spec {s : State} {key upTo : Nat} {r : Prepared} {x : Index} (hx : FMap.get? s.indexes key = some x)
    (h : s.prepareCommit key upTo = some r) :
    Within commitComps s (r.committed key upTo) ∧
      (∀ k, k ≠ key → FMap.get? (r.committed key upTo).indexes k = FMap.get? s.indexes k) ∧
      ∃ y : Index, FMap.get? (r.committed key upTo).indexes key = some y ∧ y.epoch = x.epoch + 1 ∧
        y.pending = x.pending.filter (fun m => upTo ≤ m.stamp) ∧ y.holds = x.holds ∧ y.p = x.p ∧ y.active = x.active ∧
        y.centroids = x.centroids ∧ y.codebook = x.codebook ∧
        slotsOf y.lists = slotsOf (x.applied (inCommitOrder (x.pending.filter (fun m => m.stamp < upTo)))).lists := by
  obtain ⟨z, hepoch, hpending, hholds, hp, hactive, hcentroids, hcodebook, hslots, hindexes, hwithin⟩ := prepareCommit_of_some hx h
  have hmod : r.s.modIndex key (fun x => { x with pending := x.pending.filter (fun m => upTo ≤ m.stamp) }) =
      r.s.setIndex key { z with pending := z.pending.filter (fun m => upTo ≤ m.stamp) } := by
    unfold State.modIndex
    rw [hindexes, FMap.get?_set_self]
  have htail : Within [.out, .fields, .compactQueue, .cores, .channels, .granary, .badChunks, .ports]
      (r.s.setIndex key { z with pending := z.pending.filter (fun m => upTo ≤ m.stamp) }) (r.committed key upTo) := by
    unfold Prepared.committed
    rw [hmod]
    exact ((((((Within.releasePages _ _).mono (by decide)).then (Within.storeSpans _ _ _) (by decide)).then
      (Within.selectLists _ _) (by decide)).then (Within.countField _ _ _ _) (by decide)).then
        (Within.countField _ _ _ _) (by decide))
  have hcommitted : (r.committed key upTo).indexes =
      FMap.set (FMap.set s.indexes key z) key { z with pending := z.pending.filter (fun m => upTo ≤ m.stamp) } :=
    (htail.get State.indexes (fun _ => rfl)).trans (congrArg (FMap.set · key _) hindexes)
  refine ⟨(hwithin.then (Within.setIndex _ _ _) (by decide)).then htail (by decide), fun k hk => ?_,
    { z with pending := z.pending.filter (fun m => upTo ≤ m.stamp) }, ?_, hepoch, ?_, hholds, hp, hactive, hcentroids, hcodebook, hslots⟩
  · rw [hcommitted, FMap.get?_set_ne _ _ (Ne.symm hk), FMap.get?_set_ne _ _ (Ne.symm hk)]
  · rw [hcommitted, FMap.get?_set_self]
  · rw [← hpending]

/-- R247: a COMMIT that takes effect is one that could be prepared. -/
theorem tryCommit_done {s u : State} {c : Cmd} {key upTo : Nat} {done : List Nat} (h : s.tryCommit c key upTo done = .done u) :
    ∃ r, (s.dropReader (.cmd c.ring c.seq)).prepareCommit key upTo = some r ∧ u = r.committed key upTo := by
  unfold State.tryCommit at h
  dsimp only at h
  split at h
  · cases h
  · next r hr =>
    split at h
    · cases h
    · split at h
      · cases h
      · split at h
        · cases h
        · cases h
          exact ⟨r, hr, rfl⟩

/-! #### The obligation -/

/-- The state in which an admitted COMMIT waits; the members of a cascade are told of it. -/
def State.commitAdmitted (s : State) (ctx : Ctx) (x : Index) : State :=
  let t := s.setIndex ctx.key { x with stamp := x.stamp + 1 }
  if x.p.cascMode = 0 then t
  else t.tellMembers msgCOMMIT 0 (leBytes 1 ctx.fn ++ leBytes 1 ctx.cmd.idx ++ leBytes 8 (x.epoch + 1) ++
    leBytes 4 x.pending.length ++ x.pending.flatMap (fun m => leBytes 2 m.ring ++ leBytes 6 m.seq.toNat) ++
    (s.readable ctx.key x).flatMap (fun e => leBytes 8 e))

theorem Within.commitAdmitted (s : State) (ctx : Ctx) (x : Index) :
    Within [.out, .ports] (s.setIndex ctx.key { x with stamp := x.stamp + 1 }) (s.commitAdmitted ctx x) :=
  Within.ite (Within.refl _ _) (Within.tellMembers _ _ _ _)

/-- R163: COMMIT waits. -/
theorem exec_commit_of_admits {s : State} {ring : Nat} {dma : Dma} {c : Cmd} {x : Index} (h : s.admits 0x14 ring dma c = true)
    (hx : FMap.get? s.indexes (indexKey (ringFn c.ring) c.idx) = some x) (hactive : x.active = true) :
    exec (.commit ring dma) s = outstanding s (s.commitAdmitted (ctxOf c dma) x) c dma
      (.commit (indexKey (ringFn c.ring) c.idx) x.stamp [] []) := by
  change execCommit ring dma s = _
  refine (State.runPacket_of_passes (o := opF 0x14 .none true) (l := [(!x.active, stBAD_STATE)])
    (k := fun _ => stays (s.commitAdmitted (ctxOf c dma) x) (.commit (ctxOf c dma).key x.stamp [] [])) rfl rfl h ?_
    (by simp [hactive])).trans rfl
  change (match FMap.get? s.indexes (indexKey (ringFn c.ring) c.idx) with
    | none => no stBAD_INDEX
    | some x => checks [(!x.active, stBAD_STATE)]
        (fun _ => stays (s.commitAdmitted (ctxOf c dma) x) (.commit (ctxOf c dma).key x.stamp [] []))) = _
  rw [hx] <;> rfl

/-- Settles O27: COMMIT changes its index's stamp alone; applied, it leaves the lists that its mutations, in their order, make of each
ID. -/
theorem commitEffects : Obligations.CommitEffects := by
  unfold Obligations.CommitEffects
  refine ⟨⟨?_, ?_⟩, ?_⟩
  · intro s ring dma c x h key hx hactive
    have hwithin := Within.commitAdmitted s (ctxOf c dma) x
    exact ⟨_, exec_commit_of_admits h hx hactive, hwithin.get State.indexes (fun _ => rfl), hwithin.get State.cmds (fun _ => rfl),
      hwithin.get State.fields (fun _ => rfl), State.ringsKept_of_rings_eq (hwithin.get State.rings (fun _ => rfl)), fun h0 => if_pos h0⟩
  · intro s u f i ok copies c upTo done x hcompleting hfirst hx hhalted hcopies htry
    obtain ⟨r, hprepared, rfl⟩ := tryCommit_done htry
    obtain ⟨hwithin, hothers, y, hy, hepoch, hpending, hholds, hp, hactive, hcentroids, hcodebook, -⟩ :=
      committed_spec (s := s.dropReader (.cmd c.ring c.seq)) hx hprepared
    have htold : Within [.out, .ports] (r.committed (indexKey f i) upTo) (if x.p.cascMode = 0 then r.committed (indexKey f i) upTo
        else (r.committed (indexKey f i) upTo).tellStandby (leBytes 1 f ++ leBytes 1 i ++ leBytes 8 (x.epoch + 1))) :=
      Within.ite (Within.refl _ _) (Within.tellStandby _ _)
    have hall := (((Within.dropReader s (.cmd c.ring c.seq)).mono (n := .streams :: commitComps) (by decide)).then hwithin
      (by decide)).then htold (by decide)
    have hexec : exec (.commitApply f i copies ok) s = .next ((if x.p.cascMode = 0 then r.committed (indexKey f i) upTo
        else (r.committed (indexKey f i) upTo).tellStandby (leBytes 1 f ++ leBytes 1 i ++ leBytes 8 (x.epoch + 1))).finish c 0
          (x.epoch + 1) 0 c.flags ok) := by
      change execCommitApply f i copies ok s = _
      unfold execCommitApply
      dsimp only
      rw [if_neg (by simp [hcompleting]), hfirst, hx]
      dsimp only
      rw [if_neg (by simp [hhalted]), if_neg (by simpa using hcopies), htry]
    refine ⟨_, y, hexec, ?_, hepoch, hpending, hholds, hp, hactive, hcentroids, hcodebook, fun k hk => ?_,
      hall.get State.cmds (fun _ => rfl), State.ringsKept_of_rings_eq (hall.get State.rings (fun _ => rfl)),
      hall.get State.queries (fun _ => rfl), hall.get State.trust (fun _ => rfl), hall.get State.tbk (fun _ => rfl)⟩
    · rw [State.index?, htold.get State.indexes (fun _ => rfl)]
      exact hy
    · rw [htold.get State.indexes (fun _ => rfl)]
      exact hothers k hk
  · intro s r key upTo x hx hprepared t taken dead
    obtain ⟨-, -, y, hy, -, -, -, -, -, -, -, hslots⟩ := committed_spec hx hprepared
    refine ⟨y, hy, fun l => ?_, fun id live hlast => liveSlot_of_slotsOf hslots hlast⟩
    have hlist : (y.list l).image.slots = FMap.getD (slotsOf y.lists) l [] := by
      rw [Index.list, FMap.getD, FMap.getD, get?_slotsOf]
      cases FMap.get? y.lists l <;> rfl
    rw [hlist, hslots, getD_slotsOf_applied]
    rfl

end Sys2Proof.Machine

/-! ### The planner epoch, frame moves and the upkeep of channels (R459, R491, R498, R539) -/

namespace Sys2Proof.Machine

/-! #### What the planner epoch may change -/

theorem Within.dropIndexes (s : State) (p : Nat → Bool) :
    Within [.indexes, .compactQueue, .evaporators, .served] s (s.dropIndexes p) := rfl

theorem Within.removeField (s : State) (f : Nat) :
    Within [.out, .rings, .fields, .indexes, .compactQueue, .evaporators, .cores, .streams, .channels, .granary,
    .badChunks, .served, .pert] s (s.removeField f) := by
  unfold State.removeField
  with_reducible repeat' first
    | exact Within.refl _ _ | assumption | refine Within.then ?_ (Within.dropIndexes _ _) ?_
    | refine Within.then ?_ (Within.withLines _ _) ?_ | refine Within.then ?_ (Within.emit _ _) ?_ | split
    | dsimp only | decide | with_unfolding_all exact rfl

theorem Within.rehome (s : State) :
    Within [.fields, .cores, .channels, .granary] s s.rehome := by
  unfold State.rehome
  with_reducible repeat' first
    | exact Within.refl _ _ | assumption | refine Within.then ?_ (Within.retire _ _ _) ?_
    | refine Within.then ?_ (Within.pinLines _ _) ?_ | refine Within.foldl _ _ (fun _ _ _ => ?_) ?_ | split
    | dsimp only | decide

theorem Within.reserve (s : State) (id : Nat) (x : Run) (cs : List Nat) :
    Within [.cores, .runs] s (s.reserve id x cs) := by
  unfold State.reserve
  with_reducible repeat' first
    | exact Within.refl _ _ | assumption | refine Within.then ?_ (Within.setRun _ _ _) ?_
    | refine Within.then ?_ (Within.setCore _ _ _) ?_ | refine Within.foldl _ _ (fun _ _ _ => ?_) ?_ | split
    | dsimp only | decide

theorem Within.tryReserve (s : State) (id : Nat) :
    Within [.cores, .runs] s (s.tryReserve id) := by
  unfold State.tryReserve
  with_reducible repeat' first
    | exact Within.refl _ _ | assumption | refine Within.then ?_ (Within.reserve _ _ _ _) ?_ | split | dsimp only
    | decide

theorem Within.tracePlanner (s : State) (due : Bool) :
    Within [.trace, .counters] s (s.tracePlanner due) := by
  unfold State.tracePlanner
  with_reducible repeat' first
    | exact Within.refl _ _ | assumption | refine Within.then ?_ (Within.traceRec _ _ _ _ _ _) ?_ | split
    | dsimp only | decide

theorem Within.eccCorrected (s : State) (f page chunk : Nat) :
    Within [.out, .rings, .fields, .log, .counters, .fns] s (s.eccCorrected f page chunk) := by
  unfold State.eccCorrected
  with_reducible repeat' first
    | exact Within.refl _ _ | assumption | refine Within.then ?_ (Within.logEvent _ _ _ _ _ _) ?_
    | refine Within.then ?_ (Within.countField _ _ _ _) ?_ | split | dsimp only | decide

theorem Within.eccFailed (s : State) (f page chunk : Nat) :
    Within [.out, .rings, .fields, .badChunks, .log, .counters, .fns] s (s.eccFailed f page chunk) := by
  unfold State.eccFailed
  with_reducible repeat' first
    | exact Within.refl _ _ | assumption | refine Within.then ?_ (Within.logEvent _ _ _ _ _ _) ?_
    | refine Within.then ?_ (Within.countField _ _ _ _) ?_ | split | dsimp only | decide
    | with_unfolding_all exact rfl

theorem Within.addChecks (n : Nat) (s : State) (f : Nat) : Within [.fields] s (State.addChecks n s f) := by
  induction n generalizing s with
  | zero => exact Within.refl _ _
  | succ n ih =>
    unfold State.addChecks
    split
    · exact Within.refl _ _
    · split
      · exact Within.refl _ _
      · split
        · exact Within.refl _ _
        · exact (Within.setField _ _ _).trans (ih _)

theorem Within.turnEcc (s : State) (f : Nat) (old : FieldCfg) : Within [.fields, .badChunks] s (s.turnEcc f old) := by
  unfold State.turnEcc
  split
  · exact Within.refl _ _
  · split
    · exact Within.refl _ _
    · split
      · exact (Within.addChecks _ _ _).mono (by decide)
      · have htrim := Within.trimChecks s f
        generalize s.trimChecks f = u at *
        exact (htrim.mono (by decide)).then (show Within [.badChunks] u _ from rfl) (by decide)

/-- The state with another slicing mode. -/
def State.withOwnership (s : State) (b : Bool) : State := { s with ownership := b }

/-- The state with other fields. -/
def State.withFields (s : State) (m : FMap Field) : State := { s with fields := m }

/-- The slicing mode that field 0 asks for. -/
def State.slicingDue (s : State) : Bool :=
  match s.field? 0 with
  | none => false
  | some x => x.cfg.granaryOwned

/-- R525: the fields under hash slicing. -/
def State.unowned (s : State) : State :=
  s.withFields (FMap.mapVals s.fields (fun f x => if f = 0 then x else { x with slices := 0 }))

theorem turnSlicing_eq (s : State) : s.turnSlicing = if s.slicingDue = s.ownership then s
    else if s.slicingDue then (s.retire true (fun _ => true)).withOwnership s.slicingDue
    else ((s.retire true (fun _ => true)).withOwnership s.slicingDue).unowned := rfl

theorem Within.turnSlicing (s : State) : Within [.fields, .cores, .channels, .granary, .ownership] s s.turnSlicing := by
  have hretire := Within.retire s true (fun _ => true)
  rw [turnSlicing_eq]
  generalize s.retire true (fun _ => true) = u at *
  have howned := (hretire.mono (n := [.fields, .cores, .channels, .granary, .ownership]) (by decide)).then
    (show Within [.ownership] u (u.withOwnership s.slicingDue) from rfl) (by decide)
  exact Within.ite (Within.refl _ _) (Within.ite howned (howned.then (show Within [.fields] _ (State.unowned _) from rfl) (by decide)))

/-- What the turn of a field may change. -/
def fieldTurnComps : List Comp :=
  [.out, .rings, .fields, .indexes, .compactQueue, .evaporators, .cores, .streams, .channels, .granary, .badChunks, .served, .pert]

/-- A field with its accepted configuration in force. -/
def State.fieldTurned (s : State) (f : Nat) (x : Field) : State :=
  s.setField f (x.turn f s.tbk (s.queries.any (fun q => q.field == f && q.cls == 0)))

theorem turnField_eq (s : State) (f : Nat) : s.turnField f = match s.field? f with
    | none => s
    | some x => if x.removing then s.removeField f
      else ((s.fieldTurned f x).withPert ((s.fieldTurned f x).pert.keep (fun y => !x.clears f y))).turnEcc f x.cfg := by
  unfold State.turnField
  rfl

theorem Within.turnField (s : State) (f : Nat) : Within fieldTurnComps s (s.turnField f) := by
  rw [turnField_eq]
  split
  · exact Within.refl _ _
  · refine Within.ite ((Within.removeField s f).mono (by decide)) ?_
    exact (((Within.setField _ _ _).mono (by decide)).then (Within.withPert _ _) (by decide)).then (Within.turnEcc _ _ _) (by decide)

/-- What the turn of a unit may change. -/
def unitTurnComps : List Comp := [.out, .rings, .units, .ports, .casc, .trust, .log, .trace, .counters, .fns]

theorem Within.enterUnit (s : State) (ty n : Nat) : Within unitTurnComps s (s.enterUnit ty n) := by
  have hto := (Within.unitTo s ty n 0 false).mono (n := unitTurnComps) (by decide)
  unfold State.enterUnit
  dsimp only
  generalize s.unitTo ty n 0 false = u at *
  split
  · exact hto.then (Within.setPort _ _ _) (by decide)
  · exact (hto.then (Within.recensus _ _) (by decide)).then (Within.sendMessage _ _ _ _ _) (by decide)
  · exact hto

theorem Within.turnUnit (s : State) (key : Nat) : Within unitTurnComps s (s.turnUnit key) := by
  unfold State.turnUnit
  exact Within.ite (((Within.setUnit _ _ _ _).mono (by decide)).trans (Within.enterUnit _ _ _))
    (Within.ite ((Within.setUnit _ _ _ _).mono (by decide)) (Within.refl _ _))

theorem Within.reserveRuns (s : State) : Within [.cores, .runs] s s.reserveRuns :=
  Within.foldl _ _ (fun _ _ h => h.trans (Within.tryReserve _ _)) (Within.refl _ _)

/-! #### What is seen of the fields -/

/-- What P shows of every field is as before. -/
def FieldsShow {α : Type} (P : Field → α) (s t : State) : Prop := ∀ f, (t.field? f).map P = (s.field? f).map P

section FieldsShow
variable {α : Type} {P : Field → α}

theorem FieldsShow.refl (s : State) : FieldsShow P s s := fun _ => rfl

theorem FieldsShow.trans {r s t : State} (h : FieldsShow P r s) (g : FieldsShow P s t) : FieldsShow P r t :=
  fun f => (g f).trans (h f)

theorem fieldsShow_of_fields {s t : State} (h : t.fields = s.fields) : FieldsShow P s t := fun f => by
  rw [State.field?, h, State.field?]

theorem fieldsShow_of_within {m : List Comp} {s t : State} (h : Within m s t) (hm : m.elem .fields = false) : FieldsShow P s t :=
  fieldsShow_of_fields (h.get State.fields (fun u => by rw [State.patch, hm]; rfl))

theorem fieldsShow_setField {s : State} {f : Nat} {x y : Field} (hx : s.field? f = some x) (h : P y = P x) :
    FieldsShow P s (s.setField f y) := fun g => by
  rw [State.field?_setField]
  split
  next hg => rw [← hg, hx, Option.map_some, Option.map_some, h]
  next => rfl

theorem fieldsShow_modField (s : State) (f : Nat) {g : Field → Field} (h : ∀ x, P (g x) = P x) : FieldsShow P s (s.modField f g) := by
  unfold State.modField
  split
  · exact FieldsShow.refl s
  · next x hx => exact fieldsShow_setField hx (h x)

theorem fieldsShow_foldl {β : Type} {k : State → β → State} (hk : ∀ s a, FieldsShow P s (k s a)) (l : List β) (s : State) :
    FieldsShow P s (l.foldl k s) := by
  induction l generalizing s with
  | nil => exact FieldsShow.refl s
  | cons a l ih => exact (hk s a).trans (ih _)

theorem fieldsShow_trimChecks (s : State) (f : Nat) (h : ∀ (x : Field) (ps : List Page), P { x with pages := ps } = P x) :
    FieldsShow P s (s.trimChecks f) := fieldsShow_modField s f (fun x => h x _)

theorem fieldsShow_addChecks (n : Nat) (s : State) (f : Nat) (h : ∀ (x : Field) (ps : List Page), P { x with pages := ps } = P x) :
    FieldsShow P s (State.addChecks n s f) := by
  induction n generalizing s with
  | zero => exact FieldsShow.refl s
  | succ n ih =>
    unfold State.addChecks
    split
    · exact FieldsShow.refl s
    · next x hx =>
      split
      · exact FieldsShow.refl s
      · split
        · exact FieldsShow.refl s
        · exact (fieldsShow_setField hx (h x _)).trans (ih _)

theorem fieldsShow_retire (s : State) (back : Bool) (p : Line → Bool)
    (hprograms : ∀ (x : Field) (m : FMap Program), P { x with programs := m } = P x)
    (hcounters : ∀ (x : Field) (m : FMap Nat), P { x with counters := m } = P x) : FieldsShow P s (s.retire back p) := by
  have hline (t : State) (l : Line) : FieldsShow P t (((if back then t.writeBack l else t).applyPend l).overfetch l) := by
    have hback : FieldsShow P t (if back then t.writeBack l else t) :=
      fieldsShow_of_within (Within.ite (Within.writeBack t l) (Within.refl _ _)) rfl
    generalize (if back then t.writeBack l else t) = u at *
    have hpend : FieldsShow P u (u.applyPend l) := by
      unfold State.applyPend
      split
      · exact FieldsShow.refl u
      · refine fieldsShow_modField u _ (fun x => ?_)
        split
        · rfl
        · exact hprograms x _
    generalize u.applyPend l = v at *
    refine (hback.trans hpend).trans ?_
    unfold State.overfetch
    split
    · exact fieldsShow_modField v _ (fun x => hcounters x _)
    · exact FieldsShow.refl v
  unfold State.retire
  exact (fieldsShow_foldl hline _ s).trans (fieldsShow_of_within (Within.withLines _ _) rfl)

end FieldsShow

/-! #### The configurations in force (R459, R144) -/

/-- The two configurations of a field, and whether it is present and goes. -/
structure Terms where
  cfg : FieldCfg
  tgt : FieldCfg
  present : Bool
  removing : Bool

/-- The terms of a field. -/
def Field.terms (x : Field) : Terms := ⟨x.cfg, x.tgt, x.present, x.removing⟩

/-- The terms of a field behind the planner epoch; none where it goes. -/
def Terms.turned (a : Terms) : Option Terms := if a.removing then none else some ⟨a.tgt, a.tgt, true, false⟩

theorem turned_turned (o : Option Terms) : (o.bind Terms.turned).bind Terms.turned = o.bind Terms.turned := by
  cases o with
  | none => rfl
  | some a =>
    rw [Option.bind_some]
    unfold Terms.turned
    split
    · rfl
    · rfl

theorem terms_refill (x : Field) (now : Nat) : (x.refill now).terms = x.terms := by
  unfold Field.terms Field.refill
  rfl

theorem terms_withTokens (x : Field) (tokens at_ : Nat) : { x with tokens := tokens, tokensAt := at_ }.terms = x.terms := by
  cases x
  rfl

theorem terms_withConfig (y : Field) (c : FieldCfg) (rates : List (Nat × Nat)) (tokens : Nat) (slices : BitVec 32) :
    { y with cfg := c, present := true, keepRates := rates, tokens := tokens, slices := slices }.terms =
      ⟨c, y.terms.tgt, true, y.terms.removing⟩ := by
  cases y
  rfl

theorem terms_turn (x : Field) (f now : Nat) (classC : Bool) : (x.turn f now classC).terms = ⟨x.tgt, x.tgt, true, x.removing⟩ := by
  have hstart : (if x.present then x.refill now else { x with tokens := x.tgt.regBurst * 1024000, tokensAt := now }).terms =
      x.terms := by
    split
    · exact terms_refill x now
    · exact terms_withTokens x _ _
  unfold Field.turn
  dsimp only
  generalize (if x.present then x.refill now else { x with tokens := x.tgt.regBurst * 1024000, tokensAt := now }) = y at *
  refine (terms_withConfig y _ _ _ _).trans ?_
  rw [hstart]
  rfl

theorem fieldsShow_turnEcc (s : State) (f : Nat) (old : FieldCfg) : FieldsShow Field.terms s (s.turnEcc f old) := by
  unfold State.turnEcc
  split
  · exact FieldsShow.refl s
  · split
    · exact FieldsShow.refl s
    · split
      · exact fieldsShow_addChecks _ s f (fun _ _ => rfl)
      · exact (fieldsShow_trimChecks s f (fun _ _ => rfl)).trans (fieldsShow_of_fields rfl)

/-- A removed field's pool may be returned; nothing more is said. -/
theorem removeField_eq (s : State) (f : Nat) : ∃ u : State,
    (u.fields = FMap.erase s.fields f ∧ u.pert = s.pert.keep (fun y => y.field != f)) ∧
      (s.removeField f = u ∨ ∃ l, s.removeField f = u.emit (.poolReturned f l)) := by
  unfold State.removeField
  dsimp only
  refine ⟨_, ⟨?_, ?_⟩, ite_eq_or_eq _ _ _ |>.imp id fun h => ⟨_, h⟩⟩
  · rfl
  · rfl

theorem fields_removeField (s : State) (f : Nat) : (s.removeField f).fields = FMap.erase s.fields f := by
  obtain ⟨u, hu, heq⟩ := removeField_eq s f
  rcases heq with h | ⟨l, h⟩ <;> rw [h] <;> exact hu.1

/-- The turn of a field replaces its terms and no other field's. -/
theorem terms_turnField (s : State) (f g : Nat) : ((s.turnField f).field? g).map Field.terms =
    if f = g then ((s.field? g).map Field.terms).bind Terms.turned else (s.field? g).map Field.terms := by
  rw [turnField_eq]
  split
  · next hx =>
    split
    next hg => rw [← hg, hx]; rfl
    next => rfl
  · next x hx =>
    split
    · next hremoving =>
      rw [State.field?, fields_removeField, FMap.get?_erase]
      split
      next hg =>
        rw [← hg, hx, Option.map_some, Option.bind_some, Terms.turned, if_pos (show x.terms.removing = true from hremoving)]
        rfl
      next => rfl
    · next hremoving =>
      have hfield : ((s.fieldTurned f x).withPert ((s.fieldTurned f x).pert.keep (fun y => !x.clears f y))).field? g =
          (s.fieldTurned f x).field? g := rfl
      rw [fieldsShow_turnEcc, hfield, State.fieldTurned, State.field?_setField]
      split
      next hg =>
        rw [← hg, hx, Option.map_some, Option.map_some, Option.bind_some, Terms.turned,
          if_neg (show ¬ x.terms.removing = true from hremoving), terms_turn, Bool.eq_false_iff.mpr hremoving]
        rfl
      next => rfl

theorem terms_foldl_turnField (l : List Nat) (s : State) (g : Nat) : ((l.foldl State.turnField s).field? g).map Field.terms =
    if g ∈ l then ((s.field? g).map Field.terms).bind Terms.turned else (s.field? g).map Field.terms := by
  induction l generalizing s with
  | nil => simp
  | cons f l ih =>
    rw [List.foldl_cons, ih, terms_turnField]
    by_cases hg : g ∈ l
    · rw [if_pos hg, if_pos (List.mem_cons_of_mem f hg)]
      split
      · exact turned_turned _
      · rfl
    · rw [if_neg hg]
      by_cases hf : f = g
      · rw [if_pos hf, if_pos (by rw [hf]; exact List.mem_cons_self)]
      · rw [if_neg hf, if_neg (by simp [hg, Ne.symm hf])]

theorem fieldsShow_unowned (s : State) : FieldsShow Field.terms s s.unowned := fun f => by
  rw [State.field?, State.unowned, State.withFields, FMap.get?_mapVals, Option.map_map, State.field?]
  refine congrArg (Option.map · (FMap.get? s.fields f)) (funext fun x => ?_)
  dsimp only [Function.comp]
  split <;> rfl

theorem fieldsShow_turnSlicing (s : State) : FieldsShow Field.terms s s.turnSlicing := by
  have hretire := fieldsShow_retire (P := Field.terms) s true (fun _ => true) (fun _ _ => rfl) (fun _ _ => rfl)
  rw [turnSlicing_eq]
  generalize s.retire true (fun _ => true) = u at *
  have howned : FieldsShow Field.terms s (u.withOwnership s.slicingDue) := hretire.trans (fieldsShow_of_fields rfl)
  split
  · exact FieldsShow.refl s
  · split
    · exact howned
    · exact howned.trans (fieldsShow_unowned _)

/-! #### The units that enter service (R655) -/

theorem unit_recensus (s : State) (x : Cascade) {ty n : Nat} (hkey : unitKey ty n < unitKey 12 0) :
    (s.recensus x).unit ty n = s.unit ty n := by
  have hfold (l : List (Nat × CensusRec)) (m : FMap UnitRec) : FMap.get? (l.foldl (fun u r =>
      FMap.set u (unitKey 12 r.1) ⟨memberUnit r.2.status, false, false, 0, false, false⟩) m) (unitKey ty n) =
      FMap.get? m (unitKey ty n) := by
    induction l generalizing m with
    | nil => rfl
    | cons r l ih =>
      rw [List.foldl_cons, ih, FMap.get?_set_ne _ _ (fun h => ?_)]
      rw [← h] at hkey
      unfold unitKey at hkey
      omega
  have hsync (t : State) : t.syncMembers.unit ty n = t.unit ty n := by
    unfold State.unit State.syncMembers
    rw [FMap.getD, FMap.getD, hfold]
  unfold State.recensus
  split
  · have htold := ((Within.censusTold (s.censusPlaced x.records)).mono
      (n := [.out, .rings, .trust, .log, .trace, .counters, .fns, .ports]) (by decide)).then (census_told s x.records) (by decide)
    refine (unit_congr (htold.get State.units (fun _ => rfl)) ty n).trans ?_
    unfold State.censusPlaced
    dsimp only
    exact (hsync _).trans rfl
  · rfl

/-- The record of a unit that has entered service. -/
def UnitRec.entered (u : UnitRec) : Prop := u.state = 0 ∧ u.entering = false

section Units
variable {ty n : Nat}

theorem unit_enterUnit (s : State) (a m : Nat) (hkey : unitKey ty n < unitKey 12 0) : (s.enterUnit a m).unit ty n =
    if unitKey a m = unitKey ty n then { s.unit a m with state := 0 } else s.unit ty n := by
  rw [← unit_unitTo s a m 0 false ty n]
  unfold State.enterUnit
  dsimp only
  generalize s.unitTo a m 0 false = u
  split
  · rfl
  · exact (unit_congr ((Within.sendMessage _ _ _ _ _).get State.units (fun _ => rfl)) ty n).trans (unit_recensus u _ hkey)
  · rfl

theorem unitKey_div_mod (key : Nat) : unitKey (key / 256) (key % 256) = key := by
  unfold unitKey
  omega

/-- The turn of a unit changes that unit alone; one that entered, enters. -/
theorem unit_turnUnit (s : State) (key : Nat) (hn : n < 256) (hkey : unitKey ty n < unitKey 12 0) :
    (key ≠ unitKey ty n → (s.turnUnit key).unit ty n = s.unit ty n) ∧
    (key = unitKey ty n → (s.unit ty n).entering = true ∨ (s.unit ty n).entered → ((s.turnUnit key).unit ty n).entered) ∧
    ((s.unit ty n).entered → ((s.turnUnit key).unit ty n).entered) := by
  have hother : key ≠ unitKey ty n → (s.turnUnit key).unit ty n = s.unit ty n := by
    intro hne
    unfold State.turnUnit
    dsimp only
    split
    · rw [unit_enterUnit _ _ _ hkey, unitKey_div_mod, if_neg hne, State.unit_setUnit, unitKey_div_mod, if_neg hne]
    · split
      · rw [State.unit_setUnit, unitKey_div_mod, if_neg hne]
      · rfl
  have hself : key = unitKey ty n → (s.unit ty n).entering = true ∨ (s.unit ty n).entered → ((s.turnUnit key).unit ty n).entered := by
    intro heq h
    have hty : key / 256 = ty := by rw [heq]; unfold unitKey; omega
    have hmod : key % 256 = n := by rw [heq]; unfold unitKey; omega
    unfold State.turnUnit
    dsimp only
    rw [hty, hmod]
    split
    · rw [unit_enterUnit _ _ _ hkey, if_pos rfl, State.unit_setUnit, if_pos rfl]
      exact ⟨rfl, rfl⟩
    next hnot =>
      obtain ⟨hstate, hentering⟩ := h.resolve_left hnot
      split
      · rw [State.unit_setUnit, if_pos rfl]
        exact ⟨hstate, hentering⟩
      · exact ⟨hstate, hentering⟩
  refine ⟨hother, hself, fun h => ?_⟩
  by_cases heq : key = unitKey ty n
  · exact hself heq (.inr h)
  · rw [hother heq]
    exact h

theorem entered_foldl_turnUnit (hn : n < 256) (hkey : unitKey ty n < unitKey 12 0) (l : List Nat) (s : State)
    (h : (s.unit ty n).entered ∨ ((s.unit ty n).entering = true ∧ unitKey ty n ∈ l)) :
    ((l.foldl State.turnUnit s).unit ty n).entered := by
  induction l generalizing s with
  | nil => exact h.elim id (fun h => (nomatch h.2))
  | cons key l ih =>
    obtain ⟨hother, hself, hstays⟩ := unit_turnUnit (ty := ty) s key hn hkey
    refine ih _ ?_
    rcases h with hentered | ⟨hentering, hmem⟩
    · exact .inl (hstays hentered)
    · by_cases heq : key = unitKey ty n
      · exact .inl (hself heq (.inl hentering))
      · rw [hother heq]
        exact .inr ⟨hentering, (List.mem_cons.mp hmem).resolve_left (Ne.symm heq)⟩

end Units

/-! #### Controls, stakes and commands at the planner epoch -/

/-- Whether a clear of the controls is due, and whether the window's request waits, stay as they are. -/
theorem pert_turnField (s : State) (f : Nat) : (s.turnField f).pert.clearDue = s.pert.clearDue ∧
    (s.turnField f).pert.busy = s.pert.busy := by
  rw [turnField_eq]
  split
  · exact ⟨rfl, rfl⟩
  · split
    · obtain ⟨u, hu, heq⟩ := removeField_eq s f
      have hpert : (s.removeField f).pert = s.pert.keep (fun y => y.field != f) := by
        rcases heq with h | ⟨l, h⟩ <;> rw [h] <;> exact hu.2
      rw [hpert]
      exact ⟨rfl, rfl⟩
    · rw [(Within.turnEcc _ _ _).get State.pert (fun _ => rfl)]
      exact ⟨rfl, rfl⟩

theorem pert_foldl_turnField (l : List Nat) (s : State) : (l.foldl State.turnField s).pert.clearDue = s.pert.clearDue ∧
    (l.foldl State.turnField s).pert.busy = s.pert.busy := by
  induction l generalizing s with
  | nil => exact ⟨rfl, rfl⟩
  | cons f l ih =>
    obtain ⟨hdue, hbusy⟩ := pert_turnField s f
    exact ⟨(ih _).1.trans hdue, (ih _).2.trans hbusy⟩

/-- A census measured, before it is logged. -/
def State.censusMeasured (s : State) (records : FMap CensusRec) : State :=
  (s.censusPlaced records).censusTold.extend 4 (eventRecord 0x40 ((s.censusPlaced records).censusTold.casc.reply 0))

theorem census_logged (s : State) (records : FMap CensusRec) :
    Within [.out, .rings, .log, .trace, .counters, .fns] (s.censusMeasured records) (s.census records) :=
  ((Within.logEvent _ _ _ _ _ _).mono (by decide)).then (Within.traceRec _ _ _ _ _ _) (by decide)

theorem stakes_recensus (s : State) (x : Cascade) : (s.recensus x).trust.stakes = s.trust.stakes := by
  unfold State.recensus
  split
  · have hplaced := ((Within.censusPlaced s x.records).mono (n := [.casc, .units, .out, .ports]) (by decide)).then
      (Within.censusTold (s.censusPlaced x.records)) (by decide)
    have hmeasured : (s.censusMeasured x.records).trust.stakes = (s.censusPlaced x.records).censusTold.trust.stakes := rfl
    rw [(census_logged s x.records).get State.trust (fun _ => rfl), hmeasured, hplaced.get State.trust (fun _ => rfl)]
  · rfl

theorem stakes_turnUnit (s : State) (key : Nat) : (s.turnUnit key).trust.stakes = s.trust.stakes := by
  have henter (t : State) (a m : Nat) : (t.enterUnit a m).trust.stakes = t.trust.stakes := by
    have hto := (Within.unitTo t a m 0 false).get State.trust (fun _ => rfl)
    unfold State.enterUnit
    dsimp only
    generalize t.unitTo a m 0 false = u at *
    split
    · exact congrArg Trust.stakes hto
    · rw [(Within.sendMessage _ _ _ _ _).get State.trust (fun _ => rfl), stakes_recensus, hto]
    · exact congrArg Trust.stakes hto
  unfold State.turnUnit
  dsimp only
  split
  · exact henter _ _ _
  · split
    · rfl
    · rfl

theorem stakes_foldl_turnUnit (l : List Nat) (s : State) : (l.foldl State.turnUnit s).trust.stakes = s.trust.stakes := by
  induction l generalizing s with
  | nil => rfl
  | cons key l ih => exact (ih _).trans (stakes_turnUnit s key)

/-! #### The epoch as a whole -/

/-- The fields turned, and the slicing. -/
def State.fieldsTurned (s : State) : State := ((s.fields.map (fun f => f.1)).foldl State.turnField s).turnSlicing

/-- The units turned. -/
def State.unitsTurned (s : State) : State := (s.units.map (fun u => u.1)).foldl State.turnUnit s

/-- Copies that are whole again take part. -/
def State.indexesRejoined (s : State) : State := { s with indexes := FMap.mapVals s.indexes (fun _ x => x.rejoined) }

/-- The controls that a stake write ended are gone. -/
def State.controlsCleared (s : State) : State :=
  if s.pert.clearDue then { s with pert := { s.pert with slots := [], clearDue := false } } else s

theorem turnAll_eq (s : State) : s.turnAll = ((if s.slicesTurn then s.fieldsTurned.unitsTurned.rehome
    else s.fieldsTurned.unitsTurned).indexesRejoined.controlsCleared).reserveRuns.refreshCasc := rfl

/-- What the fields' turn may change. -/
theorem Within.fieldsTurned (s : State) : Within (.ownership :: fieldTurnComps) s s.fieldsTurned :=
  ((Within.foldl _ _ (fun _ _ h => h.trans (Within.turnField _ _)) (Within.refl fieldTurnComps s)).mono (by decide)).then
    (Within.turnSlicing _) (by decide)

theorem Within.unitsTurned (s : State) : Within unitTurnComps s s.unitsTurned :=
  Within.foldl _ _ (fun _ _ h => h.trans (Within.turnUnit _ _)) (Within.refl _ _)

/-- What follows the turns of fields and units. -/
def State.settled (s u : State) : State :=
  ((if s.slicesTurn then u.rehome else u).indexesRejoined.controlsCleared).reserveRuns.refreshCasc

theorem Within.settled (s u : State) : Within [.fields, .cores, .channels, .granary, .indexes, .pert, .runs, .casc] u (s.settled u) := by
  have hhome : Within [.fields, .cores, .channels, .granary] u (if s.slicesTurn then u.rehome else u) :=
    Within.ite (Within.rehome u) (Within.refl _ _)
  unfold State.settled
  generalize (if s.slicesTurn then u.rehome else u) = v at *
  have hindexes : Within [.indexes] v v.indexesRejoined := rfl
  generalize v.indexesRejoined = w at *
  have hcontrols : Within [.pert] w w.controlsCleared := Within.ite rfl (Within.refl _ _)
  exact ((((hhome.mono (by decide)).then hindexes (by decide)).then hcontrols (by decide)).then (Within.reserveRuns _) (by decide)).then
    (Within.refreshCasc _) (by decide)

theorem fieldsShow_settled (s u : State) : FieldsShow Field.terms u (s.settled u) := by
  have hhome : FieldsShow Field.terms u (if s.slicesTurn then u.rehome else u) := by
    split
    · unfold State.rehome
      exact (fieldsShow_retire u true _ (fun _ _ => rfl) (fun _ _ => rfl)).trans
        (fieldsShow_foldl (fun t (f : Nat × Field) => fieldsShow_of_within (Within.pinLines t f.1) rfl) _ _)
    · exact FieldsShow.refl u
  unfold State.settled
  generalize (if s.slicesTurn then u.rehome else u) = v at *
  have hcontrols : Within [.pert] v.indexesRejoined v.indexesRejoined.controlsCleared := Within.ite rfl (Within.refl _ _)
  exact ((hhome.trans (fieldsShow_of_fields (t := v.indexesRejoined) rfl)).trans (fieldsShow_of_within hcontrols rfl)).trans
    ((fieldsShow_of_within (Within.reserveRuns _) (by decide)).trans (fieldsShow_of_within (Within.refreshCasc _) (by decide)))

theorem pert_settled (s u : State) : (s.settled u).pert = u.controlsCleared.pert := by
  have hhome : (if s.slicesTurn then u.rehome else u).pert = u.pert :=
    (Within.ite (Within.rehome u) (Within.refl _ _) : Within [.fields, .cores, .channels, .granary] u _).get State.pert (fun _ => rfl)
  have hcleared {v w : State} (h : v.pert = w.pert) : v.controlsCleared.pert = w.controlsCleared.pert := by
    unfold State.controlsCleared
    rw [h]
    split
    · rfl
    · exact h
  unfold State.settled
  rw [(Within.refreshCasc _).get State.pert (fun _ => rfl), (Within.reserveRuns _).get State.pert (fun _ => rfl)]
  exact hcleared hhome

/-! #### The obligation -/

theorem exec_plannerEpoch {s : State} (h : s.completing = true) : exec .plannerEpoch s =
    .next (((s.advance ((s.tbk / 10000 + 1) * 10000)).turnAll.tracePlanner s.changeDue).takeBusy) := by
  change execPlannerEpoch s = _
  unfold execPlannerEpoch
  rw [if_neg (by simp [h])]

/-- R459, R640, R655: what holds behind a planner epoch. -/
theorem turnAll_spec (s : State) (due : Bool) :
    ((s.turnAll.tracePlanner due).takeBusy).tbk = s.tbk ∧
      (∀ f, (((s.turnAll.tracePlanner due).takeBusy).field? f).map Field.terms = ((s.field? f).map Field.terms).bind Terms.turned) ∧
      (∀ ty n, ty ≠ 12 → n < unitCount ty → (s.unit ty n).entering = true →
        (((s.turnAll.tracePlanner due).takeBusy).unit ty n).entered) ∧
      (s.pert.clearDue = true → s.pert.busy = false → ((s.turnAll.tracePlanner due).takeBusy).pert.slots = []) ∧
      ((s.turnAll.tracePlanner due).takeBusy).cmds = s.cmds ∧
      ((s.turnAll.tracePlanner due).takeBusy).trust.stakes = s.trust.stakes := by
  have hturn : s.turnAll = s.settled s.fieldsTurned.unitsTurned := rfl
  have hfields := Within.fieldsTurned s
  have hunits := Within.unitsTurned s.fieldsTurned
  have hsettled := Within.settled s s.fieldsTurned.unitsTurned
  have htrace := Within.tracePlanner s.turnAll due
  have hbusy := Within.takeBusy (s.turnAll.tracePlanner due)
  refine ⟨?_, fun f => ?_, fun ty n hty hn hentering => ?_, fun hclear hidle => ?_, ?_, ?_⟩
  · rw [hbusy.get State.tbk (fun _ => rfl), htrace.get State.tbk (fun _ => rfl), hturn, hsettled.get State.tbk (fun _ => rfl),
      hunits.get State.tbk (fun _ => rfl), hfields.get State.tbk (fun _ => rfl)]
  · have hshow : FieldsShow Field.terms s.fieldsTurned ((s.turnAll.tracePlanner due).takeBusy) :=
      (fieldsShow_of_within hunits rfl).trans ((fieldsShow_settled s _).trans
        ((fieldsShow_of_within htrace rfl).trans (fieldsShow_of_within hbusy rfl)))
    rw [hshow f, State.fieldsTurned, fieldsShow_turnSlicing, terms_foldl_turnField]
    split
    · rfl
    next hmem =>
      rw [State.field?, get?_eq_none_of_notMem hmem]
      rfl
  · have hlt : n < 256 := (lt_of_lt_of_le hn (unitCount_le ty)).trans (by decide)
    have hkey : unitKey ty n < unitKey 12 0 := by
      have hle : ty ≤ 12 := by
        by_contra hgt
        unfold unitCount at hn
        split at hn <;> omega
      unfold unitKey
      omega
    have hmem : unitKey ty n ∈ s.fieldsTurned.units.map (fun u => u.1) := by
      rw [hfields.get State.units (fun _ => rfl)]
      by_contra hnone
      rw [State.unit, FMap.getD, get?_eq_none_of_notMem hnone] at hentering
      have hdefault : (unitDefault ty).entering = false := by unfold unitDefault; split <;> rfl
      exact absurd (hdefault.symm.trans hentering) (by decide)
    have hentered := entered_foldl_turnUnit hlt hkey _ s.fieldsTurned
      (.inr ⟨by rw [unit_congr (hfields.get State.units (fun _ => rfl))]; exact hentering, hmem⟩)
    rw [unit_congr (hbusy.get State.units (fun _ => rfl)), unit_congr (htrace.get State.units (fun _ => rfl)), hturn,
      unit_congr (hsettled.get State.units (fun _ => rfl))]
    exact hentered
  · have hpert : s.fieldsTurned.unitsTurned.pert.clearDue = true ∧ s.fieldsTurned.unitsTurned.pert.busy = false := by
      rw [hunits.get State.pert (fun _ => rfl), State.fieldsTurned, (Within.turnSlicing _).get State.pert (fun _ => rfl)]
      obtain ⟨hdue, hbusy⟩ := pert_foldl_turnField (s.fields.map (fun f => f.1)) s
      exact ⟨hdue.trans hclear, hbusy.trans hidle⟩
    have hcleared : (s.turnAll.tracePlanner due).pert = { s.fieldsTurned.unitsTurned.pert with slots := [], clearDue := false } := by
      rw [htrace.get State.pert (fun _ => rfl), hturn, pert_settled, State.controlsCleared, if_pos hpert.1]
    have hquiet : (s.turnAll.tracePlanner due).takeBusy = s.turnAll.tracePlanner due := by
      unfold State.takeBusy
      rw [if_neg (by rw [hcleared, hpert.2]; simp)]
    rw [hquiet, hcleared]
  · rw [hbusy.get State.cmds (fun _ => rfl), htrace.get State.cmds (fun _ => rfl), hturn, hsettled.get State.cmds (fun _ => rfl),
      hunits.get State.cmds (fun _ => rfl), hfields.get State.cmds (fun _ => rfl)]
  · rw [(trust_takeBusy _).1, htrace.get State.trust (fun _ => rfl), hturn, hsettled.get State.trust (fun _ => rfl),
      State.unitsTurned, stakes_foldl_turnUnit, hfields.get State.trust (fun _ => rfl)]

theorem fieldsShow_charge (s : State) (f n : Nat) : FieldsShow Field.pages s (s.charge f n) :=
  fieldsShow_modField s f (fun x => (Field.pages_withTokens _ _).trans (Field.pages_refill x _))

/-- R539: a page's frame moved: the field's other pages stay. -/
theorem moveFrame_of_near {s : State} {f h frame : Nat} {x : Field} {p : Page} {l : Loc} (hx : s.field? f = some x)
    (hloc : p.loc = .near h frame) (hfree : s.freeNear (1 - h) = some l) :
    ∃ t y, s.moveFrame f p = some t ∧ Within [.fields, .cores, .channels, .granary] s t ∧ t.field? f = some y ∧
      y.pages = x.pages.map (fun q => if q.num = p.num then { p with loc := l } else q) := by
  have hdropped : FieldsShow Field.pages s (s.dropLines f p.loc) :=
    fieldsShow_retire s false _ (fun _ _ => rfl) (fun _ _ => rfl)
  have hwithin := Within.dropLines s f p.loc
  obtain ⟨z, hz, hpages⟩ := Option.map_eq_some_iff.mp ((hdropped f).trans (congrArg (Option.map Field.pages) hx))
  have hset : ((s.dropLines f p.loc).setPage f { p with loc := l }).field? f =
      some { z with pages := z.pages.map (fun q => if q.num = p.num then { p with loc := l } else q) } := by
    rw [State.setPage, State.field?_modField, if_pos rfl, hz]
    rfl
  have hmove : s.moveFrame f p = some (((s.dropLines f p.loc).setPage f { p with loc := l }).charge f (2 * pageSize)) := by
    unfold State.moveFrame
    rw [hloc]
    dsimp only
    rw [hfree]
  have hset' := hwithin.then (Within.setPage (s.dropLines f p.loc) f { p with loc := l }) (by decide)
  generalize (s.dropLines f p.loc).setPage f { p with loc := l } = u at *
  obtain ⟨y, hy, hcharged⟩ := Option.map_eq_some_iff.mp (((fieldsShow_charge u f (2 * pageSize)) f).trans
    (congrArg (Option.map Field.pages) hset))
  exact ⟨_, y, hmove, hset'.then (Within.charge _ _ _) (by decide), hy, by rw [hcharged, ← hpages]⟩

theorem exec_frameMove {s t : State} {field page h frame k : Nat} {x : Field} {p : Page} (hcompleting : s.completing = true)
    (hx : s.field? field = some x) (hp : x.pages.find? (fun q => q.num == page) = some p) (hloc : p.loc = .near h frame) (hk : k < 4)
    (hdrains : s.unitState 10 (4 * h + k) = 1) (hmove : s.moveFrame field p = some t) :
    exec (.frameMove field page) s = .next ((t.setCmds (t.cmds.map (Cmd.frameMoved h))).pinLines field) := by
  change execFrameMove field page s = _
  unfold execFrameMove
  rw [if_neg (by simp [hcompleting]), hx]
  dsimp only
  rw [hp]
  dsimp only
  rw [hloc]
  dsimp only
  rw [if_neg, hmove]
  intro hall
  have hmem : k ∈ ([0, 1, 2, 3] : List Nat) := by
    simp only [List.mem_cons, List.not_mem_nil, or_false]
    omega
  have hk := List.all_eq_true.mp hall k hmem
  rw [hdrains] at hk
  cases hk

/-- R492: the temperatures of some channels noted. -/
theorem foldl_setChannel_hot (temps : List Int) (l : List Nat) (s : State) :
    ∃ cs : FMap Channel, l.foldl (fun t c => t.setChannel c { t.channel c with hot := decide (85 < temps.getD c 0) }) s =
        { s with channels := cs } ∧
      ∀ ch, FMap.getD cs ch Channel.reset =
        if ch ∈ l then { s.channel ch with hot := decide (85 < temps.getD ch 0) } else s.channel ch := by
  induction l generalizing s with
  | nil => exact ⟨s.channels, rfl, fun ch => by rw [if_neg List.not_mem_nil]; rfl⟩
  | cons c l ih =>
    obtain ⟨cs, heq, hcs⟩ := ih (s.setChannel c { s.channel c with hot := decide (85 < temps.getD c 0) })
    refine ⟨cs, heq, fun ch => ?_⟩
    rw [hcs, State.channel_setChannel]
    by_cases hc : c = ch
    · subst hc
      rw [if_pos rfl, if_pos List.mem_cons_self]
      split <;> rfl
    · rw [if_neg hc]
      by_cases hl : ch ∈ l
      · rw [if_pos hl, if_pos (List.mem_cons_of_mem c hl)]
      · rw [if_neg hl, if_neg (by simp [hl, Ne.symm hc])]

theorem exec_patrolScrub {s : State} {field page chunk : Nat} {x : Field} {p : Page} {ch line : Nat} (e : Ecc)
    (hon : s.memoryOn = true) (hx : s.field? field = some x) (hecc : x.cfg.ecc = true) (hchunk : chunk < pageSize / 64)
    (hp : x.pages.find? (fun q => q.num == page && q.inGddr) = some p) (hplace : p.placeOf (64 * chunk) = some (ch, line))
    (hserves : s.channelServes ch = true) : exec (.patrolScrub field page chunk e) s = .next (s.checkChunk field page chunk e) := by
  have hcfg : (s.cfg field).ecc = true := by
    rw [State.cfg, hx]
    exact hecc
  change execPatrolScrub field page chunk e s = _
  unfold execPatrolScrub
  rw [if_neg (by rw [hon, hcfg, decide_eq_false (Nat.not_le.mpr hchunk)]; decide), hx]
  dsimp only
  rw [hp]
  dsimp only
  rw [hplace]
  exact if_pos hserves

/-- What an error of a chunk's check leaves behind its mark. -/
theorem eccFailed_spec (s : State) (f page chunk : Nat) :
    Within [.out, .rings, .fields, .badChunks, .log, .counters, .fns] s (s.eccFailed f page chunk) ∧
      (s.eccFailed f page chunk).badChunks = (if s.badChunks.contains (f, page, chunk) then s.badChunks
        else (f, page, chunk) :: s.badChunks) ∧
      ∃ e rest, (s.eccFailed f page chunk).log.entries = e :: rest ∧ e.code = 0x0011 ∧ e.field = f := by
  refine ⟨Within.eccFailed s f page chunk, ?_, ?_⟩
  · unfold State.eccFailed
    dsimp only
    rw [(Within.countField _ _ _ _).get State.badChunks (fun _ => rfl), (Within.logEvent _ _ _ _ _ _).get State.badChunks (fun _ => rfl)]
    split <;> rfl
  · unfold State.eccFailed
    dsimp only
    rw [(Within.countField _ _ _ _).get State.log (fun _ => rfl)]
    exact State.logEvent_newest _ _ _ _ _ _

/-- Settles O21: each field's configurations turn in their own step, each unit in its own; a frame move, the upkeep of a channel and a
scrub change what they name alone. -/
theorem epochAndUpkeep : Obligations.EpochAndUpkeep := by
  unfold Obligations.EpochAndUpkeep
  refine ⟨fun s hcompleting => ?_, ?_, ⟨fun s ch hch hon => ⟨?_, ?_⟩, fun s temps hon => ?_⟩, ?_⟩
  · obtain ⟨htbk, hterms, hunits, hcontrols, hcmds, hstakes⟩ := turnAll_spec (s.advance ((s.tbk / 10000 + 1) * 10000)) s.changeDue
    refine ⟨_, exec_plannerEpoch hcompleting, ?_, fun f x hx hremoving => ?_, fun f x hx hremoving => ?_,
      fun ty n hty hn hentering => ?_, hcontrols, hcmds, hstakes⟩
    · rw [htbk]
      change max s.tbk ((s.tbk / 10000 + 1) * 10000) = _
      omega
    · have h := hterms f
      rw [show (s.advance ((s.tbk / 10000 + 1) * 10000)).field? f = some x from hx, Option.map_some, Option.bind_some, Terms.turned,
        if_pos (show x.terms.removing = true from hremoving)] at h
      exact Option.map_eq_none_iff.mp h
    · have h := hterms f
      rw [show (s.advance ((s.tbk / 10000 + 1) * 10000)).field? f = some x from hx, Option.map_some, Option.bind_some, Terms.turned,
        if_neg (show ¬ x.terms.removing = true from by rw [show x.terms.removing = x.removing from rfl, hremoving]; decide)] at h
      obtain ⟨y, hy, hyt⟩ := Option.map_eq_some_iff.mp h
      exact ⟨y, hy, congrArg Terms.cfg hyt, congrArg Terms.tgt hyt, congrArg Terms.present hyt⟩
    · exact hunits ty n hty hn hentering
  · intro s field page x p h frame l hcompleting hx hp hloc ⟨k, hk, hdrains⟩ hfree
    obtain ⟨t, y, hmove, hwithin, hy, hpages⟩ := moveFrame_of_near hx hloc hfree
    have hnum : p.num = page := beq_iff_eq.mp (List.find?_some (p := fun q : Page => q.num == page) hp)
    have hpin := Within.pinLines (t.setCmds (t.cmds.map (Cmd.frameMoved h))) field
    have hcmds : (t.setCmds (t.cmds.map (Cmd.frameMoved h))).cmds = s.cmds.map (Cmd.frameMoved h) :=
      congrArg (List.map (Cmd.frameMoved h)) (hwithin.get State.cmds (fun _ => rfl))
    refine ⟨_, exec_frameMove hcompleting hx hp hloc hk hdrains hmove, ⟨y, ?_, by rw [hpages, hnum]⟩,
      (hpin.get State.cmds (fun _ => rfl)).trans hcmds, ?_, State.ringsKept_of_rings_eq ?_, ?_⟩
    · exact (hpin.get (fun u => u.field? field) (fun _ => rfl)).trans hy
    · exact (hpin.get State.indexes (fun _ => rfl)).trans (hwithin.get State.indexes (fun _ => rfl))
    · exact (hpin.get State.rings (fun _ => rfl)).trans (hwithin.get State.rings (fun _ => rfl))
    · exact (hpin.get State.tbk (fun _ => rfl)).trans (hwithin.get State.tbk (fun _ => rfl))
  · change execRefresh ch s = _
    unfold execRefresh
    rw [if_neg (Nat.not_le.mpr hch), if_neg (by simp [hon])]
  · change execTrainingUpkeep ch s = _
    unfold execTrainingUpkeep
    rw [if_neg (Nat.not_le.mpr hch), if_neg (by simp [hon])]
  · obtain ⟨cs, heq, hcs⟩ := foldl_setChannel_hot temps (List.range 16) (s.advance ((s.tbk / 32000000 + 1) * 32000000))
    refine ⟨cs, ?_, fun ch => (hcs ch).trans (by simp only [List.mem_range]; rfl)⟩
    have htime : max s.tbk ((s.tbk / 32000000 + 1) * 32000000) = (s.tbk / 32000000 + 1) * 32000000 := by omega
    change execGddrTemperatureRead temps s = _
    unfold execGddrTemperatureRead
    rw [if_neg (by simp [hon])]
    dsimp only
    rw [heq, State.advance, htime]
  · intro s field page chunk x p ch line hon hx hecc hchunk hp hplace hserves
    have hexec := fun e => exec_patrolScrub e hon hx hecc hchunk hp hplace hserves
    refine ⟨hexec .clean, ?_, fun hclean => ?_⟩
    · obtain ⟨hwithin, hbad, hlog⟩ := eccFailed_spec s field page chunk
      refine ⟨_, hexec .uncorrectable, ?_, hlog, fun b hb => ?_, hwithin.get State.cmds (fun _ => rfl),
        hwithin.get State.granary (fun _ => rfl), hwithin.get State.channels (fun _ => rfl)⟩
      · change (field, page, chunk) ∈ (s.eccFailed field page chunk).badChunks
        rw [hbad]
        split
        next h => exact List.contains_iff_mem.mp h
        next => exact List.mem_cons_self
      · change b ∈ (s.eccFailed field page chunk).badChunks
        rw [hbad]
        split
        · exact hb
        · exact List.mem_cons_of_mem _ hb
    · have hcheck : s.checkChunk field page chunk .corrected = s.eccCorrected field page chunk :=
        if_neg (fun h => hclean (List.contains_iff_mem.mp h))
      have hwithin := Within.eccCorrected s field page chunk
      refine ⟨_, (hexec .corrected).trans (by rw [hcheck]), hwithin.get State.badChunks (fun _ => rfl), ?_,
        hwithin.get State.cmds (fun _ => rfl), hwithin.get State.granary (fun _ => rfl), hwithin.get State.channels (fun _ => rfl)⟩
      unfold State.eccCorrected
      rw [(Within.countField _ _ _ _).get State.log (fun _ => rfl)]
      exact State.logEvent_newest _ _ _ _ _ _

end Sys2Proof.Machine

/-! ### Searches of classes B and X: their admission (R39, R55, R266 to R274, R462) -/

namespace Sys2Proof.Machine

/-! #### What admission may change -/

theorem Within.setQueries (s : State) (x : List Query) :
    Within [.queries] s (s.setQueries x) := rfl

theorem Within.setWindow (s : State) (n : Nat) (x : Window) :
    Within [.windows] s (s.setWindow n x) := rfl

theorem Within.closeWindow (s : State) (n : Nat) :
    Within [.fields, .windows] s (s.closeWindow n) := by
  unfold State.closeWindow
  with_reducible repeat' first
    | exact Within.refl _ _ | assumption | refine Within.then ?_ (Within.setWindow _ _ _) ?_
    | refine Within.then ?_ (Within.countField _ _ _ _) ?_ | split | dsimp only | decide

/-- A query's window noted with it. -/
def State.seat (s : State) (r : QRef) (n : Nat) : State :=
  s.setQueries (s.queries.map (fun p => if p.ref = r then { p with window := some n } else p))
/-- The next window opened. -/
def State.openNext (s : State) (w : Window) : State :=
  { s with windows := FMap.set s.windows s.nextWindow w, nextWindow := s.nextWindow + 1 }
/-- A query's core and Crystalliser noted with it. -/
def State.atUnits (s : State) (r : QRef) (c y : Nat) : State :=
  s.setQueries (s.queries.map (fun p => if p.ref = r then { p with core := some c, cryst := y } else p))
/-- A query with the Sieve and the Assayer that admission assigns to it. -/
def State.assigned (s : State) (q : Query) : Query :=
  { q with sieve := s.pickSieve q.cls, assayer := if q.rerank = 0 then 0 else s.pickAssayer q.cls }
/-- An entry put behind the others of the ledger. -/
def State.addEntry (s : State) (e : LedgerEntry) : State := { s with ledger := s.ledger ++ [e] }
/-- The ledger replaced. -/
def State.withLedger (s : State) (l : List LedgerEntry) : State := { s with ledger := l }

theorem Within.seat (s : State) (r : QRef) (n : Nat) : Within [.queries] s (s.seat r n) := rfl

theorem Within.openNext (s : State) (w : Window) : Within [.windows, .nextWindow] s (s.openNext w) := rfl

theorem Within.atUnits (s : State) (r : QRef) (c y : Nat) : Within [.queries] s (s.atUnits r c y) := rfl

theorem Within.addEntry (s : State) (e : LedgerEntry) : Within [.ledger] s (s.addEntry e) := rfl

theorem Within.withLedger (s : State) (l : List LedgerEntry) : Within [.ledger] s (s.withLedger l) := rfl

/-- R272, R274: joining the open window of its kind. -/
theorem State.joinWindow_of_some {s : State} {q : Query} {n : Nat} {w : Window}
    (h : s.openWindow q.field q.index (q.cls == 2) = some (n, w)) :
    s.joinWindow q = (if 256 ≤ w.queries.length + 1
      then ((s.setWindow n { w with queries := w.queries ++ [q.ref] }).seat q.ref n).closeWindow n
      else (s.setWindow n { w with queries := w.queries ++ [q.ref] }).seat q.ref n) := by
  unfold State.joinWindow
  rw [h]
  rfl

/-- R272: opening a window where none of its kind is open. -/
theorem State.joinWindow_of_none {s : State} {q : Query} (h : s.openWindow q.field q.index (q.cls == 2) = none) :
    s.joinWindow q = (s.openNext ⟨q.field, q.index, q.cls == 2, s.tbk, (s.cfg q.field).sowingUs, [q.ref], false, false, [], 0⟩).seat
      q.ref s.nextWindow := by
  unfold State.joinWindow
  rw [h]
  rfl

/-- R269, R464: what placing a query does. -/
theorem State.place_parts {s t : State} {q : Query} {bytes : Nat} (h : s.place q bytes = some t) : ∃ (c y : Nat),
    t = ((s.setCore c { s.core c with tables := (s.core c).tables ++ [⟨q.ref, bytes, q.cls == 0⟩] }).atUnits q.ref c y).joinWindow
      { q with core := some c, cryst := y } := by
  unfold State.place at h
  split at h
  · next c y hc hy =>
    cases h
    exact ⟨c, y, rfl⟩
  · cases h

/-- R270: an admitted query is placed, or waits. -/
theorem State.admitQuery_parts {s t : State} {q : Query} {bytes : Nat} (h : s.admitQuery q bytes = some t) :
    (s.setQueries (s.queries ++ [s.assigned q])).place (s.assigned q) bytes = some t ∨
      t = (s.setQueries (s.queries ++ [s.assigned q])).mustWait (s.assigned q) := by
  change (match (s.setQueries (s.queries ++ [s.assigned q])).place (s.assigned q) bytes with
    | some u => some u
    | none => if q.cls = 0 then none else some ((s.setQueries (s.queries ++ [s.assigned q])).mustWait (s.assigned q))) = some t at h
  split at h
  · next u hu => exact .inl (hu.trans h)
  · split at h
    · cases h
    · exact .inr (Option.some.inj h).symm

theorem Within.mustWait (s : State) (q : Query) :
    Within [.fields, .windows] s (s.mustWait q) := by
  unfold State.mustWait
  with_reducible repeat' first
    | exact Within.refl _ _ | assumption | refine Within.then ?_ (Within.closeWindow _ _) ?_ | split | dsimp only
    | decide

theorem Within.joinWindow (s : State) (q : Query) :
    Within [.fields, .queries, .windows, .nextWindow] s (s.joinWindow q) := by
  cases h : s.openWindow q.field q.index (q.cls == 2) with
  | none =>
    rw [State.joinWindow_of_none h]
    exact ((Within.openNext s _).mono (by decide)).then (.seat _ _ _) (by decide)
  | some x =>
    obtain ⟨n, w⟩ := x
    rw [State.joinWindow_of_some h]
    have hseat : Within [.fields, .queries, .windows, .nextWindow] s
        ((s.setWindow n { w with queries := w.queries ++ [q.ref] }).seat q.ref n) :=
      ((Within.setWindow s n _).mono (by decide)).then (.seat _ _ _) (by decide)
    exact .ite (hseat.then (.closeWindow _ n) (by decide)) hseat

theorem Within.place {s t : State} {q : Query} {bytes : Nat} (h : s.place q bytes = some t) :
    Within [.fields, .queries, .windows, .nextWindow, .cores] s t := by
  obtain ⟨c, y, rfl⟩ := State.place_parts h
  exact (((Within.setCore s c _).mono (by decide)).then (.atUnits _ q.ref c y) (by decide)).then (.joinWindow _ _) (by decide)

theorem Within.admitQuery {s t : State} {q : Query} {bytes : Nat} (h : s.admitQuery q bytes = some t) :
    Within [.fields, .queries, .windows, .nextWindow, .cores] s t := by
  rcases State.admitQuery_parts h with h | rfl
  · exact ((Within.setQueries s _).mono (by decide)).then (.place h) (by decide)
  · exact ((Within.setQueries s _).mono (by decide)).then (.mustWait _ _) (by decide)

theorem Within.noteSel (s : State) (window : Option Nat) (sel : Nat) :
    Within [.windows] s (s.noteSel window sel).1 := by
  unfold State.noteSel
  with_reducible repeat' first
    | exact Within.refl _ _ | assumption | refine Within.then ?_ (Within.setWindow _ _ _) ?_ | split | dsimp only
    | decide

theorem Within.pushStarts (s : State) (window : Option Nat) (start : Nat) :
    Within [.ledger] s (s.pushStarts window start) := by
  unfold State.pushStarts
  split
  · exact .refl _ _
  · exact .withLedger _ _

theorem Within.relax (s : State) : Within [.ledger] s s.relax := rfl

/-- What entering a query of a search without a deadline decision does. -/
theorem enterQuery_parts {s t : State} {b : BoundIn} {q : Query} {bytes : Nat} (h : s.enterQuery b false q bytes = some t) :
    ∃ (u : State) (r : Query) (sel : Nat), s.admitQuery q bytes = some u ∧ r ∈ u.queries ∧ r.ref = q.ref ∧
      t = ((u.noteSel r.window sel).1.pushStarts r.window (u.noteSel r.window sel).2).relax := by
  unfold State.enterQuery at h
  dsimp only at h
  split at h
  · cases h
  · next u hu =>
    split at h
    · cases h
    · next r hr =>
      cases h
      exact ⟨u, r, _, hu, List.mem_of_find?_eq_some hr, eq_of_beq (List.find?_some hr :), rfl⟩

theorem Within.enterQuery {s t : State} {b : BoundIn} {q : Query} {bytes : Nat} (h : s.enterQuery b false q bytes = some t) :
    Within [.fields, .queries, .windows, .nextWindow, .ledger, .cores] s t := by
  obtain ⟨u, r, sel, hu, _, _, rfl⟩ := enterQuery_parts h
  exact ((((Within.admitQuery hu).mono (by decide)).then (.noteSel u r.window sel) (by decide)).then (.pushStarts _ _ _)
    (by decide)).then (.relax _) (by decide)

/-- The queries of a packet entered in turn, seen as what each of them may do. -/
theorem enterAll_induction {R : State → State → List Query → Prop} {b : BoundIn} {bytes : Nat} (hrefl : ∀ s, R s s [])
    (hstep : ∀ {s u t : State} {q : Query} {qs : List Query}, s.enterQuery b false q bytes = some u → R u t qs → R s t (q :: qs))
    (qs : List Query) : ∀ {s t : State}, s.enterAll b false bytes qs = some t → R s t qs := by
  induction qs with
  | nil =>
    intro s t h
    cases h
    exact hrefl s
  | cons q qs ih =>
    intro s t h
    unfold State.enterAll at h
    split at h
    · cases h
    · next u hu => exact hstep hu (ih h)

theorem Within.enterAll {b : BoundIn} {bytes : Nat} {qs : List Query} {s t : State} (h : s.enterAll b false bytes qs = some t) :
    Within [.fields, .queries, .windows, .nextWindow, .ledger, .cores] s t :=
  enterAll_induction (R := fun s t _ => Within [.fields, .queries, .windows, .nextWindow, .ledger, .cores] s t) (.refl _)
    (fun hu ht => (Within.enterQuery hu).then ht (by decide)) qs h

theorem Within.closeAtOnce (s : State) (b : Bound) :
    Within [.fields, .windows] s (s.closeAtOnce b) := by
  unfold State.closeAtOnce
  with_reducible repeat' first
    | exact Within.refl _ _ | assumption | refine Within.then ?_ (Within.closeWindow _ _) ?_ | split | dsimp only
    | decide

/-- A number drawn of what the manual leaves open. -/
def State.drawn (s : State) : State := { s with fresh := s.fresh + 1 }

theorem Within.drawn (s : State) : Within [.fresh] s s.drawn := rfl

theorem Within.noteReplays (s : State) (f : Nat) (a : Acc) :
    Within [.fresh, .fields, .trace, .counters] s (s.noteReplays f a) := by
  have hcount : Within [.fresh, .fields, .trace, .counters] s (if a.replays = 0 then s
      else (s.countField f 22 a.replays).traceRec 10 f noUnit (BitVec.ofNat 64 f) 0) :=
    .ite (.refl _ _) (((Within.countField s f 22 a.replays).mono (by decide)).then (.traceRec _ _ _ _ _ _) (by decide))
  unfold State.noteReplays
  dsimp only
  split
  · exact hcount
  · exact ((hcount.then (.drawn _) (by decide)).then (.countField _ _ _ _) (by decide)).then (.traceRec _ _ _ _ _ _) (by decide)
/-! #### What a query asked for stays with it (R39) -/

/-- A query without the places that the admission planner gives it. -/
def Query.asked (q : Query) : Query := { q with core := none, cryst := 0, sieve := 0, assayer := 0, window := none }

@[simp] theorem Query.asked_ref (q : Query) : q.asked.ref = q.ref := rfl

/-- The queries ask for what they asked for before, and the given ones come behind them. -/
def Asks (s t : State) (qs : List Query) : Prop :=
  t.queries.map Query.asked = s.queries.map Query.asked ++ qs.map Query.asked

theorem Asks.of_queries {s t : State} (h : t.queries = s.queries) : Asks s t [] := by
  simp only [Asks, h, List.map_nil, List.append_nil]

theorem Asks.of_within {m : List Comp} {s t : State} (h : Within m s t) (hm : m.elem .queries = false) : Asks s t [] :=
  .of_queries (h.get State.queries fun u => by simp only [State.patch, hm, cond_false])

theorem Asks.trans {r s t : State} {ps qs : List Query} (h : Asks r s ps) (g : Asks s t qs) : Asks r t (ps ++ qs) := by
  unfold Asks at h g ⊢
  rw [g, h, List.map_append, List.append_assoc]

theorem Asks.refs {s t : State} {qs : List Query} (h : Asks s t qs) :
    t.queries.map (fun p => p.ref) = s.queries.map (fun p => p.ref) ++ qs.map (fun p => p.ref) := by
  have hrefs := congrArg (List.map (fun p : Query => p.ref)) h
  simpa only [List.map_append, List.map_map, Function.comp_def, Query.asked_ref] using hrefs

/-- Each query asks for what one of before or one of the new ones asked for. -/
theorem Asks.mem {s t : State} {qs : List Query} (h : Asks s t qs) {p : Query} (hp : p ∈ t.queries) :
    ∃ q, (q ∈ s.queries ∨ q ∈ qs) ∧ p.asked = q.asked := by
  have hmem : p.asked ∈ s.queries.map Query.asked ++ qs.map Query.asked := h ▸ List.mem_map_of_mem hp
  rcases List.mem_append.mp hmem with hq | hq <;> obtain ⟨q, hin, heq⟩ := List.mem_map.mp hq
  · exact ⟨q, .inl hin, heq.symm⟩
  · exact ⟨q, .inr hin, heq.symm⟩

/-- A change of the queries that leaves what each asks for. -/
theorem asks_setQueries_map {s : State} {g : Query → Query} (hg : ∀ p, (g p).asked = p.asked) :
    Asks s (s.setQueries (s.queries.map g)) [] := by
  simp only [Asks, State.setQueries, List.map_map, List.map_nil, List.append_nil]
  exact List.map_congr_left fun p _ => hg p

theorem asks_closeWindow (s : State) (n : Nat) : Asks s (s.closeWindow n) [] :=
  .of_within (Within.closeWindow s n) rfl

theorem asks_mustWait (s : State) (q : Query) : Asks s (s.mustWait q) [] :=
  .of_within (Within.mustWait s q) rfl

theorem asks_seat (s : State) (r : QRef) (n : Nat) : Asks s (s.seat r n) [] := asks_setQueries_map fun p => by split <;> rfl

theorem asks_joinWindow (s : State) (q : Query) : Asks s (s.joinWindow q) [] := by
  cases h : s.openWindow q.field q.index (q.cls == 2) with
  | none =>
    rw [State.joinWindow_of_none h]
    exact (Asks.of_within (Within.openNext s _) rfl).trans (asks_seat _ _ _)
  | some x =>
    obtain ⟨n, w⟩ := x
    rw [State.joinWindow_of_some h]
    have hseat := (Asks.of_within (Within.setWindow s n { w with queries := w.queries ++ [q.ref] }) rfl).trans (asks_seat _ q.ref n)
    split
    · exact hseat.trans (asks_closeWindow _ n)
    · exact hseat

theorem asks_place {s t : State} {q : Query} {bytes : Nat} (h : s.place q bytes = some t) : Asks s t [] := by
  obtain ⟨c, y, rfl⟩ := State.place_parts h
  have hunits (u : State) : Asks u (u.atUnits q.ref c y) [] := asks_setQueries_map fun p => by split <;> rfl
  exact ((Asks.of_within (Within.setCore s c _) rfl).trans (hunits _)).trans (asks_joinWindow _ _)

theorem asks_admitQuery {s t : State} {q : Query} {bytes : Nat} (h : s.admitQuery q bytes = some t) : Asks s t [q] := by
  have happ : Asks s (s.setQueries (s.queries ++ [s.assigned q])) [q] := by
    simp only [Asks, State.setQueries, List.map_append, List.map_cons, List.map_nil]
    rfl
  rcases State.admitQuery_parts h with h | rfl
  · exact happ.trans (asks_place h)
  · exact happ.trans (asks_mustWait _ _)

theorem asks_noteSel (s : State) (w : Option Nat) (sel : Nat) : Asks s (s.noteSel w sel).1 [] :=
  .of_within (Within.noteSel s w sel) rfl

theorem asks_pushStarts (s : State) (w : Option Nat) (start : Nat) : Asks s (s.pushStarts w start) [] :=
  .of_within (Within.pushStarts s w start) rfl

theorem asks_relax (s : State) : Asks s s.relax [] := .of_queries rfl

/-! #### A search without a deadline decision always finds its place (R270) -/

theorem asks_enterQuery {s t : State} {b : BoundIn} {q : Query} {bytes : Nat} (h : s.enterQuery b false q bytes = some t) :
    Asks s t [q] := by
  obtain ⟨u, r, sel, hu, _, _, rfl⟩ := enterQuery_parts h
  exact (((asks_admitQuery hu).trans (asks_noteSel u r.window sel)).trans (asks_pushStarts _ _ _)).trans (asks_relax _)

theorem asks_enterAll {b : BoundIn} {bytes : Nat} {qs : List Query} {s t : State} (h : s.enterAll b false bytes qs = some t) :
    Asks s t qs :=
  enterAll_induction (R := Asks) (fun _ => .of_queries rfl) (fun hu ht => (asks_enterQuery hu).trans ht) qs h

theorem admitQuery_isSome {s : State} {q : Query} (hcls : q.cls ≠ 0) (bytes : Nat) : ∃ t, s.admitQuery q bytes = some t := by
  unfold State.admitQuery
  dsimp only
  split
  · next u hu => exact ⟨u, rfl⟩
  · rw [if_neg hcls]
    exact ⟨_, rfl⟩

theorem enterQuery_isSome {s : State} {b : BoundIn} {q : Query} (hcls : q.cls ≠ 0) (bytes : Nat) :
    ∃ t, s.enterQuery b false q bytes = some t := by
  obtain ⟨u, hu⟩ := admitQuery_isSome (s := s) hcls bytes
  have hmem : q.ref ∈ u.queries.map (fun p => p.ref) := by
    rw [(asks_admitQuery hu).refs]
    exact List.mem_append_right _ List.mem_cons_self
  obtain ⟨p, hp, href⟩ := List.mem_map.mp hmem
  obtain ⟨r, hr⟩ := Option.isSome_iff_exists.mp
    (List.find?_isSome.mpr ⟨p, hp, beq_iff_eq.mpr href⟩ : (u.queries.find? (fun p => p.ref == q.ref)).isSome = true)
  have h : (s.enterQuery b false q bytes).isSome = true := by
    unfold State.enterQuery
    dsimp only
    rw [hu]
    dsimp only
    rw [hr]
    rfl
  exact Option.isSome_iff_exists.mp h

theorem enterAll_isSome {b : BoundIn} {bytes : Nat} (qs : List Query) : (∀ q ∈ qs, q.cls ≠ 0) →
    ∀ s : State, ∃ t, s.enterAll b false bytes qs = some t := by
  induction qs with
  | nil => exact fun _ s => ⟨s, rfl⟩
  | cons q qs ih =>
    intro hcls s
    obtain ⟨u, hu⟩ := enterQuery_isSome (s := s) (b := b) (hcls q List.mem_cons_self) bytes
    obtain ⟨t, ht⟩ := ih (fun p hp => hcls p (List.mem_cons_of_mem q hp)) u
    refine ⟨t, ?_⟩
    unfold State.enterAll
    rw [hu]
    exact ht

/-! #### The ledger of certified searches keeps its entries and their bounds (R474) -/

/-- A ledger entry whose start and finish, at most, came later. -/
def LedgerEntry.Later (d e : LedgerEntry) : Prop := d.ref = e.ref ∧ d.bound = e.bound ∧ d.start ≤ e.start ∧ d.finish ≤ e.finish

theorem LedgerEntry.Later.refl (d : LedgerEntry) : d.Later d := ⟨rfl, rfl, Nat.le_refl _, Nat.le_refl _⟩

theorem LedgerEntry.Later.trans {a b c : LedgerEntry} (h : a.Later b) (g : b.Later c) : a.Later c :=
  ⟨h.1.trans g.1, h.2.1.trans g.2.1, Nat.le_trans h.2.2.1 g.2.2.1, Nat.le_trans h.2.2.2 g.2.2.2⟩

/-- The entries of two ledgers correspond, each no earlier than before. -/
def LedgerLater (l m : List LedgerEntry) : Prop := (∀ e ∈ m, ∃ d ∈ l, d.Later e) ∧ ∀ d ∈ l, ∃ e ∈ m, d.Later e

theorem LedgerLater.refl (l : List LedgerEntry) : LedgerLater l l :=
  ⟨fun e he => ⟨e, he, .refl e⟩, fun d hd => ⟨d, hd, .refl d⟩⟩

theorem LedgerLater.trans {l m n : List LedgerEntry} (h : LedgerLater l m) (g : LedgerLater m n) : LedgerLater l n := by
  refine ⟨fun e he => ?_, fun d hd => ?_⟩
  · obtain ⟨d, hd, hde⟩ := g.1 e he
    obtain ⟨c, hc, hcd⟩ := h.1 d hd
    exact ⟨c, hc, hcd.trans hde⟩
  · obtain ⟨e, he, hde⟩ := h.2 d hd
    obtain ⟨f, hf, hef⟩ := g.2 e he
    exact ⟨f, hf, hde.trans hef⟩

theorem ledgerLater_map {g : LedgerEntry → LedgerEntry} (hg : ∀ e : LedgerEntry, e.Later (g e)) (l : List LedgerEntry) : LedgerLater l (l.map g) := by
  refine ⟨fun e he => ?_, fun d hd => ⟨g d, List.mem_map_of_mem hd, hg d⟩⟩
  obtain ⟨d, hd, rfl⟩ := List.mem_map.mp he
  exact ⟨d, hd, hg d⟩

theorem mem_sortLt {α : Type} {lt : α → α → Bool} {l : List α} {a : α} : a ∈ sortLt lt l ↔ a ∈ l := by
  unfold sortLt
  induction l with
  | nil => simp
  | cons b l ih => rw [List.foldr_cons, mem_insertLt, ih, List.mem_cons]

theorem ledgerLater_sortLt (lt : LedgerEntry → LedgerEntry → Bool) (l : List LedgerEntry) : LedgerLater l (sortLt lt l) :=
  ⟨fun e he => ⟨e, mem_sortLt.mp he, .refl e⟩, fun d hd => ⟨d, mem_sortLt.mpr hd, .refl d⟩⟩

theorem LedgerEntry.later_chained (e : LedgerEntry) (earlier : List LedgerEntry) : e.Later (e.chained earlier) := by
  unfold LedgerEntry.chained
  dsimp only
  split <;> exact ⟨rfl, rfl, Nat.le_refl _, Nat.le_max_left _ _⟩

theorem ledgerLater_chainAll (l : List LedgerEntry) : ∀ earlier, LedgerLater l (chainAll earlier l) := by
  induction l with
  | nil => exact fun _ => .refl []
  | cons e l ih =>
    intro earlier
    have hchain := ih (e.chained earlier :: earlier)
    unfold chainAll
    refine ⟨fun d hd => ?_, fun d hd => ?_⟩
    · rcases List.mem_cons.mp hd with rfl | hd
      · exact ⟨e, List.mem_cons_self, e.later_chained earlier⟩
      · obtain ⟨c, hc, hcd⟩ := hchain.1 d hd
        exact ⟨c, List.mem_cons_of_mem _ hc, hcd⟩
    · rcases List.mem_cons.mp hd with rfl | hd
      · exact ⟨_, List.mem_cons_self, d.later_chained earlier⟩
      · obtain ⟨c, hc, hdc⟩ := hchain.2 d hd
        exact ⟨c, List.mem_cons_of_mem _ hc, hdc⟩

theorem ledgerLater_relax (s : State) : LedgerLater s.ledger s.relax.ledger :=
  (ledgerLater_sortLt _ _).trans (ledgerLater_chainAll _ [])

theorem ledgerLater_pushStarts (s : State) (w : Option Nat) (start : Nat) : LedgerLater s.ledger (s.pushStarts w start).ledger := by
  unfold State.pushStarts
  split
  · exact .refl _
  · refine ledgerLater_map (fun e => ?_) s.ledger
    split
    · exact ⟨rfl, rfl, Nat.le_max_left _ _, Nat.le_refl _⟩
    · exact .refl e

theorem ledgerLater_enterQuery {s t : State} {b : BoundIn} {q : Query} {bytes : Nat} (h : s.enterQuery b false q bytes = some t) :
    LedgerLater s.ledger t.ledger := by
  obtain ⟨u, r, sel, hu, _, _, rfl⟩ := enterQuery_parts h
  have hadmit : u.ledger = s.ledger := (Within.admitQuery hu).get State.ledger fun _ => rfl
  have hsel : (u.noteSel r.window sel).1.ledger = s.ledger :=
    ((Within.noteSel u r.window sel).get State.ledger fun _ => rfl).trans hadmit
  exact hsel ▸ (ledgerLater_pushStarts _ _ _).trans (ledgerLater_relax _)

theorem ledgerLater_enterAll {b : BoundIn} {bytes : Nat} {qs : List Query} {s t : State}
    (h : s.enterAll b false bytes qs = some t) : LedgerLater s.ledger t.ledger :=
  enterAll_induction (R := fun s t _ => LedgerLater s.ledger t.ledger) (fun s => .refl s.ledger)
    (fun hu ht => (ledgerLater_enterQuery hu).trans ht) qs h

/-! #### A search apart from every open window pushes back no certified search (R467, R468) -/

/-- The open windows of a kind are those from number `n0` on, and the queries that `mine` names are those in such windows. -/
structure Apart (n0 f i : Nat) (classX : Bool) (mine : QRef → Bool) (s : State) : Prop where
  next : n0 ≤ s.nextWindow
  opened : ∀ p ∈ s.windows, p.2.field = f → p.2.index = i → p.2.classX = classX → p.2.closed = false → n0 ≤ p.1
  seated : ∀ q ∈ s.queries, ∀ w, q.window = some w → (mine q.ref = true ↔ n0 ≤ w)

section apart
variable {n0 f i : Nat} {classX : Bool} {mine : QRef → Bool} {s t : State}

theorem Apart.congr (h : Apart n0 f i classX mine s) (hnext : t.nextWindow = s.nextWindow) (hwindows : t.windows = s.windows)
    (hqueries : t.queries = s.queries) : Apart n0 f i classX mine t :=
  ⟨hnext ▸ h.next, hwindows ▸ h.opened, hqueries ▸ h.seated⟩

/-- A change that reaches neither the queries nor the windows. -/
theorem Apart.of_within {m : List Comp} (h : Apart n0 f i classX mine s) (hw : Within m s t) (hq : m.elem .queries = false)
    (hwin : m.elem .windows = false) (hn : m.elem .nextWindow = false) : Apart n0 f i classX mine t :=
  h.congr (hw.get State.nextWindow fun u => by simp only [State.patch, hn, cond_false])
    (hw.get State.windows fun u => by simp only [State.patch, hwin, cond_false])
    (hw.get State.queries fun u => by simp only [State.patch, hq, cond_false])

/-- A window set that is not an open one of the kind below `n0`. -/
theorem Apart.setWindow (h : Apart n0 f i classX mine s) {n : Nat} {w : Window}
    (hw : w.field = f → w.index = i → w.classX = classX → w.closed = false → n0 ≤ n) : Apart n0 f i classX mine (s.setWindow n w) := by
  refine ⟨h.next, fun p hp => ?_, h.seated⟩
  rcases FMap.mem_set hp with rfl | hp
  · exact hw
  · exact h.opened p hp

theorem Apart.closeWindow (h : Apart n0 f i classX mine s) (n : Nat) : Apart n0 f i classX mine (s.closeWindow n) := by
  unfold State.closeWindow
  split
  · exact h
  · next w _ =>
    split
    · exact h
    · have hset : Apart n0 f i classX mine (s.setWindow n { w with closed := true }) :=
        h.setWindow fun _ _ _ hopen => (Bool.noConfusion hopen)
      exact hset.of_within (Within.countField _ w.field 14 1) rfl rfl rfl

theorem Apart.mustWait (h : Apart n0 f i classX mine s) (q : Query) : Apart n0 f i classX mine (s.mustWait q) := by
  unfold State.mustWait
  split
  · exact h
  · exact h.closeWindow _

theorem openWindow_kind {f i : Nat} {classX : Bool} {n : Nat} {w : Window} (h : s.openWindow f i classX = some (n, w)) :
    (n, w) ∈ s.windows ∧ w.field = f ∧ w.index = i ∧ w.classX = classX ∧ w.closed = false := by
  have hkind := List.find?_some (show s.windows.find? (fun w => w.2.field == f && w.2.index == i && w.2.classX == classX &&
    !w.2.closed) = some (n, w) from h)
  simp only [Bool.and_eq_true, beq_iff_eq, Bool.not_eq_true'] at hkind
  obtain ⟨⟨⟨hf, hi⟩, hx⟩, hc⟩ := hkind
  exact ⟨List.mem_of_find?_eq_some h, hf, hi, hx, hc⟩

theorem Apart.openWindow (h : Apart n0 f i classX mine s) {n : Nat} {w : Window} (hopen : s.openWindow f i classX = some (n, w)) :
    n0 ≤ n := by
  obtain ⟨hmem, hf, hi, hx, hc⟩ := openWindow_kind hopen
  exact h.opened (n, w) hmem hf hi hx hc

/-- A query of the search seated in a window from `n0` on. -/
theorem Apart.seat (h : Apart n0 f i classX mine s) {r : QRef} (hr : mine r = true) {n : Nat} (hn : n0 ≤ n) :
    Apart n0 f i classX mine (s.seat r n) := by
  refine ⟨h.next, h.opened, fun q hq w hw => ?_⟩
  obtain ⟨p, hp, rfl⟩ := List.mem_map.mp hq
  split at hw
  · next href =>
    rw [if_pos href]
    cases hw
    exact iff_of_true (href ▸ hr) hn
  · next href =>
    rw [if_neg href]
    exact h.seated p hp w hw

theorem Apart.openNext (h : Apart n0 f i classX mine s) (w : Window) : Apart n0 f i classX mine (s.openNext w) := by
  refine ⟨Nat.le_succ_of_le h.next, fun p hp => ?_, h.seated⟩
  rcases FMap.mem_set hp with rfl | hp
  · exact fun _ _ _ _ => h.next
  · exact h.opened p hp

/-- The query is of the search whose windows lie apart. -/
def Query.isApart (q : Query) (f i : Nat) (classX : Bool) (mine : QRef → Bool) : Prop :=
  q.field = f ∧ q.index = i ∧ (q.cls == 2) = classX ∧ mine q.ref = true

variable {q : Query}

theorem Apart.joinWindow (h : Apart n0 f i classX mine s) (hq : q.isApart f i classX mine) :
    Apart n0 f i classX mine (s.joinWindow q) := by
  obtain ⟨rfl, rfl, rfl, hmine⟩ := hq
  cases hopen : s.openWindow q.field q.index (q.cls == 2) with
  | none =>
    rw [State.joinWindow_of_none hopen]
    exact (h.openNext _).seat hmine h.next
  | some x =>
    obtain ⟨n, w⟩ := x
    have hn : n0 ≤ n := h.openWindow hopen
    have hseat := (h.setWindow (n := n) (w := { w with queries := w.queries ++ [q.ref] }) fun _ _ _ _ => hn).seat hmine hn
    rw [State.joinWindow_of_some hopen]
    split
    · exact hseat.closeWindow n
    · exact hseat

theorem Apart.atUnits (h : Apart n0 f i classX mine s) (r : QRef) (c y : Nat) : Apart n0 f i classX mine (s.atUnits r c y) := by
  refine ⟨h.next, h.opened, fun q hq w hw => ?_⟩
  obtain ⟨p, hp, rfl⟩ := List.mem_map.mp hq
  have hsame := h.seated p hp w
  split at hw <;> split <;> exact hsame hw

theorem Apart.place (h : Apart n0 f i classX mine s) (hq : q.isApart f i classX mine) {bytes : Nat}
    (hplace : s.place q bytes = some t) : Apart n0 f i classX mine t := by
  obtain ⟨c, y, rfl⟩ := State.place_parts hplace
  exact ((h.of_within (Within.setCore s c _) rfl rfl rfl).atUnits q.ref c y).joinWindow hq

theorem Apart.admitQuery (h : Apart n0 f i classX mine s) (hq : q.isApart f i classX mine) (hnew : q.window = none) {bytes : Nat}
    (hadmit : s.admitQuery q bytes = some t) : Apart n0 f i classX mine t := by
  have happ : Apart n0 f i classX mine (s.setQueries (s.queries ++ [s.assigned q])) := by
    refine ⟨h.next, h.opened, fun p hp w hw => ?_⟩
    rcases List.mem_append.mp hp with hp | hp
    · exact h.seated p hp w hw
    · rw [List.mem_singleton.mp hp] at hw
      exact nomatch hnew.symm.trans hw
  rcases State.admitQuery_parts hadmit with hplace | rfl
  · exact happ.place hq hplace
  · exact happ.mustWait _

theorem Apart.noteSel (h : Apart n0 f i classX mine s) (window : Option Nat) (hw : ∀ n, window = some n → n0 ≤ n) (sel : Nat) :
    Apart n0 f i classX mine (s.noteSel window sel).1 := by
  unfold State.noteSel
  split
  · exact h
  · next n w hbind =>
    cases window with
    | none => cases hbind
    | some k =>
      obtain ⟨v, _, hv⟩ := Option.map_eq_some_iff.mp hbind
      cases hv
      exact h.setWindow fun _ _ _ _ => hw n rfl

/-- No entry of the ledger is of a search whose windows lie apart, so no start moves. -/
theorem Apart.pushStarts (h : Apart n0 f i classX mine s) (window : Option Nat) (hw : ∀ n, window = some n → n0 ≤ n)
    (hledger : ∀ e ∈ s.ledger, mine e.ref = false) (start : Nat) : (s.pushStarts window start).ledger = s.ledger := by
  unfold State.pushStarts
  split
  · rfl
  · next n =>
    refine (List.map_congr_left fun e he => if_neg fun hin => ?_).trans (List.map_id' s.ledger)
    obtain ⟨q, hq, href⟩ := List.mem_map.mp (List.elem_iff.mp hin)
    obtain ⟨hq, hwin⟩ := List.mem_filter.mp hq
    exact Bool.false_ne_true ((hledger e he).symm.trans (href ▸ (h.seated q hq n (eq_of_beq hwin)).mpr (hw n rfl)))

theorem Apart.enterQuery (h : Apart n0 f i classX mine s) (hq : q.isApart f i classX mine) (hnew : q.window = none)
    (hledger : ∀ e ∈ s.ledger, mine e.ref = false) (hrelax : chainAll [] (sortLt LedgerEntry.before s.ledger) = s.ledger)
    {b : BoundIn} {bytes : Nat} (henter : s.enterQuery b false q bytes = some t) :
    Apart n0 f i classX mine t ∧ t.ledger = s.ledger := by
  obtain ⟨u, r, sel, hu, hr, href, rfl⟩ := enterQuery_parts henter
  have hadmit := h.admitQuery hq hnew hu
  have hseat (n : Nat) (hn : r.window = some n) : n0 ≤ n := (hadmit.seated r hr n hn).mp (href ▸ hq.2.2.2)
  have hsel := hadmit.noteSel r.window hseat sel
  have hsame : (u.noteSel r.window sel).1.ledger = s.ledger :=
    ((Within.noteSel u r.window sel).get State.ledger fun _ => rfl).trans ((Within.admitQuery hu).get State.ledger fun _ => rfl)
  have hpush := (hsel.pushStarts r.window hseat (hsame ▸ hledger) (u.noteSel r.window sel).2).trans hsame
  refine ⟨(hsel.of_within (Within.pushStarts _ r.window _) rfl rfl rfl).of_within (Within.relax _) rfl rfl rfl, ?_⟩
  change chainAll [] (sortLt LedgerEntry.before (State.ledger _)) = s.ledger
  rw [hpush, hrelax]

theorem Apart.enterAll {b : BoundIn} {bytes : Nat} {qs : List Query} (h : Apart n0 f i classX mine s)
    (hqs : ∀ q ∈ qs, q.isApart f i classX mine ∧ q.window = none) (hledger : ∀ e ∈ s.ledger, mine e.ref = false)
    (hrelax : chainAll [] (sortLt LedgerEntry.before s.ledger) = s.ledger) (henter : s.enterAll b false bytes qs = some t) :
    t.ledger = s.ledger := by
  refine enterAll_induction (R := fun s t qs => Apart n0 f i classX mine s →
    (∀ q ∈ qs, q.isApart f i classX mine ∧ q.window = none) → (∀ e ∈ s.ledger, mine e.ref = false) →
    chainAll [] (sortLt LedgerEntry.before s.ledger) = s.ledger → t.ledger = s.ledger) (fun _ _ _ _ _ => rfl)
    (fun hu ht happ hqs hledger hrelax => ?_) qs henter h hqs hledger hrelax
  obtain ⟨hq, hnew⟩ := hqs _ List.mem_cons_self
  obtain ⟨happ', hsame⟩ := happ.enterQuery hq hnew hledger hrelax hu
  rw [← hsame] at hledger hrelax
  exact (ht happ' (fun p hp => hqs p (List.mem_cons_of_mem _ hp)) hledger hrelax).trans hsame

end apart

/-! #### The planner on a search without a deadline decision (R55, R57, R462) -/

theorem SearchIn.mem_tries {q : SearchIn} {n : Nat} (h : n ∈ q.tries) (hfloor : q.narrow = true → q.floor ≤ q.nprobe) :
    n ≤ q.nprobe ∧ (q.narrow = true → q.floor ≤ n) := by
  unfold SearchIn.tries at h
  split at h
  · next hn =>
    obtain ⟨i, hi, rfl⟩ := List.mem_map.mp h
    have := List.mem_range.mp hi
    have := hfloor hn
    exact ⟨by omega, fun _ => by omega⟩
  · rw [List.mem_singleton.mp h]
    exact ⟨Nat.le_refl _, hfloor⟩

/-- R55, R57: the nprobe of a class B or class X search. -/
theorem bestEffortProbe_bounds (s : State) (b : Bound) (hfloor : b.q.narrow = true → b.q.floor ≤ b.q.nprobe) :
    s.bestEffortProbe b ≤ b.q.nprobe ∧ (b.q.narrow = false → s.bestEffortProbe b = b.q.nprobe) ∧
      (b.q.narrow = true → b.q.floor ≤ s.bestEffortProbe b) := by
  unfold State.bestEffortProbe
  split
  · exact ⟨Nat.le_refl _, fun _ => rfl, hfloor⟩
  · next hnarrow =>
    rw [Bool.or_eq_true, not_or, Bool.not_eq_true', Bool.not_eq_false] at hnarrow
    have hno (h : b.q.narrow = false) : False := Bool.false_ne_true (h.symm.trans hnarrow.1)
    split
    · exact ⟨hfloor hnarrow.1, fun h => (hno h).elim, fun _ => Nat.le_refl _⟩
    · next n hfirst =>
      obtain ⟨hle, hge⟩ := SearchIn.mem_tries (List.mem_of_find?_eq_some hfirst) hfloor
      exact ⟨hle, fun h => (hno h).elim, hge⟩

theorem queries_cls {b : Bound} {n now order : Nat} {q : Query} (h : q ∈ b.queries n now order) :
    q.field = b.ctx.fn ∧ q.index = b.key % 64 ∧ q.cls = b.q.cls ∧ q.window = none ∧
      q.ref.of b.ctx.ring b.ctx.cmd.seq = true := by
  obtain ⟨k, _, rfl⟩ := List.mem_map.mp h
  refine ⟨rfl, rfl, rfl, rfl, ?_⟩
  simp only [QRef.of, beq_self_eq_true, Bool.and_self]

/-- R462: the state in which a search opens a window of its own: the open one of its kind is closed. -/
def State.setApart (s : State) (b : Bound) : State :=
  match s.openWindow b.ctx.fn (b.key % 64) (b.q.cls == 2) with
  | none => s
  | some (w, _) => s.closeWindow w

theorem State.setApart_cases (s : State) (b : Bound) : s.setApart b = s ∨ ∃ n, s.setApart b = s.closeWindow n := by
  unfold State.setApart
  split
  · exact .inl rfl
  · exact .inr ⟨_, rfl⟩

theorem State.setApart_of_none {s : State} {b : Bound} (h : s.openWindow b.ctx.fn (b.key % 64) (b.q.cls == 2) = none) :
    s.setApart b = s := by
  unfold State.setApart
  rw [h]

/-- R462: a best-effort search is placed, in the state as it is or with the open window of its kind closed before. -/
theorem planBestEffort_parts (s : State) (b : Bound) (hcls : b.q.cls ≠ 0) : ∃ (w t : State),
    (w = s ∨ w = s.setApart b) ∧ w.placeBestEffort b (s.bestEffortProbe b) = some t ∧
      s.planBestEffort b = t.searchAdmitted b (s.bestEffortProbe b) 0 := by
  have hplaced (w : State) : ∃ t, w.placeBestEffort b (s.bestEffortProbe b) = some t :=
    enterAll_isSome _ (fun q hq => (queries_cls hq).2.2.1 ▸ hcls) w
  obtain ⟨t, ht⟩ := hplaced s
  obtain ⟨u, hu⟩ := hplaced (s.setApart b)
  have hplan : s.planBestEffort b = (if t.othersHold b.ctx.ring b.ctx.cmd.seq
      then t.searchAdmitted b (s.bestEffortProbe b) 0 else u.searchAdmitted b (s.bestEffortProbe b) 0) := by
    change (match s.placeBestEffort b (s.bestEffortProbe b), (s.setApart b).placeBestEffort b (s.bestEffortProbe b) with
      | some t, some u => if t.othersHold b.ctx.ring b.ctx.cmd.seq
        then t.searchAdmitted b (s.bestEffortProbe b) 0 else u.searchAdmitted b (s.bestEffortProbe b) 0
      | _, _ => failed s stHW_FAULT) = _
    rw [ht, hu]
  by_cases hold : t.othersHold b.ctx.ring b.ctx.cmd.seq = true
  · exact ⟨s, t, .inl rfl, ht, hplan.trans (if_pos hold)⟩
  · exact ⟨s.setApart b, u, .inr rfl, hu, hplan.trans (if_neg hold)⟩

/-- R261: the next place in the order of swaps and admissions taken. -/
def State.nextPlace (s : State) : State := { s with order := s.order + 1 }
theorem Within.nextPlace (s : State) : Within [.order] s s.nextPlace := rfl

/-- The state in which an admitted search goes on. -/
def State.afterAdmission (s : State) (b : Bound) : State :=
  let t := (s.closeAtOnce b).countField b.ctx.fn (if b.q.cls = 0 then 1 else if b.q.cls = 1 then 3 else 4) 1
  (b.vecs.foldl (fun t v => t.noteReplays b.ctx.fn v.2) t).nextPlace

theorem Within.afterAdmission (s : State) (b : Bound) :
    Within [.fields, .windows, .fresh, .trace, .counters, .order] s (s.afterAdmission b) := by
  have hclose : Within [.fields, .windows, .fresh, .trace, .counters, .order] s (s.closeAtOnce b) :=
    (Within.closeAtOnce s b).mono (by decide)
  have hcount := hclose.then (.countField _ b.ctx.fn (if b.q.cls = 0 then 1 else if b.q.cls = 1 then 3 else 4) 1) (by decide)
  have hnote := Within.foldl (fun (t : State) (v : List (BitVec 32) × Acc) => t.noteReplays b.ctx.fn v.2) b.vecs
    (fun t v ht => ht.then (Within.noteReplays t b.ctx.fn v.2) (by decide)) hcount
  exact hnote.then (Within.nextPlace _) (by decide)

theorem State.searchAdmitted_eq (s : State) (b : Bound) (n bound : Nat) :
    s.searchAdmitted b n bound = .accept ⟨s.afterAdmission b, some .search, 0, 0, flIf (n < b.q.nprobe) flNARROWED, bound, b.epoch, []⟩ :=
  rfl

/-- R55, R266: what the admission of a search without a deadline decision leaves. -/
structure SearchPlaced (s t : State) (b : Bound) (n : Nat) : Prop where
  asks : Asks s t (b.queries n s.tbk s.order)
  ledger : LedgerLater s.ledger t.ledger
  apart : s.openWindow b.ctx.fn (b.key % 64) (b.q.cls == 2) = none → s.relax = s →
    (∀ p ∈ s.queries, ∀ w, p.window = some w → w < s.nextWindow) →
    (∀ p ∈ s.queries, p.ref.of b.ctx.ring b.ctx.cmd.seq = false) →
    (∀ e ∈ s.ledger, e.ref.of b.ctx.ring b.ctx.cmd.seq = false) → t.ledger = s.ledger
  within : Within [.fields, .queries, .windows, .nextWindow, .ledger, .cores, .fresh, .trace, .counters, .order] s t

/-- A search placed in its own window pushes back no certified one. -/
theorem placeBestEffort_ledger {s t : State} {b : Bound} {n : Nat} (h : s.placeBestEffort b n = some t)
    (hopen : s.openWindow b.ctx.fn (b.key % 64) (b.q.cls == 2) = none) (hrelax : s.relax = s)
    (hwindow : ∀ p ∈ s.queries, ∀ w, p.window = some w → w < s.nextWindow)
    (hnew : ∀ p ∈ s.queries, p.ref.of b.ctx.ring b.ctx.cmd.seq = false)
    (hledger : ∀ e ∈ s.ledger, e.ref.of b.ctx.ring b.ctx.cmd.seq = false) : t.ledger = s.ledger := by
  have happ : Apart s.nextWindow b.ctx.fn (b.key % 64) (b.q.cls == 2) (fun r => r.of b.ctx.ring b.ctx.cmd.seq) s := by
    refine ⟨Nat.le_refl _, fun p hp hf hi hx hc => ?_, fun p hp w hw => ?_⟩
    · refine absurd (List.find?_eq_none.mp hopen p hp) (not_not_intro ?_)
      simp only [hf, hi, hx, hc, beq_self_eq_true, Bool.not_false, Bool.and_self]
    · exact iff_of_false (fun h => Bool.false_ne_true ((hnew p hp).symm.trans h)) (Nat.not_le_of_gt (hwindow p hp w hw))
  refine happ.enterAll (fun q hq => ?_) hledger (congrArg State.ledger hrelax) h
  obtain ⟨hf, hi, hc, hw, href⟩ := queries_cls hq
  exact ⟨⟨hf, hi, hc ▸ rfl, href⟩, hw⟩

theorem searchPlaced_of_planBestEffort (s : State) (b : Bound) (hcls : b.q.cls ≠ 0) : ∃ t : State,
    s.planBestEffort b = .accept ⟨t, some .search, 0, 0, flIf (s.bestEffortProbe b < b.q.nprobe) flNARROWED, 0, b.epoch, []⟩ ∧
      SearchPlaced s t b (s.bestEffortProbe b) := by
  obtain ⟨w, t, hw, ht, hplan⟩ := planBestEffort_parts s b hcls
  have hwithin : Within [.fields, .windows] s w := by
    rcases hw with rfl | rfl
    · exact .refl _ _
    · rcases s.setApart_cases b with h | ⟨n, h⟩ <;> rw [h]
      · exact .refl _ _
      · exact .closeWindow s n
  have hafter := Within.afterAdmission t b
  have htbk : w.tbk = s.tbk := hwithin.get State.tbk fun _ => rfl
  have horder : w.order = s.order := hwithin.get State.order fun _ => rfl
  have hstart : w.ledger = s.ledger := hwithin.get State.ledger fun _ => rfl
  have hend : (t.afterAdmission b).ledger = t.ledger := hafter.get State.ledger fun _ => rfl
  refine ⟨t.afterAdmission b, hplan.trans (t.searchAdmitted_eq b _ 0), ?_, ?_, fun hopen hrelax hwin hnew hledger => ?_, ?_⟩
  · rw [← htbk, ← horder, ← List.append_nil (b.queries _ _ _)]
    exact ((Asks.of_within hwithin rfl).trans (asks_enterAll ht)).trans (.of_within hafter rfl)
  · rw [hend, ← hstart]
    exact ledgerLater_enterAll ht
  · have hsame : w = s := hw.elim id fun h => h.trans (State.setApart_of_none hopen)
    subst hsame
    exact hend.trans (placeBestEffort_ledger ht hopen hrelax hwin hnew hledger)
  · exact ((hwithin.mono (by decide)).then (Within.enterAll ht) (by decide)).then hafter (by decide)

/-! #### The checks of a search (Table 3.6) -/

section checked
variable {s : State} {x : Index} {f : Field} {ctx : Ctx} {batch radius : Bool}

/-- What admission binds of a search. -/
def searchBound (ctx : Ctx) (x : Index) (f : Field) (radius : Bool) : Bound :=
  let q := searchIn ctx
  let key := if x.p.metric = 0 then q.radius else q.radius ^^^ 0x80000000#32
  ⟨q, ctx, ctx.key, x, q.snapshot x, if radius then some key else none, q.filterOf f, q.bitmapOf f,
    (((List.range q.n).map (queryPats ctx x.p q.vecFmt)).map (prepare x.p (vecFmt q.vecFmt))).filterMap (fun v => v)⟩

/-- The checks of a search before its vectors are prepared. -/
def searchChecks (ctx : Ctx) (x : Index) (f : Field) (batch radius : Bool) : List (Bool × Nat) :=
  let q := searchIn ctx
  let pats := (List.range q.n).map (queryPats ctx x.p q.vecFmt)
  [(q.cls == 0 && !f.cfg.certified, stNOT_PERMITTED), (q.inlineBad x.p radius, stBAD_VALUE),
    (q.len < q.n * blockBytes q.k q.outFmt, stBAD_LENGTH), (2 < q.vecFmt, stBAD_VALUE),
    (ctx.block.length < 64 + q.n * queryBytes x.p q.vecFmt, stBAD_LENGTH), (q.countBad batch, stBAD_VALUE),
    (pats.any (fun v => v.any (isSpecial (vecFmt q.vecFmt))) || q.sbacBad, stBAD_VALUE)]

/-- The checks of a search against what it binds. -/
def bindChecks (ctx : Ctx) (x : Index) (f : Field) : List (Bool × Nat) :=
  let q := searchIn ctx
  let done := ((List.range q.n).map (queryPats ctx x.p q.vecFmt)).map (prepare x.p (vecFmt q.vecFmt))
  [(done.any (fun v => v.isNone), stBAD_VALUE),
    ((q.filterId != 0xFF && (q.filterOf f).isNone) || (q.bitmapId != 0xFF && (q.bitmapOf f).isNone), stNOT_FOUND),
    (!x.active, stBAD_STATE), (q.rerank != 0 && x.p.fpFmt == 0, stMODE_FORBIDS),
    (beyondWords x.p (q.filterOf f) (q.bitmapOf f), stMODE_FORBIDS), (!q.t8 && tableArea < x.tableBytes false, stMODE_FORBIDS),
    (q.snapshot x != x.epoch && !x.holds.contains (q.snapshot x), stEPOCH_UNAVAILABLE)]

theorem searchBody_eq (hindex : FMap.get? s.indexes ctx.key = some x) (hfield : s.field? ctx.fn = some f) :
    s.searchBody ctx batch radius = checks (searchChecks ctx x f batch radius) (fun _ => checks (bindChecks ctx x f) (fun _ =>
      if (searchBound ctx x f radius).vecs.any (fun v => s.replayDiffers ctx.fn v.2) then
        failed ({ s with fresh := s.fresh + 1 }.logMismatch ctx.fn ctx.ring ctx.cmd.seq) stHW_FAULT
      else if (searchIn ctx).cls = 0 then s.planCertified (searchBound ctx x f radius)
      else s.planBestEffort (searchBound ctx x f radius))) := by
  unfold State.searchBody
  rw [hindex, hfield]
  rfl

/-- Every vector of the search is prepared. -/
def Prepares (ctx : Ctx) (x : Index) (s : State) : Prop :=
  ∀ v ∈ (List.range (searchIn ctx).n).map (queryPats ctx x.p (searchIn ctx).vecFmt),
    (∀ p ∈ v, isSpecial (vecFmt (searchIn ctx).vecFmt) p = false) ∧
      ∃ r, prepare x.p (vecFmt (searchIn ctx).vecFmt) v = some r ∧ s.replayDiffers ctx.fn r.2 = false

theorem length_filterMap_id {α : Type} {l : List (Option α)} (h : ∀ o ∈ l, o.isSome = true) :
    (l.filterMap (fun o => o)).length = l.length := by
  induction l with
  | nil => rfl
  | cons o l ih =>
    obtain ⟨a, rfl⟩ := Option.isSome_iff_exists.mp (h o List.mem_cons_self)
    exact congrArg (· + 1) (ih fun p hp => h p (List.mem_cons_of_mem _ hp))

theorem isSome_of_prepares (h : Prepares ctx x s) :
    ∀ o ∈ ((List.range (searchIn ctx).n).map (queryPats ctx x.p (searchIn ctx).vecFmt)).map
      (prepare x.p (vecFmt (searchIn ctx).vecFmt)), o.isSome = true := by
  intro o ho
  obtain ⟨v, hv, rfl⟩ := List.mem_map.mp ho
  obtain ⟨_, r, hr, _⟩ := h v hv
  exact Option.isSome_iff_exists.mpr ⟨r, hr⟩

theorem length_vecs_of_prepares (h : Prepares ctx x s) : (searchBound ctx x f radius).vecs.length = (searchIn ctx).n := by
  refine (length_filterMap_id (isSome_of_prepares h)).trans ?_
  simp only [List.length_map, List.length_range]

theorem replays_of_prepares (h : Prepares ctx x s) :
    (searchBound ctx x f radius).vecs.any (fun v => s.replayDiffers ctx.fn v.2) = false := by
  refine List.any_eq_false.mpr fun r hr => ?_
  obtain ⟨o, ho, rfl⟩ := List.mem_filterMap.mp hr
  obtain ⟨v, hv, hprep⟩ := List.mem_map.mp ho
  obtain ⟨_, r', hr', hsame⟩ := h v hv
  rw [Option.some.inj (hprep.symm.trans hr'), hsame]
  exact Bool.false_ne_true

theorem searchChecks_pass (hcls : (searchIn ctx).cls ≠ 0) (hinline : (searchIn ctx).inlineBad x.p radius = false)
    (hfmt : (searchIn ctx).vecFmt ≤ 2) (hcount : (searchIn ctx).countBad batch = false)
    (hlen : (searchIn ctx).n * blockBytes (searchIn ctx).k (searchIn ctx).outFmt ≤ (searchIn ctx).len)
    (hblock : 64 + (searchIn ctx).n * queryBytes x.p (searchIn ctx).vecFmt ≤ ctx.block.length) (hprep : Prepares ctx x s)
    (hsbac : (searchIn ctx).sbacBad = false) : ∀ c ∈ searchChecks ctx x f batch radius, c.1 = false := by
  have hspecial : ((List.range (searchIn ctx).n).map (queryPats ctx x.p (searchIn ctx).vecFmt)).any
      (fun v => v.any (isSpecial (vecFmt (searchIn ctx).vecFmt))) = false := by
    refine List.any_eq_false.mpr fun v hv => ?_
    rw [Bool.not_eq_true]
    exact List.any_eq_false.mpr fun p hp => ne_true_of_eq_false ((hprep v hv).1 p hp)
  intro c hc
  simp only [searchChecks, hinline, hcount, hspecial, hsbac, Bool.or_false, decide_eq_false (Nat.not_lt.mpr hlen),
    decide_eq_false (Nat.not_lt.mpr hfmt), decide_eq_false (Nat.not_lt.mpr hblock), beq_eq_false_iff_ne.mpr hcls, Bool.false_and,
    List.mem_cons, List.not_mem_nil, or_false] at hc
  rcases hc with rfl | rfl | rfl | rfl | rfl | rfl | rfl <;> rfl

theorem bindChecks_pass (hprep : Prepares ctx x s) (hfilter : (searchIn ctx).filterId ≠ 0xFF → (searchIn ctx).filterOf f ≠ none)
    (hbitmap : (searchIn ctx).bitmapId ≠ 0xFF → (searchIn ctx).bitmapOf f ≠ none) (hactive : x.active = true)
    (hrerank : (searchIn ctx).rerank ≠ 0 → x.p.fpFmt ≠ 0)
    (hwords : beyondWords x.p ((searchIn ctx).filterOf f) ((searchIn ctx).bitmapOf f) = false)
    (htable : (searchIn ctx).t8 = false → x.tableBytes false ≤ tableArea)
    (hepoch : (searchIn ctx).snapshot x = x.epoch ∨ (searchIn ctx).snapshot x ∈ x.holds) :
    ∀ c ∈ bindChecks ctx x f, c.1 = false := by
  have hdone : (((List.range (searchIn ctx).n).map (queryPats ctx x.p (searchIn ctx).vecFmt)).map
      (prepare x.p (vecFmt (searchIn ctx).vecFmt))).any (fun v => v.isNone) = false := by
    refine List.any_eq_false.mpr fun o ho => ?_
    rw [Option.isNone_iff_eq_none]
    exact Option.isSome_iff_ne_none.mp (isSome_of_prepares hprep o ho)
  have hf : ((searchIn ctx).filterId != 0xFF && ((searchIn ctx).filterOf f).isNone) = false := by
    rw [Bool.and_eq_false_imp]
    exact fun h => Option.isNone_eq_false_iff.mpr (Option.isSome_iff_ne_none.mpr (hfilter (bne_iff_ne.mp h)))
  have hb : ((searchIn ctx).bitmapId != 0xFF && ((searchIn ctx).bitmapOf f).isNone) = false := by
    rw [Bool.and_eq_false_imp]
    exact fun h => Option.isNone_eq_false_iff.mpr (Option.isSome_iff_ne_none.mpr (hbitmap (bne_iff_ne.mp h)))
  have hr : ((searchIn ctx).rerank != 0 && x.p.fpFmt == 0) = false := by
    rw [Bool.and_eq_false_imp]
    exact fun h => beq_eq_false_iff_ne.mpr (hrerank (bne_iff_ne.mp h))
  have ht : (!(searchIn ctx).t8 && decide (tableArea < x.tableBytes false)) = false := by
    rw [Bool.and_eq_false_imp]
    exact fun h => decide_eq_false (Nat.not_lt.mpr (htable ((Bool.not_eq_true' _).mp h)))
  have he : ((searchIn ctx).snapshot x != x.epoch && !x.holds.contains ((searchIn ctx).snapshot x)) = false := by
    rw [Bool.and_eq_false_imp]
    intro h
    have hmem : x.holds.contains ((searchIn ctx).snapshot x) = true := List.elem_iff.mpr (hepoch.resolve_left (bne_iff_ne.mp h))
    rw [hmem]
    rfl
  intro c hc
  simp only [bindChecks, hdone, hf, hb, hr, ht, he, hactive, hwords, Bool.or_false, Bool.not_true, List.mem_cons, List.not_mem_nil,
    or_false] at hc
  rcases hc with rfl | rfl | rfl | rfl | rfl | rfl | rfl <;> rfl

end checked

/-- R178, R297: the three opcodes of a search. -/
theorem exec_search_eq (s : State) (ring : Nat) (dma : Dma) {batch radius : Bool} (h : (batch && radius) = false) :
    exec (if batch then .searchBatch ring dma else if radius then .searchRadius ring dma else .search ring dma) s =
      s.runPacket (if batch then 0x21 else if radius then 0x22 else 0x20) ring dma (fun x s => s.searchBody x batch radius) := by
  cases batch with
  | false => cases radius <;> rfl
  | true =>
    cases radius with
    | false => rfl
    | true => cases h

theorem SearchIn.floor_le {q : SearchIn} {p : IParams} {radius : Bool} (h : q.inlineBad p radius = false) (hn : q.narrow = true) :
    q.floor ≤ q.nprobe := by
  simp only [SearchIn.inlineBad, Bool.or_eq_false_iff, hn, Bool.true_and, decide_eq_false_iff_not] at h
  omega

theorem Within.readBlock (s : State) (c : Cmd) (st : Option Nat) : Within [.out] s (s.readBlock c st) := by
  obtain ⟨out, h⟩ := s.readBlock_eq c st
  rw [h]
  rfl

/-- The read of a packet's block leaves nothing that the placing of the search depends on. -/
theorem searchPlaced_of_readBlock {s t : State} {c : Cmd} {st : Option Nat} {b : Bound} {n : Nat}
    (h : SearchPlaced (s.readBlock c st) t b n) (hcmd : b.ctx.cmd = c) (hring : b.ctx.ring = c.ring) :
    t.queries.map Query.asked = s.queries.map Query.asked ++ (b.queries n s.tbk s.order).map Query.asked ∧
    LedgerLater s.ledger t.ledger ∧
    (s.openWindow b.ctx.fn (b.key % 64) (b.q.cls == 2) = none → s.relax = s →
      (∀ p ∈ s.queries, ∀ w, p.window = some w → w < s.nextWindow) → (∀ p ∈ s.queries, p.ref.of c.ring c.seq = false) →
      (∀ e ∈ s.ledger, e.ref.of c.ring c.seq = false) → t.ledger = s.ledger) ∧
    Within [.out, .fields, .queries, .windows, .nextWindow, .ledger, .cores, .fresh, .trace, .counters, .order] s t := by
  have hwithin := ((Within.readBlock s c st).mono (by decide)).then h.within
    (by decide : covers [.out, .fields, .queries, .windows, .nextWindow, .ledger, .cores, .fresh, .trace, .counters, .order] _ = true)
  obtain ⟨out, hread⟩ := s.readBlock_eq c st
  rw [hread] at h
  refine ⟨h.asks, h.ledger, fun hopen hrelax hwin hnew hledger => ?_, hwithin⟩
  exact h.apart hopen (congrArg (fun u : State => { u with out := out }) hrelax) hwin (by rw [hring, hcmd]; exact hnew)
    (by rw [hring, hcmd]; exact hledger)

/-- What the queries of a search bind. -/
theorem fields_of_mem_queries {b : Bound} {n now order : Nat} {p q : Query} (h : q ∈ b.queries n now order) (heq : p.asked = q.asked) :
    p.field = b.ctx.fn ∧ p.index = b.key % 64 ∧ p.cls = b.q.cls ∧ p.epoch = b.epoch ∧ p.k = b.q.k ∧ p.nprobe = n ∧
      p.filter = b.filter ∧ p.bitmap = b.bitmap ∧ p.admitted = now ∧ p.cands = [] ∧ p.merged = none := by
  obtain ⟨k, _, rfl⟩ := List.mem_map.mp h
  exact ⟨congrArg Query.field heq, congrArg Query.index heq, congrArg Query.cls heq, congrArg Query.epoch heq,
    congrArg Query.k heq, congrArg Query.nprobe heq, congrArg Query.filter heq, congrArg Query.bitmap heq,
    congrArg Query.admitted heq, congrArg Query.cands heq, congrArg Query.merged heq⟩

/-- Settles O31: each query of a class B or class X search joins the query path with what it asks for; entering it moves
starts and finishes of certified searches later at most, and none where it opens its own window. -/
theorem searchBestEffort : Obligations.SearchBestEffort := by
  unfold Obligations.SearchBestEffort
  intro s ring dma c x f batch radius hadmits hbr ctx q pats hindex hfield hcls hinline hfmt hcount hlen hblock hprep hsbac hfilter
    hbitmap hactive hrerank hwords htable hepoch hnew
  have hprepares : Prepares ctx x (s.readBlock c none) := by
    obtain ⟨out, hread⟩ := s.readBlock_eq c none
    rw [hread]
    exact hprep
  have hindexes : (s.readBlock c none).indexes = s.indexes := (Within.readBlock s c none).get State.indexes fun _ => rfl
  have hbody := searchBody_eq (s := s.readBlock c none) (ctx := ctx) (f := f) (batch := batch) (radius := radius)
    ((congrArg (fun m => FMap.get? m ctx.key) hindexes).trans hindex) ((field?_readBlock s c none _).trans hfield)
  have hexec := (exec_search_eq s ring dma hbr).trans (State.runPacket_of_checked hadmits hbody
    (searchChecks_pass hcls hinline hfmt hcount hlen hblock hprepares hsbac))
  rw [checks_of_forall (bindChecks_pass hprepares hfilter hbitmap hactive hrerank hwords htable hepoch),
    replays_of_prepares hprepares, if_neg Bool.false_ne_true, if_neg hcls] at hexec
  obtain ⟨t, hplan, hplaced⟩ := searchPlaced_of_planBestEffort (s.readBlock c none) (searchBound ctx x f radius) hcls
  obtain ⟨hle, hexact, hge⟩ := bestEffortProbe_bounds (s.readBlock c none) (searchBound ctx x f radius) (SearchIn.floor_le hinline)
  generalize (s.readBlock c none).bestEffortProbe (searchBound ctx x f radius) = n at hplan hplaced hle hexact hge
  rw [hplan, settle_readBlock] at hexec
  obtain ⟨hasks, hledger, hapart, hwithin⟩ := searchPlaced_of_readBlock hplaced rfl rfl
  refine ⟨t, _, n, hexec, ?_, fun p hp hmine => ?_, hle, hexact, hge, hledger.1, fun d hd => ?_, fun hopen hrelax hwin hnone => ?_,
    hwithin.get State.indexes fun _ => rfl, State.ringsKept_of_rings_eq (hwithin.get State.rings fun _ => rfl),
    hwithin.get State.cmds fun _ => rfl, hwithin.get State.trust fun _ => rfl, hwithin.get State.tbk fun _ => rfl⟩
  · refine (Asks.refs hasks).trans (congrArg _ ?_)
    simp only [Bound.queries, List.map_map, Function.comp_def, length_vecs_of_prepares hprepares]
    rfl
  · obtain ⟨q', hq', heq⟩ := Asks.mem hasks hp
    have href : p.ref = q'.ref := (congrArg Query.ref heq :)
    rcases hq' with hq' | hq'
    · exact absurd (href ▸ hmine) (ne_true_of_eq_false (hnew q' hq'))
    · exact fields_of_mem_queries hq' heq
  · obtain ⟨e, he, href, hbound, _⟩ := hledger.2 d hd
    exact ⟨e, he, href.symm, hbound.symm⟩
  · exact hapart hopen hrelax hwin hnew hnone

end Sys2Proof.Machine

/-! ### What the device's own work reads (R443, R448, R495, R512, R526) -/

namespace Sys2Proof.Machine

/-! #### Work that ends no command and changes no index, ring or term of a field -/

/-- What the reads of the query path may change. -/
abbrev readComps : List Comp :=
  [.out, .fresh, .rings, .fields, .cores, .streams, .channels, .handleQueues, .coulters, .granary, .badChunks, .ports, .log, .trace,
   .counters, .fns]

/-- What a stage of the query path may change. -/
abbrev stageComps : List Comp := .queries :: .windows :: readComps

/-- The terms that stand in the list of fields, by number. -/
def State.fieldTerms (s : State) : List (Nat × Terms) := s.fields.map (fun p => (p.1, p.2.terms))

/-- The fields keep their terms. -/
def TermsKept (s t : State) : Prop := FieldsShow Field.terms s t ∧ ∀ p, p ∈ t.fieldTerms ↔ p ∈ s.fieldTerms

theorem TermsKept.refl (s : State) : TermsKept s s := ⟨.refl s, fun _ => .rfl⟩

theorem TermsKept.trans {r s t : State} (h : TermsKept r s) (g : TermsKept s t) : TermsKept r t :=
  ⟨h.1.trans g.1, fun p => (g.2 p).trans (h.2 p)⟩

/-- A field replaced by one of the same terms. -/
theorem mem_fieldTerms_setField {s : State} {f : Nat} {x y : Field} (hx : s.field? f = some x) (h : y.terms = x.terms)
    (p : Nat × Terms) : p ∈ (s.setField f y).fieldTerms ↔ p ∈ s.fieldTerms := by
  refine ⟨fun hp => ?_, fun hp => ?_⟩ <;> obtain ⟨q, hq, rfl⟩ := List.mem_map.mp hp
  · rcases FMap.mem_set hq with rfl | hq
    · exact List.mem_map.mpr ⟨(f, x), FMap.mem_of_get? hx, by rw [h]⟩
    · exact List.mem_map_of_mem hq
  · rcases FMap.mem_set_of_mem (a := y) hx hq with hset | rfl
    · exact List.mem_map_of_mem hset
    · exact List.mem_map.mpr ⟨(f, y), FMap.mem_of_get? (FMap.get?_set_self s.fields f y), by rw [h]⟩

theorem termsKept_modField (s : State) (f : Nat) {g : Field → Field} (h : ∀ x, (g x).terms = x.terms) :
    TermsKept s (s.modField f g) := by
  refine ⟨fieldsShow_modField s f h, ?_⟩
  unfold State.modField
  split
  · exact fun _ => .rfl
  · next x hx => exact mem_fieldTerms_setField hx (h x)

theorem termsKept_of_within {m : List Comp} {s t : State} (h : Within m s t) (hf : m.elem .fields = false) : TermsKept s t := by
  refine ⟨fieldsShow_of_within h hf, fun p => ?_⟩
  rw [State.fieldTerms, h.get State.fields fun u => by simp only [State.patch, hf, cond_false], State.fieldTerms]

/-- Work within a footprint: rings stay apart from what was signalled, and the fields keep their terms. -/
structure Works (m : List Comp) (s t : State) : Prop where
  within : Within m s t
  rings : s.ringsKept t
  terms : TermsKept s t

/-- Work that reads. -/
abbrev Reads (s t : State) : Prop := Works readComps s t

/-- Work of a stage of the query path. -/
abbrev Stages (s t : State) : Prop := Works stageComps s t

section Works
variable {m : List Comp} {r s t : State}

theorem Works.refl (m : List Comp) (s : State) : Works m s s := ⟨.refl _ _, State.ringsKept_of_rings_eq rfl, .refl s⟩

theorem Works.trans (h : Works m r s) (g : Works m s t) : Works m r t :=
  ⟨h.within.trans g.within, State.ringsKept.trans h.rings g.rings, h.terms.trans g.terms⟩

theorem Works.ite {c : Prop} [Decidable c] {a b : State} (ha : Works m s a) (hb : Works m s b) : Works m s (if c then a else b) := by
  split <;> assumption

theorem Works.foldl {α : Type} {k : State → α → State} (hk : ∀ t a, Works m t (k t a)) (l : List α) (s : State) :
    Works m s (l.foldl k s) := by
  induction l generalizing s with
  | nil => exact .refl m s
  | cons a l ih => exact (hk s a).trans (ih _)

/-- Work that reaches neither a field nor a ring. -/
theorem Works.of_within {n : List Comp} (h : Within n s t) (hm : covers m n = true) (hf : n.elem .fields = false)
    (hr : n.elem .rings = false) : Works m s t :=
  ⟨h.mono hm, State.ringsKept_of_rings_eq (h.get State.rings fun u => by simp only [State.patch, hr, cond_false]),
    termsKept_of_within h hf⟩

/-- A read is work of a stage. -/
theorem Works.stages (h : Reads s t) : Stages s t := ⟨h.within.mono (by decide), h.rings, h.terms⟩

theorem Works.queries (h : Reads s t) : t.queries = s.queries := h.within.get State.queries fun _ => rfl

theorem Works.windows (h : Reads s t) : t.windows = s.windows := h.within.get State.windows fun _ => rfl

theorem Works.cmds (h : Stages s t) : t.cmds = s.cmds := h.within.get State.cmds fun _ => rfl

theorem Works.indexes (h : Stages s t) : t.indexes = s.indexes := h.within.get State.indexes fun _ => rfl

theorem Works.index? (h : Stages s t) (f i : Nat) : t.index? f i = s.index? f i := by
  rw [State.index?, h.indexes, State.index?]

theorem Works.cfg (h : Works m s t) (f : Nat) : t.cfg f = s.cfg f := by
  have hterms := congrArg (fun o => (o.map Terms.cfg).getD FieldCfg.reset) (h.terms.1 f)
  unfold State.cfg
  cases hs : s.field? f <;> cases ht : t.field? f <;> rw [hs, ht] at hterms <;> exact hterms

theorem Works.fieldExists (h : Works m s t) (f : Nat) : t.fieldExists f = s.fieldExists f := by
  have hterms := congrArg (fun o => (o.map Terms.present).getD false) (h.terms.1 f)
  unfold State.fieldExists
  cases hs : s.field? f <;> cases ht : t.field? f <;> rw [hs, ht] at hterms <;> exact hterms

theorem Works.perturbIn (h : Stages s t) (f : Nat) : t.perturbIn f = s.perturbIn f := by
  have htrust : t.trust = s.trust := h.within.get State.trust fun _ => rfl
  unfold State.perturbIn State.perturbPermit
  rw [htrust, h.cfg, h.fieldExists]

/-- Where settings of the device's scope act follows from the terms of the fields. -/
theorem State.all_fields_eq (s : State) : (s.fields.all fun f => !f.2.present || s.perturbIn f.1) =
    s.fieldTerms.all fun f => !f.2.present || s.perturbIn f.1 := by
  unfold State.fieldTerms
  rw [List.all_map]
  rfl

theorem Works.pertActs (h : Stages s t) (f : Nat) : t.pertActs f = s.pertActs f := by
  have hall : (t.fieldTerms.all fun f => !f.2.present || s.perturbIn f.1) =
      s.fieldTerms.all fun f => !f.2.present || s.perturbIn f.1 := by
    rw [Bool.eq_iff_iff, List.all_eq_true, List.all_eq_true]
    exact forall_congr' fun p => imp_congr_left (h.terms.2 p)
  unfold State.pertActs
  rw [t.all_fields_eq, s.all_fields_eq, funext h.perturbIn, hall]

theorem Works.forcedReplays (h : Stages s t) (f : Nat) : t.forcedReplays f = s.forcedReplays f := by
  have hpert : t.pert = s.pert := h.within.get State.pert fun _ => rfl
  unfold State.forcedReplays State.control
  rw [hpert, h.pertActs]

end Works

/-! #### The parts of a read -/

theorem reads_modField (s : State) (f : Nat) {g : Field → Field} (h : ∀ x, (g x).terms = x.terms) : Reads s (s.modField f g) :=
  ⟨(Within.modField s f g).mono (by decide), State.ringsKept_of_rings_eq ((Within.modField s f g).get State.rings fun _ => rfl),
    termsKept_modField s f h⟩

theorem reads_countField (s : State) (f pos n : Nat) : Reads s (s.countField f pos n) := reads_modField s f fun _ => rfl

theorem reads_count (s : State) (g pos n : Nat) : Reads s (s.count g pos n) := .of_within (Within.count s g pos n) rfl rfl rfl

theorem reads_logEvent (s : State) (code field sev unit : Nat) (detail : Bytes) : Reads s (s.logEvent code field sev unit detail) :=
  ⟨(Within.logEvent s code field sev unit detail).mono (by decide), (tells_logEvent s code field sev unit detail).rings,
    termsKept_of_within (Within.logEvent s code field sev unit detail) rfl⟩

theorem reads_traceRec (s : State) (src field unit : Nat) (a b : BitVec 64) : Reads s (s.traceRec src field unit a b) :=
  .of_within (Within.traceRec s src field unit a b) rfl rfl rfl

theorem reads_drawn (s : State) : Reads s s.drawn := .of_within (Within.drawn s) rfl rfl rfl

theorem reads_applyPend (s : State) (l : Line) : Reads s (s.applyPend l) := by
  unfold State.applyPend
  split
  · exact .refl _ s
  · refine reads_modField s _ fun x => ?_
    split <;> rfl

theorem reads_overfetch (s : State) (l : Line) : Reads s (s.overfetch l) := .ite (reads_countField s _ _ _) (.refl _ s)

theorem reads_retire (s : State) (back : Bool) (p : Line → Bool) : Reads s (s.retire back p) := by
  have hline (t : State) (l : Line) : Reads t (((if back then t.writeBack l else t).applyPend l).overfetch l) :=
    ((Works.ite (.of_within (Within.writeBack t l) rfl rfl rfl) (.refl _ t)).trans (reads_applyPend _ l)).trans (reads_overfetch _ l)
  exact (Works.foldl hline _ s).trans (.of_within (Within.withLines _ _) rfl rfl rfl)

theorem reads_setLine (s : State) (l : Line) : Reads s (s.setLine l) := .of_within (Within.setLine s l) rfl rfl rfl

theorem reads_evictLine (s : State) (l : Line) : Reads s (s.evictLine l) := .ite (reads_setLine s _) (reads_retire s true _)

theorem reads_install (s : State) (l : Line) : Reads s (s.install l) := by
  unfold State.install
  split
  · exact .refl _ s
  · next t ht =>
    refine Works.trans ?_ (.of_within (Within.useLine t l) rfl rfl rfl)
    unfold State.makeWay at ht
    dsimp only at ht
    split at ht
    · cases ht
      exact .refl _ s
    · split at ht
      · cases ht
      · cases ht
        exact .foldl reads_evictLine _ s

theorem reads_fill (s : State) (f c j k : Nat) (b : Bytes) : Reads s (s.fill f c j k b) := by
  unfold State.fill
  split
  · exact .refl _ s
  · exact reads_install s _

theorem reads_countLookup (s : State) (f slice : Nat) (hit : Bool) : Reads s (s.countLookup f slice hit) := by
  have hlook := (reads_modField s f (g := fun x => { x with lookups := FMap.set x.lookups slice ((FMap.getD x.lookups slice 0 + 1) % 256) })
    fun _ => rfl).trans (reads_count _ 2 (64 + slice) 1)
  exact .ite (hlook.trans (reads_countField _ f 18 1)) ((hlook.trans (reads_countField _ f 19 1)).trans (reads_count _ _ _ 1))

theorem reads_lookupLine (s : State) (f c j : Nat) : Reads s (s.lookupLine f c j).1 := by
  unfold State.lookupLine
  dsimp only
  split
  · exact reads_countLookup s f _ false
  · next l hl =>
    split
    · exact ((Works.of_within (Within.writeBack s l) rfl rfl rfl).trans (reads_setLine _ _)).trans (reads_countLookup _ f _ false)
    · exact (Works.of_within (Within.useLine s _) rfl rfl rfl).trans (reads_countLookup _ f _ true)

theorem terms_withExtra (x : Field) (tokens extra : Nat) : { x with tokens := tokens, extra := extra }.terms = x.terms := by
  cases x
  rfl

theorem reads_takeTokens (s : State) (f n : Nat) : Reads s (s.takeTokens f n) :=
  reads_modField s f fun x => (terms_withExtra (x.refill s.tbk) _ _).trans (terms_refill x s.tbk)

theorem Within.fetched (s : State) (n bytes : Nat) : Within [.streams] s (s.fetched n bytes) := by
  unfold State.fetched
  split
  · exact .refl _ _
  · exact .setStream _ _ _

theorem Within.serveWaiting (s : State) (c f : Nat) (ks : List Nat) : Within [.streams, .channels] s (s.serveWaiting c f ks) :=
  Within.foldl _ _ (fun _ _ h => h.then (.fetched _ _ _) (by decide)) ((Within.setChannel s c _).mono (by decide))

theorem reads_landRead (s : State) (c : Nat) (q : Request) : Reads s (s.landRead c q) := by
  have hfill (ks : List Nat) (t : State) (n : Nat) : Reads t
      (if (t.pageOfLine q.field c (ks.getD n 0)).isSome then
        t.fill q.field c q.line (ks.getD n 0) (t.lineData q.field c (ks.getD n 0)) else t) := .ite (reads_fill t _ _ _ _ _) (.refl _ t)
  exact ((Works.foldl (hfill (s.linesOf c q)) _ s).trans (.of_within (Within.fetched _ _ _) rfl rfl rfl)).trans
    (.of_within (Within.serveWaiting _ _ _ _) rfl rfl rfl)

theorem reads_eccCorrected (s : State) (f page chunk : Nat) : Reads s (s.eccCorrected f page chunk) :=
  (reads_logEvent s _ _ _ _ _).trans (reads_countField _ f 27 1)

/-- A chunk noted as uncorrectable. -/
def State.markBad (s : State) (f page chunk : Nat) : State :=
  if s.badChunks.contains (f, page, chunk) then s else { s with badChunks := (f, page, chunk) :: s.badChunks }

theorem Within.markBad (s : State) (f page chunk : Nat) : Within [.badChunks] s (s.markBad f page chunk) := .ite (.refl _ _) rfl

theorem reads_eccFailed (s : State) (f page chunk : Nat) : Reads s (s.eccFailed f page chunk) :=
  ((Works.of_within (Within.markBad s f page chunk) rfl rfl rfl).trans (reads_logEvent _ _ _ _ _ _)).trans (reads_countField _ f 28 1)

theorem reads_checkChunk (s : State) (f page chunk : Nat) (e : Ecc) : Reads s (s.checkChunk f page chunk e) := by
  cases e with
  | clean => exact .refl _ s
  | corrected => exact .ite (.refl _ s) (reads_eccCorrected s f page chunk)
  | uncorrectable => exact reads_eccFailed s f page chunk

theorem reads_checkLine (s : State) (f c j : Nat) (es : List Ecc) : Reads s (s.checkLine f c j es) := by
  refine .ite (.refl _ s) (.foldl (fun t n => ?_) _ s)
  split
  · exact .refl _ t
  · exact reads_checkChunk t f _ _ _

/-- Free values drawn for the checks of a line. -/
def State.drawnChecks (s : State) : State := { s with fresh := s.fresh + 4 }

theorem Within.drawnChecks (s : State) : Within [.fresh] s s.drawnChecks := rfl

theorem reads_drawnChecks (s : State) : Reads s s.drawnChecks := .of_within (Within.drawnChecks s) rfl rfl rfl

theorem reads_checkLines (s : State) (f c j : Nat) (ks : List Nat) (es : List Ecc) : Reads s (s.checkLines f c j ks es) :=
  .foldl (fun t k => .ite (reads_checkLine t f c k es) ((reads_drawnChecks t).trans (reads_checkLine _ f c k _))) ks s

theorem reads_landNarrow (s : State) (c : Nat) (q : Request) : Reads s (s.landNarrow c q) := by
  refine .ite (.refl _ s) ?_
  dsimp only
  refine Works.trans ?_ (.of_within (Within.setCore _ _ _) rfl rfl rfl)
  split
  · exact .refl _ s
  · exact reads_setLine s _

theorem reads_served (s : State) (c level : Nat) (q : Request) (es : List Ecc) : Reads s (s.served_ c level q es) := by
  unfold State.served_
  dsimp only
  have htokens : Reads s (if level = 4 then s else s.takeTokens q.field (s.priceOf c q)) := .ite (.refl _ s) (reads_takeTokens s _ _)
  have hcount := (htokens.trans (reads_countField _ q.field 15 (s.priceOf c q))).trans
    (reads_count _ 2 (if q.write then 16 + c else c) (256 * (s.linesOf c q).length))
  exact .ite hcount (((hcount.trans (reads_landRead _ c q)).trans (reads_checkLines _ _ _ _ _ _)).trans (reads_landNarrow _ c q))

theorem reads_readLine (s : State) (f cls unit : Nat) (narrow : Bool) (cj : Nat × Nat) :
    Reads s (s.readLine f cls unit narrow cj) :=
  .ite (reads_lookupLine s _ _ _)
    (((reads_lookupLine s _ _ _).trans (reads_drawnChecks _)).trans (reads_served _ _ _ _ _))

theorem reads_readLines (s : State) (f cls unit : Nat) (narrow : Bool) (ls : List (Nat × Nat)) :
    Reads s (s.readLines f cls unit narrow ls) := .foldl (fun t cj => reads_readLine t f cls unit narrow cj) ls s

/-! #### The reads of the query path -/

theorem reads_touch (s : State) (f : Nat) (xs : List Span) : Reads s (s.touch f xs) := reads_modField s f fun _ => rfl

theorem reads_readSpans (s : State) (f cls unit : Nat) (narrow : Bool) (xs : List Span) :
    Reads s (s.readSpans f cls unit narrow xs) := (reads_readLines s f cls unit narrow _).trans (reads_touch _ f xs)

theorem reads_readsAhead (s : State) (f cls unit : Nat) (xs : List Span) : Reads s (s.readsAhead f cls unit xs) :=
  reads_readSpans s f cls unit false _

theorem reads_readPass (s : State) (f cls unit : Nat) (r : PassReads) : Reads s (s.readPass f cls unit r) :=
  (((reads_readSpans s f cls unit true r.side).trans (reads_readSpans _ f cls unit false r.need)).trans
    (reads_readLines _ f cls unit false _)).trans (reads_countField _ f 16 r.unused)

theorem reads_prefetch (s : State) (h : Query) : Reads s (s.prefetch h) := by
  have hcodebook (u : State) : Reads u (match u.index? h.field h.index with
      | none => u
      | some x => ((List.range 8).filter (u.unitWorks 2)).foldl
        (fun s n => s.readsAhead h.field h.cls (unitKey 2 n) [codebookSpan h.index x.p]) u) := by
    split
    · exact .refl _ u
    · exact .foldl (fun t n => reads_readsAhead t h.field h.cls (unitKey 2 n) _) _ u
  have hrows (u : State) : Reads u (match u.nextTile with
      | [] => u
      | q :: _ => match u.index? q.field q.index with
        | none => u
        | some x => u.coultersUp.foldl (fun s c =>
          s.readsAhead q.field q.cls (unitKey 1 c) (s.rowSpans q.field q.index x.p c 0 64)) u) := by
    split
    · exact .refl _ u
    · split
      · exact .refl _ u
      · exact .foldl (fun t c => reads_readsAhead t _ _ _ _) _ u
  exact (hcodebook s).trans (hrows _)

theorem Within.holdTile (s : State) (c : Nat) (x : Index) (tile : List Query) : Within [.coulters] s (s.holdTile c x tile) := rfl

theorem reads_scoreRows (s : State) (h : Query) (x : Index) (tile : List Query) : Reads s (s.scoreRows h x tile) :=
  .foldl (fun t c => (reads_readSpans t _ _ _ _ _).trans (.of_within (Within.holdTile _ c x tile) rfl rfl rfl)) _ s

theorem reads_sendMessage (s : State) (m kind vc : Nat) (b : Bytes) : Reads s (s.sendMessage m kind vc b) :=
  .of_within (Within.sendMessage s m kind vc b) rfl rfl rfl

theorem reads_askRuns (s : State) (x : Index) (q : Query) (lists : List Nat) (entries : List (Nat × Nat)) :
    Reads s (s.askRuns x q lists entries) := .ite (.refl _ s) (.foldl (fun t m => reads_sendMessage t m _ _ _) _ s)

theorem stages_putQuery (s : State) (q : Query) : Stages s (s.putQuery q) := .of_within (Within.putQuery s q) rfl rfl rfl

theorem stages_splitQuery (s : State) (key : Nat) (x : Index) (q : Query) : Stages s (s.splitQuery key x q) :=
  .ite (stages_putQuery s q) (.ite (.ite ((stages_putQuery s q).trans (reads_askRuns _ x q _ _).stages) (stages_putQuery s _))
    ((stages_putQuery s _).trans ((Works.foldl (fun t (p : Nat × Nat) => reads_sendMessage t p.2 _ _ _) _ _).stages)))

theorem reads_noteReplays (s : State) (f : Nat) (a : Acc) : Reads s (s.noteReplays f a) := by
  have hcount : Reads s (if a.replays = 0 then s
      else (s.countField f 22 a.replays).traceRec 10 f noUnit (BitVec.ofNat 64 f) 0) :=
    .ite (.refl _ s) ((reads_countField s f 22 _).trans (reads_traceRec _ _ _ _ _ _))
  unfold State.noteReplays
  exact .ite hcount (((hcount.trans (reads_drawn _)).trans (reads_countField _ f 23 _)).trans (reads_traceRec _ _ _ _ _ _))

theorem queryReplays_of_none {s : State} {q : QRef} {f : Nat} {a : Acc} (h : s.forcedReplays f = 0) :
    s.queryReplays q f a = s.noteReplays f a := by
  have hsame : s.replayDiffers f a = false := by rw [State.replayDiffers, h, Nat.mul_zero]; rfl
  unfold State.queryReplays
  rw [hsame]
  rfl

theorem Within.dropTable (s : State) (r : QRef) : Within [.cores] s (s.dropTable r) := rfl

theorem reads_dropTable (s : State) (r : QRef) : Reads s (s.dropTable r) := .of_within (Within.dropTable s r) rfl rfl rfl

theorem stages_listDone (s : State) (q : Query) (l : Nat) : Stages s (s.listDone q l) :=
  .ite ((stages_putQuery s _).trans (reads_dropTable _ _).stages) (stages_putQuery s _)

theorem reads_gatherAhead (s : State) (x : Index) (q : Query) (new : List Cand) : Reads s (s.gatherAhead x q new) :=
  .ite (.refl _ s) (((reads_drawn s).trans (reads_readSpans _ _ _ _ _ _)).trans (reads_countField _ _ 16 _))

theorem Within.setQueue (s : State) (n : Nat) (q : HandleQueue) : Within [.handleQueues] s (s.setQueue n q) := rfl

/-- Candidates on their way take numbers and move through one handle queue. -/
def Carries (s t : State) : Prop := Within [.fresh, .handleQueues] s t

theorem Carries.setQueue {s t : State} (h : Carries s t) (n : Nat) (q : HandleQueue) : Carries s (t.setQueue n q) :=
  Within.then h (Within.setQueue t n q) (by decide)

theorem carries_pushHandle {s t : State} {n : Nat} {cs : List Cand} (h : s.pushHandle n cs = some t) : Carries s t := by
  unfold State.pushHandle at h
  split at h
  · cases h
  · split at h
    · cases h
    · cases h
      exact Carries.setQueue ((Within.drawn s).mono (by decide)) n _

theorem carries_takeBuffer (s : State) (n : Nat) : Carries s (s.takeBuffer n).1 := by
  unfold State.takeBuffer
  split
  · exact .refl _ s
  · next t h hpop =>
    have hpopped : Carries s t := by
      unfold State.popHandle at hpop
      split at hpop
      · cases hpop
      · split at hpop
        · cases hpop
          exact Carries.setQueue (.refl _ s) n _
        · cases hpop
    dsimp only
    unfold State.returnHandle
    split
    · exact hpopped
    · exact hpopped.setQueue n _

theorem carries_takeBuffers (k : Nat) : ∀ (s : State) (n : Nat), Carries s (State.takeBuffers k s n).1 := by
  induction k with
  | zero => exact fun s n => .refl _ s
  | succ k ih => exact fun s n => Within.trans (carries_takeBuffer s n) (ih _ n)

theorem carries_sendCands (cs : List Cand) : ∀ (s : State) (n : Nat), Carries s (s.sendCands n cs).1 := by
  induction cs with
  | nil => exact fun s n => carries_takeBuffers queueDepth s n
  | cons c cs ih =>
    intro s n
    unfold State.sendCands
    split
    · next t ht => exact Within.trans (carries_pushHandle ht) (ih t n)
    · refine Within.trans (Within.trans (carries_takeBuffer s n) ?_) (ih _ n)
      cases hpush : (s.takeBuffer n).1.pushHandle n [c] with
      | none => exact .refl _ _
      | some t => exact carries_pushHandle hpush

/-- The handle queues replaced. -/
def State.withQueues (s : State) (m : FMap HandleQueue) : State := { s with handleQueues := m }

theorem Within.withQueues (s : State) (m : FMap HandleQueue) : Within [.handleQueues] s (s.withQueues m) := rfl

theorem Within.releaseQueue (s : State) (n : Nat) : Within [.handleQueues] s (s.releaseQueue n) := by
  unfold State.releaseQueue
  split
  · exact .refl _ s
  · exact .ite (.withQueues s _) (.refl _ s)

theorem reads_carry (s : State) (work producer consumer f : Nat) (cs : List Cand) :
    Reads s (s.carry work producer consumer f cs).1 := by
  refine .of_within (n := [.fresh, .handleQueues]) ?_ rfl rfl rfl
  unfold State.carry
  split
  · exact .refl _ s
  · next t n h =>
    have hassign : Carries s t := by
      obtain ⟨k, _, hk⟩ := Option.map_eq_some_iff.mp h
      cases hk
      exact Carries.setQueue (.refl _ s) _ _
    refine Within.trans (Within.trans hassign (carries_sendCands cs t n)) ?_
    exact (Within.releaseQueue _ n).mono (by decide)

end Sys2Proof.Machine

/-! ### The stages of a query (R24, R270, R272, R275 to R283, R787) -/

namespace Sys2Proof.Machine

/-! #### The first lists by coarse key and number (R24) -/

section sorted
variable {α : Type} {lt : α → α → Bool}

/-- A strict order of keys. -/
structure KeyOrder (lt : α → α → Bool) : Prop where
  asymm : ∀ a b, lt a b = true → lt b a = false
  trans : ∀ a b c, lt b a = false → lt c b = false → lt c a = false

theorem pairwise_insertLt (h : KeyOrder lt) (a : α) {l : List α} (hl : l.Pairwise fun x y => lt y x = false) :
    (insertLt lt a l).Pairwise fun x y => lt y x = false := by
  induction l with
  | nil => exact List.pairwise_singleton _ _
  | cons b l ih =>
    obtain ⟨hb, hrest⟩ := List.pairwise_cons.mp hl
    unfold insertLt
    split
    · next hba =>
      refine List.pairwise_cons.mpr ⟨fun c hc => ?_, ih hrest⟩
      rcases mem_insertLt.mp hc with rfl | hc
      · exact h.asymm b c hba
      · exact hb c hc
    · next hba =>
      rw [Bool.not_eq_true] at hba
      refine List.pairwise_cons.mpr ⟨fun c hc => ?_, hl⟩
      rcases List.mem_cons.mp hc with rfl | hc
      · exact hba
      · exact h.trans a b c hba (hb c hc)

theorem pairwise_sortLt (h : KeyOrder lt) (l : List α) : (sortLt lt l).Pairwise fun x y => lt y x = false := by
  induction l with
  | nil => exact List.Pairwise.nil
  | cons a l ih => exact pairwise_insertLt h a ih

theorem length_insertLt (a : α) (l : List α) : (insertLt lt a l).length = l.length + 1 := by
  induction l with
  | nil => rfl
  | cons b l ih =>
    unfold insertLt
    split
    · rw [List.length_cons, ih, List.length_cons]
    · rfl

theorem length_sortLt (l : List α) : (sortLt lt l).length = l.length := by
  induction l with
  | nil => rfl
  | cons a l ih =>
    change (insertLt lt a (sortLt lt l)).length = _
    rw [length_insertLt, ih, List.length_cons]

/-- In order, nothing behind the first n comes before one of them. -/
theorem not_lt_of_mem_take {l : List α} (hl : l.Pairwise fun x y => lt y x = false) {n : Nat} {a b : α} (ha : a ∈ l)
    (hout : a ∉ l.take n) (hb : b ∈ l.take n) : lt a b = false := by
  rw [← List.take_append_drop n l] at hl ha
  exact (List.pairwise_append.mp hl).2.2 b hb a ((List.mem_append.mp ha).resolve_left hout)

end sorted

theorem keyOrder_before : KeyOrder (fun a b : Ranked => before a.key a.list b.key b.list) := by
  have hbefore (a b : Ranked) : before a.key a.list b.key b.list = true ↔
      (orderKey a.key).toNat < (orderKey b.key).toNat ∨
        (orderKey a.key).toNat = (orderKey b.key).toNat ∧ a.list < b.list := by
    simp only [before, Bool.or_eq_true, Bool.and_eq_true, decide_eq_true_eq, beq_iff_eq]
  refine ⟨fun a b h => ?_, fun a b c h g => ?_⟩
  · rw [← Bool.not_eq_true, hbefore]
    rw [hbefore] at h
    omega
  · rw [← Bool.not_eq_true, hbefore] at h g ⊢
    omega

theorem length_pickLists (n : Nat) (ks : List Ranked) : (pickLists n ks).length = min n ks.length := by
  rw [pickLists, List.length_map, List.length_take, length_sortLt]

/-- R24: no list left out comes before one taken. -/
theorem before_pickLists {n : Nat} {ks : List Ranked} (hks : (ks.map (fun r => r.list)).Nodup) {r q : Ranked} (hr : r ∈ ks)
    (hq : q ∈ ks) (hout : r.list ∉ pickLists n ks) (hin : q.list ∈ pickLists n ks) : before r.key r.list q.key q.list = false := by
  obtain ⟨p, hp, hlist⟩ := List.mem_map.mp hin
  have hmem := mem_sortLt.mp (List.mem_of_mem_take hp)
  have hsame : p = q := List.inj_on_of_nodup_map hks hmem hq hlist
  exact not_lt_of_mem_take (pairwise_sortLt keyOrder_before ks) (mem_sortLt.mpr hr) (fun h => hout (List.mem_map_of_mem h))
    (hsame ▸ hp)

/-! #### Queries replaced in turn -/

/-- The query a is replaced by one that P relates to it. -/
def Puts (P : Query → Query → Prop) (s : State) (a : Query) (t : State) : Prop :=
  ∃ b, b.ref = a.ref ∧ P a b ∧ t.queries = (s.putQuery b).queries

/-- A query that P relates to q stands under its name. -/
def Stands (P : Query → Query → Prop) (s : State) (q : Query) : Prop := ∃ p ∈ s.queries, p.ref = q.ref ∧ P q p

section puts
variable {P : Query → Query → Prop} {s t : State} {q a : Query}

theorem Puts.stands (h : Puts P s a t) (ha : ∃ p ∈ s.queries, p.ref = a.ref) : Stands P t a := by
  obtain ⟨b, href, hP, hqueries⟩ := h
  obtain ⟨p, hp, hpa⟩ := ha
  refine ⟨b, ?_, href, hP⟩
  rw [hqueries]
  exact List.mem_map.mpr ⟨p, hp, if_pos (hpa.trans href.symm)⟩

theorem Puts.stands_of_ne (h : Puts P s a t) (hne : a.ref ≠ q.ref) (hq : Stands P s q) : Stands P t q := by
  obtain ⟨b, href, _, hqueries⟩ := h
  obtain ⟨p, hp, hpq, hP⟩ := hq
  refine ⟨p, ?_, hpq, hP⟩
  rw [hqueries]
  exact List.mem_map.mpr ⟨p, hp, if_neg fun h => hne (href.symm.trans (h.symm.trans hpq))⟩

theorem Puts.keeps (h : Puts P s a t) {r : QRef} (hr : ∃ p ∈ s.queries, p.ref = r) : ∃ p ∈ t.queries, p.ref = r := by
  obtain ⟨b, href, _, hqueries⟩ := h
  obtain ⟨p, hp, hpr⟩ := hr
  rw [hqueries]
  by_cases hb : p.ref = b.ref
  · exact ⟨b, List.mem_map.mpr ⟨p, hp, if_pos hb⟩, hb.symm.trans hpr⟩
  · exact ⟨p, List.mem_map.mpr ⟨p, hp, if_neg hb⟩, hpr⟩

/-- Work done for each of a list of queries. -/
structure Serves (P : Query → Query → Prop) (k : State → Query → State) (s : State) (l : List Query) : Prop where
  works : ∀ t a, Stages s t → a ∈ l → Stages t (k t a)
  puts : ∀ t a, Stages s t → a ∈ l → Puts P t a (k t a)

variable {k : State → Query → State} {r : State} {l : List Query}

theorem Serves.tail (h : Serves P k r (a :: l)) : Serves P k r l :=
  ⟨fun t b ht hb => h.works t b ht (List.mem_cons_of_mem a hb), fun t b ht hb => h.puts t b ht (List.mem_cons_of_mem a hb)⟩

theorem Serves.foldl_works (h : Serves P k r l) (hs : Stages r s) : Stages s (l.foldl k s) := by
  induction l generalizing s with
  | nil => exact .refl _ s
  | cons a l ih =>
    have hstep := h.works s a hs List.mem_cons_self
    exact hstep.trans (ih h.tail (hs.trans hstep))

/-- Each query served stands as P says, where the name tells them apart. -/
theorem Serves.foldl_stands (h : Serves P k r l) (hs : Stages r s) (hone : ∀ a ∈ l, a.ref = q.ref → a = q)
    (href : ∃ p ∈ s.queries, p.ref = q.ref) (hq : q ∈ l ∨ Stands P s q) : Stands P (l.foldl k s) q := by
  induction l generalizing s with
  | nil => exact hq.resolve_left List.not_mem_nil
  | cons a l ih =>
    have hstep := h.works s a hs List.mem_cons_self
    have hput := h.puts s a hs List.mem_cons_self
    refine ih h.tail (hs.trans hstep) (fun b hb => hone b (List.mem_cons_of_mem a hb)) (hput.keeps href) ?_
    by_cases haq : a.ref = q.ref
    · obtain rfl := hone a List.mem_cons_self haq
      exact .inr (hput.stands href)
    · refine hq.imp (fun hq => ?_) (hput.stands_of_ne haq)
      exact (List.mem_cons.mp hq).resolve_left fun heq => haq (heq ▸ rfl)

end puts

/-! #### TABLE_AREA_PLACEMENT (R270) -/

section placement
variable {s u : State} {q : Query}

theorem Within.afterPlacing (s : State) (q : Query) : Within [.fields, .windows] s (s.afterPlacing q) := by
  unfold State.afterPlacing
  dsimp only
  have hwait := Within.foldl State.mustWait (s.waiters.filter (fun w => !s.fits w))
    (fun t w (h : Within [.fields, .windows] s t) => h.trans (Within.mustWait t w)) (.refl _ s)
  generalize (s.waiters.filter (fun w => !s.fits w)).foldl State.mustWait s = t at hwait
  split
  · exact hwait
  · exact .ite (hwait.trans (Within.closeWindow _ _)) hwait

theorem queries_joinWindow (s : State) (q : Query) : ∃ n, (s.joinWindow q).queries = (s.seat q.ref n).queries := by
  cases h : s.openWindow q.field q.index (q.cls == 2) with
  | none =>
    rw [State.joinWindow_of_none h]
    exact ⟨s.nextWindow, rfl⟩
  | some x =>
    obtain ⟨n, w⟩ := x
    refine ⟨n, ?_⟩
    rw [State.joinWindow_of_some h]
    split
    · exact (Within.closeWindow _ n).get State.queries fun _ => rfl
    · rfl

/-- R269: a placed query has a core, which holds room for its table. -/
theorem place_stands {bytes : Nat} (h : s.place q bytes = some u) (hq : ∃ p ∈ s.queries, p.ref = q.ref) :
    ∃ (p : Query) (n : Nat), p ∈ u.queries ∧ p.ref = q.ref ∧ p.core = some n ∧
      (⟨q.ref, bytes, q.cls == 0⟩ : Resident) ∈ (u.core n).tables := by
  obtain ⟨c, y, rfl⟩ := State.place_parts h
  obtain ⟨p, hp, href⟩ := hq
  obtain ⟨t, ht⟩ : ∃ t, t = (s.setCore c { s.core c with tables := (s.core c).tables ++ [⟨q.ref, bytes, q.cls == 0⟩] }).atUnits
    q.ref c y := ⟨_, rfl⟩
  rw [← ht]
  obtain ⟨n, hn⟩ := queries_joinWindow t { q with core := some c, cryst := y }
  have hcores : (t.joinWindow { q with core := some c, cryst := y }).cores = t.cores :=
    (Within.joinWindow t _).get State.cores fun _ => rfl
  have hmem : { p with core := some c, cryst := y } ∈ t.queries :=
    ht ▸ List.mem_map.mpr ⟨p, hp, if_pos href⟩
  refine ⟨{ { p with core := some c, cryst := y } with window := some n }, c, ?_, href, rfl, ?_⟩
  · rw [hn]
    exact List.mem_map.mpr ⟨_, hmem, if_pos href⟩
  · rw [State.core, hcores, ht]
    change _ ∈ (FMap.getD (FMap.set s.cores c _) c Core.reset).tables
    rw [FMap.getD_set_self]
    exact List.mem_append_right _ List.mem_cons_self

theorem waiter_mem (h : s.waiter = some q) : q ∈ s.queries ∧ q.cls ≠ 0 := by
  have hmem := List.mem_of_find?_eq_some h
  have hwaits : q ∈ s.queries.filter (fun q => q.core.isNone && q.cls != 0) :=
    (List.mem_append.mp hmem).elim List.mem_of_mem_filter List.mem_of_mem_filter
  obtain ⟨hq, hcond⟩ := List.mem_filter.mp hwaits
  rw [Bool.and_eq_true, bne_iff_ne] at hcond
  exact ⟨hq, hcond.2⟩

/-- R270: a query behind the others, in the order of placement. -/
def State.movedBack (s : State) (r : QRef) : State :=
  s.setQueries (s.queries.filter (fun p => p.ref != r) ++ s.queries.filter (fun p => p.ref == r))

theorem perm_movedBack (s : State) (r : QRef) : (s.movedBack r).queries.Perm s.queries := by
  have hperm := List.filter_append_perm (fun p : Query => p.ref != r) s.queries
  have hnot : (fun p : Query => !(p.ref != r)) = fun p => p.ref == r := funext fun p => by rw [bne, Bool.not_not]
  rw [hnot] at hperm
  exact hperm

theorem exec_tableAreaPlacement (hc : s.completing = true) (hw : s.waiter = some q)
    (hp : s.place q (s.queryTable q) = some u) : exec .tableAreaPlacement s = .next ((u.movedBack q.ref).afterPlacing q) := by
  change execTableAreaPlacement s = _
  unfold execTableAreaPlacement
  rw [hc, hw]
  dsimp only
  rw [hp]
  rfl

theorem tableAreaPlacement_placed (hc : s.completing = true) (hw : s.waiter = some q)
    (hp : s.place q (s.queryTable q) = some u) : ∃ (t : State) (p : Query) (n : Nat), exec .tableAreaPlacement s = .next t ∧
      p ∈ t.queries ∧ p.ref = q.ref ∧ p.core = some n ∧ (⟨q.ref, s.queryTable q, false⟩ : Resident) ∈ (t.core n).tables ∧
      (t.queries.map (fun r => r.ref)).Perm (s.queries.map (fun r => r.ref)) ∧ t.cmds = s.cmds ∧ t.indexes = s.indexes ∧
      s.ringsKept t := by
  obtain ⟨hq, hcls⟩ := waiter_mem hw
  obtain ⟨p, n, hpu, href, hcore, hres⟩ := place_stands hp ⟨q, hq, rfl⟩
  have hafter := Within.afterPlacing (u.movedBack q.ref) q
  have hwithin : Within [.fields, .queries, .windows, .nextWindow, .cores] s ((u.movedBack q.ref).afterPlacing q) :=
    ((Within.place hp).then (Within.setQueries u _) (by decide)).then hafter (by decide)
  have hqueries : ((u.movedBack q.ref).afterPlacing q).queries = (u.movedBack q.ref).queries := hafter.get State.queries fun _ => rfl
  have hcores : ((u.movedBack q.ref).afterPlacing q).cores = u.cores := hafter.get State.cores fun _ => rfl
  refine ⟨_, p, n, exec_tableAreaPlacement hc hw hp, ?_, href, hcore, ?_, ?_, hwithin.get State.cmds fun _ => rfl,
    hwithin.get State.indexes fun _ => rfl, State.ringsKept_of_rings_eq (hwithin.get State.rings fun _ => rfl)⟩
  · rw [hqueries]
    exact (perm_movedBack u q.ref).mem_iff.mpr hpu
  · rw [beq_eq_false_iff_ne.mpr hcls] at hres
    rw [State.core, hcores]
    exact hres
  · rw [hqueries]
    refine ((perm_movedBack u q.ref).map _).trans (.of_eq ?_)
    rw [(asks_place hp).refs, List.map_nil, List.append_nil]

end placement

/-! #### COULTER_TILE (R281, R787) -/

/-- R281: the query has its first lists by coarse key. -/
def Selected (s : State) (q p : Query) : Prop :=
  ∀ x, s.index? q.field q.index = some x → ∃ way : SumWay, p.coulterDone = true ∧
    p.lists = pickLists q.nprobe (x.coarse way q.vec).1 ∧ (x.modeA = false → way = fixedWay x.p)

/-- Numbers drawn of what the manual leaves open. -/
def State.drawnMany (s : State) (n : Nat) : State := { s with fresh := s.fresh + n }

theorem Within.drawnMany (s : State) (n : Nat) : Within [.fresh] s (s.drawnMany n) := rfl

theorem reads_drawnMany (s : State) (n : Nat) : Reads s (s.drawnMany n) := .of_within (Within.drawnMany s n) rfl rfl rfl

theorem queries_sendParts (l : List (Nat × Nat)) (s : State) (vc : Nat) (g : Nat × Nat → Bytes) :
    (l.foldl (fun s p => s.sendMessage p.2 msgSEARCH_PART vc (g p)) s).queries = s.queries :=
  (Works.foldl (fun t (p : Nat × Nat) => reads_sendMessage t p.2 msgSEARCH_PART vc (g p)) l s).queries

/-- R585: dividing a query among copies keeps its name and its lists. -/
theorem queries_splitQuery (s : State) (key : Nat) (x : Index) (q : Query) : ∃ b : Query, b.ref = q.ref ∧
    b.coulterDone = q.coulterDone ∧ b.lists = q.lists ∧ (s.splitQuery key x q).queries = (s.putQuery b).queries := by
  unfold State.splitQuery
  split
  · exact ⟨q, rfl, rfl, rfl, rfl⟩
  · split
    · split
      · exact ⟨q, rfl, rfl, rfl, (reads_askRuns _ x q q.lists []).queries⟩
      · exact ⟨{ q with ownSlots := some [], flags := q.flags ||| flDEGRADED }, rfl, rfl, rfl, rfl⟩
    · dsimp only
      refine ⟨_, ?_, ?_, ?_, queries_sendParts _ _ _ _⟩ <;> rfl

theorem coarseSelect_of_index {s : State} {q : Query} {x : Index} (hx : s.index? q.field q.index = some x) :
    ∃ (t : State) (b : Query) (a : Acc), Reads s t ∧ b.ref = q.ref ∧ Selected s q b ∧
      s.coarseSelect q = (t.splitQuery (indexKey q.field q.index) x b).queryReplays q.ref q.field a := by
  obtain ⟨t, ht⟩ : ∃ t, t = s.askRuns x q [] [] := ⟨_, rfl⟩
  have hask : Reads s t := ht ▸ reads_askRuns s x q [] []
  refine ⟨if x.modeA then t.drawnMany x.p.nlist else t,
    { q with coulterDone := true, lists := pickLists q.nprobe (x.coarse (x.searchWay t.fresh) q.vec).1,
             flags := q.flags ||| (x.coarse (x.searchWay t.fresh) q.vec).2.fl },
    (x.coarse (x.searchWay t.fresh) q.vec).2, hask.trans (.ite (reads_drawnMany t _) (.refl _ t)), rfl, fun y hy => ?_, ?_⟩
  · rw [hx] at hy
    cases hy
    refine ⟨x.searchWay t.fresh, rfl, rfl, fun hmode => ?_⟩
    rw [Index.searchWay, hmode, if_neg Bool.false_ne_true]
  · unfold State.coarseSelect
    rw [hx, ht]
    rfl

/-- R281, R282: coarse selection gives each query of a tile its lists. -/
theorem serves_coarseSelect {s : State} {l : List Query} (hx : ∀ q ∈ l, ∃ x, s.index? q.field q.index = some x)
    (hf : ∀ q ∈ l, s.forcedReplays q.field = 0) : Serves (Selected s) State.coarseSelect s l := by
  have hstep (t : State) (q : Query) (ht : Stages s t) (hq : q ∈ l) : Stages t (t.coarseSelect q) ∧
      Puts (Selected s) t q (t.coarseSelect q) := by
    obtain ⟨x, hxq⟩ := hx q hq
    obtain ⟨u, b, a, hu, href, hsel, heq⟩ := coarseSelect_of_index ((ht.index? _ _).trans hxq)
    have hsplit := hu.stages.trans (stages_splitQuery u (indexKey q.field q.index) x b)
    rw [heq, queryReplays_of_none ((hsplit.forcedReplays _).trans ((ht.forcedReplays _).trans (hf q hq)))]
    refine ⟨hsplit.trans (reads_noteReplays _ _ _).stages, ?_⟩
    obtain ⟨c, hcref, hcdone, hclists, hcq⟩ := queries_splitQuery u (indexKey q.field q.index) x b
    refine ⟨c, hcref.trans href, fun y hy => ?_, ?_⟩
    · obtain ⟨way, hdone, hlists, hway⟩ := hsel y ((ht.index? _ _).trans hy)
      exact ⟨way, hcdone.trans hdone, hclists.trans hlists, hway⟩
    · refine (reads_noteReplays _ q.field a |>.queries).trans (hcq.trans ?_)
      rw [State.putQuery, hu.queries]
      rfl
  exact ⟨fun t q ht hq => (hstep t q ht hq).1, fun t q ht hq => (hstep t q ht hq).2⟩

/-- R787: the queries of a tile are of one index. -/
theorem nextTile_kind (s : State) : ∃ f i, ∀ q ∈ s.nextTile, q ∈ s.queries ∧ q.field = f ∧ q.index = i := by
  unfold State.nextTile
  dsimp only
  split
  · exact ⟨0, 0, fun q hq => nomatch hq⟩
  · next b _ =>
    refine ⟨b.field, b.index, fun q hq => ?_⟩
    obtain ⟨hwait, hcond⟩ := List.mem_filter.mp (List.mem_of_mem_take hq)
    simp only [Bool.and_eq_true, beq_iff_eq] at hcond
    exact ⟨List.mem_of_mem_filter hwait, hcond.1.1, hcond.1.2⟩

theorem exec_coulterTile {s : State} {h : Query} {x : Index} (hup : s.unitWorks 1 0 = true ∨ s.unitWorks 1 1 = true)
    (h0 : s.unitHeld 1 0 = false) (h1 : s.unitHeld 1 1 = false) (hh : s.nextTile.head? = some h)
    (hx : s.index? h.field h.index = some x) (hgood : s.coarseFault h = false)
    (hretrain : s.retrains h.field (centroidSpans h.index x.p (s.cfg h.field).mapHash) = false)
    (hread : (s.scoreRows h x s.nextTile).coarseFault h = false) :
    exec .coulterTile s = .next ((s.nextTile.foldl State.coarseSelect (s.scoreRows h x s.nextTile)).prefetch h) := by
  have hcoulters : s.coultersUp.isEmpty = false := by
    refine List.isEmpty_eq_false_iff_exists_mem.mpr ?_
    rcases hup with hup | hup
    · exact ⟨0, List.mem_filter.mpr ⟨by decide, hup⟩⟩
    · exact ⟨1, List.mem_filter.mpr ⟨by decide, hup⟩⟩
  have hheld : ([0, 1] : List Nat).any (s.unitHeld 1) = false := by
    rw [List.any_cons, List.any_cons, h0, h1]
    rfl
  obtain ⟨rest, htile⟩ := List.head?_eq_some_iff.mp hh
  change execCoulterTile s = _
  unfold execCoulterTile State.scoreTile
  rw [hcoulters, hheld, htile]
  dsimp only
  rw [hx]
  dsimp only
  rw [htile] at hread
  simp only [hretrain, hgood, hread, Bool.or_false, Bool.false_eq_true, if_false]

theorem coulterTile_selects {s : State} {h : Query} {y : Index} (hup : s.unitWorks 1 0 = true ∨ s.unitWorks 1 1 = true)
    (h0 : s.unitHeld 1 0 = false) (h1 : s.unitHeld 1 1 = false) (hnodup : (s.queries.map (fun r => r.ref)).Nodup)
    (hh : s.nextTile.head? = some h) (hy : s.index? h.field h.index = some y) (hgood : s.coarseFault h = false)
    (hretrain : s.retrains h.field (centroidSpans h.index y.p (s.cfg h.field).mapHash) = false)
    (hread : (s.scoreRows h y s.nextTile).coarseFault h = false) (hreplay : s.forcedReplays h.field = 0) :
    ∃ t : State, exec .coulterTile s = .next t ∧ Stages s t ∧ ∀ q ∈ s.nextTile, Stands (Selected s) t q := by
  obtain ⟨f, i, hkind⟩ := nextTile_kind s
  obtain ⟨_, hf, hi⟩ := hkind h (List.mem_of_mem_head? hh)
  have hscore := reads_scoreRows s h y s.nextTile
  have hserves : Serves (Selected s) State.coarseSelect s s.nextTile := by
    refine serves_coarseSelect (fun q hq => ⟨y, ?_⟩) fun q hq => ?_ <;> obtain ⟨_, hqf, hqi⟩ := hkind q hq
    · rw [hqf, hqi, ← hf, ← hi]
      exact hy
    · rw [hqf, ← hf]
      exact hreplay
  have hsel := hserves.foldl_works hscore.stages
  have hpre := reads_prefetch (s.nextTile.foldl State.coarseSelect (s.scoreRows h y s.nextTile)) h
  refine ⟨_, exec_coulterTile hup h0 h1 hh hy hgood hretrain hread, (hscore.stages.trans hsel).trans hpre.stages, fun q hq => ?_⟩
  have hstands : Stands (Selected s) (s.nextTile.foldl State.coarseSelect (s.scoreRows h y s.nextTile)) q :=
    hserves.foldl_stands hscore.stages (fun a ha href => List.inj_on_of_nodup_map hnodup (hkind a ha).1 (hkind q hq).1 href)
      ⟨q, hscore.queries.symm ▸ (hkind q hq).1, rfl⟩ (.inl hq)
  obtain ⟨p, hp, hpq, hP⟩ := hstands
  exact ⟨p, hpre.queries.symm ▸ hp, hpq, hP⟩

/-! #### DISTANCE_TABLE_BUILD (R283) -/

/-- A query with its table built. -/
def Query.withTable (q : Query) (x : Index) : Query :=
  { q with table := some (x.buildTable q.vec q.t8).1, flags := q.flags ||| (x.buildTable q.vec q.t8).2.fl }

section table
variable {s : State} {n : Nat} {q : Query} {x : Index}

theorem exec_distanceTableBuild (hn : n < 8) (hw : s.unitWorks 2 n = true) (hq : firstBuilt s.tableDue = some q)
    (hx : s.index? q.field q.index = some x) (hgood : s.spanFault q.field (codebookSpan q.index x.p) = false)
    (hretrain : s.retrains q.field [codebookSpan q.index x.p] = false)
    (hread : (s.readSpans q.field q.cls (unitKey 2 n) false [codebookSpan q.index x.p]).spanFault q.field
      (codebookSpan q.index x.p) = false) :
    exec (.distanceTableBuild n) s =
      .next (((s.readSpans q.field q.cls (unitKey 2 n) false [codebookSpan q.index x.p]).putQuery (q.withTable x)).queryReplays
        q.ref q.field (x.buildTable q.vec q.t8).2) := by
  change execDistanceTableBuild n s = _
  unfold execDistanceTableBuild
  rw [if_neg (Nat.not_le_of_gt hn), hw, hq]
  dsimp only
  rw [hx]
  simp only [hretrain, hgood, hread, Bool.not_true, Bool.false_eq_true, if_false]
  rfl

theorem distanceTableBuild_builds (hn : n < 8) (hw : s.unitWorks 2 n = true) (hq : firstBuilt s.tableDue = some q)
    (hx : s.index? q.field q.index = some x) (hgood : s.spanFault q.field (codebookSpan q.index x.p) = false)
    (hretrain : s.retrains q.field [codebookSpan q.index x.p] = false) (hreplay : s.forcedReplays q.field = 0)
    (hread : (s.readSpans q.field q.cls (unitKey 2 n) false [codebookSpan q.index x.p]).spanFault q.field
      (codebookSpan q.index x.p) = false) :
    ∃ t : State, exec (.distanceTableBuild n) s = .next t ∧
      t.queries = s.queries.map (fun p => if p.ref = q.ref then q.withTable x else p) ∧ Stages s t := by
  have hspans := reads_readSpans s q.field q.cls (unitKey 2 n) false [codebookSpan q.index x.p]
  have hexec := exec_distanceTableBuild hn hw hq hx hgood hretrain hread
  have hput := hspans.stages.trans (stages_putQuery _ (q.withTable x))
  have hnote := reads_noteReplays ((s.readSpans q.field q.cls (unitKey 2 n) false [codebookSpan q.index x.p]).putQuery (q.withTable x))
    q.field (x.buildTable q.vec q.t8).2
  rw [queryReplays_of_none ((hput.forcedReplays _).trans hreplay)] at hexec
  refine ⟨_, hexec, hnote.queries.trans ?_, hput.trans hnote.stages⟩
  rw [State.putQuery, hspans.queries]
  rfl

end table

/-! #### SOWING_WINDOW_CLOSE (R272) -/

theorem closeWindow_of_open {s : State} {n : Nat} {w : Window} (hw : FMap.get? s.windows n = some w) (hopen : w.closed = false) :
    s.closeWindow n = (s.setWindow n { w with closed := true }).countField w.field 14 1 := by
  unfold State.closeWindow
  rw [hw]
  dsimp only
  rw [hopen, if_neg Bool.false_ne_true]

theorem sowingWindowClose_closes {s : State} {f i : Nat} {classX : Bool} {n : Nat} {w : Window} (hc : s.completing = true)
    (hopen : s.openWindow f i classX = some (n, w)) (hw : FMap.get? s.windows n = some w) :
    ∃ t : State, exec (.sowingWindowClose f i classX) s = .next t ∧
      t.windows = FMap.set s.windows n { w with closed := true } ∧ t.tbk = max s.tbk (w.openAt + w.sowingUs * 1000) ∧
      t.queries = s.queries ∧ t.cmds = s.cmds ∧ t.indexes = s.indexes := by
  obtain ⟨_, _, _, _, hclosed⟩ := openWindow_kind hopen
  obtain ⟨u, hu⟩ : ∃ u, u = s.advance (w.openAt + w.sowingUs * 1000) := ⟨_, rfl⟩
  have hexec : exec (.sowingWindowClose f i classX) s = .next (u.closeWindow n) := by
    change execSowingWindowClose f i classX s = _
    unfold execSowingWindowClose
    rw [hc, hopen, hu]
    rfl
  rw [closeWindow_of_open (hu ▸ hw) hclosed] at hexec
  have hcount := Within.countField (u.setWindow n { w with closed := true }) w.field 14 1
  refine ⟨_, hexec, (hcount.get State.windows fun _ => rfl).trans ?_, (hcount.get State.tbk fun _ => rfl).trans ?_,
    (hcount.get State.queries fun _ => rfl).trans ?_, (hcount.get State.cmds fun _ => rfl).trans ?_,
    (hcount.get State.indexes fun _ => rfl).trans ?_⟩ <;> rw [hu] <;> rfl

/-! #### The passes of a window (R275) -/

section passes
variable {s : State} {x : Index} {qs : List Query} {l : Nat} {p : ListPass} {q : Query}

theorem mem_visitorsOf {v : Query × Image} : v ∈ visitorsOf x qs l ↔
    ∃ q ∈ qs, l ∈ q.lists ∧ q.scansNothing = false ∧ v = (q, (x.list l).imageFor q.epoch q.order) := by
  unfold visitorsOf
  rw [List.mem_map]
  refine exists_congr fun q => ?_
  rw [List.mem_filter, Bool.and_eq_true, List.contains_iff_mem, Bool.not_eq_true', and_assoc, and_assoc, eq_comm (a := v)]

/-- R275: a pass reads one list, for queries that have it among theirs. -/
theorem passesOf_sound (hp : p ∈ passesOf x qs l) : p.list = l ∧ ∀ r ∈ p.visitors, ∃ q ∈ qs, q.ref = r ∧ l ∈ q.lists := by
  obtain ⟨m, _, rfl⟩ := List.mem_map.mp hp
  refine ⟨rfl, fun r hr => ?_⟩
  obtain ⟨_, hhere, rfl⟩ := List.mem_map.mp hr
  obtain ⟨v, hv, rfl⟩ := List.mem_map.mp hhere
  obtain ⟨q, hq, hlist, _, rfl⟩ := mem_visitorsOf.mp (List.mem_of_mem_filter hv)
  exact ⟨q, hq, rfl, hlist⟩

/-- R275: a query that scans its lists visits each in a pass. -/
theorem passesOf_complete (hq : q ∈ qs) (hscan : q.scansNothing = false) (hl : l ∈ q.lists) :
    ∃ p ∈ passesOf x qs l, p.list = l ∧ q.ref ∈ p.visitors := by
  have hv : (q, (x.list l).imageFor q.epoch q.order) ∈ visitorsOf x qs l := mem_visitorsOf.mpr ⟨q, hq, hl, hscan, rfl⟩
  refine ⟨_, List.mem_map.mpr ⟨(x.list l).imageFor q.epoch q.order, List.mem_eraseDups.mpr (List.mem_map_of_mem hv), rfl⟩, rfl, ?_⟩
  exact List.mem_map.mpr ⟨q, List.mem_map.mpr ⟨_, List.mem_filter.mpr ⟨hv, beq_self_eq_true _⟩, rfl⟩, rfl⟩

/-- The passes of a window in the order in which they start (R276). -/
def windowPasses (x : Index) (qs : List Query) : List ListPass :=
  sortLt ListPass.before (((qs.flatMap (fun q => q.lists)).eraseDups).flatMap (passesOf x qs))

theorem mem_windowPasses : p ∈ windowPasses x qs ↔ ∃ l, (∃ q ∈ qs, l ∈ q.lists) ∧ p ∈ passesOf x qs l := by
  rw [windowPasses, mem_sortLt, List.mem_flatMap]
  refine exists_congr fun l => and_congr_left' ?_
  rw [List.mem_eraseDups, List.mem_flatMap]

theorem windowPasses_sound (hp : p ∈ windowPasses x qs) : ∀ r ∈ p.visitors, ∃ q ∈ qs, q.ref = r ∧ p.list ∈ q.lists := by
  obtain ⟨l, _, hl⟩ := mem_windowPasses.mp hp
  obtain ⟨rfl, hvisitors⟩ := passesOf_sound hl
  exact hvisitors

theorem windowPasses_complete (hq : q ∈ qs) (hscan : q.scansNothing = false) (hl : l ∈ q.lists) :
    ∃ p ∈ windowPasses x qs, p.list = l ∧ q.ref ∈ p.visitors := by
  obtain ⟨p, hp, hlist, href⟩ := passesOf_complete (x := x) hq hscan hl
  exact ⟨p, mem_windowPasses.mpr ⟨l, ⟨q, hq, hl⟩, hp⟩, hlist, href⟩

theorem Within.formPasses (s : State) (n : Nat) (w : Window) (x : Index) (qs : List Query) :
    Within [.queries, .cores, .trace, .counters] (s.setWindow n { w with formed := true, passes := windowPasses x qs })
      (s.formPasses n w x qs) := by
  obtain ⟨u, hu⟩ : ∃ u, u = s.setWindow n { w with formed := true, passes := windowPasses x qs } := ⟨_, rfl⟩
  have hfold : Within [.queries, .cores, .trace, .counters] u
      (qs.foldl (fun s q => if q.scansNothing then s.dropTable q.ref else s.putQuery { q with todo := q.lists }) u) :=
    Within.foldl _ _ (fun t q h => .ite (h.then (.dropTable t q.ref) (by decide)) (h.then (.putQuery t _) (by decide))) (.refl _ u)
  rw [← hu]
  have htrace := hfold.then (Within.traceRec _ 3 w.field noUnit (BitVec.ofNat 64 w.index)
    (traceWord 3 1 qs.length (windowPasses x qs).length)) (by decide)
  rw [hu] at htrace ⊢
  exact htrace

theorem exec_listPass {n : Nat} {w : Window} (hc : s.completing = true) (hw : FMap.get? s.windows n = some w)
    (hx : s.index? w.field w.index = some x) : exec (.listPass n) s =
      if w.ready (w.queries.filterMap s.query?) then .next (s.formPasses n w x (w.queries.filterMap s.query?))
      else match w.passes.find? (fun p => !s.readerHalted (.pass n p.list p.e0)) with
        | none => .next s
        | some p => if s.passHeld p || s.passBehind n p || s.yields w then .next s else .next (s.runPass n w p x) := by
  change execListPass n s = _
  unfold execListPass
  rw [hw]
  dsimp only
  rw [hx, hc]
  rfl

theorem listPass_forms {n : Nat} {w : Window} (hc : s.completing = true) (hw : FMap.get? s.windows n = some w)
    (hx : s.index? w.field w.index = some x) (hready : w.ready (w.queries.filterMap s.query?) = true) :
    ∃ (t : State) (v : Window), exec (.listPass n) s = .next t ∧ FMap.get? t.windows n = some v ∧
      v.formed = true ∧ v.queries = w.queries ∧
      (∀ p ∈ v.passes, ∀ r ∈ p.visitors, ∃ q ∈ w.queries.filterMap s.query?, q.ref = r ∧ p.list ∈ q.lists) ∧
      (∀ q ∈ w.queries.filterMap s.query?, q.scansNothing = false → ∀ l ∈ q.lists, ∃ p ∈ v.passes, p.list = l ∧ q.ref ∈ p.visitors) ∧
      t.cmds = s.cmds ∧ t.indexes = s.indexes := by
  have hform := Within.formPasses s n w x (w.queries.filterMap s.query?)
  refine ⟨_, { w with formed := true, passes := windowPasses x (w.queries.filterMap s.query?) },
    (exec_listPass hc hw hx).trans (if_pos hready), ?_, rfl, rfl, fun p hp => windowPasses_sound hp,
    fun q hq hscan l hl => windowPasses_complete hq hscan hl, (hform.get State.cmds fun _ => rfl).trans rfl,
    (hform.get State.indexes fun _ => rfl).trans rfl⟩
  rw [hform.get State.windows fun _ => rfl]
  exact FMap.get?_set_self _ _ _

end passes

/-! #### A pass over a list (R275 to R278, R287 to R291) -/

/-- The list is behind the visitor, and it keeps at most k′ candidates. -/
def Visited (l : Nat) (q p : Query) : Prop :=
  p.todo = q.todo.erase l ∧ p.cands.length ≤ q.slots ∧ p.k = q.k ∧ p.epoch = q.epoch

theorem queries_listDone (s : State) (q : Query) (l : Nat) :
    (s.listDone q l).queries = (s.putQuery { q with todo := q.todo.erase l }).queries := by
  unfold State.listDone
  dsimp only
  split <;> rfl

theorem length_keep_le (q : Query) (new : List Cand) : (q.keep new).length ≤ q.slots := List.length_take_le _ _

/-- R289, R290, R296: what serving one visitor comes to. -/
theorem visit_of_table {s : State} {x : Index} {l : Nat} {q : Query} {tab : QTable} (htab : q.table = some tab) :
    ∃ (u : State) (b : Query) (new : List Cand) (a : Acc), Reads s u ∧ b.ref = q.ref ∧ b.field = q.field ∧
      Visited l q { b with todo := b.todo.erase l } ∧
      s.visit x l q = ((u.listDone b l).gatherAhead x b new).queryReplays b.ref b.field a := by
  obtain ⟨r, hr⟩ : ∃ r, r = q.scan x (x.searchWay s.fresh) tab ((x.list l).imageFor q.epoch q.order) := ⟨_, rfl⟩
  obtain ⟨t, ht⟩ : ∃ t, t = if x.modeA then { s with fresh := s.fresh + r.sent } else s := ⟨_, rfl⟩
  have hdrawn : Reads s t := ht ▸ .ite (reads_drawnMany s _) (.refl _ s)
  obtain ⟨c, hc⟩ : ∃ c, c = t.carry (q.ref.work l) (unitKey 0 (q.core.getD 0)) (unitKey 5 q.cryst) q.field r.new := ⟨_, rfl⟩
  have hcarry : Reads t c.1 := hc ▸ reads_carry t _ _ _ _ _
  obtain ⟨b, hb⟩ : ∃ b : Query, b = { r.q with cands := q.keep c.2 } := ⟨_, rfl⟩
  refine ⟨(c.1.countField b.field 11 r.considered).countField b.field 12 r.sent, b, r.new, r.acc,
    ((hdrawn.trans hcarry).trans (reads_countField _ _ _ _)).trans (reads_countField _ _ _ _), ?_, ?_, ⟨?_, ?_, ?_, ?_⟩, ?_⟩
  · rw [hb, hr]
    rfl
  · rw [hb, hr]
    rfl
  · rw [hb, hr]
    rfl
  · rw [hb]
    exact length_keep_le q c.2
  · rw [hb, hr]
    rfl
  · rw [hb, hr]
    rfl
  · unfold State.visit
    rw [htab]
    dsimp only
    have hbref : b.ref = r.q.ref := by rw [hb]
    have hbfield : b.field = r.q.field := by rw [hb]
    rw [← hr, ← ht, ← hc, ← hb, hbref, hbfield]

theorem serves_visit {s : State} {x : Index} {l : Nat} {qs : List Query} (htab : ∀ q ∈ qs, q.table ≠ none)
    (hf : ∀ q ∈ qs, s.forcedReplays q.field = 0) : Serves (Visited l) (fun s q => s.visit x l q) s qs := by
  have hstep (t : State) (q : Query) (ht : Stages s t) (hq : q ∈ qs) : Stages t (t.visit x l q) ∧
      Puts (Visited l) t q (t.visit x l q) := by
    obtain ⟨tab, htab⟩ := Option.ne_none_iff_exists'.mp (htab q hq)
    obtain ⟨u, b, new, a, hu, href, hfield, hvisited, heq⟩ := visit_of_table (s := t) (x := x) (l := l) htab
    have hdone := hu.stages.trans (stages_listDone u b l)
    have hgather := reads_gatherAhead (u.listDone b l) x b new
    have hnote := reads_noteReplays ((u.listDone b l).gatherAhead x b new) b.field a
    rw [heq, queryReplays_of_none (((hdone.trans hgather.stages).forcedReplays _).trans ((ht.forcedReplays _).trans (hfield ▸ hf q hq)))]
    refine ⟨(hdone.trans hgather.stages).trans hnote.stages, { b with todo := b.todo.erase l }, href, hvisited, ?_⟩
    refine (hnote.queries.trans hgather.queries).trans ((queries_listDone u b l).trans ?_)
    rw [State.putQuery, hu.queries]
    rfl
  exact ⟨fun t q ht hq => (hstep t q ht hq).1, fun t q ht hq => (hstep t q ht hq).2⟩

theorem mem_serveOrder {vs : List Query} {q : Query} : q ∈ serveOrder vs ↔ q ∈ vs := by
  rw [serveOrder, List.mem_append, mem_sortLt, List.mem_filter, List.mem_filter]
  by_cases hcls : q.cls = 0
  · simp only [hcls, beq_self_eq_true, and_true, bne_self_eq_false, Bool.false_eq_true, and_false, or_false]
  · simp only [beq_eq_false_iff_ne.mpr hcls, bne_iff_ne.mpr hcls, Bool.false_eq_true, and_false, and_true, false_or]

theorem stages_startPass (s : State) (n : Nat) (w : Window) (p : ListPass) (blocks : Nat) : Stages s (s.startPass n w p blocks) :=
  .ite (.refl _ s) ((Works.of_within (Within.setWindow s n _) rfl rfl rfl).trans (reads_traceRec _ _ _ _ _ _).stages)

/-- The pass is no longer among those of its window. -/
def State.endedPass (s : State) (n : Nat) (p : ListPass) : State :=
  match FMap.get? s.windows n with
  | none => s
  | some v => s.setWindow n { v with passes := v.passes.filter (fun y => !y.same p) }

theorem Within.endedPass (s : State) (n : Nat) (p : ListPass) : Within [.windows] s (s.endedPass n p) := by
  unfold State.endedPass
  split
  · exact .refl _ s
  · exact .setWindow s n _

theorem passes_endedPass {s : State} {n : Nat} {p : ListPass} {v : Window} (h : FMap.get? (s.endedPass n p).windows n = some v) :
    ∀ y ∈ v.passes, ¬ (y.list = p.list ∧ y.e0 = p.e0 ∧ y.visitors = p.visitors) := by
  unfold State.endedPass at h
  split at h
  · next hnone => exact nomatch hnone.symm.trans h
  · next u _ =>
    obtain rfl := Option.some.inj ((FMap.get?_set_self _ _ _).symm.trans h)
    intro y hy hsame
    obtain ⟨_, hcond⟩ := List.mem_filter.mp hy
    simp only [ListPass.same, hsame, beq_self_eq_true, Bool.and_self, Bool.not_true, Bool.false_eq_true] at hcond

section pass
variable {s : State} {n : Nat} {w : Window} {p : ListPass} {x : Index}

/-- What the end of a pass leaves, where its visitors have their tables and no replay is forced. -/
theorem endPass_ends {vs : List Query} (htab : ∀ q ∈ vs, q.table ≠ none) (hf : ∀ q ∈ vs, s.forcedReplays q.field = 0)
    (hone : ∀ a ∈ vs, ∀ b ∈ vs, a.ref = b.ref → a = b) (hin : ∀ q ∈ vs, q ∈ s.queries) (blocks : Nat) :
    Stages s (s.endPass n w p x vs blocks) ∧ (∀ q ∈ vs, Stands (Visited p.list) (s.endPass n w p x vs blocks) q) ∧
      ∀ v, FMap.get? (s.endPass n w p x vs blocks).windows n = some v →
        ∀ y ∈ v.passes, ¬ (y.list = p.list ∧ y.e0 = p.e0 ∧ y.visitors = p.visitors) := by
  have hserves : Serves (Visited p.list) (fun s q => s.visit x p.list q) s (serveOrder vs) :=
    serves_visit (fun q hq => htab q (mem_serveOrder.mp hq)) (fun q hq => hf q (mem_serveOrder.mp hq))
  have hstart := stages_startPass s n w p blocks
  have hqueries : (s.startPass n w p blocks).queries = s.queries := by
    unfold State.startPass
    split
    · rfl
    · exact (Within.traceRec _ _ _ _ _ _).get State.queries fun _ => rfl
  obtain ⟨u, hu⟩ : ∃ u, u = (serveOrder vs).foldl (fun s q => s.visit x p.list q) (s.startPass n w p blocks) := ⟨_, rfl⟩
  have hfold : Stages (s.startPass n w p blocks) u := hu ▸ hserves.foldl_works hstart
  have hended := Within.endedPass u n p
  have hcount := (reads_countField (u.endedPass n p) w.field 13 1).trans (reads_traceRec _ 4 w.field noUnit
    (traceWord 4 0 w.index p.list) (traceWord 4 1 p.visitors.length blocks))
  have heq : s.endPass n w p x vs blocks = ((u.endedPass n p).countField w.field 13 1).traceRec 4 w.field noUnit
      (traceWord 4 0 w.index p.list) (traceWord 4 1 p.visitors.length blocks) := by
    rw [hu]
    rfl
  rw [heq]
  refine ⟨((hstart.trans hfold).trans (.of_within hended rfl rfl rfl)).trans hcount.stages, fun q hq => ?_, fun v hv => ?_⟩
  · have hstands : Stands (Visited p.list) u q := hu ▸ hserves.foldl_stands hstart
      (fun a ha href => hone a (mem_serveOrder.mp ha) q hq href) ⟨q, hqueries.symm ▸ hin q hq, rfl⟩ (.inl (mem_serveOrder.mpr hq))
    obtain ⟨r, hr, href, hP⟩ := hstands
    refine ⟨r, ?_, href, hP⟩
    rw [hcount.queries, hended.get State.queries fun _ => rfl]
    exact hr
  · rw [hcount.windows] at hv
    exact passes_endedPass hv

theorem visitSpans_congr {t : State} {l : Nat} {q : Query} (h : t.cfg q.field = s.cfg q.field) :
    t.visitSpans x l q = s.visitSpans x l q := by
  unfold State.visitSpans State.sideSpans State.imageStream
  rw [h]

/-- The class at which a pass reads. -/
def passClass (w : Window) (vs : List Query) : Nat := if vs.any (fun q => q.cls == 0) then 0 else if w.classX then 2 else 1

/-- The core for which a pass reads. -/
def passCore (vs : List Query) : Nat := unitKey 0 ((vs.head?.bind (fun q => q.core)).getD 0)

theorem segments_dropReader (s : State) (me : Reader) (f : Nat) (xs : List Span) :
    ∀ off, (s.dropReader me).segments f off xs = s.segments f off xs := by
  induction xs with
  | nil => exact fun _ => rfl
  | cons a xs ih =>
    intro off
    rw [State.segments, ih, State.segments]
    rfl

theorem passAway_dropReader (s : State) (me : Reader) (f : Nat) (done : List Nat) (r : PassReads) :
    (s.dropReader me).passAway f done r = s.passAway f done r := by
  unfold State.passAway State.firstAway
  rw [segments_dropReader, segments_dropReader]

theorem retrains_dropReader (s : State) (me : Reader) (f : Nat) (xs : List Span) :
    (s.dropReader me).retrains f xs = s.retrains f xs := by
  unfold State.retrains State.linesOfSpans
  rw [segments_dropReader]
  rfl

/-- A pass that finds whole and resident what it reads goes to its end (R480, R499, R685). -/
theorem runPass_of_whole {vs : List Query} (hvs : p.visitors.filterMap s.query? = vs) {r : PassReads}
    (hr : s.passReads w.field w.index x p.list vs = r) {u : State}
    (hu : (s.dropReader (.pass n p.list p.e0)).readPass w.field (passClass w vs) (passCore vs) r = u)
    (hwhole : ∀ q ∈ vs, ∀ a ∈ s.visitSpans x p.list q, s.spanFault w.field a = false ∧ u.spanFault w.field a = false)
    (hforced : passClass w vs = 0 ∨ p.started = true ∨ s.forcedFault w.field w.index p.list = none)
    (haway : s.passAway w.field p.read r = none) (hretrain : s.retrains w.field (r.side ++ r.need) = false) :
    s.runPass n w p x = u.endPass n w p x vs r.blocks := by
  obtain ⟨v, hv⟩ : ∃ v, v = s.dropReader (.pass n p.list p.e0) := ⟨_, rfl⟩
  have hdrop : Reads s v := hv ▸ .of_within (Within.dropReader s _) rfl rfl rfl
  have hread : Reads v u := hu ▸ hv ▸ reads_readPass _ _ _ _ r
  have hbad (t : State) (ht : Reads s t) (hgood : ∀ q ∈ vs, ∀ a ∈ s.visitSpans x p.list q, t.spanFault w.field a = false) :
      vs.any (fun q => vs.any (fun v => v.ref == q.ref) && (t.visitSpans x p.list q).any (t.spanFault w.field)) = false := by
    refine List.any_eq_false.mpr fun q hq => ?_
    rw [Bool.and_eq_true, visitSpans_congr (ht.cfg q.field)]
    rintro ⟨_, h⟩
    obtain ⟨a, ha, hfault⟩ := List.any_eq_true.mp h
    exact Bool.false_ne_true ((hgood q hq a ha).symm.trans hfault)
  have hbefore := hbad v hdrop fun q hq a ha => by
    rw [hv]
    exact (hwhole q hq a ha).1
  have hafter := hbad u (hdrop.trans hread) fun q hq a ha => (hwhole q hq a ha).2
  have hnone : (if vs.any (fun q => q.cls == 0) || p.started then none else v.forcedFault w.field w.index p.list) = none := by
    rw [ite_eq_left_iff]
    intro h
    rw [Bool.or_eq_true, not_or] at h
    have hcls : passClass w vs ≠ 0 := by
      rw [passClass, if_neg h.1]
      split <;> decide
    rw [hv]
    exact (hforced.resolve_left hcls).resolve_left h.2
  have hpass : (v.readPass w.field (passClass w vs) (passCore vs) r) = u := by rw [hv, hu]
  have haway' : v.passAway w.field p.read r = none := by rw [hv, passAway_dropReader]; exact haway
  have hretrain' : v.retrains w.field (r.side ++ r.need) = false := by rw [hv, retrains_dropReader]; exact hretrain
  have hreads : v.passReads w.field w.index x p.list vs = r := by rw [hv]; exact hr
  have hvisitors : p.visitors.filterMap v.query? = vs := by rw [hv]; exact hvs
  unfold State.runPass
  dsimp only
  rw [← hv, hvisitors, hreads]
  change (if vs.any (fun q => vs.any (fun v => v.ref == q.ref) && (v.visitSpans x p.list q).any (v.spanFault w.field)) then _ else _) = _
  rw [hbefore, if_neg Bool.false_ne_true, hnone]
  generalize (v.segments w.field 0 r.need).head? = g
  dsimp only
  rw [haway']
  dsimp only
  rw [hretrain', if_neg Bool.false_ne_true]
  change (if vs.any (fun q => vs.any (fun v => v.ref == q.ref) &&
      ((v.readPass w.field (passClass w vs) (passCore vs) r).visitSpans x p.list q).any
        ((v.readPass w.field (passClass w vs) (passCore vs) r).spanFault w.field)) then _ else
      (v.readPass w.field (passClass w vs) (passCore vs) r).endPass n w p x vs r.blocks) = _
  rw [hpass, hafter, if_neg Bool.false_ne_true]

end pass

/-- The visitors of a pass stand apart by their names. -/
theorem visitor_query {s : State} {l : List QRef} {q : Query} (hq : q ∈ l.filterMap s.query?) :
    q ∈ s.queries ∧ s.query? q.ref = some q := by
  obtain ⟨r, _, hr⟩ := List.mem_filterMap.mp hq
  have href : q.ref = r := eq_of_beq (List.find?_some (show s.queries.find? (fun q => q.ref == r) = some q from hr) :)
  exact ⟨List.mem_of_find?_eq_some hr, href ▸ hr⟩

section listPass
variable {s : State} {n : Nat} {w : Window} {p : ListPass} {x : Index}

theorem listPass_visits (hc : s.completing = true) (hw : FMap.get? s.windows n = some w) (hx : s.index? w.field w.index = some x)
    (hready : w.ready (w.queries.filterMap s.query?) = false)
    (hp : w.passes.find? (fun p => !s.readerHalted (.pass n p.list p.e0)) = some p) {vs : List Query}
    (hvs : p.visitors.filterMap s.query? = vs) {r : PassReads} (hr : s.passReads w.field w.index x p.list vs = r) {u : State}
    (hu : (s.dropReader (.pass n p.list p.e0)).readPass w.field (passClass w vs) (passCore vs) r = u)
    (hheld : s.passHeld p = false) (hbehind : s.passBehind n p = false) (hyields : s.yields w = false)
    (hgood : ∀ q ∈ vs, q.table ≠ none ∧ s.forcedReplays q.field = 0 ∧
      ∀ a ∈ s.visitSpans x p.list q, s.spanFault w.field a = false ∧ u.spanFault w.field a = false)
    (hforced : passClass w vs = 0 ∨ p.started = true ∨ s.forcedFault w.field w.index p.list = none)
    (haway : s.passAway w.field p.read r = none) (hretrain : s.retrains w.field (r.side ++ r.need) = false) :
    ∃ t : State, exec (.listPass n) s = .next t ∧ (∀ q ∈ vs, Stands (Visited p.list) t q) ∧
      (∀ v, FMap.get? t.windows n = some v → ∀ y ∈ v.passes,
        ¬ (y.list = p.list ∧ y.e0 = p.e0 ∧ y.visitors = p.visitors)) ∧ Stages s t := by
  have hreads : Reads s u := hu ▸ (Works.of_within (Within.dropReader s _) rfl rfl rfl).trans (reads_readPass _ _ _ _ r)
  obtain ⟨hends, hstands, hpasses⟩ := endPass_ends (s := u) (n := n) (w := w) (p := p) (x := x) (vs := vs)
    (fun q hq => (hgood q hq).1) (fun q hq => (hreads.stages.forcedReplays _).trans (hgood q hq).2.1)
    (fun a ha b hb href => by
      have hqa := (visitor_query (hvs ▸ ha)).2
      rw [href, (visitor_query (hvs ▸ hb)).2] at hqa
      exact (Option.some.inj hqa).symm)
    (fun q hq => hreads.queries.symm ▸ (visitor_query (hvs ▸ hq)).1) r.blocks
  refine ⟨_, ?_, hstands, hpasses, hreads.stages.trans hends⟩
  rw [exec_listPass hc hw hx, hready, if_neg Bool.false_ne_true, hp]
  dsimp only
  rw [hheld, hbehind, hyields, runPass_of_whole hvs hr hu (fun q hq => (hgood q hq).2.2) hforced haway hretrain]
  rfl

end listPass

/-- Settles O33, stage by stage: placement, the coarse selection of a tile, a table, the order of lists, and the windows
with the passes that form and run in them. -/
theorem queryScanning : Obligations.QueryScanning := by
  unfold Obligations.QueryScanning
  refine ⟨⟨?_, ?_, ?_, ?_⟩, ?_, ?_⟩
  case refine_1 =>
    intro s u q hc hw hp
    exact tableAreaPlacement_placed hc hw hp
  case refine_2 =>
    intro s h y hup h0 h1 hnodup hh hy hgood hretrain hread hreplay
    obtain ⟨t, hexec, hwork, hsel⟩ := coulterTile_selects hup h0 h1 hnodup hh hy hgood hretrain hread hreplay
    refine ⟨t, hexec, hwork.cmds, hwork.indexes, hwork.rings, fun q hq x hx => ?_⟩
    obtain ⟨p, hp, href, hP⟩ := hsel q hq
    obtain ⟨way, hdone, hlists, hway⟩ := hP x hx
    exact ⟨p, way, hp, href, hdone, hlists, hway⟩
  case refine_3 =>
    intro s n q x hn hw hq hx hgood hretrain hreplay hread
    obtain ⟨t, hexec, hqueries, hwork⟩ := distanceTableBuild_builds hn hw hq hx hgood hretrain hreplay hread
    exact ⟨t, hexec, hqueries, hwork.cmds, hwork.indexes, hwork.rings⟩
  case refine_4 =>
    exact fun n ks hks => ⟨length_pickLists n ks, fun r hr q hq hout hin => before_pickLists hks hr hq hout hin⟩
  case refine_5 =>
    intro s f i classX n w hc hopen hw
    exact sowingWindowClose_closes hc hopen hw
  case refine_6 =>
    intro s n w x hc hw hx qs
    refine ⟨fun hready => listPass_forms hc hw hx hready, ?_⟩
    intro p hready hp vs r cls u hheld hbehind hyields hgood hforced haway hretrain _ _
    obtain ⟨t, hexec, hstands, hpasses, hwork⟩ := listPass_visits hc hw hx hready hp rfl rfl (u := u) rfl hheld hbehind hyields hgood
      hforced haway hretrain
    refine ⟨t, hexec, fun q hq => ?_, hpasses, hwork.cmds, hwork.indexes, hwork.rings⟩
    obtain ⟨v, hv, href, htodo, hcands, hk, hepoch⟩ := hstands q hq
    exact ⟨v, hv, href, htodo, hcands, hk, hepoch⟩

end Sys2Proof.Machine
